-- ==== Sys2Proof/Word.lean ====
section
/-!
DEFINITION. The plain words the MT72 model is written in: bytes, words, walk descriptors, byte strings and
finite tables.  Rule R8 stores every multi-byte field least significant byte first; the operations that do so stand
in Machine/Ops.lean.
-/
namespace Sys2Proof

/-- One byte. -/
abbrev Byte := BitVec 8
/-- A 16-bit field. -/
abbrev W16 := BitVec 16
/-- A 32-bit scalar register or field (R161). -/
abbrev W32 := BitVec 32
/-- A 64-bit field, Almanac value or long accumulator (R77, R625). -/
abbrev W64 := BitVec 64
/-- A 128-bit walk descriptor (R176). -/
abbrev Desc := BitVec 128
/-- A byte string, lowest address first. -/
abbrev Bytes := List Byte
/-- A finite table: key and value pairs with strictly rising keys. -/
abbrev Tbl (α : Type) := List (Nat × α)

end Sys2Proof
end

