-- ==== Sys2Proof/Syntax.lean ====
section
/-!
DEFINITION. The commands of the MT72 block: one constructor of Instr per row of the opcode table, with the row's
operands.  Instructions of the MSQ-2 sequencer (R171) name the core and the slot they issue from; events name the unit
they happen in and carry what the surroundings deliver with them (bytes, readings, outcomes).
-/
namespace Sys2Proof

/-- Where a scalar or sync slot issues (R168): the core (128·row + col), whether the slot closes its bundle, and
whether a bit that R171 leaves reserved is set in the slot. -/
structure Place where
  core : Nat
  last : Bool
  rsv  : Bool
deriving DecidableEq, Repr

/-- Where a dispatch slot issues: as Place, with slotB telling slot B from slot A. -/
structure DPlace where
  core  : Nat
  slotB : Bool
  last  : Bool
  rsv   : Bool
deriving DecidableEq, Repr

/-- A writer of the object dictionary (R456): a submission queue, a management peer, or an authenticated session. -/
structure Writer where
  /-- 0 submission queue, 1 management peer, 2 authenticated session. -/
  kind : Nat
  /-- queue number, source address or session id. -/
  id   : Nat
deriving DecidableEq, Repr

/-- A management frame as the PHY and MAC deliver it (R471, R472). -/
structure MFrame where
  src       : Nat
  dst       : Nat
  etherType : Nat
  vlan      : Bool
  fcsOk     : Bool
  msg       : Bytes
deriving DecidableEq, Repr

/-- The header of a Damvy flit (R411); of one received, with the outcome of its CRC. -/
structure FlitHdr where
  kind     : Nat
  seq      : Nat
  ack      : Nat
  ackValid : Bool
  nak      : Bool
  /-- the place, in 16-byte units, of the first message that begins in the body; 15 for none. -/
  first    : Nat
  /-- the reserved bits [31:24]. -/
  rsv      : Nat
  posted   : Nat
  read     : Nat
  crcOk    : Bool
deriving DecidableEq, Repr

/-- A Waloskuno frame as received on a port (R594), with the outcome of its CRC and its payload lines. -/
structure FFrame where
  type       : Nat
  vc         : Nat
  destEngine : Nat
  srcEngine  : Nat
  seq        : Nat
  ack        : Nat
  ackValid   : Bool
  nak        : Bool
  creditVc   : Nat
  creditLines : Nat
  version    : Nat
  destStage  : Nat
  srcStage   : Nat
  specific   : BitVec 80
  payload    : Bytes
  crcOk      : Bool
deriving DecidableEq, Repr

/-- One region's sensor readings in a 100 µs sample (R513), in 1/65,536 °C; an absent coarse reading is none. -/
structure Diodes where
  region : Nat
  a      : Int
  b      : Int
  coarse : Option Int
deriving DecidableEq, Repr

/-- What the current monitor of a power region gives (R489, R507): its latest sample and the one taken 1 µs before it, in quarters of an
ampere, its resolution; its average over the last 1 ms in FIX16.16 A; and its largest sample since it was last read, in quarters. -/
structure MonRead where
  region : Nat
  amps   : Nat
  before : Nat
  mean   : Nat
  top    : Nat
deriving DecidableEq, Repr

/-- One regulator page as read by telemetry (R486), both values in FIX16.16. -/
structure PageRead where
  page    : Nat
  current : Nat
  voltage : Nat
deriving DecidableEq, Repr

/-- A host module that trains (R410), with the grants of its partner's control flit (R413). -/
structure LinkUp where
  site   : Nat
  module : Nat
  rate   : Nat
  width  : Nat
  posted : Nat
  read   : Nat
deriving DecidableEq, Repr

/-- A host site and one of its modules, by which a message comes (R407, R418). -/
structure HostPort where
  site   : Nat
  module : Nat
deriving DecidableEq, Repr

/-- A power region whose wake is asked for or looked at again, and what its neighbours' monitors give then (R495, R499). -/
structure WakeLook where
  region  : Nat
  samples : List MonRead
deriving DecidableEq, Repr

/-- What the surroundings and the die answer during a start (R534). -/
structure StartInputs where
  pgArray   : Bool
  pgAux     : Bool
  pgOpt     : Bool
  /-- the raw PUF readout (R549). -/
  puf       : Bytes
  /-- modules that train, or that are up and exchange control flits again. -/
  modulesUp : List LinkUp
  /-- ports whose eight lanes train. -/
  portsUp   : List Nat
deriving DecidableEq, Repr

/-- The commands of the block, one constructor per row of spec/opcode_table.json, in the table's order. -/
inductive Instr where
  -- scalar slot (R171)
  | add (p : Place) (rd rs1 rs2 : BitVec 5)
  | sub (p : Place) (rd rs1 rs2 : BitVec 5)
  | and (p : Place) (rd rs1 rs2 : BitVec 5)
  | or (p : Place) (rd rs1 rs2 : BitVec 5)
  | xor (p : Place) (rd rs1 rs2 : BitVec 5)
  | shl (p : Place) (rd rs1 rs2 : BitVec 5)
  | shr (p : Place) (rd rs1 rs2 : BitVec 5)
  | sra (p : Place) (rd rs1 rs2 : BitVec 5)
  | mul (p : Place) (rd rs1 rs2 : BitVec 5)
  | slt (p : Place) (rd rs1 rs2 : BitVec 5)
  | sltu (p : Place) (rd rs1 rs2 : BitVec 5)
  | addi (p : Place) (rd rs1 : BitVec 5) (imm : BitVec 14)
  | andi (p : Place) (rd rs1 : BitVec 5) (imm : BitVec 14)
  | ori (p : Place) (rd rs1 : BitVec 5) (imm : BitVec 14)
  | xori (p : Place) (rd rs1 : BitVec 5) (imm : BitVec 14)
  | shli (p : Place) (rd rs1 : BitVec 5) (imm : BitVec 14)
  | shri (p : Place) (rd rs1 : BitVec 5) (imm : BitVec 14)
  | srai (p : Place) (rd rs1 : BitVec 5) (imm : BitVec 14)
  | lui (p : Place) (rd : BitVec 5) (imm : BitVec 19)
  | ld (p : Place) (rd rs1 : BitVec 5) (imm : BitVec 14)
  | st (p : Place) (rs2 rs1 : BitVec 5) (imm : BitVec 14)
  | ld64 (p : Place) (rd rs1 : BitVec 5) (imm : BitVec 14)
  | st64 (p : Place) (rs2 rs1 : BitVec 5) (imm : BitVec 14)
  | beq (p : Place) (rs1 rs2 : BitVec 5) (off : BitVec 14)
  | bne (p : Place) (rs1 rs2 : BitVec 5) (off : BitVec 14)
  | blt (p : Place) (rs1 rs2 : BitVec 5) (off : BitVec 14)
  | bge (p : Place) (rs1 rs2 : BitVec 5) (off : BitVec 14)
  | bltu (p : Place) (rs1 rs2 : BitVec 5) (off : BitVec 14)
  | bgeu (p : Place) (rs1 rs2 : BitVec 5) (off : BitVec 14)
  | jmp (p : Place) (rs1 rs2 : BitVec 5) (off : BitVec 14)
  | jal (p : Place) (rd : BitVec 5) (off : BitVec 14)
  | jr (p : Place) (rs1 : BitVec 5)
  | loop (p : Place) (rs1 : BitVec 5) (off : BitVec 14)
  | dld (p : Place) (d : BitVec 4) (rs1 : BitVec 5) (imm : BitVec 15)
  | dst (p : Place) (d : BitVec 4) (rs1 : BitVec 5) (imm : BitVec 15)
  | daddr (p : Place) (d : BitVec 4) (rs1 : BitVec 5)
  | daddc (p : Place) (d : BitVec 4) (rs1 : BitVec 5)
  | csrr (p : Place) (rd : BitVec 5) (csr : BitVec 14)
  | csrw (p : Place) (rs1 : BitVec 5) (csr : BitVec 14)
  | cimAsel (p : Place) (mask : BitVec 8)
  /-- slot 0 scalar, 1 A, 2 B, 3 sync (R588). -/
  | slotNop (p : Place) (slot : BitVec 2)
  -- dispatch slots (R171)
  | tmCopy (p : DPlace) (dd ds : BitVec 4)
  | tmFill (p : DPlace) (dd : BitVec 4) (rs : BitVec 5) (size : BitVec 2)
  | shaDigest (p : DPlace) (ds : BitVec 4) (rs : BitVec 5) (fin : Bool)
  | veArith (p : DPlace) (dd da db : BitVec 4) (func : BitVec 4) (rs : BitVec 5)
  | veNorm (p : DPlace) (dd da db : BitVec 4) (func : BitVec 4) (rs : BitVec 5)
  | veAct (p : DPlace) (dd da db : BitVec 4) (func : BitVec 4)
  | veFunc (p : DPlace) (dd da : BitVec 4) (func : BitVec 4)
  | veCvt (p : DPlace) (dd da : BitVec 4)
  | accClr (p : DPlace) (t : BitVec 4)
  | accOut (p : DPlace) (t dd : BitVec 4) (rs : BitVec 5) (stat : Bool) (dstat : BitVec 4)
  | accAdd (p : DPlace) (t ds : BitVec 4)
  | aeQk (p : DPlace) (dd da db : BitVec 4) (rs : BitVec 5)
  | aeSm (p : DPlace) (dd da : BitVec 4) (rs : BitVec 5)
  | aePv (p : DPlace) (dd da db : BitVec 4)
  | spSample (p : DPlace) (dd ds : BitVec 4) (rs : BitVec 5)
  | cimEval (p : DPlace) (a : BitVec 5) (d t : BitVec 4) (clear narrow : Bool) (mode : BitVec 2)
  | cimEvalt (p : DPlace) (a : BitVec 5) (d t : BitVec 4) (clear narrow : Bool) (mode : BitVec 2)
  | qPush (p : DPlace) (oq : BitVec 3) (rs : BitVec 5)
  | qPop (p : DPlace) (iq : BitVec 3) (dd : BitVec 4)
  | rmread (p : DPlace) (oq : BitVec 3) (dd ds : BitVec 4) (rs : BitVec 5) (tag : BitVec 7)
  | nred (p : DPlace) (oq : BitVec 3) (ds : BitVec 4) (rs : BitVec 5) (a : BitVec 2) (id : BitVec 9)
  -- sync slot (R171)
  | syncWait (p : Place) (idx : BitVec 15) (rs : BitVec 5)
  | syncSignal (p : Place) (idx : BitVec 15) (rs : BitVec 5) (one : Bool)
  | qwait (p : Place) (outb : Bool) (q : BitVec 3) (n : BitVec 6)
  | fence (p : Place) (mask : BitVec 8)
  | step (p : Place) (rs : BitVec 5) (kind : W16)
  | tag (p : Place) (slotB : Bool) (id : BitVec 20)
  -- events inside a core
  /-- engine numbers: 0 TM, 1 SHA, 2 VE, 3 AE, 4 SP, 5 + s array set s (R170). -/
  | operationStart (core eng : Nat)
  | waitSatisfied (core : Nat)
  | signalRelease (core : Nat)
  | clockStop (core : Nat)
  | budgetOverrun (core : Nat)
  | waitLimit (core : Nat)
  | activityOverrun (core : Nat)
  -- packets: flight is a position in the list of packets in the mesh
  | readReq (flight : Nat)
  | mergeReq (flight : Nat)
  | mergeWindowClose (core row col : Nat)
  | readReply (flight : Nat)
  | mergeReply (flight : Nat)
  | remoteWrite (flight : Nat)
  | writeAck (flight : Nat)
  | reduce (flight : Nat)
  | signal (flight : Nat)
  | stepToken (flight : Nat)
  | packetHop (flight : Nat)
  | ifaceOut (flight : Nat)
  | ifaceIn (flight : Nat)
  -- faults, flush, repair
  /-- marchFails: the outcome of the march test of R570; source: the core's program section as read again. -/
  | fault (core : Nat) (marchFails : Bool) (source : Option Bytes)
  | imageFlush (region : Nat)
  | flushDrained (region : Nat)
  | faultActionStop (core : Nat)
  | faultActionRestart (core : Nat)
  /-- cause: an error code 0x0201 to 0x0205 of R588, with its Aux0. -/
  | coreDead (core : Nat) (code : Nat) (aux0 : Nat)
  | sequencerWatchdog (core : Nat)
  | heartbeatMissing (core : Nat)
  /-- source: the control part and the tile records of the moved tiles as read from the source window. -/
  | relocation (region : Nat) (control : Option Bytes) (tiles : List (Option Bytes))
  -- host commands: h is the slot of the accepted command's handle, data what the host returned for its reads
  | createSq (h : Nat)
  | deleteSq (h : Nat)
  | createRing (h : Nat)
  | deleteRing (h : Nat)
  | setEvents (h : Nat)
  | odRead (h : Nat)
  | odWrite (h : Nat) (data : Option Bytes)
  | submit (h : Nat) (descriptor prompt : Option Bytes)
  | cancel (h : Nat)
  | load (h : Nat) (stages control manifest : Option Bytes)
  | unload (h : Nat)
  | swap (h : Nat) (stages control manifest : Option Bytes)
  | relocate (h : Nat) (list : Option Bytes)
  | window (h : Nat)
  | tune (h : Nat) (params : Option Bytes)
  | attest (h : Nat) (nonce : Option Bytes)
  | calibrate (h : Nat)
  | vigilArm (h : Nat)
  | vigilDisarm (h : Nat)
  | counterDump (h : Nat)
  | fwWrite (h : Nat) (image : Option Bytes)
  | fwActivate (h : Nat)
  | sessionOpen (h : Nat) (block : Option Bytes)
  | sessionClose (h : Nat)
  | keyload (h : Nat) (blob : Option Bytes)
  | restartWarm (h : Nat)
  | restartCold (h : Nat)
  | nop (h : Nat)
  -- host links
  /-- the flit's 256 bytes (R410). -/
  | flit (site module : Nat) (flit : Bytes)
  | linkTrained (site module rate width posted read : Nat)
  /-- reported: UCIe reports the link down; else the module has held unacknowledged flits too long (R442). -/
  | moduleDown (port : HostPort) (reported : Bool)
  | retrainTimeout (site module : Nat)
  -- messages of the host, with their header as received (R414)
  | mrdCpl (site module : Nat) (hdr : BitVec 128) (data : Bytes)
  | mrdErr (site module : Nat) (head addr : W64)
  | ewr (site module : Nat) (hdr : BitVec 128) (value : W64)
  | erd (site module : Nat) (head addr : W64)
  | sqDoorbell (port : HostPort) (queue : Nat) (value : W64)
  | ringDoorbell (port : HostPort) (value : W64)
  | adminCommit (port : HostPort)
  | adminRelease (port : HostPort)
  -- serving
  | pipelineSlot (region : Nat)
  | frameReturn (ctx : Nat) (frames : List (Option Bytes))
  /-- the result lines of R606, posted for context ctx. -/
  | spResult (region ctx sequence : Nat) (result : Bytes)
  | blockClose (ctx block : Nat)
  | int4Compaction (core slot : Nat)
  | park (ctx : Nat)
  | deadlinePassed (ctx : Nat)
  | shardArrival (region shard : Nat) (data : Option Bytes)
  | shardReadback (region shard : Nat)
  | swapBarrierClosed (region : Nat)
  | drainDeadline (region : Nat)
  | swapActivate (region : Nat) (control : Option Bytes)
  | swapGroupTimeout (region : Nat)
  | rebind (region : Nat) (control : Option Bytes)
  -- upkeep
  | ageTick
  | sentinelForce (core set : Nat)
  | intercalarySlot (core set : Nat)
  | upkeepSliceEnd (core set : Nat)
  -- power
  | dozeEntry (g : Nat)
  | darkEntry (g : Nat)
  /-- reason: 0 flit, 1 remote request, 2 upkeep, 3 region commit, 4 retry (R495). -/
  | wakeRequest (look : WakeLook) (reason : Nat)
  | neighbourRecheck (look : WakeLook)
  | wakeWaitLimit (g : Nat)
  | regionWake (g : Nat)
  | wakePgTimeout (g : Nat)
  /-- cause: 1 PG fell, 2 FLT_N fell (0x3100+g:07), with the STATUS_WORD read. -/
  | regionLost (g cause status : Nat)
  | retry (w : Writer) (g value : Nat)
  | retryPgTimeout (g : Nat)
  | arrayRailLost
  | auxRailLost
  | auxHoldLimit
  | auxRailReturn
  | optRailLost
  | optRailReturn
  | telemetry (pages : List PageRead)
  | powerUpdate (samples : List MonRead)
  -- cooling
  | gateUpdate
  | thermalCapUpdate
  | diodeSample (readings : List Diodes)
  | pairFault (g : Nat)
  | trayRead (sample : Option Bytes)
  | trayStale
  | trayLost
  | holdEnd
  /-- the diode readings of the same 100 µs sample (R525). -/
  | holdLimit
  | hardwareTrip (g : Nat)
  | coldStartRequest (w : Writer) (value : Nat)
  -- starts
  | coldStart (inputs : StartInputs)
  | warmStart (inputs : StartInputs)
  | recoveryStart (inputs : StartInputs)
  | startComplete
  | startFailed (step : Nat)
  | managementWatchdog
  | lowerTreeBuilt
  -- dictionary and store
  /-- the copies that verify at last, A and B (R464). -/
  | blockSave (block : Nat) (aOk bOk : Bool)
  | shadowWrite (w : Writer) (index sub : Nat) (value : Bytes)
  | shadowDiscard (w : Writer) (index : Nat)
  | shadowTimeout (w : Writer) (index : Nat)
  | regionCommit (w : Writer) (region : Nat)
  | regionRelease (w : Writer) (region : Nat)
  | segmentCommit (w : Writer)
  | scopeCommit (w : Writer)
  | watchArm (w : Writer) (watch : Nat)
  | watchDisarm (w : Writer) (watch : Nat)
  | clearWarnings (w : Writer) (mask : W32)
  | flush (w : Writer) (value : Nat)
  | restoreDefaults (w : Writer) (key : W32)
  | clearFallback (w : Writer) (value : Nat)
  | flushPrefix (w : Writer) (region : Nat)
  | clearPairFault (w : Writer) (g value : Nat)
  | clearFlags (w : Writer) (mask : W32)
  | clearOverflow (w : Writer) (value : Nat)
  | sillageMark (w : Writer) (value : W32)
  | restore (w : Writer) (site value : Nat)
  | custodyEnable (w : Writer) (value : Nat)
  -- management segment
  | read (f : MFrame)
  | write (f : MFrame)
  | ident (f : MFrame)
  | identHoldoff (peer : Nat)
  | openPart (f : MFrame)
  | openPartTimeout (peer : Nat)
  | close (f : MFrame)
  | fwPart (f : MFrame)
  | fwCommit (f : MFrame)
  | fwTransferTimeout (peer : Nat)
  | txAbandon
  /-- beacon: a BEACON has arrived; otherwise none has. -/
  | plcaFallback (beacon : Bool)
  | sessionIdle (session : Nat)
  -- fabric
  | data (port : Nat) (f : FFrame)
  | wack (port : Nat) (f : FFrame)
  | result (port : Nat) (f : FFrame)
  | ack (port : Nat) (f : FFrame)
  | hello (port : Nat) (f : FFrame)
  | helloPeriod
  | almanacExchange
  | almanacRequest (port : Nat) (f : FFrame)
  /-- t4: the follower's Almanac at arrival, in 1/8 ns (R609). -/
  | almanacReply (port : Nat) (f : FFrame) (t4 : Nat)
  | bound (port : Nat) (f : FFrame)
  | activate (port : Nat) (f : FFrame)
  | swapVerified (port : Nat) (f : FFrame)
  | swapRewrite (port : Nat) (f : FFrame)
  | swapRewritten (port : Nat) (f : FFrame)
  | swapSwitch (port : Nat) (f : FFrame)
  | swapSwitched (port : Nat) (f : FFrame)
  | swapRollback (port : Nat) (f : FFrame)
  | controlFault (port : Nat) (f : FFrame)
  | flushStop (port : Nat) (f : FFrame)
  | flushRestart (port : Nat) (f : FFrame)
  | flushed (port : Nat) (f : FFrame)
  | rejected (port : Nat) (f : FFrame)
  | replayTimeout (port peer : Nat)
  | peerUnreachable (peer : Nat)
  /-- reason: 0 lock or alignment lost, 1 link degraded, 2 rail lost, 3 disabled (R592). -/
  | portDown (port reason : Nat)
  | portRetrain (port : Nat) (trained : Bool)
  -- observability
  | snapshot (ring : Nat)
  | watchDump (core op : Nat)
  | handleProgressTimeout (h : Nat)
  | vigilDump (region : Nat)
  | periodicMark
  -- rows added at the table's end
  | operationTakesEffect (core eng : Nat)
  | undefinedOpcode (p : Place) (slot : BitVec 2) (opcode : Byte)
  | stepLeavesImage (region sequence : Nat)
  /-- failed: the logical columns that did not verify (R122). -/
  | arrayProgrammed (core array : Nat) (failed : List Nat)
  | aonRailLost
  | managementMemoryError
  | gateWindow
  | ackDelay (port peer : Nat)
  /-- collided: the transmission met a collision (R480). -/
  | transmitOpportunity (collided : Bool)
  | plcaCollisionQuiet
  | irqIntervalExpiry (ring : Nat)
  | linkL1Entry (site module : Nat)
  | attestSigned
deriving DecidableEq, Repr

end Sys2Proof
end

