-- ==== Sys2Proof/Decode.lean ====
section
/-!
DEFINITION. Words to commands.  The command table gives no row any bits: the block's commands are operations and events, not
encodings, so no word spells a command.
-/
namespace Sys2Proof

/-- The command an nbits-wide word spells by the table's bits: none, since no row of the table has bits. -/
def decodeTableWord (_nbits _w : Nat) : Option Instr := none

end Sys2Proof
end

