-- ==== Sys2Proof/Config.lean ====
section
/-!
DEFINITION. What the spec leaves open: free values (opaque constants without a body, so that no proof can rest on a value of
them), quantities each implementation fixes, and the published algorithms that the spec only names.
-/
namespace Sys2Proof.Config

/-! ## Analog behaviour (R87, R129) -/

/-- FREE VALUE. The analog error of the k-th conversion of an evaluation, in 1/65,536 of a level·step (R87, R129). -/
opaque convError : Nat → Int
/-- FREE VALUE. The analog error of the k-th cell read in read mode, in 1/65,536 of a level (R49, R87). -/
opaque readError : Nat → Int
/-- FREE VALUE. What a calibration fits: the k-th 10-bit code of a DAC trim table, and the k-th gain or offset trim (R45, R106). -/
opaque dacFit : Nat → BitVec 10
opaque adcFit : Nat → Int
/-- FREE VALUE. The logical columns that have a cell still outside the verify tolerance after the eight rounds of the k-th row write (R122). -/
opaque failedCells : Nat → List Nat
/-- FREE VALUE. Whether the fit of the k-th warm-start spot check differs from the retained trims (R107). -/
opaque spotDiffers : Nat → Bool
/-- FREE VALUE. The pulse rounds the k-th row write needed, 1 to 8 (R120). -/
opaque rounds : Nat → Nat

/-! ## Values bounded but not fixed -/

/-- FREE VALUE. How many units in the last place a function's result lies from the rounded exact value, as the VE, AE and SP compute it:
reciprocal 0, reciprocal square root 1, 2^x 2, log2 3, e^x 4, erf 5, the SP's e^x 6, the AE's 2^x 7; a result further than R172's two
units from the exact value is not taken. -/
opaque ulp : Nat → W32 → Int
/-- FREE VALUE. The FP32 sum of a list of terms in the attention engine's order of accumulation, which no rule fixes (R321, R323); it counts
only where that order matters. -/
opaque aeSum : List W32 → W32
/-- FREE VALUE. What AE.QK leaves in the score tile at the e-th element, for an invisible key (R321: marked). -/
opaque maskedScore : Nat → W32
/-- FREE VALUE. The NaN that an FP32 addition with a NaN operand, or of opposite infinities, produces in a router (R233). -/
opaque nanOf : W32 → W32 → W32
/-- FREE VALUE. The length, in elements, lines or bytes, of the prefix that a stopped operation has written (R206 step 2). -/
opaque stopped : Nat → Nat
/-- FREE VALUE. Aux0 of an activity declaration fault of STEP, by step kind (R588 says mask; STEP names none). -/
opaque stepMask : Nat → Nat
/-- FREE VALUE. Which of the multi-request steps in flight a STEP with rs 0xFFFF_FFFE begins, or a fault told by another engine belongs to
(R349, R576). -/
opaque whichStep : Nat → Nat
/-- FREE VALUE. The delay drawn for a broadcast IDENT, in ns (R474). -/
opaque holdoff : Nat → Nat
/-- FREE VALUE. Which of two concurrently written copies a racing remote read returns (R151, R186). -/
opaque racing : Nat → Bool
/-- FREE VALUE. Aux0 of a fault of cause 15 that a packet damaged in the mesh causes (R219; R588 says an address and there is none). -/
opaque meshAux : Nat → Nat
/-- FREE VALUE. The smallest pool among the other stages of a pipeline group, by stage table and model version: no message tells it to
stage 0 (R299). -/
opaque otherPool : List Nat → Nat → Nat
/-- FREE VALUE. The check bits of a 64-bit word of a flit, whose SEC-DED code is not given (R217). -/
opaque secded : BitVec 64 → BitVec 8
/-- FREE VALUE. Bytes of the engine's random source (R550). -/
opaque random : Nat → Nat → Bytes

/-- FREE VALUE. How often the engine has updated an RO entry that it keeps (R450): whether an update that leaves the value as it was
counts, and how often a measured value is updated, no rule fixes. -/
opaque engineUpdates : Nat → BitVec 32

/-- FREE VALUE. Whether a copy of a store block verifies at last, in a save that no BLOCK_SAVE reports (R464). -/
opaque copyOk : Nat → Bool

/-! ## Quantities of the implementation -/

/-- ScoreScale and Heads of the length tables (R314), which the engine writes and no rule derives, by model version. -/
opaque scoreScale : Nat → W32
opaque heads : Nat → Nat
/-- FREE VALUE. The trigger core that a Vigil dump carries when a handle's timeout began it (R634, R636 give none). -/
opaque vigilCore : Nat → Nat
/-- FREE VALUE. Heads of the queues, and the ready and reserved counts of outbound queues, in a Vigil dump: where a queue keeps its head
no rule fixes (R636). -/
opaque vigilQueue : Nat → Byte
/-- FREE VALUE. Status of an OPEN_RSP that refuses, by the outcome of R560 (R561 gives none). -/
opaque openStatus : Nat → BitVec 16
/-- STATUS_WORD that a page answers when PG has not come in time, by the draw (R486, R502, R505). -/
opaque statusWord : Nat → BitVec 16
/-- FREE VALUE. Codewords that the FEC of a port has corrected, or not corrected, by a time (R613: no rule tells when one is). -/
opaque fecCount : Bool → Nat → Nat → BitVec 64
/-- FREE VALUE. The i-th word of the training data of a tuning job, which lies in host memory (R330), by the job's parameter block. -/
opaque trainWord : Bytes → Nat → BitVec 32
/-- FREE VALUE. The gradient of an element (layer, target, whether of B, place) in an optimiser step of a job, from the parameter block and the
step's tokens, each with its place in its record, its id and its loss flag (R329, R330). -/
opaque gradient : Bytes → Nat → List (Nat × Nat × Bool) → Nat × Nat × Bool × Nat → BitVec 32
/-- FREE VALUE. A standard normal number generated from a job's seed for an element of A: layer, target, place (R330). -/
opaque normal : W64 → Nat → Nat → Nat → BitVec 32
/-- The layers of a model, and the inputs and outputs of its target matrices, by model version (R330). -/
opaque modelLayers : Nat → Nat
opaque targetSize : Nat → Nat → Nat × Nat
/-- How an OPEN block's contents fill an INT4 eviction frame, and back (R309 to R311 fix no form for it). -/
opaque openFrame : Bool → Bytes → Bytes

/-- The upper half of the source word of a Sillage record that comes from no core and no field (R638 gives none). -/
opaque centralSource : Nat → Nat

/-- The store block that holds a dictionary entry or engine record (R462: one fixed block each). -/
opaque blockOf : Nat → Nat
/-- The layout version that a firmware version writes into the store's copies (R463, R465). -/
opaque layoutOf : Nat → Nat
/-- The hash of the vendor key in mask ROM (R543). -/
opaque vendorKeyHash : Bytes
/-- How a MAC address derives from the stack serial (R475). -/
opaque macOf : Bytes → Nat

/-! ## Published algorithms that the spec names -/

/-- HSS/LMS verification (R553, NIST SP 800-208): public key, message, signature. -/
opaque hssVerify : Bytes → Bytes → Bytes → Bool
/-- HSS/LMS signing by the device key (R555, R556): seed, id, leaf, message. -/
opaque hssSign : Bytes → Bytes → Nat → Bytes → Bytes
/-- The top-tree public key derived from the attestation seed and id (R551). -/
opaque hssPublic : Bytes → Bytes → Bytes
/-- ML-KEM-1024: the encapsulation key from d and z, and decapsulation (R550, R560). -/
opaque kemPublic : Bytes → Bytes
opaque kemDecaps : Bytes → Bytes → Bytes
/-- AES-256-GCM opening (R564, R566): key, nonce, additional data, ciphertext with tag; none when the tag fails. -/
opaque gcmOpen : Bytes → Bytes → Bytes → Bytes → Option Bytes
opaque gcmSeal : Bytes → Bytes → Bytes → Bytes → Bytes
/-- AES-256 in counter mode (R566): key, first counter block, data. -/
opaque ctr : Bytes → Bytes → Bytes → Bytes
/-- BCH reconstruction of the PUF root key from a readout and the helper data (R549). -/
opaque pufRoot : Bytes → Bytes → Bytes

end Sys2Proof.Config
end

