-- ==== Sys2Proof/Machine/State.lean ====
section
/-!
DEFINITION. Everything the spec gives the MT72 to hold, as plain data, and its value right after VDD_AON has risen
(R531, R534 step 1).  Units kept in tables are absent while they hold their reset value: reading a key that a table
does not list gives the unit's reset structure.  Times are engine nanoseconds (field now), which an idle step advances.
-/
namespace Sys2Proof.Machine

/-! ## Why a step can stop -/

/-- The reasons a step can fault.  No command of the table faults: the spec gives every command an effect, and an error the
machine meets (a failed check, a refused request, a lost supply) is an effect on the state. -/
inductive Fault where
  /-- Raised by no command; kept so that the interface has a reason to name.  Safe: a run never ends in it. -/
  | stuck
deriving DecidableEq, Repr

/-- The reasons a step can be refused. -/
inductive Refusal where
  /-- The command has no meaning in the model yet; raised by its arm of exec alone.  Safe: the run stops. -/
  | notModelled (mnemonic : String)
deriving DecidableEq, Repr

/-! ## Inside a core -/

/-- Scratchpad bytes: rising addresses, no entry equal to 0, what an unlisted address reads as (R140). -/
abbrev Memory := List Host.Cell

/-- A dispatch operation with its operands as captured at issue (R178). -/
inductive DOp where
  | tmCopy (dd ds : Desc)
  | tmFill (dd : Desc) (pat : W64) (size : Nat)
  | sha (ds : Desc) (addr : W32) (fin : Bool)
  | veArith (dd da db : Desc) (func : Nat) (s : W32)
  | veNorm (dd da db : Desc) (func : Nat) (eps : W32)
  | veAct (dd da db : Desc) (func : Nat)
  | veFunc (dd da : Desc) (func : Nat)
  | veCvt (dd da : Desc)
  | accClr (t : Nat)
  | accOut (t : Nat) (dd : Desc) (mult : W32) (stat : Bool) (dstat : Desc)
  | accAdd (t : Nat) (ds : Desc)
  | aeQk (dd da db : Desc) (table : W32)
  | aeSm (dd da : Desc) (stats : W32)
  | aePv (dd da db : Desc)
  | spSample (dd ds : Desc) (addr : W32)
  | cimEval (trans : Bool) (a : Nat) (d : Desc) (t : Nat) (clear narrow : Bool) (mode : Nat)
  | qPush (oq : Nat) (addr : W32)
  | qPop (iq : Nat) (dd : Desc)
  | rmread (oq : Nat) (dd ds : Desc) (home : W32) (tag : Nat)
  | nred (oq : Nat) (ds : Desc) (dest : W32) (a id : Nat)
deriving DecidableEq, Repr

/-- A dispatch operation in a queue or in progress (R170): its issue number, engine and the step it belongs to. -/
structure QOp where
  num    : Nat
  eng    : Nat
  op     : DOp
  step   : Nat
  kind   : W16
  req    : W32
  /-- which delivered step of several requests it belongs to (R357). -/
  stepSeq : Option Nat
  bundle : Nat
  slot   : Nat
  tag    : Option Nat
  /-- watches whose dump the operation's TAG names (R628). -/
  dumps  : List Nat
  /-- the governor threshold at issue (R56). -/
  gov    : Nat
  /-- when it was issued (R357). -/
  since  : Nat
  /-- an evaluation that waits for an array held for repair: until when its wait has been recorded (R403). -/
  held   : Option Nat := none
deriving DecidableEq, Repr

/-- What an evaluation found when it started (R51 to R63, R91 to R97): exact contributions of its outputs, phases run. -/
structure EvalPlan where
  /-- the additions into the tile, one list of amounts by entry for each: the group results in order, then the correction unit's. -/
  rounds   : List (List Int)
  /-- the phases that have run when each group result is complete (R57, R203). -/
  ends     : List Nat
  phases   : Nat
  fellBack : Bool
  /-- when its first phase starts; the others follow 20 ns apart (R57, R68, R203). -/
  since    : Nat
deriving DecidableEq, Repr

/-- An operation in progress in its engine. -/
structure ActOp where
  q    : QOp
  plan : Option EvalPlan
deriving DecidableEq, Repr

/-- A scalar access to memory that may have to wait for the scoreboard (R150, R179). -/
inductive MemOp where
  | ld (rd : BitVec 5) (addr : W32)
  | st (addr : W32) (v : W32)
  | ld64 (rd : BitVec 5) (addr : W32)
  | st64 (addr : W32) (v : W64)
  | dld (d : BitVec 4) (addr : W32)
  | dst (addr : W32) (v : Desc)
deriving DecidableEq, Repr

/-- What holds issue. -/
inductive Held where
  | mem (m : MemOp)
  | syncWait (idx : Nat) (target : W32)
  | qwait (outb : Bool) (q n : Nat)
  | fence (mask : BitVec 8)
  | queue (op : QOp)
  | signal (idx : Nat) (amount : W32)
deriving DecidableEq, Repr

/-- A loop counter (R161, R173). -/
structure LoopCtr where
  first     : Nat
  last      : Nat
  remaining : Nat
deriving DecidableEq, Repr

/-- A signal in the signal buffer (R196): released when every operation numbered below num has taken effect. -/
structure Sig where
  idx    : Nat
  amount : W32
  num    : Nat
  /-- bundle and slot of the instruction that asked for it (R206, R207). -/
  issuer : Nat × Nat
deriving DecidableEq, Repr

/-- The sequencer's architectural state (R161) and what its issue stage holds. -/
structure Seq where
  pc       : BitVec 12
  next     : BitVec 12
  regs     : Vector W32 32
  descs    : Vector Desc 16
  asr      : BitVec 8
  loops    : List LoopCtr
  entered  : Nat
  stepKind : W16
  stepReq  : W32
  /-- the delivered step, by its Sequence, that the last STEP of several requests began (R349). -/
  stepSeq  : Option Nat
  stepFrom : Nat
  stepAcc  : Nat
  stepNum  : Nat
  maxSets  : Nat
  budget   : Nat
  phaseLim : Nat
  phases   : Nat
  /-- earlier steps with evaluations still to run: step number, PhaseLimit, phases counted (R203). -/
  older    : List (Nat × Nat × Nat)
  opNum    : Nat
  queued   : List QOp
  sigBuf   : List Sig
  /-- registers that an LD or LD64 has loaded, and when: bundles two or more cycles later can read them (R169). -/
  loaded   : List (BitVec 5)
  loadAt   : Nat
deriving DecidableEq, Repr

/-- The bundle in issue: the sequencer as it stood before the bundle (R169), what an already issued store overwrote
(R206: a fault at issue suppresses the whole bundle), the last slot seen, and the operations of slots A and B. -/
structure Bundle where
  pre  : Seq
  /-- a taken branch has set the next bundle. -/
  taken : Bool
  undo : List (Nat × Byte)
  /-- entries of the accumulator tiles (0 to 8,191) and status words (8,192 on) that a store overwrote, the last first. -/
  undoWin : List (Nat × W64)
  /-- words with an uncorrectable and with a single-bit error that a store renewed. -/
  undoBad : List Nat
  undoSoft : List Nat
  slot : Nat
  opA  : Option Nat
  opB  : Option Nat
deriving DecidableEq, Repr

/-- A sequencer's run state. -/
inductive Run where
  /-- no program bound, or not started yet (R263 step 5). -/
  | halted
  | issuing
  /-- stopped by a step fault or a FAULT packet with Action 1 (R206, R576). -/
  | stopped
  /-- stopped by a Vigil dump (R635) or a coolant hold (R522): resumes where it stood, or is flushed. -/
  | frozen
deriving DecidableEq, Repr

/-- One step-kind entry of a program header (R211). -/
structure StepDecl where
  kind    : Nat
  maxSets : Nat
  phases  : Nat
  budget  : Nat
deriving DecidableEq, Repr

/-- The program header as bound (R211). -/
structure Prog where
  bundles : Nat
  entry   : Nat
  restart : Nat
  initial : Nat
  kinds   : List StepDecl
deriving DecidableEq, Repr

/-- One entry of an outbound queue (R182): a request line, a remote-merge request or a reduction line. -/
structure OqEntry where
  num   : Nat
  nred  : Bool
  line  : Bytes
  sent  : Bool
  /-- reduction: destination core, arithmetic, id, line number. -/
  dest  : Nat
  a     : Nat
  id    : Nat
  lineNo : Nat
  /-- bundle and slot of the instruction that queued it. -/
  issuer : Nat × Nat
deriving DecidableEq, Repr

/-- One entry of an inbound queue (R183, R184), reserved until filled. -/
structure IqEntry where
  req    : Nat
  filled : Bool
  data   : Bytes
  /-- a completion's non-zero Status with the Aux0 of the fault it causes when ready (R190). -/
  status : Nat
  aux0   : Nat
  /-- bundle and slot of the instruction that made the request. -/
  issuer : Nat × Nat
deriving DecidableEq, Repr

/-- A request that has been sent and is not complete (R183, R189). -/
structure Await where
  req    : Nat
  q      : Nat
  num    : Nat
  cls    : Nat
  write  : Bool
  merge  : Bool
  toWalk : Bool
  walk   : Desc
  /-- the walk on the home core. -/
  source : Desc
  lines  : Nat
  left   : Nat
  tag    : W32
  sig    : Option Nat
  status : Nat
  home   : Nat
  /-- bundle and slot of the instruction that made the request. -/
  issuer : Nat × Nat
deriving DecidableEq, Repr

/-- A walk held as a read footprint: a write not yet sent (R186) or a tensor-watch dump (R629). -/
structure WalkHold where
  num  : Nat
  walk : Desc
deriving DecidableEq, Repr

/-- The attention engine between its operations (R321, R323). -/
structure AeState where
  /-- the step and the length table the cursor walks. -/
  step    : Nat
  table   : W32
  cursor  : Nat
  null    : Bool
  entry   : Nat
  qTile   : Nat
  block   : Nat
  head    : Nat
  visible : List Bool
  factors : List W32
  fresh   : List Bool
deriving DecidableEq, Repr

/-- One weight array and its record (R36 to R41, R84 to R86, R121, R128, R384). -/
structure Arr where
  state     : Nat
  format    : Nat
  /-- levels by 528·row + physical column; unlisted cells hold level 8. -/
  levels    : Tbl Nat
  /-- logical columns mapped to a spare. -/
  colMap    : Tbl Nat
  /-- substituted logical columns with their stored levels by row (R97). -/
  subst     : Tbl (List Nat)
  scales    : Tbl (BitVec 16)
  /-- the live capacities as the record declares them; all zero declares none (R91). -/
  liveCap   : List Nat
  /-- the tile of the bound image, if the array holds one: layer, shard, ShardOffset. -/
  tile      : Option (Nat × Nat × Nat)
  /-- worn columns that wait for a spare, with their levels (R122, R123). -/
  worn      : Tbl (List Nat)
  /-- a tile record being written back after a failed digest check; empty when there is none (R385). -/
  repair    : Bytes
  digest    : Bytes
  /-- when the last calibration pass completed, and the region's accumulated age when the refresh age was last reset (R110, R128). -/
  calAt     : Nat
  ageBase   : Nat
  overflow  : Nat
  alarms    : Nat
  fullWrites : Nat
  colEvents : Tbl Nat
  sparesUsed : Nat
  pulses    : Nat
  group     : Nat
  nextRow   : Nat
  /-- cells that the refresh pass in progress snapped to a level other than the stored one, by 512·row + logical column (R385). -/
  snaps     : Tbl Nat
  /-- the next row that the repair of the array writes (R123, R385). -/
  fixRow    : Nat
  /-- columns with a cell that failed its verify in that repair (R122). -/
  fixFailed : List Nat
  calGroup  : Nat
  calTemp   : Int
  fallbacks : List Nat
  retries   : Nat
deriving DecidableEq, Repr

/-- An upkeep task pending on an array set; level is its place in R115, 0 a repair slice (R123, R385). -/
structure Task where
  level : Nat
  array : Nat
deriving DecidableEq, Repr

/-- A sentinel sample (R100): the evaluation's array, direction and input, the analog sums, when it was taken, and the row
group the check reads next. -/
structure Sample where
  array : Nat
  trans : Bool
  input : List Int
  sums  : List (Option Int)
  /-- group and output pairs left out of the sums. -/
  skip  : List (Nat × Nat)
  since : Nat
  group : Nat
deriving DecidableEq, Repr

/-- An upkeep slice in progress. -/
structure Slice where
  task   : Task
  since  : Nat
  /-- it went ahead of queued evaluations, whose waits are recorded (R118, R403). -/
  forced : Bool
deriving DecidableEq, Repr

/-- The trims of one converter slice (R45, R106): its DAC table of 16 codes, and its gain and offset trims, forward and transposed. -/
structure Trim where
  dac    : List (BitVec 10)
  gain   : List Int
  offset : List Int
deriving DecidableEq, Repr

/-- The trims of a slice that no calibration has reached. -/
def Trim.reset : Trim := { dac := List.replicate 16 0, gain := [0, 0], offset := [0, 0] }

/-- An array set: its converter set, correction unit and upkeep state (R43, R44, R68, R88, R99, R114). -/
structure ASet where
  /-- 0 idle, 1 forward, 2 transposed, 3 read, 4 program, 5 upkeep slice (R44). -/
  use       : Nat
  /-- when the read phases that end the evaluation in progress begin, if it has any (R44, R93, R95). -/
  readAt    : Option Nat
  dirTrans  : Bool
  lastPhase : Option Nat
  lastForced : Option Nat
  outliers  : List W32
  evals     : Nat
  sample    : Option Sample
  slice     : Option Slice
  tasks     : List Task
  /-- trims that calibration slices have written since the last cold start, by slice: 0 to 511 row-edge, 512 to 1,039 column-edge. -/
  trims     : Tbl Trim
  /-- evaluations numbered below it have met a slice: they run before the next forced slice (R117, R123). -/
  fixAfter  : Nat
deriving DecidableEq, Repr

/-- A line of a router's merge buffer (R158): when its bank was granted, whether its first reply has left, its contents. -/
structure MergeLine where
  row     : Nat
  col     : Nat
  opened  : Nat
  replied : Bool
  data    : Bytes
  /-- a write of the line by any port has closed its window. -/
  closed  : Bool
deriving DecidableEq, Repr

/-- A router (R227, R234, R235, R254, R572). -/
structure Router where
  red     : Tbl W64
  recv    : Tbl (Nat × W32)
  merge   : List MergeLine
  /-- it has failed in service on a core fenced for another cause: a hole all the same (R227). -/
  dead    : Bool
  /-- single-bit errors of arriving flits that it has corrected (R219). -/
  corrected : Nat
deriving DecidableEq, Repr

/-- A step fault the core has raised and not yet reported to the fault service (R206 step 4, R586). -/
structure FaultRep where
  cause  : Nat
  bundle : Nat
  slot   : Nat
  kind   : W16
  req    : W32
  /-- which delivered step of several requests it was (R576). -/
  stepSeq : Option Nat
  aux0   : Nat
  time   : Nat
  /-- for cause 15: the bank, or 32 + tile, that held the failing word. -/
  unit   : Nat
deriving DecidableEq, Repr

/-- A core: everything inside its boundary. -/
structure Core where
  run      : Run
  clockOn  : Bool
  fence    : Option Nat
  seq      : Seq
  bundle   : Option Bundle
  held     : Option Held
  heldLast : Bool
  waitFrom : Nat
  idleFrom : Nat
  lastIssue : Nat
  /-- when its clock stopped in a wait: the watchdog does not count from there on (R571). -/
  stoppedAt : Option Nat
  /-- the 8 most recently fetched lines of the program window, oldest first (R166). -/
  fetched  : List Nat
  prog     : Prog
  mem      : Memory
  acc      : Tbl W64
  accStat  : Tbl W64
  badWords : List Nat
  /-- 64-bit words of the banks and tiles that hold a single-bit error (R139, R159). -/
  softWords : List Nat
  active   : Tbl ActOp
  oqs      : Tbl (List OqEntry)
  iqs      : Tbl (List IqEntry)
  awaits   : List Await
  holds    : List WalkHold
  ae       : AeState
  arrays   : Tbl Arr
  sets     : Tbl ASet
  router   : Router
  /-- event counters by 8·block + counter, and sticky overflow bits set (R615). -/
  ctrs     : Tbl Nat
  ovf      : List Nat
  /-- when the counters were last cleared by the loss of the region (R618, R624). -/
  clearedAt : Nat
  report   : Option FaultRep
  /-- match and dump counts of the tensor watches, and whether the current step dumps (R628). -/
  watchN   : Tbl (Nat × Nat × Bool)
  restartBy : Option Nat
  /-- INT4 slots of its key-value area whose block the core has compacted (R296). -/
  packed   : List Nat
  /-- results the SP has posted to the serving controller and that have not arrived there, oldest first: the context and the result
  (R352, R667). -/
  posts    : List (Nat × Bytes)
deriving DecidableEq, Repr

/-! ## The mesh -/

/-- A mesh packet: the header of R220 and its payload bytes. -/
structure Packet where
  op      : Nat
  region  : Nat
  detour  : Nat
  dest    : Nat
  src     : Nat
  length  : Nat
  count   : Nat
  id      : Nat
  line    : Nat
  a       : Nat
  /-- an interface packet's class, which its virtual channel tells; 0 for the other kinds. -/
  cls     : Nat
  /-- the lines of the request that an IFACE_OUT packet belongs to, which its edge hub knows. -/
  reqLines : Nat
  tag     : W32
  body    : BitVec 128
  payload : Bytes
  /-- single-bit errors that its next router corrects (R219). -/
  soft    : Nat
  /-- the payload flit from which on Poison is set. -/
  poison  : Option Nat
  badHead : Bool
  /-- the payload flit in which the receiving router will find an uncorrectable error. -/
  badFrom : Option Nat
  /-- entered by an engine service: a write of it is not acknowledged. -/
  svc     : Bool
  /-- a multicast reply at its home router that later requests may join: the line it answers, 32·row + line-column. -/
  mline   : Option Nat
  /-- bundle and slot of the instruction it serves, where an instruction sent it. -/
  issuer  : Option (Nat × Nat)
deriving DecidableEq, Repr

/-- A packet in the mesh: the router it is at, the edge hub it waits in (exit traffic), and when it arrived there. -/
structure Flight where
  loc   : Nat
  pkt   : Packet
  colMove : Bool
  since : Nat
  /-- since when it waits for the region of its next router to wake (R240). -/
  dozeFrom : Option Nat := none
deriving DecidableEq, Repr

/-- A sync object (R193, R194). -/
structure SyncObj where
  value : W32
  owner : Option Nat
deriving DecidableEq, Repr

/-! ## Images, regions, serving -/

structure CoreEnt where
  nomCol : Nat
  nomRow : Nat
  arrays : W32
  head   : Nat
  layer  : Nat
  prog   : Nat
  data   : Nat
deriving DecidableEq, Repr

structure TileEnt where
  vcore    : Nat
  varray   : Nat
  format   : Nat
  group    : Nat
  shard    : Nat
  offset   : Nat
  layer    : Nat
  host     : Bool
  slot     : Nat
  page     : Nat
deriving DecidableEq, Repr

structure ShardEnt where
  shard  : Nat
  host   : Bool
  size   : Nat
  source : Nat
deriving DecidableEq, Repr

structure Section where
  kind   : Nat
  vcore  : Nat
  offset : Nat
  length : Nat
deriving DecidableEq, Repr

/-- The serving section (R344). -/
structure ServSec where
  vocab      : Nat
  startTok   : Nat
  eosTok     : Nat
  outWidth   : Nat
  inWidth    : Nat
  specHeads  : Nat
  outFp16    : Bool
  entryCore  : Nat
  finalCore  : Nat
  entrySync  : Nat
  releaseSync : Nat
  tokenRow   : Nat
  sampleRow  : Nat
deriving DecidableEq, Repr

/-- One entry of a manifest (R377). -/
structure ManEnt where
  shard  : Nat
  host   : Bool
  size   : Nat
  digest : Bytes
deriving DecidableEq, Repr

/-- A parsed image: header and sections (R256 to R260, R344), its manifest's entries and the digest of its signed part. -/
structure Image where
  vcores    : Nat
  nomWidth  : Nat
  nomHeight : Nat
  vsyncs    : Nat
  stage     : Nat
  stages    : Nat
  version   : Nat
  ctlBytes  : Nat
  sections  : List Section
  cores     : List CoreEnt
  tiles     : List TileEnt
  /-- reduction entries: virtual core, id, entry word. -/
  reds      : List (Nat × Nat × W64)
  /-- sync table: pinned index, waiter. -/
  syncs     : List (Nat × Nat)
  /-- declared traffic: from, to, lines. -/
  traffic   : List (Nat × Nat × Nat)
  /-- windows: slot, access, least size. -/
  windows   : List (Nat × Nat × Nat)
  shards    : List ShardEnt
  serving   : Option ServSec
  manifest  : List ManEnt
  manDigest : Bytes
  ctlDigest : Bytes
deriving DecidableEq, Repr

/-- Where one virtual core was placed (R274): core, and the physical set and position of each virtual set and array. -/
structure Placed where
  core : Nat
  pi   : List Nat
  sig  : List Nat
deriving DecidableEq, Repr

/-- An image bound in a region (R262, R276, R277, R388). -/
structure BoundImage where
  img       : Image
  /-- the control part as bound (R281: the host keeps it readable). -/
  ctl       : Bytes
  slot      : Nat
  stageTab  : List Nat
  placed    : List Placed
  syncIdx   : List Nat
  bound     : Bool
  active    : Bool
  version   : Nat
  epoch     : Nat
  /-- stages that have reported BOUND to stage 0 on the image's version (R388). -/
  reported  : List Nat
  /-- stages that have reported the current part of a flush (R579, R604). -/
  flushed   : List Nat
  stopped   : Bool
deriving DecidableEq, Repr

/-- A host-tier window slot (R283). -/
structure Window where
  base  : Nat
  size  : Nat
  sites : Nat
  write : Bool
  read  : Bool
deriving DecidableEq, Repr

/-- One shard's progress in a load, swap or rollback (R380 to R384); a relocation holds its moved tiles as one. -/
structure ShardSt where
  failures : Nat
  arrived  : Bool
  /-- plaintext tile records by tile number. -/
  records  : Tbl Bytes
  /-- tiles whose arrays hold their record. -/
  done     : List Nat
  verified : Bool
deriving DecidableEq, Repr

/-- The phase of a load or swap (R263, R392, R397); the codes of 0x6400+n:04 where it has one. -/
inductive OpPhase where
  | loadProgram | verify | drain | rewrite | activate | rollback | relocate
deriving DecidableEq, Repr

/-- A load, swap or relocation in progress in a region. -/
structure LoadOp where
  handle   : Option Nat
  swap     : Bool
  phase    : OpPhase
  img      : Image
  slot     : Nat
  stageTab : List Nat
  control  : Bytes
  shards   : Tbl ShardSt
  /-- arrays being programmed, as 32·core + array. -/
  busy     : List Nat
  /-- arrays that a swap has begun to rewrite. -/
  touched  : List Nat
  layers   : Nat
  since    : Nat
  /-- stages of the group that have reported the current phase, with the status (R400). -/
  reports  : List (Nat × Nat)
  /-- status, detail and Result1 of a failed phase 3. -/
  failed   : Option (Nat × Nat × Nat)
  /-- swap policy and drain deadline in ms as they stood at acceptance (R406), and whether the barrier is closed (R393). -/
  policy   : Nat
  drain    : Nat
  closed   : Bool
  /-- a relocation: the virtual cores moved, every virtual core's new place, and why. -/
  moved    : List Nat
  spots    : List Placed
  /-- fallbacks in the window of the tiles that a relocation moves, by tile (R94). -/
  carried  : List (Nat × List Nat)
deriving DecidableEq, Repr

/-- Key-value block states that hold a slot, and FREE (R300); an EVICTED block stands in its context's list with its frame. -/
inductive BlkState where
  | free | openB | closed | published
deriving DecidableEq, Repr

/-- One block number of a region's pool (R295, R300). -/
structure Blk where
  state : BlkState
  count : Nat
  hash  : Bytes
deriving DecidableEq, Repr

/-- One entry of the prefix index (R303). -/
structure PfxEnt where
  hash    : Bytes
  region  : Nat
  adapter : Nat
  session : Nat
  block   : Nat
  matched : Nat
deriving DecidableEq, Repr

/-- A segment of a step (R349, R356): its context, first position, positions, how many of its last positions have the output
bit, and whether they form a tree. -/
structure Seg where
  ctx  : Nat
  base : Nat
  n    : Nat
  outs : Nat
  tree : Bool
  /-- first position of its request's previous step (R349). -/
  prev : Nat := 0
deriving DecidableEq, Repr

/-- A step in the pipeline (R348, R349): its sequence, its kind (1 prefill, 2 generation, 3 tuning), its segments, and when it was
delivered. -/
structure StepRec where
  seq  : Nat
  kind : Nat
  segs : List Seg
  at_  : Nat
deriving DecidableEq, Repr

/-- A Vigil arm (R634). -/
structure VigArm where
  handle : Nat
  slot   : Nat
  offset : Nat
  size   : Nat
  noPads : Bool
deriving DecidableEq, Repr

/-- A flush of an image in progress (R576). -/
structure Flush where
  /-- 0 begun, 1 cores told to stop and packets draining, 2 cores told to restart, 3 frozen for a Vigil dump, 4 a later stage that
  has drained and waits to be told to restart, 5 waits for the end of a rollback (R605). -/
  phase : Nat
  since : Nat
  /-- the error code that began it. -/
  code  : Nat
deriving DecidableEq, Repr

/-- A tenant region (R242 to R252, R283) with its image, its operations and its serving state. -/
structure Region where
  nw       : W32
  se       : W32
  exit     : Nat
  setCap   : Nat
  grant    : BitVec 8
  state    : Nat
  result   : Nat
  windows  : Tbl Window
  img      : Option BoundImage
  op       : Option LoadOp
  split    : Bool
  flush    : Option Flush
  forbidden : List (Nat × Nat)
  /-- queued relocations: the virtual cores to move, the cores they leave, the handle if a RELOCATE asked. -/
  relocs   : List (List Nat × List Nat × Option Nat)
  /-- key-value pool. -/
  pool     : Tbl Blk
  cursor   : Nat
  kvKey    : Option Bytes
  keyPend  : Option (Nat × Nat × Bytes)
  keyAct   : Option Bytes
  /-- the serving controller's delivered count, generation slots in a row, next bucket, steps in flight. -/
  delivered : Nat
  genRun   : Nat
  bucket   : Nat
  steps    : List StepRec
  again    : List StepRec
  vigil    : Option VigArm
  gateF    : Nat
  gateLow  : Nat
  /-- Almanac time at which the gate's latest window began (R519). -/
  gateFrom : Nat
  /-- the last 64 chunk latencies and intervals, in ns, and the last full chunk's delivery (0x6100+n:06, :07). -/
  lats     : List Nat
  gaps     : List Nat
  lastChunk : Nat
deriving DecidableEq, Repr

/-- States of a request context (R341). -/
inductive CtxState where
  | queued | prefill | generate | paused | parked | ended
deriving DecidableEq, Repr

/-- One block of a context: its block number, or the eviction frame that holds it (R298, R309) with its digest. -/
structure CtxBlk where
  blk    : Nat
  frame  : Option Nat
  /-- the eviction count at its eviction (R566), the frame's digest, and whether the evicted block was OPEN. -/
  evict  : Nat
  digest : Bytes
  openB  : Bool
deriving DecidableEq, Repr

/-- The fields of a request descriptor that stay in force (R336). -/
structure Desc192 where
  tag      : W64
  version  : Nat
  promptAddr : Nat
  promptLen : Nat
  maxTokens : Nat
  outAddr  : Nat
  outBytes : Nat
  ring     : Nat
  deadline : Nat
  stats    : Nat
  ttft     : Nat
  tbt      : Nat
  temp     : W32
  topP     : W32
  minP     : W32
  topK     : Nat
  adapter  : Nat
  seed     : W64
  region   : Nat
  mode     : Nat
  cands    : Nat
  stops    : List Nat
  depth    : Nat
  width    : Nat
  logProb  : Bool
  abort    : Bool
  vecIn    : Bool
  noPub    : Bool
deriving DecidableEq, Repr

/-- A request context (R341) with its tree and its statistics (R369); a tuning job's private context carries the job's handle (R331). -/
structure Ctx where
  state    : CtxState
  d        : Desc192
  tune     : Option Nat
  adm      : Nat
  queue    : Nat
  /-- the site of the submitting queue. -/
  site     : Nat
  session  : Nat
  pinned   : Option Nat
  /-- token ids of the positions known: the prompt, then committed tokens (zeros for vector input). -/
  toks     : List Nat
  vecs     : Bytes
  /-- the detail of R340 or R566 when the prompt could not be read: 5 or 6; else 0. -/
  promptBad : Nat
  promptLen : Nat
  /-- positions to prefill again after a reprefill; 0 when none is due (R394). -/
  refill   : Nat
  /-- placed ahead of every other prefill (R394). -/
  ahead    : Bool
  /-- parked over a swap that reprefills: reprefilled when it next leaves PARKED (R393). -/
  refillDue : Bool
  done     : Nat
  /-- token or vector records delivered. -/
  sent     : Nat
  blocks   : List CtxBlk
  matched  : Nat
  /-- guesses by depth, each a list of the ranked guesses (R361); the previous step's accepted nodes and base (R349). -/
  guesses  : List (List Nat)
  path     : List Nat
  prevBase : Nat
  /-- results received for steps in flight: sequence, node or position, result (R352). -/
  results  : List (Nat × Nat × Bytes)
  reserve  : Nat
  dead     : Bool
  promoted : Bool
  admTime  : Nat
  first    : Nat
  lastCommit : Nat
  creditEnd : Nat
  pauseFrom : Nat
  readyFrom : Nat
  genSteps : Nat
  prefilled : Nat
  maxGap   : Nat
  lateN    : Nat
  creditNs : Nat
  /-- ns of credit waits since the last commit, which the next interval leaves out (R369). -/
  pausedNs : Nat
  /-- waits that its steps bore, in ns: forced upkeep, tuning, and wakes (R357). -/
  upkeepNs : Nat
  tuneNs   : Nat
  wakeNs   : Nat
  /-- with custody on: the records and the vectors delivered, in plaintext (R567). -/
  recs     : Bytes
  vout     : Bytes
deriving DecidableEq, Repr

/-- A tuning job (R330, R331). -/
structure Tune where
  handle  : Nat
  region  : Nat
  params  : Bytes
  session : Nat
  running : Bool
  ctx     : Nat
  stepsLeft : Nat
  /-- token positions of the optimiser step in progress that have left the image. -/
  tokens  : Nat
  version : Nat
deriving DecidableEq, Repr

/-- The serving controller and the key-value store's central part. -/
structure Serving where
  ctxs     : Tbl Ctx
  nextAdm  : Nat
  index    : List PfxEnt
  hits     : Nat
  misses   : Nat
  stamp    : Nat
  jobs     : List Tune
  /-- trained adapters, by 65,536·region + id, with their bytes (R330, R331). -/
  adapters : Tbl Bytes
  evictions : Nat
deriving DecidableEq, Repr

/-! ## Host interface -/

/-- A message the engine sends to the host (R414). -/
inductive HMsg where
  | mrd (tag addr len : Nat)
  | mwr (addr : Nat) (data : Bytes)
  | irq (vector : Nat)
  | erdCpl (tag : Nat) (value : W64)
deriving DecidableEq, Repr

/-- A flit that the engine has sent: its body so far, the place of the first message that begins in it, and when it was sent (R410, R411). -/
structure HFlit where
  kind  : Nat
  seq   : Nat
  first : Nat
  body  : Bytes
  sent  : Nat
deriving DecidableEq, Repr

/-- A UCIe module (R407 to R413, R442). -/
structure Mod where
  up       : Bool
  training : Bool
  failed   : Bool
  rate     : Nat
  width    : Nat
  txSeq    : Nat
  rxSeq    : Nat
  /-- messages not acknowledged whole, each with the Seq of its last flit (R418), and the flits not acknowledged (R412). -/
  unacked  : List (Nat × HMsg)
  flits    : List HFlit
  /-- messages that wait for credit, for room in the replay buffer, or for the module to come up. -/
  waiting  : List HMsg
  posted   : Nat
  readCr   : Nat
  /-- credits for messages taken from the host that no flit has returned yet (R411, R415). -/
  owePosted : Nat
  oweRead  : Nat
  /-- down in the sense of R442: it had held unacknowledged flits too long, or its link was reported down, or retraining failed. -/
  down     : Bool
  downAt   : Nat
  heldFrom : Nat
  lastUse  : Nat
  l1       : Bool
deriving DecidableEq, Repr

/-- What an outstanding host read is for (R415). -/
inductive ReadUse where
  /-- commands of a submission queue: queue, first index, count. -/
  | commands (q first n : Nat)
  /-- one page of a class 1 read: requester core, its queue and position, the window slot and offset, first line, lines. -/
  | class1 (core q req slot off first n : Nat)
  | spare
deriving DecidableEq, Repr

structure RdOut where
  site : Nat
  len  : Nat
  use  : ReadUse
  /-- data that waits for earlier pages of its request (R441). -/
  data : Option Bytes
deriving DecidableEq, Repr

/-- A class 1 write whose packets an edge hub is taking (R284, R439): the slot and the record that stood when the hub accepted it, whether
it is refused, and the lines that are still to come. -/
structure HubWrite where
  slot    : Nat
  win     : Option Window
  refused : Bool
  left    : Nat
deriving DecidableEq, Repr

/-- A host site and its window registers (R407, R419). -/
structure Site where
  populated : Bool
  mods     : Vector Mod 2
  lost     : Bool
  base     : W64
  entries  : W64
  ringBase : W64
  ringLog  : W64
  result   : W64
  flitErrs : Nat
  replayed : Nat
  protErrs : Nat
deriving DecidableEq, Repr

/-- A submission queue (R421, R422). -/
structure Sq where
  site    : Nat
  ring    : Nat
  base    : Nat
  entries : Nat
  head    : Nat
  tail    : Nat
  reading : Nat
  failed  : Bool
deriving DecidableEq, Repr

/-- A bound ring descriptor (R432). -/
structure Ring where
  site     : Nat
  kind     : Nat
  log2     : Nat
  vector   : Option Nat
  base     : Nat
  written  : Nat
  readIdx  : Nat
  reserved : Nat
  mask     : W32
  drops    : Nat
  /-- committed records that wait for room, stamped, in order (R365). -/
  owed     : List Bytes := []
  /-- when its last IRQ went out, if one has. -/
  lastIrq  : Option Nat
  irqHeld  : Bool
deriving DecidableEq, Repr

/-- An accepted command that has no COMPLETE yet (R425 to R427). -/
structure HOut where
  queue   : Nat
  index   : Nat
  tag     : W64
  cmd     : Bytes
  session : Nat
  since   : Nat
  /-- the operation goes on after its row has run: class 1 drains, loads, jobs. -/
  running : Bool
  left    : Nat
  /-- host reads, by tag, and writes at a hub, by key, that must end first (R439). -/
  tags    : List Nat
  /-- its place in the order of acceptance (R449). -/
  num     : Nat
deriving DecidableEq, Repr

structure Hdl where
  gen : Nat
  out : Option HOut
deriving DecidableEq, Repr

/-- The host interface. -/
structure HostIf where
  sites   : Vector Site 4
  sqs     : Tbl Sq
  rings   : Tbl Ring
  handles : Tbl Hdl
  reads   : Tbl RdOut
  writes  : Tbl HubWrite
  readTag : Nat
  stray   : Nat
  turn    : Nat
  /-- COMPLETE records to write after a warm start (R427), as handle slots. -/
  late    : List Nat
  lateN   : Nat
  /-- commands accepted. -/
  accN    : Nat
deriving DecidableEq, Repr

/-! ## Dictionary, store, management segment -/

/-- A writer's shadow of a coupled group (R456): group index, the entries written with their bytes, last write. -/
structure Shadow where
  writer : Writer
  group  : Nat
  vals   : Tbl Bytes
  last   : Nat
deriving DecidableEq, Repr

/-- What the store records of a region's image (R277, R392, R399, R565): the image as bound with its placement, sync assignment and source
window slot, a swap or rollback in progress, SWAP_SPLIT, and the active model key. -/
structure StoreRec where
  region : Nat
  image  : Option BoundImage
  op     : Option LoadOp
  split  : Bool
  key    : Option Bytes
deriving DecidableEq, Repr

/-- The Data of a block's copy (R463): the entries and engine records that lie in it, or for blocks 0 and 1 the bytes themselves (R541,
R556). -/
inductive StoreData where
  | raw (b : Bytes)
  | entries (vals : Tbl Bytes) (recs : List StoreRec)
deriving DecidableEq, Repr

/-- One copy of a store block (R463). -/
structure StoreCopy where
  block  : Nat
  layout : Nat
  seq    : W32
  data   : StoreData
  check  : W32
deriving DecidableEq, Repr

/-- The two copies of a store block (R462). -/
structure StoreBlk where
  a : StoreCopy
  b : StoreCopy
deriving DecidableEq, Repr

/-- How a region commit that waits for power regions to wake will be answered (R496). -/
inductive CommitVia where
  | row
  | handle (h : Nat)
  | frame (f : MFrame)
deriving DecidableEq, Repr

/-- A region commit that waits for power regions to wake. -/
structure HeldCommit where
  writer : Writer
  region : Nat
  via    : CommitVia
deriving DecidableEq, Repr

/-- The object dictionary and the configuration store. -/
structure Od where
  /-- values of settings that differ from their default, by 256·index + sub. -/
  vals    : Tbl Bytes
  /-- change counts (R450). -/
  changes : Tbl Nat
  /-- of an entry that the engine updates: the value at its latest read with a change count, and that count (R450). -/
  seen    : Tbl (Bytes × Nat)
  shadows : List Shadow
  /-- selections kept per writer (R127): writer, key, value. -/
  select  : List (Writer × Nat × Nat)
  blocks  : Tbl StoreBlk
  pending : Tbl Nat
  fellBack : List Nat
  saveFail : Bool
  loadFell : Bool
  saves   : Nat
  /-- region commits that wait, oldest first. -/
  commits : List HeldCommit
deriving DecidableEq, Repr

/-- A peer entry of the management segment (R476). -/
structure Peer where
  mac  : Nat
  last : Nat
  resp : Bytes
  used : Nat
deriving DecidableEq, Repr

/-- A token bucket (R479): tokens in millionths of a token, and when it was last filled. -/
structure Bucket where
  mac    : Nat
  tokens : Nat
  at_    : Nat
deriving DecidableEq, Repr

/-- A frame queued for transmission (R480). -/
structure TxFrame where
  dst   : Nat
  msg   : Bytes
  since : Nat
  tries : Nat
deriving DecidableEq, Repr

/-- A transfer assembled from parts (R546, R561): source address, parts by offset, newest first, and when the last came. -/
structure Assembly where
  mac  : Nat
  parts : List (Nat × Bytes)
  last : Nat
deriving DecidableEq, Repr

/-- The 10BASE-T1S node (R468 to R481). -/
structure Mgmt where
  peers    : List Peer
  buckets  : List Bucket
  total    : Nat
  totalAt  : Nat
  tx       : List TxFrame
  /-- responses to broadcast IDENTs, with the time each becomes due (R474). -/
  holdoff  : List (Nat × TxFrame)
  plcaOk   : Bool
  collTimes : List Nat
  collFlag : Bool
  opens    : List Assembly
  fws      : List Assembly
  /-- counters of 0x1030:01 to :0C, by subindex. -/
  ctrs     : Tbl Nat
  /-- CommitResult of the management segment group (R461). -/
  segRes   : Nat
deriving DecidableEq, Repr

/-! ## Power, cooling, upkeep -/

/-- States of a power region (R491); the codes of 0x3100+g:01. -/
inductive PState where
  | run | nap | doze | dark | lost | waking
deriving DecidableEq, Repr

/-- A wake in progress (R497 to R500). -/
structure Wake where
  fromDark : Bool
  slow     : Bool
  since    : Nat
  ramped   : Bool
  counted  : Bool
  lastCheck : Nat
  rampAt   : Nat
  /-- when, once it ramps, isolation is released and the region's routers rejoin the mesh (R497). -/
  joinAt   : Nat
deriving DecidableEq, Repr

/-- One power region with its monitor, its pins and its hot spot (R485, R489, R491, R507, R513 to R515, R530). -/
structure PRegion where
  state     : PState
  since     : Nat
  /-- when the region last entered NAP other than from DOZE (R494). -/
  quiet     : Nat
  lastFlit  : Nat
  /-- the monitor's latest sample and the one 1 µs before it, its average over 1 ms, and its largest sample, in FIX16.16 A (R489, R507). -/
  current   : Nat
  before    : Nat
  mean      : Nat
  peak      : Nat
  regI      : Nat
  regV      : Nat
  cause     : Nat
  status    : Nat
  lostCount : Nat
  mode      : Bool
  wake      : Option Wake
  retryAt   : Option Nat
  diodeA    : Int
  diodeB    : Int
  hot       : Int
  coarse    : Int
  /-- the hot spot at the calibration passes of the last cold start (R107). -/
  calHot    : Int
  /-- the hot spot has since moved by more than 0x5040:05: arrays whose last pass is the cold start's wait for another (R107). -/
  calDue    : Bool
  /-- the state, DOZE or DARK, that a wake for upkeep returns the region to (R119). -/
  upkeepFrom : Option PState
  /-- accumulated refresh age of the region's arrays (R110), in 1/655,360 s. -/
  aged      : Nat
  pair      : Nat
  pairCount : Nat
  apartFrom : Option Nat
  closeFrom : Option Nat
deriving DecidableEq, Repr

/-- The supplies and the measured power (R485 to R490). -/
structure Power where
  regions  : Tbl PRegion
  enArray  : Bool
  enAux    : Bool
  enOpt    : Bool
  pgArray  : Bool
  pgAux    : Bool
  pgOpt    : Bool
  auxLost  : Option Nat
  railI    : Tbl Nat
  /-- when telemetry was last read (R486). -/
  telemAt  : Nat
  /-- power regions that step 7 of a start has still to wake (R534). -/
  wakeQ    : List Nat
  measured : Nat
  history  : List Nat
  /-- AON power block counters by 8·field + counter (R508), and their overflow bits set. -/
  ctrs     : Tbl Nat
  ovf      : List Nat
deriving DecidableEq, Repr

/-- The coolant side (R510 to R529). -/
structure Thermal where
  inlet    : Int
  outlet   : Int
  flow     : Nat
  sampleN  : Option Nat
  lastOk   : Nat
  stale    : Bool
  lostTray : Bool
  /-- Valid flow readings of the last 200 ms in 0.01 L/min, with their times. -/
  flows    : List (Nat × Nat)
  /-- R_th in 1/65,536 mK/W, as the fraction rthN / rthD; thermal cap in W, T_max and its region. -/
  rthN     : Nat
  rthD     : Nat
  cap      : Nat
  tmax     : Int
  tmaxG    : Nat
  level    : Nat
  below    : Nat
  /-- 0 normal, 1 hold, 2 shut down, 3 tripped (0x4000:0A). -/
  state    : Nat
  holdAt   : Nat
  /-- the hold has reached its limit, which the next 100 µs sample ends it at; and when the last sample was taken (R525). -/
  limit    : Bool
  sampleAt : Option Nat
  flowOk   : Option Nat
  flags    : W32
  flagTimes : Tbl Nat
  shutdowns : Nat
  mismatch : Option Nat
deriving DecidableEq, Repr

/-- Precision warnings and upkeep bookkeeping of the engine (R105, R125, R126). -/
structure Upkeep where
  warnings : W32
  layer    : Nat
  /-- sentinel retirements: core, set, time. -/
  retired  : List (Nat × Nat × Nat)
  mismatches : Nat
  relocations : Nat
  spread   : Nat
  /-- the last cold start's calibration (R107): when its passes completed, and the first number of the trims they wrote; the cores that
  they did not reach, with an earlier start's completion time, first trim and hot spot. -/
  calAt    : Option Nat
  trimBase : Nat
  calMiss  : Tbl (Option (Nat × Nat × Int))
deriving DecidableEq, Repr

/-! ## Starts, identity, custody -/

/-- Where the engine is between power-up and service (R531 to R540, R526, R488). -/
inductive Phase where
  /-- VDD_AON absent. -/
  | off
  /-- a start of the kind has been triggered and has not reached step 2: 1 cold, 2 warm, 3 recovery. -/
  | trigger (kind : Nat)
  /-- steps up to 8 have run; calibration and link training go on. -/
  | starting (kind : Nat)
  | complete
  | recovery
  /-- after a thermal shutdown, a trip or the loss of VDD_ARRAY: dictionary access only. -/
  | down
deriving DecidableEq, Repr

/-- A custody session (R560, R562, R563). -/
structure Session where
  admin   : Bool
  mac     : Bytes
  dataKey : Bytes
  kvKey   : Bytes
  source  : Option Nat
  /-- the least Counter that the next command may carry (R562). -/
  counter : Nat
  used    : Nat
  peer    : Nat
  resp    : Bytes
deriving DecidableEq, Repr

/-- Boot record, banks, keys, attestation and custody. -/
structure Boot where
  phase      : Phase
  trigAt     : Nat
  attempts   : Nat
  lastKind   : Nat
  lastFail   : Nat
  activeBank : Nat
  pendBank   : Option Nat
  banks      : Vector Bytes 2
  written    : Bool
  minSec     : Nat
  digest     : Bytes
  keptDigest : Bytes
  /-- the bank to return to when the start that first runs a pending bank fails (R543). -/
  prevBank   : Option Nat
  fwVersion  : Nat
  keys       : Option Bytes
  /-- q, and whether signing is possible (R556, R557). -/
  leaf       : Nat
  leafSound  : Bool
  attState   : Nat
  treeOk     : Bool
  attests    : List (Nat × Bytes)
  signing    : Option (Nat × Bytes)
  sessions   : Tbl Session
  tagFails   : Nat
  /-- what the steps of a start after step 7 will meet, while its wakes go on. -/
  inputs     : Option StartInputs
deriving DecidableEq, Repr

/-- What the factory fixes (R18 to R20, R454, R475, R543, R552, R661). -/
structure Factory where
  unusable : List Nat
  holes    : List Nat
  serial   : Bytes
  ordering : Bytes
  sites    : List Nat
  ports    : List Nat
  pmd      : Nat
  identity : Bytes
deriving DecidableEq, Repr

/-! ## Faults, fabric, observability -/

/-- An error record (R586) without its ring fields. -/
structure ErrRec where
  code   : Nat
  core   : Option Nat
  power  : Option Nat
  region : Option Nat
  ctx    : W32
  kind   : W16
  bundle : Nat
  slot   : Nat
  time   : W64
  aux0   : W32
  aux1   : W32
deriving DecidableEq, Repr

/-- The fault service (R573 to R589). -/
structure FaultSvc where
  log       : List ErrRec
  records   : Nat
  transient : Nat
deriving DecidableEq, Repr

/-- A peer channel of a port (R597 to R599). -/
structure Chan where
  txSeq   : Nat
  rxSeq   : Nat
  unacked : List FFrame
  /-- frames that wait for credit or for room among the unacknowledged ones. -/
  waiting : List FFrame
  credits : Vector Nat 3
  /-- the channel, of VC1 and VC2, that sent last (R595). -/
  lastVc  : Nat
  /-- lines of each channel freed and not yet returned as credit (R599). -/
  ret     : Vector Nat 3
  ackAt   : Nat
  noAck   : Nat
  owed    : Nat
  owedAt  : Nat
  rootId  : Nat
  rootHops : Nat
deriving DecidableEq, Repr

/-- An optical port (R590 to R592, R613). -/
structure Port where
  state    : Nat
  mode     : Nat
  downAt   : Nat
  peer     : Nat
  replayed : Nat
  chans    : Tbl Chan
deriving DecidableEq, Repr

/-- A class 2 write whose WACKs are awaited by the edge hub (R603). -/
structure C2Wait where
  core   : Nat
  q      : Nat
  req    : Nat
  peer   : Nat
  left   : Nat
  status : Nat
deriving DecidableEq, Repr

/-- The fabric side of the engine. -/
structure Fabric where
  ports    : Tbl Port
  waits    : List C2Wait
  /-- 0 free-running, 1 root, 2 aligned, 3 acquiring, 4 holdover. -/
  state    : Nat
  offset   : Int
  root     : Nat
  hops     : Nat
  good     : Nat
  bad      : Nat
  slew     : Int
  reqOut   : Option (Nat × Nat)
  discarded : Nat
  refusals : Nat
  /-- peers lost and not heard of again. -/
  lost     : List Nat
deriving DecidableEq, Repr

/-- A counter dump (R622 to R624). -/
structure Dump where
  period : Nat
  nw     : Nat
  se     : Nat
  blocks : W32
  number : Nat
  missed : Nat
  /-- engine time of the last snapshot, or of the COUNTER_DUMP. -/
  start  : Nat
  /-- Almanac of the last boundary seen. -/
  last   : Nat
deriving DecidableEq, Repr

/-- A tensor watch (R626): its active values, state and counts. -/
structure Watch where
  region : Nat
  tensor : Nat
  kind   : Nat
  ctx    : Nat
  skip   : Nat
  count  : Nat
  slot   : Nat
  offset : Nat
  size   : Nat
  state  : Nat
  skipped : Nat
  written : Nat
  used   : Nat
  result : Nat
deriving DecidableEq, Repr

/-- A tensor dump waiting to be written (R629). -/
structure DumpReq where
  core  : Nat
  op    : Nat
  watch : Nat
  walk  : Desc
  req   : W32
  kind  : W16
  bundle : Nat
  time  : W64
deriving DecidableEq, Repr

/-- A Vigil dump to be written (R634, R635): its region, trigger, core, handle if one timed out, and the trigger's Almanac. -/
structure VigTrig where
  region  : Nat
  trigger : Nat
  core    : Option Nat
  handle  : Option Nat
  time    : W64
deriving DecidableEq, Repr

/-- A Sillage record (R638): Almanac, type, sequence number, source, payload. -/
structure SilRec where
  time    : W64
  type    : Nat
  seq     : Nat
  source  : W32
  payload : Bytes
deriving DecidableEq, Repr

/-- Counters' central part, watches, Vigil, Sillage. -/
structure Observe where
  dumps    : Tbl Dump
  scopeRes : Nat
  watches  : Tbl Watch
  dumpReqs : List DumpReq
  vigilQ   : List VigTrig
  vigils   : Nat
  sillage  : List SilRec
  silSeq   : Nat
  silLost  : Nat
  silDrop  : Nat
  markAt   : Nat
  /-- when the last start cleared every counter (R618). -/
  clearedAt : Nat
deriving DecidableEq, Repr

/-- What leaves the block by paths other than the host modules (whose messages stand in HostIf): frames, records, pins. -/
inductive Out where
  | host (site mod : Nat) (m : HMsg)
  /-- a flit that is sent again (R412). -/
  | hostFlit (site mod : Nat) (bytes : Bytes)
  /-- a flit with Nak, or the control flit after training with its two grants (R412, R413). -/
  | mgmt (dst : Nat) (msg : Bytes)
  | beacon (count : Nat)
  /-- a Waloskuno frame as a port sends it, with its bytes (R593, R597). -/
  | fabric (port : Nat) (f : FFrame) (wire : Bytes)
  /-- a Sillage record with its 64 bytes, word k on lane k (R637, R638). -/
  | sillage (r : SilRec) (wire : Bytes)
  /-- PMBus: bus, page, command code, data. -/
  | pmbus (bus page cmd value : Nat)
  /-- the tray bus: the dynamic address that ENTDAA assigns, or the events that DISEC disables (R509). -/
  | entdaa (addr : Nat)
  | disec (addr events : Nat)
  /-- a pin of the regulator connector: 0 MODE[g], 1 EN_ARRAY, 2 EN_AUX, 3 EN_OPT. -/
  | pin (kind index : Nat) (high : Bool)
deriving DecidableEq, Repr

/-! ## The whole machine -/

/-- The state of the MT72. -/
structure State where
  now     : Nat
  almanac : W64
  /-- the model's own field: the number of the next free value (Config). -/
  free    : Nat
  factory : Factory
  boot    : Boot
  cores   : Tbl Core
  syncs   : Tbl SyncObj
  mesh    : List Flight
  regions : Tbl Region
  serving : Serving
  host    : HostIf
  od      : Od
  mgmt    : Mgmt
  power   : Power
  thermal : Thermal
  upkeep  : Upkeep
  faults  : FaultSvc
  fabric  : Fabric
  observe : Observe
  out     : List Out
  /-- the commands waiting, first in, first out. -/
  pending : List Instr
deriving DecidableEq, Repr

/-! ## Reset values -/

/-- A sequencer at program entry (R162, R199). -/
def Seq.reset : Seq :=
  { pc := 0, next := 0, regs := Vector.replicate 32 0, descs := Vector.replicate 16 0, asr := 0, loops := [],
    entered := 0, stepKind := 0xFFFF, stepReq := 0xFFFFFFFF, stepSeq := none, stepFrom := 0, stepAcc := 0, stepNum := 0, maxSets := 0,
    budget := 0, phaseLim := 0, phases := 0, older := [], opNum := 0, queued := [], sigBuf := [],
    loaded := [], loadAt := 0 }

def Prog.reset : Prog := { bundles := 0, entry := 0, restart := 0, initial := 0, kinds := [] }

def AeState.reset : AeState :=
  { step := 0, table := 0, cursor := 0, null := true, entry := 0, qTile := 0, block := 0, head := 0, visible := [], factors := [],
    fresh := [] }

/-- An array that has never been programmed (R36, R128). -/
def Arr.reset : Arr :=
  { state := 0, format := 0, levels := [], colMap := [], subst := [], scales := [], liveCap := List.replicate 16 0,
    tile := none, worn := [], repair := [], digest := [], calAt := 0, ageBase := 0, overflow := 0, alarms := 0,
    fullWrites := 0, colEvents := [], sparesUsed := 0, pulses := 0, group := 0, nextRow := 0, snaps := [], fixRow := 0, fixFailed := [], calGroup := 0, calTemp := 0,
    fallbacks := [], retries := 0 }

def ASet.reset : ASet :=
  { use := 0, readAt := none, dirTrans := false, lastPhase := none, lastForced := none, outliers := [], evals := 0, sample := none,
    slice := none, tasks := [], trims := [], fixAfter := 0 }

def Router.reset : Router :=
  { red := [], recv := [], merge := [], dead := false, corrected := 0 }

def Core.reset : Core :=
  { run := .halted, clockOn := false, fence := none, seq := Seq.reset, bundle := none,
    held := none, heldLast := false, waitFrom := 0, idleFrom := 0, lastIssue := 0, stoppedAt := none, fetched := [], prog := Prog.reset, mem := [], acc := [],
    accStat := [], badWords := [], softWords := [], active := [], oqs := [], iqs := [], awaits := [], holds := [],
    ae := AeState.reset, arrays := [], sets := [], router := Router.reset, ctrs := [], ovf := [], clearedAt := 0, report := none,
    watchN := [], restartBy := none, packed := [], posts := [] }

/-- A sync object after a cold start (R31). -/
def SyncObj.reset : SyncObj := { value := 0, owner := none }

/-- An unconfigured tenant region (R250). -/
def Region.reset : Region :=
  { nw := 0, se := 0, exit := 0, setCap := 8, grant := 1, state := 0, result := 0, windows := [], img := none, op := none,
    split := false, flush := none, forbidden := [], relocs := [], pool := [], cursor := 0, kvKey := none,
    keyPend := none, keyAct := none, delivered := 0, genRun := 0, bucket := 0, steps := [], again := [],
    vigil := none, gateF := 0, gateLow := 0, gateFrom := 0, lats := [], gaps := [], lastChunk := 0 }

def Serving.reset : Serving :=
  { ctxs := [], nextAdm := 0, index := [], hits := 0, misses := 0, stamp := 0, jobs := [], adapters := [], evictions := 0 }

def Mod.reset : Mod :=
  { up := false, training := true, failed := false, rate := 0, width := 0, txSeq := 0, rxSeq := 0, unacked := [], flits := [], waiting := [],
    posted := 0, readCr := 0, owePosted := 0, oweRead := 0, down := false, downAt := 0, heldFrom := 0, lastUse := 0, l1 := false }

def Site.reset : Site :=
  { populated := true, mods := Vector.replicate 2 Mod.reset, lost := false, base := 0, entries := 0, ringBase := 0,
    ringLog := 0, result := 0, flitErrs := 0, replayed := 0, protErrs := 0 }

def HostIf.reset : HostIf :=
  { sites := Vector.replicate 4 Site.reset, sqs := [], rings := [], handles := [], reads := [], writes := [], readTag := 0, stray := 0,
    turn := 0, late := [], lateN := 0, accN := 0 }

def Od.reset : Od :=
  { vals := [], changes := [], seen := [], shadows := [], select := [], blocks := [], pending := [], fellBack := [], saveFail := false,
    loadFell := false, saves := 0, commits := [] }

def Mgmt.reset : Mgmt :=
  { peers := [], buckets := [], total := 50000000, totalAt := 0, tx := [], holdoff := [], plcaOk := false, collTimes := [],
    collFlag := false, opens := [], fws := [], ctrs := [], segRes := 0 }

/-- A power region before its first wake: DARK, its readings zero (R487, R507, R530). -/
def PRegion.reset : PRegion :=
  { state := .dark, since := 0, quiet := 0, lastFlit := 0, current := 0, before := 0, mean := 0, peak := 0, regI := 0, regV := 0, cause := 0,
    status := 0, lostCount := 0, mode := false, wake := none, retryAt := none, diodeA := 0, diodeB := 0, hot := 0,
    coarse := 0, calHot := 0, calDue := false, upkeepFrom := none, aged := 0, pair := 0, pairCount := 0, apartFrom := none, closeFrom := none }

def Power.reset : Power :=
  { regions := [], enArray := false, enAux := false, enOpt := false, pgArray := false, pgAux := false, pgOpt := false,
    auxLost := none, railI := [], telemAt := 0, wakeQ := [], measured := 0, history := [], ctrs := [], ovf := [] }

/-- Cooling after a cold start: R_th 4.0 mK/W, cap 20,000 W (R517, R529). -/
def Thermal.reset : Thermal :=
  { inlet := 0, outlet := 0, flow := 0, sampleN := none, lastOk := 0, stale := false, lostTray := false, flows := [],
    rthN := 262144, rthD := 1, cap := 20000, tmax := 0, tmaxG := 0, level := 0, below := 0, state := 0, holdAt := 0, limit := false, sampleAt := none, flowOk := none,
    flags := 0, flagTimes := [], shutdowns := 0, mismatch := none }

def Upkeep.reset : Upkeep :=
  { warnings := 0, layer := 0, retired := [], mismatches := 0, relocations := 0, spread := 0, calAt := none, trimBase := 0, calMiss := [] }

def Boot.reset : Boot :=
  { phase := .trigger 1, trigAt := 0, attempts := 0, lastKind := 1, lastFail := 0, activeBank := 0,
    pendBank := none, banks := Vector.replicate 2 [], written := false, minSec := 0, digest := [], keptDigest := [],
    fwVersion := 0, keys := none, leaf := 0, leafSound := true, attState := 1, treeOk := false,
    attests := [], signing := none, prevBank := none, sessions := [], tagFails := 0, inputs := none }

def Factory.reset : Factory :=
  { unusable := [], holes := [], serial := [], ordering := [], sites := [0, 1, 2, 3],
    ports := List.range 48, pmd := 1, identity := [] }

def FaultSvc.reset : FaultSvc := { log := [], records := 0, transient := 0 }

def Chan.reset : Chan :=
  { txSeq := 0, rxSeq := 0, unacked := [], waiting := [], credits := Vector.replicate 3 0, lastVc := 2,
    ret := Vector.replicate 3 0, ackAt := 0, noAck := 0, owed := 0, owedAt := 0,
    rootId := 0xFFFF, rootHops := 0xFF }

/-- A populated port before training: down (R613). -/
def Port.reset : Port :=
  { state := 1, mode := 0, downAt := 0, peer := 0xFFFF, replayed := 0, chans := [] }

def Fabric.reset : Fabric :=
  { ports := [], waits := [], state := 0, offset := 0, root := 0xFFFF, hops := 0xFF, good := 0, bad := 0, slew := 0,
    reqOut := none, discarded := 0, refusals := 0, lost := [] }

/-- A tensor watch after factory initialisation (R626). -/
def Watch.reset : Watch :=
  { region := 0, tensor := 0, kind := 0, ctx := 0xFFFFFFFF, skip := 0, count := 1, slot := 0, offset := 0, size := 0,
    state := 0, skipped := 0, written := 0, used := 0, result := 0 }

def Observe.reset : Observe :=
  { dumps := [], scopeRes := 0, watches := [], dumpReqs := [], vigilQ := [], vigils := 0, sillage := [], silSeq := 0,
    silLost := 0, silDrop := 0, markAt := 0, clearedAt := 0 }

/-- The machine right after VDD_AON has risen: the cold start has been triggered and its steps have not run (R531, R534). -/
def State.reset : State :=
  { now := 0, almanac := 0, free := 0, factory := Factory.reset, boot := Boot.reset, cores := [], syncs := [], mesh := [],
    regions := [], serving := Serving.reset, host := HostIf.reset, od := Od.reset, mgmt := Mgmt.reset, power := Power.reset,
    thermal := Thermal.reset, upkeep := Upkeep.reset, faults := FaultSvc.reset, fabric := Fabric.reset,
    observe := Observe.reset, out := [], pending := [] }

end Sys2Proof.Machine
end

