-- ==== Sys2Proof/Machine/Ops.lean ====
section
/-!
DEFINITION. The named operations every meaning is written over: finite tables, byte strings (R8), scratchpad memory, reading and
updating the units of the state, time, free values, and what leaves the block.
-/
namespace Sys2Proof.Machine

/-! ## Finite tables -/

/-- The entry of a key. -/
def Tbl.find {α : Type} : Tbl α → Nat → Option α
  | [], _ => none
  | (k, v) :: t, i => if i = k then some v else Tbl.find t i

/-- The entry of a key, or a default. -/
def Tbl.get {α : Type} (t : Tbl α) (d : α) (i : Nat) : α := (Tbl.find t i).getD d

/-- Write an entry, keeping keys rising. -/
def Tbl.set {α : Type} : Tbl α → Nat → α → Tbl α
  | [], i, x => [(i, x)]
  | (k, v) :: t, i, x =>
    if i = k then (i, x) :: t else if i < k then (i, x) :: (k, v) :: t else (k, v) :: Tbl.set t i x

/-- Remove an entry. -/
def Tbl.del {α : Type} : Tbl α → Nat → Tbl α
  | [], _ => []
  | (k, v) :: t, i => if i = k then t else (k, v) :: Tbl.del t i

/-- Change every entry. -/
def Tbl.map {α : Type} (f : Nat → α → α) (t : Tbl α) : Tbl α := t.map fun e => (e.1, f e.1 e.2)

/-- Keys strictly rising. -/
def Tbl.wf {α : Type} (t : Tbl α) : Prop := List.Pairwise (fun a b => a.1 < b.1) t

/-! ## Byte strings -/

/-- The n low bytes of a number, least significant first (R8). -/
def leBytes : Nat → Nat → Bytes
  | 0, _ => []
  | n + 1, v => BitVec.ofNat 8 v :: leBytes n (v / 256)

/-- The number a byte string spells, least significant byte first (R8). -/
def leNat : Bytes → Nat
  | [] => 0
  | b :: t => b.toNat + 256 * leNat t

/-- The number a byte string spells, most significant byte first (R8: fields of published standards). -/
def beNat (b : Bytes) : Nat := leNat b.reverse

/-- n bytes, most significant first. -/
def beBytes (n v : Nat) : Bytes := (leBytes n v).reverse

/-- n bytes at an offset; bytes past the end read as 0. -/
def slice (b : Bytes) (off n : Nat) : Bytes :=
  let t := (b.drop off).take n
  t ++ List.replicate (n - t.length) 0

/-- A little-endian field of n bytes at an offset. -/
def fieldAt (b : Bytes) (off n : Nat) : Nat := leNat (slice b off n)

/-- Every byte of a range is zero. -/
def zeros (b : Bytes) (off n : Nat) : Bool := (slice b off n).all (· == 0)

/-- Overwrite bytes at an offset, growing the string with zeros. -/
def patchAt (b : Bytes) (off : Nat) (x : Bytes) : Bytes :=
  let b := b ++ List.replicate (off + x.length - b.length) 0
  b.take off ++ x ++ b.drop (off + x.length)

/-- Bits hi to lo of a number, numbered from the least significant (R9). -/
def bits (v hi lo : Nat) : Nat := (v / 2 ^ lo) % 2 ^ (hi - lo + 1)

/-- One bit of a number (R9). -/
def bitAt (v i : Nat) : Bool := v.testBit i

/-- Round a length up to a multiple. -/
def alignUp (n m : Nat) : Nat := (n + m - 1) / m * m

/-- Cut a list into runs of n. -/
def chunksGo {α : Type} : Nat → Nat → List α → List (List α)
  | 0, _, _ => []
  | f + 1, n, l => if l.isEmpty then [] else l.take n :: chunksGo f n (l.drop n)
def chunks {α : Type} (n : Nat) (l : List α) : List (List α) := chunksGo l.length (max n 1) l

/-- The index of the first element that satisfies a test. -/
def firstIdx {α : Type} (p : α → Bool) (l : List α) : Option Nat := l.findIdx? p

/-- Element i of a list, or a default. -/
def nth {α : Type} (l : List α) (i : Nat) (d : α) : α := l.getD i d

/-- Replace element i of a list. -/
def setNth {α : Type} (l : List α) (i : Nat) (x : α) : List α := l.set i x

/-- The least natural below a bound that satisfies a test. -/
def leastBelow (n : Nat) (p : Nat → Bool) : Option Nat := (List.range n).find? p

/-! ## Scratchpad memory -/

/-- One byte; an unlisted address reads as 0 (R140). -/
def Memory.get : Memory → Nat → Byte
  | [], _ => 0
  | (k, v) :: t, a => if a = k then v else Memory.get t a

/-- Write one byte, keeping the canonical form: a zero removes the entry. -/
def Memory.set : Memory → Nat → Byte → Memory
  | [], a, x => if x = 0 then [] else [(a, x)]
  | (k, v) :: t, a, x =>
    if a = k then (if x = 0 then t else (a, x) :: t)
    else if a < k then (if x = 0 then (k, v) :: t else (a, x) :: (k, v) :: t)
    else (k, v) :: Memory.set t a x

/-- The canonical form: rising addresses, no zero listed. -/
abbrev Memory.wf (m : Memory) : Prop :=
  List.Pairwise (fun a b : Host.Cell => a.1 < b.1) m ∧ ∀ e ∈ m, e.2 ≠ 0

/-- n bytes from an address. -/
def Memory.read (m : Memory) (a n : Nat) : Bytes := (List.range n).map fun i => Memory.get m (a + i)

/-- Write bytes from an address. -/
def Memory.write : Memory → Nat → Bytes → Memory
  | m, _, [] => m
  | m, a, b :: t => Memory.write (Memory.set m a b) (a + 1) t

/-! ## The wafer's geometry -/

/-- Column and row of a core (R11), packed key, and packing as COREID (R163). -/
def coreCol (c : Nat) : Nat := c % 128
def coreRow (c : Nat) : Nat := c / 128
def coreKey (col row : Nat) : Nat := 128 * row + col
def coreId (c : Nat) : Nat := coreCol c * 65536 + coreRow c
/-- Packed with col in the high and row in the low byte (R220, R586). -/
def coreByteId (c : Nat) : Nat := if 65536 ≤ c then c - 65536 else coreCol c * 256 + coreRow c
/-- The core that 16 bits name, col in the high and row in the low byte; a column above 127 names none, and keeps its bits. -/
def homeKey (v : Nat) : Nat := if v / 256 < 128 then coreKey (v / 256) (v % 256) else 65536 + v
def unpackCore (v : Nat) : Nat := coreKey (v / 65536) (v % 65536)
/-- The core that a word names, as COREID packs it; a word that names none keeps its bytes, or the ones that name none. -/
def namedCore (w : W32) : Nat :=
  let col := w.toNat / 65536; let row := w.toNat % 65536
  if col < 128 ∧ row < 150 then coreKey col row else 65536 + (if col < 256 ∧ row < 256 then col * 256 + row else 0xFFFF)
def unpackByteCore (v : Nat) : Nat := coreKey (v / 256 % 256) (v % 256)
/-- A physical core exists (R17). -/
def coreExists (c : Nat) : Bool := c < 19200
/-- The field of a core and its number (R10, R11). -/
def fieldOf (c : Nat) : Nat := 8 * (coreRow c / 25) + coreCol c / 16
/-- The power region of a core (R12). -/
def powerOf (c : Nat) : Nat := coreRow c / 5 * 8 + coreCol c / 16
/-- The cores of a power region, in ascending order. -/
def powerCores (g : Nat) : List Nat :=
  (List.range 80).map fun i => coreKey (g % 8 * 16 + i % 16) (g / 8 * 5 + i / 16)
/-- Manhattan distance between cores. -/
def manhattan (a b : Nat) : Nat :=
  (coreCol a - coreCol b) + (coreCol b - coreCol a) + (coreRow a - coreRow b) + (coreRow b - coreRow a)
/-- The cores of a rectangle given by two packed corners, in ascending 128·row + col order. -/
def rectCores (nw se : W32) : List Nat :=
  let c0 := nw.toNat / 65536; let r0 := nw.toNat % 65536
  let c1 := se.toNat / 65536; let r1 := se.toNat % 65536
  (List.range (r1 + 1 - r0)).flatMap fun i => (List.range (c1 + 1 - c0)).map fun j => coreKey (c0 + j) (r0 + i)
/-- A core lies in a rectangle. -/
def inRect (nw se : W32) (c : Nat) : Bool :=
  nw.toNat / 65536 ≤ coreCol c && coreCol c ≤ se.toNat / 65536 && nw.toNat % 65536 ≤ coreRow c && coreRow c ≤ se.toNat % 65536

/-! ## Time and free values -/

/-- Whether a time span has passed since a moment. -/
def State.passed (s : State) (since span : Nat) : Bool := since + span ≤ s.now
/-- Core-clock cycles of 700 MHz in a span of ns (R27). -/
def cyclesOf (ns : Nat) : Nat := ns * 7 / 10
/-- Take n free values: the first index, and the state with the counter advanced. -/
def State.draw (s : State) (n : Nat) : Nat × State := (s.free, { s with free := s.free + n })

/-! ## Units of the state -/

def State.core (s : State) (c : Nat) : Core := Tbl.get s.cores Core.reset c
def State.setCore (s : State) (c : Nat) (x : Core) : State := { s with cores := Tbl.set s.cores c x }
def State.updCore (s : State) (c : Nat) (f : Core → Core) : State := s.setCore c (f (s.core c))
def State.sync (s : State) (i : Nat) : SyncObj := Tbl.get s.syncs SyncObj.reset i
def State.setSync (s : State) (i : Nat) (x : SyncObj) : State := { s with syncs := Tbl.set s.syncs i x }
def State.region (s : State) (n : Nat) : Region := Tbl.get s.regions Region.reset n
def State.setRegion (s : State) (n : Nat) (x : Region) : State := { s with regions := Tbl.set s.regions n x }
def State.updRegion (s : State) (n : Nat) (f : Region → Region) : State := s.setRegion n (f (s.region n))
def State.preg (s : State) (g : Nat) : PRegion := Tbl.get s.power.regions PRegion.reset g
def State.setPreg (s : State) (g : Nat) (x : PRegion) : State :=
  { s with power := { s.power with regions := Tbl.set s.power.regions g x } }
def State.updPreg (s : State) (g : Nat) (f : PRegion → PRegion) : State := s.setPreg g (f (s.preg g))
def State.ctx? (s : State) (i : Nat) : Option Ctx := Tbl.find s.serving.ctxs i
def State.setCtx (s : State) (i : Nat) (x : Ctx) : State :=
  { s with serving := { s.serving with ctxs := Tbl.set s.serving.ctxs i x } }
def State.delCtx (s : State) (i : Nat) : State :=
  { s with serving := { s.serving with ctxs := Tbl.del s.serving.ctxs i } }
def State.port (s : State) (p : Nat) : Port := Tbl.get s.fabric.ports Port.reset p
def State.setPort (s : State) (p : Nat) (x : Port) : State :=
  { s with fabric := { s.fabric with ports := Tbl.set s.fabric.ports p x } }
def Core.arr (k : Core) (a : Nat) : Arr := Tbl.get k.arrays Arr.reset a
def Core.setArr (k : Core) (a : Nat) (x : Arr) : Core := { k with arrays := Tbl.set k.arrays a x }
def Core.set (k : Core) (i : Nat) : ASet := Tbl.get k.sets ASet.reset i
def Core.setSet (k : Core) (i : Nat) (x : ASet) : Core := { k with sets := Tbl.set k.sets i x }
def Core.oq (k : Core) (q : Nat) : List OqEntry := Tbl.get k.oqs [] q
def Core.setOq (k : Core) (q : Nat) (l : List OqEntry) : Core := { k with oqs := Tbl.set k.oqs q l }
def Core.iq (k : Core) (q : Nat) : List IqEntry := Tbl.get k.iqs [] q
def Core.setIq (k : Core) (q : Nat) (l : List IqEntry) : Core := { k with iqs := Tbl.set k.iqs q l }

/-! ## Registers of the sequencer -/

/-- Read a scalar register; s0 reads as zero (R162). -/
def Seq.reg (q : Seq) (r : BitVec 5) : W32 := if r = 0 then 0 else q.regs[r.toNat]'(by omega)
/-- Write a scalar register; writes to s0 are ignored (R162). -/
def Seq.setReg (q : Seq) (r : BitVec 5) (v : W32) : Seq :=
  if r = 0 then q else { q with regs := q.regs.set r.toNat v (by omega) }
/-- Read and write a descriptor register. -/
def Seq.desc (q : Seq) (d : BitVec 4) : Desc := q.descs[d.toNat]'(by omega)
def Seq.setDesc (q : Seq) (d : BitVec 4) (v : Desc) : Seq := { q with descs := q.descs.set d.toNat v (by omega) }

/-! ## Settings of the object dictionary -/

/-- The key of an entry. -/
def odKey (index sub : Nat) : Nat := 256 * index + sub
/-- A stored setting, or its default while nothing differs from it. -/
def State.setting (s : State) (index sub dflt : Nat) : Nat :=
  match Tbl.find s.od.vals (odKey index sub) with
  | some b => leNat b
  | none => dflt

/-! ## What leaves the block -/

def State.emit (s : State) (o : Out) : State := { s with out := s.out ++ [o] }

/-! ## The Sillage stream (R638, R639) -/

/-- A record's 64 bytes (R638). -/
def SilRec.bytes (r : SilRec) : Bytes :=
  leBytes 8 r.time.toNat ++ leBytes 1 r.type ++ leBytes 1 0 ++ leBytes 2 r.seq ++ leBytes 4 r.source.toNat ++ slice r.payload 0 48

/-- Append a record to the buffer with the next sequence number. -/
def State.silAppend (s : State) (type : Nat) (source : Nat) (payload : Bytes) : State :=
  let o := s.observe
  { s with observe := { o with
    sillage := o.sillage ++ [⟨s.almanac, type, o.silSeq, BitVec.ofNat 32 source, slice payload 0 48⟩]
    silSeq := (o.silSeq + 1) % 65536 } }

/-- Put a record into the 16,384-record buffer: a full buffer drops it; once room returns a LOST record goes first. -/
def State.sil (s : State) (type : Nat) (source : Nat) (payload : Bytes) : State :=
  let o := s.observe
  let room := 16384 - o.sillage.length
  let lose (s : State) (n : Nat) : State :=
    { s with observe := { s.observe with silLost := s.observe.silLost + n, silDrop := s.observe.silDrop + n } }
  if room = 0 then lose s 1
  else if o.silLost = 0 then s.silAppend type source payload
  else
    let t := s.silAppend 7 (Config.centralSource 7 % 65536 * 65536 + 0xFF00) (leBytes 8 o.silLost)
    let t := { t with observe := { t.observe with silLost := 0 } }
    if room = 1 then lose t 1 else t.silAppend type source payload

/-- Source words: a core with its tenant region, a field, the central controller, whose source R638 does not fix. -/
def silCore (c : Nat) (region : Option Nat) : Nat := coreByteId c * 65536 + region.getD 255 * 256
def silField (f : Nat) : Nat := 0xFF000000 + f * 65536 + 0xFF00
def silCentral (type : Nat) (region : Option Nat) : Nat := Config.centralSource type % 65536 * 65536 + region.getD 255 * 256

/-- STEP (0) and SYNC (1) records of a region are generated (R639). -/
def State.silOn (s : State) (type : Nat) (region : Option Nat) : Bool :=
  bitAt (s.setting 0x9300 1 0x80) type && (match region with | some n => bitAt (s.setting 0x9300 2 0) n | none => false)

/-- A NOTICE record (R638): its code, what it concerns, and a time in ns or a byte count. -/
def State.notice (s : State) (code source id v : Nat) : State := s.sil 6 source (leBytes 1 code ++ leBytes 2 id ++ leBytes 8 v)

/-! ## Power regions -/

/-- Field of a power region (R12). -/
def powerField (g : Nat) : Nat := 8 * (g / 40) + g % 8
/-- Code of a power region's state (R507). -/
def PState.code : PState → Nat
  | .run => 0 | .nap => 1 | .doze => 2 | .dark => 3 | .lost => 4 | .waking => 5
/-- A power region enters a state; the Sillage stream tells it (R491, R638). -/
def State.powerTo (s : State) (g : Nat) (st : PState) (cause : Nat) : State :=
  let p := s.preg g
  if p.state = st then s
  else
    let s := s.setPreg g { p with state := st, since := s.now, quiet := if st = .nap ∧ p.state ≠ .doze then s.now else p.quiet }
    s.sil 3 (silField (powerField g)) (leBytes 1 g ++ leBytes 1 p.state.code ++ leBytes 1 st.code ++ leBytes 1 cause)

/-- The steps of several requests in flight in a region, in the order of their delivery. -/
def manySteps (r : Region) : List StepRec := (r.steps ++ r.again).filter fun p => 2 ≤ p.segs.length

/-! ## The configuration store (R462, R464) -/

/-- The group of an RWC entry, by its commit index. -/
def groupOf (index : Nat) : Nat := if index = 0x1021 then 0x1020 else index

/-- The block that holds an entry: fixed, one for all of a coupled group, and neither block 0 nor block 1 (R462, R541, R556). -/
def storeBlock (index sub : Nat) : Nat :=
  let key := if (0x2200 ≤ index ∧ index < 0x2240) ∨ index = 0x1020 ∨ index = 0x1021 ∨ index = 0x8010 then odKey (groupOf index) 0 else odKey index sub
  2 + Config.blockOf key % 510
/-- The block of a region's placement record (R277). -/
def recordBlock (n : Nat) : Nat := 2 + Config.blockOf (2 ^ 24 + n) % 510

/-- A persistent entry has changed: its block waits to be saved. -/
def odPending (s : State) (index sub : Nat) : State :=
  let b := storeBlock index sub
  match Tbl.find s.od.pending b with
  | some _ => s
  | none => { s with od := { s.od with pending := Tbl.set s.od.pending b s.now } }

/-- The stack's MAC address: unicast, locally administered, derived from the serial (R475). -/
def State.mac (s : State) : Nat := let m := Config.macOf s.factory.serial; m % 2 ^ 48 / 2 ^ 42 * 2 ^ 42 + 2 ^ 41 + m % 2 ^ 40

end Sys2Proof.Machine
end

