-- ==== Sys2Proof/Machine/Sha.lean ====
section
/-!
DEFINITION. The published byte-string algorithms the machine computes: SHA-256 and its message padding (R134, R664), HMAC-SHA-256
and HKDF (R550, R560), and CRC-32C (R411).
-/
namespace Sys2Proof.Machine

/-! ## SHA-256 -/

/-- The largest number of n bits added to r whose e-th power does not exceed v, found bit by bit. -/
def rootBits (e v : Nat) : Nat → Nat → Nat
  | 0, r => r
  | n + 1, r => rootBits e v n (if (r + 2 ^ n) ^ e ≤ v then r + 2 ^ n else r)

/-- The primes below 312: there are 64 of them, and a composite number below 361 has a prime factor of at most 17. -/
def smallPrimes : List Nat := (List.range 312).filter fun n => 1 < n && [2, 3, 5, 7, 11, 13, 17].all fun p => n = p || n % p ≠ 0

/-- The first 32 fraction bits of the e-th root of a prime: the standard's constants are cube roots, its initial value square roots. -/
def rootFraction (e p : Nat) : W32 := BitVec.ofNat 32 (rootBits e (p * 2 ^ (32 * e)) 35 0)

def shaK : List W32 := smallPrimes.map (rootFraction 3)
/-- The initial hash value. -/
def shaInit : List W32 := (smallPrimes.take 8).map (rootFraction 2)

/-- The exclusive or of a word's rotations. -/
def mixRot (ns : List Nat) (x : W32) : W32 := ns.foldl (fun y n => y ^^^ x.rotateRight n) 0

/-- Extend a message schedule, newest word first, by n words. -/
def shaExtend : Nat → List W32 → List W32
  | 0, ws => ws
  | n + 1, ws =>
    let near := ws.getD 1 0
    let far := ws.getD 14 0
    shaExtend n ((ws.getD 15 0 + ws.getD 6 0 + (mixRot [7, 18] far ^^^ (far >>> 3)) + (mixRot [17, 19] near ^^^ (near >>> 10))) :: ws)

/-- One round on the working variables, with the sum of its constant and its schedule word. -/
def shaRound (v : List W32) (kw : W32) : List W32 :=
  match v with
  | a :: b :: c :: d :: e :: f :: g :: h :: _ =>
    let t := kw + h + mixRot [6, 11, 25] e + (g ^^^ (e &&& (f ^^^ g)))
    let m := (a &&& (b ||| c)) ||| (b &&& c)
    (t + m + mixRot [2, 13, 22] a) :: a :: b :: c :: (t + d) :: e :: f :: [g]
  | _ => v

/-- Big-endian words of a byte string. -/
def beWords : Nat → Bytes → List W32
  | 0, _ => []
  | n + 1, b => BitVec.ofNat 32 (beNat (slice b 0 4)) :: beWords n (b.drop 4)

/-- Compress one 64-byte block. -/
def shaBlock (h : List W32) (b : Bytes) : List W32 := 
  let ws := (shaExtend 48 (beWords 16 b).reverse).reverse
  List.zipWith (· + ·) h ((List.zipWith (· + ·) shaK ws).foldl shaRound h)

/-- Compress whole blocks, at most fuel of them. -/
def shaBlocks : Nat → List W32 → Bytes → List W32
  | 0, h, _ => h
  | n + 1, h, b => shaBlocks n (shaBlock h (b.take 64)) (b.drop 64)

/-- The bytes of hash words, most significant byte first. -/
def shaBytes (h : List W32) : Bytes := h.flatMap fun w => beBytes 4 w.toNat

/-- The padding after a message of n bytes. -/
def shaPad (n : Nat) : Bytes :=
  (0x80 : Byte) :: List.replicate ((119 - n % 64) % 64) (0 : Byte) ++ beBytes 8 (8 * n)

/-- SHA-256 of a message. -/
def sha256 (m : Bytes) : Bytes :=
  let p := m ++ shaPad m.length
  shaBytes (shaBlocks (p.length / 64) shaInit p)

/-! ## HMAC and HKDF -/

def hmac (key m : Bytes) : Bytes :=
  let k := if 64 < key.length then sha256 key else key
  let k := slice k 0 64
  sha256 (k.map (· ^^^ 0x5c) ++ sha256 (k.map (· ^^^ 0x36) ++ m))

/-- HKDF-Expand blocks T(i), T(i+1), … -/
def hkdfGo : Nat → Bytes → Bytes → Nat → Bytes → Bytes
  | 0, _, _, _, _ => []
  | n + 1, prk, info, i, t =>
    let t := hmac prk (t ++ info ++ [BitVec.ofNat 8 i])
    t ++ hkdfGo n prk info (i + 1) t

/-- HKDF-SHA-256: extract with a salt, expand to n bytes. -/
def hkdf (salt ikm info : Bytes) (n : Nat) : Bytes :=
  (hkdfGo ((n + 31) / 32) (hmac salt ikm) info 1 []).take n

/-- The ASCII bytes of a label. -/
def ascii (t : String) : Bytes := t.toList.map fun c => BitVec.ofNat 8 c.toNat

/-! ## CRC-32C -/

/-- Eight shifts of the reflected CRC register. -/
def crcBits : Nat → W32 → W32
  | 0, c => c
  | n + 1, c => crcBits n (if c.getLsbD 0 then (c >>> 1) ^^^ 0x82F63B78 else c >>> 1)

/-- CRC-32C of a byte string (R411). -/
def crc32c (b : Bytes) : W32 := ~~~(b.foldl (fun c x => crcBits 8 (c ^^^ x.zeroExtend 32)) 0xFFFFFFFF)

end Sys2Proof.Machine
end

