-- ==== Sys2Proof/Machine/HostOps.lean ====
section
/-!
DEFINITION. The host interface's shared operations: messages on the modules of a site, ring records and interrupts, events, and the
completion of commands (R410 to R418, R424 to R432).
-/
namespace Sys2Proof.Machine

/-! ## Sites and modules -/

def State.site (s : State) (i : Nat) : Site := s.host.sites.toList.getD i Site.reset
def State.setSite (s : State) (i : Nat) (x : Site) : State :=
  if h : i < 4 then { s with host := { s.host with sites := s.host.sites.set i x h } } else s
def Site.mod (t : Site) (m : Nat) : Mod := t.mods.toList.getD m Mod.reset
def Site.setMod (t : Site) (m : Nat) (x : Mod) : Site := if h : m < 2 then { t with mods := t.mods.set m x h } else t
def State.setMod (s : State) (i m : Nat) (x : Mod) : State := s.setSite i ((s.site i).setMod m x)
/-- A site is up when one of its modules is (R419). -/
def Site.up (t : Site) : Bool := (t.mod 0).up || (t.mod 1).up
/-- The module that carries a ring's or queue's messages: 0 while it is up, else 1 (R418). -/
def Site.carrier (t : Site) : Nat := if (t.mod 0).up then 0 else 1

/-! ## Messages (R410, R412, R414, R415) -/

/-- Data bytes of a message. -/
def HMsg.len : HMsg → Nat
  | .mrd _ _ _ => 0
  | .mwr _ d => d.length
  | .irq _ => 0
  | .erdCpl _ _ => 8
/-- Posted units a message uses: one for every 16 bytes of header and data (R415). -/
def HMsg.units : HMsg → Nat
  | .mwr _ d => 1 + (d.length + 15) / 16
  | .irq _ => 1
  | _ => 0
def HMsg.isRead : HMsg → Bool
  | .mrd _ _ _ => true
  | _ => false
/-- The fields of a message's header (R414). -/
def hdrOp (h : BitVec 128) : Nat := bits h.toNat 127 120
def hdrRsv (h : BitVec 128) : Nat := bits h.toNat 119 114
def hdrBytes (h : BitVec 128) : Nat := 4 * (bits h.toNat 113 104 + 1)
def hdrStatus (h : BitVec 128) : Nat := bits h.toNat 103 96
def hdrTag (h : BitVec 128) : Nat := bits h.toNat 95 64
def hdrAddr (h : BitVec 128) : Nat := bits h.toNat 63 0
/-- A header of its upper half, from Op to Tag, and its Address. -/
def headerOf (head addr : W64) : BitVec 128 := head ++ addr
/-- The header is one of the given Op, with its reserved bits zero (R414, R416). -/
def hdrGood (op : Nat) (h : BitVec 128) : Bool := hdrOp h = op && hdrRsv h = 0

/-- A message's header (R414). -/
def msgHeader (op lengthW tag addr : Nat) : Bytes :=
  leBytes 16 (op * 2 ^ 120 + lengthW % 1024 * 2 ^ 104 + tag % 2 ^ 32 * 2 ^ 64 + addr % 2 ^ 64)
/-- A message's bytes, up to the place where the next one begins. -/
def HMsg.bytes : HMsg → Bytes
  | .mrd tag addr len => msgHeader 1 (len / 4 - 1) tag addr
  | .mwr addr d => msgHeader 2 (d.length / 4 - 1) 0 addr ++ slice d 0 (alignUp d.length 16)
  | .irq v => msgHeader 3 0 0 v
  | .erdCpl tag v => msgHeader 8 1 tag 0 ++ leBytes 16 v.toNat
/-- Bytes of a message in the flit bodies: header and data up to the next 16-byte boundary (R414). -/
def HMsg.size (m : HMsg) : Nat := 16 + alignUp m.len 16

/-! ## Flits (R410 to R413) -/

/-- The flit header's bits (R411). -/
def flitHeader (h : FlitHdr) : Nat :=
  h.kind % 4 * 2 ^ 62 + h.seq % 4096 * 2 ^ 50 + h.ack % 4096 * 2 ^ 38 + (if h.ackValid then 2 ^ 37 else 0) + (if h.nak then 2 ^ 36 else 0) +
    h.first % 16 * 2 ^ 32 + h.rsv % 256 * 2 ^ 24 + h.posted % 4096 * 2 ^ 12 + h.read % 4096

/-- The header of a received flit, and whether its CRC checks (R411). -/
def flitHdrOf (b : Bytes) : FlitHdr :=
  let v := fieldAt b 0 8
  { kind := bits v 63 62, seq := bits v 61 50, ack := bits v 49 38, ackValid := bitAt v 37, nak := bitAt v 36, first := bits v 35 32
    rsv := bits v 31 24, posted := bits v 23 12, read := bits v 11 0
    crcOk := b.length = 256 && fieldAt b 252 4 = (crc32c (slice b 0 248)).toNat }

/-- A flit's 256 bytes: the header, the body, and the trailer with the CRC above its reserved half (R410, R411). -/
def flitBytes (h : FlitHdr) (body : Bytes) : Bytes :=
  let b := leBytes 8 (flitHeader h) ++ slice body 0 240
  b ++ leBytes 4 0 ++ leBytes 4 (crc32c b).toNat

/-- The header that a sent flit carries: the last Seq accepted stands in Ack; credits go back in idle flits. -/
def HFlit.header (f : HFlit) (x : Mod) : FlitHdr := ⟨f.kind, f.seq, x.rxSeq, true, false, f.first, 0, 0, 0, true⟩

/-- The body of the engine's control flit: its grants, the site, the module, and the Damvy version (R413). -/
def controlBody (i m : Nat) : Bytes := leBytes 4 4096 ++ leBytes 4 64 ++ leBytes 1 i ++ leBytes 1 m ++ leBytes 2 0x0001
def controlFlit (i m now : Nat) : HFlit := ⟨2, 0, 15, controlBody i m, now⟩

/-- An idle flit goes out on a module: the Ack, a replay request, and the credits owed (R411, R412). -/
def State.sendIdle (s : State) (i m : Nat) (nak : Bool) : State :=
  let x := (s.site i).mod m
  let p := min x.owePosted 4095
  let r := min x.oweRead 4095
  let h : FlitHdr := ⟨0, 0, x.rxSeq, true, nak, 15, 0, p, r, true⟩
  (s.setMod i m { x with owePosted := x.owePosted - p, oweRead := x.oweRead - r }).emit (.hostFlit i m (flitBytes h []))

/-- A message of the host has been taken: the credits it used are owed and go back in an idle flit (R411, R415). -/
def State.hostTook (s : State) (i m posted read : Nat) : State :=
  let x := (s.site i).mod m
  (s.setMod i m { x with owePosted := x.owePosted + posted, oweRead := x.oweRead + read }).sendIdle i m false

/-- The last flit sent, when a message that is sent now still begins in it.  DESIGN CHOICE: the messages of one time are packed together;
a later one begins a flit of its own, and the rest of a body is zero (R410). -/
def Mod.openFlit (x : Mod) (now : Nat) : Option HFlit :=
  match x.flits.getLast? with
  | some f => if f.kind = 1 ∧ f.sent = now ∧ f.body.length < 240 then some f else none
  | none => none
/-- Room in the flit under way. -/
def Mod.room (x : Mod) (now : Nat) : Nat := match x.openFlit now with | some f => 240 - f.body.length | none => 0
/-- Flits that a message begins. -/
def Mod.newFlits (x : Mod) (now : Nat) (m : HMsg) : Nat := (m.size - x.room now + 239) / 240

/-- The flits held, once a message is packed after them: into the flit under way, then into new ones. -/
def Mod.packed (x : Mod) (now : Nat) (m : HMsg) : List HFlit :=
  let b := m.bytes
  let fresh (l : Bytes) (begun : Bool) : List HFlit := (chunks 240 l).zipIdx.map fun c =>
    { kind := 1, seq := (x.txSeq + 1 + c.2) % 4096, first := if begun ∨ c.2 ≠ 0 then 15 else 0, body := c.1, sent := now }
  match x.openFlit now with
  | some f =>
    let k := 240 - f.body.length
    x.flits.dropLast ++ { f with first := if f.first = 15 then f.body.length / 16 else f.first, body := f.body ++ b.take k } ::
      fresh (b.drop k) true
  | none => x.flits ++ fresh b false

/-- The module can send a message now: it is up, has credit, and holds at most 2,048 unacknowledged flits (R412, R415). -/
def Mod.canSend (x : Mod) (now : Nat) (m : HMsg) : Bool :=
  x.up && m.units ≤ x.posted && (!m.isRead || 1 ≤ x.readCr) && x.flits.length + x.newFlits now m ≤ 2048

/-- Send one message. -/
def Mod.send (x : Mod) (now : Nat) (m : HMsg) : Mod :=
  let q := (x.txSeq + x.newFlits now m) % 4096
  { x with txSeq := q, unacked := x.unacked ++ [(q, m)], flits := x.packed now m, posted := x.posted - m.units,
           readCr := if m.isRead then x.readCr - 1 else x.readCr,
           heldFrom := if x.flits.isEmpty then now else x.heldFrom, lastUse := now, l1 := false }

/-- Send waiting messages in order while possible; answers the messages sent. -/
def drainGo : Nat → Nat → Mod → List HMsg → Mod × List HMsg
  | 0, _, x, sent => (x, sent)
  | n + 1, now, x, sent =>
    match x.waiting with
    | [] => (x, sent)
    | m :: t => if x.canSend now m then drainGo n now ({ x with waiting := t }.send now m) (sent ++ [m]) else (x, sent)

/-- Drain a module's waiting messages. -/
def State.drainMod (s : State) (i m : Nat) : State :=
  let x := (s.site i).mod m
  let (y, sent) := drainGo x.waiting.length s.now x []
  let s := s.setMod i m y
  { s with out := s.out ++ sent.map (Out.host i m) }

/-- Send a message to a site on its carrier; a lost site takes none (R418, R443). -/
def State.hostSend (s : State) (i : Nat) (m : HMsg) : State :=
  let t := s.site i
  if t.lost then s
  else
    let c := t.carrier
    let x := t.mod c
    (s.setMod i c { x with waiting := x.waiting ++ [m] }).drainMod i c

/-- A host write, cut at 4 KiB pages (R415).  DESIGN CHOICE: an MWR is whole words at a word's address, so a value of another length is followed by
zero bytes up to its last word, and nothing is written at an address that is not a word's. -/
def writeGo : Nat → State → Nat → Nat → Bytes → State
  | 0, s, _, _, _ => s
  | n + 1, s, i, addr, d =>
    if d.isEmpty then s
    else
      let k := 4096 - addr % 4096
      writeGo n (s.hostSend i (.mwr addr (d.take k))) i (addr + k) (d.drop k)
def State.hostWrite (s : State) (i addr : Nat) (d : Bytes) : State :=
  if addr % 4 ≠ 0 then s else writeGo (d.length / 4096 + 2) s i addr (slice d 0 (alignUp d.length 4))

/-- Reads of host memory whose data come with the command that needs them: their MRDs, cut at 4 KiB pages, each with a Tag of its own (R415,
R437). -/
def askGo : Nat → State → Nat → Nat → Nat → State
  | 0, s, _, _, _ => s
  | n + 1, s, i, addr, len =>
    if len = 0 then s
    else
      let k := min len (4096 - addr % 4096)
      let tag := s.host.readTag
      let s := { s with host := { s.host with readTag := (tag + 1) % 2 ^ 32 } }
      askGo n (s.hostSend i (.mrd tag addr (alignUp k 4))) i (addr + k) (len - k)
def State.hostAsk (s : State) (i addr len : Nat) : State := askGo (len / 4096 + 2) s i addr len

/-! ## Rings (R363, R429, R432) -/

def State.ring? (s : State) (r : Nat) : Option Ring := Tbl.find s.host.rings r
def State.setRing (s : State) (r : Nat) (x : Ring) : State := { s with host := { s.host with rings := Tbl.set s.host.rings r x } }
def Ring.size (x : Ring) : Nat := 2 ^ x.log2
/-- Free records: the size less records written and not yet read (R365). -/
def Ring.free (x : Ring) : Nat := x.size - (x.written + 2 ^ 32 - x.readIdx) % 2 ^ 32
def Ring.recBytes (x : Ring) : Nat := match x.kind with | 0 => 16 | 3 => 64 | _ => 32
/-- Place of the byte whose top bit is Phase. -/
def Ring.phaseByte (x : Ring) : Nat := match x.kind with | 0 => 7 | 3 => 0 | _ => 30
/-- Phase of the next record (R363). -/
def Ring.phase (x : Ring) : Nat := 1 - x.written / x.size % 2

/-- A record with its Phase bit. -/
def Ring.stamp (x : Ring) (b : Bytes) : Bytes :=
  let b := slice b 0 x.recBytes
  let p := x.phaseByte
  b.take p ++ [BitVec.ofNat 8 ((nth b p 0).toNat % 128 + 128 * x.phase)] ++ b.drop (p + 1)

/-- Write one record at the ring's next index. -/
def State.putRecord (s : State) (r : Nat) (b : Bytes) : State :=
  match s.ring? r with
  | none => s
  | some x =>
    let s := s.hostWrite x.site (x.base + x.written % x.size * x.recBytes) (x.stamp b)
    s.setRing r { x with written := (x.written + 1) % 2 ^ 32 }

/-- A ring may interrupt: its last IRQ, if it has sent one, is IrqInterval old (R432). -/
def State.irqDue (s : State) (x : Ring) : Bool :=
  match x.lastIrq with | some t => decide (t + 1000 * s.setting 0x1100 8 0 ≤ s.now) | none => true

/-- Interrupt after a ring's records, at most once per IrqInterval (R432). -/
def State.ringIrq (s : State) (r : Nat) : State :=
  match s.ring? r with
  | none => s
  | some x =>
    match x.vector with
    | none => s
    | some v =>
      if s.irqDue x then (s.hostSend x.site (.irq v)).setRing r { x with lastIrq := some s.now, irqHeld := false }
      else s.setRing r { x with irqHeld := true }

/-- A ring and what it owes after writing the owed records that it has room for: one record stays free for a terminal record, which is the last
that a request orders (R365). -/
def State.payOwed (s : State) (r : Nat) : State :=
  match s.ring? r with
  | none => s
  | some x =>
    let last : Bool := match x.owed.getLast? with | some b => bitAt (nth b 7 0).toNat 6 | none => false
    let n := if last ∧ x.owed.length ≤ x.free then x.owed.length else min x.owed.length (x.free - 1)
    if n = 0 then s
    else
      let s := s.setRing r { x with owed := x.owed.drop n }
      ((x.owed.take n).foldl (fun s b => s.putRecord r b) s).ringIrq r

/-- Write a group of records and interrupt. -/
def State.putRecords (s : State) (r : Nat) (bs : List Bytes) : State :=
  if bs.isEmpty then s else (bs.foldl (fun s b => s.putRecord r b) s).ringIrq r

/-- A 32-byte record (R429). -/
def record32 (kind queue status detail cmdIndex handle : Nat) (result0 : Nat) (time : W64) (result1 : Nat) : Bytes :=
  leBytes 32 (kind % 256 * 2 ^ 248 + queue % 1024 * 2 ^ 232 + status % 256 * 2 ^ 224 + detail % 65536 * 2 ^ 208 +
    cmdIndex % 65536 * 2 ^ 192 + handle % 2 ^ 32 * 2 ^ 160 + result0 % 2 ^ 64 * 2 ^ 96 + time.toNat * 2 ^ 32 +
    result1 % 2 ^ 32)

/-! ## Events (R430) -/

/-- The event rings on sites that are up whose mask selects a code. -/
def State.eventRings (s : State) (code : Nat) : List Nat :=
  (s.host.rings.filter fun e => e.2.kind = 2 && e.2.mask.getLsbD code && (s.site e.2.site).up).map (·.1)

/-- Put a record in an event ring: after a loss event 4 with the drop count comes first; without room it is dropped and
counted. -/
def State.postTo (s : State) (b : Bytes) (r : Nat) : State :=
  match s.ring? r with
  | none => s
  | some x =>
    if x.drops = 0 then
      if 1 ≤ x.free then s.putRecords r [b] else s.setRing r { x with drops := x.drops + 1 }
    else if x.free = 0 then s.setRing r { x with drops := x.drops + 1 }
    else
      let lost := record32 3 0 0 4 0 0xFFFFFFFF x.drops s.almanac 0
      let s := s.setRing r { x with drops := if x.free = 1 then 1 else 0 }
      s.putRecords r (if x.free = 1 then [lost] else [lost, b])

/-- The Sillage EVENT record of an event (R638). -/
def eventPayload (code status detail result0 result1 : Nat) : Bytes :=
  leBytes 1 code ++ leBytes 1 status ++ leBytes 2 detail ++ leBytes 8 result0 ++ leBytes 4 result1

/-- Post an event to every ring that selects it, and to the Sillage stream. -/
def State.postEvent (s : State) (code status result0 result1 : Nat) : State :=
  let b := record32 3 0 status code 0 0xFFFFFFFF result0 s.almanac result1
  let s := (s.eventRings code).foldl (fun s r => s.postTo b r) s
  s.sil 5 (silCentral 5 none) (eventPayload code status code result0 result1)

/-! ## Handles and completions (R425 to R427) -/

def State.hdl (s : State) (h : Nat) : Hdl := Tbl.get s.host.handles ⟨0, none⟩ h
def State.setHdl (s : State) (h : Nat) (x : Hdl) : State := { s with host := { s.host with handles := Tbl.set s.host.handles h x } }
def State.sq? (s : State) (q : Nat) : Option Sq := Tbl.find s.host.sqs q
def State.setSq (s : State) (q : Nat) (x : Sq) : State := { s with host := { s.host with sqs := Tbl.set s.host.sqs q x } }
/-- Handles outstanding (R426). -/
def State.handlesOut (s : State) : Nat := (s.host.handles.filter fun e => e.2.out.isSome).length
/-- A handle's 32 bits. -/
def handleWord (slot gen : Nat) : Nat := slot * 65536 + gen

/-- Write the COMPLETE of an outstanding handle, free the handle and the record it reserved; when the queue's site is lost it goes
out as event 5 (R426, R427, R443).  The IRQ that Notify asks for is the one that the completion ring's vector gives after its records, at most one
per IrqInterval (R432, R433). -/
def State.finish (s : State) (h status detail result0 result1 : Nat) : State :=
  let x := s.hdl h
  match x.out with
  | none => s
  | some o =>
    let s := s.setHdl h { x with out := none }
    let word := handleWord h x.gen
    match s.sq? o.queue with
    | some q =>
      if (s.site q.site).lost then
        let b := record32 3 0 status detail o.index word result0 s.almanac result1
        let s := (s.eventRings 5).foldl (fun s r => s.postTo b r) s
        s.sil 5 (silCentral 5 none) (eventPayload 5 status detail result0 result1)
      else
        let s := match s.ring? q.ring with | some r => s.setRing q.ring { r with reserved := r.reserved - 1 } | none => s
        s.putRecords q.ring [record32 2 o.queue status detail o.index word result0 s.almanac result1]
    | none => s

/-- The accepted command behind a handle, if it is outstanding. -/
def State.cmd? (s : State) (h : Nat) : Option HOut := (s.hdl h).out
/-- The site of the queue that an accepted command came by. -/
def cmdSite (s : State) (o : HOut) : Nat := match s.sq? o.queue with | some q => q.site | none => 0

/-- An operand in host memory: its reads go to the site of the command's queue, and none comes from a lost site or for an address that no MRD
has (R415, R437). -/
def State.operand (s : State) (o : HOut) (addr len : Nat) (data : Option Bytes) : State × Option Bytes :=
  let i := cmdSite s o
  if (s.site i).lost ∨ addr % 4 ≠ 0 then (s, none) else (s.hostAsk i addr len, data)

/-- Keep an accepted command running past its row. -/
def State.keep (s : State) (h : Nat) (f : HOut → HOut) : State :=
  let x := s.hdl h
  s.setHdl h { x with out := x.out.map f }

/-- The configured opcode of an outstanding command. -/
def HOut.opcode (o : HOut) : Nat := fieldAt o.cmd 0 1

/-- Run a command of the given opcode behind a handle that has not begun to run; otherwise nothing happens. -/
def State.onCmd (s : State) (h opcode : Nat) (f : HOut → State) : State :=
  match s.cmd? h with
  | some o => if o.opcode = opcode ∧ !o.running then f o else s
  | none => s

/-! ## Class 1 requests at the hub (R439, R441) -/

/-- The key of a class 1 write at its hub, above every read's Tag. -/
def hubKey (c q req : Nat) : Nat := 2 ^ 32 + 256 * c + 32 * q + req
def hubCore (key : Nat) : Nat := (key - 2 ^ 32) / 256

/-- The read with a Tag, or the write with a key, has ended: handles that waited for it go on (R439). -/
def tagEnded (s : State) (tag : Nat) : State :=
  let hit := s.host.handles.filter fun e => match e.2.out with | some o => o.tags.contains tag | none => false
  hit.foldl (fun s e =>
    match (s.hdl e.1).out with
    | none => s
    | some o =>
      let l := o.tags.filter (· ≠ tag)
      let s := s.keep e.1 fun o => { o with tags := l }
      if l.isEmpty then s.finish e.1 0 0 0 0 else s) s

/-- A write at a hub is over. -/
def hubDone (s : State) (key : Nat) : State := tagEnded { s with host := { s.host with writes := Tbl.del s.host.writes key } } key

end Sys2Proof.Machine
end

