-- ==== Sys2Proof/Machine/Num.lean ====
section
/-!
DEFINITION. Numbers: exact dyadic values, the machine's floating-point formats (R82), rounding to nearest with ties to even
(R81), inputs taken under R663, FP32 arithmetic with one rounding per operation (R172), and long accumulators (R77, R79).
-/
namespace Sys2Proof.Machine

/-! ## Exact dyadic values -/

/-- The exact value m·2^e. -/
structure Dy where
  m : Int
  e : Int
deriving DecidableEq, Repr

def Dy.zero : Dy := ⟨0, 0⟩
def Dy.ofInt (i : Int) : Dy := ⟨i, 0⟩
/-- Bring a value to a smaller exponent. -/
def Dy.at (x : Dy) (e : Int) : Int := x.m * 2 ^ (x.e - e).toNat
def Dy.add (x y : Dy) : Dy := let e := min x.e y.e; ⟨x.at e + y.at e, e⟩
def Dy.neg (x : Dy) : Dy := ⟨-x.m, x.e⟩
def Dy.sub (x y : Dy) : Dy := x.add y.neg
def Dy.mul (x y : Dy) : Dy := ⟨x.m * y.m, x.e + y.e⟩
def Dy.lt (x y : Dy) : Bool := let e := min x.e y.e; x.at e < y.at e
def Dy.max (x y : Dy) : Dy := if x.lt y then y else x
def Dy.min (x y : Dy) : Dy := if y.lt x then y else x

/-! ## Rounding -/

/-- n / d to nearest, ties to even. -/
def rne (n d : Nat) : Nat :=
  let q := n / d; let r := n % d
  if 2 * r < d then q else if d < 2 * r then q + 1 else if q % 2 = 0 then q else q + 1

/-- A signed quotient to nearest, ties to even. -/
def rneInt (n : Int) (d : Nat) : Int := if n < 0 then -(rne n.natAbs d : Int) else rne n.natAbs d

/-- The largest integer at most the square root, bit by bit. -/
def isqrtGo : Nat → Nat → Nat → Nat
  | 0, _, r => r
  | k + 1, n, r => let t := r + 2 ^ k; isqrtGo k n (if t * t ≤ n then t else r)
def isqrt (n : Nat) : Nat := isqrtGo (Nat.log2 n / 2 + 1) n 0

/-- A binary floating-point format: precision with the hidden bit, exponent of the least subnormal, the bits of the largest
finite value, the position of the sign. -/
structure Flt where
  p    : Nat
  umin : Int
  top  : Nat
  sign : Nat
deriving DecidableEq, Repr

def Flt.fp32 : Flt := ⟨24, -149, 0x7F7FFFFF, 31⟩
def Flt.bf16 : Flt := ⟨8, -133, 0x7F7F, 15⟩
def Flt.fp16 : Flt := ⟨11, -24, 0x7BFF, 15⟩
def Flt.e4m3 : Flt := ⟨4, -9, 0x7E, 7⟩
def Flt.e5m2 : Flt := ⟨3, -16, 0x7B, 7⟩

/-- The magnitude bits of n/d·2^e rounded once (R81), and whether it was held at the largest finite value (R82). -/
def Flt.round (f : Flt) (n d : Nat) (e : Int) : Nat × Bool :=
  if n = 0 ∨ d = 0 then (0, false) else
  let x0 : Int := (Nat.log2 n : Int) - Nat.log2 d
  -- x0 or x0 - 1 is the exponent of n/d
  let big : Bool := if 0 ≤ x0 then d * 2 ^ x0.toNat ≤ n else d ≤ n * 2 ^ (-x0).toNat
  let x := (if big then x0 else x0 - 1) + e
  let u := max (x - (f.p - 1 : Nat)) f.umin
  let k := e - u
  let r := if 0 ≤ k then rne (n * 2 ^ k.toNat) d else rne n (d * 2 ^ (-k).toNat)
  let b := (u - f.umin).toNat * 2 ^ (f.p - 1) + r
  if f.top < b then (f.top, true) else (b, false)

/-- Round an exact value to a format; an exact zero is +0 (R82). -/
def Flt.of (f : Flt) (x : Dy) : Nat × Bool :=
  let (b, c) := f.round x.m.natAbs 1 x.e
  (if x.m < 0 then b + 2 ^ f.sign else b, c)

/-- The exact value of a format's bits, a NaN as +0 and an infinity as the largest finite FP32 value (R663); the flag tells
that the value was replaced. -/
def Flt.val (f : Flt) (v : Nat) : Dy × Bool :=
  let neg := bitAt v f.sign
  let mag := v % 2 ^ f.sign
  let sg (i : Int) : Int := if neg then -i else i
  let hid := 2 ^ (f.p - 1)
  if f.top < mag then
    -- infinity stands just above the largest finite value in every format but E4M3, which has none
    if mag = f.top + 1 ∧ f.sign ≠ 7 ∨ (f.p = 3 ∧ mag = f.top + 1) then (⟨sg (2 ^ 24 - 1), 104⟩, true) else (Dy.zero, true)
  else
    let ex := mag / hid; let fr := mag % hid
    if ex = 0 then (⟨sg fr, f.umin⟩, false) else (⟨sg (fr + hid : Nat), f.umin + (ex - 1 : Nat)⟩, false)

/-! ## Element formats of walks (R176) -/

/-- Bytes of one element by Fmt. -/
def fmtBytes (fmt : Nat) : Nat := [1, 1, 1, 2, 2, 4, 4, 8].getD fmt 8

/-- A signed reading of n-bit data. -/
def signedOf (n v : Nat) : Int := if bitAt v (n - 1) then (v : Int) - 2 ^ n else v

/-- An element's exact value under R663. -/
def fmtVal (fmt v : Nat) : Dy × Bool :=
  match fmt with
  | 0 => (.ofInt (signedOf 8 v), false)
  | 1 => Flt.e4m3.val v
  | 2 => Flt.e5m2.val v
  | 3 => Flt.fp16.val v
  | 4 => Flt.bf16.val v
  | 5 => Flt.fp32.val v
  | 6 => (.ofInt (signedOf 32 v), false)
  | _ => (⟨signedOf 64 v, -24⟩, false)

/-- Round to an integer and hold it in a signed width. -/
def intOf (n : Nat) (x : Dy) : Nat × Bool :=
  let i := if 0 ≤ x.e then x.at 0 else rneInt x.m (2 ^ (-x.e).toNat)
  let hi : Int := 2 ^ (n - 1) - 1; let lo : Int := -2 ^ (n - 1)
  let j := max lo (min hi i)
  ((j % 2 ^ n).toNat, j ≠ i)

/-- Round an exact value once to an element format (R81, R82); the flag tells that it was held at the end of the range. -/
def fmtOf (fmt : Nat) (x : Dy) : Nat × Bool :=
  match fmt with
  | 0 => intOf 8 x
  | 1 => Flt.e4m3.of x
  | 2 => Flt.e5m2.of x
  | 3 => Flt.fp16.of x
  | 4 => Flt.bf16.of x
  | 5 => Flt.fp32.of x
  | 6 => intOf 32 x
  | _ => intOf 64 ⟨x.m, x.e + 24⟩

/-! ## FP32 arithmetic (R172) -/

/-- The exact value of FP32 bits. -/
def f32val (w : W32) : Dy := (Flt.fp32.val w.toNat).1
/-- An exact value rounded to FP32 and held at the largest finite value. -/
def f32of (x : Dy) : W32 := BitVec.ofNat 32 (Flt.fp32.of x).1
def f32add (a b : W32) : W32 := f32of ((f32val a).add (f32val b))
def f32sub (a b : W32) : W32 := f32of ((f32val a).sub (f32val b))
def f32mul (a b : W32) : W32 := f32of ((f32val a).mul (f32val b))
/-- The largest finite FP32 value, with a sign. -/
def f32max (neg : Bool) : W32 := if neg then 0xFF7FFFFF else 0x7F7FFFFF
/-- A quotient rounded once; a division by zero gives the largest finite value of the dividend's sign (R172). -/
def f32div (a b : W32) : W32 :=
  let x := f32val a; let y := f32val b
  if y.m = 0 then (if x.m = 0 then 0 else f32max (x.m < 0))
  else
    let (r, _) := Flt.fp32.round x.m.natAbs y.m.natAbs (x.e - y.e)
    BitVec.ofNat 32 (if (x.m < 0) ≠ (y.m < 0) then r + 2 ^ 31 else r)
/-- A square root rounded once; of a negative value or zero, +0. -/
def f32sqrt (a : W32) : W32 :=
  let x := f32val a
  if x.m ≤ 0 then 0 else
    let odd : Nat := if x.e % 2 = 0 then 0 else 1
    let n := x.m.natAbs * 2 ^ (64 + odd)
    let e := (x.e - odd - 64) / 2
    let s := isqrt n
    let n2 := if s * s = n then 2 * s else 2 * s + 1
    BitVec.ofNat 32 (Flt.fp32.round n2 1 (e - 1)).1
/-- Keep an FP32 result finite: a NaN as +0, an infinity as the largest finite value (R172: no VE operation produces either). -/
def f32fin (w : W32) : W32 := f32of (f32val w)
def f32lt (a b : W32) : Bool := (f32val a).lt (f32val b)

/-- Pairwise addition in lane order: neighbours, then pairs of pairs (R132).  DESIGN CHOICE: an odd term is passed up as it is, and a row longer
than the vector engine's 256 lanes is one tree; R132 states neither. -/
def pairUp : List W32 → List W32
  | a :: b :: t => f32add a b :: pairUp t
  | l => l
def laneSum : Nat → List W32 → W32
  | 0, l => l.headD 0
  | k + 1, l => match l with | [] => 0 | [x] => x | l => laneSum k (pairUp l)
/-- The FP32 sum over a row in lane order; a row holds fewer than 2^20 elements. -/
def rowSum (l : List W32) : W32 := laneSum 24 l

/-! ## Long accumulators (R77, R79) -/

def accHi : Int := 2 ^ 63 - 1
def accLo : Int := -2 ^ 63
/-- An exact sum held at the nearer end of the range, and whether it saturated. -/
def satSum (a b : Int) : Int × Bool :=
  let s := a + b
  if accHi < s then (accHi, true) else if s < accLo then (accLo, true) else (s, false)

end Sys2Proof.Machine
end

