-- ==== Sys2Proof/Machine/Trans.lean ====
section
/-!
DEFINITION. The functions that no finite sum gives: exponentials, logarithms, the error function and roots, to about 200 bits, and results
within two units in the last place of them (R172, R323, R358, R360).
-/
namespace Sys2Proof.Machine

/-! ## Fixed-point series -/

/-- Fraction bits of the working values. -/
def fxBits : Nat := 256
def fxOne : Int := 2 ^ fxBits

/-- Terms of t + t³/3 + t⁵/5 + … from the k-th on; pw is t^(2k+1). -/
def atanhTerms : Nat → Int → Int → Nat → Int
  | 0, _, _, _ => 0
  | f + 1, pw, t2, k => pw / (2 * k + 1) + atanhTerms f (pw * t2 / fxOne) t2 (k + 1)
def fxAtanh (t : Int) : Int := atanhTerms 90 t (t * t / fxOne) 0
def fxLn2 : Int := 2 * fxAtanh (fxOne / 3)
/-- The natural logarithm of m, 1 ≤ m < 2. -/
def fxLn (m : Int) : Int := 2 * fxAtanh ((m - fxOne) * fxOne / (m + fxOne))

/-- Terms of 1 + r + r²/2 + … from the k-th on. -/
def expTerms : Nat → Int → Int → Nat → Int
  | 0, _, _, _ => 0
  | f + 1, term, r, k => term + expTerms f (term * r / (fxOne * (k + 1))) r (k + 1)
/-- e^r for 0 ≤ r < 1. -/
def fxExp (r : Int) : Int := expTerms 70 fxOne r 0

/-- Terms of 1/n - 1/(3·n³) + 1/(5·n⁵) - … from the k-th on; pw is 1/n^(2k+1). -/
def atanTerms : Nat → Int → Int → Nat → Int
  | 0, _, _, _ => 0
  | f + 1, pw, n2, k => (if k % 2 = 0 then pw / (2 * k + 1) else -(pw / (2 * k + 1))) + atanTerms f (pw / n2) n2 (k + 1)
/-- π by Machin's formula. -/
def fxPi : Int := 16 * atanTerms 60 (fxOne / 5) 25 0 - 4 * atanTerms 20 (fxOne / 239) 57121 0

/-- Terms of Σ (-y)^n/(n!·(2n + 1)) from the n-th on; pw is y^n/n!. -/
def erfTerms : Nat → Int → Int → Nat → Int
  | 0, _, _, _ => 0
  | f + 1, pw, y, n =>
    (if n % 2 = 0 then pw / (2 * n + 1) else -(pw / (2 * n + 1))) + erfTerms f (pw * y / (fxOne * (n + 1))) y (n + 1)

/-! ## The functions on dyadic values -/

/-- A value in units of 2^-256. -/
def Dy.fx (x : Dy) : Int := if 0 ≤ x.e + fxBits then x.m * 2 ^ (x.e + fxBits).toNat else x.m / 2 ^ (-(x.e + fxBits)).toNat

/-- 2^n·e^r for a split exponent. -/
def expSplit (n r : Int) : Dy := ⟨fxExp r, n - fxBits⟩
/-- e^x, and 2^x; an exponent beyond all formats is held at one that still is. -/
def Dy.exp (x : Dy) : Dy :=
  if (Dy.ofInt 4096).lt x then ⟨1, 5000⟩ else if x.lt (.ofInt (-4096)) then ⟨1, -5000⟩
  else let v := x.fx; let n := v / fxLn2; expSplit n (v - n * fxLn2)
def Dy.exp2 (x : Dy) : Dy :=
  if (Dy.ofInt 4096).lt x then ⟨1, 5000⟩ else if x.lt (.ofInt (-4096)) then ⟨1, -5000⟩
  else let v := x.fx; let n := v / fxOne; expSplit n ((v - n * fxOne) * fxLn2 / fxOne)

/-- A positive value as 2^n·m, 1 ≤ m < 2: n, and m in units of 2^-256. -/
def Dy.norm (x : Dy) : Int × Int :=
  let k := Nat.log2 x.m.natAbs
  (x.e + k, (⟨x.m, -(k : Int)⟩ : Dy).fx)
/-- The natural logarithm, and the one to base 2, of a positive value. -/
def Dy.ln (x : Dy) : Dy := let (n, m) := x.norm; ⟨n * fxLn2 + fxLn m, -fxBits⟩
def Dy.log2 (x : Dy) : Dy := let (n, m) := x.norm; ⟨n * fxOne + fxLn m * fxOne / fxLn2, -fxBits⟩

/-- 2/√π. -/
def fxErfScale : Int := isqrt (4 * 2 ^ (3 * fxBits) / fxPi.natAbs)
/-- The error function; from 7 on it is 1 to 70 bits. -/
def Dy.erf (x : Dy) : Dy :=
  let a : Dy := ⟨x.m.natAbs, x.e⟩
  if (Dy.ofInt 7).lt a then .ofInt (if x.m < 0 then -1 else 1)
  else (x.mul ⟨erfTerms 280 fxOne (a.mul a).fx 0, -fxBits⟩).mul ⟨fxErfScale, -fxBits⟩

/-- 1/x for x ≠ 0, and 1/√x for x > 0. -/
def Dy.recip (x : Dy) : Dy := ⟨(if x.m < 0 then -1 else 1) * (2 ^ 300 / x.m.natAbs : Nat), -300 - x.e⟩
def Dy.rsqrt (x : Dy) : Dy :=
  let odd : Nat := if x.e % 2 = 0 then 0 else 1
  -- x = n·2^(e - odd) with an even exponent
  let n := x.m.natAbs * 2 ^ odd
  ⟨isqrt (2 ^ 600 / n), -300 - (x.e - odd) / 2⟩

/-! ## Results within two units in the last place -/

/-- An FP32 value's magnitude moved by some units in the last place, within the finite range. -/
def ulpMove (r : W32) (e : Int) : W32 :=
  let mag := max 0 (min 0x7F7FFFFF ((r.toNat % 2 ^ 31 : Nat) + e))
  BitVec.ofNat 32 (mag.toNat + r.toNat / 2 ^ 31 * 2 ^ 31)
/-- One unit in the last place at an FP32 value. -/
def ulpAt (r : W32) : Dy := let m := r.toNat % 2 ^ 31; ⟨1, -149 + ((m / 2 ^ 23 - 1 : Nat) : Int)⟩

/-- The FP32 result of function fn at x whose exact value is y: a free choice among the values within two units in the last place; beyond
the finite range, or exactly 0, the rounded value (R172). -/
def nearUlp (fn : Nat) (x : W32) (y : Dy) : W32 :=
  let (b, held) := Flt.fp32.of y
  let r := BitVec.ofNat 32 b
  if held ∨ y.m = 0 then r
  else
    let t := ulpMove r (Config.ulp fn x)
    let d := (f32val t).sub y
    let two := (ulpAt r).mul ⟨1, 1⟩
    if two.lt d ∨ two.lt d.neg then r else t

/-- The functions by their numbers of Config.ulp: 0 reciprocal, 1 reciprocal square root, 2 exp2, 3 log2, 4 e^x, 5 erf of the VE; 6 e^x of
the SP; 7 exp2 of the AE.  DESIGN CHOICE (log 34): the SP's and the AE's are held to R172's bound as the VE's are. -/
def nearExp2 (fn : Nat) (x : W32) : W32 := nearUlp fn x (f32val x).exp2
def nearExp (fn : Nat) (x : W32) : W32 := nearUlp fn x (f32val x).exp
def nearErf (x : W32) : W32 := nearUlp 5 x (f32val x).erf

end Sys2Proof.Machine
end

