-- ==== Sys2Proof/Machine/Flags.lean ====
section
/-!
DEFINITION. The flags and counters of a core: accumulator tiles with their SAT bit and SatCount (R79, R80), event counters with
their overflow bits (R615).
-/
namespace Sys2Proof.Machine

/-! ## Event counters (R615, R616) -/

/-- Add n to counter i of block b: it wraps at 2^48 and its overflow bit sticks (R615).  A fenced core's counters do not
change (R618). -/
def Core.count (k : Core) (b i n : Nat) : Core :=
  if k.fence.isSome ∨ n = 0 then k else
  let key := 8 * b + i
  let v := Tbl.get k.ctrs 0 key + n
  { k with ctrs := Tbl.set k.ctrs key (v % 2 ^ 48),
           ovf := if 2 ^ 48 ≤ v ∧ !k.ovf.contains key then k.ovf ++ [key] else k.ovf }

/-- Count in the AON power block of a field (R508, R615). -/
def State.countField (s : State) (f i n : Nat) : State :=
  let key := 8 * f + i
  let v := Tbl.get s.power.ctrs 0 key + n
  { s with power := { s.power with
    ctrs := Tbl.set s.power.ctrs key (v % 2 ^ 48)
    ovf := if 2 ^ 48 ≤ v ∧ !s.power.ovf.contains key then s.power.ovf ++ [key] else s.power.ovf } }

/-! ## Accumulator tiles (R77 to R80) -/

def Core.accGet (k : Core) (t e : Nat) : W64 := Tbl.get k.acc 0 (512 * t + e)
/-- Write an entry; its check bits are renewed with it (R139, R159). -/
def Core.accSet (k : Core) (t e : Nat) (v : W64) : Core :=
  { k with acc := if v = 0 then Tbl.del k.acc (512 * t + e) else Tbl.set k.acc (512 * t + e) v
           badWords := k.badWords.filter fun w => w ≠ 0x7E000 + 512 * t + e
           softWords := k.softWords.filter fun w => w ≠ 0x7E000 + 512 * t + e }
def Core.statGet (k : Core) (t : Nat) : W64 := Tbl.get k.accStat 0 t
def Core.statPut (k : Core) (t : Nat) (v : W64) : Core :=
  { k with accStat := if v = 0 then Tbl.del k.accStat t else Tbl.set k.accStat t v }

/-- One saturation of tile t: SAT set, SatCount up to 0xFFFF (R80). -/
def Core.sat (k : Core) (t : Nat) : Core :=
  let n := (k.statGet t).toNat / 2 ^ 48
  k.statPut t (BitVec.ofNat 64 (min (n + 1) 0xFFFF * 2 ^ 48 + 1))

/-- Add an exact amount to an entry (R79). -/
def Core.accAdd (k : Core) (t e : Nat) (v : Int) : Core :=
  let (r, c) := satSum (k.accGet t e).toInt v
  let k := k.accSet t e (BitVec.ofInt 64 r)
  if c then k.sat t else k

/-- Add a list of amounts to entries 0, 1, … of a tile. -/
def accAddAll (t : Nat) : Nat → List Int → Core → Core
  | _, [], k => k
  | e, v :: l, k => accAddAll t (e + 1) l (k.accAdd t e v)

/-- Clear a tile and its SAT bit; SatCount keeps its value (R80, R171); the words written are sound (R139). -/
def Core.accClear (k : Core) (t : Nat) : Core :=
  let k := { k with acc := k.acc.filter fun e => e.1 / 512 ≠ t
                    badWords := k.badWords.filter fun w => !(0x7E000 + 512 * t ≤ w && w < 0x7E000 + 512 * t + 512)
                    softWords := k.softWords.filter fun w => !(0x7E000 + 512 * t ≤ w && w < 0x7E000 + 512 * t + 512) }
  k.statPut t (BitVec.ofNat 64 ((k.statGet t).toNat / 2 ^ 48 * 2 ^ 48))

/-- Write a status word: SatCount takes the value, SAT is cleared by a one (R80). -/
def Core.statWrite (k : Core) (t : Nat) (v : W64) : Core :=
  let old := (k.statGet t).toNat % 2
  k.statPut t (BitVec.ofNat 64 (v.toNat / 2 ^ 48 * 2 ^ 48 + (if v.toNat % 2 = 1 then 0 else old)))

end Sys2Proof.Machine
end

