-- ==== Sys2Proof/Machine/Operands.lean ====
section
/-!
DEFINITION. The operand forms: walk descriptors and their checks (R152, R176, R177), lines and elements in the banks and in the
accumulator window (R137, R143, R159), footprints (R179), request lines and completion entries (R187, R189).
-/
namespace Sys2Proof.Machine

/-! ## Walks -/

/-- A two-dimensional walk (R152). -/
structure Walk where
  row  : Nat
  col  : Nat
  nin  : Nat
  nout : Nat
  dri  : Int
  dci  : Int
  dro  : Int
  dco  : Int
  fmt  : Nat
deriving DecidableEq, Repr

/-- Read a descriptor (R176). -/
def walkOf (d : Desc) : Walk :=
  let v := d.toNat
  { row := bits v 127 117, col := bits v 116 112, nin := bits v 111 101 + 1, nout := bits v 100 90 + 1,
    dri := signedOf 12 (bits v 89 78), dci := signedOf 6 (bits v 77 72), dro := signedOf 12 (bits v 71 60),
    dco := signedOf 6 (bits v 59 54), fmt := bits v 53 51 }

/-- Build a descriptor. -/
def descOf (row col nin nout : Nat) (dri dci dro dco : Int) (fmt : Nat) : Desc :=
  BitVec.ofNat 128 (row % 2048 * 2 ^ 117 + col % 32 * 2 ^ 112 + (nin - 1) % 2048 * 2 ^ 101 + (nout - 1) % 2048 * 2 ^ 90 +
    (dri % 4096).toNat * 2 ^ 78 + (dci % 64).toNat * 2 ^ 72 + (dro % 4096).toNat * 2 ^ 60 + (dco % 64).toNat * 2 ^ 54 +
    fmt % 8 * 2 ^ 51)

/-- A descriptor register keeps no reserved bits (R14, R176). -/
def descKeep (d : Desc) : Desc := BitVec.ofNat 128 (d.toNat / 2 ^ 51 * 2 ^ 51)

/-- The lines of a walk as row and line-column, inner index fastest (R152). -/
def Walk.lines (w : Walk) : List (Int × Nat) :=
  (List.range w.nout).flatMap fun (i : Nat) => (List.range w.nin).map fun (j : Nat) =>
    ((w.row : Int) + (i : Int) * w.dro + (j : Int) * w.dri, (((w.col : Int) + (i : Int) * w.dco + (j : Int) * w.dci) % 32).toNat)

def Walk.count (w : Walk) : Nat := w.nin * w.nout
/-- Elements of the walk, and elements of a row of it (R172). -/
def Walk.elems (w : Walk) : Nat := w.count * (64 / fmtBytes w.fmt)
def Walk.rowElems (w : Walk) : Nat := w.nin * (64 / fmtBytes w.fmt)

/-- The counts of R176 hold. -/
def Walk.encOk (w : Walk) : Bool := w.nin ≤ 1280 && w.nout ≤ 1280

/-- A row's range: 0 banks, 1 accumulator window, 2 neither (R177). -/
def rowRange (r : Int) : Nat := if 0 ≤ r ∧ r ≤ 1279 then 0 else if 2014 ≤ r ∧ r ≤ 2047 then 1 else 2

/-- Aux0 of a bounds failure found when an operation starts (R588). -/
def auxLine (l : Int × Nat) : Nat :=
  2 ^ 31 + (if 0 ≤ l.1 ∧ l.1 ≤ 2047 then 0 else 2 ^ 30) + (l.1 % 2048).toNat * 2048 + l.2 * 64

/-- The bounds check of a walk (R177), for a user of the window or not, reading or writing (R165): the Aux0 of the line it
names, or none. -/
def Walk.bounds (w : Walk) (window write : Bool) : Option Nat :=
  let ls := w.lines
  match ls with
  | [] => none
  | f :: _ =>
    match ls.find? (fun l => rowRange l.1 = 2) with
    | some l => some (auxLine l)
    | none =>
      match ls.find? (fun l => rowRange l.1 ≠ rowRange f.1) with
      | some l => some (auxLine l)
      | none =>
        if rowRange f.1 = 1 then
          -- the window is read and written in 8-byte entries or whole lines (R159)
          (if window then none else some (auxLine f))
        else if write then (ls.find? fun l => decide (1248 ≤ l.1)).map auxLine else none

/-- The walk lies in the accumulator window. -/
def Walk.inWindow (w : Walk) : Bool := rowRange w.row = 1

/-- The interval of rows from lowest to highest (R179). -/
def Walk.span (w : Walk) : Int × Int :=
  let rs := w.lines.map (·.1)
  (rs.foldl min w.row, rs.foldl max w.row)

/-! ## Lines -/

/-- One 64-byte line of the banks, of a tile, or of the status page (R137, R159). -/
def Core.readLine (k : Core) (r c : Nat) : Bytes :=
  if r < 1280 then k.mem.read (2048 * r + 64 * c) 64
  else if 2016 ≤ r ∧ r < 2048 then
    let a := (r - 2016) * 256 + 8 * c
    (List.range 8).flatMap fun i => leBytes 8 (Tbl.get k.acc 0 (a + i)).toNat
  else if 2014 ≤ r then
    let a := (r - 2014) * 256 + 8 * c
    (List.range 8).flatMap fun i => leBytes 8 (if a + i < 16 then (k.statGet (a + i)).toNat else 0)
  else List.replicate 64 0

/-- Write accumulator entries from a key on, 8 bytes each. -/
def writeAcc : Nat → Nat → Bytes → Core → Core
  | 0, _, _, k => k
  | n + 1, key, b, k =>
    writeAcc n (key + 1) (b.drop 8) (k.accSet (key / 512) (key % 512) (BitVec.ofNat 64 (fieldAt b 0 8)))

def writeStat : Nat → Nat → Bytes → Core → Core
  | 0, _, _, k => k
  | n + 1, i, b, k => writeStat n (i + 1) (b.drop 8) (if i < 16 then k.statWrite i (BitVec.ofNat 64 (fieldAt b 0 8)) else k)

/-- A write of n bytes from an address covers a whole 64-bit word. -/
def coversWord (a n w : Nat) : Bool := (a + 7) / 8 ≤ w && w < (a + n) / 8

/-- Write bytes of the banks, whoever writes them: the check bits of each whole word are renewed (R139), and the write of a line closes its
window in the merge buffer (R158 part 4). -/
def Core.putBytes (k : Core) (a : Nat) (b : Bytes) : Core :=
  let hit (m : MergeLine) : Bool := let l := 2048 * m.row + 64 * m.col; l < a + b.length && a < l + 64
  { k with mem := k.mem.write a b
           badWords := k.badWords.filter fun w => !coversWord a b.length w
           softWords := k.softWords.filter fun w => !coversWord a b.length w
           router := { k.router with merge := k.router.merge.map fun m => if hit m then { m with closed := true } else m } }

/-- Write one line. -/
def Core.writeLine (k : Core) (r c : Nat) (b : Bytes) : Core :=
  let b := slice b 0 64
  if r < 1280 then
    let a := 2048 * r + 64 * c
    k.putBytes a b
  else if 2016 ≤ r ∧ r < 2048 then writeAcc 8 ((r - 2016) * 256 + 8 * c) b k
  else if 2014 ≤ r ∧ r < 2016 then writeStat 8 ((r - 2014) * 256 + 8 * c) b k
  else k

def writeLines : List (Int × Nat) → List Bytes → Core → Core
  | l :: ls, b :: bs, k => writeLines ls bs (k.writeLine l.1.toNat l.2 b)
  | _, _, k => k

def Core.readWalk (k : Core) (w : Walk) : List Bytes := w.lines.map fun l => k.readLine l.1.toNat l.2
def Core.writeWalk (k : Core) (w : Walk) (bs : List Bytes) : Core := writeLines w.lines bs k

/-! ## Elements -/

/-- The raw elements of a walk, in walk order. -/
def Core.readElems (k : Core) (w : Walk) : List Nat :=
  (k.readWalk w).flatMap fun b => (chunks (fmtBytes w.fmt) b).map leNat

/-- The walk's exact values under R663, and how many were replaced. -/
def Core.readVals (k : Core) (w : Walk) : List Dy × Nat :=
  let v := (k.readElems w).map (fmtVal w.fmt)
  (v.map (·.1), (v.filter (·.2)).length)

/-- The walk's values as FP32 (R172). -/
def Core.readF32 (k : Core) (w : Walk) : List W32 := (k.readVals w).1.map f32of

/-- Pack raw elements of n bytes into lines. -/
def packLines (n : Nat) (vs : List Nat) : List Bytes := chunks 64 (vs.flatMap fun v => leBytes n v)

/-- Write raw elements over a walk's lines, leaving the bytes after the last element as they are. -/
def Core.writeElems (k : Core) (w : Walk) (vs : List Nat) : Core :=
  let ls := w.lines.take ((vs.length * fmtBytes w.fmt + 63) / 64)
  let bs := packLines (fmtBytes w.fmt) vs
  let bs := (List.range bs.length).map fun i =>
    let b := nth bs i []
    let l := nth ls i (0, 0)
    b ++ (k.readLine l.1.toNat l.2).drop b.length
  writeLines ls bs k

/-! ## Uncorrectable words (R139) -/

/-- The unit of a word: bank (r + c) mod 32, or 32 + tile (R136, R588). -/
def wordUnit (r c : Nat) : Nat := if r < 1280 then (r + c) % 32 else 32 + (r - 2016) / 2
/-- The first bad word a read of the walk meets: its unit and byte address.  Words are listed by byte address divided by 8. -/
def Core.badIn (k : Core) (w : Walk) : Option (Nat × Nat) :=
  if k.badWords.isEmpty then none else
  (w.lines.filterMap fun l =>
    let a := 2048 * l.1.toNat + 64 * l.2
    (k.badWords.find? fun x => a / 8 ≤ x && x < a / 8 + 8).map fun x => (wordUnit l.1.toNat l.2, 8 * x)).head?
/-- The same for one scalar access of n bytes. -/
def Core.badAt (k : Core) (a n : Nat) : Option (Nat × Nat) :=
  (k.badWords.find? fun x => a / 8 ≤ x && x ≤ (a + n - 1) / 8).map fun x => (wordUnit (a / 2048) (a % 2048 / 64), 8 * x)

/-- The first bad word among the first n entries of a tile. -/
def Core.badTile (k : Core) (t n : Nat) : Option (Nat × Nat) :=
  (k.badWords.find? fun x => 0x7E000 + 512 * t ≤ x && x < 0x7E000 + 512 * t + n).map fun x => (32 + t, 8 * x)

/-! ## Single-bit errors (R139, R159): corrected in what a read returns, counted, not written back -/

/-- Words with a single-bit error among those that n bytes from an address touch. -/
def Core.softAt (k : Core) (a n : Nat) : Nat := (k.softWords.filter fun w => a / 8 ≤ w && w ≤ (a + n - 1) / 8).length
/-- Count the errors that a read of n bytes corrects (counter 7 of R160). -/
def Core.readSoft (k : Core) (a n : Nat) : Core := k.count 15 7 (k.softAt a n)
/-- The same for lines read. -/
def Core.readSoftLines (k : Core) (ls : List (Int × Nat)) : Core :=
  if k.softWords.isEmpty then k else k.count 15 7 ((ls.map fun l => k.softAt (2048 * l.1.toNat + 64 * l.2) 64).sum)
/-- The lines that n bytes from an address touch. -/
def linesAt (a n : Nat) : List (Int × Nat) :=
  (List.range ((a + n - 1) / 64 + 1 - a / 64)).map fun i => let l := a / 64 + i; ((l / 32 : Nat), l % 32)
/-- The first uncorrectable word that a read of lines meets, as badIn tells it for a walk. -/
def Core.badLines (k : Core) (ls : List (Int × Nat)) : Option (Nat × Nat) :=
  if k.badWords.isEmpty then none else ls.findSome? fun l => k.badAt (2048 * l.1.toNat + 64 * l.2) 64

/-! ## Footprints (R179) -/

/-- A footprint: rows from, rows to, written. -/
abbrev Foot := Int × Int × Bool
/-- Rows of a tile count as a whole. -/
def footRows (lo hi : Int) (w : Bool) : Foot :=
  if 2016 ≤ lo then (lo - lo % 2, hi + (1 - hi % 2), w) else (lo, hi, w)
def footWalk (d : Desc) (w : Bool) : Foot := let s := (walkOf d).span; footRows s.1 s.2 w
def footTile (t : Nat) (w : Bool) : Foot := (2016 + 2 * t, 2017 + 2 * t, w)
def footAddr (a n : Nat) (w : Bool) : Foot := footRows (a / 2048 : Nat) ((a + n - 1) / 2048 : Nat) w
/-- A tile, or the status page, whose words belong to the tiles (R80, R150). -/
def Foot.tile (a : Foot) : Bool := 2016 ≤ a.1
def Foot.status (a : Foot) : Bool := a.1 ≤ 2015 && 2014 ≤ a.2.1
def footMeet (a b : Foot) : Bool :=
  ((a.1 ≤ b.2.1 && b.1 ≤ a.2.1) || (Foot.tile a && Foot.status b) || (Foot.status a && Foot.tile b)) && (a.2.2 || b.2.2)
def feetMeet (a b : List Foot) : Bool := a.any fun x => b.any (footMeet x)

/-- Rows from an address on that an area of n bytes takes, within the banks. -/
def footArea (a n : Nat) (w : Bool) : Foot := ((a / 2048 : Nat), (min 1279 ((a + n - 1) / 2048) : Nat), w)

/-- The length table that an AE operation reads. -/
def footTable (t : W32) : Foot := footArea t.toNat 32768 false

/-- The footprints of a dispatch operation.  DESIGN CHOICE: the attention engine's areas, whose lines it finds as it goes, count whole: a
length table of 32 KiB, the 1,025 rows from a key-value area's base line, and a statistics walk of 8,192 records. -/
def DOp.feet : DOp → List Foot
  | .tmCopy dd ds => [footWalk dd true, footWalk ds false]
  | .tmFill dd _ _ => [footWalk dd true]
  | .sha ds a _ => [footWalk ds false, footAddr a.toNat 64 true]
  | .veArith dd da db f _ =>
    [footWalk dd true, footWalk da false] ++ (if f = 6 then [] else [footWalk db false])
  | .veNorm dd da db f _ => [footWalk dd true, footWalk da false] ++ (if f < 2 then [footWalk db false] else [])
  | .veAct dd da db f => [footWalk dd true, footWalk da false] ++ (if f < 2 then [] else [footWalk db false])
  | .veFunc dd da _ => [footWalk dd true, footWalk da false]
  | .veCvt dd da => [footWalk dd true, footWalk da false]
  | .accClr t => [footTile t true]
  | .accOut t dd _ st ds => [footTile t false, footWalk dd true] ++ (if st then [footWalk ds true] else [])
  | .accAdd t ds => [footTile t true, footWalk ds false]
  | .aeQk dd da db tb => [footWalk dd true, footWalk da false, footArea ((walkOf db).row * 2048) (1025 * 2048) false, footTable tb]
  | .aeSm dd da st => [footWalk dd true, footWalk da false, footArea st.toNat (64 + 16 * 8192) true]
  | .aePv dd da db => [footWalk dd true, footWalk da false, footArea ((walkOf db).row * 2048) (1025 * 2048) false]
  | .spSample dd ds a => [footWalk dd true, footWalk ds false, footAddr a.toNat 64 false]
  | .cimEval _ _ d t _ _ _ => [footWalk d false, footTile t true]
  | .qPush _ a => [footAddr a.toNat 64 false]
  | .qPop _ dd => [footWalk dd true]
  | .rmread _ _ _ _ _ => []
  | .nred _ ds _ _ _ => [footWalk ds false]

/-! ## Request lines and completion entries -/

/-- A request line (R187). -/
structure Req where
  localW : Desc
  remote : Desc
  addr   : Nat
  engine : Nat
  home   : Nat
  linesN : Nat
  tag    : W32
  sigEn  : Bool
  sync   : Nat
  op     : Nat
  cls    : Nat
  toWalk : Bool
  rsv    : Bool
deriving DecidableEq, Repr

/-- Read a request line; rsv tells that a bit R187 reserves for its class is set. -/
def reqOf (b : Bytes) : Req :=
  let v := fieldAt b 0 64
  let cls := bits v 119 116
  { localW := BitVec.ofNat 128 (bits v 511 384), remote := BitVec.ofNat 128 (bits v 383 256), addr := bits v 319 256,
    engine := bits v 255 241, home := homeKey (bits v 239 224), linesN := bits v 223 192,
    tag := BitVec.ofNat 32 (bits v 191 160), sigEn := bitAt v 159, sync := bits v 158 144, op := bits v 123 120, cls := cls,
    toWalk := bitAt v 115,
    rsv := bits v 143 124 ≠ 0 || bits v 114 0 ≠ 0 || bitAt v 240 || bits v 434 384 ≠ 0 ||
      (cls = 1 && (bits v 383 320 ≠ 0 || bits v 239 224 ≠ 0)) || (cls ≠ 2 && bits v 255 241 ≠ 0) ||
      (cls ≠ 1 && (bits v 223 192 ≠ 0 || bits v 306 256 ≠ 0)) }

/-- The lines a request transfers (R187). -/
def Req.lines (r : Req) : Nat := if r.cls = 1 then r.linesN else (walkOf r.remote).count

/-- A completion entry (R189). -/
def complEntry (time : W64) (tag : W32) (lines status cls : Nat) : Bytes :=
  leBytes 64 (time.toNat * 2 ^ 192 + tag.toNat * 2 ^ 160 + lines % 2 ^ 32 * 2 ^ 128 + status % 256 * 2 ^ 120 + cls % 16 * 2 ^ 116)

end Sys2Proof.Machine
end

