-- ==== Sys2Proof/Machine/Ve.lean ====
section
/-!
DEFINITION. What the vector engine, the tensor mover and the SHA engine do: the checks at an operation's start and its effects, as
a list of writes in the order in which they are made (R131, R132, R153 to R155, R172, R206, R664, R666).
-/
namespace Sys2Proof.Machine

/-- A failed check: cause of R205, Aux0 of R588, and for cause 15 the failing unit. -/
structure Fail where
  cause : Nat
  aux0  : Nat
  unit  : Nat
deriving DecidableEq, Repr

/-- The effects of an operation in order; a stopped operation keeps a first part of them (R206 step 2). -/
abbrev Effects := List (Core → Core)

def Effects.run (l : Effects) (k : Core) : Core := l.foldl (fun k f => f k) k

/-! ## Checks -/

/-- Cause 1 with the opcode as Aux0. -/
def encFail (opcode : Nat) (ok : Bool) : Option Fail := if ok then none else some ⟨1, opcode, 0⟩
/-- Cause 2 from a walk's bounds. -/
def bndFail (w : Walk) (window write : Bool) : Option Fail := (w.bounds window write).map fun a => ⟨2, a, 0⟩
/-- An address checked at start: 64-byte aligned in the bank range, and outside the program window when written. -/
def addrFail (a : W32) (write : Bool) : Option Fail :=
  let n := a.toNat
  if n % 64 = 0 ∧ n / 2048 ≤ 1279 ∧ ¬(write ∧ 1248 ≤ n / 2048) then none
  else some ⟨2, auxLine ((n / 2048 : Nat), n % 2048 / 64), 0⟩
/-- Cause 15 when a read meets an uncorrectable word. -/
def badFail (k : Core) (w : Walk) : Option Fail := (k.badIn w).map fun x => ⟨15, x.2, x.1⟩
/-- The same for lines that are no walk. -/
def lineFail (k : Core) (ls : List (Int × Nat)) : Option Fail := (k.badLines ls).map fun x => ⟨15, x.2, x.1⟩
/-- The same for the first n entries of a tile, which ACC.OUT reads and an addition reads before it adds. -/
def tileFail (k : Core) (t n : Nat) : Option Fail := (k.badTile t n).map fun x => ⟨15, x.2, x.1⟩

/-- The first failing check of a list. -/
def firstFail : List (Option Fail) → Option Fail
  | [] => none
  | some f :: _ => some f
  | none :: t => firstFail t

/-- A VE or SP walk may lie in the window only with 8-byte elements (R159). -/
def veWin (w : Walk) : Bool := w.fmt = 7

/-! ## VE.ARITH -/

/-- Element e of an operand row-multiplied, or elementwise (R172). -/
def arithVal (f : Nat) (s : Dy) (a b d : Dy) : Dy :=
  match f with
  | 0 => a.add b
  | 1 => a.sub b
  | 2 => a.mul b
  | 3 => (a.mul b).add d
  | 4 => a.max b
  | 5 => a.min b
  | 6 => a.mul s
  | _ => a.mul b

/-- The FP32 value of a raw element, keeping the sign of a floating-point zero. -/
def elemF32 (fmt v : Nat) : W32 :=
  let (d, r) := fmtVal fmt v
  if d.m = 0 ∧ !r ∧ 1 ≤ fmt ∧ fmt ≤ 5 ∧ bitAt v (8 * fmtBytes fmt - 1) then 0x80000000 else f32of d

def veArithCheck (k : Core) (dd da db : Desc) (f : Nat) : Option Fail :=
  let wd := walkOf dd; let wa := walkOf da; let wb := walkOf db
  let useB := f ≠ 6
  firstFail [
    encFail 0x10 (f ≤ 8 && wd.encOk && wa.encOk && (!useB || wb.encOk)),
    encFail 0x10 (wd.elems = wa.elems && (f ≤ 5 || f = 7 → wb.elems = wa.elems) && (f = 8 → wb.elems = wa.nout) &&
      (f = 7 → wd.fmt = 7 ∧ wa.fmt = 7 ∧ wb.fmt = 7)),
    bndFail wd (veWin wd) true, bndFail wa (veWin wa) false, if useB then bndFail wb (veWin wb) false else none,
    badFail k wa, if useB then badFail k wb else none, if f = 3 then badFail k wd else none]

/-- Write a list of rounded elements line by line and count the clamped ones (VE counter 2, R617). -/
def veWrite (w : Walk) (vs : List (Nat × Bool)) : Effects :=
  let per := 64 / fmtBytes w.fmt
  let ls := w.lines
  ((chunks per vs).zip ls).map fun x => fun k =>
    let b := x.1.flatMap fun v => leBytes (fmtBytes w.fmt) v.1
    (k.writeLine x.2.1.toNat x.2.2 (b ++ (k.readLine x.2.1.toNat x.2.2).drop b.length)).count 10 2
      (x.1.filter (·.2)).length

/-- The tiles whose entries a full-width addition wrote at the end of their range: SAT and SatCount take each (R79, R80). -/
def satTiles (w : Walk) (vs : List (Nat × Bool)) : List Nat :=
  let tiles := w.lines.flatMap fun l => List.replicate 8 (if 2016 ≤ l.1 ∧ l.1 ≤ 2047 then some ((l.1.toNat - 2016) / 2) else none)
  ((tiles.zip vs).filter fun x => x.2.2).filterMap (·.1)

/-- A line of a full-width addition into a tile is written, and its saturations are flagged. -/
def satLines (w : Walk) (vs : List (Nat × Bool)) : Effects :=
  ((veWrite w vs).zip (chunks 8 vs)).zipIdx.map fun x => fun k =>
    (satTiles { w with row := ((w.lines[x.2]?).getD (0, 0)).1.toNat, nin := 1, nout := 1 } x.1.2).foldl Core.sat (x.1.1 k)

def veArithEff (k : Core) (dd da db : Desc) (f : Nat) (s : W32) : Effects :=
  let wd := walkOf dd; let wa := walkOf da; let wb := walkOf db
  if f = 7 then
    let a := k.readElems wa; let b := k.readElems wb
    let r := List.zipWith (fun x y => satSum (signedOf 64 x) (signedOf 64 y)) a b
    (fun k => k.count 10 3 r.length) :: satLines wd (r.map fun x => ((x.1 % 2 ^ 64).toNat, x.2))
  else
    let va := k.readVals wa; let vb := k.readVals wb; let vd := k.readVals wd
    let (sv, sr) := Flt.fp32.val s.toNat
    let f32 (x : Dy) : Dy := f32val (f32of x)
    let n := va.1.length
    let r := (List.range n).map fun i =>
      let b := if f = 8 then nth vb.1 (i / wa.rowElems) Dy.zero else nth vb.1 i Dy.zero
      fmtOf wd.fmt (arithVal f sv (f32 (nth va.1 i Dy.zero)) (f32 b) (f32 (nth vd.1 i Dy.zero)))
    let repl := va.2 + (if f = 6 then (if sr then 1 else 0) else vb.2) + (if f = 3 then vd.2 else 0)
    (fun k => k.count 10 2 repl) :: veWrite wd r

/-! ## VE.NORM -/

def veNormCheck (k : Core) (dd da db : Desc) (f : Nat) : Option Fail :=
  let wd := walkOf dd; let wa := walkOf da; let wb := walkOf db
  let useB := f < 2
  firstFail [
    encFail 0x11 (f ≤ 3 && wd.encOk && wa.encOk && (!useB || wb.encOk)),
    encFail 0x11 ((f < 2 → wb.elems = wa.rowElems ∧ wd.elems = wa.elems) && (f = 2 → wd.elems = wa.nout) &&
      (f = 3 → wd.elems = 2 * wa.nout)),
    bndFail wd (veWin wd) true, bndFail wa (veWin wa) false, if useB then bndFail wb (veWin wb) false else none,
    badFail k wa, if useB then badFail k wb else none]

/-- numerator ÷ √q in FP32; for q ≤ 0 the end of the format's range with the numerator's sign, or +0 (R172). -/
def normQuot (fmt : Nat) (num q : W32) : Nat × Bool :=
  let nv := f32val num
  if (f32val q).m ≤ 0 then
    if nv.m = 0 then (0, false) else fmtOf fmt ⟨if nv.m < 0 then -1 else 1, 300⟩
  else fmtOf fmt (f32val (f32div num (f32sqrt q)))

/-- One row's results. -/
def normRow (f fmt : Nat) (eps : W32) (gain row : List W32) : List (Nat × Bool) :=
  let n := f32of (.ofInt row.length)
  let sq (l : List W32) := rowSum (l.map fun x => f32mul x x)
  match f with
  | 0 =>
    let q := f32add (f32div (sq row) n) eps
    List.zipWith (fun x g => normQuot fmt (f32mul x g) q) row gain
  | 1 =>
    let mu := f32div (rowSum row) n
    let dev := row.map fun x => f32sub x mu
    let q := f32add (f32div (sq dev) n) eps
    List.zipWith (fun x g => normQuot fmt (f32mul x g) q) dev gain
  | 2 => [fmtOf fmt (f32val (sq row))]
  | _ => [fmtOf fmt (f32val (rowSum row)), fmtOf fmt (f32val (sq row))]

def veNormEff (k : Core) (dd da db : Desc) (f : Nat) (eps : W32) : Effects :=
  let wd := walkOf dd; let wa := walkOf da; let wb := walkOf db
  let va := k.readVals wa; let vb := k.readVals wb
  let (ev, er) := Flt.fp32.val eps.toNat
  let rows := chunks wa.rowElems (va.1.map f32of)
  let repl := va.2 + (if f < 2 then vb.2 + (if er then 1 else 0) else 0)
  (fun k => (k.count 10 2 repl).count 10 6 1) :: veWrite wd (rows.flatMap (normRow f wd.fmt (f32of ev) (vb.1.map f32of)))

/-! ## VE.ACT, VE.FUNC, VE.CVT -/

def veActCheck (k : Core) (dd da db : Desc) (f : Nat) : Option Fail :=
  let wd := walkOf dd; let wa := walkOf da; let wb := walkOf db
  let useB := 2 ≤ f
  firstFail [
    encFail 0x12 (f ≤ 3 && wd.encOk && wa.encOk && (!useB || wb.encOk)),
    encFail 0x12 (wd.elems = wa.elems && (!useB || wb.elems = wa.elems)),
    bndFail wd (veWin wd) true, bndFail wa (veWin wa) false, if useB then bndFail wb (veWin wb) false else none,
    badFail k wa, if useB then badFail k wb else none]

def silu (x : W32) : W32 := f32div x (f32add 0x3F800000 (nearExp 4 (f32of (f32val x).neg)))
def gelu (x : W32) : W32 :=
  f32mul (f32mul 0x3F000000 x) (f32add 0x3F800000 (nearErf (f32div x 0x3FB504F3)))

def veActEff (k : Core) (dd da db : Desc) (f : Nat) : Effects :=
  let wd := walkOf dd; let wa := walkOf da
  let va := k.readVals wa; let vb := k.readVals (walkOf db)
  let act (x : W32) : W32 := if f % 2 = 0 then silu x else gelu x
  let r := (List.range va.1.length).map fun i =>
    let y := act (f32of (nth va.1 i Dy.zero))
    fmtOf wd.fmt (f32val (if 2 ≤ f then f32mul y (f32of (nth vb.1 i Dy.zero)) else y))
  (fun k => (k.count 10 2 (va.2 + (if 2 ≤ f then vb.2 else 0))).count 10 4 r.length) :: veWrite wd r

/-- A function of VE.FUNC, as an exact value to round to dd's format (R172).  DESIGN CHOICE: the reciprocal square root of negative zero is the
largest finite positive value, as that of zero. -/
def veFunction (f : Nat) (x : W32) : Dy :=
  let v := f32val x
  let huge (neg : Bool) : Dy := ⟨if neg then -1 else 1, 300⟩
  match f with
  | 0 => f32val (nearExp2 2 x)
  | 1 => if v.m ≤ 0 then huge true else f32val (nearUlp 3 x v.log2)
  | 2 => if v.m = 0 then huge (x.getLsbD 31) else f32val (nearUlp 0 x v.recip)
  | _ =>
    if v.m = 0 then huge false else if v.m < 0 then huge true
    else f32val (nearUlp 1 x v.rsqrt)

def veFuncCheck (k : Core) (dd da : Desc) (f : Nat) : Option Fail :=
  let wd := walkOf dd; let wa := walkOf da
  firstFail [encFail 0x13 (f ≤ 3 && wd.encOk && wa.encOk), encFail 0x13 (wd.elems = wa.elems),
    bndFail wd (veWin wd) true, bndFail wa (veWin wa) false, badFail k wa]

def veFuncEff (k : Core) (dd da : Desc) (f : Nat) : Effects :=
  let wd := walkOf dd; let wa := walkOf da
  let raw := k.readElems wa
  let r := raw.map fun v => fmtOf wd.fmt (veFunction f (elemF32 wa.fmt v))
  (fun k => (k.count 10 2 (k.readVals wa).2).count 10 4 r.length) :: veWrite wd r

def veCvtCheck (k : Core) (dd da : Desc) : Option Fail :=
  let wd := walkOf dd; let wa := walkOf da
  firstFail [encFail 0x14 (wd.encOk && wa.encOk), encFail 0x14 (wd.elems = wa.elems),
    bndFail wd (veWin wd) true, bndFail wa (veWin wa) false, badFail k wa]

def veCvtEff (k : Core) (dd da : Desc) : Effects :=
  let wd := walkOf dd; let wa := walkOf da
  let va := k.readVals wa
  (fun k => (k.count 10 2 va.2).count 10 5 va.1.length) ::
    veWrite wd (va.1.map fun x => fmtOf wd.fmt (f32val (f32of x)))

/-! ## ACC operations -/

/-- DESIGN CHOICE: a dd of INT32 (Fmt 6), which R82's table of ACC.OUT does not list, is rounded and held as the other integers are. -/
def accOutCheck (k : Core) (t : Nat) (dd : Desc) (st : Bool) (ds : Desc) : Option Fail :=
  let wd := walkOf dd; let ws := walkOf ds
  firstFail [encFail 0x19 (wd.encOk && (!st || ws.encOk)), encFail 0x19 (wd.elems ≤ 512),
    encFail 0x19 (!st || (ws.fmt = 5 && ws.elems = 2 * wd.nout)),
    bndFail wd (veWin wd) true, if st then bndFail ws (veWin ws) true else none,
    tileFail k t wd.elems]

/-- Row maximum and sum of rounded outputs (R132). -/
def rowStat (row : List W32) : List W32 :=
  match row with
  | [] => [0, 0]
  | x :: t => [t.foldl (fun m y => if f32lt m y then y else m) x, rowSum row]

/-- Results of a tile's entries.  An infinite multiplier gives the largest finite value with the product's sign, and zero for a zero entry
(R663). -/
def accOutEff (k : Core) (t : Nat) (dd : Desc) (mult : W32) (st : Bool) (ds : Desc) : Effects :=
  let wd := walkOf dd
  let (mv, mr) := Flt.fp32.val mult.toNat
  let r := (List.range wd.elems).map fun e =>
    let a := (k.accGet t e).toInt
    if wd.fmt = 7 then ((a % 2 ^ 64).toNat, false)
    else fmtOf wd.fmt ((Dy.mk a (-24)).mul (if mr then ⟨mv.m, 1000⟩ else mv))
  let repl := if mr ∧ wd.fmt ≠ 7 then 1 else 0
  let stats : List (Nat × Bool) := (chunks wd.rowElems (r.map fun x => f32of (fmtVal wd.fmt x.1).1)).flatMap fun row =>
    (rowStat row).map fun x => (x.toNat, false)
  (fun k => (k.count 10 2 repl).count 10 1 r.length) :: (veWrite wd r ++ (if st then veWrite (walkOf ds) stats else []))

def accAddCheck (k : Core) (t : Nat) (ds : Desc) : Option Fail :=
  let w := walkOf ds
  firstFail [encFail 0x1A w.encOk, encFail 0x1A (w.fmt = 7 && w.elems = 512), bndFail w true false, badFail k w,
    tileFail k t 512]

def accAddEff (k : Core) (t : Nat) (ds : Desc) : Effects :=
  let vs := k.readElems (walkOf ds)
  (fun k => k.count 10 3 vs.length) ::
    (List.range vs.length).map fun e => fun k => k.accAdd t e (signedOf 64 (nth vs e 0))

/-! ## TM.COPY, TM.FILL, SHA.DIGEST -/

def tmCopyCheck (k : Core) (dd ds : Desc) : Option Fail :=
  let wd := walkOf dd; let ws := walkOf ds
  firstFail [encFail 0x01 (wd.encOk && ws.encOk), encFail 0x01 (wd.count = ws.count),
    bndFail wd true true, bndFail ws true false, badFail k ws]

/-- The window in which a copy writes its i-th destination line: the one after its group, or, for a line that is a source line of that
window's group or a later one, the window after the last such group (R155). -/
def copyWindow (src : List (Int × Nat)) (i : Nat) (l : Int × Nat) : Nat :=
  let h := src.zipIdx.foldl (fun h x => if x.1 = l then x.2 / 32 + 1 else h) 0
  max (i / 32 + 1) h

/-- The writes of a copy in the order in which its windows make them. -/
def copyOrder (wd ws : Walk) : List (Nat × (Int × Nat)) :=
  let dst := wd.lines.zipIdx.map fun x => (x.2, x.1)
  let a := wd.span; let b := ws.span
  if a.2 < b.1 ∨ b.2 < a.1 then dst
  else
    let at_ := dst.map fun x => (copyWindow ws.lines x.1 x.2, x)
    (List.range (wd.count / 32 + 3)).flatMap fun w => (at_.filter fun x => x.1 = w).map (·.2)

/-- Every source line is read before any destination line is written; later visits win; the writes are made window by window (R155,
R206). -/
def tmCopyEff (k : Core) (dd ds : Desc) : Effects :=
  let wd := walkOf dd; let ws := walkOf ds
  let bs := k.readWalk ws
  (copyOrder wd ws).map (fun x => fun k => k.writeLine x.2.1.toNat x.2.2 (nth bs x.1 [])) ++
    [fun k => ((k.count 12 1 ws.count).count 12 2 wd.count).count 12 4 ((ws.count + 31) / 32 + 1)]

def tmFillCheck (dd : Desc) : Option Fail :=
  let wd := walkOf dd
  firstFail [encFail 0x02 wd.encOk, bndFail wd true true]

/-- A line of the repeated pattern of 1, 2, 4 or 8 bytes (R153). -/
def fillLine (pat : W64) (size : Nat) : Bytes := (List.range 64).map fun i => nth (leBytes 8 pat.toNat) (i % 2 ^ size) 0

def tmFillEff (dd : Desc) (pat : W64) (size : Nat) : Effects :=
  let wd := walkOf dd
  wd.lines.map (fun l => fun k => k.writeLine l.1.toNat l.2 (fillLine pat size)) ++ [fun k => k.count 12 3 wd.count]

/-- The checks of SHA.DIGEST (R664).  DESIGN CHOICE: FinalBytes is a field of an operation with F = 1, so that its value fails the encoding check
with F = 1 alone. -/
def shaCheck (k : Core) (ds : Desc) (a : W32) (fin : Bool) : Option Fail :=
  let w := walkOf ds
  let st := k.mem.read a.toNat 64
  firstFail [encFail 0x03 w.encOk, addrFail a true, encFail 0x03 (!fin || fieldAt st 40 1 ≤ 64), bndFail w true false,
    badFail k w, lineFail k (linesAt a.toNat 64)]

/-- SHA.DIGEST (R664): the state line is written only when the operation completes. -/
def shaEff (k : Core) (ds : Desc) (a : W32) (fin : Bool) : Effects :=
  let w := walkOf ds
  let st := k.mem.read a.toNat 64
  let cnt := fieldAt st 32 8
  let h := if cnt = 0 then shaInit else beWords 8 st
  let data := (k.readWalk w).flatten
  let fb := fieldAt st 40 1
  let fb := if fb = 0 then 64 else fb
  if fin then
    let msg := data.take (data.length - 64 + fb)
    let total := cnt + msg.length
    let p := msg ++ shaPad total
    let d := shaBytes (shaBlocks (p.length / 64) h p)
    [fun k => (((k.writeLine (a.toNat / 2048) (a.toNat % 2048 / 64) (d ++ leBytes 8 0 ++ leBytes 1 (fieldAt st 40 1) ++
      List.replicate 23 0)).count 14 0 (p.length / 64)).count 14 1 1)]
  else
    [fun k => ((k.writeLine (a.toNat / 2048) (a.toNat % 2048 / 64)
      (shaBytes (shaBlocks (data.length / 64) h data) ++ leBytes 8 ((cnt + data.length) % 2 ^ 64) ++
        leBytes 1 (fieldAt st 40 1) ++ List.replicate 23 0)).count 14 0 (data.length / 64))]

end Sys2Proof.Machine
end

