-- ==== Sys2Proof/Machine/Arrays.lean ====
section
/-!
DEFINITION. Evaluations of the weight arrays: inputs and nibbles, the density governor, conversion, group arithmetic, block scales,
and the correction unit (R36 to R67, R71, R74, R75, R88 to R97, R100, R143).
-/
namespace Sys2Proof.Machine

/-! ## Formats and levels -/

/-- The gain's logarithm by format: 1 W4, 2 W3, 3 W2, 4 Wt, 5 W8 (R38). -/
def gainLog (fmt : Nat) : Nat := match fmt with | 2 => 1 | 3 => 2 | 4 => 2 | _ => 0
/-- The valid stored levels of a format (R38). -/
def validLevels (fmt : Nat) : List Nat :=
  match fmt with
  | 2 => [0, 2, 4, 6, 8, 10, 12, 14]
  | 3 => [0, 4, 8, 12]
  | 4 => [4, 8, 12]
  | _ => List.range 16
/-- The spacing of a format's levels, in 1/32 level. -/
def spacing32 (fmt : Nat) : Nat := 32 * 2 ^ gainLog fmt
/-- The nearest valid level to a value in 1/32 level; on a tie the level nearer to 8 (R108). -/
def snapLevel (fmt : Nat) (l32 : Int) : Nat :=
  let d (v : Nat) : Nat := ((32 * v : Int) - l32).natAbs
  let toward (v : Nat) : Nat := ((8 : Int) - v).natAbs
  (validLevels fmt).foldl (fun b v => if d v < d b ∨ (d v = d b ∧ toward v < toward b) then v else b) ((validLevels fmt).headD 8)

/-- The physical column that stands for a logical column (R40, R41). -/
def Arr.phys (a : Arr) (j : Nat) : Nat := Tbl.get a.colMap j j
/-- The level of the cell of a row and a logical column (R36). -/
def Arr.level (a : Arr) (i j : Nat) : Nat := Tbl.get a.levels 8 (528 * i + a.phys j)
/-- A conversion: the sensed quantity less the pedestal, in 1/65,536 of its unit's measure, over q, to the nearest code, ties to even;
outside the 10-bit range the nearer end, with OVR (R48). -/
def toCode (sensed : Int) (q : Nat) : Int × Bool :=
  if sensed < -512 * q then (-512, true) else if 511 * q < sensed then (511, true) else (rneInt sensed q, false)
/-- Reading one cell of a level in read mode: a code in 1/32 level, and OVR; the read's error is free (R48, R49, R87). -/
def readLevel (err : Int) (level : Nat) : Int × Bool := toCode (65536 * (level : Int) + err) 2048
/-- The error of the read of a cell of an evaluation, numbered from a base; a quiet one has none. -/
def readNoise (quiet : Bool) (base i j : Nat) : Int := if quiet then 0 else Config.readError (base + 2 ^ 19 + 512 * i + j)
/-- A cell read in read mode. -/
def Arr.readCell (a : Arr) (quiet : Bool) (base i j : Nat) : Int × Bool := readLevel (readNoise quiet base i j) (a.level i j)
/-- The snapped level of a cell. -/
def Arr.snap (a : Arr) (quiet : Bool) (base i j : Nat) : Nat := snapLevel a.format (a.readCell quiet base i j).1
/-- Conversions that return OVR while some rows are read (R73 counter 6). -/
def Arr.overReads (a : Arr) (quiet : Bool) (base : Nat) (rows : List Nat) : Nat :=
  (rows.map fun i => ((List.range 512).filter fun j => (a.readCell quiet base i j).2).length).sum
/-- The live capacity of a 32-column block; a tile that declares none has 32 (R91). -/
def Arr.blockCap (a : Arr) (b : Nat) : Nat := if a.liveCap.all (· = 0) then 32 else nth a.liveCap b 0

/-- A block scale's mantissa and exponent (R84). -/
def Arr.scale (a : Arr) (grp blk : Nat) : Nat × Int :=
  let v := (Tbl.get a.scales 0 (16 * grp + blk)).toNat
  (v % 256, signedOf 8 (v / 256))
/-- A group result of v/2^lg times its scale, in units of 2^-24 (R63, R85). -/
def Arr.scaled (a : Arr) (v : Int) (lg grp blk : Nat) : Int :=
  let (m, e) := a.scale grp blk
  v * m * 2 ^ (e + 24 - lg).toNat

/-! ## Inputs -/

/-- The input elements of an evaluation: A8, A4 signed, A4 unsigned (R46, R143). -/
def evalInput (mode : Nat) (b : Bytes) : List Int :=
  if mode = 0 then b.map fun x => signedOf 8 x.toNat
  else b.flatMap fun x =>
    let lo := x.toNat % 16; let hi := x.toNat / 16
    if mode = 1 then [signedOf 4 lo, signedOf 4 hi] else [(lo : Int), (hi : Int)]

/-- The nibble phases of an input: nibbles, whether signed, weight (R47). -/
def nibbles (mode : Nat) (x : List Int) : List (List Int × Bool × Int) :=
  match mode with
  | 0 => [(x.map fun v => v / 16, true, 16), (x.map fun v => v % 16, false, 1)]
  | 1 => [(x, true, 1)]
  | _ => [(x, false, 1)]

/-! ## The density governor (R50 to R55, R64, R66) -/

/-- One phase: its group, the driven lines with their nibbles, whether signed, its weight, whether the sensed lines keep no
offset, and whether it is a narrow group. -/
structure Phase16 where
  grp    : Nat
  drive  : List (Nat × Int)
  signed : Bool
  wt     : Int
  low    : Bool
  narrow : Bool
deriving DecidableEq, Repr

def magSum (l : List (Nat × Int)) : Nat := (l.map fun x => x.2.natAbs).sum

/-- The governor's counts for the AC counters: split by threshold, split by hint, skipped (R73). -/
structure GovCount where
  byT    : Nat
  byHint : Nat
  skips  : Nat
deriving DecidableEq, Repr

def GovCount.add (a b : GovCount) : GovCount := ⟨a.byT + b.byT, a.byHint + b.byHint, a.skips + b.skips⟩

/-- The phases of one nibble of one group, and what the governor counted.  DESIGN CHOICE (log 15): a signed group that the hint splits
counts in counter 3 alone, whether its M exceeds T as well or is 0. -/
def govern (T narrowLen : Nat) (hint : Bool) (p : Phase16) : List Phase16 × GovCount :=
  let m := magSum p.drive
  let split : List Phase16 := (chunks narrowLen p.drive).map fun d => { p with drive := d, narrow := true }
  let live := split.filter fun q => magSum q.drive ≠ 0
  if p.signed && hint then (live, ⟨0, 1, split.length - live.length⟩)
  else if m = 0 then ([], ⟨0, 0, 1⟩)
  else if p.signed && T < m then (live, ⟨1, 0, split.length - live.length⟩)
  else ([p], ⟨0, 0, 0⟩)

/-- The ungoverned phases of an evaluation in order (R59, R64, R66): w8 tells the format, x the input by driven line.  DESIGN CHOICE: in a
W8 group with two nibbles each column pass runs its high nibble, then its low one, before the next pass (R66 orders the passes alone). -/
def allPhases (trans w8 : Bool) (mode : Nat) (x : List Int) : List Phase16 :=
  if trans then
    (List.range 16).flatMap fun b =>
      if w8 then
        [false, true].flatMap fun odd => (nibbles mode x).map fun n =>
          { grp := b, drive := (List.range 16).map fun i => (32 * b + 2 * i + (if odd then 1 else 0), nth n.1 (16 * b + i) 0),
            signed := n.2.1, wt := if odd then n.2.2 else 16 * n.2.2, low := odd, narrow := false }
      else
        (nibbles mode x).map fun n =>
          { grp := b, drive := (List.range 32).map fun i => (32 * b + i, nth n.1 (32 * b + i) 0),
            signed := n.2.1, wt := n.2.2, low := false, narrow := false }
  else
    (List.range 8).flatMap fun g => (nibbles mode x).map fun n =>
      { grp := g, drive := (List.range 64).map fun i => (64 * g + i, nth n.1 (64 * g + i) 0),
        signed := n.2.1, wt := n.2.2, low := false, narrow := false }

/-- The narrow-group length: 16 rows, 8 logical columns, or 4 W8 weight columns in one pass. -/
def narrowLen (trans w8 : Bool) : Nat := if trans then (if w8 then 4 else 8) else 16

/-! ## Conversion and phase values -/

/-- One conversion of a phase: the residual in level·steps with its free analog error, over the unit (R48, R49). -/
def convert (quiet : Bool) (e : Nat) (resid : Int) (q : Nat) : Int × Bool :=
  toCode (65536 * resid + if quiet then 0 else Config.convError e) (65536 * q)

/-- The phase value of one sensed line, and whether it was repaired after OVR (R49, R61, R95). -/
def phaseValue (a : Arr) (quiet trans w8 : Bool) (base k line : Nat) (p : Phase16) : Int × Bool :=
  let lev (snap : Bool) (i : Nat) : Nat :=
    let (r, c) := if trans then (line, i) else (i, line)
    if snap then a.snap quiet base r c else a.level r c
  let low := if trans then p.low else w8 && line % 2 = 1
  let o : Int := if low then 0 else 8
  let sn : Int := (p.drive.map (·.2)).sum
  let ped := 8 * sn
  let q := if p.signed then 4 else 16
  let s : Int := (p.drive.map fun x => (lev false x.1 : Int) * x.2).sum
  let (c, ovr) := convert quiet (base + 528 * k + line) (s - ped) q
  if ovr then ((p.drive.map fun x => ((lev true x.1 : Int) - o) * x.2).sum, true)
  else (ped + q * c - o * sn, false)

/-! ## The correction unit -/

/-- An outlier entry (R88): valid, array position, row, column, residual. -/
structure Outlier where
  valid : Bool
  pos   : Nat
  row   : Nat
  col   : Nat
  resid : Int
deriving DecidableEq, Repr

def outlierOf (w : W32) : Outlier :=
  let v := w.toNat
  { valid := bitAt v 31, pos := bits v 30 29, row := bits v 28 20, col := bits v 19 11, resid := signedOf 8 (v % 256) }

/-- What an evaluation needs to know. -/
structure EvalIn where
  a     : Arr
  outl  : List Outlier
  trans : Bool
  mode  : Nat
  hint  : Bool
  gov   : Nat
  x     : List Int
  base  : Nat
  /-- the array's refresh age is within its format's interval, so R87's bound holds. -/
  fresh : Bool
deriving DecidableEq, Repr

def EvalIn.w8 (v : EvalIn) : Bool := v.a.format = 5
def EvalIn.lg (v : EvalIn) : Nat := gainLog v.a.format
/-- The number of outputs (R78). -/
def EvalIn.outs (v : EvalIn) : Nat := if v.w8 && !v.trans then 256 else 512
/-- The 32-column block of a weight column (R88). -/
def EvalIn.blockOfCol (v : EvalIn) (c : Nat) : Nat := if v.w8 then c / 16 else c / 32
/-- The input an outlier or a cell takes: its row forward, its weight column transposed. -/
def EvalIn.input (v : EvalIn) (row col : Nat) : Int := nth v.x (if v.trans then col else row) 0
/-- The output it adds to. -/
def outOf (trans : Bool) (row col : Nat) : Nat := if trans then row else col

/-- A weight column that the correction unit holds: either column of a W8 pair (R97). -/
def EvalIn.substCol (v : EvalIn) (col : Nat) : Bool :=
  (Tbl.find v.a.subst (if v.w8 then 2 * col else col)).isSome || (v.w8 && (Tbl.find v.a.subst (2 * col + 1)).isSome)
/-- The input with substituted columns driven at zero in a transposed evaluation (R97). -/
def EvalIn.driven (v : EvalIn) : List Int :=
  if v.trans then v.x.zipIdx.map fun e => if v.substCol e.2 then 0 else e.1 else v.x

/-- The governed phases of the evaluation and the governor's counts. -/
def EvalIn.plan (v : EvalIn) : List Phase16 × GovCount :=
  let l := (allPhases v.trans v.w8 v.mode v.driven).map (govern v.gov (narrowLen v.trans v.w8) v.hint)
  (l.flatMap (·.1), l.foldl (fun c x => c.add x.2) ⟨0, 0, 0⟩)

/-- The live entries: those whose input is not zero (R91). -/
def EvalIn.live (v : EvalIn) : List Outlier := v.outl.filter fun o => v.input o.row o.col ≠ 0

/-- The place an entry counts in: its block forward, its 64-row output group transposed (R91). -/
def EvalIn.place (v : EvalIn) (o : Outlier) : Nat := if v.trans then o.row / 64 else v.blockOfCol o.col
/-- The live capacity of a place (R91). -/
def EvalIn.cap (v : EvalIn) (p : Nat) : Nat :=
  if v.trans then v.a.blockCap (2 * p) + v.a.blockCap (2 * p + 1) else v.a.blockCap p
/-- The places that fall back (R93). -/
def EvalIn.fallen (v : EvalIn) : List Nat :=
  (List.range (if v.trans then 8 else 16)).filter fun p => v.cap p < (v.live.filter fun o => v.place o = p).length
/-- The place of an output. -/
def EvalIn.placeOut (v : EvalIn) (e : Nat) : Nat := if v.trans then e / 64 else v.blockOfCol e
/-- A forward output whose logical column (either of a W8 pair) is substituted. -/
def EvalIn.substOut (v : EvalIn) (e : Nat) : Bool := !v.trans && v.substCol e

/-- The exact weight of a cell in units of 1/g, from a level function. -/
def cellWeight (w8 : Bool) (lev : Nat → Nat → Nat) (row col : Nat) : Int :=
  if w8 then 16 * ((lev row (2 * col) : Int) - 8) + lev row (2 * col + 1) else (lev row col : Int) - 8

/-- The exact sum of the cells of one output over inputs that are not zero, each product weighed by its row and column; keep chooses
columns. -/
def EvalIn.sumCells (v : EvalIn) (lev : Nat → Nat → Nat) (keep : Nat → Bool) (weigh : Nat → Nat → Int → Int) (e : Nat) : Int :=
  (((v.x.take (if v.trans then (if v.w8 then 256 else 512) else 512)).zipIdx.filter fun x => x.1 ≠ 0).map fun x =>
    let (row, col) := if v.trans then (e, x.2) else (x.2, e)
    if keep col then weigh row col (cellWeight v.w8 lev row col * x.1) else 0).sum
/-- The same, scaled per group and block. -/
def EvalIn.exact (v : EvalIn) (lev : Nat → Nat → Nat) (keep : Nat → Bool) (e : Nat) : Int :=
  v.sumCells lev keep (fun row col p => v.a.scaled p v.lg (row / 64) (v.blockOfCol col)) e
/-- The same, unscaled. -/
def EvalIn.plain (v : EvalIn) (lev : Nat → Nat → Nat) (keep : Nat → Bool) (e : Nat) : Int := v.sumCells lev keep (fun _ _ p => p) e

/-- The stored level of a substituted column; of the other column of a W8 pair, if that one stands in the array, its level there. -/
def EvalIn.stored (v : EvalIn) (row c : Nat) : Nat := match Tbl.find v.a.subst c with | some l => nth l row 8 | none => v.a.level row c

/-- The outcome of an evaluation. -/
structure EvalOut where
  rounds  : List (List Int)
  phases  : List Phase16
  gov     : GovCount
  fallen  : Nat
  applied : Nat
  ovr     : Nat
  /-- group-columns repaired after OVR: those whose analog result counts. -/
  repaired : Nat
  subst   : Bool
  /-- unscaled sums over groups by output, and the group-columns left out (R100). -/
  sums    : List (Option Int)
  skip    : List (Nat × Nat)
  /-- unscaled results of the cells, whatever computed them (R87). -/
  whole   : List Int
  /-- rows read in read phases at the end (R93, R95, R96). -/
  reads   : List Nat
deriving DecidableEq, Repr

/-- One evaluation, every conversion included (R51 to R66, R91 to R97), with its free analog errors or, if quiet, without. -/
def EvalIn.runWith (v : EvalIn) (quiet : Bool) : EvalOut :=
  let (ph, gc) := v.plan
  let fell := v.fallen
  let ip := ph.zipIdx
  -- value and count of over-range conversions of group g on a sensed line
  let line (g l : Nat) : Int × Nat :=
    (ip.filter fun p => p.1.grp = g).foldl (fun acc p =>
      let (d, r) := phaseValue v.a quiet v.trans v.w8 v.base p.2 l p.1
      (acc.1 + p.1.wt * d, acc.2 + if r then 1 else 0)) (0, 0)
  -- value, over-range conversions and lines with one, of group g for an output
  let group (g e : Nat) : Int × Nat × Nat :=
    if !v.trans && v.w8 then
      let (h, a) := line g (2 * e); let (l, b) := line g (2 * e + 1)
      (16 * h + l, a + b, min a 1 + min b 1)
    else
      let (d, a) := line g e
      (d, a, min a 1)
  let groups := (List.range (if v.trans then 16 else 8)).filter fun g => ip.any fun p => p.1.grp = g
  let all : List (Nat × List (Int × Nat × Nat)) := groups.map fun g => (g, (List.range v.outs).map fun e => group g e)
  let table := all.map fun t => (t.1, t.2.zipIdx.map fun x =>
    if fell.contains (v.placeOut x.2) || v.substOut x.2 then (0, 0, 0) else x.1)
  let analog := table.map fun t => t.2.zipIdx.map fun x =>
    if v.trans then v.a.scaled x.1.1 v.lg (x.2 / 64) t.1 else v.a.scaled x.1.1 v.lg t.1 (v.blockOfCol x.2)
  let outl (ps : Outlier → Bool) (e : Nat) : Int :=
    ((v.live.filter fun o => ps o && outOf v.trans o.row o.col = e).map fun o =>
      v.a.scaled (o.resid * v.input o.row o.col) 0 (o.row / 64) (v.blockOfCol o.col)).sum
  let keepCells (c : Nat) : Bool := !v.substCol c
  let cuOutl := (List.range v.outs).map fun e => outl (fun o => !fell.contains (v.place o)) e
  let cuFall := (List.range v.outs).map fun e =>
    if fell.contains (v.placeOut e) then
      (if v.substOut e then 0 else v.exact (v.a.snap quiet v.base) keepCells e) + outl (fun o => fell.contains (v.place o)) e
    else 0
  let cuSub := (List.range v.outs).map fun e =>
    if v.trans then v.exact v.stored v.substCol e else if v.substOut e then v.exact v.stored (fun _ => true) e else 0
  let hasSub := !v.a.subst.isEmpty
  let whole := (List.range v.outs).map fun e =>
    (if fell.contains (v.placeOut e) then (if v.substOut e then 0 else v.plain (v.a.snap quiet v.base) keepCells e)
      else (table.map fun t => (nth t.2 e (0, 0, 0)).1).sum) +
    (if v.trans then v.plain v.stored v.substCol e else if v.substOut e then v.plain v.stored (fun _ => true) e else 0)
  -- a phase that returned OVR on a line whose result counts has the rows it drove read; transposed, the line is the row
  let clipped (p : Phase16 × Nat) (l : Nat) : Bool := (phaseValue v.a quiet v.trans v.w8 v.base p.2 l p.1).2
  let lineOut (l : Nat) : Nat := if v.w8 && !v.trans then l / 2 else l
  let used (l : Nat) : Bool := !(fell.contains (v.placeOut (lineOut l)) || v.substOut (lineOut l))
  let ovrAny : Bool := table.any fun t => t.2.any fun x => x.2.1 ≠ 0
  let live := (List.range 512).filter used
  let reads : List Nat :=
    if v.trans then (List.range 512).filter fun e => fell.contains (e / 64) || (table.any fun t => (nth t.2 e (0, 0, 0)).2.1 ≠ 0)
    else
      let hit := if ovrAny then (ip.filter fun p => live.any fun l => clipped p l).flatMap fun p =>
        (p.1.drive.filter fun d => d.2 ≠ 0).map (·.1) else []
      (List.range 512).filter fun i => (!fell.isEmpty && nth v.x i 0 ≠ 0) || hit.contains i
  let skip := table.flatMap fun t => (t.2.zipIdx.filter fun x => x.1.2.1 ≠ 0).map fun x => (t.1, x.2)
  { rounds := analog ++ (if v.live.isEmpty then [] else [cuOutl]) ++ (if fell.isEmpty then [] else [cuFall]) ++
      (if hasSub then [cuSub] else []),
    phases := ph, gov := gc, fallen := fell.length, applied := v.live.length,
    ovr := (all.flatMap fun t => t.2.map (·.2.1)).sum + v.a.overReads quiet v.base reads, repaired := (table.flatMap fun t => t.2.map (·.2.2)).sum, subst := hasSub,
    sums := (List.range v.outs).map fun e =>
      if fell.contains (v.placeOut e) || v.substOut e then none
      else some ((table.map fun t => if (nth t.2 e (0, 0, 0)).2.1 ≠ 0 then 0 else (nth t.2 e (0, 0, 0)).1).sum),
    skip := skip, whole := whole, reads := reads }

/-- How many phases have run when each group that has a phase is complete, in the groups' order (R59). -/
def phaseEnds (l : List Phase16) : List Nat :=
  ((l.map (·.grp)).eraseDups).map fun g => (l.zipIdx.filter fun x => x.1.grp = g).foldl (fun _ x => x.2 + 1) 0

/-- The full scale of an evaluation in units of its sums: 512 times the format's largest weight times 128 (R87). -/
def fullScale (format : Nat) : Nat := match format with | 5 => 8388608 | 4 => 262144 | _ => 524288

/-- The RMS of the errors against the exact product of the array's weights is within 0.05% of full scale (R87). -/
def EvalIn.withinBound (v : EvalIn) (o : EvalOut) : Bool :=
  let es := o.whole.zipIdx.map fun x => x.1 - v.plain (fun r c => match Tbl.find v.a.subst c with | some l => nth l r 8 | none => v.a.level r c) (fun _ => true) x.2
  2000 ^ 2 * (es.map fun e => e.natAbs ^ 2).sum ≤ es.length * fullScale v.a.format ^ 2

/-- One evaluation.  Free errors that would break the bound of R87, where it holds (A8 inputs, a refresh age within the interval), are not
what the array's converters do: then there are none. -/
def EvalIn.run (v : EvalIn) : EvalOut :=
  let o := v.runWith false
  if v.fresh && v.mode = 0 && !v.withinBound o then v.runWith true else o

/-! ## Calibration records (R45, R106, R107, R128) -/

/-- The trims of a slice as one fit writes them: 20 numbers from k on. -/
def fitTrim (k : Nat) : Trim :=
  { dac := (List.range 16).map fun i => Config.dacFit (k + i)
    gain := [Config.adcFit (k + 16), Config.adcFit (k + 17)], offset := [Config.adcFit (k + 18), Config.adcFit (k + 19)] }

/-- The pass of the last cold start that reached a core's arrays: when it completed, its first trim number, and the hot spot then. -/
def coldPass (s : State) (c : Nat) : Option (Nat × Nat × Int) :=
  match Tbl.find s.upkeep.calMiss c with
  | some x => x
  | none => s.upkeep.calAt.map fun t => (t, s.upkeep.trimBase, (s.preg (powerOf c)).calHot)

/-- An array's last completed pass is a cold start's. -/
def passIsCold (s : State) (c : Nat) (a : Arr) : Bool := match coldPass s c with | some x => a.calAt < x.1 | none => false
/-- When an array's last pass completed, and the temperature of its power region then. -/
def calTime (s : State) (c : Nat) (a : Arr) : Nat :=
  match coldPass s c with | some x => if a.calAt < x.1 then x.1 else a.calAt | none => a.calAt
def calTempOf (s : State) (c : Nat) (a : Arr) : Int :=
  match coldPass s c with | some x => if a.calAt < x.1 then x.2.2 else a.calTemp | none => a.calTemp

/-- The trims that a slice of a core's converter set holds. -/
def State.trim (s : State) (c set i : Nat) : Trim :=
  match Tbl.find ((s.core c).set set).trims i, coldPass s c with
  | some t, _ => t
  | none, some x => fitTrim (x.2.1 + 20 * (1040 * (8 * c + set) + i))
  | none, none => Trim.reset

/-- The slices that a calibration of row group k fits: its 64 row-edge slices, and all column-edge slices (R106). -/
def calSlices (k : Nat) : List Nat := ((List.range 64).map fun i => 64 * k + i) ++ (List.range 528).map fun i => 512 + i
/-- Write the trims of some slices, fitted with numbers from a base. -/
def ASet.putTrims (t : ASet) (base : Nat) (slices : List Nat) : ASet :=
  { t with trims := slices.foldl (fun l i => Tbl.set l i (fitTrim (base + 20 * i))) t.trims }

/-! ## Checks and effects -/

/-- Lines an input walk must name (R143). -/
def inputLines (mode : Nat) : Nat := if mode = 0 then 8 else 4

def cimCheck (k : Core) (trans : Bool) (a mode : Nat) (d : Desc) (rewriting : Bool) : Option Fail :=
  let w := walkOf d
  let op := if trans then 0x41 else 0x40
  let ar := k.arr a
  firstFail [
    encFail op w.encOk, encFail op (w.count = inputLines mode), bndFail w false false,
    if ar.state = 1 ∨ ar.state = 2 ∨ ar.state = 3 ∨ ar.state = 5 ∨ ar.format = 0 ∨ ar.tile.isNone ∨ rewriting
      then some ⟨13, a, 0⟩ else none,
    badFail k w]

/-- The evaluation of an operation at its start. -/
def cimIn (k : Core) (base : Nat) (trans : Bool) (a mode : Nat) (d : Desc) (narrow : Bool) (gov : Nat) (fresh : Bool) : EvalIn :=
  { a := k.arr a,
    outl := ((k.set (a / 4)).outliers.map outlierOf).filter fun o => o.valid && o.pos = a % 4,
    trans := trans, mode := mode, hint := narrow, gov := gov, x := evalInput mode (k.readWalk (walkOf d)).flatten, base := base, fresh := fresh }

/-- The effects of an evaluation: the clear, then each addition in entry order (R78). -/
def cimEff (t : Nat) (clear : Bool) (plan : EvalPlan) : Effects :=
  (if clear then [fun k => k.accClear t] else []) ++
  plan.rounds.flatMap fun r => r.zipIdx.map fun x => fun k => k.accAdd t x.2 x.1

end Sys2Proof.Machine
end

