-- ==== Sys2Proof/Machine/Attention.lean ====
section
/-!
DEFINITION. The attention engine: length tables, masking and skipping, and the three attention operations (R292 to R294, R313 to
R324, R326).
-/
namespace Sys2Proof.Machine

/-! ## Length tables -/

/-- The header of a length table (R314). -/
structure LtHead where
  entries : Nat
  tiles   : Nat
  scale   : W32
  heads   : Nat
  int4    : Bool
  values  : Bool
  rsv     : Bool
deriving DecidableEq, Repr

/-- One entry (R315). -/
structure LtEnt where
  qStart : Nat
  qLen   : Nat
  tree   : Bool
  pos    : Nat
  kvLen  : Nat
  ref    : Nat
  blocks : Nat
  rsv    : Bool
deriving DecidableEq, Repr

def ltHead (m : Memory) (t : Nat) : LtHead :=
  let v := leNat (m.read t 64)
  { entries := bits v 511 496, tiles := bits v 495 472, scale := BitVec.ofNat 32 (bits v 471 440), heads := bits v 439 435,
    int4 := bitAt v 434, values := bitAt v 433, rsv := bits v 432 0 ≠ 0 }

def ltEnt (m : Memory) (t i : Nat) : LtEnt :=
  let v := leNat (m.read (t + 64 + 16 * i) 16)
  { qStart := bits v 127 112, qLen := bits v 111 102, tree := bitAt v 101, pos := bits v 95 64, kvLen := bits v 63 32,
    ref := bits v 31 19, blocks := bits v 18 10, rsv := bits v 100 96 ≠ 0 || bits v 9 0 ≠ 0 }

/-- Tree mask of the query at a query position, and a block reference: ordinal and slot (R313, R315). -/
def ltMask (m : Memory) (t q : Nat) : Nat := leNat (m.read (t + 8256 + 8 * q) 8)
def ltRef (m : Memory) (t r : Nat) : Nat × Nat :=
  let v := leNat (m.read (t + 12352 + 4 * r) 4)
  (bits v 31 16, bits v 7 0)

/-- The checks of R316. -/
def ltOk (m : Memory) (t : Nat) : Bool :=
  let h := ltHead m t
  !h.rsv && h.entries ≤ 512 && 1 ≤ h.heads && h.heads ≤ 16 &&
  (List.range (min h.entries 512)).all fun i =>
    let e := ltEnt m t i
    !e.rsv && !(e.tree && 64 < e.qLen) && e.qStart + e.qLen ≤ 512 && e.ref + e.blocks ≤ 5104 &&
    (List.range e.blocks).all fun j => leNat (m.read (t + 12352 + 4 * (e.ref + j)) 4) / 256 % 256 = 0

/-! ## Masking and skipping -/

/-- Query i of an entry sees key position j (R317). -/
def sees (e : LtEnt) (mask : Nat) (i j : Nat) : Bool :=
  j < e.kvLen &&
  if e.tree then j < e.pos || (e.pos ≤ j && j < e.pos + e.qLen && bitAt mask (j - e.pos)) else j ≤ e.pos + i

/-- A tile: entry, query tile, block within the entry, query head. -/
structure Tile where
  entry : Nat
  qTile : Nat
  block : Nat
  head  : Nat
deriving DecidableEq, Repr

/-- All tiles in the order of R318. -/
def ltTiles (m : Memory) (t : Nat) : List Tile :=
  let h := ltHead m t
  (List.range h.entries).flatMap fun e =>
    let x := ltEnt m t e
    (List.range ((x.qLen + 63) / 64)).flatMap fun q => (List.range x.blocks).flatMap fun b =>
      (List.range h.heads).map fun hd => ⟨e, q, b, hd⟩

/-- Visibility of the tile's 64 × 64 pairs, row by row; a row past the entry's queries sees nothing. -/
def tileVisible (m : Memory) (t : Nat) (x : Tile) : List Bool :=
  let e := ltEnt m t x.entry
  let k := (ltRef m t (e.ref + x.block)).1
  (List.range 64).flatMap fun r =>
    let i := 64 * x.qTile + r
    let mask := ltMask m t (e.qStart + i)
    (List.range 64).map fun j => i < e.qLen && sees e mask i (64 * k + j)

/-- The first tile at or after a cursor that is not fully masked, with its place. -/
def nextTile (m : Memory) (t cur : Nat) : Option (Nat × Tile) :=
  (((ltTiles m t).zipIdx.drop cur).find? fun x => (tileVisible m t x.1).any id).map fun x => (x.2, x.1)

/-! ## Keys and values (R293, R294) -/

/-- One element of a token's key or value in a slot, as FP32, at base line (row, col). -/
def kvElem (k : Core) (row col slot : Nat) (int4 val : Bool) (t d : Nat) : W32 :=
  if int4 then
    let r := row + 4 * slot + (if val then 2 else 0) + t / 32
    let b := (k.mem.get (2048 * r + 64 * ((col + t) % 32) + d / 2)).toNat
    f32of (.ofInt (signedOf 4 (if d % 2 = 0 then b % 16 else b / 16)))
  else
    let r := row + 8 * slot + (if val then 4 else 0) + t / 16
    let b := (k.mem.get (2048 * r + 64 * ((col + 2 * (t % 16) + d / 64) % 32) + d % 64)).toNat
    f32of (Flt.e4m3.val b).1

/-- A block's key or value scale in INT4 (R294). -/
def kvScale (k : Core) (row slot : Nat) (val : Bool) : W32 :=
  f32of (f32val (BitVec.ofNat 32 (leNat (k.mem.read (2048 * (row + 1024) + 8 * slot + (if val then 4 else 0)) 4))))

/-- How a referenced block is stored: in an INT4 region a slot that the core has compacted is in the INT4 layout; any other block is
in the FP8 layout of its slot pair (R296). -/
def blockInt4 (k : Core) (h : LtHead) (slot : Nat) : Bool := h.int4 && k.packed.contains slot
/-- The slot number in the layout used: an uncompacted block of an INT4 region lies in FP8 slot u of its pair (2u, 2u + 1). -/
def blockSlot (k : Core) (h : LtHead) (ref : Nat × Nat) : Nat :=
  if h.int4 && !blockInt4 k h ref.2 then ref.2 / 2 else ref.2

/-- The lines of a slot's keys or values, with the line of its scale in INT4 (R293, R294). -/
def slotLines (w : Walk) (slot : Nat) (int4 val : Bool) : List (Int × Nat) :=
  let r := w.row + if int4 then 4 * slot + (if val then 2 else 0) else 8 * slot + (if val then 4 else 0)
  ((List.range (if int4 then 2 else 4)).flatMap fun i => (List.range 32).map fun c => (((r + i : Nat) : Int), c)) ++
    (if int4 then [(((w.row + 1024 : Nat) : Int), slot / 8)] else [])

/-- The first line outside the banks fails the bounds check (R138, R152). -/
def linesFail (ls : List (Int × Nat)) : Option Fail := (ls.find? fun l => rowRange l.1 ≠ 0).map fun l => ⟨2, auxLine l, 0⟩

/-- The lines of a length table that the engine reads: header, entries, tree masks and references (R313 to R315). -/
def tableLines (m : Memory) (t : Nat) : List (Int × Nat) :=
  let n := min (ltHead m t).entries 512
  linesAt t 64 ++ (if n = 0 then [] else linesAt (t + 64) (16 * n)) ++ (List.range n).flatMap fun i =>
    let e := ltEnt m t i
    (if e.tree ∧ e.qLen ≠ 0 then linesAt (t + 8256 + 8 * e.qStart) (8 * e.qLen) else []) ++
      (if e.blocks = 0 then [] else linesAt (t + 12352 + 4 * e.ref) (4 * e.blocks))

/-! ## AE.QK -/

/-- The table area lies in the banks, at a line. -/
def tableFail (t : W32) : Option Fail :=
  match addrFail t false with
  | some f => some f
  | none => if t.toNat + 32768 ≤ 2621440 then none else some ⟨2, auxLine (1280, 0), 0⟩

/-- The tile the next AE.QK of a step takes. -/
def aeNext (k : Core) (step : Nat) (t : W32) : Option (Nat × Tile) :=
  nextTile k.mem t.toNat (if k.ae.step = step ∧ k.ae.table = t then k.ae.cursor else 0)

/-- The key lines that an AE.QK reads, and the value lines of the tile that an AE.PV reads. -/
def aeQkLines (k : Core) (step : Nat) (db : Desc) (t : W32) : List (Int × Nat) :=
  match aeNext k step t with
  | none => []
  | some (_, x) =>
    let h := ltHead k.mem t.toNat
    let ref := ltRef k.mem t.toNat ((ltEnt k.mem t.toNat x.entry).ref + x.block)
    slotLines (walkOf db) (blockSlot k h ref) (blockInt4 k h ref.2) h.values
def aePvLines (k : Core) (db : Desc) : List (Int × Nat) :=
  if k.ae.null then [] else
  let t := k.ae.table.toNat
  let h := ltHead k.mem t
  let ref := ltRef k.mem t ((ltEnt k.mem t k.ae.entry).ref + k.ae.block)
  slotLines (walkOf db) (blockSlot k h ref) (blockInt4 k h ref.2) true

def aeQkCheck (k : Core) (step : Nat) (dd da db : Desc) (t : W32) : Option Fail :=
  let wd := walkOf dd; let wa := walkOf da
  let rows := match aeNext k step t with
    | none => 0
    | some (_, x) =>
      let e := ltEnt k.mem t.toNat x.entry
      (min e.qLen (64 * x.qTile + 64) - 1) * (ltHead k.mem t.toNat).heads + x.head + 1
  firstFail [
    encFail 0x20 (wd.encOk && wa.encOk),
    encFail 0x20 (wd.fmt = 5 && wd.elems = 4096 && (wa.fmt = 1 || wa.fmt = 4) && wa.rowElems = 128),
    tableFail t, lineFail k (tableLines k.mem t.toNat), encFail 0x20 (ltOk k.mem t.toNat), encFail 0x20 (rows ≤ wa.nout),
    bndFail wd false true, bndFail wa false false, linesFail (aeQkLines k step db t), badFail k wa, lineFail k (aeQkLines k step db t)]

/-- The FP32 sum of some terms, whose order no rule fixes: their exact sum where no order of adding them can round, and otherwise the free
value, which lies as far from the exact sum as that many roundings can bring it.  DESIGN CHOICE: a sum that may pass the largest finite value
on its way is left free altogether. -/
def aeTotal (l : List W32) : W32 :=
  let xs := l.map f32val
  let e := xs.foldl (fun e x => min e x.e) 0
  let ms := xs.map fun x => x.at e
  let exact : Int := ms.sum
  let mass : Nat := (ms.map Int.natAbs).sum
  let grain := Nat.gcd (ms.foldl (fun g m => Nat.gcd g m.natAbs) 0) (2 ^ 400)
  let free := f32fin (Config.aeSum l)
  let bounded : Bool := !(f32val 0x7F7FFFFF).lt ⟨mass, e⟩
  let off := ((f32val free).sub ⟨exact, e⟩)
  if bounded ∧ (mass ≤ 2 ^ 24 * grain ∨ Dy.lt ⟨l.length * mass, e - 23⟩ ⟨off.m.natAbs, off.e⟩) then f32of ⟨exact, e⟩ else free

/-- The scores of the tile (R321, R326). -/
def aeScores (k : Core) (da db : Desc) (t : Nat) (x : Tile) : List (Option W32) :=
  let h := ltHead k.mem t; let e := ltEnt k.mem t x.entry
  let ref := ltRef k.mem t (e.ref + x.block)
  let wb := walkOf db
  let int4 := blockInt4 k h ref.2; let slot := blockSlot k h ref
  let q := chunks 128 (k.readF32 (walkOf da))
  let vis := tileVisible k.mem t x
  let scale := f32of (f32val h.scale)
  (List.range 4096).map fun i =>
    if nth vis i false then
      let qr := nth q ((64 * x.qTile + i / 64) * h.heads + x.head) []
      let dot := aeTotal ((List.range 128).map fun d =>
        f32mul (nth qr d 0) (kvElem k wb.row wb.col slot int4 h.values (i % 64) d))
      let dot := if int4 then f32mul dot (kvScale k wb.row slot h.values) else dot
      some (f32mul scale dot)
    else none

def aeQkEff (k : Core) (step : Nat) (dd da db : Desc) (t : W32) : Effects :=
  let cur := if k.ae.step = step ∧ k.ae.table = t then k.ae.cursor else 0
  match aeNext k step t with
  | none =>
    let n := (ltTiles k.mem t.toNat).length
    [fun k => ((k.count 11 3 1).count 11 1 (n - cur)), fun k =>
      { k with ae := { k.ae with step := step, table := t, cursor := n, null := true } }]
  | some (i, x) =>
    let vis := tileVisible k.mem t.toNat x
    let queries := min 64 ((ltEnt k.mem t.toNat x.entry).qLen - 64 * x.qTile)
    let sc := aeScores k da db t.toNat x
    let e := ltEnt k.mem t.toNat x.entry
    veWrite (walkOf dd) (sc.zipIdx.map fun v => ((v.1.getD (Config.maskedScore v.2)).toNat, false)) ++
    [fun k =>
      let k := { k with ae := { k.ae with
        step := step, table := t, cursor := i + 1, null := false, entry := x.entry, qTile := x.qTile, block := x.block,
        head := x.head, visible := vis } }
      let k := (k.count 11 0 1).count 11 1 (i - cur)
      let k := if (vis.take (64 * queries)).all id then k else k.count 11 2 1
      if e.tree then k.count 11 6 1 else k]

/-! ## AE.SM -/

/-- The query row of tile row r (R320). -/
def aeRow (k : Core) (r : Nat) : Nat :=
  (64 * k.ae.qTile + r) * (ltHead k.mem k.ae.table.toNat).heads + k.ae.head
/-- The tile rows that see a key: only they are worked on (R323). -/
def aeRows (k : Core) : List Nat :=
  if k.ae.null then [] else (List.range 64).filter fun r => (List.range 64).any fun j => nth k.ae.visible (64 * r + j) false
/-- The lines of the records of those rows in a statistics walk (R322). -/
def aeRecLines (k : Core) (st : W32) : List (Int × Nat) := (aeRows k).flatMap fun r => linesAt (st.toNat + 64 + 16 * aeRow k r) 16

def aeSmCheck (k : Core) (dd da : Desc) (st : W32) : Option Fail :=
  let wd := walkOf dd; let wa := walkOf da
  let recs := aeRecLines k st
  let saved : Bool := (k.mem.get (st.toNat + 63)).toNat = 1
  firstFail [
    encFail 0x21 (wd.encOk && wa.encOk),
    encFail 0x21 (wd.fmt = 1 && wd.elems = 4096 && wa.fmt = 5 && wa.elems = 4096),
    addrFail st false, lineFail k (linesAt st.toNat 64), encFail 0x21 ((k.mem.get (st.toNat + 63)).toNat ≤ 1),
    bndFail wd false true, bndFail wa false false, linesFail recs,
    if saved then none else (recs.find? fun l => decide (1248 ≤ l.1)).map fun l => ⟨2, auxLine l, 0⟩, badFail k wa, lineFail k recs]

/-- One row of the online softmax: probabilities, the new record, and the correction factor with whether the old row is kept
(R323, R324). -/
def smRow (mode : Nat) (m l : W32) (sc : List (Option W32)) : List Nat × (W32 × W32) × (W32 × Bool) :=
  let vs := sc.filterMap id
  match vs with
  | [] => (sc.map fun _ => 0, (m, l), (0x3F800000, true))
  | v :: t =>
    let m' := if mode = 1 then m else (v :: t).foldl (fun a b => if f32lt a b then b else a) m
    let ex (x : W32) : W32 := nearExp2 7 (f32sub x m')
    let p := sc.map fun x => match x with | some x => (Flt.e4m3.of (f32val (ex x))).1 | none => 0
    if mode = 1 then (p, (m, l), (0x3F800000, true))
    else
      let c := nearExp2 7 (f32sub m m')
      let l' := f32add (f32mul l c) (aeTotal (vs.map ex))
      (p, (m', l'), if (f32val l).m = 0 then (0, false) else (c, true))

def aeSmEff (k : Core) (dd da : Desc) (st : W32) : Effects :=
  if k.ae.null then [] else
  let mode := (k.mem.get (st.toNat + 63)).toNat
  let sc := k.readF32 (walkOf da)
  let rows := (List.range 64).map fun r =>
    let a := st.toNat + 64 + 16 * aeRow k r
    let row := (List.range 64).map fun j => if nth k.ae.visible (64 * r + j) false then some (nth sc (64 * r + j) 0) else none
    let m := f32of (f32val (BitVec.ofNat 32 (leNat (k.mem.read (a + 12) 4))))
    let l := f32of (f32val (BitVec.ofNat 32 (leNat (k.mem.read (a + 8) 4))))
    (a, row.any Option.isSome, smRow mode m l row)
  veWrite (walkOf dd) (rows.flatMap fun x => x.2.2.1.map fun p => (p, false)) ++
  (if mode = 1 then [fun k => k.count 11 7 1] else
    (rows.filter (·.2.1)).map (fun x => fun k =>
      k.putBytes (x.1 + 8) (leBytes 4 x.2.2.2.1.2.toNat ++ leBytes 4 x.2.2.2.1.1.toNat)) ++
    [fun k => { k with ae := { k.ae with
      factors := rows.map fun x => x.2.2.2.2.1, fresh := rows.map fun x => !x.2.2.2.2.2 } }]) ++
  [fun k => k.count 11 4 (k.ae.visible.filter id).length]

/-! ## AE.PV -/

/-- The lines of the old output rows that an AE.PV reads: those of rows with l > 0 before (R323). -/
def aeOldLines (k : Core) (dd : Desc) : List (Int × Nat) :=
  ((aeRows k).filter fun r => !nth k.ae.fresh r true).flatMap fun r => ((walkOf dd).lines.drop (8 * aeRow k r)).take 8

def aePvCheck (k : Core) (dd da db : Desc) : Option Fail :=
  let wd := walkOf dd; let wa := walkOf da
  firstFail [
    encFail 0x22 (wd.encOk && wa.encOk),
    encFail 0x22 (wd.fmt = 5 && wd.rowElems = 128 && wa.fmt = 1 && wa.elems = 4096),
    encFail 0x22 (k.ae.null || (List.range 64).all fun r =>
      !((List.range 64).any fun j => nth k.ae.visible (64 * r + j) false) || aeRow k r < wd.nout),
    bndFail wd false true, bndFail wa false false, linesFail (aePvLines k db), badFail k wa,
    lineFail k (aePvLines k db ++ aeOldLines k dd)]

def aePvEff (k : Core) (dd da db : Desc) : Effects :=
  if k.ae.null then [] else
  let t := k.ae.table.toNat
  let h := ltHead k.mem t; let e := ltEnt k.mem t k.ae.entry
  let ref := ltRef k.mem t (e.ref + k.ae.block)
  let int4 := blockInt4 k h ref.2; let slot := blockSlot k h ref
  let wb := walkOf db; let wd := walkOf dd
  let p := k.readF32 (walkOf da)
  let sv := kvScale k wb.row slot true
  ((List.range 64).filter fun r => (List.range 64).any fun j => nth k.ae.visible (64 * r + j) false).map fun r =>
    let js := (List.range 64).filter fun j => nth k.ae.visible (64 * r + j) false
    let pv := (List.range 128).map fun d =>
      let x := aeTotal (js.map fun j => f32mul (nth p (64 * r + j) 0) (kvElem k wb.row wb.col slot int4 true j d))
      if int4 then f32mul x sv else x
    let row := aeRow k r
    let ls := (wd.lines.drop (8 * row)).take 8
    let w := { wd with row := (nth ls 0 (0, 0)).1.toNat, col := (nth ls 0 (0, 0)).2, nout := 1 }
    fun k =>
      let old := k.readF32 w
      let v := if nth k.ae.fresh r true then pv
        else List.zipWith (fun o x => f32add (f32mul (nth k.ae.factors r 0) o) x) old pv
      k.writeElems w (v.map (·.toNat))

end Sys2Proof.Machine
end

