-- ==== Sys2Proof/Machine/Sp.lean ====
section
/-!
DEFINITION. The sampling processor: its parameter block, token selection, log-probabilities, guesses and the result it writes and
posts (R351, R352, R358 to R361, R364, R606, R667).
-/
namespace Sys2Proof.Machine

/-- A sample line (R351). -/
structure SpPar where
  ctx   : Nat
  temp  : W32
  topP  : W32
  minP  : W32
  topK  : Nat
  mode  : Nat
  cands : Nat
  width : Nat
  logP  : Bool
  seed  : Bytes
  pos   : Nat
  node  : Nat
deriving DecidableEq, Repr

def spPar (b : Bytes) : SpPar :=
  let f (o : Nat) : W32 := f32of (f32val (BitVec.ofNat 32 (fieldAt b o 4)))
  { ctx := fieldAt b 0 4, temp := f 4, topP := f 8, minP := f 12, topK := fieldAt b 16 2, mode := fieldAt b 18 1,
    cands := fieldAt b 19 1, width := fieldAt b 20 1, logP := bitAt (fieldAt b 21 1) 0, seed := slice b 24 8,
    pos := fieldAt b 32 4, node := fieldAt b 36 4 }

/-- Insert an id and its logit into a list in descending order, ties to the lower id. -/
def rankIns (x : Nat × W32) : List (Nat × W32) → List (Nat × W32)
  | [] => [x]
  | y :: t => if f32lt y.2 x.2 then x :: y :: t else y :: rankIns x t
/-- The n largest of a row, in descending order, ties to the lower id. -/
def topN (n : Nat) (z : List W32) : List (Nat × W32) :=
  z.zipIdx.foldl (fun l x => (rankIns (x.2, x.1) l).take n) []

/-- The draw of R359 as a numerator over 2^32. -/
def spDraw (seed : Bytes) (pos : Nat) : Nat := fieldAt (sha256 (seed ++ leBytes 4 pos)) 0 4

/-- The shortest first part whose running sum reaches a bound; all of it when none does. -/
def reachSum (bound : Dy) : W32 → List (Nat × W32) → List (Nat × W32)
  | _, [] => []
  | acc, x :: t => let a := f32add acc x.2; if (f32val a).lt bound then x :: reachSum bound a t else [x]

/-- The first entry whose running sum exceeds a bound; the last when none does. -/
def pickSum (bound : Dy) : W32 → List (Nat × W32) → Nat
  | _, [] => 0
  | acc, x :: t =>
    let a := f32add acc x.2
    if bound.lt (f32val a) then x.1 else match t with | [] => x.1 | t => pickSum bound a t

/-- FP32 sum in list order. -/
def sumW (l : List (Nat × W32)) : W32 := l.foldl (fun a x => f32add a x.2) 0

/-- The candidates, at most the list's 256 entries (R134), kept with their weights, and how many min-p and top-p dropped (R358). -/
def spKeep (p : SpPar) (z : List W32) : List (Nat × W32) × Nat × Nat :=
  let c := topN (if p.topK = 0 then 256 else min p.topK 256) z
  let zm := (c.headD (0, 0)).2
  let w := c.map fun x => (x.1, nearExp 6 (f32div (f32sub x.2 zm) p.temp))
  let wm := (w.headD (0, 0)).2
  let w1 := if (f32val p.minP).m ≤ 0 then w else w.filter fun x => !((f32val x.2).lt ((f32val p.minP).mul (f32val wm)))
  let w2 := if (f32val p.topP).m ≤ 0 then w1 else reachSum ((f32val p.topP).mul (f32val (sumW w1))) 0 w1
  (w2, w.length - w1.length, w1.length - w2.length)

/-- The sampled token (R358, R359). -/
def spToken (p : SpPar) (z : List W32) : Nat :=
  if (f32val p.temp).m = 0 then ((topN 1 z).headD (0, 0)).1
  else
    let k := (spKeep p z).1
    pickSum ((Dy.mk (spDraw p.seed p.pos) (-32)).mul (f32val (sumW k))) 0 k

/-- The natural log-probability of an entry under a softmax of the row at temperature 1, rounded to FP16 (R360). -/
def spLogProb (z : List W32) (i : Nat) : BitVec 16 :=
  let top := f32val ((topN 1 z).headD (0, 0)).2
  let sum : Int := (z.map fun x => (((f32val x).sub top).exp).fx).sum
  BitVec.ofNat 16 (Flt.fp16.of (((f32val (nth z i 0)).sub top).sub (⟨sum, -fxBits⟩ : Dy).ln)).1

/-- The result in the layout of R606. -/
def spResultBytes (p : SpPar) (rows : List (List W32)) : Bytes :=
  let z := rows.headD []
  let line (b : Bytes) : Bytes := slice b 0 (alignUp b.length 64)
  let tok := if p.mode = 2 then 0 else spToken p z
  let lp (i : Nat) : Bytes := if p.logP && p.mode ≠ 2 then leBytes 2 (spLogProb z i).toNat else [0, 0]
  let nc := if p.mode = 1 then p.cands else 0
  let ng := if p.mode = 2 then 0 else p.width
  line (leBytes 4 p.pos ++ leBytes 1 p.node ++ leBytes 1 nc ++ leBytes 1 ng ++ [0] ++ leBytes 4 tok ++ lp tok ++ [0, 0] ++
      List.replicate 48 0) ++
  line ((topN nc z).flatMap fun x => leBytes 4 x.1 ++ lp x.1 ++ [0, 0]) ++
  line (if ng = 0 then [] else (rows.drop 1).flatMap fun h => (topN ng h).flatMap fun x => leBytes 4 x.1) ++
  line (if p.mode = 2 then z.flatMap fun x => leBytes 4 x.toNat else [])

/-- Lines the result needs. -/
def spLines (p : SpPar) (heads outW : Nat) : Nat :=
  let up (n : Nat) : Nat := (n + 63) / 64
  1 + (if p.mode = 1 then up (8 * p.cands) else 0) + (if p.mode = 2 then up (4 * outW) else up (4 * p.width * heads))

/-- The rows of the logits walk as FP32 under R663. -/
def spRows (k : Core) (ds : Desc) : List (List W32) := chunks (walkOf ds).rowElems (k.readF32 (walkOf ds))

/-- The checks of SP.SAMPLE (R667).  DESIGN CHOICE: a parameter block that is not 64-byte aligned in the bank range fails the scratchpad bounds
check (cause 2), as R664 has it of SHA.DIGEST; R667 names no fault. -/
def spCheck (k : Core) (vocab outW : Nat) (dd ds : Desc) (a : W32) : Option Fail :=
  let wd := walkOf dd; let ws := walkOf ds
  let p := spPar (k.mem.read a.toNat 64)
  firstFail [encFail 0x28 (wd.encOk && ws.encOk), encFail 0x28 (ws.fmt = 5), addrFail a false, lineFail k (linesAt a.toNat 64),
    encFail 0x28 (ws.rowElems = if p.mode = 2 then outW else vocab), encFail 0x28 (spLines p (ws.nout - 1) outW ≤ wd.count),
    bndFail wd (veWin wd) true, bndFail ws false false, badFail k ws]

def spEff (k : Core) (dd ds : Desc) (a : W32) : Effects :=
  let p := spPar (k.mem.read a.toNat 64)
  let rows := spRows k ds
  let res := spResultBytes p rows
  let keep := spKeep p (rows.headD [])
  let greedy := p.mode ≠ 2 && (f32val p.temp).m = 0
  (((walkOf dd).lines.zip (chunks 64 res)).map fun x => fun k => k.writeLine x.1.1.toNat x.1.2 x.2) ++
  [fun k =>
    let k := { k with posts := k.posts ++ [(p.ctx, res)] }
    let k := (k.count 13 0 1).count 13 1 (if greedy then 1 else 0)
    let k := if greedy || p.mode = 2 then k else (k.count 13 2 keep.2.1).count 13 3 keep.2.2
    ((k.count 13 4 ((rows.headD []).length / 64)).count 13 5 (if p.mode = 2 then 0 else p.width * (rows.length - 1))).count 13 6 1]

end Sys2Proof.Machine
end

