-- ==== Sys2Proof/Machine/Issue.lean ====
section
/-!
DEFINITION. Issue: bundles and slots (R168, R169), the effects of dispatch operations by engine, step faults (R205, R206), the
scoreboard (R150, R179), and what ends a bundle (R167, R173).
-/
namespace Sys2Proof.Machine

/-! ## Sequencer time -/

/-- Cycles since program entry (R163). -/
def seqCycles (s : State) (k : Core) : Nat := cyclesOf (s.now - k.seq.entered)
/-- Whether issue is held on an unsatisfied SYNC.WAIT or QWAIT. -/
def Core.waiting (k : Core) : Bool :=
  match k.held with | some (.syncWait _ _) => true | some (.qwait _ _ _) => true | _ => false
/-- Cycles counted against the step's budget (R200). -/
def stepCyc (s : State) (k : Core) : Nat :=
  k.seq.stepAcc + cyclesOf ((if k.waiting then k.waitFrom else s.now) - k.seq.stepFrom)

/-! ## Dispatch operations -/

/-- Engine of an operation (R170): 0 TM, 1 SHA, 2 VE, 3 AE, 4 SP, 5 + s array set s. -/
def DOp.engine : DOp → Nat
  | .tmCopy _ _ => 0
  | .tmFill _ _ _ => 0
  | .sha _ _ _ => 1
  | .veArith _ _ _ _ _ => 2
  | .veNorm _ _ _ _ _ => 2
  | .veAct _ _ _ _ => 2
  | .veFunc _ _ _ => 2
  | .veCvt _ _ => 2
  | .accClr _ => 2
  | .accOut _ _ _ _ _ => 2
  | .accAdd _ _ => 2
  | .aeQk _ _ _ _ => 3
  | .aeSm _ _ _ => 3
  | .aePv _ _ _ => 3
  | .spSample _ _ _ => 4
  | .cimEval _ a _ _ _ _ _ => 5 + a / 4
  | .qPush _ _ => 0
  | .qPop _ _ => 0
  | .rmread _ _ _ _ _ => 0
  | .nred _ _ _ _ _ => 0

/-- Free entries of an outbound queue (R181). -/
def Core.oqFree (k : Core) (q : Nat) : Nat := 32 - (k.oq q).length
/-- Ready entries of an inbound queue: filled ones from its head on (R184). -/
def Core.iqReady (k : Core) (q : Nat) : Nat := ((k.iq q).takeWhile (·.filled)).length

/-- Effects followed by the count of a completed operation (R617). -/
def counted (b : Nat) (e : Effects) : Effects := e ++ [fun k => k.count b 0 1]

/-- The effects of an operation that has started, in order (R206 step 2). -/
def opEffects (k : Core) (a : ActOp) : Effects :=
  let q := a.q
  match q.op with
  | .tmCopy dd ds => counted 12 (tmCopyEff k dd ds)
  | .tmFill dd pat sz => counted 12 (tmFillEff dd pat sz)
  | .sha ds ad fin => shaEff k ds ad fin
  | .veArith dd da db f x => counted 10 (veArithEff k dd da db f x)
  | .veNorm dd da db f e => counted 10 (veNormEff k dd da db f e)
  | .veAct dd da db f => counted 10 (veActEff k dd da db f)
  | .veFunc dd da f => counted 10 (veFuncEff k dd da f)
  | .veCvt dd da => counted 10 (veCvtEff k dd da)
  | .accClr t => [fun k => (k.accClear t).count 10 0 1]
  | .accOut t dd m st ds => counted 10 (accOutEff k t dd m st ds)
  | .accAdd t ds => counted 10 (accAddEff k t ds)
  | .aeQk dd da db t => aeQkEff k q.step dd da db t
  | .aeSm dd da st => aeSmEff k dd da st
  | .aePv dd da db => aePvEff k dd da db
  | .spSample dd ds ad => spEff k dd ds ad
  | .cimEval _ _ _ t clear _ _ => match a.plan with | some p => cimEff t clear p | none => []
  | .qPush oq ad =>
    let line := k.readLine (ad.toNat / 2048) (ad.toNat % 2048 / 64)
    let r := reqOf line
    [fun k =>
      { k.setOq oq (k.oq oq ++ [⟨q.num, false, line, false, 0, 0, 0, 0, (q.bundle, q.slot)⟩]) with
        holds := if r.op = 2 then k.holds ++ [⟨q.num, r.localW⟩] else k.holds },
     fun k => k.count 12 0 1]
  | .qPop iq dd =>
    let w := walkOf dd
    let es := (k.iq iq).take w.count
    (fun k => (k.setIq iq ((k.iq iq).drop w.count)).count 12 0 1) ::
      ((w.lines.zip es).map fun x => fun k => k.writeLine x.1.1.toNat x.1.2 x.2.data)
  | .rmread oq dd ds home tag =>
    let w := walkOf ds
    -- a remote-merge request kept as a request line with Op 3
    let line := leBytes 64 (dd.toNat * 2 ^ 384 + ds.toNat * 2 ^ 256 + (coreByteId (namedCore home)) * 2 ^ 224 +
      tag % 128 * 2 ^ 160 + 3 * 2 ^ 120)
    [fun k => (k.setOq oq (k.oq oq ++ [⟨q.num, false, line, false, 0, 0, 0, w.count, (q.bundle, q.slot)⟩])).count 12 0 1]
  | .nred oq ds dest ar id =>
    let ls := k.readWalk (walkOf ds)
    [fun k => (k.setOq oq (k.oq oq ++ ls.zipIdx.map fun x =>
      ⟨q.num, true, x.1, false, namedCore dest, ar, id, x.2, (q.bundle, q.slot)⟩)).count 12 0 1]

/-- The lines that an operation reads, for the single-bit errors that it corrects (R139, R159); an addition into a tile reads the tile. -/
def opReads (k : Core) (a : ActOp) : List (Int × Nat) :=
  let walk (d : Desc) : List (Int × Nat) := (walkOf d).lines
  let tile (t n : Nat) : List (Int × Nat) := ((List.range 64).map fun i => (((2016 + 2 * t + i / 32 : Nat) : Int), i % 32)).take ((n + 7) / 8)
  match a.q.op with
  | .tmCopy _ ds => walk ds
  | .tmFill _ _ _ => []
  | .sha ds ad _ => walk ds ++ linesAt ad.toNat 64
  | .veArith dd da db f _ => walk da ++ (if f = 6 then [] else walk db) ++ (if f = 3 then walk dd else [])
  | .veNorm _ da db f _ => walk da ++ (if f < 2 then walk db else [])
  | .veAct _ da db f => walk da ++ (if f < 2 then [] else walk db)
  | .veFunc _ da _ => walk da
  | .veCvt _ da => walk da
  | .accClr _ => []
  | .accOut t dd _ _ _ => tile t (walkOf dd).elems
  | .accAdd t ds => walk ds ++ tile t 512
  | .aeQk _ da db t => walk da ++ tableLines k.mem t.toNat ++ aeQkLines k a.q.step db t
  | .aeSm _ da st => walk da ++ linesAt st.toNat 64 ++ aeRecLines k st
  | .aePv dd da db => walk da ++ aePvLines k db ++ aeOldLines k dd
  | .spSample _ ds ad => walk ds ++ linesAt ad.toNat 64
  | .cimEval tr ar d t clear _ _ =>
    walk d ++ (if clear || (match a.plan with | some p => p.rounds.isEmpty | none => true) then [] else tile t (if (k.arr ar).format = 5 ∧ !tr then 256 else 512))
  | .qPush _ ad => linesAt ad.toNat 64
  | .qPop _ _ => []
  | .rmread _ _ _ _ _ => []
  | .nred _ ds _ _ _ => walk ds

/-! ## The scoreboard -/

/-- The length table that an AE.SM or AE.PV numbered n reads again: that of the last AE.QK before it (R150, R321). -/
def Core.tableBefore (k : Core) (n : Nat) : W32 :=
  ((k.active.map (·.2.q) ++ k.seq.queued).foldl (fun (b : Nat × W32) q => match q.op with
    | .aeQk _ _ _ t => if q.num < n ∧ b.1 ≤ q.num then (q.num, t) else b
    | _ => b) (0, k.ae.table)).2

/-- The footprints of a queued or started operation: its own; for a write request that of its source walk, held until the request is
sent (R179, R186); and for an AE operation behind an AE.QK that of the length table. -/
def Core.startFeet (k : Core) (q : QOp) : List Foot :=
  match q.op with
  | .qPush _ a =>
    let r := reqOf (k.readLine (a.toNat / 2048) (a.toNat % 2048 / 64))
    q.op.feet ++ (if r.op = 2 then [footWalk r.localW false] else [])
  | .aeSm _ _ _ => footTable (k.tableBefore q.num) :: q.op.feet
  | .aePv _ _ _ => footTable (k.tableBefore q.num) :: q.op.feet
  | o => o.feet

/-- Operations numbered below n that have not taken effect, with their footprints; a write not yet sent holds its source (R186). -/
def Core.pendingFeet (k : Core) (n : Nat) : List Foot :=
  ((k.seq.queued.filter fun q => q.num < n).flatMap fun q => k.startFeet q) ++
  ((k.active.filter fun a => a.2.q.num < n).flatMap fun a => k.startFeet a.2.q) ++
  ((k.holds.filter fun h => h.num < n).map fun h => footWalk h.walk false)

/-- Rows and direction of a scalar access. -/
def MemOp.feet : MemOp → List Foot
  | .ld _ a => [footAddr a.toNat 4 false]
  | .st a _ => [footAddr a.toNat 4 true]
  | .ld64 _ a => [footAddr a.toNat 8 false]
  | .st64 a _ => [footAddr a.toNat 8 true]
  | .dld _ a => [footAddr a.toNat 16 false]
  | .dst a _ => [footAddr a.toNat 16 true]

/-- A scalar access must wait for an earlier operation (R150, R179). -/
def Core.memBlocked (k : Core) (m : MemOp) : Bool := feetMeet m.feet (k.pendingFeet k.seq.opNum)

/-! ## Step faults -/

/-- Give an entry of a tile, or a status word, its value from before the bundle. -/
def Core.undoEntry (k : Core) (x : Nat × W64) : Core :=
  if x.1 < 8192 then k.accSet (x.1 / 512) (x.1 % 512) x.2 else k.statPut (x.1 - 8192) x.2

/-- Words that a suppressed store had renewed hold their errors again. -/
def Core.remark (k : Core) (bad soft : List Nat) : Core := { k with badWords := k.badWords ++ bad, softWords := k.softWords ++ soft }

/-- Undo a bundle in issue: a fault detected at issue suppresses all of it (R206 step 1). -/
def Core.suppress (k : Core) : Core :=
  match k.bundle with
  | none => k
  | some b =>
    b.undoWin.foldl Core.undoEntry
      { k with seq := b.pre, bundle := none, mem := b.undo.foldl (fun m x => Memory.set m x.1 x.2) k.mem } |>.remark b.undoBad b.undoSoft

/-! ## Clocks and the states of a power region (R27, R198, R239, R492) -/

/-- The MODE pin of a region (R485). -/
def State.modePin (s : State) (g : Nat) (high : Bool) : State :=
  (s.updPreg g fun p => { p with mode := high }).emit (.pin 0 g high)

/-- A wake from DOZE: MODE rises; no header closes, and no neighbour is checked (R497, R501). -/
def dozeWake (s : State) (g : Nat) : State :=
  let s := (s.powerTo g .waking 0).updPreg g fun p => { p with
    wake := some { fromDark := false, slow := false, since := s.now, ramped := true, counted := false, lastCheck := s.now,
                   rampAt := s.now, joinAt := 0 } }
  s.modePin g true

/-- The core has work for its fast clock: it issues, or an engine has an operation queued or in progress (R27, R198). -/
def Core.hasWork (k : Core) : Bool := k.run = .issuing && (!k.waiting || !k.seq.queued.isEmpty || !k.active.isEmpty)

/-- A running core's fast clock stops in a coolant hold; its state is kept (R522). -/
def Core.freeze (k : Core) : Core := if k.run = .issuing then { k with run := .frozen, clockOn := false } else k

/-- The last running clock of a power region has stopped: RUN becomes NAP (R492), but for a region awake for its upkeep (R119). -/
def State.napIfIdle (s : State) (g : Nat) : State :=
  if (s.preg g).state = .run ∧ (s.preg g).upkeepFrom.isNone ∧ (powerCores g).all fun c => !(s.core c).clockOn then
    s.powerTo g .nap 0
  else s

/-- A core's fast clock runs: the watchdog has not counted while it stood still in a wait (R571). -/
def Core.clockRuns (k : Core) (now : Nat) : Core :=
  { k with clockOn := true, stoppedAt := none, lastIssue := k.lastIssue + (now - k.stoppedAt.getD now) }

/-- A core's fast clock starts, and its power region runs (R27, R492); a region in DOZE is woken for it, and one that is not awake starts
the clock when it has woken (R240, R497); in a coolant hold the core is held until the hold ends (R522). -/
def State.startClock (s : State) (c : Nat) : State :=
  if s.thermal.state = 1 then s.updCore c Core.freeze
  else match (s.preg (powerOf c)).state with
  | .run => s.updCore c fun k => k.clockRuns s.now
  | .nap => (s.updCore c fun k => k.clockRuns s.now).powerTo (powerOf c) .run 0
  | .doze => dozeWake s (powerOf c)
  | _ => s
/-- A core has no work any more: its fast clock stops (R27). -/
def State.stopClock (s : State) (c : Nat) : State := (s.updCore c fun k => { k with clockOn := false, stoppedAt := some s.now }).napIfIdle (powerOf c)

/-- Phases of an evaluation that start before a time, or at it on a lower set than one given (R203). -/
def ActOp.phasesBefore (a : ActOp) (time eng : Nat) : Nat :=
  match a.plan with
  | none => 0
  | some p =>
    if time < p.since then 0
    else
      let d := time - p.since
      min p.phases (d / 20 + (if d % 20 = 0 ∧ eng ≤ a.q.eng then 0 else 1))

/-- How many of an operation's effects can have been written when it stops at the phase that would start at a time on a set: for an
evaluation those of the group results whose phases have started (R203, R206 step 2). -/
def ActOp.effCap (a : ActOp) (n time eng : Nat) : Nat :=
  match a.q.op, a.plan with
  | .cimEval _ _ _ _ clear _ _, some p =>
    let ran := a.phasesBefore time eng
    if p.phases ≤ ran then n
    else (if clear then 1 else 0) + (((p.rounds.zip p.ends).filter fun x => x.2 ≤ ran).map fun x => x.1.length).sum
  | _, _ => n

/-- Stop the operations in progress at a time, each keeping a first part of its effects of unfixed length (R206 step 2). -/
def stopActive (base time eng : Nat) (k : Core) : Core :=
  (k.active.zipIdx).foldl (fun k x =>
    let eff := opEffects k x.1.2
    match x.1.2.q.op with
    | .sha _ _ _ => k
    | _ => Effects.run (eff.take (Config.stopped (base + x.2) % (min eff.length (x.1.2.effCap eff.length time eng) + 1))) k) k

/-- The counter of R215 for cycles that a hold costs. -/
def Held.counter : Held → Option Nat
  | .mem _ => some 1
  | .syncWait _ _ => some 3
  | .qwait _ _ _ => some 4
  | .queue _ => some 5
  | .signal _ _ => some 6
  | .fence _ => none
/-- Count the cycles that issue has been held, when the hold ends or is cut short. -/
def Core.countHeld (k : Core) (now : Nat) : Core :=
  match k.held.bind Held.counter with | some i => k.count 0 i (cyclesOf (now - k.waitFrom)) | none => k

/-- The use of a converter set at a time: the read phases that end an evaluation are read mode (R44). -/
def ASet.useAt (t : ASet) (now : Nat) : Nat :=
  match t.readAt with | some r => if (t.use = 1 ∨ t.use = 2) ∧ r ≤ now then 3 else t.use | none => t.use

/-- An array set whose evaluation has ended or been stopped is idle again; programming and an upkeep slice hold it as before. -/
def ASet.released (t : ASet) : ASet := if t.use = 1 ∨ t.use = 2 then { t with use := 0, readAt := none } else t

/-- When the last phase ended that a set's evaluation in progress has run when it stops (R57, R114). -/
def Core.lastEnd (k : Core) (set time eng : Nat) : Option Nat :=
  match Tbl.find k.active (5 + set) with
  | some a => match a.plan, a.phasesBefore time eng with | some p, n + 1 => some (p.since + 20 * (n + 1)) | _, _ => none
  | none => none

/-- Steps 1 to 3 of R206 at a phase boundary: issue stops, work is discarded, late replies and held signals are dropped, and the clock
stops (R27). -/
def Core.halt (base now time eng : Nat) (k : Core) : Core :=
  let h := stopActive base time eng (k.countHeld now)
  { h with run := .stopped, clockOn := false
           sets := Tbl.map (fun i t => { t.released with lastPhase := (k.lastEnd i time eng).or t.lastPhase }) h.sets
           held := none, heldLast := false, bundle := none, active := [], oqs := [], awaits := [], holds := [],
           seq := { h.seq with queued := [], sigBuf := [] } }

/-- A core stops as steps 1 to 3 of R206 say, before the phase that would start at a time on a set, and f is done to what is left of it. -/
def State.haltAt (s : State) (c time eng : Nat) (f : Core → Core) : State :=
  let k := s.core c
  let (base, s) := s.draw k.active.length
  (s.setCore c (f (k.halt base s.now time eng))).napIfIdle (powerOf c)
/-- A core stops now, with the phases that have started by now. -/
def State.haltCore (s : State) (c : Nat) (f : Core → Core) : State := s.haltAt c s.now 13 f

/-- What a step fault leaves to report (R206 step 4). -/
def Core.reported (k : Core) (f : Fail) (pc slot : Nat) (time : W64) (h : Core) : Core :=
  { h.count 0 7 1 with
    report := some {
      cause := f.cause, bundle := pc, slot := slot, kind := k.seq.stepKind, req := k.seq.stepReq, stepSeq := k.seq.stepSeq, aux0 := f.aux0,
      time := time.toNat, unit := f.unit } }

/-- A step fault of core c at a bundle and slot (R206): steps 1 to 4; the report waits for the fault service (row FAULT). -/
def stepFaultAt (s : State) (c : Nat) (f : Fail) (pc slot : Nat) (atIssue : Bool) : State :=
  let k := s.core c
  if k.run ≠ .issuing then s else
  let k := if atIssue then k.suppress else k
  (s.setCore c k).haltCore c fun h => k.reported f pc slot s.almanac h

/-- A step fault at the bundle in issue. -/
def stepFault (s : State) (c : Nat) (f : Fail) (slot : Nat) (atIssue : Bool) : State :=
  stepFaultAt s c f (s.core c).seq.pc.toNat slot atIssue

/-- A step fault reported for the instruction that issued what failed; without one, for the bundle in issue (R206, R207). -/
def stepFaultFrom (s : State) (c : Nat) (f : Fail) (issuer : Option (Nat × Nat)) : State :=
  match issuer with
  | some (bundle, slot) => stepFaultAt s c f bundle slot false
  | none => stepFault s c f 0 false

/-! ## Bundles and slots -/

/-- End a loop whose body the next bundle leaves (R173). -/
def leaveLoops (next : Nat) : List LoopCtr → List LoopCtr
  | l :: t => if l.first ≤ next ∧ next ≤ l.last then l :: t else leaveLoops next t
  | [] => []

/-- After the last bundle of a loop's body: back to its first bundle while counts remain, else out (R173). -/
def loopBack (pc next : Nat) : List LoopCtr → Nat × List LoopCtr
  | l :: t =>
    if pc = l.last then
      if 1 < l.remaining then (l.first, { l with remaining := l.remaining - 1 } :: t) else loopBack pc next t
    else (next, l :: t)
  | [] => (next, [])

/-- Issue reaches a bundle: a line that the fetch buffer does not hold costs one bubble, with its fetch granted at once; the two lines
after it are prefetched (R166, R167).  The single-bit errors of the lines that are read are corrected and counted (R139, R160). -/
def Core.fetch (k : Core) (pc : Nat) : Core :=
  let l := pc / 4
  let new := [l, l + 1, l + 2].filter fun x => !k.fetched.contains x
  let buf := k.fetched ++ new
  let k' := ({ k with fetched := buf.drop (buf.length - 8) }).count 0 2 (if k.fetched.contains l then 0 else 1)
  k'.count 15 7 (new.map fun x => k.softAt (0x270000 + 64 * x) 64).sum

/-- The bundle in issue is complete: the next one follows, by branch, by loop or in order (R167, R169, R173). -/
def Core.closeBundle (k : Core) (now : Nat) : Core :=
  match k.bundle with
  | none => k
  | some b =>
    let q := k.seq
    let (n, ls) := if b.taken then (q.next.toNat, leaveLoops q.next.toNat q.loops)
      -- the last bundle done is the one before the next: this bundle, or the last one that a LOOP of count 0 skips
      else loopBack (q.next - 1).toNat q.next.toNat q.loops
    (({ k with bundle := none, lastIssue := now,
               seq := { q with pc := BitVec.ofNat 12 n, next := BitVec.ofNat 12 (n + 1), loops := ls } }).count 0 0 1).fetch n

/-- The core can issue a slot. -/
def Core.canIssue (k : Core) : Bool := k.run = .issuing && k.held.isNone && k.clockOn

/-- Enter a slot (0 scalar, 1 A, 2 B, 3 sync): it opens a bundle, or joins the open one in slot order (R169). -/
def Core.enter (k : Core) (slot now : Nat) : Core :=
  let k := match k.bundle with
    | some b => if b.slot < slot then k else k.closeBundle now
    | none => k
  match k.bundle with
  | some b => { k with bundle := some { b with slot := slot } }
  | none =>
    { k with bundle := some { pre := k.seq, taken := false, undo := [], undoWin := [], undoBad := [], undoSoft := [], slot := slot, opA := none, opB := none },
             seq := { k.seq with next := k.seq.pc + 1 } }

/-- The uncorrectable word that the fetch of a bundle meets when a slot opens it (R139, R165): bundle n stands at 0x270000 + 16n. -/
def Core.fetchFail (k : Core) (slot now : Nat) : Option Fail :=
  let joins : Bool := match k.bundle with | some b => b.slot < slot | none => false
  if joins then none
  else
    let k := k.enter slot now
    (k.badAt (0x270000 + 16 * k.seq.pc.toNat) 16).map fun x => ⟨15, x.2, x.1⟩

/-- The sequencer as it stood before the bundle (R169). -/
def Core.pre (k : Core) : Seq := match k.bundle with | some b => b.pre | none => k.seq

/-- What a slot does: go on, fail a check at issue, or hold issue. -/
inductive SlotRes where
  | go (k : Core)
  | bad (f : Fail)
  /-- the slot has gone on, and a unit outside the core answers with a fault. -/
  | late (k : Core) (f : Fail)
  | hold (k : Core) (h : Held)

/-- A slot that reads a register which an LD or LD64 of a bundle less than two cycles before has loaded is held until the result arrives; the
held cycles count as scoreboard waits (R169, R215). -/
def Core.ldWait (k : Core) (now : Nat) (rs : List (BitVec 5)) : Core :=
  let q := k.pre
  let c := cyclesOf (now - q.loadAt)
  if c < 2 ∧ rs.any q.loaded.contains then
    ({ k with
      bundle := k.bundle.map fun b => { b with pre := { b.pre with loaded := [] } }
      seq := if k.seq.loaded = q.loaded ∧ k.seq.loadAt = q.loadAt then { k.seq with loaded := [] } else k.seq } : Core).count 0 1 (2 - c)
  else k
/-- What a slot does that reads registers, once the results of loads have arrived. -/
def afterLoad (s : State) (rs : List (BitVec 5)) (f : Core → SlotRes) (k : Core) : SlotRes := f (k.ldWait s.now rs)

/-- Complete a slot that has gone on. -/
def Core.endSlot (k : Core) (last : Bool) (now : Nat) : Core := if last then k.closeBundle now else k

/-- Issue one slot: nothing happens at a core that cannot issue; a bundle with an uncorrectable word faults when it is fetched (R139); a
reserved bit fails the encoding check (R171). -/
def issue (s : State) (core : Nat) (slot opcode : Nat) (last rsv : Bool) (f : Core → SlotRes) : State :=
  let k := s.core core
  if !k.canIssue then s else
  match k.fetchFail slot s.now with
  | some e => stepFault (s.setCore core (k.enter slot s.now)) core e 0 true
  | none =>
  let k := k.enter slot s.now
  let res := if rsv then SlotRes.bad ⟨1, opcode, 0⟩ else f k
  match res with
  | .go k' => s.setCore core (k'.endSlot last s.now)
  | .bad e => stepFault (s.setCore core k) core e slot true
  | .late k' e => stepFault (s.setCore core k') core e slot false
  | .hold k' h => s.setCore core { k' with held := some h, heldLast := last, waitFrom := s.now }

/-- A taken branch (R167, R173). -/
def Core.branchTo (k : Core) (t : BitVec 12) : Core :=
  { k with seq := { k.seq with next := t }, bundle := k.bundle.map fun b => { b with taken := true } }

/-! ## Scalar accesses -/

/-- The access is in the bank range. -/
def inBanks (a n : Nat) : Bool := a + n ≤ 2621440
/-- The access is in the status page or a tile (R159). -/
def inWindow (a n : Nat) : Bool := 0x3EF000 ≤ a && a + n ≤ 0x400000
/-- The access touches the program window (R165). -/
def inProgram (a n : Nat) : Bool := 0x270000 ≤ a + n - 1 && a ≤ 0x27FFFF

/-- Bounds of a scalar access when it is presented (R138, R159, R165, R171). -/
def MemOp.fail : MemOp → Option Fail
  | .ld _ a => if a.toNat % 4 = 0 ∧ inBanks a.toNat 4 then none else some ⟨2, a.toNat, 0⟩
  | .st a _ => if a.toNat % 4 = 0 ∧ inBanks a.toNat 4 ∧ !inProgram a.toNat 4 then none else some ⟨2, a.toNat, 0⟩
  | .ld64 _ a => if a.toNat % 8 = 0 ∧ (inBanks a.toNat 8 ∨ inWindow a.toNat 8) then none else some ⟨2, a.toNat, 0⟩
  | .st64 a _ =>
    if a.toNat % 8 = 0 ∧ (inBanks a.toNat 8 ∧ !inProgram a.toNat 8 ∨ inWindow a.toNat 8) then none else some ⟨2, a.toNat, 0⟩
  | .dld _ a => if a.toNat % 16 = 0 ∧ inBanks a.toNat 16 then none else some ⟨2, a.toNat, 0⟩
  | .dst a _ => if a.toNat % 16 = 0 ∧ inBanks a.toNat 16 ∧ !inProgram a.toNat 16 then none else some ⟨2, a.toNat, 0⟩

/-- The uncorrectable word a scalar read meets (R139). -/
def MemOp.bad (k : Core) : MemOp → Option Fail
  | .ld _ a => (k.badAt a.toNat 4).map fun x => ⟨15, x.2, x.1⟩
  | .ld64 _ a => (k.badAt a.toNat 8).map fun x => ⟨15, x.2, x.1⟩
  | .dld _ a => (k.badAt a.toNat 16).map fun x => ⟨15, x.2, x.1⟩
  | _ => none

/-- Read 8 bytes of the banks, a tile or the status page. -/
def Core.read64 (k : Core) (a : Nat) : Nat := fieldAt (k.readLine (a / 2048) (a % 2048 / 64)) (a % 64) 8
/-- Keep what a store to the window is about to overwrite. -/
def Core.keepEntry (k : Core) (x : Nat × W64) : Core := { k with bundle := k.bundle.map fun b => { b with undoWin := x :: b.undoWin } }
/-- Keep the errors of the words that a store is about to renew. -/
def Core.keepMarks (k : Core) (p : Nat → Bool) : Core :=
  { k with bundle := k.bundle.map fun b => { b with undoBad := k.badWords.filter p ++ b.undoBad, undoSoft := k.softWords.filter p ++ b.undoSoft } }
/-- Write 8 bytes of a tile or the status page. -/
def Core.writeWin (k : Core) (a : Nat) (v : W64) : Core :=
  let e := (a - 0x3F0000) / 8
  let t := (a - 0x3EF000) / 8
  if 0x3F0000 ≤ a then ((k.keepEntry (e, k.accGet (e / 512) (e % 512))).keepMarks fun w => w = a / 8).accSet (e / 512) (e % 512) v
  else if t < 16 then (k.keepEntry (8192 + t, k.statGet t)).statWrite t v else k

/-- Write bytes of the banks, keeping in the open bundle what they overwrite (R206 step 1). -/
def Core.storeBytes (k : Core) (a : Nat) (b : Bytes) : Core :=
  let old := (List.range b.length).map fun i => (a + i, k.mem.get (a + i))
  let k := (k.keepMarks (coversWord a b.length)).putBytes a b
  { k with bundle := k.bundle.map fun x => { x with undo := old ++ x.undo } }

/-- Registers that a load has written, and when (R169). -/
def Seq.loads (q : Seq) (now : Nat) (rs : List (BitVec 5)) : Seq := { q with loaded := rs.filter (· ≠ 0), loadAt := now }

/-- Perform a scalar access (R171); a load counts the single-bit errors it corrects (R139, R160). -/
def MemOp.run (now : Nat) (k : Core) : MemOp → Core
  | .ld rd a =>
    let k := k.readSoft a.toNat 4
    { k with seq := (k.seq.setReg rd (BitVec.ofNat 32 (leNat (k.mem.read a.toNat 4)))).loads now [rd] }
  | .st a v => k.storeBytes a.toNat (leBytes 4 v.toNat)
  | .ld64 rd a =>
    let k := k.readSoft a.toNat 8
    let v := k.read64 a.toNat
    { k with seq := ((k.seq.setReg rd (BitVec.ofNat 32 v)).setReg (rd + 1) (BitVec.ofNat 32 (v / 2 ^ 32))).loads now [rd, rd + 1] }
  | .st64 a v => if inBanks a.toNat 8 then k.storeBytes a.toNat (leBytes 8 v.toNat) else k.writeWin a.toNat v
  | .dld d a => let k := k.readSoft a.toNat 16; { k with seq := k.seq.setDesc d (descKeep (BitVec.ofNat 128 (leNat (k.mem.read a.toNat 16)))) }
  | .dst a v => k.storeBytes a.toNat (leBytes 16 v.toNat)

/-- A scalar access at issue: bounds, scoreboard, uncorrectable words, then the access. -/
def memSlot (now : Nat) (m : MemOp) (k : Core) : SlotRes :=
  match m.fail with
  | some f => .bad f
  | none =>
    if k.memBlocked m then .hold k (.mem m)
    else match m.bad k with
      | some f => .bad f
      | none => .go (m.run now k)

end Sys2Proof.Machine
end

