-- ==== Sys2Proof/Machine/Mesh.lean ====
section
/-!
DEFINITION. The mesh: holes, permitted areas, routing with detours, combining of reductions, injection, and the sending of requests
from the outbound queues (R181 to R190, R216 to R249).
-/
namespace Sys2Proof.Machine

/-! ## Regions and areas -/

/-- The tenant region a core lies in: the committed rectangle that holds it (R242, R247). -/
def ownerOf (s : State) (c : Nat) : Option Nat :=
  (s.regions.find? fun e => e.2.state ≠ 0 && inRect e.2.nw e.2.se c).map (·.1)

/-- The corridor of a region, as packed corners; none when it is empty (R244). -/
def corridor (r : Region) : Option (W32 × W32) :=
  let c0 := r.nw.toNat / 65536; let r0 := r.nw.toNat % 65536
  let c1 := r.se.toNat / 65536; let r1 := r.se.toNat % 65536
  let pk (a b : Nat) : W32 := BitVec.ofNat 32 (a * 65536 + b)
  match r.exit with
  | 1 => if r0 = 0 then none else some (pk c0 0, pk c1 (r0 - 1))
  | 2 => if c1 = 127 then none else some (pk (c1 + 1) r0, pk 127 r1)
  | 3 => if r1 = 149 then none else some (pk c0 (r1 + 1), pk c1 149)
  | 4 => if c0 = 0 then none else some (pk 0 r0, pk (c0 - 1) r1)
  | _ => none

/-- The exit router in line with a core (R245). -/
def exitRouter (edge c : Nat) : Option Nat :=
  match edge with
  | 1 => some (coreKey (coreCol c) 0)
  | 2 => some (coreKey 127 (coreRow c))
  | 3 => some (coreKey (coreCol c) 149)
  | 4 => some (coreKey 0 (coreRow c))
  | _ => none

/-- Whether a region meets a field (R193, R665). -/
def regionInField (r : Region) (f : Nat) : Bool :=
  let c0 := f % 8 * 16; let r0 := f / 8 * 25
  r.nw.toNat / 65536 ≤ c0 + 15 && c0 ≤ r.se.toNat / 65536 && r.nw.toNat % 65536 ≤ r0 + 24 && r0 ≤ r.se.toNat % 65536

/-- A power region's headers are open or are closing, or its isolation is not released yet: its routers do not forward (R491, R497). -/
def regionDark (now : Nat) (p : PRegion) : Bool :=
  match p.state with
  | .dark => true
  | .lost => true
  | .waking => match p.wake with | some w => w.fromDark && !(w.ramped && w.joinAt ≤ now) | none => true
  | _ => false

/-- The routers of a power region wait for its wake from DOZE (R240, R491). -/
def routersWait (p : PRegion) : Bool :=
  match p.state with
  | .doze => true
  | .waking => match p.wake with | some w => !w.fromDark | none => false
  | _ => false

/-- A hole: a router that does not forward (R227): failed at factory, dead in service (fence causes 4 and 5), or in a dark region. -/
def isHole (s : State) (c : Nat) : Bool :=
  s.factory.holes.contains c || (s.core c).fence = some 4 || (s.core c).fence = some 5 ||
    (s.core c).router.dead || regionDark s.now (s.preg (powerOf c))

/-- A usable core: present, not excluded by the factory, not fenced (R19, R573). -/
def usable (s : State) (c : Nat) : Bool :=
  coreExists c && !s.factory.unusable.contains c && (s.core c).fence.isNone

/-- A packet of the interface kinds. -/
def isIface (op : Nat) : Bool := op = 0xB || op = 0xC

/-- The permitted area of a packet (R244, R247). -/
def permitted (s : State) (p : Packet) (c : Nat) : Bool :=
  p.region = 127 || (let r := s.region p.region
    r.state ≠ 0 && (inRect r.nw r.se c || (isIface p.op && match corridor r with | some (a, b) => inRect a b c | none => false)))

/-- The virtual channel of a packet (R221); on it depends an interface packet's class. -/
def vcOf (p : Packet) : Nat :=
  match p.op with
  | 3 => 3 | 5 => 3 | 6 => 3 | 4 => 1 | 7 => 2
  | 0xB => if p.length = 0 then 0 else if p.cls = 2 then 1 else 3
  | 0xC => if p.cls = 2 then 1 else 3
  | _ => 0

/-! ## Flits (R217, R218, R220) -/

/-- The header that the head flit carries (R220); a core is packed as its column, then its row. -/
def Packet.head (p : Packet) : BitVec 256 :=
  BitVec.ofNat 256 (p.op % 16 * 2 ^ 252 + p.region % 128 * 2 ^ 245 + p.detour % 4 * 2 ^ 243 + coreByteId p.dest * 2 ^ 224 +
    coreByteId p.src * 2 ^ 208 + p.length % 256 * 2 ^ 200 + p.count % 65536 * 2 ^ 184 + p.id % 512 * 2 ^ 175 + p.line % 32 * 2 ^ 170 +
    p.a % 4 * 2 ^ 168 + p.tag.toNat * 2 ^ 128 + p.body.toNat)

/-- The flits of a packet: its head, then 32 bytes of its payload each (R218). -/
def Packet.flits (p : Packet) : List (BitVec 256) :=
  p.head :: (List.range p.length).map fun i => BitVec.ofNat 256 (fieldAt p.payload (32 * i) 32)

/-- The type of a packet's flit i: head, body, or tail for its last payload flit (R217, R218). -/
def Packet.flitType (p : Packet) (i : Nat) : BitVec 2 := if i = 0 then 1 else if i = p.length then 3 else 2

/-- The sideband of a packet's flit i (R217): the check bits of its four words, lowest word lowest; the channel; the type; Poison on a
payload flit from the first one with an uncorrectable error on (R219). -/
def Packet.sideband (p : Packet) (i : Nat) : BitVec 38 :=
  let f := nth p.flits i 0
  let check := (List.range 4).foldl (fun v w => v + (Config.secded (BitVec.ofNat 64 (f.toNat / 2 ^ (64 * w)))).toNat * 2 ^ (8 * w)) 0
  let poison := match p.poison with | some j => i ≠ 0 && j ≤ i | none => false
  BitVec.ofNat 38 (check * 2 ^ 6 + vcOf p * 2 ^ 4 + (p.flitType i).toNat * 2 ^ 2 + if poison then 2 else 0)

/-! ## Routing -/

/-- Neighbours; the edge of the wafer has none. -/
def north (c : Nat) : Option Nat := if coreRow c = 0 then none else some (c - 128)
def south (c : Nat) : Option Nat := if coreRow c < 149 then some (c + 128) else none
def west (c : Nat) : Option Nat := if coreCol c = 0 then none else some (c - 1)
def east (c : Nat) : Option Nat := if coreCol c < 127 then some (c + 1) else none

/-- One hop: on to a router, or discarded. -/
inductive Hop where
  | go (dst detour : Nat) (col side : Bool)
  | drop
deriving DecidableEq, Repr

/-- Where a packet at a router goes next (R225, R229 to R231, R248).  DESIGN CHOICE: R230 gives no next hop for a packet whose Detour is not
zero while it stands in its destination row; it goes on under R225, with Detour cleared. -/
def nextHop (s : State) (p : Packet) (loc : Nat) : Hop :=
  let free (n : Option Nat) : Bool := match n with | some c => !isHole s c && permitted s p c | none => false
  let toRow := if coreRow loc < coreRow p.dest then south loc else north loc
  let step (n : Option Nat) (d : Nat) (col side : Bool) : Hop :=
    match n with | some c => if free (some c) then .go c d col side else .drop | none => .drop
  let alongCol (d : Nat) : Hop :=
    match toRow with
    | some c =>
      if isHole s c then (if free (east loc) then step (east loc) 2 true true else step (west loc) 2 true true)
      else step (some c) (d - 1) true false
    | none => .drop
  if p.detour ≠ 0 ∧ coreRow loc ≠ coreRow p.dest then alongCol p.detour
  else if coreCol loc ≠ coreCol p.dest then
    let nxt := if coreCol loc < coreCol p.dest then east loc else west loc
    match nxt with
    | some c =>
      if isHole s c then
        if coreRow loc ≠ coreRow p.dest then step toRow 0 false true
        else if free (south loc) then step (south loc) 0 false true else step (north loc) 0 false true
      else step (some c) 0 false false
    | none => .drop
  else alongCol 0

/-- Follow a route to its end with a bound on hops; true when it arrives (R231: a revisit in the same movement is a loop). -/
def routeGo (s : State) : Nat → Packet → Nat → Bool
  | 0, _, _ => false
  | n + 1, p, loc =>
    if loc = p.dest then true
    else match nextHop s p loc with
      | .go c d _ _ => routeGo s n { p with detour := d } c
      | .drop => false

/-- A blank packet. -/
def blankPacket (op region dest src : Nat) : Packet :=
  { op := op, region := region, detour := 0, dest := dest, src := src, length := 0, count := 0, id := 0, line := 0, a := 0,
    cls := 0, reqLines := 0, tag := 0, body := 0, payload := [], soft := 0, poison := none, badHead := false, badFrom := none, svc := false,
    mline := none, issuer := none }

/-- A route of a region between two routers arrives; a route of over 4 × 19,200 hops has revisited a router in one movement. -/
def routeOk (s : State) (op region src dest : Nat) : Bool := routeGo s 76800 (blankPacket op region dest src) src

/-! ## Discards -/

/-- Discard a packet at a router: counted, and the source core's step faults with cause 8 (R231, R246, R248, R249). -/
def discardFault (s : State) (loc : Nat) (p : Packet) : State :=
  let s := s.updCore loc fun k => k.count 16 6 1
  if p.region = 127 then s else stepFaultFrom s p.src ⟨8, coreByteId p.dest, 0⟩ p.issuer

/-! ## Reductions (R232, R233) -/

/-- IEEE 754 binary32 addition, to nearest with ties to even; the flag tells an overflow to infinity. -/
def ieeeAdd (a b : W32) : W32 × Bool :=
  let isNan (x : W32) : Bool := 0x7F800000 < x.toNat % 2 ^ 31
  let isInf (x : W32) : Bool := x.toNat % 2 ^ 31 = 0x7F800000
  if isNan a || isNan b || (isInf a && isInf b && a ≠ b) then (Config.nanOf a b, false)
  else if isInf a then (a, false) else if isInf b then (b, false)
  else if a = 0x80000000 ∧ b = 0x80000000 then (a, false)
  else
    let (r, c) := Flt.fp32.of ((f32val a).add (f32val b))
    if c then (BitVec.ofNat 32 (if 2 ^ 31 ≤ r then 0xFF800000 else 0x7F800000), true) else (BitVec.ofNat 32 r, false)

/-- Two's-complement addition of 64-bit words; the flag tells that the true sum leaves the range. -/
def wrapAdd (a b : Nat) : Nat × Bool :=
  let t := signedOf 64 a + signedOf 64 b
  ((a + b) % 2 ^ 64, t < -2 ^ 63 || 2 ^ 63 ≤ t)

/-- Add an arriving line into a waiting one: the waiting value is the first operand; counts overflows. -/
def addLines (ar : Nat) (w x : Bytes) : Bytes × Nat :=
  if ar = 0 then
    let r := List.zipWith (fun a b => wrapAdd (leNat a) (leNat b)) (chunks 8 w) (chunks 8 x)
    (r.flatMap fun v => leBytes 8 v.1, (r.filter (·.2)).length)
  else
    let r := List.zipWith (fun a b => ieeeAdd (BitVec.ofNat 32 (leNat a)) (BitVec.ofNat 32 (leNat b))) (chunks 4 w) (chunks 4 x)
    (r.flatMap fun v => leBytes 4 v.1.toNat, (r.filter (·.2)).length)

/-- Two reduction packets have the same key (R232). -/
def sameKey (p q : Packet) : Bool :=
  p.op = 7 && q.op = 7 && p.region = q.region && p.dest = q.dest && p.id = q.id && p.line = q.line && p.a = q.a

/-- The neighbour toward whose output queue a packet at a router goes. -/
def outPort (s : State) (p : Packet) (loc : Nat) : Option Nat := match nextHop s p loc with | .go c _ _ _ => some c | .drop => none

/-- The earlier of two payload flits from which on something holds. -/
def firstFlit (a b : Option Nat) : Option Nat := match a, b with | some i, some j => some (min i j) | some i, none => some i | none, j => j

/-- Two packets of one key combined: counts and lines are added, and damage of either stays (R219, R232). -/
def Packet.combine (w p : Packet) (line : Bytes) : Packet :=
  { w with
    payload := line, count := w.count + p.count, soft := w.soft + p.soft, poison := firstFlit w.poison p.poison
    badFrom := firstFlit w.badFrom p.badFrom, badHead := w.badHead || p.badHead }

/-- Put a packet at a router; a reduction combines with one of its key waiting unsent in the same output queue, unless it has arrived
(R232). -/
def placeAt (s : State) (loc : Nat) (p : Packet) (col : Bool) : State :=
  match if loc = p.dest then none
    else s.mesh.findIdx? fun f => f.loc = loc && sameKey f.pkt p && outPort s f.pkt loc = outPort s p loc with
  | some i =>
    match s.mesh[i]? with
    | some f =>
      let (pay, ov) := addLines p.a f.pkt.payload p.payload
      let s := s.updCore loc fun k => k.count 16 4 (1 + ov)
      { s with mesh := s.mesh.set i { f with pkt := f.pkt.combine p pay } }
    | none => s
  | none => { s with mesh := s.mesh ++ [{ loc := loc, pkt := p, colMove := col, since := s.now }] }

/-- A core's packet enters the mesh: its router stamps the region and checks the destination (R247, R248). -/
def inject (s : State) (c : Nat) (p : Packet) : State :=
  let r := (ownerOf s c).getD 64
  let p := { p with region := r, src := c }
  if r < 64 ∧ permitted s p p.dest ∧ !(s.region r).forbidden.contains (c, p.dest) then placeAt s c p false
  else discardFault s c p

/-- A packet of the engine's load, fault and dump services (R247). -/
def injectSvc (s : State) (c : Nat) (p : Packet) : State := placeAt s c { p with region := 127, src := c, svc := true } false

/-- A packet of a serving controller, entered at its core's own router, which stamps the region's id as for any packet (R247, R348). -/
def injectServing (s : State) (c : Nat) (p : Packet) : State :=
  placeAt s c { p with region := (ownerOf s c).getD 64, src := c, svc := true } false

/-! ## Completions -/

/-- Hold lines of a read in its reserved entries, from its i-th entry on; none is ready before the read is complete, since a read that
fails produces no data entries (R190). -/
def fillIq : List IqEntry → Nat → Nat → List Bytes → List IqEntry
  | [], _, _, _ => []
  | e :: t, _, _, [] => e :: t
  | e :: t, req, i, b :: bs =>
    if e.req = req ∧ !e.filled then
      (match i with
       | 0 => { e with data := b } :: fillIq t req 0 bs
       | i + 1 => e :: fillIq t req i (b :: bs))
    else e :: fillIq t req i (b :: bs)

/-- All lines of a read have come: its entries are filled (R189). -/
def readyIq (l : List IqEntry) (req : Nat) : List IqEntry := l.map fun e => if e.req = req then { e with filled := true } else e

/-- The await of a queue and position. -/
def Core.await? (k : Core) (q pos : Nat) : Option Await := k.awaits.find? fun a => a.q = q && a.req = pos
def Core.dropAwait (k : Core) (q pos : Nat) : Core :=
  { k with awaits := k.awaits.filter fun a => !(a.q = q && a.req = pos) }
def Core.putAwait (k : Core) (a : Await) : Core :=
  { k with awaits := k.awaits.map fun b => if b.q = a.q && b.req = a.req then a else b }

/-- Aux0 of the fault a failed request causes (R588). -/
def failAux (a : Await) (status : Nat) : Nat :=
  if status = 1 then coreByteId a.home else status * 2 ^ 24 + a.tag.toNat % 2 ^ 24

/-- Fill the first waiting entry of a request with a completion of a given Status. -/
def failIq (req status aux : Nat) (b : Bytes) : List IqEntry → List IqEntry
  | [] => []
  | e :: t =>
    if e.req = req ∧ !e.filled then { e with filled := true, data := b, status := status, aux0 := aux } :: t
    else e :: failIq req status aux b t

/-- A failed completion that has become ready faults the step: cause 14 for Status 1, else 12 (R190). -/
def readyFault (s : State) (c q : Nat) : State :=
  match (((s.core c).iq q).takeWhile (·.filled)).find? (·.status ≠ 0) with
  | some e => stepFaultFrom s c ⟨if e.status = 1 then 14 else 12, e.aux0, 0⟩ (some e.issuer)
  | none => s

/-- A request is complete (R189, R190): its completion entry fills, its signal is buffered (R196), its failure faults the step
once ready. -/
def complete (s : State) (c : Nat) (a : Await) (status : Nat) : State :=
  let k := (s.core c).dropAwait a.q a.req
  let entry := complEntry s.almanac a.tag a.lines status a.cls
  let k := if !a.write && !a.toWalk && status = 0 then k
    else k.setIq a.q (failIq a.req status (if status = 0 then 0 else failAux a status) entry (k.iq a.q))
  let k := match a.sig with
    | some i =>
      if status = 0 ∧ a.cls ≠ 2 then { k with seq := { k.seq with sigBuf := k.seq.sigBuf ++ [⟨i, 1, a.num, a.issuer⟩] } } else k
    | none => k
  readyFault (s.setCore c k) c a.q

/-! ## Sending (R182, R183, R186) -/

/-- The least position of a queue that no outstanding request holds (R220). -/
def freePos (k : Core) (q : Nat) : Nat :=
  (leastBelow 32 fun p => !(k.awaits.any fun a => a.q = q && a.req = p)).getD 0

/-- The Tag field of a request (R220). -/
def reqTag (q pos : Nat) : W32 := BitVec.ofNat 32 (q * 2 ^ 29 + pos * 2 ^ 24)
def tagQueue (t : W32) : Nat := t.toNat / 2 ^ 29
def tagPos (t : W32) : Nat := t.toNat / 2 ^ 24 % 32

/-- The one-line walk of line i of a walk. -/
def lineWalk (w : Walk) (i : Nat) : Desc :=
  let l := nth w.lines i (0, 0)
  descOf l.1.toNat l.2 1 1 0 0 0 0 w.fmt

/-- A packet from core c toward core d. -/
def corePacket (op d : Nat) (tag : W32) (body : BitVec 128) (data : List Bytes) : Packet :=
  { blankPacket op 0 d 0 with tag := tag, body := body, length := 2 * data.length, payload := data.flatten }

/-- The packets of a request that is being sent, addressed by their core's exit for the interface (R187, R441, R603). -/
def requestPackets (s : State) (c : Nat) (r : Req) (tag : W32) (data : List Bytes) : List Packet :=
  let edge := match ownerOf s c with | some n => (s.region n).exit | none => 0
  let out := (exitRouter edge c).getD 19200
  match r.cls with
  | 0 => if r.op = 1 then [corePacket 1 r.home tag r.remote []] else [corePacket 5 r.home tag r.remote data]
  | 1 =>
    if r.op = 1 then
      [{ corePacket 0xB out tag (BitVec.ofNat 128 (r.addr * 2 ^ 64 + 2 ^ 56 + r.linesN % 256 * 2 ^ 48)) [] with
        cls := 1, reqLines := r.linesN }]
    else (chunks 32 data).zipIdx.map fun x =>
      { corePacket 0xB out tag (BitVec.ofNat 128 ((r.addr + 2048 * x.2) * 2 ^ 64 + 2 * 2 ^ 56 + x.1.length * 2 ^ 48)) x.1 with
        cls := 1, reqLines := r.linesN }
  | _ =>
    let parts := chunks 31 data
    let epoch := match ownerOf s c with
      | some n => (match (s.region n).img with | some i => i.epoch | none => 0)
      | none => 0
    parts.zipIdx.map fun x =>
      let desc := leBytes 16 r.remote.toNat ++ List.replicate 48 0
      let sig := if x.2 + 1 = parts.length ∧ r.sigEn then 2 ^ 63 + r.sync % 2 ^ 15 * 2 ^ 48 else 0
      let body := r.engine * 2 ^ 113 + coreByteId r.home * 2 ^ 64 + sig + 31 * x.2 % 65536 * 2 ^ 32 + coreByteId c * 2 ^ 16 +
        tag.toNat / 2 ^ 24 % 256 * 2 ^ 8 + epoch % 256
      { corePacket 0xB out tag (BitVec.ofNat 128 body) (desc :: x.1) with cls := 2, reqLines := r.lines }

/-- Send one packet after another. -/
def injectAll (c : Nat) : List Packet → State → State
  | [], s => s
  | p :: t, s => injectAll c t (inject s c p)

/-- Send the head of an outbound queue if it can be sent (R183); none when it must wait. -/
def sendHead (s : State) (c q : Nat) : Option State :=
  let k := s.core c
  match k.oq q with
  | [] => none
  | e :: rest =>
    if e.nred then
      let p := { corePacket 7 e.dest 0 0 [e.line] with count := 1, id := e.id, line := e.lineNo, a := e.a, issuer := some e.issuer }
      some (inject (s.setCore c (k.setOq q rest)) c p)
    else
      let r := reqOf e.line
      let merge := r.op = 3
      let w := walkOf r.remote
      let n := if merge then w.count else r.lines
      let need := if r.op = 1 ∧ !r.toWalk then n else 1
      let src := if r.op = 2 then (walkOf r.localW).lines else []
      if 32 < (k.iq q).length + need then none
      else match if k.run = .issuing then lineFail k src else none with
      | some f => some (stepFaultFrom s c f (some e.issuer))
      | none =>
        let pos := freePos k q
        let tag := reqTag q pos
        let a : Await := {
          req := pos, q := q, num := e.num, cls := r.cls, write := r.op = 2, merge := merge, toWalk := merge || r.toWalk,
          walk := r.localW, source := r.remote, lines := n, left := n, tag := r.tag, sig := if r.sigEn then some r.sync else none, status := 0, home := r.home, issuer := e.issuer }
        let data := if r.op = 2 then k.readWalk (walkOf r.localW) else []
        let k := k.readSoftLines src
        let k := { (k.setOq q rest).setIq q (k.iq q ++ List.replicate need ⟨pos, false, [], 0, 0, e.issuer⟩) with
          awaits := k.awaits ++ [a], holds := k.holds.filter fun h => h.num ≠ e.num }
        let s := (s.setCore c k).updCore c fun k => k.count 12 6 1
        if merge then some (inject s c { corePacket 2 r.home tag (lineWalk w 0) [] with line := 0, issuer := some e.issuer })
        else some (injectAll c ((requestPackets s c r tag data).map fun p => { p with issuer := some e.issuer }) s)

/-- Send from one queue until its head must wait. -/
def pumpQueue : Nat → State → Nat → Nat → State
  | 0, s, _, _ => s
  | n + 1, s, c, q => match sendHead s c q with | some s' => pumpQueue n s' c q | none => s

/-- Send what can be sent from every outbound queue of a core. -/
def pump (s : State) (c : Nat) : State := (List.range 8).foldl (fun s q => pumpQueue 33 s c q) s

end Sys2Proof.Machine
end

