-- ==== Sys2Proof/Machine/Scalar.lean ====
section
/-!
DEFINITION. The scalar slot's instructions (R171, R173, R201): each reads the registers as they stood before its bundle (R169) and
writes the sequencer; a check that fails at issue faults the step (R205).
-/
namespace Sys2Proof.Machine

/-- The answer of every command that changes the machine without stopping it. -/
abbrev Res := Host.Outcome State Fault Refusal

/-- A scalar result from two registers. -/
def aluR (p : Place) (opcode : Nat) (rd rs1 rs2 : BitVec 5) (f : W32 → W32 → W32) (s : State) : State :=
  issue s p.core 0 opcode p.last p.rsv <| afterLoad s [rs1, rs2] fun k =>
    .go { k with seq := k.seq.setReg rd (f (k.pre.reg rs1) (k.pre.reg rs2)) }

/-- A scalar result from a register and the sign-extended immediate. -/
def aluI (p : Place) (opcode : Nat) (rd rs1 : BitVec 5) (imm : BitVec 14) (f : W32 → W32 → W32) (s : State) : State :=
  issue s p.core 0 opcode p.last p.rsv <| afterLoad s [rs1] fun k =>
    .go { k with seq := k.seq.setReg rd (f (k.pre.reg rs1) (imm.signExtend 32)) }

/-- The target of a branch: its offset counts bundles from the branch bundle (R174). -/
def target (k : Core) (off : BitVec 14) : BitVec 12 := k.seq.pc + off.truncate 12

/-- A conditional branch. -/
def branch (p : Place) (opcode : Nat) (rs1 rs2 : BitVec 5) (off : BitVec 14) (f : W32 → W32 → Bool) (s : State) : State :=
  issue s p.core 0 opcode p.last p.rsv <| afterLoad s [rs1, rs2] fun k =>
    .go (if f (k.pre.reg rs1) (k.pre.reg rs2) then k.branchTo (target k off) else k)

/-- The address rs1 + imm14 of a scalar access. -/
def scalarAddr (k : Core) (rs1 : BitVec 5) (imm : BitVec 14) : W32 := k.pre.reg rs1 + imm.signExtend 32
/-- The address rs1 + 16·imm15 of a descriptor access. -/
def descAddr (k : Core) (rs1 : BitVec 5) (imm : BitVec 15) : W32 := k.pre.reg rs1 + (imm.signExtend 32) * 16

/-- ADD: rd = rs1 + rs2 modulo 2^32 (R171). -/
def execAdd (p : Place) (rd rs1 rs2 : BitVec 5) (s : State) : Res :=
  .next (aluR p 0x01 rd rs1 rs2 (fun a b => a + b) s)

/-- SUB: rd = rs1 - rs2 (R171). -/
def execSub (p : Place) (rd rs1 rs2 : BitVec 5) (s : State) : Res :=
  .next (aluR p 0x02 rd rs1 rs2 (fun a b => a - b) s)

/-- AND: bitwise and (R171). -/
def execAnd (p : Place) (rd rs1 rs2 : BitVec 5) (s : State) : Res :=
  .next (aluR p 0x03 rd rs1 rs2 (fun a b => a &&& b) s)

/-- OR: bitwise or (R171). -/
def execOr (p : Place) (rd rs1 rs2 : BitVec 5) (s : State) : Res :=
  .next (aluR p 0x04 rd rs1 rs2 (fun a b => a ||| b) s)

/-- XOR: bitwise exclusive or (R171). -/
def execXor (p : Place) (rd rs1 rs2 : BitVec 5) (s : State) : Res :=
  .next (aluR p 0x05 rd rs1 rs2 (fun a b => a ^^^ b) s)

/-- SHL: rd = rs1 << rs2[4:0] (R171). -/
def execShl (p : Place) (rd rs1 rs2 : BitVec 5) (s : State) : Res :=
  .next (aluR p 0x06 rd rs1 rs2 (fun a b => a <<< (b.toNat % 32)) s)

/-- SHR: logical right shift by rs2[4:0] (R171). -/
def execShr (p : Place) (rd rs1 rs2 : BitVec 5) (s : State) : Res :=
  .next (aluR p 0x07 rd rs1 rs2 (fun a b => a >>> (b.toNat % 32)) s)

/-- SRA: arithmetic right shift by rs2[4:0] (R171). -/
def execSra (p : Place) (rd rs1 rs2 : BitVec 5) (s : State) : Res :=
  .next (aluR p 0x08 rd rs1 rs2 (fun a b => a.sshiftRight (b.toNat % 32)) s)

/-- MUL: low 32 bits of rs1 × rs2 (R171). -/
def execMul (p : Place) (rd rs1 rs2 : BitVec 5) (s : State) : Res :=
  .next (aluR p 0x09 rd rs1 rs2 (fun a b => a * b) s)

/-- SLT: signed less-than (R171). -/
def execSlt (p : Place) (rd rs1 rs2 : BitVec 5) (s : State) : Res :=
  .next (aluR p 0x0A rd rs1 rs2 (fun a b => if a.slt b then 1 else 0) s)

/-- SLTU: unsigned less-than (R171). -/
def execSltu (p : Place) (rd rs1 rs2 : BitVec 5) (s : State) : Res :=
  .next (aluR p 0x0B rd rs1 rs2 (fun a b => if a.ult b then 1 else 0) s)

/-- ADDI: rd = rs1 + imm14 (R171). -/
def execAddi (p : Place) (rd rs1 : BitVec 5) (imm : BitVec 14) (s : State) : Res :=
  .next (aluI p 0x10 rd rs1 imm (fun a b => a + b) s)

/-- ANDI: rd = rs1 and imm14 (R171). -/
def execAndi (p : Place) (rd rs1 : BitVec 5) (imm : BitVec 14) (s : State) : Res :=
  .next (aluI p 0x11 rd rs1 imm (fun a b => a &&& b) s)

/-- ORI: rd = rs1 or imm14 (R171). -/
def execOri (p : Place) (rd rs1 : BitVec 5) (imm : BitVec 14) (s : State) : Res :=
  .next (aluI p 0x12 rd rs1 imm (fun a b => a ||| b) s)

/-- XORI: rd = rs1 xor imm14 (R171). -/
def execXori (p : Place) (rd rs1 : BitVec 5) (imm : BitVec 14) (s : State) : Res :=
  .next (aluI p 0x13 rd rs1 imm (fun a b => a ^^^ b) s)

/-- SHLI: rd = rs1 << imm14[4:0] (R171). -/
def execShli (p : Place) (rd rs1 : BitVec 5) (imm : BitVec 14) (s : State) : Res :=
  .next (aluI p 0x14 rd rs1 imm (fun a b => a <<< (b.toNat % 32)) s)

/-- SHRI: logical right shift by imm14[4:0] (R171). -/
def execShri (p : Place) (rd rs1 : BitVec 5) (imm : BitVec 14) (s : State) : Res :=
  .next (aluI p 0x15 rd rs1 imm (fun a b => a >>> (b.toNat % 32)) s)

/-- SRAI: arithmetic right shift by imm14[4:0] (R171). -/
def execSrai (p : Place) (rd rs1 : BitVec 5) (imm : BitVec 14) (s : State) : Res :=
  .next (aluI p 0x16 rd rs1 imm (fun a b => a.sshiftRight (b.toNat % 32)) s)

/-- LUI: rd = imm19 << 13 (R171). -/
def execLui (p : Place) (rd : BitVec 5) (imm : BitVec 19) (s : State) : Res :=
  .next (issue s p.core 0 0x17 p.last p.rsv fun k => .go { k with seq := k.seq.setReg rd (imm.zeroExtend 32 <<< 13) })

/-- LD: the aligned 32-bit word at rs1 + imm14 in the bank range (R171). -/
def execLd (p : Place) (rd rs1 : BitVec 5) (imm : BitVec 14) (s : State) : Res :=
  .next (issue s p.core 0 0x20 p.last p.rsv <| afterLoad s [rs1] fun k => memSlot s.now (.ld rd (scalarAddr k rs1 imm)) k)

/-- ST: the word at rs1 + imm14 takes rs2 (R171). -/
def execSt (p : Place) (rs2 rs1 : BitVec 5) (imm : BitVec 14) (s : State) : Res :=
  .next (issue s p.core 0 0x21 p.last p.rsv <| afterLoad s [rs1, rs2] fun k => memSlot s.now (.st (scalarAddr k rs1 imm) (k.pre.reg rs2)) k)

/-- LD64: rd and rd + 1 take 8 aligned bytes of the banks or the accumulator window; an odd rd fails the encoding check. -/
def execLd64 (p : Place) (rd rs1 : BitVec 5) (imm : BitVec 14) (s : State) : Res :=
  .next (issue s p.core 0 0x22 p.last p.rsv <| afterLoad s [rs1] fun k =>
    if rd.getLsbD 0 then .bad ⟨1, 0x22, 0⟩ else memSlot s.now (.ld64 rd (scalarAddr k rs1 imm)) k)

/-- ST64: 8 aligned bytes take rs2 and rs2 + 1; an odd rs2 fails the encoding check. -/
def execSt64 (p : Place) (rs2 rs1 : BitVec 5) (imm : BitVec 14) (s : State) : Res :=
  .next (issue s p.core 0 0x23 p.last p.rsv <| afterLoad s [rs1, rs2, rs2 + 1] fun k =>
    if rs2.getLsbD 0 then .bad ⟨1, 0x23, 0⟩
    else memSlot s.now (.st64 (scalarAddr k rs1 imm) (k.pre.reg (rs2 + 1) ++ k.pre.reg rs2)) k)

/-- BEQ: branch if rs1 = rs2 (R171, R174). -/
def execBeq (p : Place) (rs1 rs2 : BitVec 5) (off : BitVec 14) (s : State) : Res :=
  .next (branch p 0x30 rs1 rs2 off (fun a b => decide (a = b)) s)

/-- BNE: branch if rs1 ≠ rs2 (R171, R174). -/
def execBne (p : Place) (rs1 rs2 : BitVec 5) (off : BitVec 14) (s : State) : Res :=
  .next (branch p 0x31 rs1 rs2 off (fun a b => decide (a ≠ b)) s)

/-- BLT: branch if rs1 < rs2 signed (R171, R174). -/
def execBlt (p : Place) (rs1 rs2 : BitVec 5) (off : BitVec 14) (s : State) : Res :=
  .next (branch p 0x32 rs1 rs2 off (fun a b => a.slt b) s)

/-- BGE: branch if rs1 ≥ rs2 signed (R171, R174). -/
def execBge (p : Place) (rs1 rs2 : BitVec 5) (off : BitVec 14) (s : State) : Res :=
  .next (branch p 0x33 rs1 rs2 off (fun a b => !(a.slt b)) s)

/-- BLTU: branch if rs1 < rs2 unsigned (R171, R174). -/
def execBltu (p : Place) (rs1 rs2 : BitVec 5) (off : BitVec 14) (s : State) : Res :=
  .next (branch p 0x34 rs1 rs2 off (fun a b => a.ult b) s)

/-- BGEU: branch if rs1 ≥ rs2 unsigned (R171, R174). -/
def execBgeu (p : Place) (rs1 rs2 : BitVec 5) (off : BitVec 14) (s : State) : Res :=
  .next (branch p 0x35 rs1 rs2 off (fun a b => !(a.ult b)) s)

/-- JMP: jump by off14; rs1 and rs2 are 0, and other values fail the encoding check (R171). -/
def execJmp (p : Place) (rs1 rs2 : BitVec 5) (off : BitVec 14) (s : State) : Res :=
  .next (issue s p.core 0 0x36 p.last p.rsv fun k =>
    if rs1 ≠ 0 ∨ rs2 ≠ 0 then .bad ⟨1, 0x36, 0⟩ else .go (k.branchTo (target k off)))

/-- JAL: rd = PC + 1, then jump by off14 (R171). -/
def execJal (p : Place) (rd : BitVec 5) (off : BitVec 14) (s : State) : Res :=
  .next (issue s p.core 0 0x37 p.last p.rsv fun k =>
    .go (({ k with seq := k.seq.setReg rd ((k.seq.pc + 1).zeroExtend 32) } : Core).branchTo (target k off)))

/-- JR: PC = rs1[11:0] (R171). -/
def execJr (p : Place) (rs1 : BitVec 5) (s : State) : Res :=
  .next (issue s p.core 0 0x38 p.last p.rsv <| afterLoad s [rs1] fun k => .go (k.branchTo ((k.pre.reg rs1).truncate 12)))

/-- LOOP: repeat the bundles from the next one to PC + off14 rs1 times; a count of 0 skips them; an offset below 1, a last bundle at
or beyond BundleCount, or a third nesting level fails the encoding check (R173). -/
def execLoop (p : Place) (rs1 : BitVec 5) (off : BitVec 14) (s : State) : Res :=
  .next (issue s p.core 0 0x39 p.last p.rsv <| afterLoad s [rs1] fun k =>
    let n := off.toInt
    let last := k.seq.pc.toNat + n.toNat
    if n < 1 ∨ k.prog.bundles ≤ last ∨ 2 ≤ k.seq.loops.length then .bad ⟨1, 0x39, 0⟩
    else
      let c := (k.pre.reg rs1).toNat
      if c = 0 then .go { k with seq := { k.seq with next := BitVec.ofNat 12 (last + 1) } }
      else .go { k with seq := { k.seq with loops := ⟨k.seq.pc.toNat + 1, last, c⟩ :: k.seq.loops } })

/-- DLD: d = 16 bytes at rs1 + 16·imm15, aligned in the bank range (R171). -/
def execDld (p : Place) (d : BitVec 4) (rs1 : BitVec 5) (imm : BitVec 15) (s : State) : Res :=
  .next (issue s p.core 0 0x40 p.last p.rsv <| afterLoad s [rs1] fun k => memSlot s.now (.dld d (descAddr k rs1 imm)) k)

/-- DST: 16 bytes at rs1 + 16·imm15 take d (R171). -/
def execDst (p : Place) (d : BitVec 4) (rs1 : BitVec 5) (imm : BitVec 15) (s : State) : Res :=
  .next (issue s p.core 0 0x41 p.last p.rsv <| afterLoad s [rs1] fun k => memSlot s.now (.dst (descAddr k rs1 imm) (k.pre.desc d)) k)

/-- BaseRow of a descriptor moved by a signed amount, modulo its 11 bits (R171, R176). -/
def addRow (d : Desc) (v : W32) : Desc := ((d >>> 117).truncate 11 + v.truncate 11 : BitVec 11) ++ d.truncate 117
/-- BaseCol moved modulo 32 (R171, R176). -/
def addCol (d : Desc) (v : W32) : Desc :=
  (d >>> 117).truncate 11 ++ ((d >>> 112).truncate 5 + v.truncate 5 : BitVec 5) ++ d.truncate 112

/-- DADDR: BaseRow of d += rs1, signed (R171). -/
def execDaddr (p : Place) (d : BitVec 4) (rs1 : BitVec 5) (s : State) : Res :=
  .next (issue s p.core 0 0x42 p.last p.rsv <| afterLoad s [rs1] fun k =>
    .go { k with seq := k.seq.setDesc d (addRow (k.pre.desc d) (k.pre.reg rs1)) })

/-- DADDC: BaseCol of d = (BaseCol + rs1) mod 32 (R171). -/
def execDaddc (p : Place) (d : BitVec 4) (rs1 : BitVec 5) (s : State) : Res :=
  .next (issue s p.core 0 0x43 p.last p.rsv <| afterLoad s [rs1] fun k =>
    .go { k with seq := k.seq.setDesc d (addCol (k.pre.desc d) (k.pre.reg rs1)) })

/-- A control and status register of the core (R163); a number not listed has none. -/
def csrValue (s : State) (core : Nat) (k : Core) (csr : Nat) : Option W32 :=
  match csr with
  | 0 => some (BitVec.ofNat 32 (seqCycles s k))
  | 1 => some (BitVec.ofNat 32 (seqCycles s k / 2 ^ 32))
  | 2 => some (BitVec.ofNat 32 (coreId core))
  | 3 => some (BitVec.ofNat 32 ((ownerOf s core).getD 0))
  | 4 => some (BitVec.ofNat 32 (stepCyc s k))
  | 5 => some (k.pre.asr.zeroExtend 32)
  | 6 => some (k.seq.stepKind.zeroExtend 32)
  | 7 => some k.seq.stepReq
  | _ => none

/-- CSRR: rd = csr; a number not listed fails the encoding check (R163). -/
def execCsrr (p : Place) (rd : BitVec 5) (csr : BitVec 14) (s : State) : Res :=
  .next (issue s p.core 0 0x50 p.last p.rsv fun k =>
    match csrValue s p.core k csr.toNat with
    | some v => .go { k with seq := k.seq.setReg rd v }
    | none => .bad ⟨1, 0x50, 0⟩)

/-- Bits set in a mask. -/
def popcount (m : BitVec 8) : Nat := ((List.range 8).filter fun i => m.getLsbD i).length

/-- The new array-set mask, which may set at most MaxSets bits (R201, cause 9). -/
def selectSets (k : Core) (mask : BitVec 8) : SlotRes :=
  if k.seq.maxSets < popcount mask then .bad ⟨9, mask.toNat, 0⟩ else .go { k with seq := { k.seq with asr := mask } }

/-- CSRW: writes ASR only; any other register fails the encoding check (R163). -/
def execCsrw (p : Place) (rs1 : BitVec 5) (csr : BitVec 14) (s : State) : Res :=
  .next (issue s p.core 0 0x51 p.last p.rsv <| afterLoad s [rs1] fun k =>
    if csr = 5 then selectSets k ((k.pre.reg rs1).truncate 8) else .bad ⟨1, 0x51, 0⟩)

/-- CIM.ASEL: ASR = mask (R171, R201). -/
def execCimAsel (p : Place) (mask : BitVec 8) (s : State) : Res :=
  .next (issue s p.core 0 0x58 p.last p.rsv fun k => selectSets k mask)

/-- Opcode 0x00 with all operand bits zero is NOP in every slot (R168). -/
def execSlotNop (p : Place) (slot : BitVec 2) (s : State) : Res :=
  .next (issue s p.core slot.toNat 0x00 p.last p.rsv fun k => .go k)

/-- An opcode that is not in the table, or a removed MSQ-1 opcode, fails the encoding check at issue (R171, R175). -/
def execUndefinedOpcode (p : Place) (slot : BitVec 2) (opcode : Byte) (s : State) : Res :=
  .next (issue s p.core slot.toNat opcode.toNat p.last p.rsv fun _ => .bad ⟨1, opcode.toNat, 0⟩)

end Sys2Proof.Machine
end

