-- ==== Sys2Proof/Machine/Slots.lean ====
section
/-!
DEFINITION. The dispatch slots and the sync slot (R170, R171, R178, R184, R192 to R204): a dispatch enters its engine's queue with the
descriptors and registers as they stood before the bundle; a sync operation waits, signals, begins a step or names a tensor.
-/
namespace Sys2Proof.Machine

/-! ## Dispatch -/

/-- Operations in an engine's dispatch queue: issued and not started (R170, R180). -/
def Core.queuedOn (k : Core) (eng : Nat) : Nat := (k.seq.queued.filter fun q => q.eng = eng).length
/-- Operations of an engine that have not taken effect. -/
def Core.depth (k : Core) (eng : Nat) : Nat := k.queuedOn eng + (k.active.filter fun a => a.1 = eng).length

/-- Put an operation into its queue, and note it as the bundle's operation of its slot (R170, R204). -/
def Core.enqueue (k : Core) (q : QOp) : Core :=
  let n := k.seq.opNum
  { k with
    seq := { k.seq with queued := k.seq.queued ++ [{ q with num := n }], opNum := n + 1 }
    bundle := k.bundle.map fun b => if q.slot = 1 then { b with opA := some n } else { b with opB := some n } }

/-- The record of an operation at issue (R178). -/
def qopOf (s : State) (k : Core) (slot : Nat) (op : DOp) : QOp :=
  { num := k.seq.opNum, eng := op.engine, op := op, step := k.seq.stepNum, kind := k.seq.stepKind, req := k.seq.stepReq, stepSeq := k.seq.stepSeq,
    bundle := k.seq.pc.toNat, slot := slot, tag := none, dumps := [], gov := s.setting 0x5010 1 240, since := s.now }

/-- Issue a dispatch: checks at issue, then the queue, which holds issue while full (R170).  DESIGN CHOICE: while it holds, the earlier slots of
its bundle have acted already, the scalar slot's load or store and the dispatch of slot A; R170 names no slot that has. -/
def dispatch (p : DPlace) (opcode : Nat) (op : Core → DOp) (chk : Core → Option Fail) (s : State) (regs : List (BitVec 5) := []) : State :=
  let slot := if p.slotB then 2 else 1
  issue s p.core slot opcode p.last p.rsv <| afterLoad s regs fun k =>
    match chk k with
    | some f => .bad f
    | none =>
      let q := qopOf s k slot (op k)
      if 4 ≤ k.queuedOn q.eng then .hold k (.queue q) else .go (k.enqueue q)

def noCheck : Core → Option Fail := fun _ => none
def codeCheck (opcode : Nat) (ok : Bool) : Core → Option Fail := fun _ => encFail opcode ok

/-- TM.COPY: copy walk ds to walk dd (R154, R155). -/
def execTmCopy (p : DPlace) (dd ds : BitVec 4) (s : State) : Res :=
  .next (dispatch p 0x01 (fun k => .tmCopy (k.pre.desc dd) (k.pre.desc ds)) noCheck s)

/-- TM.FILL: fill walk dd with a pattern of 1, 2, 4 or 8 bytes from rs, or rs and rs + 1 (R153, R171).  DESIGN CHOICE: with rs = s31 the upper
half of an 8-byte pattern comes from s0, and so is zero. -/
def execTmFill (p : DPlace) (dd : BitVec 4) (rs : BitVec 5) (size : BitVec 2) (s : State) : Res :=
  .next (dispatch p 0x02 (fun k =>
    .tmFill (k.pre.desc dd) (k.pre.reg (rs + 1) ++ k.pre.reg rs) size.toNat) noCheck s [rs, rs + 1])

/-- SHA.DIGEST: SHA-256 over ds with the state at rs (R664). -/
def execShaDigest (p : DPlace) (ds : BitVec 4) (rs : BitVec 5) (fin : Bool) (s : State) : Res :=
  .next (dispatch p 0x03 (fun k => .sha (k.pre.desc ds) (k.pre.reg rs) fin) noCheck s [rs])

/-- VE.ARITH: elementwise arithmetic by function code; a code not listed fails the encoding check (R172). -/
def execVeArith (p : DPlace) (dd da db : BitVec 4) (func : BitVec 4) (rs : BitVec 5) (s : State) : Res :=
  .next (dispatch p 0x10 (fun k => .veArith (k.pre.desc dd) (k.pre.desc da) (k.pre.desc db) func.toNat (k.pre.reg rs))
    (codeCheck 0x10 (func.toNat ≤ 8)) s [rs])

/-- VE.NORM: RMS or layer normalisation, or partial sums (R172). -/
def execVeNorm (p : DPlace) (dd da db : BitVec 4) (func : BitVec 4) (rs : BitVec 5) (s : State) : Res :=
  .next (dispatch p 0x11 (fun k => .veNorm (k.pre.desc dd) (k.pre.desc da) (k.pre.desc db) func.toNat (k.pre.reg rs))
    (codeCheck 0x11 (func.toNat ≤ 3)) s [rs])

/-- VE.ACT: SiLU, GELU and their gated forms (R172). -/
def execVeAct (p : DPlace) (dd da db : BitVec 4) (func : BitVec 4) (s : State) : Res :=
  .next (dispatch p 0x12 (fun k => .veAct (k.pre.desc dd) (k.pre.desc da) (k.pre.desc db) func.toNat)
    (codeCheck 0x12 (func.toNat ≤ 3)) s)

/-- VE.FUNC: exp2, log2, reciprocal, reciprocal square root (R172). -/
def execVeFunc (p : DPlace) (dd da : BitVec 4) (func : BitVec 4) (s : State) : Res :=
  .next (dispatch p 0x13 (fun k => .veFunc (k.pre.desc dd) (k.pre.desc da) func.toNat)
    (codeCheck 0x13 (func.toNat ≤ 3)) s)

/-- VE.CVT: format conversion between the walks' formats (R172). -/
def execVeCvt (p : DPlace) (dd da : BitVec 4) (s : State) : Res :=
  .next (dispatch p 0x14 (fun k => .veCvt (k.pre.desc dd) (k.pre.desc da)) noCheck s)

/-- ACC.CLR: clear tile t and its SAT bit (R171). -/
def execAccClr (p : DPlace) (t : BitVec 4) (s : State) : Res :=
  .next (dispatch p 0x18 (fun _ => .accClr t.toNat) noCheck s)

/-- ACC.OUT: round tile t out to dd, with the row statistics when S = 1 (R81, R132, R666). -/
def execAccOut (p : DPlace) (t dd : BitVec 4) (rs : BitVec 5) (stat : Bool) (dstat : BitVec 4) (s : State) : Res :=
  .next (dispatch p 0x19 (fun k => .accOut t.toNat (k.pre.desc dd) (k.pre.reg rs) stat (k.pre.desc dstat)) noCheck s [rs])

/-- ACC.ADD: add a walk of 512 long accumulators exactly into tile t (R171). -/
def execAccAdd (p : DPlace) (t ds : BitVec 4) (s : State) : Res :=
  .next (dispatch p 0x1A (fun k => .accAdd t.toNat (k.pre.desc ds)) noCheck s)

/-- AE.QK: scores of the next tile of the length table at rs (R320, R321). -/
def execAeQk (p : DPlace) (dd da db : BitVec 4) (rs : BitVec 5) (s : State) : Res :=
  .next (dispatch p 0x20 (fun k => .aeQk (k.pre.desc dd) (k.pre.desc da) (k.pre.desc db) (k.pre.reg rs)) noCheck s [rs])

/-- AE.SM: online softmax of the tile with the statistics walk at rs (R323, R324). -/
def execAeSm (p : DPlace) (dd da : BitVec 4) (rs : BitVec 5) (s : State) : Res :=
  .next (dispatch p 0x21 (fun k => .aeSm (k.pre.desc dd) (k.pre.desc da) (k.pre.reg rs)) noCheck s [rs])

/-- AE.PV: probabilities times values (R323). -/
def execAePv (p : DPlace) (dd da db : BitVec 4) (s : State) : Res :=
  .next (dispatch p 0x22 (fun k => .aePv (k.pre.desc dd) (k.pre.desc da) (k.pre.desc db)) noCheck s)

/-- SP.SAMPLE: sample from logits ds with the parameter block at rs (R667). -/
def execSpSample (p : DPlace) (dd ds : BitVec 4) (rs : BitVec 5) (s : State) : Res :=
  .next (dispatch p 0x28 (fun k => .spSample (k.pre.desc dd) (k.pre.desc ds) (k.pre.reg rs)) noCheck s [rs])

/-- The checks of an evaluation at issue: the mode (R171) and its set's bit in ASR, as the scalar slot leaves it (R169, R202). -/
def evalCheck (opcode : Nat) (a : BitVec 5) (mode : BitVec 2) (k : Core) : Option Fail :=
  if mode = 3 then some ⟨1, opcode, 0⟩
  else if !k.seq.asr.getLsbD (a.toNat / 4) then some ⟨9, k.seq.asr.toNat, 0⟩ else none

/-- CIM.EVAL: forward evaluation of array a into tile t (R171, R202). -/
def execCimEval (p : DPlace) (a : BitVec 5) (d t : BitVec 4) (clear narrow : Bool) (mode : BitVec 2) (s : State) : Res :=
  .next (dispatch p 0x40 (fun k => .cimEval false a.toNat (k.pre.desc d) t.toNat clear narrow mode.toNat)
    (evalCheck 0x40 a mode) s)

/-- CIM.EVALT: transposed evaluation of array a into tile t (R171, R202). -/
def execCimEvalt (p : DPlace) (a : BitVec 5) (d t : BitVec 4) (clear narrow : Bool) (mode : BitVec 2) (s : State) : Res :=
  .next (dispatch p 0x41 (fun k => .cimEval true a.toNat (k.pre.desc d) t.toNat clear narrow mode.toNat)
    (evalCheck 0x41 a mode) s)

/-- Q.PUSH: push the request line at rs onto outbound queue oq (R182). -/
def execQPush (p : DPlace) (oq : BitVec 3) (rs : BitVec 5) (s : State) : Res :=
  .next (dispatch p 0x50 (fun k => .qPush oq.toNat (k.pre.reg rs)) noCheck s [rs])

/-- Q.POP: move entries of inbound queue iq into walk dd (R185). -/
def execQPop (p : DPlace) (iq : BitVec 3) (dd : BitVec 4) (s : State) : Res :=
  .next (dispatch p 0x51 (fun k => .qPop iq.toNat (k.pre.desc dd)) noCheck s)

/-- RMREAD: remote-merge read of walk ds on core rs into dd (R158, R182). -/
def execRmread (p : DPlace) (oq : BitVec 3) (dd ds : BitVec 4) (rs : BitVec 5) (tag : BitVec 7) (s : State) : Res :=
  .next (dispatch p 0x52 (fun k => .rmread oq.toNat (k.pre.desc dd) (k.pre.desc ds) (k.pre.reg rs) tag.toNat) noCheck s [rs])

/-- NRED: send walk ds for in-network reduction to core rs; arithmetic other than 0 and 1 fails the encoding check (R191). -/
def execNred (p : DPlace) (oq : BitVec 3) (ds : BitVec 4) (rs : BitVec 5) (a : BitVec 2) (id : BitVec 9) (s : State) : Res :=
  .next (dispatch p 0x53 (fun k => .nred oq.toNat (k.pre.desc ds) (k.pre.reg rs) a.toNat id.toNat)
    (codeCheck 0x53 (a.toNat ≤ 1)) s [rs])

/-! ## Sync objects -/

/-- The checks of a sync index at issue: its field exists (R192), and holds a core of the region (R665). -/
def syncCheck (s : State) (core idx : Nat) : Option Fail :=
  if 47 < idx / 512 then some ⟨6, idx, 0⟩
  else match ownerOf s core with
    | some n => if regionInField (s.region n) (idx / 512) then none else some ⟨7, idx, 0⟩
    | none => some ⟨7, idx, 0⟩

/-- The region of a core owns an object (R193). -/
def ownsSync (s : State) (core idx : Nat) : Bool :=
  match ownerOf s core, (s.sync idx).owner with | some n, some m => n = m | _, _ => false

/-- The wait condition of R195. -/
def reached (v t : W32) : Bool := (v - t).toNat < 2 ^ 31

/-- SYNC.WAIT: hold issue until object idx reaches rs (R193, R195). -/
def execSyncWait (p : Place) (idx : BitVec 15) (rs : BitVec 5) (s : State) : Res :=
  .next (issue s p.core 3 0x01 p.last p.rsv <| afterLoad s [rs] fun k =>
    match syncCheck s p.core idx.toNat with
    | some f => .bad f
    | none =>
      -- the AON tile, which holds the object, refuses it
      if !ownsSync s p.core idx.toNat then .late k ⟨7, idx.toNat, 0⟩
      else
        let t := k.pre.reg rs
        if reached (s.sync idx.toNat).value t then .go k else .hold k (.syncWait idx.toNat t))

/-- SYNC.SIGNAL: add rs, or 1 when I = 1, to object idx once earlier operations have taken effect; the signal waits in the 8-entry
buffer, and issue holds while it is full (R194, R196). -/
def execSyncSignal (p : Place) (idx : BitVec 15) (rs : BitVec 5) (one : Bool) (s : State) : Res :=
  .next (issue s p.core 3 0x02 p.last p.rsv <| afterLoad s [rs] fun k =>
    match syncCheck s p.core idx.toNat with
    | some f => .bad f
    | none =>
      let amt : W32 := if one then 1 else k.pre.reg rs
      if 8 ≤ k.seq.sigBuf.length then .hold k (.signal idx.toNat amt)
      else .go { k with seq := { k.seq with sigBuf := k.seq.sigBuf ++ [⟨idx.toNat, amt, k.seq.opNum, (k.seq.pc.toNat, 3)⟩] } })

/-- The condition of a QWAIT (R184). -/
def queueReady (k : Core) (outb : Bool) (q n : Nat) : Bool := if outb then n ≤ k.oqFree q else n ≤ k.iqReady q

/-- QWAIT: wait until a queue holds n ready entries or n free entries; n above 32 fails the encoding check (R184). -/
def execQwait (p : Place) (outb : Bool) (q : BitVec 3) (n : BitVec 6) (s : State) : Res :=
  .next (issue s p.core 3 0x03 p.last p.rsv fun k =>
    if 32 < n.toNat then .bad ⟨1, 0x03, 0⟩
    else if queueReady k outb q.toNat n.toNat then .go k else .hold k (.qwait outb q.toNat n.toNat))

/-- Every earlier operation below number n has taken effect, in the senses of R196. -/
def Core.settled (k : Core) (n : Nat) : Bool :=
  !(k.seq.queued.any fun q => q.num < n) && !(k.active.any fun a => a.2.q.num < n) &&
  !(k.oqs.any fun q => q.2.any fun e => e.num < n) && !(k.awaits.any fun a => a.write && a.cls ≠ 1 && a.num < n)

/-- Every request in the outbound queues has taken effect in the senses of R196. -/
def Core.queuesDone (k : Core) : Bool :=
  (k.oqs.all fun q => q.2.isEmpty) && !(k.awaits.any fun a => a.write && a.cls ≠ 1)

/-- An engine has taken effect: its queue is empty and nothing is in progress (R171). -/
def Core.engineDone (k : Core) (eng : Nat) : Bool := k.depth eng = 0

/-- The engines a FENCE mask selects have taken effect (R170, R171): bit 0 AC, 1 CU, 2 VE, 3 AE, 4 TM, 5 SP, 6 SHA, 7 queues. -/
def fenceDone (k : Core) (mask : BitVec 8) : Bool :=
  let sel (i : Nat) (d : Bool) : Bool := !mask.getLsbD i || d
  let sets := (List.range 8).all fun i => k.engineDone (5 + i)
  sel 0 sets && sel 1 sets && sel 2 (k.engineDone 2) && sel 3 (k.engineDone 3) && sel 4 (k.engineDone 0) &&
  sel 5 (k.engineDone 4) && sel 6 (k.engineDone 1) && sel 7 k.queuesDone

/-- FENCE: wait until every operation of the selected engines has taken effect (R171). -/
def execFence (p : Place) (mask : BitVec 8) (s : State) : Res :=
  .next (issue s p.core 3 0x04 p.last p.rsv fun k => if fenceDone k mask then .go k else .hold k (.fence mask))

/-! ## Steps and tags -/

/-- A watch matches a step (R626, R628). -/
def watchMatches (w : Watch) (region : Nat) (kind : W16) (req : W32) : Bool :=
  w.state = 1 && w.region = region && (w.kind = 0xFFFF || w.kind = kind.toNat) && (w.ctx = 0xFFFFFFFF || w.ctx = req.toNat)

/-- At a new step: raise the match counts of the watches it matches, and decide which of them the step dumps for (R628). -/
def countWatches (s : State) (region : Nat) (k : Core) : Core :=
  s.observe.watches.foldl (fun k e =>
    let (m, d, _) := Tbl.get k.watchN (0, 0, false) e.1
    let hit := watchMatches e.2 region k.seq.stepKind k.seq.stepReq
    let m := if hit then m + 1 else m
    let dump := hit && e.2.skip < m && (e.2.count = 0 || d < e.2.count)
    if hit || (Tbl.find k.watchN e.1).isSome then { k with watchN := Tbl.set k.watchN e.1 (m, d, dump) } else k) k

/-- Begin a step (R199): the kind and request are latched, ASR and STEPCYC cleared. -/
def beginStep (k : Core) (now : Nat) (kind : W16) (req : W32) (d : StepDecl) : Core :=
  let q := k.seq
  let old := (q.stepNum, q.phaseLim, q.phases) :: q.older
  let live := old.filter fun o => (q.queued.any fun x => x.step = o.1) || k.active.any fun a => a.2.q.step = o.1
  { k with seq := { q with
    stepKind := kind, stepReq := req, asr := 0, stepFrom := now, stepAcc := 0, stepNum := q.stepNum + 1, maxSets := d.maxSets,
    budget := d.budget, phaseLim := d.phases, phases := 0, older := live } }

/-- The Sillage STEP record of a step just begun, when its region selects STEP records (R638, R639). -/
def silStep (s : State) (c pc : Nat) : State :=
  let k := s.core c
  if s.silOn 0 (ownerOf s c) then
    s.sil 1 (silCore c (ownerOf s c)) (leBytes 2 k.seq.stepKind.toNat ++ leBytes 2 pc ++ leBytes 4 k.seq.stepReq.toNat)
  else s

/-- A STEP of several requests has begun: it stands for one of the delivered steps of several requests, none before the one that the core's last
such STEP stood for.  FREE VALUE: which one, where more are in flight: STEPREQ does not say it (R349). -/
def latchStep (s : State) (c : Nat) : State :=
  let k := s.core c
  match ownerOf s c with
  | none => s
  | some n =>
    if k.seq.stepReq ≠ 0xFFFFFFFE then s
    else
      let seqs := (manySteps (s.region n)).map (·.seq)
      let seqs := match k.seq.stepSeq with | some q => if seqs.contains q then seqs.dropWhile (· ≠ q) else seqs | none => seqs
      let (base, s) := s.draw 1
      s.updCore c fun k => { k with seq := { k.seq with stepSeq := seqs[Config.whichStep base % seqs.length]? } }

/-- STEP: end the current step and begin one of the given kind for request rs; a kind that is not declared, or whose MaxSets exceeds
the region's cap, faults with cause 9 (R199, R201). -/
def execStep (p : Place) (rs : BitVec 5) (kind : W16) (s : State) : Res :=
  let t := issue s p.core 3 0x05 p.last p.rsv <| afterLoad s [rs] fun k =>
    match k.prog.kinds.find? fun d => d.kind = kind.toNat with
    | none => .bad ⟨9, Config.stepMask kind.toNat, 0⟩
    | some d =>
      let n := (ownerOf s p.core).getD 0
      if (s.region n).setCap < d.maxSets then .bad ⟨9, Config.stepMask kind.toNat, 0⟩
      else .go (countWatches s n (beginStep k s.now kind (k.pre.reg rs) d))
  .next (if (t.core p.core).seq.stepNum = (s.core p.core).seq.stepNum then t
    else latchStep (silStep t p.core ((s.core p.core).enter 3 s.now).seq.pc.toNat) p.core)

/-- The destination walk of an operation (R204); none for SHA.DIGEST, Q.PUSH and NRED. -/
def DOp.dest : DOp → Option Desc
  | .tmCopy dd _ => some dd
  | .tmFill dd _ _ => some dd
  | .sha _ _ _ => none
  | .veArith dd _ _ _ _ => some dd
  | .veNorm dd _ _ _ _ => some dd
  | .veAct dd _ _ _ => some dd
  | .veFunc dd _ _ => some dd
  | .veCvt dd _ => some dd
  | .accClr t => some (descOf (2016 + 2 * t) 0 32 2 0 1 1 0 7)
  | .accOut _ dd _ _ _ => some dd
  | .accAdd t _ => some (descOf (2016 + 2 * t) 0 32 2 0 1 1 0 7)
  | .aeQk dd _ _ _ => some dd
  | .aeSm dd _ _ => some dd
  | .aePv dd _ _ => some dd
  | .spSample dd _ _ => some dd
  | .cimEval _ _ _ t _ _ _ => some (descOf (2016 + 2 * t) 0 32 2 0 1 1 0 7)
  | .qPush _ _ => none
  | .qPop _ dd => some dd
  | .rmread _ dd _ _ _ => some dd
  | .nred _ _ _ _ _ => none

/-- The armed watches whose dump a TAG of this step names (R628). -/
def dumpsFor (s : State) (k : Core) (id : Nat) : List Nat :=
  (s.observe.watches.filter fun e => e.2.state = 1 && e.2.tensor = id && (Tbl.get k.watchN (0, 0, false) e.1).2.2).map (·.1)

/-- Count one dump of a watch on the core. -/
def Core.noteDump (k : Core) (w : Nat) : Core :=
  let (m, d, b) := Tbl.get k.watchN (0, 0, false) w
  { k with watchN := Tbl.set k.watchN w (m, d + 1, b) }

/-- TAG: name the destination of dispatch slot A or B of this bundle; a slot with no such operation fails the encoding check (R204). -/
def execTag (p : Place) (slotB : Bool) (id : BitVec 20) (s : State) : Res :=
  .next (issue s p.core 3 0x06 p.last p.rsv fun k =>
    let num := match k.bundle with | some b => if slotB then b.opB else b.opA | none => none
    let ws := dumpsFor s k id.toNat
    let hit (q : QOp) : Bool := some q.num = num && q.op.dest.isSome
    let name (q : QOp) : QOp := if hit q then { q with tag := some id.toNat, dumps := ws } else q
    if k.seq.queued.any hit || k.active.any fun a => hit a.2.q then
      .go { ws.foldl Core.noteDump k with
        seq := { k.seq with queued := k.seq.queued.map name }
        active := Tbl.map (fun _ a => { a with q := name a.q }) k.active }
    else .bad ⟨1, 0x06, 0⟩)

end Sys2Proof.Machine
end

