-- ==== Sys2Proof/Machine/CoreEvents.lean ====
section
/-!
DEFINITION. What happens inside a core besides issue: operations start and take effect (R69 to R71, R74, R91 to R100, R179 to R191,
R203, R205), held issue goes on (R170, R184, R195, R196), signals are released (R194, R196, R665), the clock stops (R198), and
the limits of a step are exceeded (R200, R203, R205).
-/
namespace Sys2Proof.Machine

/-! ## Sync objects at the AON tile -/

/-- Add an amount to an object, and put out the SYNC record a region selects (R194, R638). -/
def applySignal (s : State) (c : Nat) (region : Option Nat) (idx : Nat) (amt : W32) : State :=
  let o := s.sync idx
  let s := s.setSync idx { o with value := o.value + amt }
  if s.silOn 1 region then
    s.sil 2 (silCore c region) (leBytes 2 idx ++ leBytes 4 amt.toNat ++ leBytes 4 (o.value + amt).toNat)
  else s

/-- A core's signal at the AON tile: cause 7 when its region does not own the object (R193, R205). -/
def signalAt (s : State) (c idx : Nat) (amt : W32) (issuer : Option (Nat × Nat)) : State :=
  if ownsSync s c idx then applySignal s c (ownerOf s c) idx amt else stepFaultFrom s c ⟨7, idx, 0⟩ issuer

/-- The relay core of a field for a core's signals: the nearest core of the region in that field, ties to the lower row, then the
lower column (R665). -/
def relayOf (s : State) (c field : Nat) : Option Nat :=
  match ownerOf s c with
  | none => none
  | some n =>
    let r := s.region n
    let cs := (rectCores r.nw r.se).filter fun x => fieldOf x = field
    cs.foldl (fun b x => match b with
      | none => some x
      | some y => if manhattan c x < manhattan c y then some x else some y) none

/-- Send a signal: over the field's control line in the core's own field, else by a SIGNAL packet to the relay core (R665). -/
def sendSignal (s : State) (c : Nat) (g : Sig) : State :=
  if g.idx / 512 = fieldOf c then signalAt s c g.idx g.amount (some g.issuer)
  else match relayOf s c (g.idx / 512) with
    | none => stepFaultFrom s c ⟨7, g.idx, 0⟩ (some g.issuer)
    | some x => inject s c { blankPacket 8 0 x c with body := BitVec.ofNat 128 (g.amount.toNat * 2 ^ 32 + g.idx % 2 ^ 15), issuer := some g.issuer }

/-! ## Held issue goes on -/

/-- Issue goes on after a hold. -/
def Core.unhold (k : Core) (now : Nat) : Core := ({ k with held := none, heldLast := false }).endSlot k.heldLast now

/-- End a hold whose condition is met; a wait's cycles do not count against the step's budget (R200). -/
def resume (s : State) (c : Nat) : State :=
  let k := s.core c
  if k.run ≠ .issuing then s else
  match k.held with
  | none => s
  | some (.mem m) =>
    if k.memBlocked m then s
    else match m.bad k with
      | some f => stepFault s c f 0 true
      | none => s.setCore c ((m.run s.now (k.countHeld s.now)).unhold s.now)
  | some (.queue q) =>
    -- the operation issues now, with the governor's threshold as it stands (R56, R170)
    if 4 ≤ k.queuedOn q.eng then s
    else s.setCore c (((k.countHeld s.now).enqueue { q with gov := s.setting 0x5010 1 240, since := s.now }).unhold s.now)
  | some (.signal idx amt) =>
    if 8 ≤ k.seq.sigBuf.length then s
    else
      let k := k.countHeld s.now
      let k : Core := { k with seq := { k.seq with sigBuf := k.seq.sigBuf ++ [⟨idx, amt, k.seq.opNum, (k.seq.pc.toNat, 3)⟩] } }
      s.setCore c (k.unhold s.now)
  | some (.fence m) => if fenceDone k m then s.setCore c (k.unhold s.now) else s
  | some (.syncWait _ _) => s
  | some (.qwait _ _ _) => s

/-- Send what can be sent, then end a hold whose condition has come true. -/
def settle (s : State) (c : Nat) : State := resume (pump s c) c

/-- The wait in SYNC.WAIT or QWAIT is satisfied. -/
def waitMet (s : State) (k : Core) : Bool :=
  match k.held with
  | some (.syncWait i t) => reached (s.sync i).value t
  | some (.qwait o q n) => queueReady k o q n
  | _ => false

/-- WAIT_SATISFIED: the clock restarts and issue goes on (R195, R198, R200). -/
def execWaitSatisfied (core : Nat) (s : State) : Res :=
  let k := s.core core
  if k.run = .issuing ∧ waitMet s k then
    let k := k.countHeld s.now
    let k := { k with lastIssue := s.now, stoppedAt := none, seq := { k.seq with stepFrom := k.seq.stepFrom + (s.now - k.waitFrom) } }
    .next ((s.setCore core (k.unhold s.now)).startClock core)
  else .next s

/-- CLOCK_STOP: a core held in a wait with nothing queued or in progress for 16 cycles stops its fast clock (R198). -/
def execClockStop (core : Nat) (s : State) : Res :=
  let k := s.core core
  if k.run = .issuing ∧ k.clockOn ∧ k.waiting ∧ !waitMet s k ∧ k.seq.queued.isEmpty ∧ k.active.isEmpty ∧
      16 ≤ cyclesOf (s.now - max k.waitFrom k.idleFrom) then
    .next (s.stopClock core)
  else .next s

/-! ## Limits of a step -/

/-- BUDGET_OVERRUN: STEPCYC exceeds the step kind's budget (R200, R205 cause 11). -/
def execBudgetOverrun (core : Nat) (s : State) : Res :=
  let k := s.core core
  let b := if k.seq.budget = 0 then s.setting 0x2110 1 1400000 else k.seq.budget
  if k.run = .issuing ∧ b < stepCyc s k then .next (stepFault s core ⟨11, b, 0⟩ 0 false) else .next s

/-- The Aux0 of a wait limit: the sync index, or 0x8000 plus the queue (R588). -/
def waitAux (k : Core) : Nat :=
  match k.held with | some (.syncWait i _) => i | some (.qwait _ q _) => 0x8000 + q | _ => 0

/-- WAIT_LIMIT: a wait has been held longer than 0x2110:02 (R205 cause 16). -/
def execWaitLimit (core : Nat) (s : State) : Res :=
  let k := s.core core
  if k.run = .issuing ∧ k.waiting ∧ !waitMet s k ∧ s.setting 0x2110 2 100000 * 1000 < s.now - k.waitFrom then
    .next (stepFault s core ⟨16, waitAux k, 0⟩ 3 false)
  else .next s

/-- The phases counted for the evaluations of a step that have taken effect, and the step's limit, current or earlier (R203). -/
def Seq.phaseOf (q : Seq) (step : Nat) : Nat × Nat :=
  if step = q.stepNum then (q.phases, q.phaseLim)
  else match q.older.find? fun o => o.1 = step with | some o => (o.2.2, o.2.1) | none => (0, 0)
/-- How many phases of the step are counted before phase i of an evaluation in progress: those of evaluations that have taken effect, and
those in progress that start earlier, or in the same cycle on a lower set (R203). -/
def Core.countBefore (k : Core) (a : ActOp) (i : Nat) : Nat :=
  let from_ := match a.plan with | some p => p.since | none => 0
  (k.seq.phaseOf a.q.step).1 +
    (k.active.map fun b => if b.2.q.step = a.q.step then b.2.phasesBefore (from_ + 20 * i) a.q.eng else 0).sum
def ActOp.phases (a : ActOp) : Nat := match a.plan with | some p => p.phases | none => 0
/-- When the step's excess phase, the first that would bring the count above PhaseLimit, would start, if the evaluation has it. -/
def Core.excessAt (k : Core) (a : ActOp) : Option Nat :=
  ((List.range a.phases).find? fun i => k.countBefore a i = (k.seq.phaseOf a.q.step).2).bind fun i => a.plan.map fun p => p.since + 20 * i
/-- The evaluation has the excess phase or one after it, so it cannot run to its end. -/
def Core.pastLimit (k : Core) (a : ActOp) : Bool := a.phases ≠ 0 && (k.seq.phaseOf a.q.step).2 ≤ k.countBefore a (a.phases - 1)
/-- The evaluation in progress with the excess phase of its step, and when that would start. -/
def Core.overrun? (k : Core) : Option (ActOp × Nat) := k.active.findSome? fun a => (k.excessAt a.2).map fun t => (a.2, t)

/-- ACTIVITY_OVERRUN: in the cycle in which the phase that would bring the step's count above PhaseLimit would start, the step faults; neither
that phase nor a later one starts (R203, R205 cause 10). -/
def execActivityOverrun (core : Nat) (s : State) : Res :=
  let k := s.core core
  match k.overrun? with
  | some (a, t) =>
    if k.run ≠ .issuing ∨ s.now < t then .next s
    else .next (s.haltAt core t a.q.eng (k.reported ⟨10, (k.seq.phaseOf a.q.step).2, 0⟩ a.q.bundle a.q.slot s.almanac))
  | none => .next s

/-! ## Operations start -/

/-- The serving section of a core's image. -/
def servingOf (s : State) (c : Nat) : Option ServSec :=
  match ownerOf s c with
  | some n => match (s.region n).img with | some b => b.img.serving | none => none
  | none => none

/-- A request line breaks one of R188's rules.  DESIGN CHOICE: a SigEn of an object that the region does not own, in a field that it overlaps, is
an invalid request, as R188 has it, where R193 names a sync ownership fault. -/
def badRequest (s : State) (c : Nat) (r : Req) : Bool :=
  let lw := walkOf r.localW; let rw := walkOf r.remote
  r.rsv || !(r.op = 1 || r.op = 2) || 2 < r.cls || (r.op = 1 && r.cls = 2) || (r.cls = 0 && 32 < rw.count) ||
  (r.op = 1 && !r.toWalk && 32 < r.lines) || (r.cls = 1 && (r.linesN = 0 || 65536 < r.linesN)) ||
  ((r.op = 2 || r.toWalk) && lw.count ≠ r.lines) ||
  (r.sigEn && r.cls ≠ 2 && (47 < r.sync / 512 || !ownsSync s c r.sync))

/-- A request's signal names an object in a field that holds no core of the region: a sync ownership fault (R665). -/
def signalField (s : State) (c : Nat) (r : Req) : Option Fail :=
  if r.sigEn ∧ r.cls ≠ 2 ∧ r.sync / 512 ≤ 47 then syncCheck s c r.sync else none

/-- Checks of Q.PUSH in R182's order: bounds, request, room; then its LocalWalk, which the remote port reads or writes (R141, R177). -/
def pushCheck (s : State) (c : Nat) (k : Core) (oq : Nat) (a : W32) : Option Fail :=
  let r := reqOf (k.readLine (a.toNat / 2048) (a.toNat % 2048 / 64))
  let lw := walkOf r.localW
  let uses := r.op = 2 || r.toWalk
  firstFail [addrFail a false, (k.badAt a.toNat 64).map (fun x => ⟨15, x.2, x.1⟩),
    signalField s c r, if badRequest s c r then some ⟨5, oq, 0⟩ else none, if k.oqFree oq < 1 then some ⟨3, oq, 0⟩ else none,
    encFail 0x50 (!uses || lw.encOk), if uses then bndFail lw false (r.op = 1) else none]

/-- An evaluation's input is all zero: that of its 512 elements, or of the 256 that a transposed evaluation of a W8 array takes (R74,
R171). -/
def zeroInput (k : Core) (trans : Bool) (a mode : Nat) (d : Desc) : Bool :=
  ((evalInput mode (k.readWalk (walkOf d)).flatten).take (if trans && (k.arr a).format = 5 then 256 else 512)).all (· == 0)

/-- An operation evaluates an array held for repair (R123). -/
def Core.namesHeld (k : Core) (q : QOp) : Bool := match q.op with | .cimEval _ a _ _ _ _ _ => (k.arr a).state = 4 | _ => false

/-- The first operation of an engine's queue that can start now: its footprints overlap no earlier operation's, and an evaluation
needs its converter set free of a slice and of programming, but for an all-zero input; those that name a held array wait, and the others of the set pass them
(R69 to R71, R74, R123, R179, R180). -/
def Core.ready? (k : Core) (eng : Nat) : Option QOp :=
  if k.run ≠ .issuing ∨ !k.clockOn ∨ (Tbl.find k.active eng).isSome then none
  else match k.seq.queued.find? fun q => q.eng = eng && !k.namesHeld q with
    | none => none
    | some q =>
      -- an operation of a bundle in issue starts once every check at issue is past (R206 step 1)
      let issued : Bool := match k.bundle with | some b => q.num < b.pre.opNum || b.slot = 3 | none => true
      if !issued || feetMeet (k.startFeet q) (k.pendingFeet q.num) then none
      else match q.op with
        | .cimEval tr a d _ _ _ m =>
          let t := k.set (a / 4)
          if (t.slice.isSome || t.use = 4) && !zeroInput k tr a m d then none else some q
        | _ => some q

/-- Queued operations that wait for a held array: those that name one, and those behind them by their footprints or, on another engine,
by their queue. -/
def Core.stuck (k : Core) : List QOp :=
  k.seq.queued.foldl (fun l q =>
    if k.namesHeld q || l.any fun p => feetMeet (k.startFeet q) (k.startFeet p) || (p.eng = q.eng && q.eng < 5) then l ++ [q] else l) []

/-- Count phases toward the operation's step (R203). -/
def Seq.addPhases (q : Seq) (step n : Nat) : Seq :=
  if step = q.stepNum then { q with phases := q.phases + n }
  else { q with older := q.older.map fun o => if o.1 = step then (o.1, o.2.1, o.2.2 + n) else o }

/-- The counters of array control and of the correction unit (R73, R98).  DESIGN CHOICE: counter 4 counts an evaluation of an array with
substituted columns even when its input is all zero, so that it runs no phase. -/
def countEval (k : Core) (set : Nat) (turn : Bool) (o : EvalOut) : Core :=
  let narrow := (o.phases.filter (·.narrow)).length
  let k := k.count 1 0 (o.phases.length - narrow)
  let k := k.count 1 1 narrow
  let k := k.count 1 2 o.gov.byT
  let k := k.count 1 3 o.gov.byHint
  let k := k.count 1 4 o.gov.skips
  let k := k.count 1 5 (if o.phases.isEmpty then 1 else 0)
  let k := k.count 1 6 o.ovr
  let k := k.count 1 7 (if turn then 1 else 0)
  let b := 2 + set
  let k := k.count b 0 o.applied
  let k := k.count b 1 (if o.fallen = 0 then 0 else 1)
  let k := k.count b 2 o.fallen
  let k := k.count b 3 o.repaired
  k.count b 4 (if o.subst then 1 else 0)

/-- Sentinel sampling of every 2^k-th evaluation that ran a phase (R99, R100). -/
def sampleEval (k : Core) (set array rateLog now : Nat) (v : EvalIn) (o : EvalOut) : Core :=
  let x := k.set set
  if o.phases.isEmpty then k
  else
    let n := x.evals + 1
    let k := k.setSet set { x with evals := n, dirTrans := v.trans }
    if n % 2 ^ rateLog ≠ 0 then k
    else if x.sample.isSome then k.count (2 + set) 6 1
    else k.setSet set { k.set set with
      sample := some { array := array, trans := v.trans, input := v.driven, sums := o.sums, skip := o.skip, since := now, group := 0 } }

/-- A core with an array, packed as R435. -/
def coreArray (c a : Nat) : Nat := coreCol c * 2 ^ 24 + coreRow c * 65536 + a % 32

/-- Event 8: the layer, the warning flags, and the core and array (R430). -/
def State.precisionEvent (s : State) (layer c a : Nat) : State :=
  s.postEvent 8 0 (layer * 2 ^ 32 + s.upkeep.warnings.toNat) (coreArray c a)

/-- A fallback: counted on the array, an event, and the warning when a tile's fallbacks in the window reach the count (R94). -/
def noteFallback (s : State) (c a : Nat) : State :=
  let k := s.core c
  let ar := k.arr a
  let layer := (ar.tile.map (·.1)).getD 0
  let fb := (ar.fallbacks.filter fun t => s.now < t + 1000000000 * s.setting 0x5030 2 60) ++ [s.now]
  let s := s.setCore c (k.setArr a { ar with overflow := min (ar.overflow + 1) (2 ^ 16 - 1), fallbacks := fb })
  let s := if s.setting 0x5030 1 100 ≤ fb.length then
      { s with upkeep := { s.upkeep with warnings := s.upkeep.warnings ||| 1, layer := layer } }
    else s
  s.precisionEvent layer c a

/-! ## Signals -/

/-- SIGNAL_RELEASE: the oldest buffered signal whose earlier operations have all taken effect is sent (R194, R196). -/
def execSignalRelease (core : Nat) (s : State) : Res :=
  let k := s.core core
  match k.seq.sigBuf with
  | g :: t =>
    if k.run = .issuing ∧ k.settled g.num then
      let s := s.setCore core { k with seq := { k.seq with sigBuf := t } }
      .next (settle (sendSignal s core g) core)
    else .next s
  | [] => .next s

end Sys2Proof.Machine
end

