-- ==== Sys2Proof/Machine/FabricOps.lean ====
section
/-!
DEFINITION. The Waloskuno link's shared operations: peer channels, credit, replay, the acceptance of a frame, and CONTROL frames
(R593 to R605).
-/
namespace Sys2Proof.Machine

/-! ## Channels -/

def engineId (s : State) : Nat := s.setting 0x7000 1 0xFFFF
def Port.chan (p : Port) (peer : Nat) : Chan := Tbl.get p.chans Chan.reset peer
def Port.setChan (p : Port) (peer : Nat) (c : Chan) : Port := { p with chans := Tbl.set p.chans peer c }
def Chan.credit (c : Chan) (vc : Nat) : Nat := c.credits.toList.getD vc 0
def Chan.owedLines (c : Chan) (vc : Nat) : Nat := c.ret.toList.getD vc 0
def Chan.setCredit (c : Chan) (vc v : Nat) : Chan := if h : vc < 3 then { c with credits := c.credits.set vc v h } else c
def Chan.setRet (c : Chan) (vc v : Nat) : Chan := if h : vc < 3 then { c with ret := c.ret.set vc v h } else c
/-- Credit lines of a frame (R599). -/
def frameCost (f : FFrame) : Nat := 1 + f.payload.length / 64

/-- The channel whose freed lines are returned next, with the lines, at most 16,383 (R599). -/
def Chan.giveBack (c : Chan) : Nat × Nat :=
  match [0, 1, 2].find? fun v => c.owedLines v ≠ 0 with
  | some v => (v, min (c.owedLines v) 16383)
  | none => (0, 0)

/-- Stamp a frame with the channel's acknowledgement and returned credit. -/
def Chan.stampAck (c : Chan) (f : FFrame) : Chan × FFrame :=
  let (v, n) := c.giveBack
  ({ c.setRet v (c.owedLines v - n) with owed := 0 },
   { f with ack := c.rxSeq, ackValid := true, creditVc := v, creditLines := n })

/-! ## Frames on the wire (R593, R594, R597) -/

/-- The header's bits (R594). -/
def linkHeader (f : FFrame) : Nat :=
  f.type % 16 * 2 ^ 252 + f.vc % 4 * 2 ^ 250 + f.destEngine % 2 ^ 15 * 2 ^ 233 + f.srcEngine % 2 ^ 15 * 2 ^ 218 + f.seq % 65536 * 2 ^ 202 +
    f.ack % 65536 * 2 ^ 186 + (if f.ackValid then 2 ^ 185 else 0) + (if f.nak then 2 ^ 184 else 0) +
    f.payload.length / 64 % 256 * 2 ^ 176 + f.creditVc % 4 * 2 ^ 174 + f.creditLines % 16384 * 2 ^ 160 + f.version % 2 ^ 64 * 2 ^ 96 +
    f.destStage % 256 * 2 ^ 88 + f.srcStage % 256 * 2 ^ 80 + f.specific.toNat

/-- A frame's bytes: header, payload lines, and the trailer with the CRC above its reserved half (R593). -/
def linkBytes (f : FFrame) : Bytes :=
  let b := leBytes 32 (linkHeader f) ++ f.payload
  b ++ leBytes 4 0 ++ leBytes 4 (crc32c b).toNat

/-- The MAC address of an engine behind a switch.  DEDUCED: the two bytes of its ID stand as R8 stores a field, low byte first. -/
def engineMac (id : Nat) : Bytes := [0x02, 0x00, 0x5C, 0x00] ++ leBytes 2 id

/-- What a port of a mode sends for a frame: in switched mode an Ethernet frame around it, up to the check sequence that the standard's MAC
adds (R597). -/
def linkWire (mode : Nat) (f : FFrame) : Bytes :=
  if mode = 0 then linkBytes f
  else
    (if f.type = 5 then List.replicate 6 0xFF else engineMac f.destEngine) ++ engineMac f.srcEngine ++ [0x88, 0xB6] ++ linkBytes f

/-- A port sends a frame. -/
def State.sendFrame (s : State) (p : Nat) (f : FFrame) : State := s.emit (.fabric p f (linkWire (s.port p).mode f))

/-! ## Sending -/

/-- The port's state lets a type through (R592, R600): HELLO while training or HELLO-only, HELLO and ALMANAC without an ID. -/
def typePasses (s : State) (x : Port) (type : Nat) : Bool :=
  if type = 5 then 2 ≤ x.state
  else if x.state ≠ 3 then false
  else engineId s ≠ 0xFFFF || type = 6

/-- A frame can be sent now: credit but for HELLO, and at most 16,384 unacknowledged (R598, R599). -/
def Chan.canSend (c : Chan) (f : FFrame) : Bool :=
  (f.type = 5 || frameCost f ≤ c.credit f.vc) && c.unacked.length < 16384

/-- Send one frame: number it, and keep it until acknowledged. -/
def Chan.send (c : Chan) (now : Nat) (f : FFrame) : Chan × FFrame :=
  let (c, f) := c.stampAck f
  let q := (c.txSeq + 1) % 65536
  let f := { f with seq := q }
  let c := if f.type = 5 then c else c.setCredit f.vc (c.credit f.vc - frameCost f)
  ({ c with txSeq := q, unacked := c.unacked ++ [f], ackAt := if c.unacked.isEmpty then now else c.ackAt }, f)

/-- The order in which a channel's waiting frames are tried: HELLO, which needs no credit, then VC0, then VC1 and VC2 in turn (R595).
DESIGN CHOICE: the turn is kept by peer channel. -/
def Chan.turns (c : Chan) : List Nat := if c.lastVc = 1 then [4, 0, 2, 1] else [4, 0, 1, 2]
/-- The place of a frame among the turns: HELLO stands apart from VC0. -/
def linkTurn (f : FFrame) : Nat := if f.type = 5 then 4 else f.vc

/-- The waiting frame that is sent next: frames of one virtual channel stay in order, and one that lacks credit does not hold another
channel's (R595, R599, R600). -/
def Chan.next? (c : Chan) (passes : Nat → Bool) : Option FFrame :=
  (c.turns.filterMap fun v => c.waiting.find? fun f => linkTurn f = v && passes f.type).find? c.canSend

/-- Send waiting frames while possible. -/
def chanGo (passes : Nat → Bool) : Nat → Nat → Chan → List FFrame → Chan × List FFrame
  | 0, _, c, out => (c, out)
  | n + 1, now, c, out =>
    match c.next? passes with
    | none => (c, out)
    | some f =>
      let (c, g) := ({ c with waiting := c.waiting.erase f, lastVc := if f.vc = 0 then c.lastVc else f.vc }).send now f
      chanGo passes n now c (out ++ [g])

def State.drainChan (s : State) (p peer : Nat) : State :=
  let x := s.port p
  let c := x.chan peer
  let (c, fs) := chanGo (typePasses s x) c.waiting.length s.now c []
  fs.foldl (fun s f => s.sendFrame p f) (s.setPort p (x.setChan peer c))

/-- Put a frame on a peer channel. -/
def State.putFrame (s : State) (p peer : Nat) (f : FFrame) : State :=
  let c := (s.port p).chan peer
  (s.setPort p ((s.port p).setChan peer { c with waiting := c.waiting ++ [f] })).drainChan p peer

/-- A blank frame of this engine. -/
def blankFrame (s : State) (type vc dest : Nat) : FFrame :=
  { type := type, vc := vc, destEngine := dest % 32768, srcEngine := engineId s % 32768, seq := 0, ack := 0, ackValid := false,
    nak := false, creditVc := 0, creditLines := 0, version := 0, destStage := 0, srcStage := 0, specific := 0, payload := [],
    crcOk := true }

/-- Send an ACK frame, with Nak if the peer is to replay (R598); ACK frames carry no Seq of their own and are not replayed.  Without the
credit for its line, or on a port that lets none through, none is sent: what is owed stays owed, and the peer replays by its timeout
(R599, R600). -/
def State.sendAck (s : State) (p peer : Nat) (nak : Bool) : State :=
  if ((s.port p).chan peer).credit 0 = 0 ∨ !typePasses s (s.port p) 7 then s
  else
    let (c, f) := ((s.port p).chan peer).stampAck { blankFrame s 7 0 peer with nak := nak }
    let c := c.setCredit 0 (c.credit 0 - 1)
    (s.setPort p ((s.port p).setChan peer c)).sendFrame p f

/-- Send every unacknowledged frame of a channel again, in order (R598). -/
def State.replayChan (s : State) (p peer : Nat) : State :=
  let c := (s.port p).chan peer
  let x := (s.port p).setChan peer { c with ackAt := s.now, noAck := if c.noAck = 0 then s.now else c.noAck }
  let s := s.setPort p { x with replayed := x.replayed + c.unacked.length }
  c.unacked.foldl (fun s f => s.sendFrame p { f with ack := c.rxSeq, ackValid := true }) s

/-! ## Receiving -/

/-- The channel a type must arrive on (R595). -/
def typeVc (type : Nat) : Nat := match type with | 1 => 1 | 3 => 2 | _ => 0

/-- Count a discarded frame (0x7000:0B). -/
def State.dropFrame (s : State) : State := { s with fabric := { s.fabric with discarded := s.fabric.discarded + 1 } }

/-- Frames acknowledged by an Ack are released. -/
def releaseTo (ack : Nat) (l : List FFrame) : List FFrame :=
  match l.findIdx? fun f => f.seq = ack with
  | some i => l.drop (i + 1)
  | none => l

/-- Take a frame's acknowledgement, replay request and returned credit (R598, R599). -/
def takeAck (s : State) (p peer : Nat) (f : FFrame) : State :=
  let c := (s.port p).chan peer
  let rest := if f.ackValid then releaseTo f.ack c.unacked else c.unacked
  let c := if rest.length < c.unacked.length then { c with unacked := rest, ackAt := s.now, noAck := 0 } else c
  let c := c.setCredit f.creditVc (c.credit f.creditVc + f.creditLines)
  let s := s.setPort p ((s.port p).setChan peer c)
  let s := if f.nak then s.replayChan p peer else s
  s.drainChan p peer

/-- Reserved bits of Specific, and the header fields that a type leaves zero (R594, R596). -/
def frameReserved (f : FFrame) : Bool :=
  let v := f.specific.toNat
  let plain : Bool := f.version = 0 && f.destStage = 0 && f.srcStage = 0
  match f.type with
  | 1 => true
  | 2 => bits v 31 8 = 0
  | 3 => bits v 7 0 = 0
  | 4 => bits v 55 0 = 0
  | 5 => bits v 23 0 = 0 && plain
  | 6 => bits v 71 0 = 0 && plain
  | _ => v = 0 && plain

/-- Receive a frame on a port: the checks, the sequence, the acknowledgement.  The flag tells that the frame is accepted; a frame that is
discarded brings no acknowledgement and no credit, so that a replayed frame's credit counts once (R595, R598, R599, R613). -/
def State.takeFrame (s : State) (p : Nat) (f : FFrame) : State × Bool :=
  let x := s.port p
  let peer := f.srcEngine
  if !f.crcOk then (s.sendAck p peer true, false)
  else if f.vc ≠ typeVc f.type || f.type = 0 || 7 < f.type || (f.type ≠ 5 && f.destEngine ≠ engineId s % 32768) ||
      !frameReserved f || !typePasses s x f.type then (s.dropFrame, false)
  else if f.type = 7 then (takeAck s p peer f, true)
  else if f.seq ≠ (((s.port p).chan peer).rxSeq + 1) % 65536 then (s.sendAck p peer true, false)
  else
    let s := takeAck s p peer f
    let c := (s.port p).chan peer
    let c := if f.type = 5 then c else c.setRet f.vc (c.owedLines f.vc + frameCost f)
    let c := { c with rxSeq := f.seq, owed := c.owed + 1, owedAt := if c.owed = 0 then s.now else c.owedAt }
    let s := s.setPort p ((s.port p).setChan peer c)
    (if 64 ≤ c.owed then s.sendAck p peer false else s, true)

/-! ## Peers and groups -/

/-- The up ports that reach a peer, ascending (R601). -/
def portsTo (s : State) (peer : Nat) : List Nat :=
  (List.range 48).filter fun p =>
    let x := s.port p
    x.state = 3 && (if x.mode = 0 then x.peer = peer else (Tbl.find x.chans peer).isSome)

/-- The digest of a stage table (R604). -/
def stageDigest (tab : List Nat) : Bytes := sha256 (tab.flatMap fun e => leBytes 4 e)

/-- The group of a bound image: more than one stage. -/
def BoundImage.grouped (b : BoundImage) : Bool := 1 < b.img.stages
/-- The engine of a stage. -/
def BoundImage.engineOf (b : BoundImage) (st : Nat) : Nat := nth b.stageTab st 0xFFFF
/-- The other stages' numbers. -/
def BoundImage.others (b : BoundImage) : List Nat := (List.range b.img.stages).filter fun i => i ≠ b.img.stage

/-- A CONTROL frame (R596, R604). -/
def controlFrame (s : State) (dest kind status epoch version dstStage srcStage : Nat) (digest extra : Bytes) : FFrame :=
  { blankFrame s 4 0 dest with
    version := version, destStage := dstStage, srcStage := srcStage
    specific := BitVec.ofNat 80 (kind * 2 ^ 72 + status % 256 * 2 ^ 64 + epoch % 256 * 2 ^ 56)
    payload := slice (leBytes 8 version ++ slice digest 0 32) 0 64 ++ extra }

/-- Send a CONTROL message of an image to a stage, on the lowest port that reaches it (R601). -/
def sendControl (s : State) (b : BoundImage) (st kind status version : Nat) (extra : Bytes) : State :=
  let peer := b.engineOf st
  match portsTo s peer with
  | p :: _ => s.putFrame p peer (controlFrame s peer kind status b.epoch version st b.img.stage (stageDigest b.stageTab) extra)
  | [] => s

/-- Send a CONTROL message to every other stage. -/
def sendAllStages (s : State) (b : BoundImage) (kind status version : Nat) : State :=
  b.others.foldl (fun s st => sendControl s b st kind status version []) s

end Sys2Proof.Machine
end

