-- ==== Sys2Proof/Machine/ServeOps.lean ====
section
/-!
DEFINITION. The serving controller's shared operations: the block pool and the prefix index (R295 to R312), ring records and the end
of a request (R363 to R369, R567), steps that leave the image (R343), and commits (R361, R362, R364, R366, R371).
-/
namespace Sys2Proof.Machine

def custodyOn (s : State) : Bool := s.setting 0x2020 1 0 = 1
/-- The session of a number, if it is open. -/
def State.session? (s : State) (i : Nat) : Option Session := Tbl.find s.boot.sessions i
def State.updCtx (s : State) (c : Nat) (f : Ctx → Ctx) : State :=
  match s.ctx? c with | some x => s.setCtx c (f x) | none => s

/-! ## Attention pairs (R289, R295) -/

/-- A virtual core's attention class, if it has one. -/
def CoreEnt.pair? (e : CoreEnt) : Option (Nat × Nat) := if e.head = 255 then none else some (e.layer, e.head)
/-- The pair index of a virtual core: the number of lower-numbered cores of its pair. -/
def Image.pairIndex (m : Image) (v : Nat) : Nat :=
  match m.cores[v]? with
  | some e => ((m.cores.take v).filter fun x => x.pair? = e.pair?).length
  | none => 0
/-- N_c: the cores of a pair; 0 for an image without attention. -/
def Image.pairSize (m : Image) : Nat :=
  match m.cores.find? fun e => e.pair?.isSome with
  | some e => (m.cores.filter fun x => x.pair? = e.pair?).length
  | none => 0
/-- The virtual cores at a pair index, in ascending layer, then head (the order of a frame's parts). -/
def Image.coresAt (m : Image) (p : Nat) : List Nat :=
  let vs := (List.range m.cores.length).filter fun v => ((m.cores[v]?.bind (·.pair?)).isSome) && m.pairIndex v = p
  let key (v : Nat) : Nat := match m.cores[v]? with | some e => e.layer * 256 + e.head | none => 0
  vs.foldl (fun l v => (l.takeWhile fun w => key w ≤ key v) ++ v :: l.dropWhile fun w => key w ≤ key v) []

def int4On (s : State) (n : Nat) : Bool := s.setting (0x6280 + n) 1 0 = 1
def slotsPer (s : State) (n : Nat) : Nat := if int4On s n then 256 else 128
/-- Blocks of a region's pool (R295); in a pipeline group the smallest pool of its stages (R299). -/
def blocksTotal (s : State) (n : Nat) : Nat :=
  match (s.region n).img with
  | some b =>
    let own := b.img.pairSize * slotsPer s n
    if b.img.stages ≤ 1 then own else min own (Config.otherPool b.stageTab b.img.version)
  | none => 0
/-- MaxContext in force (R373). -/
def maxContext (s : State) (n : Nat) : Nat :=
  let v := s.setting (0x6100 + n) 4 0
  let all := 64 * blocksTotal s n
  if v = 0 ∨ all < v then all else v

/-! ## The block pool -/

def Blk.reset : Blk := { state := .free, count := 0, hash := [] }
def Region.blk (r : Region) (b : Nat) : Blk := Tbl.get r.pool Blk.reset b
def Region.setBlk (r : Region) (b : Nat) (x : Blk) : Region :=
  { r with pool := if x = Blk.reset then Tbl.del r.pool b else Tbl.set r.pool b x }

/-- A block can be allocated: FREE, and in INT4 the even slot of a free pair (R298). -/
def blkFree (s : State) (n nc b : Nat) : Bool :=
  let r := s.region n
  b < blocksTotal s n && (r.blk b).state = .free && (!int4On s n || ((b / nc) % 2 = 0 && (r.blk (b + nc)).state = .free))

/-- The lowest free block at a pair index. -/
def freeAt (s : State) (n nc p : Nat) : Option Nat :=
  ((List.range (slotsPer s n)).map fun i => p + nc * i).find? (blkFree s n nc)

/-- The lowest free block at the first pair index, cyclically from p, that has one (R298). -/
def freeFrom (s : State) (n nc p : Nat) : Option Nat :=
  (List.range nc).findSome? fun i => freeAt s n nc ((p + i) % nc)

/-- Remove a block's index entry. -/
def dropEntry (s : State) (n b : Nat) : State :=
  { s with serving := { s.serving with index := s.serving.index.filter fun e => !(e.region = n && e.block = b) } }

/-- Free the least recently matched PUBLISHED block with count 0 of a region, removing it from the index (R308 source 1). -/
def reclaim (s : State) (n : Nat) : Option State :=
  let r := s.region n
  let cs := s.serving.index.filter fun e => e.region = n && (r.blk e.block).state = .published && (r.blk e.block).count = 0
  (cs.foldl (fun b e => match b with
    | none => some e
    | some (f : PfxEnt) => if e.matched < f.matched then some e else some f) none).map fun e =>
    (dropEntry s n e.block).updRegion n fun r => r.setBlk e.block Blk.reset

/-! ## Frames (R309, R310) -/

/-- Bytes of one slot of a core: the rows of its layout, or the FP8 rows of an open INT4 block. -/
def slotBytes (k : Core) (int4 full : Bool) (slot : Nat) : Bytes :=
  if !int4 then k.mem.read (8 * slot * 2048) 16384
  else if full then k.mem.read (4 * slot * 2048) 16384
  else k.mem.read (4 * slot * 2048) 8192 ++ k.mem.read (1024 * 2048 + 8 * slot) 8

/-- A frame's contents: the block on every layer and head of the stage. -/
def frameBytes (s : State) (n b : Nat) : Bytes :=
  let r := s.region n
  match r.img with
  | none => []
  | some im =>
    let nc := im.img.pairSize
    let opn := int4On s n && (r.blk b).state = .openB
    let raw := (im.img.coresAt (b % nc)).flatMap fun v =>
      match im.placed[v]? with
      | some p => slotBytes (s.core p.core) (int4On s n) opn (b / nc)
      | none => []
    if opn then Config.openFrame false raw else raw

/-- A frame that class 1 accesses can reach: at a 64-byte aligned offset, its lines within the window (R284, R310). -/
def frameFits (w : Window) (sz f : Nat) : Bool := f * sz % 64 = 0 && f * sz + alignUp sz 64 ≤ w.size

/-- The frame size of a region. -/
def frameSize (s : State) (n : Nat) : Nat :=
  match (s.region n).img with
  | some im =>
    let pairs := (im.img.coresAt 0).length
    pairs * (if int4On s n then 8200 else 16384)
  | none => 0

/-- Frames that a region's contexts hold. -/
def framesUsed (s : State) (n : Nat) : List Nat :=
  s.serving.ctxs.flatMap fun e => if e.2.d.region = n then e.2.blocks.filterMap (·.frame) else []

/-- The serving site of a window page: page k lies on the (k mod n)-th of the n sites of the slot's mask (R285). -/
def pageSite (w : Window) (page : Nat) : Option Nat :=
  let ss := (List.range 4).filter fun i => bitAt w.sites i
  match ss with
  | [] => none
  | _ => ss[page % ss.length]?

/-- Write bytes to a window slot, page by page. -/
def winWriteGo : Nat → State → Window → Nat → Bytes → State
  | 0, s, _, _, _ => s
  | f + 1, s, w, off, d =>
    if d.isEmpty then s
    else
      let k := 4096 - off % 4096
      let s := match pageSite w (off / 4096) with
        | some i => s.hostWrite i (w.base + off) (d.take k)
        | none => s
      winWriteGo f s w (off + k) (d.drop k)
def winWrite (s : State) (w : Window) (off : Nat) (d : Bytes) : State := winWriteGo (d.length / 4096 + 2) s w off d

/-- Read bytes of a window slot whose data come with the command that needs them, page by page (R285, R415). -/
def winAskGo : Nat → State → Window → Nat → Nat → State
  | 0, s, _, _, _ => s
  | f + 1, s, w, off, len =>
    if len = 0 then s
    else
      let k := min len (4096 - off % 4096)
      let s := match pageSite w (off / 4096) with
        | some i => s.hostAsk i (w.base + off) k
        | none => s
      winAskGo f s w (off + k) (len - k)
def winAsk (s : State) (n slot off len : Nat) : State :=
  match Tbl.find (s.region n).windows slot with
  | some w => if w.read ∧ off + len ≤ w.size then winAskGo (len / 4096 + 2) s w off len else s
  | none => s

/-- Under custody, the counter block of an eviction frame (R566). -/
def frameBlock (slot frame count off : Nat) : Bytes :=
  leBytes 1 0x45 ++ leBytes 1 slot ++ leBytes 2 frame ++ leBytes 4 count ++ leBytes 8 (off / 16)

/-- Blocks that some context names: the history store keeps their token ids (R394). -/
def historyBlocks (s : State) : Nat :=
  (s.serving.ctxs.map fun e => (e.2.blocks.filter (·.frame.isSome)).length).sum +
    (s.regions.map fun e => (e.2.pool.filter fun b => b.2.count ≠ 0).length).sum

/-- Every core at the block's pair index has compacted it, or none needs to (R296). -/
def compacted (s : State) (n b : Nat) : Bool :=
  let x := (s.region n).blk b
  match (s.region n).img with
  | some im => !int4On s n || x.state = .openB || (im.img.coresAt (b % im.img.pairSize)).all fun v =>
      match im.placed[v]? with | some p => (s.core p.core).packed.contains (b / im.img.pairSize) | none => true
  | none => false

/-- Blocks that are FREE: in INT4 a block occupies both slots of its pair from its allocation until every core has compacted it (R296 step
5, R334). -/
def blocksFree (s : State) (n : Nat) : Nat :=
  let pool := (s.region n).pool
  blocksTotal s n - (pool.filter fun e => e.2.state ≠ .free).length -
    (if int4On s n then (pool.filter fun e => e.2.state = .openB || (e.2.state ≠ .free && !compacted s n e.1)).length else 0)

/-- Evict one block of a context into the lowest free frame of the eviction slot, or leave it (R309); nothing is evicted while the
history store is full (R394). -/
def evictBlk (s : State) (n c i : Nat) : State :=
  let slot := s.setting (0x6280 + n) 2 255
  let r := s.region n
  match s.ctx? c, Tbl.find r.windows slot with
  | some x, some w =>
    match x.blocks[i]? with
    | some cb =>
      let sz := frameSize s n
      let b := cb.blk
      if cb.frame.isSome ∨ (r.blk b).count ≠ 1 ∨ sz = 0 ∨ !w.write ∨ !compacted s n b ∨ 262144 ≤ historyBlocks s then s
      else match leastBelow (w.size / sz) fun f => frameFits w sz f && !(framesUsed s n).contains f with
        | none => s
        | some f =>
          let plain := frameBytes s n b
          let ev := s.serving.evictions + 1
          let data := match custodyOn s, s.session? x.session with
            | true, some se => Config.ctr se.kvKey (frameBlock slot f ev 0) plain
            | _, _ => plain
          let s := winWrite s w (f * sz) data
          let s := dropEntry s n b
          let s := s.updRegion n fun r => r.setBlk b Blk.reset
          let s := { s with serving := { s.serving with evictions := ev } }
          s.setCtx c { x with blocks := x.blocks.set i { blk := b, frame := some f, evict := ev, digest := sha256 plain, openB := (r.blk b).state = .openB } }
    | none => s
  | _, _ => s

/-- Evict a parked context (R309). -/
def evictCtx (s : State) (n c : Nat) : State :=
  match s.ctx? c with
  | some x => (List.range x.blocks.length).foldl (fun s i => evictBlk s n c i) s
  | none => s

/-- The least recently parked context of a region that still holds blocks. -/
def parkedOf (s : State) (n : Nat) : Option Nat :=
  let cs := s.serving.ctxs.filter fun e => e.2.d.region = n && e.2.state = .parked && e.2.blocks.any fun b => b.frame.isNone
  (cs.foldl (fun b e => match b with
    | none => some e
    | some (f : Nat × Ctx) => if e.2.readyFrom < f.2.readyFrom then some e else some f) none).map (·.1)

/-- Find a free block at or after a pair index, reclaiming or evicting when none is FREE (R298, R308). -/
def findBlock (s : State) (n nc p : Nat) : Option (State × Nat) :=
  match freeFrom s n nc p with
  | some b => some (s, b)
  | none =>
    let t := match reclaim s n with
      | some t => t
      | none => match parkedOf s n with | some c => evictCtx s n c | none => s
    (freeFrom t n nc p).map fun b => (t, b)

/-- A slot that is allocated anew is not compacted (R296). -/
def unpack (s : State) (im : BoundImage) (nc b : Nat) : State :=
  (im.img.coresAt (b % nc)).foldl (fun s v => match im.placed[v]? with
    | some p => if (s.core p.core).packed.isEmpty then s else s.updCore p.core fun k => { k with packed := k.packed.filter (· ≠ b / nc) }
    | none => s) s

/-- Allocate the next block of a context as OPEN (R298): at the cursor for block 0, else at B_0 + k. -/
def allocNext (s : State) (c : Nat) : Option State :=
  match s.ctx? c with
  | none => none
  | some x =>
    let n := x.d.region
    match (s.region n).img with
    | none => none
    | some im =>
      let nc := im.img.pairSize
      if nc = 0 then none else
      let k := x.blocks.length
      let p := match x.blocks with | b0 :: _ => (b0.blk + k) % nc | [] => (s.region n).cursor % nc
      match findBlock s n nc p with
      | none => none
      | some (t, b) =>
        let t := (unpack t im nc b).updRegion n fun r =>
          let r := if k = 0 then { r with cursor := (r.cursor + 1) % nc } else r
          r.setBlk b { state := .openB, count := 1, hash := [] }
        some (t.updCtx c fun x => { x with blocks := x.blocks ++ [{ blk := b, frame := none, evict := 0, digest := [], openB := true }] })

/-- Allocate until a context holds blocks for its first m positions. -/
def allocUpto : Nat → State → Nat → Nat → Option State
  | 0, s, c, m => match s.ctx? c with | some x => if m ≤ 64 * x.blocks.length then some s else none | none => none
  | f + 1, s, c, m =>
    match s.ctx? c with
    | none => none
    | some x => if m ≤ 64 * x.blocks.length then some s else (allocNext s c).bind fun t => allocUpto f t c m

/-- Take one count from every block of a context's list (R307). -/
def releaseBlocks (s : State) (n : Nat) (bs : List CtxBlk) : State :=
  bs.foldl (fun s cb =>
    if cb.frame.isSome then s
    else s.updRegion n fun r =>
      let x := r.blk cb.blk
      let k := x.count - 1
      match x.state with
      | .openB => r.setBlk cb.blk Blk.reset
      | .closed => r.setBlk cb.blk (if k = 0 then Blk.reset else { x with count := k })
      | .published => r.setBlk cb.blk { x with count := k }
      | .free => r) s

/-! ## Ring records (R363, R566) -/

/-- A token record before its Phase is set. -/
structure TokRec where
  tok   : Nat
  pos   : Nat
  flags : Nat
  lp    : Nat
deriving DecidableEq, Repr

def TokRec.bytes (r : TokRec) (time : W64) : Bytes :=
  leBytes 16 (r.tok % 2 ^ 32 * 2 ^ 96 + r.pos % 2 ^ 32 * 2 ^ 64 + r.flags % 2 ^ 15 * 2 ^ 48 + time.toNat % 2 ^ 32 * 2 ^ 16 + r.lp % 65536)

def xorBytes (a b : Bytes) : Bytes := List.zipWith (· ^^^ ·) a b

/-- Encrypt TokenId and LogProb of a record (R566). -/
def sealRecord (key : Bytes) (c adm idx : Nat) (b : Bytes) : Bytes :=
  let ks := Config.ctr key (leBytes 4 0x52 ++ leBytes 4 c ++ leBytes 4 adm ++ leBytes 4 idx) (List.replicate 16 0)
  xorBytes (slice b 0 2) (slice ks 4 2) ++ slice b 2 10 ++ xorBytes (slice b 12 4) (slice ks 0 4)

/-- A ring as it will stand once what it owes is written. -/
def Ring.atEnd (g : Ring) : Ring := { g with written := (g.written + g.owed.length) % 2 ^ 32 }

/-- Order one record of a request: it is written when the ring has room above what is kept free, behind what the ring owes, and waits for room
otherwise, as no record is ever dropped (R365). -/
def State.orderRecord (s : State) (r : Nat) (b : Bytes) (kept : Nat) : State :=
  match s.ring? r with
  | none => s
  | some g =>
    if g.owed.isEmpty ∧ kept + 1 ≤ g.free then s.putRecord r b
    else s.setRing r { g with owed := g.owed ++ [g.atEnd.stamp b] }

/-- Write one record of a request, T = 0. -/
def putToken (s : State) (c : Nat) (r : TokRec) : State :=
  match s.ctx? c with
  | none => s
  | some x =>
    match s.ring? x.d.ring with
    | none => s
    | some g =>
      let b := r.bytes s.almanac
      if custodyOn s then
        let key := ((s.session? x.session).map (·.dataKey)).getD []
        let s := s.setCtx c { x with recs := x.recs ++ g.atEnd.stamp b }
        s.orderRecord x.d.ring (sealRecord key c x.adm g.atEnd.written b) 1
      else s.orderRecord x.d.ring b 1

/-- Write a step's records together, then interrupt (R364, R366). -/
def putTokens (s : State) (c ring : Nat) (rs : List TokRec) : State :=
  if rs.isEmpty then s else (rs.foldl (fun s r => putToken s c r) s).ringIrq ring

/-! ## The end of a request (R367 to R369) -/

/-- The part of a credit wait that has run by now, in ns. -/
def Ctx.waitsNow (x : Ctx) (now : Nat) : Nat := if x.state = .paused ∨ x.state = .parked then now - x.pauseFrom else 0
/-- The part of it since the last commit. -/
def Ctx.waitsSince (x : Ctx) (now : Nat) : Nat := if x.state = .paused ∨ x.state = .parked then now - max x.pauseFrom x.lastCommit else 0

/-- The statistics record; a credit wait in which the request ends counts up to the end. -/
def statsBytes (s : State) (x : Ctx) : Bytes :=
  let c4 (v : Nat) : Bytes := leBytes 4 (min v (2 ^ 32 - 1))
  leBytes 8 x.admTime ++ leBytes 8 x.first ++ leBytes 8 s.almanac.toNat ++ c4 x.sent ++ c4 x.genSteps ++ c4 x.prefilled ++
    c4 (64 * x.matched) ++ c4 (x.maxGap / 1000) ++ c4 x.lateN ++
    c4 x.upkeepNs ++ c4 x.tuneNs ++ c4 x.wakeNs ++ c4 ((x.creditNs + x.waitsNow s.now) / 1000)


/-- The contexts that STEPREQ names: itself, or for a step of several requests those with a segment in the delivered step that the core's STEP
began; where nothing has recorded which that is (a record of another engine), one of those in flight, which one nothing fixes. -/
def namedCtxs (s : State) (n : Nat) (req : W32) (seq : Option Nat) : List Nat × State :=
  let live (c : Nat) : Bool := match s.ctx? c with | some x => x.d.region = n && x.state ≠ .ended | none => false
  if req = 0xFFFFFFFF then ([], s)
  else if req = 0xFFFFFFFE then
    let many := manySteps (s.region n)
    let names (p : StepRec) : List Nat := ((p.segs.map (·.ctx)).eraseDups).filter live
    match seq with
    | some q => (match many.find? fun p => p.seq = q with | some p => names p | none => [], s)
    | none =>
      let (base, s) := s.draw 1
      match many[Config.whichStep base % many.length]? with
      | some p => (names p, s)
      | none => ([], s)
  else ([req.toNat].filter live, s)

/-- Record a wait of a core's step against the requests that its STEPREQ names (R357). -/
def bearWait (s : State) (c : Nat) (req : W32) (seq : Option Nat) (ns : Nat) (f : Ctx → Nat → Ctx) : State :=
  match ownerOf s c with
  | none => s
  | some n =>
    if ns = 0 then s
    else
      let (cs, s) := namedCtxs s n req seq
      cs.foldl (fun s c => s.updCtx c fun x => f x ns) s

/-- A step of the context with outputs is in flight: one that has a commit point. -/
def outputsInFlight (s : State) (n c : Nat) : Bool := (s.region n).steps.any fun p => p.segs.any fun g => g.ctx = c && g.outs ≠ 0

/-- A context has a step in flight, or waiting to be delivered again. -/
def inFlight (s : State) (n c : Nat) : Bool :=
  let has (l : List StepRec) : Bool := l.any fun r => r.segs.any fun g => g.ctx = c
  has (s.region n).steps || has (s.region n).again

/-- Take a context's segments out of the steps to be delivered again. -/
def dropAgain (s : State) (n c : Nat) : State :=
  s.updRegion n fun r => { r with
    again := (r.again.map fun p => { p with segs := p.segs.filter fun g => g.ctx ≠ c }).filter fun p => !p.segs.isEmpty }

/-- End a request with a status and detail: statistics and seal, the terminal record unless its ring's site is lost, its blocks, and
the watches on it; its context is free at once when no step of it is in flight (R341, R343, R367 to R369, R567, R631). -/
def endReq (s : State) (c status detail : Nat) : State :=
  match s.ctx? c with
  | none => s
  | some x =>
    if x.state = .ended ∨ x.tune.isSome then s else
    let n := x.d.region
    let term := TokRec.bytes ⟨status, x.sent, 0x4000, detail⟩ s.almanac
    let s := if x.d.stats = 0 then s else
      let s := s.hostWrite x.site x.d.stats (statsBytes s x)
      if custodyOn s then
        let key := ((s.session? x.session).map (·.mac)).getD []
        let tb := match s.ring? x.d.ring with | some g => g.atEnd.stamp term | none => term
        s.hostWrite x.site (x.d.stats + 64)
          (hmac key (leBytes 4 c ++ leBytes 4 x.adm ++ x.recs ++ x.vout ++ tb) ++ List.replicate 32 0)
      else s
    let s := match s.ring? x.d.ring with
      | some g => if (s.site g.site).lost then s else (s.orderRecord x.d.ring term 0).ringIrq x.d.ring
      | none => s
    let s := releaseBlocks s n x.blocks
    let s := dropAgain s n c
    let s := { s with observe := { s.observe with
      watches := Tbl.map (fun _ w => if w.ctx = c ∧ w.state ≠ 0 then { w with state := 3 } else w) s.observe.watches } }
    if inFlight s n c then s.setCtx c { x with state := .ended, blocks := [] } else s.delCtx c

/-- End every request of a list. -/
def endReqs (s : State) (cs : List Nat) (status detail : Nat) : State := cs.foldl (fun s c => endReq s c status detail) s

/-- The live requests of a region. -/
def liveOf (s : State) (n : Nat) : List Nat :=
  (s.serving.ctxs.filter fun e => e.2.d.region = n && e.2.state ≠ .ended && e.2.tune.isNone).map (·.1)

/-! ## Credits (R365) -/

/-- The M records that a step with outputs reserves: 1 in mode 2. -/
def Ctx.reserveFor (x : Ctx) (outs : Nat) : Nat :=
  if outs = 0 then 0 else if x.d.mode = 2 then 1
  else (x.d.depth + 1) * (if x.d.mode = 1 then 1 + x.d.cands else 1)

/-- The ring has room for a reservation and the terminal record, besides what it owes. -/
def hasCredit (s : State) (x : Ctx) (outs : Nat) : Bool :=
  match s.ring? x.d.ring with
  | some g => x.reserveFor outs = 0 || x.reserve + g.owed.length + x.reserveFor outs + 1 ≤ g.free
  | none => true

/-- Positions of a generation step (R361). -/
def Ctx.treeSize (x : Ctx) : Nat := 1 + x.d.depth * x.d.width

/-- A request that is ready but for credits pauses (R365). -/
def checkCredit (s : State) (c : Nat) : State :=
  s.updCtx c fun x =>
    if x.state ≠ .generate then x
    else if hasCredit s x x.treeSize then { x with readyFrom := s.now } else { x with state := .paused, pauseFrom := s.now }

/-- Positions a context's prefill covers: its prompt, or what a reprefill repeats (R394). -/
def Ctx.prefillEnd (x : Ctx) : Nat := if x.refill = 0 then x.promptLen else x.refill

/-! ## Reprefills (R394) -/

/-- Reprefill a context: blocks and frames go, and every position it had processed is prefilled ahead of other prefills; before its
first commit it starts from position 0. -/
def reprefill (s : State) (n c : Nat) : State :=
  match s.ctx? c with
  | none => s
  | some x =>
    if x.state = .ended ∨ (x.state = .queued ∧ x.blocks.isEmpty) then s else
    let s := dropAgain (releaseBlocks s n x.blocks) n c
    let done := if x.done < x.refill then x.refill else x.done
    s.setCtx c { x with
      blocks := [], matched := 0, done := 0, refill := if x.lastCommit = 0 then 0 else done, ahead := true, path := [], reserve := 0
      state := if x.state = .parked ∨ x.state = .paused ∨ x.state = .queued then x.state else .prefill }

/-- Credits have arrived at a ring: it writes what it owes, and paused and parked requests with room go on (R341, R342, R365); one that a swap left parked is
reprefilled first (R393). -/
def creditsBack (s : State) (r : Nat) : State :=
  let s := s.payOwed r
  s.serving.ctxs.foldl (fun s e =>
    let x := e.2
    if x.d.ring = r ∧ x.tune.isNone ∧ (x.state = .paused ∨ x.state = .parked) ∧ hasCredit s x (max 1 x.treeSize) then
      let s := if x.refillDue then reprefill s x.d.region e.1 else s
      s.updCtx e.1 fun x => { x with
        refillDue := false, state := if x.done < x.prefillEnd then .prefill else .generate
        creditEnd := s.now, readyFrom := s.now, creditNs := x.creditNs + x.waitsNow s.now
        pausedNs := x.pausedNs + x.waitsSince s.now }
    else s) s

/-! ## Commits -/

/-- A result of R352 in the layout of R606. -/
def resTok (b : Bytes) : Nat := fieldAt b 8 4
def resLp (b : Bytes) : Nat := fieldAt b 12 2
def resNode (b : Bytes) : Nat := fieldAt b 4 1
def resPos (b : Bytes) : Nat := fieldAt b 0 4
/-- Candidates: id and log-probability. -/
def resCands (b : Bytes) : List (Nat × Nat) :=
  (List.range (fieldAt b 5 1)).map fun i => (fieldAt b (64 + 8 * i) 4, fieldAt b (68 + 8 * i) 2)
/-- Guesses of a number of heads, each a ranked list. -/
def resGuesses (b : Bytes) (heads : Nat) : List (List Nat) :=
  let w := fieldAt b 6 1
  let off := 64 + alignUp (8 * fieldAt b 5 1) 64
  (List.range heads).map fun h => (List.range w).map fun j => fieldAt b (off + 4 * (w * h + j)) 4
/-- The raw vector's n FP32 elements. -/
def resVector (b : Bytes) (heads n : Nat) : List W32 :=
  let off := 64 + alignUp (8 * fieldAt b 5 1) 64 + alignUp (4 * fieldAt b 6 1 * heads) 64
  (List.range n).map fun i => BitVec.ofNat 32 (fieldAt b (off + 4 * i) 4)

/-- The guess of tree node i ≥ 1 (R361). -/
def Ctx.guess (x : Ctx) (i : Nat) : Nat := nth (nth x.guesses ((i - 1) / x.d.width) []) ((i - 1) % x.d.width) 0

/-- The child of a node whose guess equals a token: only the root and rank-0 nodes have children (R361). -/
def Ctx.childOf (x : Ctx) (depth node tok : Nat) : Option Nat :=
  if depth < x.d.depth ∧ (node = 0 ∨ (node - 1) % x.d.width = 0) then
    ((List.range x.d.width).map fun j => 1 + depth * x.d.width + j).find? fun i => x.guess i = tok
  else none

/-- Verification (R362): the nodes visited with their sampled tokens. -/
def Ctx.verify (x : Ctx) (tokAt : Nat → Nat) (last : Nat → Bool) : Nat → Nat → Nat → Nat → List (Nat × Nat)
  | 0, _, _, _ => []
  | f + 1, depth, node, room =>
    if room = 0 then [] else
    let y := tokAt node
    (node, y) ::
      if last y ∨ room = 1 then []
      else match x.childOf depth node y with
        | some i => Ctx.verify x tokAt last f (depth + 1) i (room - 1)
        | none => []

/-- Flags of a token record: STOP, EOS, SPEC, LP (R363). -/
def tokFlags (stop eos spec lp : Bool) : Nat :=
  (if stop then 0x2000 else 0) + (if eos then 0x1000 else 0) + (if spec then 0x200 else 0) + (if lp then 0x100 else 0)

/-- The time since the last commit, less the credit waits in it, one that still runs among them. -/
def Ctx.gap (x : Ctx) (now : Nat) : Nat := if x.lastCommit = 0 then 0 else now - x.lastCommit - x.pausedNs - x.waitsSince now

/-- TbtTarget in force, in ns; 0 none (R336, R354). -/
def tbtOf (s : State) (x : Ctx) : Nat := 1000 * (if x.d.tbt = 0 then s.setting (0x6100 + x.d.region) 2 0 else x.d.tbt)
/-- Lateness of a request in GENERATE, in ns (R354). -/
def lateness (s : State) (x : Ctx) : Nat :=
  let t := tbtOf s x
  if t = 0 ∨ x.state ≠ .generate then 0 else s.now - max x.lastCommit x.creditEnd - t

/-- Bookkeeping at a commit point. -/
def Ctx.committed (x : Ctx) (s : State) (gen : Bool) : Ctx :=
  { x with
    first := if x.first = 0 then s.almanac.toNat else x.first
    maxGap := max x.maxGap (x.gap s.now)
    lateN := x.lateN + (if gen && lateness s x ≠ 0 then 1 else 0)
    genSteps := x.genSteps + (if gen then 1 else 0)
    lastCommit := s.now, pausedNs := 0, promoted := false }

/-- After a commit: the request ends when it is complete, or when its deadline has passed; otherwise it goes on (R367, R371). -/
def afterCommit (s : State) (c : Nat) (complete : Bool) : State :=
  match s.ctx? c with
  | none => s
  | some x =>
    if complete then endReq s c 0 0
    else if x.dead then endReq s c 2 0
    else checkCredit s c

/-- The commit of a sampled step: records in position order with their candidates, then what follows (R362, R364, R366). -/
def commitTokens (s : State) (c : Nat) (v : ServSec) (g : Seg) (gen : Bool) (res : List (Nat × Bytes)) : State :=
  match s.ctx? c with
  | none => s
  | some x =>
    let rb (i : Nat) : Bytes := ((res.find? fun e => e.1 = i).map (·.2)).getD []
    let stop (y : Nat) : Bool := x.d.stops.contains y
    let eos (y : Nat) : Bool := y = v.eosTok
    let visited := x.verify (fun i => resTok (rb i)) (fun y => stop y || eos y) (if gen then x.d.depth + 1 else 1) 0 0
      (x.d.maxTokens - x.sent)
    let lp := x.d.logProb
    let p0 := if gen then g.base + 1 else x.promptLen
    let recs := visited.zipIdx.flatMap fun e =>
      let y := e.1.2
      { tok := y, pos := p0 + e.2, flags := tokFlags (stop y) (eos y) (e.2 ≠ 0) lp, lp := if lp then resLp (rb e.1.1) else 0 : TokRec } ::
        (if x.d.mode = 1 then (resCands (rb e.1.1)).zipIdx.map fun k =>
          { tok := k.1.1, pos := p0 + e.2, flags := 0x800 + tokFlags false false (e.2 ≠ 0) lp + (k.2 + 1),
            lp := if lp then k.1.2 else 0 : TokRec }
        else [])
    let a := visited.length
    let lastNode := match visited.getLast? with | some e => e.1 | none => 0
    let done := match visited.getLast? with | some e => stop e.2 || eos e.2 | none => false
    let s := putTokens s c x.d.ring recs
    let s := s.updCtx c fun x => { x.committed s gen with
      state := .generate, sent := x.sent + a, toks := x.toks ++ visited.map (·.2), done := if gen then g.base + a else x.done,
      path := (visited.drop 1).map (·.1), prevBase := g.base, guesses := resGuesses (rb lastNode) x.d.depth,
      reserve := x.reserve - x.reserveFor g.outs }
    afterCommit s c (done || x.d.maxTokens ≤ x.sent + a)

/-- The bytes of one raw vector (R360). -/
def vectorBytes (v : ServSec) (xs : List W32) : Bytes :=
  let b := if v.outFp16 then xs.flatMap fun w => leBytes 2 (fmtOf 3 (f32val w)).1 else xs.flatMap fun w => leBytes 4 w.toNat
  slice b 0 (alignUp b.length 64)
def vecSize (v : ServSec) : Nat := alignUp (v.outWidth * (if v.outFp16 then 2 else 4)) 64

/-- Write one vector of a request (R360, R566) and its record. -/
def putVector (s : State) (c : Nat) (v : ServSec) (pos : Nat) (b : Bytes) : State :=
  match s.ctx? c with
  | none => s
  | some x =>
    let plain := vectorBytes v (resVector b 0 v.outWidth)
    let off := x.sent * vecSize v
    let data := match custodyOn s, s.session? x.session with
      | true, some se => Config.ctr se.dataKey (leBytes 4 0x56 ++ leBytes 4 c ++ leBytes 4 x.adm ++ leBytes 4 (off / 16)) plain
      | _, _ => plain
    let s := s.hostWrite x.site (x.d.outAddr + off) data
    let s := if custodyOn s then s.updCtx c fun x => { x with vout := x.vout ++ plain } else s
    let s := putToken s c ⟨x.sent, pos, 0x400, 0⟩
    s.updCtx c fun x => { x with sent := x.sent + 1 }

/-- The commit of a step of raw vectors (mode 2). -/
def commitVectors (s : State) (c : Nat) (v : ServSec) (g : Seg) (res : List (Nat × Bytes)) : State :=
  match s.ctx? c with
  | none => s
  | some x =>
    let ps := (List.range g.outs).map fun i => g.base + g.n - g.outs + i
    let s := (ps.foldl (fun s p => putVector s c v p (((res.find? fun e => e.1 = p + 1).map (·.2)).getD [])) s).ringIrq x.d.ring
    let s := s.updCtx c fun x => { x.committed s false with reserve := x.reserve - x.reserveFor g.outs }
    afterCommit s c (x.d.maxTokens ≤ ((s.ctx? c).map (·.sent)).getD 0)

/-! ## A step leaves the image -/

/-- Keep the newest 64 samples. -/
def keep64 (l : List Nat) (x : Nat) : List Nat := (l ++ [x]).drop (l.length + 1 - 64)

/-- A step has left the final core: contexts that ended are free once no step of theirs remains, and prefill goes on or ends
(R341, R343, R356). -/
def stepLeft (s : State) (n : Nat) (p : StepRec) : State :=
  let s := s.updRegion n fun r => { r with
    steps := r.steps.filter fun q => q.seq ≠ p.seq
    lats := if p.kind = 1 then keep64 r.lats (s.now - p.at_) else r.lats }
  p.segs.foldl (fun s g =>
    match s.ctx? g.ctx with
    | none => s
    | some x =>
      let x := if p.kind = 1 ∧ g.outs = 0 then { x with prefilled := x.prefilled + g.n } else x
      let x := { x with results := x.results.filter fun e => e.1 ≠ p.seq }
      let s := s.setCtx g.ctx x
      if x.state = .ended then (if inFlight s n g.ctx then s else s.delCtx g.ctx)
      else if p.kind = 1 ∧ x.refill ≠ 0 then
        if x.refill ≤ g.base + g.n then
          checkCredit (s.setCtx g.ctx { x with
            refill := 0, ahead := false, readyFrom := s.now, state := if x.refill < x.promptLen then .prefill else .generate }) g.ctx
        else if x.dead then endReq s g.ctx 2 0 else s
      else if p.kind = 1 ∧ x.d.maxTokens = 0 ∧ x.promptLen ≤ g.base + g.n then endReq s g.ctx 0 0
      else if p.kind = 1 ∧ g.outs = 0 ∧ x.dead ∧ !outputsInFlight s n g.ctx then endReq s g.ctx 2 0
      else s) s

end Sys2Proof.Machine
end

