-- ==== Sys2Proof/Machine/RegionOps.lean ====
section
/-!
DEFINITION. Routes of a tenant region under R225 to R231, the test of check 4 of R251 on them, and the routes it forbids when a
router becomes a hole in service (R253).
-/
namespace Sys2Proof.Machine

/-! ## Routes -/

/-- The routers a packet visits from a router to its destination; none when it is discarded or loops (R231). -/
def pathGo (s : State) : Nat → Packet → Nat → Option (List Nat)
  | 0, _, _ => none
  | n + 1, p, loc =>
    if loc = p.dest then some [loc]
    else match nextHop s p loc with
      | .go c d _ _ => (pathGo s n { p with detour := d } c).map (loc :: ·)
      | .drop => none
def pathOf (s : State) (op region src dest : Nat) : Option (List Nat) := pathGo s 76800 (blankPacket op region dest src) src

/-- Pairs of links that follow each other on a path: the dependencies of its channel. -/
def depsOf : List Nat → List ((Nat × Nat) × (Nat × Nat))
  | a :: b :: c :: t => ((a, b), (b, c)) :: depsOf (b :: c :: t)
  | _ => []

/-- Links reached from a set of links along dependencies. -/
def reachGo (deps : List ((Nat × Nat) × (Nat × Nat))) : Nat → List (Nat × Nat) → List (Nat × Nat)
  | 0, l => l
  | n + 1, l =>
    let m := (deps.filter fun d => l.contains d.1 && !l.contains d.2).map (·.2)
    if m.isEmpty then l else reachGo deps n (l ++ m.eraseDups)

/-- A dependency lies on a cycle. -/
def onCycle (deps : List ((Nat × Nat) × (Nat × Nat))) (d : (Nat × Nat) × (Nat × Nat)) : Bool :=
  (reachGo deps deps.length [d.2]).contains d.1

/-- The routes of a region: between two cores, and between a core and its exit router in either direction; a kind of packet tells the
permitted area. -/
def regionRoutes (s : State) (n : Nat) : List (Nat × Nat × Nat) :=
  let r := s.region n
  let cs := (rectCores r.nw r.se).filter fun c => !isHole s c
  (cs.flatMap fun a => (cs.filter fun b => b ≠ a).map fun b => (1, a, b)) ++
  cs.flatMap fun a => match exitRouter r.exit a with
    | some x => if x = a then [] else [(0xB, a, x), (0xC, x, a)]
    | none => []

/-- The routes that fail check 4: dropped, looping, or part of a cyclic channel dependency.  The channel of class 1 and 2 data
carries every route, so its graph holds every other channel's. -/
def badRoutes (s : State) (n : Nat) : List (Nat × Nat) :=
  let ps := (regionRoutes s n).map fun x => ((x.2.1, x.2.2), pathOf s x.1 n x.2.1 x.2.2)
  let deps := (ps.flatMap fun x => match x.2 with | some l => depsOf l | none => []).eraseDups
  let cyc := deps.filter (onCycle deps)
  (ps.filter fun x => match x.2 with | some l => (depsOf l).any fun d => cyc.contains d | none => true).map (·.1)

/-- Check 4 of R251. -/
def routesOk (s : State) (n : Nat) : Bool := (badRoutes s n).isEmpty

/-! ## A new hole (R227, R253) -/

/-- The fault table of a router, which always shows the holes beside it: bits 0 north, 1 east, 2 south, 3 west. -/
def faultTable (s : State) (c : Nat) : BitVec 4 :=
  let bit (n : Option Nat) (i : Nat) : BitVec 4 := match n with | some x => if isHole s x then 1 <<< i else 0 | none => 0
  bit (north c) 0 ||| bit (east c) 1 ||| bit (south c) 2 ||| bit (west c) 3

/-- The router lies in a region's permitted area or borders it. -/
def touches (s : State) (n c : Nat) : Bool :=
  let p := blankPacket 0xB n c c
  permitted s p c || [north c, east c, south c, west c].any fun x => match x with | some y => permitted s p y | none => false

/-- A router became a hole in service: check 4 again for every active region it concerns (R227, R253). -/
def newHole (s : State) (c : Nat) : State :=
  { s with regions := Tbl.map (fun n r => if r.state = 1 ∧ touches s n c then { r with forbidden := badRoutes s n } else r) s.regions }

end Sys2Proof.Machine
end

