-- ==== Sys2Proof/Machine/FaultOps.lean ====
section
/-!
DEFINITION. The fault service's shared operations: error records (R586, R587), core death and fencing (R573), the requests a fault
ends (R576, R580), the start of an image flush (R576, R579), and FAULTED (R584).
-/
namespace Sys2Proof.Machine

/-! ## Error records -/

/-- The 32 bytes of an error record (R586). -/
def ErrRec.bytes (r : ErrRec) : Bytes :=
  leBytes 32 (4 * 2 ^ 248 + r.code % 65536 * 2 ^ 224 + (match r.core with | some c => coreByteId c | none => 0xFFFF) * 2 ^ 208 +
    r.power.getD 255 % 256 * 2 ^ 200 + r.region.getD 255 % 256 * 2 ^ 192 + r.ctx.toNat * 2 ^ 160 + r.kind.toNat * 2 ^ 144 +
    r.bundle % 4096 * 2 ^ 132 + r.slot % 4 * 2 ^ 130 + r.time.toNat * 2 ^ 64 + r.aux0.toNat * 2 ^ 32 + r.aux1.toNat)

/-- A record that names no core and no step. -/
def plainRec (s : State) (code : Nat) (region : Option Nat) (aux0 aux1 : Nat) : ErrRec :=
  { code := code, core := none, power := none, region := region, ctx := 0xFFFFFFFF, kind := 0xFFFF, bundle := 0, slot := 0,
    time := s.almanac, aux0 := BitVec.ofNat 32 aux0, aux1 := BitVec.ofNat 32 aux1 }

/-- Write a record: the log of 64, the event rings that select it, and the Sillage stream (R587). -/
def State.recordErr (s : State) (r : ErrRec) : State :=
  let f := s.faults
  let s := { s with faults := { f with log := (r :: f.log).take 64, records := (f.records + 1) % 2 ^ 32 } }
  let b := r.bytes
  let s := (s.eventRings 0).foldl (fun s g => s.postTo b g) s
  s.sil 4 (match r.core with | some c => silCore c r.region | none => silCentral 4 r.region) b

/-! ## Images and cores -/

/-- The cores that hold an image's virtual cores. -/
def Region.imgCores (r : Region) : List Nat := match r.img with | some b => b.placed.map (·.core) | none => []
/-- The virtual core that a core of the region holds. -/
def vcoreAt (s : State) (n c : Nat) : Option Nat := firstIdx (· = c) (s.region n).imgCores
/-- The moved virtual core for which the running relocation has chosen a core (R282). -/
def Region.chosenFor (r : Region) (c : Nat) : Option Nat :=
  match r.op with
  | some o => if o.phase = .relocate then o.moved.find? fun v => (o.spots[v]?).map (·.core) = some c else none
  | none => none
/-- The virtual core that a core holds, or that a running relocation brings to it. -/
def holderOf (s : State) (n c : Nat) : Option Nat :=
  match vcoreAt s n c with | some v => some v | none => (s.region n).chosenFor c
/-- Queue a relocation that concerns some cores: in trigger order, but next when it moves a core that the running one has chosen (R282). -/
def Region.queueReloc (r : Region) (x : List Nat × List Nat × Option Nat) (cs : List Nat) : Region :=
  if cs.any fun c => (r.chosenFor c).isSome then { r with relocs := r.relocs.take 1 ++ x :: r.relocs.drop 1 }
  else { r with relocs := r.relocs ++ [x] }
/-- A request pinned to the served version that still runs; parked ones count (R393). -/
def pinnedOld (s : State) (n version : Nat) : Bool :=
  s.serving.ctxs.any fun e => e.2.d.region = n && e.2.state ≠ .ended && e.2.tune.isNone && e.2.pinned = some version
/-- The barrier of a swap's second phase is closed: by its policy or its deadline, or under DRAIN because no request of the old version
remains (R393). -/
def drainShut (s : State) (n : Nat) (o : LoadOp) : Bool :=
  o.closed || (o.img.stage = 0 && o.policy = 0 && (match (s.region n).img with | some b => !pinnedOld s n b.version | none => false))
/-- The stage 0 engine of a group controls it; a later stage does not (R604). -/
def laterStage (s : State) (n : Nat) : Bool :=
  match (s.region n).img with | some b => b.grouped && b.img.stage ≠ 0 | none => false
/-- The image's step barrier is closed: a flush, a runnable relocation, a swap past its second phase's hold, or FAULTED (R280, R392,
R576, R584). -/
def barrierClosed (s : State) (n : Nat) : Bool :=
  let r := s.region n
  r.state = 2 || r.flush.isSome || (!r.relocs.isEmpty && (match r.op with | none => true | some o => o.phase = .relocate)) ||
    (match r.op with
     | some o => o.swap && (o.phase = .rewrite || o.phase = .activate || o.phase = .rollback ||
        (o.phase = .drain && drainShut s n o))
     | none => false)

/-! ## The end of a tuning job (R330, R580) -/

/-- A tuning job and its private context go. -/
def dropJob (s : State) (h : Nat) : State :=
  match s.serving.jobs.find? fun j => j.handle = h with
  | none => s
  | some j =>
    let s := { s with serving := { s.serving with jobs := s.serving.jobs.filter fun x => x.handle ≠ h } }
    match s.ctx? j.ctx with
    | none => s
    | some x =>
      let s := dropAgain (releaseBlocks s j.region x.blocks) j.region j.ctx
      if inFlight s j.region j.ctx then s.setCtx j.ctx { x with state := .ended, blocks := [] } else s.delCtx j.ctx

/-- End a tuning job: its handle completes, its private context and its place go. -/
def endJob (s : State) (h status detail : Nat) : State :=
  if s.serving.jobs.any fun j => j.handle = h then (dropJob s h).finish h status detail 0 0 else s

/-- End what a context stands for with STEP_FAULT: a request, or the tuning job of a private context (R576 step 3, R580). -/
def endFaulted (s : State) (c code : Nat) : State :=
  match s.ctx? c with
  | some x => match x.tune with | some h => endJob s h 5 code | none => endReq s c 3 code
  | none => s

/-- End the contexts that STEPREQ names; answers how many requests ended. -/
def endNamed (s : State) (n : Nat) (req : W32) (seq : Option Nat) (code : Nat) : State × Nat :=
  let (cs, s) := namedCtxs s n req seq
  (cs.foldl (fun s c => endFaulted s c code) s, cs.length)

/-! ## Vigil -/

/-- A region's Vigil arm ends without a dump: the arming handle completes OK with Result0 0 (R634). -/
def disarmVigil (s : State) (n : Nat) : State :=
  match (s.region n).vigil with
  | some v => (s.updRegion n fun r => { r with vigil := none }).finish v.handle 0 0 0 0
  | none => s

/-! ## The image flush begins -/

/-- Begin the flush of a region's image: at stage 0 of a group the epoch rises and every stage is told to stop (R576, R579, R604).
A flush that runs is not begun again (R585). -/
def startFlush (s : State) (n code : Nat) : State :=
  let r := s.region n
  match r.img with
  | none => s
  | some b =>
    if r.flush.isSome ∨ !b.bound then s
    else
      let lead := b.grouped && b.img.stage = 0
      let b := if lead then { b with epoch := (b.epoch + 1) % 256, flushed := [] } else b
      let s := s.setRegion n { r with img := some b, flush := some { phase := 0, since := s.now, code := code } }
      if lead then sendAllStages s b 10 1 b.version else s

/-- Tell stage 0 of a step fault or core death on a later stage, with the record (R579). -/
def tellFault (s : State) (n : Nat) (rec : Bytes) : State :=
  match (s.region n).img with
  | some b => sendControl s b 0 9 0 b.version (slice rec 0 64)
  | none => s

/-- What follows a fault record on a core of a region's image: the flush, here or at stage 0 (R576, R579). -/
def flushFor (s : State) (n code : Nat) (rec : Bytes) : State := if laterStage s n then tellFault s n rec else startFlush s n code

/-! ## FAULTED (R584) -/

/-- A region becomes FAULTED: image deactivated, every request ended, record and event; the barrier stays closed, and a flush under way
runs on. -/
def faultRegion (s : State) (n code v : Nat) : State :=
  let r := s.region n
  let cs := liveOf s n
  let s := endReqs s cs 3 code
  let jobs := (s.serving.jobs.filter fun j => j.region = n).map (·.handle)
  let s := jobs.foldl (fun s h => endJob s h 5 code) s
  let hs := r.relocs.filterMap (·.2.2)
  let s := hs.foldl (fun s h => s.finish h 4 5 0 0) s
  let s := match r.op with
    | some o => (match o.handle with | some h => s.finish h 4 17 0 0 | none => s)
    | none => s
  let s := s.updRegion n fun r => { r with
    state := 2, op := none, relocs := [], img := r.img.map fun b => { b with active := false } }
  let s := s.recordErr (plainRec s code (some n) v cs.length)
  s.postEvent 9 0 n 0

/-! ## Core death and fencing -/

/-- The cause number of a fence from its code 0x0201 to 0x0205. -/
def fenceCause (code : Nat) : Nat := code - 0x0200

/-- A core is judged dead (R573): its work is discarded, it is fenced, a dead router becomes a hole, the record is written with the
requests its step ends, the flush begins, and repair is queued: a relocation under device placement, FAULTED under compiler
placement (R581, R584). -/
def judgeDead (s : State) (c code aux0 : Nat) : State :=
  let k := s.core c
  if k.fence.isSome then s else
  let req : W32 := if k.run = .issuing ∨ k.run = .frozen then k.seq.stepReq else 0xFFFFFFFF
  let s := odPending (s.haltCore c fun h => { h with fence := some (fenceCause code), report := none, restartBy := none }) 0x2250 2
  let s := if code = 0x0204 ∨ code = 0x0205 then newHole s c else s
  let owner := ownerOf s c
  let v := match owner with | some n => holderOf s n c | none => none
  let mk (aux1 : Nat) : ErrRec :=
    { code := code, core := some c, power := some (powerOf c), region := owner, ctx := req, kind := k.seq.stepKind, bundle := 0,
      slot := 0, time := s.almanac, aux0 := BitVec.ofNat 32 aux0, aux1 := BitVec.ofNat 32 aux1 }
  match owner, v with
  | some n, some v =>
    let (cs, s) := namedCtxs s n req k.seq.stepSeq
    let s := s.recordErr (mk cs.length)
    let s := cs.foldl (fun s c => endFaulted s c code) s
    let r := s.region n
    match r.img with
    | none => s
    | some b =>
      if !b.bound then
        -- a fence during a load: R265, row SHARD_ARRIVAL and the binding take it up
        s
      else if s.setting 0x2010 1 1 = 0 then faultRegion (flushFor s n code (mk cs.length).bytes) n 0x0302 v
      else
        let op := r.op.map fun o =>
          if o.swap && o.failed.isNone then { o with failed := some (4, 17, coreArray c 0) } else o
        let s := s.setRegion n { r.queueReloc ([v], [c], none) [c] with op := op }
        flushFor s n code (mk cs.length).bytes
  | _, _ => s.recordErr (mk 0)

/-! ## Lost key-value blocks (R582) -/

/-- The blocks at a pair index are lost: index entries go and their blocks are no longer PUBLISHED, blocks without a holder become FREE,
and every context that names one is reprefilled. -/
def loseBlocks (s : State) (n p : Nat) : State :=
  match (s.region n).img with
  | none => s
  | some b =>
    let nc := b.img.pairSize
    if nc = 0 then s else
    let at_ (k : Nat) : Bool := k % nc = p
    let s := { s with serving := { s.serving with index := s.serving.index.filter fun e => !(e.region = n && at_ e.block) } }
    let s := s.updRegion n fun r => { r with
      pool := (Tbl.map (fun k y => if at_ k ∧ y.state = .published then { y with state := .closed } else y) r.pool).filter fun e =>
        !(at_ e.1 && e.2.count = 0) }
    let cs := s.serving.ctxs.filter fun e => e.2.d.region = n && e.2.state ≠ .ended && e.2.blocks.any fun x => at_ x.blk
    (cs.map (·.1)).foldl (fun s c => reprefill s n c) s

/-! ## Used routes (R583) -/

/-- Pairs of virtual cores whose route the image uses: traffic entries, reductions toward their destination, or every pair without a
traffic section. -/
def routeUsed (m : Image) (a b : Nat) : Bool :=
  m.traffic.isEmpty || (m.traffic.any fun t => t.1 = a && t.2.1 = b) || (m.reds.any fun r => r.1 = b)

/-- The higher-numbered virtual cores of the forbidden routes that the image uses, ascending. -/
def badVcores (s : State) (n : Nat) : List Nat :=
  let r := s.region n
  match r.img with
  | none => []
  | some b =>
    let hit (f : Nat × Nat) : Option Nat :=
      match vcoreAt s n f.1, vcoreAt s n f.2 with
      | some x, some y => if exitRouter r.exit f.1 = some f.2 ∨ exitRouter r.exit f.2 = some f.1 ∨ routeUsed b.img x y then some (max x y) else none
      | some x, none => some x
      | none, some y => some y
      | none, none => none
    let vs := (r.forbidden.filterMap hit).eraseDups
    (List.range b.img.cores.length).filter fun v => vs.contains v

/-- Queue a relocation for every virtual core that a forbidden route of its image needs moved (R583). -/
def reroute (s : State) (n : Nat) : State :=
  let r := s.region n
  let vs := badVcores s n
  match r.img with
  | some b =>
    if vs.isEmpty ∨ !b.bound then s
    else if s.setting 0x2010 1 1 = 0 then faultRegion s n 0x0303 (vs.headD 0)
    else
      let old := vs.map fun v => match b.placed[v]? with | some p => p.core | none => 0
      if r.relocs.any fun x => x.1 = vs then s else s.setRegion n { r with relocs := r.relocs ++ [(vs, old, none)] }
  | none => s

/-- After a router has become a hole: every region it concerns repairs its routes (R253, R583). -/
def rerouteAll (s : State) (c : Nat) : State :=
  (s.regions.map (·.1)).foldl (fun s n => if (s.region n).state = 1 ∧ touches s n c then reroute s n else s) s

/-- A core is judged dead, and what a lost router changes elsewhere is repaired; on a core fenced already a lost router is a new hole and
nothing else (R227, R253). -/
def coreDies (s : State) (c code aux0 : Nat) : State :=
  if (s.core c).fence.isSome then
    if (code = 0x0204 ∨ code = 0x0205) ∧ !isHole s c then
      rerouteAll (newHole (s.updCore c fun k => { k with router := { k.router with dead := true } }) c) c
    else s
  else
    let s := judgeDead s c code aux0
    if code = 0x0204 ∨ code = 0x0205 then rerouteAll s c else s

end Sys2Proof.Machine
end

