-- ==== Sys2Proof/Machine/Hss.lean ====
section
/-!
DEFINITION. The parameter sets of the engine's signatures (R553): which HSS keys and signatures each kind of signer may have.
-/
namespace Sys2Proof.Machine

/-- Who signs: the vendor, an image signer or an administrator. -/
inductive Signer where
  | vendor | image | admin
  deriving DecidableEq, Repr

/-- The tree levels that a signer's key may have. -/
def levelsOk : Signer → Nat → Bool
  | .vendor, n => n = 2
  | .image, n => n = 1 || n = 2
  | .admin, n => n = 1

/-- The LMS and LMOTS types that a signer's trees may have.  PRESUMED: the numbers, which R553 takes from RFC 8554 (H10, H15, H20 are
6, 7, 8; W4, W8 are 3, 4). -/
def treeTypesOk : Signer → Nat → Nat → Bool
  | .vendor, lms, ots => lms = 7 && ots = 3
  | .image, lms, ots => (lms = 6 || lms = 7 || lms = 8) && (ots = 3 || ots = 4)
  | .admin, lms, ots => lms = 7 && ots = 4

/-- A big-endian U32 of a signature. -/
def u32At (b : Bytes) (off : Nat) : Nat := beNat (slice b off 4)

/-- A key's types are those of its signer: the level count, the top tree's LMS type and LMOTS type. -/
def keyTypesOk (w : Signer) (key : Bytes) : Bool := levelsOk w (u32At key 0) && treeTypesOk w (u32At key 4) (u32At key 8)

/-- The 32-byte words of a one-time signature: W4 has 67 chains, W8 has 34. -/
def chains (ots : Nat) : Nat := if ots = 3 then 67 else 34
/-- The bytes of an LMS signature: q, the one-time signature with its type and C, the LMS type, and a path of h hashes (h = 10, 15, 20). -/
def lmsBytes (lms ots : Nat) : Nat := 44 + 32 * chains ots + 32 * (5 * (lms - 4))
/-- The LMS signature at an offset carries these types. -/
def lmsTypes (sig : Bytes) (off lms ots : Nat) : Bool := u32At sig (off + 4) = ots && u32At sig (off + 40 + 32 * chains ots) = lms

/-- A signature's types are those of its signer: its levels, the top tree's types, and with two levels those of the lower public key
that the top tree signs and of the signature it makes. -/
def sigTypesOk (w : Signer) (key sig : Bytes) : Bool :=
  let lms := u32At key 4
  let ots := u32At key 8
  let low := 4 + lmsBytes lms ots
  u32At sig 0 + 1 = u32At key 0 && lmsTypes sig 4 lms ots &&
  (u32At key 0 = 1 ||
    (treeTypesOk w (u32At sig low) (u32At sig (low + 4)) && lmsTypes sig (low + 56) (u32At sig low) (u32At sig (low + 4))))

/-- A signature verifies: types that R553 allows, and the algorithm accepts it. -/
def hssOk (w : Signer) (key msg sig : Bytes) : Bool := keyTypesOk w key && sigTypesOk w key sig && Config.hssVerify key msg sig

end Sys2Proof.Machine
end

