-- ==== Sys2Proof/Machine/Image.lean ====
section
/-!
DEFINITION. Weight images as the engine reads them: the control part and its checks (R255 to R261, R290, R344, R345), the manifest
(R377 to R379), tile records (R375, R376), patch records (R212, R213), and the encoding check of a bundle (R168, R171).
-/
namespace Sys2Proof.Machine

/-! ## Reading fields -/

/-- The little-endian entries of a size that a byte string holds. -/
def entries (size : Nat) (b : Bytes) : List Nat := (List.range (b.length / size)).map fun i => fieldAt b (size * i) size

/-- Two ranges (start, length) overlap. -/
def overlap (a b : Nat × Nat) : Bool := a.1 < b.1 + b.2 && b.1 < a.1 + a.2
/-- Every two elements of a list satisfy a test. -/
def allPairs {α : Type} (p : α → α → Bool) : List α → Bool
  | [] => true
  | x :: t => t.all (p x) && allPairs p t

def sectionOf (v : Nat) : Section := ⟨bits v 127 120, bits v 95 80, bits v 63 32, bits v 31 0⟩
def coreEntOf (v : Nat) : CoreEnt :=
  { nomCol := bits v 127 120, nomRow := bits v 119 112, arrays := BitVec.ofNat 32 (bits v 111 80), head := bits v 71 64,
    layer := bits v 63 48, prog := bits v 47 32, data := bits v 31 16 }
def tileEntOf (v : Nat) : TileEnt :=
  { vcore := bits v 127 112, varray := bits v 111 107, format := bits v 106 104, group := bits v 103 96, shard := bits v 95 80,
    offset := bits v 79 48, layer := bits v 47 32, host := bitAt v 31, slot := bits v 30 27, page := bits v 26 0 }
def shardEntOf (v : Nat) : ShardEnt := ⟨bits v 127 112, bits v 111 108 = 1, bits v 95 64, bits v 63 0⟩

/-- The serving section (R344). -/
def servSecOf (b : Bytes) : ServSec :=
  { vocab := fieldAt b 0 4, startTok := fieldAt b 4 4, eosTok := fieldAt b 8 4, outWidth := fieldAt b 12 4, inWidth := fieldAt b 16 4,
    specHeads := fieldAt b 20 1, outFp16 := fieldAt b 21 1 = 1, entryCore := fieldAt b 22 2, finalCore := fieldAt b 24 2,
    entrySync := fieldAt b 26 2, releaseSync := fieldAt b 28 2, tokenRow := fieldAt b 30 2, sampleRow := fieldAt b 32 2 }

/-! ## The control part -/

/-- The bytes of a section. -/
def secBytes (c : Bytes) (s : Section) : Bytes := slice c s.offset s.length
/-- The sections of a kind, by number. -/
def secsOf (ss : List Section) (kind : Nat) : List (Nat × Section) := (ss.zipIdx.filter fun x => x.1.kind = kind).map fun x => (x.2, x.1)
/-- The bytes of the only section of a kind; empty when there is none. -/
def oneSec (c : Bytes) (ss : List Section) (kind : Nat) : Bytes :=
  match secsOf ss kind with | (_, s) :: _ => secBytes c s | [] => []

/-- The program header and step kinds of a program section (R211). -/
def progOf (b : Bytes) : Prog :=
  let h := fieldAt b 0 64
  { bundles := bits h 495 480, entry := bits h 479 464, restart := bits h 463 448, initial := bits h 439 408
    kinds := (List.range (bits h 447 440)).map fun i =>
      let v := fieldAt b (64 + 16 * i) 16
      { kind := bits v 127 112, maxSets := bits v 111 108, phases := bits v 95 64, budget := bits v 63 32 } }

/-- A program section keeps to R211. -/
def progOk (b : Bytes) : Bool :=
  let h := fieldAt b 0 64
  let p := progOf b
  bits h 511 496 = 2 && 1 ≤ p.bundles && p.bundles ≤ 4096 && p.entry < p.bundles && p.restart < p.bundles && bits h 407 0 = 0 &&
  64 + 16 * p.kinds.length + 16 * p.bundles ≤ b.length &&
  (List.range p.kinds.length).all (fun i => let v := fieldAt b (64 + 16 * i) 16; bits v 107 96 = 0 && bits v 31 0 = 0) &&
  p.kinds.all (fun d => d.kind ≤ 0xFFFE && d.maxSets ≤ 8) && allPairs (fun a b => a.kind ≠ b.kind) p.kinds

/-- FirstRow and Rows of a data section (R260). -/
def dataRows (b : Bytes) : Nat × Nat := let h := fieldAt b 0 16; (bits h 127 117, bits h 116 106)
/-- A data section keeps to R260 and R261. -/
def dataOk (b : Bytes) : Bool :=
  let (f, n) := dataRows b
  1 ≤ n && b.length = 16 + 2048 * n && f + n ≤ 1248 && bits (fieldAt b 0 16) 105 0 = 0
/-- A data section covers a row of a range. -/
def dataMeets (b : Bytes) (lo n : Nat) : Bool := overlap (dataRows b) (lo, n)

/-- The image that a control part spells, without its manifest. -/
def imageOf (c : Bytes) : Image :=
  let h := fieldAt c 0 64
  let ss := (List.range (bits h 463 448)).map fun i => sectionOf (fieldAt c (64 + 16 * i) 16)
  { vcores := bits h 447 432, nomWidth := bits h 431 424, nomHeight := bits h 423 416, vsyncs := bits h 415 400, stage := bits h 399 392,
    stages := bits h 391 384, version := bits h 383 320, ctlBytes := bits h 319 288, sections := ss
    cores := (entries 16 (oneSec c ss 2)).map coreEntOf
    tiles := (entries 16 (oneSec c ss 3)).map tileEntOf
    reds := (entries 16 (oneSec c ss 6)).map fun v => (bits v 127 112, bits v 111 103, BitVec.ofNat 64 (bits v 63 0))
    syncs := (entries 4 (oneSec c ss 7)).map fun v => (bits v 31 17, bits v 15 0)
    traffic := (entries 8 (oneSec c ss 8)).map fun v => (bits v 63 48, bits v 47 32, bits v 31 0)
    windows := (entries 16 (oneSec c ss 9)).map fun v => (bits v 127 124, bits v 123 122, bits v 63 0)
    shards := (entries 16 (oneSec c ss 10)).map shardEntOf
    serving := (secsOf ss 11).head?.map fun x => servSecOf (secBytes c x.2)
    manifest := [], manDigest := [], ctlDigest := sha256 (slice c 0 (bits h 319 288)) }

/-- Counts of section kinds (R257, R344). -/
def countsOk (ss : List Section) (vcores vsyncs : Nat) : Bool :=
  let n (k : Nat) : Nat := (secsOf ss k).length
  let once (k : Nat) : Bool := allPairs (fun (a b : Nat × Section) => a.2.vcore ≠ b.2.vcore) (secsOf ss k)
  n 2 = 1 && n 3 = 1 && n 5 = 1 && n 10 = 1 && n 6 ≤ 1 && n 8 ≤ 1 && n 9 ≤ 1 && n 11 ≤ 1 &&
  n 7 = (if vsyncs = 0 then 0 else 1) && once 1 && once 4 &&
  ss.all fun s => 1 ≤ s.kind && s.kind ≤ 11 && (if s.kind = 1 ∨ s.kind = 4 then s.vcore < vcores else s.vcore = 0xFFFF)

/-- Lengths of the tables fit their entries. -/
def lengthsOk (m : Image) : Bool :=
  m.sections.all fun s => match s.kind with
    | 2 => s.length = 16 * m.vcores
    | 3 => s.length % 16 = 0
    | 5 => s.length % 16 = 0
    | 6 => s.length % 16 = 0
    | 7 => s.length = 4 * m.vsyncs
    | 8 => s.length % 8 = 0
    | 9 => s.length % 16 = 0
    | 10 => s.length % 16 = 0
    | 11 => s.length = 64
    | _ => true

/-- Reserved bits are zero (R256 to R260, R234, R344). -/
def reservedOk (c : Bytes) (m : Image) : Bool :=
  let h := fieldAt c 0 64
  let sec (k size : Nat) (f : Nat → Bool) : Bool := (entries size (oneSec c m.sections k)).all f
  bits h 287 0 = 0 &&
  (List.range m.sections.length).all (fun i => let v := fieldAt c (64 + 16 * i) 16; bits v 119 96 = 0 && bits v 79 64 = 0) &&
  sec 2 16 (fun v => bits v 79 72 = 0 && bits v 15 0 = 0) && sec 5 16 (fun v => bits v 117 112 = 0 && bits v 119 118 ≤ 1) &&
  sec 6 16 (fun v => bits v 102 64 = 0 && bits v 9 0 = 0) && sec 7 4 (fun v => !bitAt v 16) &&
  sec 9 16 (fun v => bits v 121 64 = 0) && sec 10 16 (fun v => bits v 107 96 = 0 && bits v 111 108 ≤ 1) &&
  (let b := oneSec c m.sections 11; zeros b 34 30)

/-- The layout of the sections in the control part (R257). -/
def layoutOk (c : Bytes) (m : Image) : Bool :=
  let head := (0, 64 + 16 * m.sections.length)
  m.sections.all (fun s => s.offset % 64 = 0 && s.offset + s.length ≤ m.ctlBytes && !overlap head (s.offset, s.length)) &&
  allPairs (fun a b => !overlap (a.offset, a.length) (b.offset, b.length)) m.sections && m.ctlBytes ≤ c.length

/-- Entries name what exists, and only a core that runs code has a program section (R257 to R261). -/
def namesOk (c : Bytes) (m : Image) : Bool :=
  let n := m.vcores
  let secIs (i kind v : Nat) : Bool := i = 0xFFFF || (match m.sections[i]? with | some s => s.kind = kind && s.vcore = v | none => false)
  m.cores.zipIdx.all (fun x => x.1.nomCol < m.nomWidth && x.1.nomRow < m.nomHeight && secIs x.1.prog 1 x.2 && secIs x.1.data 4 x.2) &&
  (secsOf m.sections 1).all (fun x => match m.cores[x.2.vcore]? with | some e => e.prog ≠ 0xFFFF | none => false) &&
  m.tiles.all (fun t => t.vcore < n) && m.reds.all (fun r => r.1 < n && bits r.2.2.toNat 40 26 < max m.vsyncs 1) &&
  m.syncs.all (fun y => y.2 < n || y.2 = 0xFFFF) && m.traffic.all (fun t => t.1 < n && t.2.1 < n) &&
  (entries 16 (oneSec c m.sections 5)).all (fun v =>
    let k := bits v 127 120; let a := bits v 31 16; let b := bits v 15 0
    1 ≤ k && k ≤ 7 && (match m.sections[bits v 63 48]? with | some s => s.kind = 1 || s.kind = 4 | none => false) &&
    (match k with | 4 => a < m.vsyncs | 7 => a < m.stages | 2 => a < n && b < n | 5 => a < n && b < 32 | 6 => a < n && b < 32 | _ => a < n))

/-- The rules on tiles and shards (R261, R374). -/
def tilesOk (m : Image) : Bool :=
  let own := m.tiles.filter fun t => !t.host
  own.all (fun t => match m.cores[t.vcore]? with | some e => e.arrays.getLsbD t.varray | none => false) &&
  m.tiles.all (fun t => 1 ≤ t.format && t.format ≤ 5 && t.offset % 64 = 0) &&
  allPairs (fun a b => a.vcore ≠ b.vcore || a.varray ≠ b.varray) own &&
  allPairs (fun a b => a.vcore ≠ b.vcore || a.group = 0 || a.group ≠ b.group || a.varray / 4 ≠ b.varray / 4) own &&
  m.tiles.all (fun t => m.shards.any fun h => h.shard = t.shard && h.host = t.host) &&
  allPairs (fun a b => a.shard ≠ b.shard || a.layer = b.layer) m.tiles &&
  m.shards.all (fun h => 1 ≤ h.size && h.size ≤ 67108864)

/-- Attention pairs and their reserved rows (R290, R292). -/
def pairsOk (c : Bytes) (m : Image) : Bool :=
  let data (e : CoreEnt) : Option Bytes := if e.data = 0xFFFF then none else (m.sections[e.data]?).map (secBytes c)
  m.pairSize ≤ 64 &&
  m.cores.all fun e => e.pair?.isNone || ((m.cores.filter fun x => x.pair? = e.pair?).length = m.pairSize &&
    (match data e with | some b => !dataMeets b 0 1057 | none => true))

/-- The serving section (R344, R345). -/
def servOk (c : Bytes) (m : Image) : Bool :=
  match m.serving with
  | none => true
  | some v =>
    let data (i : Nat) : Option Bytes :=
      match m.cores[i]? with
      | some e => if e.data = 0xFFFF then none else (m.sections[e.data]?).map (secBytes c)
      | none => none
    let attn (i : Nat) : Bool := match m.cores[i]? with | some e => e.pair?.isSome | none => false
    let free (i lo n : Nat) : Bool := (match data i with | some b => !dataMeets b lo n | none => true) && !(attn i && lo ≤ 1056)
    v.outWidth ≤ 8192 && v.inWidth ≤ 32 && v.specHeads ≤ 7 && fieldAt (oneSec c m.sections 11) 21 1 ≤ 1 && v.entryCore < m.vcores &&
    v.finalCore < m.vcores && v.entrySync < m.vsyncs && v.releaseSync < m.vsyncs && v.tokenRow ≤ 1229 && v.sampleRow ≤ 1232 &&
    free v.entryCore v.tokenRow 19 && free v.finalCore v.sampleRow 16

/-- The structure checks of R261 with R290 and R345; device tells the placement mode. -/
def structOk (c : Bytes) (m : Image) (device : Bool) : Bool :=
  let h := fieldAt c 0 64
  bits h 511 480 = 0x4D494D47 && bits h 479 464 = 1 && 1 ≤ m.sections.length && 1 ≤ m.vcores && m.vcores ≤ 19200 && 1 ≤ m.nomWidth &&
  m.nomWidth ≤ 128 && 1 ≤ m.nomHeight && m.nomHeight ≤ 150 && m.vsyncs ≤ 24576 && m.stage < m.stages && m.stages ≤ 255 &&
  layoutOk c m && countsOk m.sections m.vcores m.vsyncs && lengthsOk m && reservedOk c m && namesOk c m &&
  allPairs (fun a b => a.nomCol ≠ b.nomCol || a.nomRow ≠ b.nomRow) m.cores && tilesOk m && pairsOk c m && servOk c m &&
  (secsOf m.sections 1).all (fun x => progOk (secBytes c x.2)) && (secsOf m.sections 4).all (fun x => dataOk (secBytes c x.2)) &&
  (device || allPairs (fun a b => a.1 ≠ b.1) m.syncs)

/-- Parse a control part and check its structure. -/
def parseImage (c : Bytes) (device : Bool) : Option Image :=
  let m := imageOf c
  if structOk c m device then some m else none

/-! ## The manifest (R377 to R379) -/

/-- A shard entry of the manifest; its Location and reserved bytes are checked apart. -/
def manEntOf (b : Bytes) : ManEnt := ⟨fieldAt b 0 2, fieldAt b 2 1 = 1, fieldAt b 4 4, slice b 16 32⟩
/-- The part of a manifest that its signature covers. -/
def manSigned (b : Bytes) : Bytes := slice b 0 (128 + 48 * fieldAt b 6 2)
def manEntries (b : Bytes) : List ManEnt := (List.range (fieldAt b 6 2)).map fun i => manEntOf (slice b (128 + 48 * i) 48)

/-- The signature verifies against the key of its slot (R378, R553). -/
def manSigOk (key : Nat → Option Bytes) (b : Bytes) : Bool :=
  let slot := fieldAt b 18 2
  match if slot < 16 then key slot else none with
  | some k => hssOk .image k (manSigned b) (slice b (128 + 48 * fieldAt b 6 2) (fieldAt b 20 4))
  | none => false

/-- The entries' Location bytes are 0 or 1 and their reserved bytes are 0 (R377). -/
def manEntriesOk (b : Bytes) : Bool :=
  (List.range (fieldAt b 6 2)).all fun i => let o := 128 + 48 * i; fieldAt b (o + 2) 1 ≤ 1 && zeros b (o + 3) 1 && zeros b (o + 8) 8

/-- The manifest agrees with the image (R379). -/
def manAgrees (c : Bytes) (m : Image) (b : Bytes) : Bool :=
  fieldAt b 0 4 = 0x4D4E4654 && fieldAt b 4 2 = 1 && fieldAt b 8 8 = m.version && fieldAt b 16 1 = m.stage && fieldAt b 17 1 = m.stages &&
  fieldAt b 24 8 = m.ctlBytes && slice b 32 32 = sha256 (slice c 0 m.ctlBytes) && zeros b 64 64 &&
  manEntriesOk b && (manEntries b).map (fun e => (e.shard, e.host, e.size)) = m.shards.map fun h => (h.shard, h.host, h.size)

/-- The image with its manifest's entries and the digest of its signed part (R555). -/
def Image.withManifest (m : Image) (b : Bytes) : Image := { m with manifest := manEntries b, manDigest := sha256 (manSigned b) }

/-! ## Tile records (R375, R376) -/

def recLen (b : Bytes) : Nat := alignUp (131392 + 4 * fieldAt b 2 2) 64
def recFormat (b : Bytes) : Nat := fieldAt b 0 1
def recOutliers (b : Bytes) : List W32 := (List.range (fieldAt b 2 2)).map fun i => BitVec.ofNat 32 (fieldAt b (131392 + 4 * i) 4)
/-- LiveCap, as declared. -/
def recLive (b : Bytes) : List Nat := (List.range 16).map fun i => fieldAt b (32 + 2 * i) 2
def recScale (b : Bytes) (g k : Nat) : BitVec 16 := BitVec.ofNat 16 (fieldAt b (64 + 2 * (16 * g + k)) 2)
def recLevel (b : Bytes) (r c : Nat) : Nat := let x := fieldAt b (320 + 256 * r + c / 2) 1; if c % 2 = 0 then x % 16 else x / 16

/-- A level is valid for a format in a column; the low cell of a W8 pair may hold any (R376). -/
def levelOk (fmt c l : Nat) : Bool := if fmt = 5 ∧ c % 2 = 1 then true else (validLevels fmt).contains l

/-- The content of one record keeps to R376, but for the count over a virtual set. -/
def recOk (b : Bytes) (fmt : Nat) : Bool :=
  let n := fieldAt b 2 2
  let os := recOutliers b
  recFormat b = fmt && n ≤ 2048 && zeros b 1 1 && zeros b 4 28 && zeros b (131392 + 4 * n) (recLen b - (131392 + 4 * n)) &&
  ((List.range 16).map fun i => fieldAt b (32 + 2 * i) 2).sum ≤ 512 &&
  (List.range 128).all (fun i => let e := signedOf 8 (bits (recScale b (i / 16) (i % 16)).toNat 15 8); -22 ≤ e && e ≤ 7) &&
  (List.range 512).all (fun r => (List.range 512).all fun c => levelOk fmt c (recLevel b r c)) &&
  os.all (fun w => let v := w.toNat; bitAt v 31 && bits v 30 29 = 0 && bits v 10 8 = 0 && (fmt ≠ 5 || bits v 19 11 < 256)) &&
  allPairs (fun (x y : W32) => bits x.toNat 28 11 ≠ bits y.toNat 28 11) os

/-- The tiles of a shard. -/
def Image.tilesOf (m : Image) (shard : Nat) : List (Nat × TileEnt) :=
  (m.tiles.zipIdx.filter fun x => x.1.shard = shard).map fun x => (x.2, x.1)

/-- The record of a tile in its shard's bytes. -/
def tileRec (data : Bytes) (t : TileEnt) : Bytes := let b := data.drop t.offset; slice b 0 (recLen b)

/-- A shard's content keeps to R374 and R376; others gives the outlier counts already found, by virtual core and set. -/
def shardOk (m : Image) (shard : Nat) (data : Bytes) (others : Nat → Nat → Nat) : Bool :=
  let ts := m.tilesOf shard
  let rs := ts.map fun t => (t.2.offset, recLen (data.drop t.2.offset))
  rs.all (fun r => r.1 + r.2 ≤ data.length) && allPairs (fun a b => !overlap a b) rs &&
  (data.zipIdx.all fun x => x.1 = 0 || rs.any fun r => r.1 ≤ x.2 && x.2 < r.1 + r.2) &&
  ts.all fun t => recOk (tileRec data t.2) t.2.format &&
    (t.2.host || others t.2.vcore (t.2.varray / 4) +
      ((ts.filter fun u => u.2.vcore = t.2.vcore && !u.2.host && u.2.varray / 4 = t.2.varray / 4).map fun u =>
        fieldAt data (u.2.offset + 2) 2).sum ≤ 2048)

/-- The record of an array as it is programmed (R383, R384): levels of the logical columns, scales, live capacity, format. -/
def Arr.ofRecord (a : Arr) (b : Bytes) (tile : Nat × Nat × Nat) : Arr :=
  let lv (i : Nat) : List (Nat × Nat) :=
    let row : Tbl Nat := (List.range 512).foldl (fun t j => Tbl.set t (a.phys j) (recLevel b i j)) []
    (row.filter fun e => e.2 ≠ 8).map fun e => (528 * i + e.1, e.2)
  { a with
    format := recFormat b, levels := (List.range 512).flatMap lv, tile := some tile, liveCap := recLive b
    subst := a.subst.map fun e => (e.1, (List.range 512).map fun i => recLevel b i e.1)
    scales := (List.range 128).map fun i => (i, recScale b (i / 16) (i % 16)), nextRow := 0, calGroup := 0 }

/-- A tile record from an array, its set's outliers and the levels read (R383); a substituted column gives its stored levels. -/
def Arr.recordWith (a : Arr) (read : Nat → Nat → Nat) (pos : Nat) (outliers : List W32) : Bytes :=
  let os := (outliers.filter fun w => bits w.toNat 30 29 = pos).map fun w => w &&& 0x9FFFFFFF
  let lv (i j : Nat) : Nat := match Tbl.find a.subst j with | some l => nth l i 8 | none => read i j
  let body := leBytes 1 a.format ++ leBytes 1 0 ++ leBytes 2 os.length ++ List.replicate 28 0 ++ a.liveCap.flatMap (leBytes 2) ++
    ((List.range 128).flatMap fun i => leBytes 2 (Tbl.get a.scales 0 i).toNat) ++
    ((List.range 512).flatMap fun i => (List.range 256).flatMap fun k => leBytes 1 (lv i (2 * k) + 16 * lv i (2 * k + 1))) ++
    (os.flatMap fun w => leBytes 4 w.toNat)
  slice body 0 (alignUp body.length 64)
/-- Rebuild a tile record by reading an array. -/
def Arr.toRecord (a : Arr) (base pos : Nat) (outliers : List W32) : Bytes := a.recordWith (a.snap false base) pos outliers

/-! ## Patching (R212, R213) -/

/-- A patch record. -/
structure Patch where
  kind   : Nat
  word   : Bool
  lsb    : Nat
  width  : Nat
  loc    : Nat
  sec    : Nat
  addend : Int
  symA   : Nat
  symB   : Nat
deriving DecidableEq, Repr

def patchOf (v : Nat) : Patch :=
  { kind := bits v 127 120, word := bits v 119 118 = 1, lsb := bits v 111 104, width := bits v 103 96, loc := bits v 95 64,
    sec := bits v 63 48, addend := signedOf 16 (bits v 47 32), symA := bits v 31 16, symB := bits v 15 0 }
def patches (c : Bytes) (m : Image) : List Patch := (entries 16 (oneSec c m.sections 5)).map patchOf

/-- Place of the patched unit in its section: byte offset and bytes. -/
def Patch.place (p : Patch) (sec : Bytes) (prog : Bool) : Nat × Nat :=
  if p.word then (p.loc, 4) else if prog then (64 + 16 * (progOf sec).kinds.length + 16 * p.loc, 16) else (16 * p.loc, 16)

/-- A pair of signed coordinates, packed as CORE_ABS packs a core (R212). -/
def packXy (width : Nat) (x y : Int) : Option Nat :=
  let h := width / 2
  if width = 32 ∨ width = 16 then
    if -(2 ^ (h - 1) : Int) ≤ x ∧ x < 2 ^ (h - 1) ∧ -(2 ^ (h - 1) : Int) ≤ y ∧ y < 2 ^ (h - 1) then
      some ((x % 2 ^ h).toNat * 2 ^ h + (y % 2 ^ h).toNat)
    else none
  else none
/-- An unsigned value in a width. -/
def fitU (width : Nat) (v : Int) : Option Nat := if 0 ≤ v ∧ v < 2 ^ width then some v.toNat else none

/-- A core packed at a width, plus an addend.  DESIGN CHOICE: R212 gives a packing for the widths 32 and 16 alone; a record of another width is not
bound. -/
def packCore (width : Nat) (col row : Nat) (add : Int) : Option Nat :=
  if width = 32 then fitU 32 ((col * 65536 + row : Nat) + add) else if width = 16 then fitU 16 ((col * 256 + row : Nat) + add) else none

/-- The bound value with its addend, as the field holds it; none when it does not fit (R213). -/
def Patch.value (p : Patch) (nw : W32) (placed : List Placed) (syncs stageTab : List Nat) : Option Nat :=
  let core (v : Nat) : Nat := match placed[v]? with | some x => x.core | none => 0
  let arr : Nat := match placed[p.symA]? with | some x => 4 * nth x.pi (p.symB / 4) 0 + nth x.sig p.symB 0 | none => 0
  match p.kind with
  | 1 => packCore p.width (coreCol (core p.symA)) (coreRow (core p.symA)) p.addend
  | 2 =>
    let dx : Int := (coreCol (core p.symB) : Int) - coreCol (core p.symA)
    let dy : Int := (coreRow (core p.symB) : Int) - coreRow (core p.symA)
    (packXy p.width dx dy).bind fun v =>
      let x : Int := signedOf p.width v + p.addend
      if -(2 ^ (p.width - 1) : Int) ≤ x ∧ x < 2 ^ (p.width - 1) then some (x % 2 ^ p.width).toNat else none
  | 3 => packCore p.width (coreCol (core p.symA) - nw.toNat / 65536) (coreRow (core p.symA) - nw.toNat % 65536) p.addend
  | 4 => fitU p.width (((nth syncs p.symA 0 : Nat) : Int) + p.addend)
  | 5 => fitU p.width ((arr : Int) + p.addend)
  | 6 => fitU p.width ((2 ^ (arr / 4) : Int) + p.addend)
  | _ => fitU p.width (((nth stageTab p.symA 0 : Nat) : Int) + p.addend)

/-- Apply one patch to its section's bytes: the field must be zero but for ARRAY_SET_BIT, which ORs. -/
def Patch.apply (p : Patch) (sec : Bytes) (prog : Bool) (v : Nat) : Option Bytes :=
  let (off, n) := p.place sec prog
  let top := 8 * n
  if p.lsb + p.width > top ∨ p.width = 0 ∨ 32 < p.width ∨ off + n > sec.length ∨ (p.word ∧ p.loc % 4 ≠ 0) ∨ (!p.word ∧ !prog) then none
  else
    let w := fieldAt sec off n
    let old := bits w (p.lsb + p.width - 1) p.lsb
    if p.kind ≠ 6 ∧ old ≠ 0 then none
    else
      let new := if p.kind = 6 then old ||| v else v
      some (patchAt sec off (leBytes n (w - old * 2 ^ p.lsb + new * 2 ^ p.lsb)))

/-! ## The encoding check of a bundle (R168, R171) -/

/-- Bits set in [hi:lo] only. -/
def span (hi lo : Nat) : Nat := 2 ^ (hi + 1) - 2 ^ lo
/-- Operand bits that an opcode of the scalar slot uses; none for an opcode not in the table. -/
def scalarMask (op : Nat) : Option Nat :=
  if op = 0 then some 0 else if 1 ≤ op ∧ op ≤ 0x0B then some (span 23 9)
  else if (0x10 ≤ op ∧ op ≤ 0x17) ∨ (0x20 ≤ op ∧ op ≤ 0x23) ∨ (0x30 ≤ op ∧ op ≤ 0x36) then some (span 23 0)
  else match op with
    | 0x37 => some (span 23 19 + span 13 0)
    | 0x38 => some (span 18 14)
    | 0x39 => some (span 18 0)
    | 0x40 => some (span 23 0)
    | 0x41 => some (span 23 0)
    | 0x42 => some (span 23 15)
    | 0x43 => some (span 23 15)
    | 0x50 => some (span 23 19 + span 13 0)
    | 0x51 => some (span 23 19 + span 13 0)
    | 0x58 => some (span 7 0)
    | _ => none
/-- Operand bits that an opcode of a dispatch slot uses. -/
def dispatchMask (op : Nat) : Option Nat :=
  match op with
  | 0 => some 0
  | 0x01 => some (span 23 16)
  | 0x02 => some (span 23 13)
  | 0x03 => some (span 23 14)
  | 0x10 => some (span 23 3)
  | 0x11 => some (span 23 3)
  | 0x12 => some (span 23 8)
  | 0x13 => some (span 23 16 + span 11 8)
  | 0x14 => some (span 23 16)
  | 0x18 => some (span 23 20)
  | 0x19 => some (span 23 6)
  | 0x1A => some (span 23 16)
  | 0x20 => some (span 23 7)
  | 0x21 => some (span 23 16 + span 11 7)
  | 0x22 => some (span 23 12)
  | 0x28 => some (span 23 11)
  | 0x40 => some (span 23 7)
  | 0x41 => some (span 23 7)
  | 0x50 => some (span 22 15)
  | 0x51 => some (span 22 16)
  | 0x52 => some (span 22 0)
  | 0x53 => some (span 22 0)
  | _ => none
/-- Operand bits that an opcode of the sync slot uses. -/
def syncMask (op : Nat) : Option Nat :=
  match op with
  | 0 => some 0
  | 1 => some (span 23 4)
  | 2 => some (span 23 3)
  | 3 => some (span 23 14)
  | 4 => some (span 23 16)
  | 5 => some (span 23 19 + span 15 0)
  | 6 => some (span 23 23 + span 19 0)
  | _ => none
/-- No operand bit outside the mask is set. -/
def inMask (m : Option Nat) (w : Nat) : Bool := match m with | some k => w &&& k = w | none => false

def scalarOk (w : Nat) : Bool :=
  let op := bits w 31 24
  inMask (scalarMask op) (bits w 23 0) &&
  (match op with
   | 0x22 => bits w 23 19 % 2 = 0
   | 0x23 => bits w 23 19 % 2 = 0
   | 0x36 => bits w 23 14 = 0
   | 0x39 => 1 ≤ signedOf 14 (bits w 13 0)
   | 0x50 => bits w 13 0 ≤ 7
   | 0x51 => bits w 13 0 = 5
   | _ => true)
def dispatchOk (w : Nat) : Bool :=
  let op := bits w 31 24
  inMask (dispatchMask op) (bits w 23 0) &&
  (match op with
   | 0x10 => bits w 11 8 ≤ 8
   | 0x11 => bits w 11 8 ≤ 3
   | 0x12 => bits w 11 8 ≤ 3
   | 0x13 => bits w 11 8 ≤ 3
   | 0x40 => bits w 8 7 ≠ 3
   | 0x41 => bits w 8 7 ≠ 3
   | 0x53 => bits w 10 9 ≤ 1
   | _ => true)
def syncOk (w : Nat) : Bool :=
  let op := bits w 31 24
  inMask (syncMask op) (bits w 23 0) && (op ≠ 3 || bits w 19 14 ≤ 32)
/-- A dispatch slot holds an operation that has a destination (R204). -/
def hasDest (w : Nat) : Bool := let op := bits w 31 24; op ≠ 0 && op ≠ 0x03 && op ≠ 0x50 && op ≠ 0x53
/-- A TAG names a slot whose operation has a destination (R204). -/
def tagOk (v : Nat) : Bool := bits v 31 24 ≠ 6 || hasDest (if bitAt v 23 then bits v 63 32 else bits v 95 64)
/-- A bundle passes the encoding check. -/
def bundleOk (v : Nat) : Bool :=
  scalarOk (bits v 127 96) && dispatchOk (bits v 95 64) && dispatchOk (bits v 63 32) && syncOk (bits v 31 0) && tagOk v

/-- The byte offset of the bundle that a patch changes: a patched word of a program section may lie in one too. -/
def Patch.bundleAt (p : Patch) (sec : Bytes) (prog : Bool) : Option Nat :=
  let base := 64 + 16 * (progOf sec).kinds.length
  if !p.word then some (p.place sec prog).1
  else if prog ∧ base ≤ p.loc then some (p.loc - (p.loc - base) % 16)
  else none

/-- Apply the patches of one section in table order; none when one fails. -/
def applyAll (prog : Bool) (val : Patch → Option Nat) : List Patch → Bytes → Option Bytes
  | [], b => some b
  | p :: t, b => (val p).bind fun v => (p.apply b prog v).bind fun b => applyAll prog val t b

/-- The loop of a bundle ends inside its section (R173). -/
def loopEnds (v idx bundles : Nat) : Bool :=
  bits v 127 120 ≠ 0x39 || (idx : Int) + signedOf 14 (bits v 109 96) < bundles

/-- A section as bound: patched, every patched bundle's encoding checked (R173, R213). -/
def boundSection (c : Bytes) (m : Image) (i : Nat) (val : Patch → Option Nat) : Option Bytes :=
  match m.sections[i]? with
  | none => none
  | some s =>
    let prog := s.kind = 1
    let ps := (patches c m).filter fun p => p.sec = i
    (applyAll prog val ps (secBytes c s)).bind fun b =>
      let h := progOf b
      let ok := ps.all fun p => match p.bundleAt b prog with
        | some o => bundleOk (fieldAt b o 16) && loopEnds (fieldAt b o 16) ((o - 64 - 16 * h.kinds.length) / 16) h.bundles
        | none => true
      if ok then some b else none

end Sys2Proof.Machine
end

