-- ==== Sys2Proof/Machine/Place.lean ====
section
/-!
DEFINITION. Placement of virtual cores, arrays and sync objects (R268 to R274, R279), and binding (R276, R213).
-/
namespace Sys2Proof.Machine

/-! ## Arrays within a core (R269) -/

/-- An array in service: not out of service, retired or unusable in its record (R128). -/
def Core.arrIn (k : Core) (a : Nat) : Bool := let st := (k.arr a).state; !(st = 1 || st = 2 || st = 3)

/-- The 24 permutations of 0 to 3 in lexicographic order. -/
def perms4 : List (List Nat) :=
  (List.range 4).flatMap fun a => ((List.range 4).filter (· ≠ a)).flatMap fun b =>
    ((List.range 4).filter fun c => c ≠ a && c ≠ b).map fun c => [a, b, c, 6 - a - b - c]

/-- The best arrangement of virtual set s on physical set p: arrays kept at their own number, positions; none when it does not fit.  DEDUCED:
R269 counts every virtual array that keeps its number, whether or not it holds a tile. -/
def bestSigma (ok : Nat → Bool) (mask : W32) (s p : Nat) : Option (Nat × List Nat) :=
  let need (i : Nat) : Bool := mask.getLsbD (4 * s + i)
  let good (g : List Nat) : Bool := (List.range 4).all fun i => !need i || ok (4 * p + nth g i 0)
  let kept (g : List Nat) : Nat := ((List.range 4).filter fun i => p = s && nth g i 4 = i).length
  (perms4.filter good).foldl (fun b g => match b with
    | none => some (kept g, g)
    | some (x : Nat × List Nat) => if x.1 < kept g then some (kept g, g) else some x) none

/-- The best assignment from virtual set s on, physical sets used: score, π and σ of the rest. -/
def bestFrom (pair : Nat → Nat → Option (Nat × List Nat)) : Nat → Nat → List Nat → Option (Nat × List Nat × List Nat)
  | 0, _, _ => some (0, [], [])
  | n + 1, s, used =>
    (List.range 8).foldl (fun b p =>
      if used.contains p then b
      else match pair s p with
        | none => b
        | some (k, g) =>
          match bestFrom pair n (s + 1) (p :: used) with
          | none => b
          | some (m, pi, sig) =>
            match b with
            | none => some (k + m, p :: pi, g ++ sig)
            | some x => if x.1 < k + m then some (k + m, p :: pi, g ++ sig) else some x) none

/-- The assignment of a virtual core's arrays on a core: π and σ (R269). -/
def fitOn (k : Core) (mask : W32) : Option (List Nat × List Nat) :=
  if (List.range 32).all fun a => !mask.getLsbD a || k.arrIn a then some (List.range 8, (List.range 32).map (· % 4))
  else (bestFrom (bestSigma k.arrIn mask) 8 0 []).map fun x => x.2

/-- The physical array of a virtual array (R269). -/
def Placed.array (p : Placed) (a : Nat) : Nat := 4 * nth p.pi (a / 4) 0 + nth p.sig a 0

/-! ## Cores -/

/-- A placement under way: the place of each virtual core, if it has one. -/
abbrev Spots := List (Option Placed)

/-- A free core of the region (R269). -/
def freeCore (s : State) (r : Region) (l : Spots) (c : Nat) : Bool :=
  inRect r.nw r.se c && usable s c && !isHole s c && !l.any fun p => match p with | some x => x.core = c | none => false

/-- Nominal column and row of a virtual core on the wafer. -/
def nominal (r : Region) (e : CoreEnt) : Nat × Nat := (r.nw.toNat / 65536 + e.nomCol, r.nw.toNat % 65536 + e.nomRow)
def distTo (p : Nat × Nat) (c : Nat) : Nat := (p.1 - coreCol c) + (coreCol c - p.1) + (p.2 - coreRow c) + (coreRow c - p.2)

/-- The first sweep of R271 excludes a core: its power region holds another head class of the same layer. -/
def excluded (m : Image) (l : Spots) (v c : Nat) : Bool :=
  match m.cores[v]? with
  | none => false
  | some e =>
    e.head ≠ 255 && l.zipIdx.any fun x => match x.1, m.cores[x.2]? with
      | some p, some f => x.2 ≠ v && powerOf p.core = powerOf c && f.head ≠ 255 && f.layer = e.layer && f.head ≠ e.head
      | _, _ => false

/-- The nearest of a list of cores to a point; ties to the lower row, then the lower column (the list's order). -/
def nearest (p : Nat × Nat) (cs : List Nat) : Option Nat :=
  cs.foldl (fun b c => match b with
    | none => some c
    | some x => if distTo p c < distTo p x then some c else some x) none

/-- Put a virtual core on a core it fits. -/
def putOn (s : State) (m : Image) (l : Spots) (v c : Nat) : Option Spots :=
  match m.cores[v]? with
  | none => none
  | some e => (fitOn (s.core c) e.arrays).map fun x => l.set v (some ⟨c, x.1, x.2⟩)

/-- R271 for one virtual core: the nearest free fitting core not banned, by one sweep or the other; the flag tells the second. -/
def sweep (s : State) (r : Region) (m : Image) (l : Spots) (ban : List Nat) (v : Nat) : Option (Spots × Bool) :=
  match m.cores[v]? with
  | none => none
  | some e =>
    let cs := (rectCores r.nw r.se).filter fun c => freeCore s r l c && !ban.contains c && (fitOn (s.core c) e.arrays).isSome
    match nearest (nominal r e) (cs.filter fun c => !excluded m l v c) with
    | some c => (putOn s m l v c).map fun x => (x, false)
    | none => match nearest (nominal r e) cs with
      | some c => (putOn s m l v c).map fun x => (x, true)
      | none => none

/-- A virtual core has an exclusion that a second sweep drops. -/
def spreads (m : Image) (v : Nat) : Bool := match m.cores[v]? with | some e => e.head ≠ 255 | none => false

/-- R271 for a list of virtual cores; counts the second sweeps, that of the core which finds none included. -/
def sweepAll (s : State) (r : Region) (m : Image) (ban : List Nat) : List Nat → Spots → Nat → Option Spots × Nat
  | [], l, n => (some l, n)
  | v :: t, l, n => match sweep s r m l ban v with
    | some x => sweepAll s r m ban t x.1 (if x.2 then n + 1 else n)
    | none => (none, if spreads m v then n + 1 else n)

/-- The traffic cost of virtual core v at a core (R272): entries that do not name it do not change with its place. -/
def costAt (m : Image) (l : Spots) (v c : Nat) : Nat :=
  let at_ (u : Nat) : Nat := if u = v then c else match nth l u none with | some p => p.core | none => 0
  ((m.traffic.filter fun t => t.1 = v || t.2.1 = v).map fun t => t.2.2 * manhattan (at_ t.1) (at_ t.2.1)).sum

/-- One virtual core's improvement move (R272). -/
def improveOne (s : State) (r : Region) (m : Image) (l : Spots) (v : Nat) : Spots :=
  match nth l v none, m.cores[v]? with
  | some p, some e =>
    let here := (coreCol p.core, coreRow p.core)
    let cs := (rectCores r.nw r.se).filter fun c =>
      distTo here c ≤ 4 && freeCore s r l c && !excluded m l v c && (fitOn (s.core c) e.arrays).isSome &&
        costAt m l v c < costAt m l v p.core
    let low := cs.foldl (fun b c => min b (costAt m l v c)) (costAt m l v p.core)
    match nearest here (cs.filter fun c => costAt m l v c = low) with
    | some c => (putOn s m l v c).getD l
    | none => l
  | _, _ => l

/-- Device placement (R270 to R272), with the count of second sweeps. -/
def devicePlace (s : State) (r : Region) (m : Image) : Option Spots × Nat :=
  let vs := List.range m.cores.length
  let nom (v : Nat) : Option Nat := match m.cores[v]? with
    | some e => let p := nominal r e; if p.1 < 128 ∧ p.2 < 150 then some (coreKey p.1 p.2) else none
    | none => none
  let l0 := vs.foldl (fun l v => match nom v with
    | some c => if freeCore s r l c then (putOn s m l v c).getD l else l
    | none => l) (List.replicate m.cores.length none)
  let open_ (l : Spots) : List Nat := vs.filter fun v => (nth l v none).isNone
  let (found, n) := sweepAll s r m [] (open_ l0) l0 0
  (found.map fun l1 =>
    let moved := vs.filter fun v => match nth l1 v none with | some p => nom v ≠ some p.core | none => false
    let pass (l : Spots) : Spots := moved.foldl (fun l v => improveOne s r m l v) l
    pass (pass l1), n)

/-- Compiler placement (R268): the place of every virtual core, or the detail of the failure. -/
def compilerPlace (s : State) (r : Region) (m : Image) : Spots × Nat :=
  let w := r.se.toNat / 65536 + 1 - r.nw.toNat / 65536
  let h := r.se.toNat % 65536 + 1 - r.nw.toNat % 65536
  let spot (e : CoreEnt) : Option Placed :=
    let p := nominal r e
    let c := coreKey p.1 p.2
    let ok := p.1 < 128 && p.2 < 150 && inRect r.nw r.se c && usable s c && !isHole s c &&
      (List.range 32).all fun a => !e.arrays.getLsbD a || (s.core c).arrIn a
    if ok then some ⟨c, List.range 8, (List.range 32).map (· % 4)⟩ else none
  if w < m.nomWidth ∨ h < m.nomHeight then ([], 7)
  else
    let l := m.cores.map spot
    (l, if l.any (·.isNone) then 6 else 0)

/-! ## Sync objects (R268, R273) -/

/-- Fields that a region overlaps. -/
def fieldsOf (r : Region) : List Nat := (List.range 48).filter fun f => regionInField r f
def fieldDist (a b : Nat) : Nat := max (a % 8 - b % 8 + (b % 8 - a % 8)) (a / 8 - b / 8 + (b / 8 - a / 8))
/-- The fields of a region by nearness to a field, then by number. -/
def fieldOrder (fs : List Nat) (home : Nat) : List Nat := (List.range 8).flatMap fun d => fs.filter fun f => fieldDist f home = d

/-- The lowest free slot of a field. -/
def freeSlot (s : State) (used : List Nat) (f : Nat) : Option Nat :=
  ((List.range 512).map fun i => 512 * f + i).find? fun i => (s.sync i).owner.isNone && !used.contains i

/-- Assign the virtual sync objects of an image. -/
def assignSyncs (s : State) (r : Region) (m : Image) (l : List Placed) (device : Bool) : Option (List Nat) :=
  let fs := fieldsOf r
  m.syncs.foldl (fun acc y => acc.bind fun (used : List Nat) =>
    if device then
      let home := match l[y.2]? with | some p => fieldOf p.core | none => fieldOf (coreKey (r.nw.toNat / 65536) (r.nw.toNat % 65536))
      ((fieldOrder fs home).findSome? (freeSlot s used)).map fun i => used ++ [i]
    else if fs.contains (y.1 / 512) ∧ (s.sync y.1).owner.isNone then some (used ++ [y.1]) else none) (some [])

/-- Place an image in a region: places and sync indices, or the detail of R264; and the second sweeps it took. -/
def placeImage (s : State) (n : Nat) (m : Image) : Except Nat (List Placed × List Nat) × Nat :=
  let r := s.region n
  let device := s.setting 0x2010 1 1 = 1
  let spots : Except Nat Spots × Nat :=
    if device then (match devicePlace s r m with | (some l, k) => (.ok l, k) | (none, k) => (.error 5, k))
    else match compilerPlace s r m with | (l, 0) => (.ok l, 0) | (_, d) => (.error d, 0)
  match spots.1 with
  | .error d => (.error d, spots.2)
  | .ok l =>
    let l := l.filterMap id
    match assignSyncs s r m l device with
    | some y => (.ok (l, y), spots.2)
    | none => (.error 8, spots.2)

/-- Second sweeps count in 0x2010:05 (R271). -/
def State.countSpread (s : State) (n : Nat) : State := { s with upkeep := { s.upkeep with spread := s.upkeep.spread + n } }

/-- New places for moved virtual cores (R279): the cores they leave are excluded. -/
def placeMoved (s : State) (n : Nat) (b : BoundImage) (vs ban : List Nat) : Option (List Placed) × Nat :=
  let l : Spots := b.placed.zipIdx.map fun x => if vs.contains x.2 then none else some x.1
  let (found, k) := sweepAll s (s.region n) b.img ban vs l 0
  (found.map (·.filterMap id), k)

/-! ## Binding (R276) -/

/-- Start a core at a bundle of its program, whose line it fetches first (R162, R166, R199). -/
def Core.startAt (k : Core) (pc now entered : Nat) : Core :=
  Core.fetch (pc := pc) { k with
    run := .issuing, bundle := none, held := none, heldLast := false, ae := AeState.reset, lastIssue := now, stoppedAt := none, fetched := []
    waitFrom := now, idleFrom := now, watchN := Tbl.map (fun _ w => (w.1, w.2.1, false)) k.watchN
    seq := { Seq.reset with pc := BitVec.ofNat 12 pc, next := BitVec.ofNat 12 (pc + 1), entered := entered, stepFrom := now,
                            budget := k.prog.initial, opNum := k.seq.opNum } }

/-- The value of a patch in a bound image. -/
def patchVal (r : Region) (b : BoundImage) (p : Patch) : Option Nat := p.value r.nw b.placed b.syncIdx b.stageTab

/-- Write one virtual core's program and data into its core; none when the binding is refused (R276 steps 3 to 5, R213). -/
def bindCore (s : State) (n : Nat) (b : BoundImage) (ctl : Bytes) (v : Nat) : Option State :=
  match b.img.cores[v]?, b.placed[v]? with
  | some e, some p =>
    let val := patchVal (s.region n) b
    let prog := if e.prog = 0xFFFF then some none else (boundSection ctl b.img e.prog val).map some
    let data := if e.data = 0xFFFF then some none else (boundSection ctl b.img e.data val).map some
    match prog, data with
    | some po, some dt =>
      let k := s.core p.core
      let k := match po with
        | some b =>
          let pr := progOf b
          { k.putBytes 0x270000 (slice b (64 + 16 * pr.kinds.length) (16 * pr.bundles)) with prog := pr }
        | none => { k with prog := Prog.reset }
      let k := match dt with
        | some b => k.putBytes (2048 * (dataRows b).1) (b.drop 16)
        | none => k
      some (s.setCore p.core k)
    | _, _ => none
  | _, _ => none

/-- Bind a list of virtual cores. -/
def bindCores (n : Nat) (b : BoundImage) (ctl : Bytes) : List Nat → State → Option State
  | [], s => some s
  | v :: t, s => (bindCore s n b ctl v).bind fun s => bindCores n b ctl t s

/-- Write the reduction entries of an image into its routers, the virtual sync replaced by its index (R276 step 2). -/
def bindReds (s : State) (b : BoundImage) : State :=
  b.img.reds.foldl (fun s x =>
    match b.placed[x.1]? with
    | none => s
    | some p =>
      let w := x.2.2.toNat
      let y := nth b.syncIdx (bits w 40 26) 0
      let w := w - bits w 40 26 * 2 ^ 26 + y * 2 ^ 26
      s.updCore p.core fun k => { k with router := { k.router with
        red := Tbl.set k.router.red x.2.1 (BitVec.ofNat 64 w), recv := Tbl.del k.router.recv x.2.1 } }) s

/-- The owner of each assigned sync object is the region, its value zero (R276 step 1). -/
def bindSyncs (s : State) (n : Nat) (idx : List Nat) : State := idx.foldl (fun s i => s.setSync i { value := 0, owner := some n }) s

/-- The virtual cores that a patch record makes depend on moved ones, or that moved (R280 step 4). -/
def touched (ctl : Bytes) (m : Image) (vs : List Nat) : List Nat :=
  let secs := ((patches ctl m).filter fun p =>
    (p.kind ≠ 4 ∧ p.kind ≠ 7 ∧ vs.contains p.symA) ∨ (p.kind = 2 ∧ vs.contains p.symB)).map (·.sec)
  (List.range m.cores.length).filter fun v => vs.contains v ||
    (match m.cores[v]? with | some e => secs.contains e.prog || secs.contains e.data | none => false)

/-- Bind a whole image: syncs, reductions, programs and data; refused, nothing changes (R276). -/
def bindImage (s : State) (n : Nat) (b : BoundImage) (ctl : Bytes) (withSyncs : Bool) : Option State :=
  let s := if withSyncs then bindSyncs s n b.syncIdx else s
  bindCores n b ctl (List.range b.img.cores.length) (bindReds s b)

/-- Start a core at a bundle of its program: its fast clock starts with it, and its power region runs (R27, R492). -/
def startCore (s : State) (c : Nat) (bundle : Prog → Nat) : State :=
  (s.updCore c fun k => k.startAt (bundle k.prog) s.now s.now).startClock c

/-- Start every virtual core that has a program (R263 step 5, R280). -/
def startImage (s : State) (b : BoundImage) (bundle : Prog → Nat) : State :=
  (b.img.cores.zip b.placed).foldl (fun s x =>
    if x.1.prog = 0xFFFF ∨ (s.core x.2.core).fence.isSome then s else startCore s x.2.core bundle) s

/-- Start every virtual core that has a program, at its Entry bundle (R263 step 5). -/
def startCores (s : State) (b : BoundImage) : State := startImage s b (·.entry)

/-- Take an image's cores out of use: halted, reduction tables cleared, sync owners dropped, array tiles forgotten (R264). -/
def dropImage (s : State) (n : Nat) (b : BoundImage) : State :=
  let s := b.syncIdx.foldl (fun s i => if (s.sync i).owner = some n then s.setSync i { s.sync i with owner := none } else s) s
  b.placed.foldl (fun s p =>
    s.haltCore p.core fun k => { k with
      run := .halted, iqs := [], prog := Prog.reset, report := none, restartBy := none
      router := { k.router with red := [], recv := [] }
      arrays := Tbl.map (fun _ a => { a with tile := none, repair := [], state := if a.state = 5 then 0 else a.state }) k.arrays }) s

end Sys2Proof.Machine
end

