-- ==== Sys2Proof/Machine/PowerOps.lean ====
section
/-!
DEFINITION. The power sequencer's shared operations: leaving DOZE and DARK, going dark, the neighbour rule, and the PMBus
(R486, R491 to R500).
-/
namespace Sys2Proof.Machine

/-! ## PMBus (R486) -/

/-- Standard PMBus 1.3 command codes. -/
def pmOperation : Nat := 0x01
def pmClearFaults : Nat := 0x03
def pmVoutCommand : Nat := 0x21
def pmStatusWord : Nat := 0x79
def pmReadVout : Nat := 0x8B
def pmReadIout : Nat := 0x8C

/-- A command to region g's page: bus g div 40, page g mod 40. -/
def State.pmbus (s : State) (g cmd v : Nat) : State := s.emit (.pmbus (g / 40) (g % 40) cmd v)

/-- A command to a page as telemetry numbers it: 0 to 239 the regions', 240 to 243 VDD_ARRAY, VDD_AON, VDD_AUX and VDD_OPT on PMB0. -/
def State.pmPage (s : State) (page cmd : Nat) : State :=
  if page < 240 then s.pmbus page cmd 0 else s.emit (.pmbus 0 (page - 200) cmd 0)

/-- VOUT_COMMAND for a setpoint in mV: VOUT_MODE linear with exponent −12. -/
def setpointOp (s : State) (g mv : Nat) : State := s.pmbus g pmVoutCommand ((mv * 4096 + 500) / 1000)

/-! ## Neighbours (R499) -/

def neighbours (g : Nat) : List Nat :=
  (if 8 ≤ g then [g - 8] else []) ++ (if g + 8 < 240 then [g + 8] else []) ++ (if g % 8 ≠ 0 then [g - 1] else []) ++
    (if g % 8 ≠ 7 then [g + 1] else [])

/-- Read monitors: the sequencer and the central controller keep the latest values (R489, R507). -/
def readMonitors (s : State) (l : List MonRead) : State :=
  l.foldl (fun s x =>
    if x.region < 240 then s.updPreg x.region fun p => { p with
      current := 16384 * x.amps, before := 16384 * x.before, mean := x.mean, peak := max p.peak (16384 * max x.top x.amps) } else s) s

/-- A region's current and rise as its monitor gives them; 0 in DARK and LOST (R489, R499). -/
def monitorI (p : PRegion) : Nat := if p.state = .dark ∨ p.state = .lost then 0 else p.current
def monitorRise (p : PRegion) : Nat := if p.state = .dark ∨ p.state = .lost then 0 else p.current - p.before

/-- The slow profile is required: a busy neighbour, or a normal profile that is not faster (R498, R499). -/
def needsSlow (s : State) (g : Nat) : Bool :=
  8000 ≤ s.setting 0x3010 2 2000 ||
    (neighbours g).any fun h => s.setting 0x3010 5 80 * 110 * 65536 < 100 * monitorI (s.preg h)

/-- The neighbours' rises with the profile's contribution stay within the limit. -/
def loadOk (s : State) (g : Nat) (slow : Bool) : Bool :=
  let rise := ((neighbours g).map fun h => monitorRise (s.preg h)).sum
  let lim := s.setting 0x3010 6 150 * 65536
  if slow then rise + 10 * 65536 ≤ lim
  else let ramp := s.setting 0x3010 2 2000; rise * ramp + 80000 * 65536 ≤ lim * ramp

/-- From MODE to the release of isolation: 2.00 µs for the rail, the header ramp, 10.00 µs to lock the clock generator, 0.90 µs (R497). -/
def joinTime (s : State) (slow : Bool) : Nat := 12900 + if slow then 8000 else s.setting 0x3010 2 2000

/-- Start the header ramp: MODE rises (R497, R498). -/
def rampUp (s : State) (g : Nat) (w : Wake) : State :=
  let s := if w.slow then s.countField (powerField g) 4 1 else s
  (s.updPreg g fun p => { p with wake := some { w with ramped := true, rampAt := s.now, joinAt := s.now + joinTime s w.slow } }).modePin g true

/-! ## Waking -/

/-- A wake from DARK, or of a LOST region being retried: profile choice, first neighbour check, ramp when it may start (R499). -/
def darkWake (s : State) (g : Nat) : State :=
  let w : Wake := { fromDark := true, slow := needsSlow s g, since := s.now, ramped := false, counted := false, lastCheck := s.now,
                    rampAt := 0, joinAt := 0 }
  let s := (s.powerTo g .waking 0).updPreg g fun p => { p with wake := some w }
  if loadOk s g w.slow then rampUp s g w else s

/-- What a core loses in DARK: all but its arrays and trims, its fence and its counters (R491, R618). -/
def Core.darkened (k : Core) : Core :=
  { Core.reset with fence := k.fence, router := { Router.reset with dead := k.router.dead }, arrays := k.arrays, sets := Tbl.map (fun _ t => { t with use := 0, slice := none, sample := none, fixAfter := 0 }) k.sets
                    ctrs := k.ctrs, ovf := k.ovf, clearedAt := k.clearedAt }

/-- The cores of a power region that the table lists go dark. -/
def darkCores (s : State) (g : Nat) : State :=
  { s with cores := Tbl.map (fun c k => if powerOf c = g then k.darkened else k) s.cores }

/-- A region goes to DARK: headers open, MODE low; a LOST region stays LOST (R241, R491). -/
def goDark (s : State) (g : Nat) : State :=
  let p := s.preg g
  if p.state = .lost ∨ p.state = .dark then s
  else
    let s := darkCores (s.countField (powerField g) 1 1) g
    ((s.powerTo g .dark 0).updPreg g fun p => { p with wake := none, upkeepFrom := none, current := 0, before := 0 }).modePin g false

/-- Every region goes to DARK (R241). -/
def allDark (s : State) : State := (List.range 240).foldl goDark s

/-- A wake completes: NAP, with scratchpads cleared after DARK (R140, R497); a retried region's cores are free again (R505, R575). -/
def wakeDone (s : State) (g : Nat) (w : Wake) : State :=
  let s := if w.fromDark then s.countField (powerField g) 3 1 else s.countField (powerField g) 2 1
  let s := if w.fromDark then darkCores s g else s
  let retried := (s.preg g).retryAt.isSome
  let s := if retried then
      odPending { s with cores := Tbl.map (fun c k => if powerOf c = g ∧ k.fence = some 5 then { k with fence := none } else k) s.cores } 0x2250 2
    else s
  let s := (s.powerTo g .nap 0).updPreg g fun p => { p with wake := none, retryAt := none }
  -- cores that had work when it woke start their clocks; a region woken for its upkeep runs until that is done
  let s := (powerCores g).foldl (fun s c => if (s.core c).hasWork then s.startClock c else s) s
  if (s.preg g).upkeepFrom.isSome && s.thermal.state ≠ 1 then s.powerTo g .run 0 else s

/-- No flit is in the region's routers, on its way to its cores, or has passed since a time (R493). -/
def flitQuiet (s : State) (g span : Nat) : Bool :=
  s.passed (s.preg g).lastFlit span && !s.mesh.any fun f => powerOf f.loc = g || powerOf f.pkt.dest = g

/-! ## Upkeep due in a region (R119, R494) -/

/-- Schedule a task on an array, once. -/
def Core.addTask (k : Core) (a level : Nat) : Core :=
  let t := k.set (a / 4)
  if t.tasks.any fun x => x.array = a && x.level = level then k
  else k.setSet (a / 4) { t with tasks := t.tasks ++ [⟨level, a⟩] }

/-- Refresh interval of a format in seconds (R111). -/
def refreshInterval (s : State) (format : Nat) : Nat :=
  s.setting 0x5040 1 21600 * (match format with | 1 => 1 | 5 => 1 | 2 => 2 | _ => 4)

/-- An array's refresh falls due within a tenth of its interval. -/
def dueSoon (s : State) (p : PRegion) (a : Arr) : Bool :=
  a.format ≠ 0 && (a.state = 0 || a.state = 4) &&
    (let i := refreshInterval s a.format; 655360 * (i - i / 10) ≤ p.aged - a.ageBase)

/-- An array, in service or held, waits for a pass because its region's temperature has moved since the cold start's (R107).  DESIGN
CHOICE: a retired array has no upkeep. -/
def calDueOf (s : State) (c i : Nat) : Bool :=
  (s.preg (powerOf c)).calDue &&
    (let a := (s.core c).arr i; (a.state = 0 || a.state = 4) && passIsCold s c a)

/-- Upkeep is pending or running on a core of the region (R119). -/
def upkeepDue (s : State) (g : Nat) : Bool :=
  (s.cores.any fun e => powerOf e.1 = g && e.2.sets.any fun t => !t.2.tasks.isEmpty || t.2.slice.isSome || t.2.sample.isSome) ||
    ((s.preg g).calDue && (powerCores g).any fun c => (List.range 32).any fun i => calDueOf s c i)

/-- Upkeep waits, runs, or falls due soon on a core of the region. -/
def upkeepNear (s : State) (g : Nat) : Bool :=
  upkeepDue s g || s.cores.any fun e => powerOf e.1 = g && e.2.arrays.any fun a => dueSoon s (s.preg g) a.2

/-- A core of the region lies in a tenant region or a corridor (R241). -/
def tenanted (s : State) (g : Nat) : Bool :=
  s.regions.any fun e => e.2.state ≠ 0 && (powerCores g).any fun c =>
    inRect e.2.nw e.2.se c || (match corridor e.2 with | some (a, b) => inRect a b c | none => false)

end Sys2Proof.Machine
end

