-- ==== Sys2Proof/Machine/Packets.lean ====
section
/-!
DEFINITION. Packets in the mesh: one hop (R221, R225 to R231, R240, R248, R249), and what each kind does at its destination (R151,
R156 to R158, R183, R189, R219, R224, R234 to R237, R348, R574, R665).
-/
namespace Sys2Proof.Machine

/-! ## Flights -/

def State.unmesh (s : State) (i : Nat) : State := { s with mesh := s.mesh.eraseIdx i }

/-- Discard a packet and count it. -/
def dropPacket (s : State) (loc : Nat) : State := s.updCore loc fun k => k.count 16 6 1

/-- A router reports a damaged packet: the step of its source core faults with cause 15 (R219). -/
def reportDamage (s : State) (p : Packet) : State := stepFaultFrom s p.src ⟨15, Config.meshAux p.dest, 0⟩ p.issuer

/-- A packet with a damaged head is discarded, counted and reported (R219). -/
def damaged (s : State) (loc : Nat) (p : Packet) : State :=
  reportDamage (s.updCore loc fun k => k.count 16 6 1) p

/-- A packet as a router receives it: an uncorrectable error in a payload flit sets Poison from that flit on, and is reported (R219). -/
def receiveAt (s : State) (p : Packet) : State × Packet :=
  match p.badFrom with
  | some i => (reportDamage s p, { p with poison := firstFlit p.poison (some i), badFrom := none })
  | none => (s, p)

/-- The core, the request and the delivered step that a packet's wait delays: a reply's reader, a step token's own line (R349), else its
sender. -/
def Packet.bearer (s : State) (p : Packet) : Nat × W32 × Option Nat :=
  if p.op = 9 ∧ p.svc then (p.dest, BitVec.ofNat 32 (fieldAt p.payload 0 4), some (fieldAt p.payload 4 4))
  else
    let c := if p.op = 3 ∨ p.op = 6 ∨ p.op = 0xC then p.dest else p.src
    (c, if p.svc then 0xFFFFFFFF else (s.core c).seq.stepReq, (s.core c).seq.stepSeq)

/-- Record a wake wait of a core's step (R240, R357). -/
def bearWake (s : State) (who : Nat × W32 × Option Nat) (ns : Nat) : State :=
  bearWait s who.1 who.2.1 who.2.2 ns fun y w => { y with wakeNs := y.wakeNs + w }

/-- A flight's wait for a region to wake is over: its router counts the cycles (R240, R254). -/
def dozeOver (s : State) (f : Flight) : State :=
  match f.dozeFrom with
  | some w => s.updCore f.loc fun k => k.count 16 7 (cyclesOf (s.now - w))
  | none => s
/-- How long a flight has waited for a region to wake. -/
def Flight.dozed (f : Flight) (now : Nat) : Nat := match f.dozeFrom with | some w => now - w | none => 0

/-- A flight waits where it is for a region to wake, which it wakes from DOZE (R240, R495). -/
def dozeHold (s : State) (flight : Nat) (f : Flight) (g : Nat) : State :=
  let s := { s with mesh := s.mesh.set flight { f with dozeFrom := some (f.dozeFrom.getD s.now) } }
  if (s.preg g).state = .doze then dozeWake s g else s

/-- A packet that has reached its core waits while the core's power region wakes: its scratchpad is not ready yet (R239, R240, R497). -/
def coreWaits (p : PRegion) : Bool := p.state = .doze || p.state = .waking

/-- Run the arrival of a packet of a kind that has reached its destination; nothing happens for another one.  A router that is a hole does not
deliver (R227); a poisoned packet is discarded (R219). -/
def arrive (s : State) (i op : Nat) (f : State → Nat → Packet → State) : State :=
  match s.mesh[i]? with
  | none => s
  | some x =>
    if x.pkt.op ≠ op ∨ x.loc ≠ x.pkt.dest then s
    else if isHole s x.loc then discardFault (s.unmesh i) x.loc x.pkt
    else if coreWaits (s.preg (powerOf x.loc)) then dozeHold s i x (powerOf x.loc)
    else
      let s := bearWake (dozeOver (s.unmesh i) x) (x.pkt.bearer s) (x.dozed s.now)
      if x.pkt.badHead then damaged s x.loc x.pkt
      else
        let (s, p) := receiveAt s x.pkt
        if p.poison.isSome then dropPacket s x.loc else f s x.loc p

/-- A flush of the region is between its stop and its clearing: replies and reductions are discarded (R576). -/
def draining (s : State) (n : Nat) : Bool := match (s.region n).flush with | some f => f.phase = 1 | none => false

/-! ## One hop -/

/-- Packets on a route that R253 forbids. -/
def onForbidden (s : State) (p : Packet) : Bool := p.region < 64 && (s.region p.region).forbidden.contains (p.src, p.dest)

/-- A reply from a home core: a refusal carries its Status in the body. -/
def replyPacket (op : Nat) (p : Packet) (status : Nat) (data : List Bytes) : Packet :=
  { blankPacket op p.region p.src p.dest with tag := p.tag, body := BitVec.ofNat 128 status, length := 2 * data.length, payload := data.flatten }

/-- A packet whose destination is a hole: a request of a core is refused with Status 1, whether or not the home core's router forwards
(R157); any other packet is discarded, so that none circulates (R231). -/
def toHole (s : State) (loc : Nat) (p : Packet) : State :=
  if p.svc then dropPacket s loc
  else if p.op = 1 ∨ p.op = 2 then placeAt s loc (replyPacket 3 p 1 []) false
  else if p.op = 5 then placeAt s loc (replyPacket 6 p 1 []) false
  else discardFault s loc p

/-- Move a flight on by a hop: it keeps its place in the order of flights, so that packets of one route stay in order; a reduction may
combine where it comes. -/
def moveOn (s : State) (flight c : Nat) (p : Packet) (col : Bool) : State :=
  if p.op = 7 then placeAt (s.unmesh flight) c p col
  else { s with mesh := s.mesh.set flight { loc := c, pkt := p, colMove := col, since := s.now } }

/-- PACKET_HOP: the router discards, waits for a region in DOZE, or forwards; a router that is a hole does not forward (R219, R221, R225 to
R231, R240, R248, R249, R253). -/
def execPacketHop (flight : Nat) (s : State) : Res :=
  match s.mesh[flight]? with
  | none => .next s
  | some f =>
    let p := f.pkt
    if p.op = 0 ∨ 0xC < p.op ∨ (64 ≤ p.region ∧ p.region ≠ 127) then .next (dropPacket (s.unmesh flight) f.loc)
    else if p.op = 4 ∨ f.loc = p.dest then .next s
    else if isHole s f.loc then .next (discardFault (s.unmesh flight) f.loc p)
    else if routersWait (s.preg (powerOf f.loc)) then .next (dozeHold s flight f (powerOf f.loc))
    else if !permitted s p f.loc ∨ onForbidden s p then .next (discardFault (s.unmesh flight) f.loc p)
    else if isHole s p.dest then .next (toHole (s.unmesh flight) f.loc p)
    else match nextHop s p f.loc with
      | .drop => .next (discardFault (s.unmesh flight) f.loc p)
      | .go c d col side =>
        let g := powerOf c
        if routersWait (s.preg g) then .next (dozeHold s flight f g)
        else
          let s := bearWake (dozeOver s f) (p.bearer s) (f.dozed s.now)
          let s := s.updCore f.loc fun k => (k.count 16 (vcOf p) (1 + p.length)).count 16 5 (if side then 1 else 0)
          let s := if p.soft = 0 then s else
            s.updCore c fun k => { k with router := { k.router with corrected := k.router.corrected + p.soft } }
          let s := s.updPreg (powerOf c) fun g => { g with lastFlit := s.now }
          if p.badHead then .next (damaged (s.unmesh flight) c p)
          else
            let (s, p) := receiveAt s p
            .next (moveOn s flight c { p with detour := d, soft := 0 } col)

/-! ## Requests at the home core -/

/-- Lines of a walk on a home core lie in its banks (R157); a write also spares the program window (R165). -/
def homeOk (w : Walk) (write : Bool) : Bool :=
  1 ≤ w.nin && 1 ≤ w.nout && w.encOk && w.lines.all fun l => 0 ≤ l.1 && l.1 ≤ 1279 && !(write && 1248 ≤ l.1)

/-- The home core refuses every request (R157, R574). -/
def homeRefuses (s : State) (c : Nat) : Bool := !usable s c || regionDark s.now (s.preg (powerOf c))

/-- A remote read of a home core's lines meets an uncorrectable word: the step of the requester, which reads it, faults with cause 15, and
the report names the home core's unit (R139, R570). -/
def homeFail (s : State) (c : Nat) (p : Packet) (f : Fail) : State :=
  stepFaultFrom s p.src { f with unit := 64 * (c + 1) + f.unit } p.issuer

/-- The lines a remote read returns: a line that an operation in progress writes may be the old or the new one (R151). -/
def racingLines (s : State) (c : Nat) (ls : List (Int × Nat)) : List Bytes × State :=
  let k := s.core c
  let (base, s) := s.draw ls.length
  let k2 := k.active.foldl (fun x a => Effects.run (opEffects k a.2) x) k
  (ls.zipIdx.map fun x =>
    if Config.racing (base + x.2) then k2.readLine x.1.1.toNat x.1.2 else k.readLine x.1.1.toNat x.1.2, s)

/-- READ_REQ: served with its lines in one reply, or refused (R156, R157). -/
def execReadReq (flight : Nat) (s : State) : Res :=
  .next (arrive s flight 1 fun s c p =>
    let w := walkOf p.body
    if homeRefuses s c ∨ !homeOk w false then placeAt s c (replyPacket 3 p 1 []) false
    else match lineFail (s.core c) w.lines with
    | some f => homeFail s c p f
    | none =>
      let (ls, s) := racingLines s c w.lines
      placeAt (s.updCore c fun k => k.readSoftLines w.lines) c (replyPacket 3 p 0 ls) false)

/-- REMOTE_WRITE: the lines are written in walk order and acknowledged, or the write is refused (R156, R157, R165). -/
def execRemoteWrite (flight : Nat) (s : State) : Res :=
  .next (arrive s flight 5 fun s c p =>
    let w := walkOf p.body
    let bad := homeRefuses s c || !homeOk w true
    let s := if bad then s else s.updCore c fun k => k.writeWalk w (chunks 64 p.payload)
    if p.svc then s else placeAt s c (replyPacket 6 p (if bad then 1 else 0) []) false)

/-! ## Merged reads (R158, R236, R237) -/

/-- A requester entry of a merged reply. -/
def mergeEntry (p : Packet) : Nat := coreByteId p.src * 65536 + p.tag.toNat / 2 ^ 24 * 256
def emptyEntry : Nat := 0xFFFF0000
/-- The entries of a merged reply's body, without the empty ones. -/
def bodyEntries (b : BitVec 128) : List Nat :=
  ((List.range 4).map fun i => bits b.toNat (127 - 32 * i) (96 - 32 * i)).filter fun e => e / 65536 ≠ 0xFFFF
def bodyOf (es : List Nat) : BitVec 128 :=
  let l := (es ++ List.replicate 4 emptyEntry).take 4
  BitVec.ofNat 128 (l.foldl (fun v e => v * 2 ^ 32 + e % 2 ^ 32) 0)

/-- A line of the merge buffer is in its window: 64 cycles from its grant, and no write has closed it. -/
def MergeLine.live (now : Nat) (m : MergeLine) : Bool :=
  cyclesOf (now - m.opened) < 64 && !m.closed

/-- Keep the 16 newest grants of a merge buffer. -/
def keep16 (l : List MergeLine) : List MergeLine := l.drop (l.length - 16)

/-- A reply of one line to one requester, at the home router; later requests may join it when it names its line. -/
def mergeReplyPacket (c : Nat) (p : Packet) (key : Option Nat) (data : Bytes) : Packet :=
  { blankPacket 4 p.region p.src c with body := bodyOf [mergeEntry p], length := 2, payload := data, mline := key }

/-- Join the reply of a line that has not left its home router, or start one more for the next four requesters. -/
def joinReply (s : State) (c key : Nat) (p : Packet) (data : Bytes) : State :=
  let here (f : Flight) : Bool := f.loc = c && f.pkt.op = 4 && f.pkt.src = c && f.pkt.region = p.region && f.pkt.mline = some key &&
    (bodyEntries f.pkt.body).length < 4
  match s.mesh.findIdx? here with
  | some i =>
    match s.mesh[i]? with
    | some f => { s with mesh := s.mesh.set i { f with pkt := { f.pkt with body := bodyOf (bodyEntries f.pkt.body ++ [mergeEntry p]) } } }
    | none => s
  | none => placeAt s c (mergeReplyPacket c p (some key) data) false

/-- A new window of a line: replies of an earlier one, still unsent, take no more requesters. -/
def closeReplies (s : State) (c key : Nat) : State :=
  { s with mesh := s.mesh.map fun f =>
      if f.loc = c ∧ f.pkt.op = 4 ∧ f.pkt.src = c ∧ f.pkt.mline = some key then { f with pkt := { f.pkt with mline := none } } else f }

/-- MERGE_REQ: served from the merge buffer within its window, else from the bank, which opens one (R158); or refused (R157).
DESIGN CHOICE: a line whose window a write has closed keeps its place among the 16 until it is read from the bank again, replaced, or
its 64 cycles are over. -/
def execMergeReq (flight : Nat) (s : State) : Res :=
  .next (arrive s flight 2 fun s c p =>
    let w := walkOf p.body
    if homeRefuses s c ∨ !homeOk w false then placeAt s c (replyPacket 3 p 1 []) false
    else
      let l := nth w.lines 0 (0, 0)
      let row := l.1.toNat
      let k := s.core c
      let key := 32 * row + l.2
      match k.router.merge.find? fun m => m.row = row && m.col = l.2 && m.live s.now with
      | some m =>
        if m.replied then placeAt s c (mergeReplyPacket c p none m.data) false else joinReply s c key p m.data
      | none =>
        match lineFail k [l] with
        | some f => homeFail s c p f
        | none =>
        let s := closeReplies (s.updCore c fun k => k.readSoftLines [l]) c key
        let (ls, s) := racingLines s c [l]
        let data := ls.headD []
        let k := s.core c
        let rest := k.router.merge.filter fun m => !(m.row = row && m.col = l.2)
        let s := s.setCore c { k with router := { k.router with merge := keep16 (rest ++ [⟨row, l.2, s.now, false, data, false⟩]) } }
        placeAt s c (mergeReplyPacket c p (some key) data) false)

/-- MERGE_WINDOW_CLOSE: 64 cycles after its grant a line leaves the merge buffer (R158). -/
def execMergeWindowClose (core row col : Nat) (s : State) : Res :=
  let k := s.core core
  let keep (m : MergeLine) : Bool := !(m.row = row && m.col = col && 64 ≤ cyclesOf (s.now - m.opened))
  .next (s.setCore core { k with router := { k.router with merge := k.router.merge.filter keep } })

/-! ## Replies -/

/-- Lines of a request land in order: in its local walk, or held in its inbound entries; the last one completes it, and makes the
entries of a read into the queue ready together (R156, R184, R189, R190). -/
def landLines (s : State) (c : Nat) (a : Await) (ls : List Bytes) : State :=
  let i := a.lines - a.left
  let k := s.core c
  let k := if a.toWalk then
      let w := walkOf a.walk
      ls.zipIdx.foldl (fun k x => let l := nth w.lines (i + x.2) (0, 0); k.writeLine l.1.toNat l.2 x.1) k
    else k.setIq a.q (fillIq (k.iq a.q) a.req i ls)
  let a := { a with left := a.left - ls.length }
  let k := if a.left = 0 ∧ !a.toWalk then k.setIq a.q (readyIq (k.iq a.q) a.req) else k
  let s := s.setCore c (k.putAwait a)
  if a.left = 0 then complete s c a 0 else s

/-- The next line of a merged read is requested once the one before it has come: a merged reply names its request alone. -/
def nextMerge (s : State) (c : Nat) (a : Await) : State :=
  match (s.core c).await? a.q a.req with
  | none => s
  | some b =>
    -- the walk on the home core stands in the request line kept with the await
    let w := walkOf b.source
    inject s c { corePacket 2 b.home (reqTag b.q b.req) (lineWalk w (b.lines - b.left)) [] with line := 0, issuer := some b.issuer }

/-- READ_REPLY: data lands in the reserved entries or the local walk; a refusal completes with its Status; a reply to a request that
a stop discarded is dropped (R183, R189, R206). -/
def execReadReply (flight : Nat) (s : State) : Res :=
  .next (arrive s flight 3 fun s c p =>
    match (s.core c).await? (tagQueue p.tag) (tagPos p.tag) with
    | none => s
    | some a =>
      if p.body = 0 then settle (landLines s c a (chunks 64 p.payload)) c else settle (complete s c a p.body.toNat) c)

/-- Deliver one entry of a merged reply at its core. -/
def mergeDeliver (s : State) (c e : Nat) (data : Bytes) : State :=
  match (s.core c).await? (bits e 15 13) (bits e 12 8) with
  | none => s
  | some a => if a.merge then settle (nextMerge (landLines s c a [data]) c a) c else s

/-- The packet for one entry of a merged reply. -/
def entryPacket (p : Packet) (e : Nat) : Packet := { p with dest := unpackByteCore (e / 65536) }

/-- A copy of a merged reply: the next router, its Detour, whether it moves along a column and by a detour step, and its entries. -/
structure Branch where
  next   : Nat
  detour : Nat
  col    : Bool
  side   : Bool
  es     : List Nat
deriving DecidableEq, Repr

/-- Group entries by the next hop on their route; those without one are left out. -/
def splitEntries (s : State) (p : Packet) (loc : Nat) : List Nat → List Branch → List Branch
  | [], l => l
  | e :: t, l =>
    match nextHop s (entryPacket p e) loc with
    | .drop => splitEntries s p loc t l
    | .go c d col side =>
      let l := match l.findIdx? fun x => x.next = c && x.detour = d with
        | some i => (match l[i]? with | some x => l.set i { x with es := x.es ++ [e] } | none => l)
        | none => l ++ [⟨c, d, col, side, [e]⟩]
      splitEntries s p loc t l

/-- A merged reply with some of its entries. -/
def subReply (p : Packet) (detour : Nat) (es : List Nat) : Packet :=
  { p with detour := detour, body := bodyOf es, dest := unpackByteCore (es.headD 0 / 65536) }

/-- A merged reply that leaves its home router closes its line's part in it: later requests get a reply of their own (R158). -/
def markReplied (s : State) (loc : Nat) (p : Packet) : State :=
  s.updCore loc fun k => { k with router := { k.router with
    merge := k.router.merge.map fun m => if loc = p.src ∧ some (32 * m.row + m.col) = p.mline then { m with replied := true } else m } }

/-- Count the copies of a merged reply that leave a router, and those of them that detour (R254). -/
def countCopies (s : State) (loc : Nat) (go : List Branch) : State :=
  s.updCore loc fun k => (k.count 16 1 (3 * go.length)).count 16 5 (go.filter (·.side)).length

/-- MERGE_REPLY: at a router the reply is delivered to its own core's entry, and a copy leaves on every port that lies on the route
of other entries, once the region of the next router is not in DOZE (R237, R240); entries without a route are discarded (R248, R253). -/
def execMergeReply (flight : Nat) (s : State) : Res :=
  match s.mesh[flight]? with
  | none => .next s
  | some f =>
    if f.pkt.op ≠ 4 then .next s
    else
      let p := f.pkt
      if isHole s f.loc then .next (discardFault (s.unmesh flight) f.loc p)
      else if routersWait (s.preg (powerOf f.loc)) then .next (dozeHold s flight f (powerOf f.loc))
      else
        let s := s.unmesh flight
        let es := bodyEntries p.body
        let here := es.filter fun e => unpackByteCore (e / 65536) = f.loc
        let lost (e : Nat) : Bool := onForbidden s (entryPacket p e) || !permitted s (entryPacket p e) f.loc ||
          isHole s (entryPacket p e).dest || (match nextHop s (entryPacket p e) f.loc with | .drop => true | .go _ _ _ _ => false)
        let away := es.filter fun e => unpackByteCore (e / 65536) ≠ f.loc
        let outs := splitEntries s p f.loc (away.filter fun e => !lost e) []
        let asleep (g : Nat) : Bool := routersWait (s.preg g)
        let go := outs.filter fun x => !asleep (powerOf x.next)
        let wait := outs.filter fun x => asleep (powerOf x.next)
        let unready : Bool := coreWaits (s.preg (powerOf f.loc))
        -- a reply that only waits has not left: requests of its window still join it
        let left : Bool := !go.isEmpty || (!here.isEmpty && !unready)
        let s := if left then markReplied s f.loc p else s
        let p := { p with mline := if left then none else p.mline }
        let s := if go.isEmpty then s else
          (go.flatMap (·.es)).foldl (fun s e =>
            let c := unpackByteCore (e / 65536)
            bearWake s (c, (s.core c).seq.stepReq, (s.core c).seq.stepSeq) (f.dozed s.now)) (dozeOver s f)
        let s := countCopies s f.loc go
        let s := (away.filter lost).foldl (fun s e => discardFault s f.loc (entryPacket p e)) s
        let s := go.foldl (fun s x =>
          let s := if p.soft = 0 then s else
            s.updCore x.next fun k => { k with router := { k.router with corrected := k.router.corrected + p.soft } }
          let s := s.updPreg (powerOf x.next) fun g => { g with lastFlit := s.now }
          if p.badHead then damaged s x.next p
          else
            let (s, q) := receiveAt s p
            placeAt s x.next { subReply q x.detour x.es with soft := 0 } x.col) s
        let s := wait.foldl (fun s x =>
          let s := if (s.preg (powerOf x.next)).state = .doze then dozeWake s (powerOf x.next) else s
          let w : Flight := ⟨f.loc, subReply p p.detour x.es, f.colMove, s.now, some (f.dozeFrom.getD s.now)⟩
          { s with mesh := s.mesh ++ [w] }) s
        if here.isEmpty then .next s
        else if unready then .next { s with mesh := s.mesh ++ [⟨f.loc, subReply p p.detour here, f.colMove, s.now, some (f.dozeFrom.getD s.now)⟩] }
        else if p.badHead then .next (damaged s f.loc p)
        else
          let (s, q) := receiveAt s p
          if q.poison.isSome then .next (dropPacket s f.loc) else .next (here.foldl (fun s e => mergeDeliver s f.loc e q.payload) s)

/-- WRITE_ACK: the requester's completion entry, with the home core's Status (R189). -/
def execWriteAck (flight : Nat) (s : State) : Res :=
  .next (arrive s flight 6 fun s c p =>
    match (s.core c).await? (tagQueue p.tag) (tagPos p.tag) with
    | none => s
    | some a => settle (complete s c a p.body.toNat) c)

/-! ## Reductions -/

/-- Land one reduction line at its destination (R235): written by the first contribution of its line, added by later ones; the last
one signals the sync object.  An addition reads the landing line, as R139 checks it. -/
def landReduce (s : State) (c : Nat) (p : Packet) : State :=
  let k := s.core c
  let e := (Tbl.get k.router.red 0 p.id).toNat
  let expected := bits e 25 10
  let lines := bits e 47 43
  if expected = 0 ∨ bits e 42 41 ≠ p.a ∨ lines < p.line then dropPacket s c
  else
    let (n, mask) := Tbl.get k.router.recv (0, 0) p.id
    let row := bits e 63 53
    let col := (bits e 52 48 + p.line) % 32
    let at_ : List (Int × Nat) := if mask.getLsbD p.line then [((row : Int), col)] else []
    match lineFail k at_ with
    | some f => stepFaultFrom (dropPacket s c) c f none
    | none =>
    let k := k.readSoftLines at_
    let (data, ov) := if mask.getLsbD p.line then addLines p.a (k.readLine row col) p.payload else (slice p.payload 0 64, 0)
    let k := (k.writeLine row col data).count 16 4 ov
    let n := n + p.count
    let mask := mask ||| BitVec.ofNat 32 (2 ^ p.line)
    if expected * (lines + 1) ≤ n then
      let s := s.setCore c { k with router := { k.router with recv := Tbl.del k.router.recv p.id } }
      applySignal s c (ownerOf s c) (bits e 40 26) 1
    else s.setCore c { k with router := { k.router with recv := Tbl.set k.router.recv p.id (n, mask) } }

/-- REDUCE: a reduction line lands; a fenced core or a draining region discards it (R235, R574, R576). -/
def execReduce (flight : Nat) (s : State) : Res :=
  .next (arrive s flight 7 fun s c p =>
    if (s.core c).fence.isSome ∨ draining s p.region then dropPacket s c else landReduce s c p)

/-! ## Signals and step tokens -/

/-- An earlier signal of the same core to the same object has not been applied: signals apply in issue order (R194). -/
def earlierSignal (s : State) (flight : Nat) (p : Packet) : Bool :=
  (s.mesh.take flight).any fun f => f.pkt.op = 8 && f.pkt.src = p.src && bits f.pkt.body.toNat 14 0 = bits p.body.toNat 14 0

/-- SIGNAL: the relay core's field applies the signal at its AON tile, after the core's earlier ones to the object (R194, R665). -/
def execSignal (flight : Nat) (s : State) : Res :=
  match s.mesh[flight]? with
  | none => .next s
  | some x => if earlierSignal s flight x.pkt then .next s else .next (arrive s flight 8 fun s _ p => signalAt s p.src (bits p.body.toNat 14 0) (BitVec.ofNat 32 (bits p.body.toNat 63 32)) p.issuer)

/-- STEP_TOKEN: the token line is written and the entry sync object signalled, once the step's other lines have landed (R348), and the
sequencer's clock starts (R239);
Length 0 only signals; any other Length is discarded; a fenced core discards it (R221, R574). -/
def execStepToken (flight : Nat) (s : State) : Res :=
  match s.mesh[flight]? with
  | none => .next s
  | some x =>
    if (s.mesh.take flight).any fun f => f.pkt.svc && f.pkt.op = 5 && ownerOf s f.pkt.dest = ownerOf s x.pkt.dest then .next s
    else
      .next (arrive s flight 9 fun s c p =>
        if (s.core c).fence.isSome ∨ (p.length ≠ 0 ∧ p.length ≠ 2) then dropPacket s c
        else
          let row := match servingOf s c with | some v => v.tokenRow | none => 0
          let s := if p.length = 2 then s.updCore c fun k => k.writeLine row 0 (slice p.payload 0 64) else s
          applySignal (if (s.core c).run = .issuing then s.startClock c else s) c (ownerOf s c) (bits p.body.toNat 14 0) 1)

end Sys2Proof.Machine
end

