-- ==== Sys2Proof/Machine/Faults.lean ====
section
/-!
DEFINITION. Step faults at the fault service, the image flush, core death and its detectors (R570 to R580, R635 step 1).
-/
namespace Sys2Proof.Machine

/-! ## The march test (R570) -/

/-- Zero a bank but for the program window's lines, which the loader writes again, or a tile; its words are sound again, and the
windows of its lines in the merge buffer close (R158). -/
def Core.clearUnit (k : Core) (u : Nat) : Core :=
  let out (w : Nat) : Bool := wordUnit (w / 256) (w % 256 / 8) ≠ u
  let k := { k with badWords := k.badWords.filter out, softWords := k.softWords.filter out }
  if u < 32 then { k with
    mem := k.mem.filter fun e => !(wordUnit (e.1 / 2048) (e.1 % 2048 / 64) = u && e.1 / 2048 < 1248)
    router := { k.router with merge := k.router.merge.map fun m => if wordUnit m.row m.col = u then { m with closed := true } else m } }
  else { k with acc := k.acc.filter fun e => e.1 / 512 ≠ u - 32 }

/-- The outcome of the march test of the unit that held the failing word. -/
def marched (s : State) (c u : Nat) (fails : Bool) (source : Option Bytes) : State :=
  if fails then coreDies s c 0x0201 u
  else
    let s := odPending { s with faults := { s.faults with transient := s.faults.transient + 1 } } 0x2250 6
    let s := s.updCore c fun k => k.clearUnit u
    if u < 32 ∧ source.isNone then coreDies s c 0x0201 u else s

/-! ## Step faults -/

/-- The Vigil trigger of a cause: 1 budget overrun, 2 wait limit (R634). -/
def vigilTrigger (cause : Nat) : Option Nat := if cause = 11 then some 1 else if cause = 16 then some 2 else none

/-- Freeze every running core of a region for its dump: its fast clock stops (R635 step 1). -/
def freezeRegion (s : State) (n : Nat) : State :=
  let r := s.region n
  (rectCores r.nw r.se).foldl (fun s c => if (s.core c).run = .issuing then (s.updCore c Core.freeze).napIfIdle (powerOf c) else s) s

/-- A hang in an armed region: the barrier closes and the dump is queued in place of the flush's first parts (R635). -/
def beginVigil (s : State) (n trigger : Nat) (core handle : Option Nat) : State :=
  let s := freezeRegion (startFlush s n 0) n
  let s := s.updRegion n fun r => { r with flush := r.flush.map fun f => { f with phase := 3 } }
  let t : VigTrig := { region := n, trigger := trigger, core := core, handle := handle, time := s.almanac }
  let s := { s with observe := { s.observe with vigilQ := s.observe.vigilQ ++ [t] } }
  s.sil 6 (silCentral 6 (some n)) (leBytes 1 5 ++ leBytes 2 n ++ leBytes 8 0)

/-- FAULT: the fault service takes a core's report: the record, the requests it ends, the flush or the Vigil dump, and the march test
of a memory error (R570, R576 to R580, R584 to R587, R635). -/
def execFault (core : Nat) (marchFails : Bool) (source : Option Bytes) (s : State) : Res :=
  match (s.core core).report with
  | none => .next s
  | some r =>
    let s := s.updCore core fun k => { k with report := none }
    let owner := ownerOf s core
    let code := 0x0100 + r.cause
    let (cs, s) := match owner with | some n => namedCtxs s n r.req r.stepSeq | none => ([], s)
    let rec_ : ErrRec :=
      { code := code, core := some core, power := some (powerOf core), region := owner, ctx := r.req, kind := r.kind,
        bundle := r.bundle, slot := r.slot, time := BitVec.ofNat 64 r.time, aux0 := BitVec.ofNat 32 r.aux0,
        aux1 := BitVec.ofNat 32 cs.length }
    let s := s.recordErr rec_
    let s := cs.foldl (fun s c => endFaulted s c code) s
    let s := match owner with
      | none => s
      | some n =>
        let g := s.region n
        match vigilTrigger r.cause with
        | some t => if g.vigil.isSome ∧ g.flush.isNone ∧ (vcoreAt s n core).isSome then
            (let s := beginVigil s n t (some core) none
             if laterStage s n then tellFault s n rec_.bytes else s)
          else flushFor s n code rec_.bytes
        | none => flushFor s n code rec_.bytes
    -- a unit of 64 and more names the home core whose word a remote read met
    .next (if r.cause = 15 then marched s (if r.unit < 64 then core else r.unit / 64 - 1) (r.unit % 64) marchFails source else s)

/-! ## The image flush -/

/-- A FAULT packet of the fault service (R577). -/
def faultPacket (c code action : Nat) : Packet :=
  { blankPacket 0xA 127 c c with body := BitVec.ofNat 128 (code % 65536 * 2 ^ 112 + action * 2 ^ 104) }
/-- The action of a FAULT packet. -/
def faultAction (p : Packet) : Nat := bits p.body.toNat 111 104

/-- The cores of an image that can act: not fenced. -/
def liveCores (s : State) (n : Nat) : List Nat := (s.region n).imgCores.filter fun c => (s.core c).fence.isNone

/-- IMAGE_FLUSH: the fault service sends every core of the image the order to stop (R576 step 2). -/
def execImageFlush (region : Nat) (s : State) : Res :=
  match (s.region region).flush with
  | some f =>
    if f.phase ≠ 0 then .next s
    else
      let s := (liveCores s region).foldl (fun s c => injectSvc s c (faultPacket c f.code 1)) s
      .next (s.updRegion region fun r => { r with flush := some { f with phase := 1 } })
  | none => .next s

/-- The position of a FAULT packet with an action at a core. -/
def faultFlight (s : State) (c action : Nat) : Option Nat :=
  s.mesh.findIdx? fun f => f.pkt.op = 0xA && f.loc = c && f.pkt.dest = c && faultAction f.pkt = action

/-- FAULT_ACTION_STOP: the core acts as in R206, steps 1 to 3 (R576 step 2). -/
def execFaultActionStop (core : Nat) (s : State) : Res :=
  match faultFlight s core 1 with
  | none => .next s
  | some i =>
    let s := s.unmesh i
    let k := s.core core
    if k.run = .issuing ∨ k.run = .frozen then
      .next (s.haltCore core id)
    else .next s

/-- The steps in flight go back to be delivered again, without the requests that have ended; contexts that ended become free (R343,
R576). -/
def requeueSteps (s : State) (n : Nat) : State :=
  let r := s.region n
  let live (g : Seg) : Bool := match s.ctx? g.ctx with | some x => x.state ≠ .ended | none => false
  let back := (r.steps.map fun p => { p with segs := p.segs.filter live }).filter fun p => !p.segs.isEmpty
  let s := s.setRegion n { r with steps := [], again := back ++ r.again }
  let ended := (s.serving.ctxs.filter fun e => e.2.d.region = n && e.2.state = .ended).map (·.1)
  let s := ended.foldl (fun s c => if inFlight s n c then s else s.delCtx c) s
  { s with serving := { s.serving with ctxs := Tbl.map (fun _ x => if x.d.region = n then { x with results := [] } else x) s.serving.ctxs } }

/-- Clear what the image's cores and the mesh hold between steps (R576 step 4). -/
def clearImage (s : State) (n : Nat) : State :=
  let s := { s with syncs := Tbl.map (fun _ o => if o.owner = some n then { o with value := 0 } else o) s.syncs }
  let cs := (s.region n).imgCores
  let s := cs.foldl (fun s c => s.updCore c fun k => { k with iqs := [], router := { k.router with recv := [] } }) s
  let stale (u : ReadUse) : Bool := match u with | .class1 c _ _ _ _ _ _ => cs.contains c | _ => false
  let s := { s with
    mesh := s.mesh.filter fun f => f.pkt.region ≠ n
    host := { s.host with reads := Tbl.map (fun _ r => if stale r.use then { r with use := .spare } else r) s.host.reads }
    fabric := { s.fabric with waits := s.fabric.waits.filter fun w => !cs.contains w.core } }
  let s := (s.host.writes.filter fun e => cs.contains (hubCore e.1)).foldl (fun s e => hubDone s e.1) s
  s.updRegion n fun r => { r with delivered := 0 }

/-- Order every live core with a program to restart, within 10 µs (R571, R576 step 5). -/
def orderRestart (s : State) (n : Nat) : State :=
  match (s.region n).flush with
  | none => s
  | some f =>
    let s := (liveCores s n).foldl (fun s c =>
      if (s.core c).run = .halted then s
      else (injectSvc s c (faultPacket c f.code 2)).updCore c fun k => { k with restartBy := some (s.now + 10000) }) s
    s.updRegion n fun r => { r with flush := some { f with phase := 2 } }

/-- Every core of the image has restarted and no repair remains: the barrier is released; a later stage reports it, and stage 0 waits
for the other stages (R576 step 6, R579). -/
def tryRelease (s : State) (n : Nat) : State :=
  let r := s.region n
  match r.flush, r.img with
  | some f, some b =>
    let lead := b.grouped && b.img.stage = 0
    let up := (liveCores s n).all fun c => (s.core c).restartBy.isNone
    if f.phase ≠ 2 ∨ !up ∨ !r.relocs.isEmpty ∨ (lead ∧ !b.others.all fun i => b.flushed.contains i) then s
    else
      let s := s.setRegion n { r with flush := none }
      if laterStage s n then sendControl s b 0 11 2 b.version [] else s
  | _, _ => s

/-- FLUSH_DRAINED: every core has stopped and no packet of theirs remains: what the cores and the mesh hold is cleared, the steps in
flight wait to be delivered again, and the cores are told to restart; in a group stage 0 orders the restart once every stage has
stopped (R576 steps 4 and 5, R579, R588 code 0x0401). -/
def execFlushDrained (region : Nat) (s : State) : Res :=
  let r := s.region region
  match r.flush, r.img with
  | some f, some b =>
    let lead := b.grouped && b.img.stage = 0
    let stopped := (liveCores s region).all fun c =>
      ((s.core c).run = .stopped || (s.core c).run = .halted) && (faultFlight s c 1).isNone
    let clear := s.mesh.all fun f => f.pkt.svc || f.pkt.region ≠ region
    if f.phase ≠ 1 ∨ !stopped ∨ !clear ∨ (lead ∧ !b.others.all fun i => b.flushed.contains i) then .next s
    else
      let s := clearImage (requeueSteps s region) region
      let s := s.recordErr (plainRec s 0x0401 (some region) (s.region region).again.length 0)
      if laterStage s region then
        let s := s.updRegion region fun r => { r with flush := some { f with phase := 4 } }
        .next (sendControl s b 0 11 1 b.version [])
      else
        let s := if lead then
            sendAllStages (s.updRegion region fun r => { r with img := r.img.map fun b => { b with flushed := [] } }) b 10 2 b.version
          else s
        .next (tryRelease (orderRestart s region) region)
  | _, _ => .next s

/-- FAULT_ACTION_RESTART: the core restarts at its restart bundle, its scratchpad kept (R576 step 5, R211). -/
def execFaultActionRestart (core : Nat) (s : State) : Res :=
  match faultFlight s core 2 with
  | none => .next s
  | some i =>
    let s := s.unmesh i
    let k := s.core core
    if k.fence.isSome ∨ k.run = .halted then .next s
    else
      let s := (s.setCore core { k.startAt k.prog.restart s.now k.seq.entered with restartBy := none }).startClock core
      .next (match ownerOf s core with | some n => tryRelease s n | none => s)

/-! ## Core death -/

/-- CORE_DEAD: a core judged dead is fenced, recorded, flushed and repaired (R573, R581, R584). -/
def execCoreDead (core code aux0 : Nat) (s : State) : Res :=
  if 0x0201 ≤ code ∧ code ≤ 0x0205 then .next (coreDies s core code aux0) else .next s

/-- Cycles that the watchdog has counted: since the last issue, while issuing, and not held in a wait with its clock stopped (R571); a
frozen region's counts stand still (R635). -/
def watchdogCount (s : State) (k : Core) : Nat :=
  if k.run ≠ .issuing ∨ (k.waiting ∧ !k.clockOn) then 0 else cyclesOf (s.now - k.lastIssue)

/-- SEQUENCER_WATCHDOG: 2^20 cycles without an issue, or 10 µs without the restart that was ordered (R571). -/
def execSequencerWatchdog (core : Nat) (s : State) : Res :=
  let k := s.core core
  let late : Bool := match k.restartBy with | some t => decide (t < s.now) | none => false
  if 2 ^ 20 ≤ watchdogCount s k ∨ late then .next (coreDies s core 0x0202 0) else .next s

/-- HEARTBEAT_MISSING: the router of a core in a region in RUN or NAP is dead (R572). -/
def execHeartbeatMissing (core : Nat) (s : State) : Res :=
  let g := (s.preg (powerOf core)).state
  if g = .run ∨ g = .nap then .next (coreDies s core 0x0204 0) else .next s

end Sys2Proof.Machine
end

