-- ==== Sys2Proof/Machine/OdTable.lean ====
section
/-!
DEFINITION. The entries of the object dictionary, from the tables of every chapter (R445, R453): index, subindex, type, access right,
default, persistence and range.  An index written 0xIIII+x in the spec is one row with the number of indexes it stands for.
Subindexes 00 that hold the highest subindex (R447) and read-back subindexes (R457) follow from the rows.
-/
namespace Sys2Proof.Machine

/-- Entry types (R446). -/
inductive OdTy where
  | bool | u8 | u16 | u32 | u64 | i32 | fix | str | dom
deriving DecidableEq, Repr

/-- Access rights (R448). -/
inductive OdAcc where
  | ro | rw | wo | const | rwc
deriving DecidableEq, Repr

/-- One row: first index, indexes, subindex, type, access, default, persistence, range and a value outside the range that has a
meaning.  Defaults and ranges of FIX16.16 are the nearest stored integers (R446). -/
structure OdRow where
  base  : Nat
  count : Nat
  sub   : Nat
  ty    : OdTy
  acc   : OdAcc
  dflt  : Nat
  keep  : Bool
  lo    : Nat
  hi    : Nat
  also  : Option Nat
deriving DecidableEq, Repr

/-- Bytes of a value of a type of fixed length (R446). -/
def OdTy.size : OdTy → Option Nat
  | .bool => some 1 | .u8 => some 1 | .u16 => some 2 | .u32 => some 4 | .u64 => some 8 | .i32 => some 4 | .fix => some 4
  | .str => none | .dom => none

def odRows1 : List OdRow :=
  [⟨0x1000, 1, 0x01, .u32, .const, 1297350728, false, 0, 4294967295, none⟩,
   ⟨0x1000, 1, 0x02, .str, .const, 0, false, 0, 0, none⟩,
   ⟨0x1000, 1, 0x03, .str, .const, 0, false, 0, 0, none⟩,
   ⟨0x1000, 1, 0x04, .str, .const, 0, false, 0, 0, none⟩,
   ⟨0x1000, 1, 0x05, .str, .const, 0, false, 0, 0, none⟩,
   ⟨0x1000, 1, 0x06, .str, .const, 0, false, 0, 0, none⟩,
   ⟨0x1000, 1, 0x07, .u32, .ro, 0, false, 0, 4294967295, none⟩,
   ⟨0x1000, 1, 0x08, .bool, .ro, 0, false, 0, 1, none⟩,
   ⟨0x1020, 1, 0x01, .bool, .rwc, 1, true, 0, 1, none⟩,
   ⟨0x1020, 1, 0x02, .u8, .rwc, 8, true, 0, 255, none⟩,
   ⟨0x1020, 1, 0x03, .u8, .rwc, 32, true, 0, 255, none⟩,
   ⟨0x1020, 1, 0x04, .u8, .rwc, 0, true, 0, 255, none⟩,
   ⟨0x1020, 1, 0x05, .u8, .rwc, 128, true, 0, 255, none⟩,
   ⟨0x1020, 1, 0x0E, .u8, .ro, 0, false, 0, 255, none⟩,
   ⟨0x1020, 1, 0x0F, .u8, .wo, 0, false, 0, 255, none⟩,
   ⟨0x1021, 1, 0x00, .u8, .rwc, 255, true, 0, 255, none⟩,
   ⟨0x1022, 1, 0x01, .u8, .rw, 1, true, 0, 2, none⟩,
   ⟨0x1022, 1, 0x02, .u16, .rw, 50, true, 1, 1000, none⟩,
   ⟨0x1022, 1, 0x03, .u16, .rw, 20, true, 1, 1000, none⟩,
   ⟨0x1022, 1, 0x04, .u16, .rw, 500, true, 1, 5000, none⟩,
   ⟨0x1022, 1, 0x05, .u16, .rw, 20, true, 0, 1000, none⟩,
   ⟨0x1022, 1, 0x06, .u32, .rw, 60, true, 1, 86400, none⟩,
   ⟨0x1023, 1, 0x01, .u64, .ro, 0, false, 0, 18446744073709551615, none⟩,
   ⟨0x1023, 1, 0x02, .u8, .ro, 0, false, 0, 255, none⟩,
   ⟨0x1023, 1, 0x03, .bool, .rw, 0, true, 0, 1, none⟩]
def odRows2 : List OdRow :=
  [⟨0x1030, 1, 0x01, .u32, .ro, 0, false, 0, 4294967295, none⟩,
   ⟨0x1030, 1, 0x02, .u32, .ro, 0, false, 0, 4294967295, none⟩,
   ⟨0x1030, 1, 0x03, .u32, .ro, 0, false, 0, 4294967295, none⟩,
   ⟨0x1030, 1, 0x04, .u32, .ro, 0, false, 0, 4294967295, none⟩,
   ⟨0x1030, 1, 0x05, .u32, .ro, 0, false, 0, 4294967295, none⟩,
   ⟨0x1030, 1, 0x06, .u32, .ro, 0, false, 0, 4294967295, none⟩,
   ⟨0x1030, 1, 0x07, .u32, .ro, 0, false, 0, 4294967295, none⟩,
   ⟨0x1030, 1, 0x08, .u32, .ro, 0, false, 0, 4294967295, none⟩,
   ⟨0x1030, 1, 0x09, .u32, .ro, 0, false, 0, 4294967295, none⟩,
   ⟨0x1030, 1, 0x0A, .u32, .ro, 0, false, 0, 4294967295, none⟩,
   ⟨0x1030, 1, 0x0B, .u32, .ro, 0, false, 0, 4294967295, none⟩,
   ⟨0x1030, 1, 0x0C, .u32, .ro, 0, false, 0, 4294967295, none⟩,
   ⟨0x1080, 1, 0x01, .u16, .const, 0, true, 0, 65535, none⟩,
   ⟨0x1080, 1, 0x02, .dom, .const, 0, true, 0, 0, none⟩,
   ⟨0x1080, 1, 0x03, .u16, .const, 19200, true, 0, 65535, none⟩,
   ⟨0x1080, 1, 0x04, .u16, .const, 0, true, 0, 65535, none⟩,
   ⟨0x1100, 1, 0x01, .u32, .rw, 10000, true, 1000, 1000000, none⟩,
   ⟨0x1100, 1, 0x02, .u32, .rw, 100, true, 10, 10000, none⟩,
   ⟨0x1100, 1, 0x03, .u32, .ro, 0, false, 0, 4294967295, none⟩,
   ⟨0x1100, 1, 0x04, .u32, .const, 65536, false, 0, 4294967295, none⟩,
   ⟨0x1100, 1, 0x05, .u16, .const, 1024, false, 0, 65535, none⟩,
   ⟨0x1100, 1, 0x06, .u32, .const, 524288, false, 0, 4294967295, none⟩,
   ⟨0x1100, 1, 0x07, .u32, .ro, 0, false, 0, 4294967295, none⟩,
   ⟨0x1100, 1, 0x08, .u32, .rw, 0, true, 0, 10000, none⟩,
   ⟨0x1110, 4, 0x01, .u8, .ro, 0, false, 0, 255, none⟩]
def odRows3 : List OdRow :=
  [⟨0x1110, 4, 0x02, .u8, .ro, 0, false, 0, 255, none⟩,
   ⟨0x1110, 4, 0x03, .u8, .ro, 0, false, 0, 255, none⟩,
   ⟨0x1110, 4, 0x04, .u8, .ro, 0, false, 0, 255, none⟩,
   ⟨0x1110, 4, 0x05, .u8, .ro, 0, false, 0, 255, none⟩,
   ⟨0x1110, 4, 0x06, .u32, .ro, 0, false, 0, 4294967295, none⟩,
   ⟨0x1110, 4, 0x07, .u64, .ro, 0, false, 0, 18446744073709551615, none⟩,
   ⟨0x1110, 4, 0x08, .u8, .wo, 0, false, 0, 255, none⟩,
   ⟨0x1110, 4, 0x09, .u32, .ro, 0, false, 0, 4294967295, none⟩,
   ⟨0x1F00, 1, 0x01, .u8, .ro, 0, false, 0, 255, none⟩,
   ⟨0x1F00, 1, 0x02, .u16, .const, 512, false, 0, 65535, none⟩,
   ⟨0x1F00, 1, 0x03, .u32, .ro, 0, true, 0, 4294967295, none⟩,
   ⟨0x1F00, 1, 0x04, .u16, .ro, 0, false, 0, 65535, none⟩,
   ⟨0x1F00, 1, 0x05, .u8, .wo, 0, false, 0, 255, none⟩,
   ⟨0x1F00, 1, 0x06, .u32, .wo, 0, false, 0, 4294967295, none⟩,
   ⟨0x1F00, 1, 0x07, .u8, .wo, 0, false, 0, 255, none⟩,
   ⟨0x1F00, 1, 0x08, .u16, .rw, 100, true, 10, 10000, none⟩,
   ⟨0x1F01, 1, 0x00, .dom, .ro, 0, false, 0, 0, none⟩,
   ⟨0x2010, 1, 0x01, .bool, .rw, 1, true, 0, 1, none⟩,
   ⟨0x2010, 1, 0x02, .u32, .const, 4000, false, 0, 4294967295, none⟩,
   ⟨0x2010, 1, 0x03, .u8, .ro, 0, false, 0, 255, none⟩,
   ⟨0x2010, 1, 0x04, .u32, .ro, 0, true, 0, 4294967295, none⟩,
   ⟨0x2010, 1, 0x05, .u32, .ro, 0, false, 0, 4294967295, none⟩,
   ⟨0x2020, 1, 0x01, .bool, .rw, 0, true, 0, 1, none⟩,
   ⟨0x2020, 1, 0x02, .u16, .ro, 0, false, 0, 65535, none⟩,
   ⟨0x2020, 1, 0x03, .u32, .rw, 3600, true, 60, 86400, none⟩]
def odRows4 : List OdRow :=
  [⟨0x2020, 1, 0x04, .u16, .const, 256, false, 0, 65535, none⟩,
   ⟨0x2020, 1, 0x05, .u32, .ro, 0, false, 0, 4294967295, none⟩,
   ⟨0x2110, 1, 0x01, .u32, .rw, 1400000, true, 1000, 700000000, none⟩,
   ⟨0x2110, 1, 0x02, .u32, .rw, 100000, true, 100, 60000000, none⟩,
   ⟨0x2110, 1, 0x03, .u8, .const, 4, false, 0, 255, none⟩,
   ⟨0x2110, 1, 0x04, .u8, .const, 32, false, 0, 255, none⟩,
   ⟨0x2110, 1, 0x05, .u8, .const, 8, false, 0, 255, none⟩,
   ⟨0x2200, 64, 0x01, .u32, .rwc, 0, true, 0, 4294967295, none⟩,
   ⟨0x2200, 64, 0x02, .u32, .rwc, 0, true, 0, 4294967295, none⟩,
   ⟨0x2200, 64, 0x03, .u8, .rwc, 0, true, 0, 255, none⟩,
   ⟨0x2200, 64, 0x04, .u8, .rwc, 8, true, 0, 255, none⟩,
   ⟨0x2200, 64, 0x05, .u8, .rwc, 1, true, 0, 255, none⟩,
   ⟨0x2200, 64, 0x0D, .u8, .ro, 0, false, 0, 255, none⟩,
   ⟨0x2200, 64, 0x0E, .u8, .ro, 0, false, 0, 255, none⟩,
   ⟨0x2200, 64, 0x0F, .u8, .wo, 0, false, 0, 255, none⟩,
   ⟨0x2250, 1, 0x01, .dom, .ro, 0, false, 0, 0, none⟩,
   ⟨0x2250, 1, 0x02, .dom, .ro, 0, true, 0, 0, none⟩,
   ⟨0x2250, 1, 0x03, .u16, .ro, 0, true, 0, 65535, none⟩,
   ⟨0x2250, 1, 0x04, .u32, .ro, 0, false, 0, 4294967295, none⟩,
   ⟨0x2250, 1, 0x05, .dom, .ro, 0, false, 0, 0, none⟩,
   ⟨0x2250, 1, 0x06, .u32, .ro, 0, true, 0, 4294967295, none⟩,
   ⟨0x2270, 1, 0x01, .u8, .rw, 0, false, 0, 63, none⟩,
   ⟨0x2270, 1, 0x02, .dom, .ro, 0, false, 0, 0, none⟩,
   ⟨0x2270, 1, 0x03, .dom, .ro, 0, false, 0, 0, none⟩,
   ⟨0x3000, 1, 0x01, .u32, .const, 22000, false, 0, 4294967295, none⟩]
def odRows5 : List OdRow :=
  [⟨0x3000, 1, 0x02, .u32, .rw, 20000, true, 2000, 20000, none⟩,
   ⟨0x3000, 1, 0x03, .u32, .ro, 20000, false, 0, 4294967295, none⟩,
   ⟨0x3000, 1, 0x04, .u32, .ro, 0, false, 0, 4294967295, none⟩,
   ⟨0x3000, 1, 0x05, .u8, .ro, 0, false, 0, 255, none⟩,
   ⟨0x3010, 1, 0x01, .u8, .rw, 8, true, 4, 16, none⟩,
   ⟨0x3010, 1, 0x02, .u16, .rw, 2000, true, 1000, 8000, none⟩,
   ⟨0x3010, 1, 0x03, .u8, .const, 16, false, 0, 255, none⟩,
   ⟨0x3010, 1, 0x04, .u16, .const, 8000, false, 0, 65535, none⟩,
   ⟨0x3010, 1, 0x05, .u8, .rw, 80, true, 50, 95, none⟩,
   ⟨0x3010, 1, 0x06, .u16, .rw, 150, true, 100, 400, none⟩,
   ⟨0x3010, 1, 0x07, .u16, .rw, 16, true, 4, 1000, none⟩,
   ⟨0x3010, 1, 0x08, .u32, .rw, 1000, true, 10, 10000000, some 0⟩,
   ⟨0x3010, 1, 0x09, .bool, .rw, 1, true, 0, 1, none⟩,
   ⟨0x3010, 1, 0x0A, .u32, .rw, 10000, true, 1000, 60000000, none⟩,
   ⟨0x3010, 1, 0x0B, .u16, .const, 110, false, 0, 65535, none⟩,
   ⟨0x3010, 1, 0x0C, .u16, .rw, 10, true, 5, 1000, none⟩,
   ⟨0x3100, 240, 0x01, .u8, .ro, 3, false, 0, 255, none⟩,
   ⟨0x3100, 240, 0x02, .u16, .rw, 650, true, 600, 750, none⟩,
   ⟨0x3100, 240, 0x03, .fix, .ro, 0, false, 0, 4294967295, none⟩,
   ⟨0x3100, 240, 0x04, .fix, .ro, 0, false, 0, 4294967295, none⟩,
   ⟨0x3100, 240, 0x05, .fix, .ro, 0, false, 0, 4294967295, none⟩,
   ⟨0x3100, 240, 0x06, .fix, .ro, 0, false, 0, 4294967295, none⟩,
   ⟨0x3100, 240, 0x07, .u8, .ro, 0, false, 0, 255, none⟩,
   ⟨0x3100, 240, 0x08, .u8, .wo, 0, false, 0, 255, none⟩,
   ⟨0x3100, 240, 0x09, .u16, .ro, 0, true, 0, 65535, none⟩]
def odRows6 : List OdRow :=
  [⟨0x3100, 240, 0x0A, .u16, .ro, 0, false, 0, 65535, none⟩,
   ⟨0x4000, 1, 0x01, .fix, .ro, 0, false, 0, 4294967295, none⟩,
   ⟨0x4000, 1, 0x02, .fix, .ro, 0, false, 0, 4294967295, none⟩,
   ⟨0x4000, 1, 0x03, .fix, .ro, 0, false, 0, 4294967295, none⟩,
   ⟨0x4000, 1, 0x04, .u32, .ro, 0, false, 0, 4294967295, none⟩,
   ⟨0x4000, 1, 0x05, .fix, .ro, 262144, false, 0, 4294967295, none⟩,
   ⟨0x4000, 1, 0x06, .u32, .ro, 20000, false, 0, 4294967295, none⟩,
   ⟨0x4000, 1, 0x07, .fix, .ro, 0, false, 0, 4294967295, none⟩,
   ⟨0x4000, 1, 0x08, .u8, .ro, 0, false, 0, 255, none⟩,
   ⟨0x4000, 1, 0x09, .u8, .ro, 0, false, 0, 255, none⟩,
   ⟨0x4000, 1, 0x0A, .u8, .ro, 0, false, 0, 255, none⟩,
   ⟨0x4000, 1, 0x0B, .u16, .ro, 0, true, 0, 65535, none⟩,
   ⟨0x4010, 1, 0x01, .u32, .ro, 0, false, 0, 4294967295, none⟩,
   ⟨0x4010, 1, 0x02, .u32, .wo, 0, false, 0, 4294967295, none⟩,
   ⟨0x4020, 1, 0x01, .fix, .const, 2097152, false, 0, 4294967295, none⟩,
   ⟨0x4020, 1, 0x02, .u8, .rw, 75, true, 30, 95, none⟩,
   ⟨0x4020, 1, 0x03, .u8, .const, 20, false, 0, 255, none⟩,
   ⟨0x4020, 1, 0x04, .u16, .const, 30, false, 0, 65535, none⟩,
   ⟨0x4020, 1, 0x05, .u8, .const, 100, false, 0, 255, none⟩,
   ⟨0x4020, 1, 0x06, .u8, .const, 105, false, 0, 255, none⟩,
   ⟨0x4020, 1, 0x07, .u8, .rw, 60, true, 25, 100, none⟩,
   ⟨0x4020, 1, 0x08, .u8, .const, 95, false, 0, 255, none⟩,
   ⟨0x4020, 1, 0x09, .u8, .const, 5, false, 0, 255, none⟩,
   ⟨0x4020, 1, 0x0A, .u16, .const, 10258, false, 0, 65535, none⟩,
   ⟨0x4020, 1, 0x0E, .u16, .rw, 400, true, 50, 2000, none⟩]
def odRows7 : List OdRow :=
  [⟨0x4030, 1, 0x01, .u8, .wo, 0, false, 0, 255, none⟩,
   ⟨0x4100, 240, 0x01, .fix, .ro, 0, false, 0, 4294967295, none⟩,
   ⟨0x4100, 240, 0x02, .fix, .ro, 0, false, 0, 4294967295, none⟩,
   ⟨0x4100, 240, 0x03, .fix, .ro, 0, false, 0, 4294967295, none⟩,
   ⟨0x4100, 240, 0x04, .fix, .ro, 0, false, 0, 4294967295, none⟩,
   ⟨0x4100, 240, 0x05, .u8, .ro, 0, true, 0, 255, none⟩,
   ⟨0x4100, 240, 0x06, .u8, .wo, 0, false, 0, 255, none⟩,
   ⟨0x4100, 240, 0x07, .u16, .ro, 0, true, 0, 65535, none⟩,
   ⟨0x5010, 1, 0x01, .u16, .rw, 240, true, 16, 255, none⟩,
   ⟨0x5010, 1, 0x02, .u16, .const, 255, false, 0, 65535, none⟩,
   ⟨0x5020, 1, 0x01, .u8, .rw, 12, true, 8, 16, none⟩,
   ⟨0x5020, 1, 0x02, .fix, .rw, 9830, true, 3277, 131072, none⟩,
   ⟨0x5020, 1, 0x03, .fix, .rw, 32768, true, 6554, 327680, none⟩,
   ⟨0x5020, 1, 0x04, .u8, .const, 3, false, 0, 255, none⟩,
   ⟨0x5020, 1, 0x05, .u8, .const, 3, false, 0, 255, none⟩,
   ⟨0x5030, 1, 0x01, .u16, .rw, 100, true, 1, 65535, none⟩,
   ⟨0x5030, 1, 0x02, .u16, .rw, 60, true, 1, 3600, none⟩,
   ⟨0x5030, 1, 0x03, .u16, .const, 2048, false, 0, 65535, none⟩,
   ⟨0x5030, 1, 0x04, .u16, .const, 512, false, 0, 65535, none⟩,
   ⟨0x5030, 1, 0x05, .u8, .const, 64, false, 0, 255, none⟩,
   ⟨0x5040, 1, 0x01, .u32, .rw, 21600, true, 3600, 21600, none⟩,
   ⟨0x5040, 1, 0x02, .u8, .const, 55, false, 0, 255, none⟩,
   ⟨0x5040, 1, 0x03, .u8, .const, 2, false, 0, 255, none⟩,
   ⟨0x5040, 1, 0x04, .u16, .const, 8000, false, 0, 65535, none⟩,
   ⟨0x5040, 1, 0x05, .u8, .rw, 8, true, 2, 15, none⟩]
def odRows8 : List OdRow :=
  [⟨0x5040, 1, 0x06, .u16, .rw, 1000, true, 0, 8000, none⟩,
   ⟨0x5050, 1, 0x01, .fix, .const, 3277, false, 0, 4294967295, none⟩,
   ⟨0x5050, 1, 0x02, .u32, .const, 1000000, false, 0, 4294967295, none⟩,
   ⟨0x5060, 1, 0x01, .u32, .ro, 0, false, 0, 4294967295, none⟩,
   ⟨0x5060, 1, 0x02, .u32, .ro, 0, false, 0, 4294967295, none⟩,
   ⟨0x5060, 1, 0x03, .u32, .wo, 0, false, 0, 4294967295, none⟩,
   ⟨0x5100, 1, 0x01, .u32, .rw, 0, false, 0, 4294967295, none⟩,
   ⟨0x5100, 1, 0x02, .dom, .ro, 0, false, 0, 0, none⟩,
   ⟨0x6000, 1, 0x01, .u32, .const, 65536, false, 0, 4294967295, none⟩,
   ⟨0x6000, 1, 0x02, .u16, .rw, 512, true, 64, 512, none⟩,
   ⟨0x6000, 1, 0x03, .u8, .rw, 0, true, 2, 64, some 0⟩,
   ⟨0x6000, 1, 0x04, .u32, .rw, 2000, true, 0, 1000000, none⟩,
   ⟨0x6000, 1, 0x05, .u32, .ro, 0, false, 0, 4294967295, none⟩,
   ⟨0x6000, 1, 0x06, .u32, .ro, 0, false, 0, 4294967295, none⟩,
   ⟨0x6100, 64, 0x01, .u32, .rw, 0, true, 0, 4294967295, none⟩,
   ⟨0x6100, 64, 0x02, .u32, .rw, 0, true, 0, 4294967295, none⟩,
   ⟨0x6100, 64, 0x03, .u8, .rw, 7, true, 0, 7, none⟩,
   ⟨0x6100, 64, 0x04, .u32, .rw, 0, true, 0, 4294967295, none⟩,
   ⟨0x6100, 64, 0x05, .u32, .rw, 100000, true, 1000, 60000000, none⟩,
   ⟨0x6100, 64, 0x06, .u32, .ro, 0, false, 0, 4294967295, none⟩,
   ⟨0x6100, 64, 0x07, .u32, .ro, 0, false, 0, 4294967295, none⟩,
   ⟨0x6100, 64, 0x08, .u32, .ro, 0, false, 0, 4294967295, none⟩,
   ⟨0x6200, 1, 0x01, .u32, .const, 131072, false, 0, 4294967295, none⟩,
   ⟨0x6200, 1, 0x02, .u32, .ro, 0, false, 0, 4294967295, none⟩,
   ⟨0x6200, 1, 0x03, .u64, .ro, 0, false, 0, 18446744073709551615, none⟩]
def odRows9 : List OdRow :=
  [⟨0x6200, 1, 0x04, .u64, .ro, 0, false, 0, 18446744073709551615, none⟩,
   ⟨0x6200, 1, 0x05, .u8, .wo, 0, false, 0, 255, none⟩,
   ⟨0x6280, 64, 0x01, .u8, .rw, 0, true, 0, 1, none⟩,
   ⟨0x6280, 64, 0x02, .u8, .rw, 255, true, 0, 15, some 255⟩,
   ⟨0x6280, 64, 0x03, .bool, .rw, 1, true, 0, 1, none⟩,
   ⟨0x6280, 64, 0x04, .u32, .ro, 0, false, 0, 4294967295, none⟩,
   ⟨0x6280, 64, 0x05, .u32, .ro, 0, false, 0, 4294967295, none⟩,
   ⟨0x6280, 64, 0x06, .u32, .ro, 0, false, 0, 4294967295, none⟩,
   ⟨0x6280, 64, 0x07, .u32, .ro, 0, false, 0, 4294967295, none⟩,
   ⟨0x6300, 1, 0x01, .bool, .rw, 1, true, 0, 1, none⟩,
   ⟨0x6300, 1, 0x02, .u8, .rw, 1, true, 1, 64, none⟩,
   ⟨0x6300, 1, 0x03, .u8, .const, 4, false, 0, 255, none⟩,
   ⟨0x6400, 64, 0x01, .u8, .rw, 0, true, 0, 2, none⟩,
   ⟨0x6400, 64, 0x02, .u32, .rw, 60000, true, 0, 3600000, none⟩,
   ⟨0x6400, 64, 0x03, .u64, .ro, 0, false, 0, 18446744073709551615, none⟩,
   ⟨0x6400, 64, 0x04, .u8, .ro, 0, false, 0, 255, none⟩,
   ⟨0x6400, 64, 0x05, .u64, .ro, 0, false, 0, 18446744073709551615, none⟩,
   ⟨0x6400, 64, 0x06, .u32, .ro, 0, false, 0, 4294967295, none⟩,
   ⟨0x6480, 1, 0x01, .u32, .rw, 3000, true, 500, 12000, none⟩,
   ⟨0x6480, 1, 0x02, .u16, .const, 80, false, 0, 65535, none⟩,
   ⟨0x6480, 1, 0x03, .u8, .const, 3, false, 0, 255, none⟩,
   ⟨0x6480, 1, 0x04, .u8, .const, 8, false, 0, 255, none⟩,
   ⟨0x6480, 1, 0x05, .u32, .ro, 0, true, 0, 4294967295, none⟩,
   ⟨0x6480, 1, 0x06, .u32, .const, 262144, false, 0, 4294967295, none⟩,
   ⟨0x6480, 1, 0x07, .u32, .rw, 600000, true, 1000, 3600000, none⟩]
def odRows10 : List OdRow :=
  [⟨0x6480, 1, 0x08, .u32, .ro, 0, false, 0, 4294967295, none⟩,
   ⟨0x7000, 1, 0x01, .u16, .rw, 65535, true, 0, 32767, some 65535⟩,
   ⟨0x7000, 1, 0x02, .u32, .rw, 0, true, 0, 4294967295, none⟩,
   ⟨0x7000, 1, 0x03, .bool, .rw, 0, true, 0, 1, none⟩,
   ⟨0x7000, 1, 0x04, .u8, .ro, 0, false, 0, 255, none⟩,
   ⟨0x7000, 1, 0x05, .i32, .ro, 0, false, 0, 4294967295, none⟩,
   ⟨0x7000, 1, 0x06, .u16, .ro, 65535, false, 0, 65535, none⟩,
   ⟨0x7000, 1, 0x07, .u8, .ro, 255, false, 0, 255, none⟩,
   ⟨0x7000, 1, 0x08, .u32, .rw, 50, true, 10, 1000, none⟩,
   ⟨0x7000, 1, 0x09, .u32, .rw, 1000, true, 100, 100000, none⟩,
   ⟨0x7000, 1, 0x0A, .u8, .const, 64, false, 0, 255, none⟩,
   ⟨0x7000, 1, 0x0B, .u32, .ro, 0, false, 0, 4294967295, none⟩,
   ⟨0x7100, 48, 0x01, .u8, .ro, 1, false, 0, 255, none⟩,
   ⟨0x7100, 48, 0x02, .u8, .rw, 0, true, 0, 1, none⟩,
   ⟨0x7100, 48, 0x03, .bool, .rw, 1, true, 0, 1, none⟩,
   ⟨0x7100, 48, 0x04, .u8, .ro, 0, false, 0, 255, none⟩,
   ⟨0x7100, 48, 0x05, .u16, .ro, 65535, false, 0, 65535, none⟩,
   ⟨0x7100, 48, 0x06, .u64, .ro, 0, false, 0, 18446744073709551615, none⟩,
   ⟨0x7100, 48, 0x07, .u64, .ro, 0, false, 0, 18446744073709551615, none⟩,
   ⟨0x7100, 48, 0x08, .u64, .ro, 0, false, 0, 18446744073709551615, none⟩,
   ⟨0x8000, 1, 0x01, .u32, .rw, 0, false, 0, 4294967295, none⟩,
   ⟨0x8000, 1, 0x02, .u8, .rw, 0, false, 0, 255, none⟩,
   ⟨0x8000, 1, 0x03, .dom, .ro, 0, false, 0, 0, none⟩,
   ⟨0x8000, 1, 0x04, .u8, .wo, 0, false, 0, 255, none⟩,
   ⟨0x8002, 1, 0x00, .u64, .rw, 0, true, 0, 18446744073709551615, none⟩]
def odRows11 : List OdRow :=
  [⟨0x8010, 1, 0x01, .u32, .rwc, 0, true, 0, 4294967295, none⟩,
   ⟨0x8010, 1, 0x02, .u32, .rwc, 8323221, true, 0, 4294967295, none⟩,
   ⟨0x8010, 1, 0x03, .u32, .rwc, 131071, true, 0, 4294967295, none⟩,
   ⟨0x8010, 1, 0x0E, .u8, .ro, 0, false, 0, 255, none⟩,
   ⟨0x8010, 1, 0x0F, .u8, .wo, 0, false, 0, 255, none⟩,
   ⟨0x8010, 1, 0x10, .u8, .ro, 0, false, 0, 255, none⟩,
   ⟨0x8100, 1, 0x01, .u64, .ro, 0, false, 0, 18446744073709551615, none⟩,
   ⟨0x9000, 1, 0x01, .u32, .rw, 600, true, 10, 86400, none⟩,
   ⟨0x9100, 64, 0x01, .u8, .rwc, 0, false, 0, 255, none⟩,
   ⟨0x9100, 64, 0x02, .u32, .rwc, 0, false, 0, 4294967295, none⟩,
   ⟨0x9100, 64, 0x03, .u16, .rwc, 0, false, 0, 65535, none⟩,
   ⟨0x9100, 64, 0x04, .u32, .rwc, 4294967295, false, 0, 4294967295, none⟩,
   ⟨0x9100, 64, 0x05, .u32, .rwc, 0, false, 0, 4294967295, none⟩,
   ⟨0x9100, 64, 0x06, .u32, .rwc, 1, false, 0, 4294967295, none⟩,
   ⟨0x9100, 64, 0x07, .u8, .rwc, 0, false, 0, 255, none⟩,
   ⟨0x9100, 64, 0x08, .u64, .rwc, 0, false, 0, 18446744073709551615, none⟩,
   ⟨0x9100, 64, 0x09, .u64, .rwc, 0, false, 0, 18446744073709551615, none⟩,
   ⟨0x9100, 64, 0x0A, .u8, .ro, 0, false, 0, 255, none⟩,
   ⟨0x9100, 64, 0x0B, .u32, .ro, 0, false, 0, 4294967295, none⟩,
   ⟨0x9100, 64, 0x0C, .u32, .ro, 0, false, 0, 4294967295, none⟩,
   ⟨0x9100, 64, 0x0E, .u8, .ro, 0, false, 0, 255, none⟩,
   ⟨0x9100, 64, 0x0F, .u8, .wo, 0, false, 0, 255, none⟩,
   ⟨0x9200, 1, 0x01, .u64, .ro, 0, false, 0, 18446744073709551615, none⟩,
   ⟨0x9200, 1, 0x02, .u32, .ro, 0, true, 0, 4294967295, none⟩,
   ⟨0x9300, 1, 0x01, .u8, .rw, 128, true, 0, 255, none⟩]
def odRows12 : List OdRow :=
  [⟨0x9300, 1, 0x02, .u64, .rw, 0, true, 0, 18446744073709551615, none⟩,
   ⟨0x9300, 1, 0x03, .u32, .wo, 0, false, 0, 4294967295, none⟩,
   ⟨0x9300, 1, 0x04, .u64, .ro, 0, false, 0, 18446744073709551615, none⟩,
   ⟨0x9300, 1, 0x05, .bool, .rw, 1, true, 0, 1, none⟩,
   ⟨0xA000, 1, 0x01, .dom, .ro, 0, false, 0, 0, none⟩,
   ⟨0xA000, 1, 0x02, .dom, .ro, 0, false, 0, 0, none⟩,
   ⟨0xA000, 1, 0x03, .dom, .ro, 0, false, 0, 0, none⟩,
   ⟨0xA000, 1, 0x04, .u32, .ro, 0, true, 0, 4294967295, none⟩,
   ⟨0xA000, 1, 0x05, .u8, .ro, 1, false, 0, 255, none⟩,
   ⟨0xA001, 1, 0x01, .u8, .ro, 0, true, 0, 255, none⟩,
   ⟨0xA001, 1, 0x02, .u8, .ro, 1, false, 0, 255, none⟩,
   ⟨0xA001, 1, 0x03, .u8, .ro, 0, true, 0, 255, none⟩,
   ⟨0xA001, 1, 0x04, .u8, .ro, 0, true, 0, 255, none⟩,
   ⟨0xA001, 1, 0x05, .u32, .ro, 0, true, 0, 4294967295, none⟩,
   ⟨0xA001, 1, 0x06, .dom, .ro, 0, true, 0, 0, none⟩,
   ⟨0xA001, 1, 0x07, .u32, .const, 120, false, 0, 4294967295, none⟩,
   ⟨0xA010, 16, 0x00, .dom, .rw, 0, true, 0, 0, none⟩,
   ⟨0xA020, 8, 0x00, .dom, .rw, 0, true, 0, 0, none⟩]

/-- The whole dictionary, by rising index and subindex. -/
def odTable : List OdRow :=
  odRows1 ++ odRows2 ++ odRows3 ++ odRows4 ++ odRows5 ++ odRows6 ++ odRows7 ++ odRows8 ++ odRows9 ++ odRows10 ++ odRows11 ++ odRows12

/-- The row of an entry. -/
def odRow (index sub : Nat) : Option OdRow :=
  odTable.find? fun r => r.base ≤ index && index < r.base + r.count && r.sub = sub

/-- The highest subindex below 0x80 that an index implements, where its entries start at 01 (R447). -/
def odHighest (index : Nat) : Option Nat :=
  let rs := odTable.filter fun r => r.base ≤ index && index < r.base + r.count && r.sub ≠ 0
  if rs.isEmpty then none else some (rs.foldl (fun m r => max m r.sub) 0)

end Sys2Proof.Machine
end

