-- ==== Sys2Proof/Machine/Dict.lean ====
section
/-!
DEFINITION. The object dictionary's reads and its stored settings (R445 to R455): the value of every entry, shadows and their
read-back (R456, R457), selections kept per writer (R127, R619), change counts (R450), the checks of a written value (R446, R452) and
the blocks of the configuration store that a change touches (R462, R464).
-/
namespace Sys2Proof.Machine

/-! ## Derived readings -/

/-- PLCA is configured: enabled with a node ID (R470). -/
def plcaOn (s : State) : Bool := s.setting 0x1020 1 1 = 1 && s.setting 0x1021 0 255 ≤ 254
/-- The engine is the coordinator. -/
def plcaLead (s : State) : Bool := plcaOn s && s.setting 0x1021 0 255 = 0
/-- PLCA is in use: the coordinator, or a node whose beacons arrive. -/
def plcaActive (s : State) : Bool := plcaOn s && (plcaLead s || s.mgmt.plcaOk)

def boolBit (b : Bool) (i : Nat) : Nat := if b then 2 ^ i else 0
/-- A bit map of the cores that satisfy a test, laid out as 0x1080:02 (R20). -/
def coreMap (p : Nat → Bool) : Bytes :=
  (List.range 2400).map fun i => BitVec.ofNat 8 (((List.range 8).map fun j => boolBit (p (8 * i + j)) j).sum)
/-- The cores fenced. -/
def fencedCores (s : State) : List Nat := (s.cores.filter fun e => e.2.fence.isSome).map (·.1)
/-- A FIX16.16 or I32 value's bytes. -/
def intBytes (n : Nat) (v : Int) : Bytes := leBytes n (BitVec.ofInt (8 * n) v).toNat

/-- State of a site (R444): 0 absent, 1 training, 2 up, 3 one module down, 4 lost. -/
def siteState (t : Site) : Nat :=
  if !t.populated then 0 else if t.lost then 4 else if (t.mod 0).up && (t.mod 1).up then 2 else if t.up then 3 else 1

def avgUs (l : List Nat) : Nat := if l.isEmpty then 0 else l.sum / l.length / 1000
/-- Effective cap (R490). -/
def effectiveCap (s : State) : Nat := min (s.setting 0x3000 2 20000) s.thermal.cap
/-- Heat removed in W, from 66.3 W·min/(L·K) (R512); never below 0. -/
def heatRemoved (s : State) : Nat :=
  (663 * (s.thermal.flow : Int) * (s.thermal.outlet - s.thermal.inlet) / (10 * 2 ^ 32)).toNat
/-- Code of a swap's phase in 0x6400+n:04. -/
def OpPhase.code : OpPhase → Nat
  | .verify => 1 | .drain => 2 | .rewrite => 3 | .activate => 4 | .rollback => 5 | _ => 0
/-- A LOAD that names a region has been accepted and has not run yet. -/
def loadAccepted (s : State) (n : Nat) : Bool :=
  s.host.handles.any fun e => match e.2.out with
    | some o => o.opcode = 0x30 && !o.running && fieldAt o.cmd 16 1 = n
    | none => false
/-- A region counts as bound from the acceptance of a LOAD that names it until it is unloaded or the load fails (R262). -/
def regionBound (s : State) (n : Nat) : Bool := (s.region n).img.isSome || loadAccepted s n
def boundRegions (s : State) : List Nat := (List.range 64).filter (regionBound s)

/-! ## Array records (R121, R128) -/

/-- MaxColumnEvents: full writes of the array and re-pulsed slices of the column (R121). -/
def Arr.maxEvents (a : Arr) : Nat := a.fullWrites + a.colEvents.foldl (fun m e => max m e.2) 0
def Arr.life (a : Arr) : Nat := 100 * (1000000 - a.maxEvents) / 1000000
/-- Refresh age in 1/655,360 s. -/
def refreshAge (s : State) (c : Nat) (a : Arr) : Nat := (s.preg (powerOf c)).aged - a.ageBase
def Core.substUsed (k : Core) (set : Nat) : Nat := ((List.range 4).map fun i => (k.arr (4 * set + i)).subst.length).sum

def arrayRecord (s : State) (c i : Nat) : Bytes :=
  let k := s.core c
  let a := k.arr i
  let cap (v n : Nat) : Nat := min v (2 ^ n - 1)
  leBytes 32 (cap ((s.now - calTime s c a) / 1000000000) 32 * 2 ^ 224 + cap (refreshAge s c a / 655360) 32 * 2 ^ 192 +
    cap a.overflow 16 * 2 ^ 176 + cap (k.substUsed (i / 4)) 8 * 2 ^ 168 + min a.alarms 3 * 2 ^ 160 + a.life * 2 ^ 152 +
    cap a.sparesUsed 8 * 2 ^ 144 + a.format * 2 ^ 136 + a.state * 2 ^ 128 + cap a.pulses 64 * 2 ^ 64 + cap a.maxEvents 64)

/-! ## Event counter blocks (R615 to R620) -/

/-- Counters of one block: eight values of six bytes, the overflow bits, seven reserved bytes. -/
def counterBytes (ctrs : Tbl Nat) (ovf : List Nat) (base : Nat) : Bytes :=
  ((List.range 8).flatMap fun i => leBytes 6 (Tbl.get ctrs 0 (base + i))) ++
    leBytes 8 (((List.range 8).map fun i => boolBit (ovf.contains (base + i)) i).sum)

/-- The unit a selection names: a core's block, or block 32 of a field. -/
def counterUnit (sel blk : Nat) : Option (Nat × Bool) :=
  let hi := sel / 65536; let lo := sel % 65536
  if hi = 0xFFFF then (if lo < 48 ∧ blk = 32 then some (lo, true) else none)
  else if hi < 128 ∧ lo < 150 ∧ blk ≤ 16 then some (coreKey hi lo, false)
  else none

def counterValues (s : State) (u : Nat × Bool) (blk : Nat) : Bytes :=
  if u.2 then counterBytes s.power.ctrs s.power.ovf (8 * u.1)
  else let k := s.core u.1; counterBytes k.ctrs k.ovf (8 * blk)

/-! ## Keys derived from the root key (R550, R551, R560) -/

/-- The derived keys as retained: attestation seed (32), id (16), ML-KEM seed (64), sealing key (32). -/
def deriveKeys (root : Bytes) : Bytes :=
  hkdf [] root (ascii "attest-seed") 32 ++ hkdf [] root (ascii "attest-id") 16 ++ hkdf [] root (ascii "kem") 64 ++
    hkdf [] root (ascii "seal") 32
def keyPart (s : State) (off n : Nat) : Bytes := match s.boot.keys with | some k => slice k off n | none => List.replicate n 0
def kemSeed (s : State) : Bytes := keyPart s 48 64
def sealKey (s : State) : Bytes := keyPart s 112 32

/-! ## Selections -/

def State.selection (s : State) (w : Writer) (key : Nat) : Nat :=
  match s.od.select.find? fun e => e.1 = w ∧ e.2.1 = key with | some e => e.2.2 | none => 0
def State.setSelection (s : State) (w : Writer) (key v : Nat) : State :=
  { s with od := { s.od with select := (w, key, v) :: s.od.select.filter fun e => !(e.1 = w ∧ e.2.1 = key) } }
/-- Entries whose value each writer has for itself. -/
def perWriter (index sub : Nat) : Bool :=
  (index = 0x5100 && sub = 1) || (index = 0x2270 && sub = 1) || (index = 0x8000 && (sub = 1 || sub = 2))

/-! ## Coupled groups (R456, R461, R621, R626) -/

/-- Active value of an RWC entry. -/
def rwcActive (s : State) (index sub : Nat) : Nat :=
  if 0x2200 ≤ index ∧ index < 0x2240 then
    let r := s.region (index - 0x2200)
    match sub with
    | 1 => r.nw.toNat
    | 2 => r.se.toNat
    | 3 => r.exit
    | 4 => r.setCap
    | _ => r.grant.toNat
  else if 0x9100 ≤ index ∧ index < 0x9140 then
    let w := Tbl.get s.observe.watches Watch.reset (index - 0x9100)
    match sub with
    | 1 => w.region
    | 2 => w.tensor
    | 3 => w.kind
    | 4 => w.ctx
    | 5 => w.skip
    | 6 => w.count
    | 7 => w.slot
    | 8 => w.offset
    | _ => w.size
  else match odRow index sub with
    | some r => s.setting index sub r.dflt
    | none => 0

def State.shadow? (s : State) (w : Writer) (g : Nat) : Option Shadow := s.od.shadows.find? fun x => x.writer = w ∧ x.group = g
/-- A writer's shadow value of an entry, if it has written it. -/
def State.shadowVal (s : State) (w : Writer) (index sub : Nat) : Option Bytes :=
  (s.shadow? w (groupOf index)).bind fun x => Tbl.find x.vals (odKey index sub)
/-- The candidate value of an entry at a commit (R458). -/
def candidate (s : State) (w : Writer) (index sub : Nat) : Nat :=
  match s.shadowVal w index sub with | some b => leNat b | none => rwcActive s index sub
/-- A writer's shadow names an entry. -/
def writes (s : State) (w : Writer) (index sub : Nat) : Bool := (s.shadowVal w index sub).isSome

def dropShadow (s : State) (w : Writer) (g : Nat) : State :=
  { s with od := { s.od with shadows := s.od.shadows.filter fun x => !(x.writer = w ∧ x.group = g) } }

/-! ## Values -/

/-- Values of CONST entries that no default in the table gives. -/
def constValue (s : State) (index sub : Nat) (r : OdRow) : Bytes :=
  if index = 0x1000 then
    match sub with
    | 1 => leBytes 4 0x4D540048
    | 2 => ascii "Chedrinel Semiconductor"
    | 3 => ascii "Marith MT72"
    | 4 => s.factory.ordering
    | 5 => ascii "B0"
    | _ => s.factory.serial.take 16
  else if index = 0x1080 then
    match sub with
    | 1 => leBytes 2 (19200 - s.factory.unusable.length)
    | 2 => coreMap fun c => s.factory.unusable.contains c
    | 3 => leBytes 2 19200
    | _ => leBytes 2 s.factory.holes.length
  else leBytes (r.ty.size.getD 0) r.dflt

/-- Values the engine keeps of one region's, site's, port's or power region's entries. -/
def roIndexed (s : State) (index sub : Nat) : Nat :=
  if 0x1110 ≤ index ∧ index < 0x1114 then
    let t := s.site (index - 0x1110)
    match sub with
    | 1 => siteState t
    | 2 => (t.mod 0).rate
    | 3 => (t.mod 1).rate
    | 4 => (t.mod 0).width
    | 5 => (t.mod 1).width
    | 6 => t.flitErrs
    | 7 => t.replayed
    | _ => t.protErrs
  else if 0x2200 ≤ index ∧ index < 0x2240 then
    let r := s.region (index - 0x2200)
    if sub = 0x0D then r.state else r.result
  else if 0x3100 ≤ index ∧ index < 0x31F0 then
    let p := s.preg (index - 0x3100)
    match sub with
    | 1 => p.state.code
    | 3 => p.mean
    | 4 => p.peak
    | 5 => p.regI
    | 6 => p.regV
    | 7 => p.cause
    | 9 => p.lostCount
    | _ => p.status
  else if 0x4100 ≤ index ∧ index < 0x41F0 then
    let p := s.preg (index - 0x4100)
    match sub with
    | 1 => (BitVec.ofInt 32 p.diodeA).toNat
    | 2 => (BitVec.ofInt 32 p.diodeB).toNat
    | 3 => (BitVec.ofInt 32 p.hot).toNat
    | 4 => (BitVec.ofInt 32 p.coarse).toNat
    | 5 => p.pair
    | _ => p.pairCount
  else if 0x6100 ≤ index ∧ index < 0x6140 then
    let n := index - 0x6100
    match sub with
    | 6 => avgUs (s.region n).lats
    | 7 => avgUs (s.region n).gaps
    | _ => (s.serving.ctxs.filter fun e => e.2.d.region = n && e.2.state ≠ .parked && e.2.state ≠ .ended).length
  else if 0x6280 ≤ index ∧ index < 0x62C0 then
    let n := index - 0x6280
    let pool := (s.region n).pool
    match sub with
    | 4 => blocksTotal s n
    | 5 => blocksFree s n
    | 6 => (pool.filter fun e => e.2.state = .published && e.2.count = 0).length
    | _ => (framesUsed s n).length
  else if 0x6400 ≤ index ∧ index < 0x6440 then
    let r := s.region (index - 0x6400)
    let swap := r.op.bind fun o => if o.swap then some o else none
    match sub with
    | 3 => (match r.img with | some b => if b.active then b.version else 0 | none => 0)
    | 4 => (match swap with | some o => o.phase.code | none => if r.split then 6 else 0)
    | 5 => (match swap with | some o => o.img.version | none => 0)
    | _ => (match swap with | some o => o.layers | none => 0)
  else if 0x7100 ≤ index ∧ index < 0x7130 then
    let p := index - 0x7100
    let x := s.port p
    let here := s.factory.ports.contains p
    match sub with
    | 1 => if !here then 0 else x.state
    | 4 => if here then s.factory.pmd else 0
    | 5 => x.peer
    | 6 => (Config.fecCount false p s.now).toNat
    | 7 => (Config.fecCount true p s.now).toNat
    | _ => x.replayed
  else
    let w := Tbl.get s.observe.watches Watch.reset (index - 0x9100)
    match sub with
    | 0x0A => w.state
    | 0x0B => w.skipped
    | 0x0C => w.written
    | _ => w.result

/-- Values the engine keeps of its single entries. -/
def roSingle (s : State) (index sub : Nat) : Nat :=
  if index = 0x1000 then (if sub = 7 then s.boot.fwVersion else boolBit (custodyOn s) 0)
  else if index = 0x1020 then s.mgmt.segRes
  else if index = 0x1023 then
    (if sub = 1 then s.mac
     else boolBit (plcaActive s) 0 + boolBit (plcaLead s) 1 + boolBit (plcaOn s && !plcaActive s) 2 + boolBit s.mgmt.collFlag 3)
  else if index = 0x1030 then Tbl.get s.mgmt.ctrs 0 sub
  else if index = 0x1100 then (if sub = 3 then s.handlesOut else s.host.stray)
  else if index = 0x1F00 then
    (match sub with
     | 1 => boolBit s.od.loadFell 0 + boolBit s.od.saveFail 1
     | 3 => s.od.saves
     | _ => s.od.pending.length)
  else if index = 0x2010 then
    (match sub with
     | 3 => (s.regions.filter fun e => e.2.img.isSome).length
     | 4 => s.upkeep.relocations
     | _ => s.upkeep.spread)
  else if index = 0x2020 then (if sub = 2 then s.boot.sessions.length else s.boot.tagFails)
  else if index = 0x2250 then
    (match sub with
     | 3 => (fencedCores s).length
     | 4 => s.faults.records
     | _ => s.faults.transient)
  else if index = 0x3000 then
    (match sub with
     | 3 => effectiveCap s
     | 4 => s.power.measured
     | _ => boolBit (s.boot.phase ≠ .off) 0 + boolBit s.power.pgArray 1 + boolBit s.power.pgAux 2 + boolBit s.power.pgOpt 3)
  else if index = 0x4000 then
    (match sub with
     | 1 => (BitVec.ofInt 32 s.thermal.inlet).toNat
     | 2 => (BitVec.ofInt 32 s.thermal.outlet).toNat
     | 3 => s.thermal.flow
     | 4 => heatRemoved s
     | 5 => (s.thermal.rthN + s.thermal.rthD / 2) / s.thermal.rthD
     | 6 => s.thermal.cap
     | 7 => (BitVec.ofInt 32 s.thermal.tmax).toNat
     | 8 => s.thermal.tmaxG
     | 9 => s.thermal.level
     | 0x0A => s.thermal.state
     | _ => s.thermal.shutdowns)
  else if index = 0x4010 then s.thermal.flags.toNat
  else if index = 0x5060 then (if sub = 1 then s.upkeep.warnings.toNat else s.upkeep.layer)
  else if index = 0x6000 then
    (if sub = 5 then s.serving.ctxs.length else (s.serving.ctxs.filter fun e => e.2.state = .parked).length)
  else if index = 0x6200 then
    (match sub with
     | 2 => s.serving.index.length
     | 3 => s.serving.hits
     | _ => s.serving.misses)
  else if index = 0x6480 then (if sub = 5 then s.upkeep.mismatches else s.fabric.refusals)
  else if index = 0x7000 then
    (match sub with
     | 4 => s.fabric.state
     | 5 => (BitVec.ofInt 32 s.fabric.offset).toNat
     | 6 => s.fabric.root
     | 7 => s.fabric.hops
     | _ => s.fabric.discarded)
  else if index = 0x8010 then
    (if sub = 0x0E then s.observe.scopeRes else (s.observe.dumps.filter fun e => e.2.period ≠ 0).length)
  else if index = 0x8100 then s.almanac.toNat
  else if index = 0x9200 then
    (if sub = 1 then ((s.regions.filter fun e => e.2.vigil.isSome).map fun e => 2 ^ e.1).sum else s.observe.vigils)
  else if index = 0x9300 then s.observe.silDrop
  else if index = 0xA000 then (if sub = 4 then s.boot.leaf else s.boot.attState)
  else
    match sub with
    | 1 => s.boot.attempts
    | 2 => s.boot.lastKind
    | 3 => s.boot.lastFail
    | 4 => s.boot.activeBank
    | _ => s.boot.minSec

/-- DOMAIN values the engine keeps; a refusal carries its cause. -/
def roDomain (s : State) (w : Writer) (admin : Bool) (index sub : Nat) : Except Nat Bytes :=
  if index = 0x1F01 then
    .ok ((List.range 64).map fun i => BitVec.ofNat 8 (((List.range 8).map fun j => boolBit (s.od.fellBack.contains (8 * i + j)) j).sum))
  else if index = 0x2250 then
    (match sub with
     | 1 => .ok (coreMap (isHole s))
     | 2 => .ok (coreMap fun c => (s.core c).fence.isSome)
     | _ => .ok (s.faults.log.flatMap ErrRec.bytes))
  else if index = 0x2270 then
    (match (s.region (s.selection w (odKey 0x2270 1))).img with
     | none => .ok []
     | some b =>
       if sub = 2 then .ok (b.placed.flatMap fun p =>
         leBytes 16 (coreCol p.core * 2 ^ 120 + coreRow p.core * 2 ^ 112 + (p.pi.zipIdx.map fun e => e.1 * 8 ^ e.2).sum * 2 ^ 88 +
           (p.sig.zipIdx.map fun e => e.1 * 4 ^ e.2).sum * 2 ^ 24))
       else .ok (b.syncIdx.flatMap fun i => leBytes 2 i))
  else if index = 0x5100 then
    (let c := unpackCore (s.selection w (odKey 0x5100 1)); .ok ((List.range 32).flatMap (arrayRecord s c)))
  else if index = 0x8000 then
    (let sel := s.selection w (odKey 0x8000 1)
     let blk := s.selection w (odKey 0x8000 2)
     match counterUnit sel blk with
     | none => .error 4
     | some u =>
       let open_ : Bool := !u.2 && (match ownerOf s u.1 with | some n => bitAt (s.setting 0x8002 0 0) n | none => false)
       if admin ∨ open_ then .ok (counterValues s u blk) else .error 5)
  else if index = 0xA000 then
    (match sub with
     | 1 => .ok (slice s.factory.identity 0 7892)
     | 2 => .ok (slice (Config.kemPublic (kemSeed s)) 0 1568)
     | _ => .ok (slice (Config.hssPublic (keyPart s 0 32) (keyPart s 32 16)) 0 60))
  else .ok (slice s.boot.digest 0 32)

/-- An index that stands for several, whose entries are one table. -/
def indexed (index : Nat) : Bool :=
  (0x1110 ≤ index && index < 0x1114) || (0x2200 ≤ index && index < 0x2240) || (0x3100 ≤ index && index < 0x31F0) ||
  (0x4100 ≤ index && index < 0x41F0) || (0x6100 ≤ index && index < 0x6140) || (0x6280 ≤ index && index < 0x62C0) ||
  (0x6400 ≤ index && index < 0x6440) || (0x7100 ≤ index && index < 0x7130) || (0x9100 ≤ index && index < 0x9140)

/-- Value of an RO entry. -/
def roValue (s : State) (w : Writer) (admin : Bool) (index sub : Nat) (r : OdRow) : Except Nat Bytes :=
  match r.ty.size with
  | some n => .ok (leBytes n (min (if indexed index then roIndexed s index sub else roSingle s index sub) (2 ^ (8 * n) - 1)))
  | none => roDomain s w admin index sub

/-- Value of a stored setting. -/
def rwValue (s : State) (w : Writer) (index sub : Nat) (r : OdRow) : Bytes :=
  match r.ty.size with
  | some n => leBytes n (if perWriter index sub then s.selection w (odKey index sub) else s.setting index sub r.dflt)
  | none => (Tbl.find s.od.vals (odKey index sub)).getD []

/-- The value a read of an entry returns, or the refusal's cause (R447, R448, R451, R457). -/
def odRead (s : State) (w : Writer) (admin : Bool) (index sub : Nat) : Except Nat Bytes :=
  match odRow index sub with
  | some r =>
    match r.acc with
    | .ro => roValue s w admin index sub r
    | .rw => .ok (rwValue s w index sub r)
    | .wo => .ok (List.replicate (r.ty.size.getD 0) 0)
    | .const => .ok (constValue s index sub r)
    | .rwc => .ok (leBytes (r.ty.size.getD 0) (rwcActive s index sub))
  | none =>
    if sub = 0 then match odHighest index with | some h => .ok (leBytes 1 h) | none => .error 1
    else if 0x80 ≤ sub then
      match odRow index (sub - 0x80) with
      | some r => if r.acc = .rwc then .ok (leBytes (r.ty.size.getD 0) (candidate s w index (sub - 0x80))) else .error 1
      | none => .error 1
    else .error 1

/-- An entry exists, read-backs and subindexes 00 included. -/
def odExists (index sub : Nat) : Bool :=
  (odRow index sub).isSome || (sub = 0 && (odHighest index).isSome) ||
  (0x80 ≤ sub && match odRow index (sub - 0x80) with | some r => r.acc = .rwc | none => false)

/-- The public entries (R455). -/
def odPublic (index sub : Nat) : Bool :=
  (index = 0x1000 && sub ≤ 8) || (index = 0x1021 && sub = 0) || (index = 0x1023 && sub = 1)

/-! ## Change counts (R450) -/

/-- Entries that count events from a cold start by one: each update raises the value and the change count alike. -/
def odCounter (index sub : Nat) : Bool :=
  index = 0x1030 || (index = 0x2250 && sub = 4) || (index = 0x6480 && sub = 8) || (index = 0x6200 && (sub = 3 || sub = 4)) ||
  (index = 0x2020 && sub = 5) || (index = 0x1100 && sub = 7) || (index = 0x2010 && sub = 5) || (index = 0x7000 && sub = 0x0B) ||
  (0x1110 ≤ index && index < 0x1114 && (sub = 6 || sub = 9))

/-- The change count that a management response carries: counted for what writers and commits change; the value itself for the engine's
event counters.  Of what else the engine updates on its own, how often is a free value: a count that stays while the value stays, and has
risen when a read finds another value. -/
def changeCount (s : State) (w : Writer) (admin : Bool) (index sub : Nat) : Nat × State :=
  match odRow index sub with
  | some r =>
    if r.acc = .ro ∧ sub ≠ 0x0E ∧ sub ≠ 0x0D then
      if odCounter index sub then ((if indexed index then roIndexed s index sub else roSingle s index sub) % 2 ^ 32, s)
      else
        let v : Bytes := match roValue s w admin index sub r with | .ok v => v | .error _ => []
        let (k, s) := s.draw 1
        let n := match Tbl.find s.od.seen (odKey index sub) with
          | some (old, n) => if old = v then n else (n + 1 + (Config.engineUpdates k).toNat % 2 ^ 31) % 2 ^ 32
          | none => (Config.engineUpdates k).toNat
        (n, { s with od := { s.od with seen := Tbl.set s.od.seen (odKey index sub) (v, n) } })
    else (Tbl.get s.od.changes 0 (odKey index sub), s)
  | none => (Tbl.get s.od.changes 0 (odKey index (sub % 128)), s)

def odBump (s : State) (index sub : Nat) : State :=
  let k := odKey index sub
  { s with od := { s.od with changes := Tbl.set s.od.changes k ((Tbl.get s.od.changes 0 k + 1) % 2 ^ 32) } }

/-! ## Stored values -/

/-- Keep a value: a stored setting equal to its default is not listed. -/
def odStore (s : State) (index sub : Nat) (r : OdRow) (v : Bytes) : State :=
  let k := odKey index sub
  let dflt := match r.ty.size with | some n => leBytes n r.dflt | none => []
  let s := { s with od := { s.od with vals := if v = dflt then Tbl.del s.od.vals k else Tbl.set s.od.vals k v } }
  let s := odBump s index sub
  if r.keep then odPending s index sub else s

/-! ## Checks of a written value -/

/-- Length and range (R446, R452): none when the value is admitted, else the cause. -/
def odCheck (r : OdRow) (v : Bytes) : Option Nat :=
  match r.ty.size with
  | some n =>
    if v.length ≠ n then some 3
    else
      let x := leNat v
      if (r.lo ≤ x ∧ x ≤ r.hi) ∨ r.also = some x then none else some 4
  | none => none

end Sys2Proof.Machine
end

