-- ==== Sys2Proof/Machine/Store.lean ====
section
/-!
DEFINITION. The configuration store (R462 to R467) and the writes that collect in shadows (R456, R458, R460, R461).
-/
namespace Sys2Proof.Machine

/-- What a write to an entry with a rule of its own gives: the state after it and the cause of its refusal, 0 when it is applied
(R451). -/
abbrev OdEff := State × Nat

/-- A recovery start takes no write to an entry: but to those of the management segment, with custody off (R540). -/
def entryShut (s : State) (index : Nat) : Bool :=
  s.boot.phase = .recovery && (!(index = 0x1020 || index = 0x1021) || custodyOn s)

/-- A row that stands for a dictionary write: a refused write leaves everything unchanged but a commit's result (R450, R458). -/
def applied (s : State) (index : Nat) (e : OdEff) : Res := .next (if entryShut s index then s else e.1)

/-- A commit that is applied counts as a write of its entry (R450). -/
def commitCounted (e : OdEff) (index : Nat) : OdEff := if e.2 = 0 then (odBump e.1 index 0x0F, 0) else e

/-! ## Saving -/

/-- An entry's value is kept in the store: the persistent entries, and whether a tenant region is configured (R252, R465). -/
def odKept (key : Nat) : Bool :=
  (0x2200 ≤ key / 256 && key / 256 < 0x2240 && key % 256 = 0x0D) ||
    match odRow (key / 256) (key % 256) with | some r => r.keep | none => false

/-! ## What a start finds of a region's image (R277, R399) -/

/-- An image unbound by the loss of the program windows: it is bound again from its record (R277). -/
def Region.unbind (r : Region) : Region :=
  { r with
    img := r.img.map fun b => { b with bound := false, active := false, stopped := false, flushed := [] }
    flush := none, relocs := [], vigil := none }

/-! ## Swaps over a start (R399, R400) -/

def LoadOp.grouped (o : LoadOp) : Bool := 1 < o.img.stages
def LoadOp.later (o : LoadOp) : Bool := o.grouped && o.img.stage ≠ 0
def LoadOp.lead (o : LoadOp) : Bool := o.grouped && o.img.stage = 0
/-- Every other stage has reported the phase with a status. -/
def LoadOp.allReport (o : LoadOp) (st : Nat) : Bool :=
  ((List.range o.img.stages).filter fun i => i ≠ o.img.stage).all fun i => o.reports.contains (i, st)

/-- Stage 0 has ordered the switch: phase 4 (R400). -/
def LoadOp.switched (o : LoadOp) : Bool := o.lead && o.phase = .activate && o.allReport 0

/-- A swap that a start finishes (R399, R525): it is in phase 3, as a stage that has rewritten and waits for the switch still is, or it
rolls back. -/
def LoadOp.survives (o : LoadOp) : Bool :=
  o.swap && (o.phase = .rewrite || o.phase = .rollback || (o.phase = .activate && !o.switched))

/-- At the end of a load or swap its key becomes the active one. -/
def Region.takeKey (r : Region) : Region :=
  match r.keyPend with | some k => { r with keyAct := some k.2.2, keyPend := none } | none => r

/-- What is left of a region's operation when a shutdown or a start begins.  DESIGN CHOICE: a swap in phase 4, whose stages have all
rewritten and whose switch is ordered, leaves the new version as the recorded image. -/
def Region.dropOp (r : Region) : Region :=
  match r.op with
  | none => r
  | some o =>
    if o.survives then r
    else if o.swap ∧ o.switched then
      { r.takeKey with
        op := none, split := false, state := if r.split then 1 else r.state
        img := r.img.map fun b => { b with img := o.img, ctl := o.control, slot := o.slot, stageTab := o.stageTab, version := o.img.version, epoch := 0 } }
    else { r with op := none, img := if o.swap ∨ o.phase = .relocate then r.img else none }

/-- What a region keeps over a start: its registers, its recorded image with the active model key, and a swap that the start finishes
as a rollback (R277, R399, R536, R565). -/
def Region.atStart (r : Region) (cold : Bool) : Region :=
  let op := r.op.bind fun o => if o.survives then
    some { o with handle := none, phase := .rollback, shards := [], busy := [], failed := some (o.failed.getD (2, 10, 0)) } else none
  { Region.reset with
    nw := r.nw, se := r.se, exit := r.exit, setCap := r.setCap, grant := r.grant, state := r.state
    windows := if cold then [] else r.windows
    img := r.unbind.img.map fun b => if cold then { b with version := 0 } else b
    forbidden := r.forbidden, op := op, split := r.split, keyAct := r.keyAct }

/-! ## Blocks and their copies (R462, R463) -/

/-- Entries as bytes: three of key, two of length, the value.  DESIGN CHOICE: this arrangement within Data, and that a block with more than
244 bytes of contents still holds them all; the spec fixes neither. -/
def packEntries (t : Tbl Bytes) : Bytes := t.flatMap fun e => leBytes 3 e.1 ++ leBytes 2 e.2.length ++ e.2

/-- A region's record as bytes.  DESIGN CHOICE: the arrangement. -/
def StoreRec.bytes (r : StoreRec) : Bytes :=
  let img : Bytes := match r.image with
    | none => [0]
    | some b => [1] ++ leBytes 8 b.img.version ++ leBytes 8 b.version ++ leBytes 1 b.slot ++ leBytes 2 b.placed.length ++
        (b.placed.flatMap fun p => leBytes 2 p.core ++ leBytes 3 (p.pi.zipIdx.map fun e => e.1 * 8 ^ e.2).sum ++
          leBytes 8 (p.sig.zipIdx.map fun e => e.1 * 4 ^ e.2).sum) ++ leBytes 2 b.syncIdx.length ++ b.syncIdx.flatMap (leBytes 2)
  let op : Bytes := match r.op with
    | none => [0]
    | some o => [1] ++ leBytes 8 o.img.version ++ leBytes 1 o.slot ++ leBytes 2 o.layers ++ leBytes 1 (if o.phase = .rollback then 1 else 0)
  leBytes 1 r.region ++ img ++ op ++ leBytes 1 (if r.split then 1 else 0) ++ (match r.key with | some k => [1] ++ k | none => [0])

/-- The 244 bytes of a copy's Data. -/
def StoreData.bytes : StoreData → Bytes
  | .raw b => slice b 0 244
  | .entries vals recs => let b := packEntries vals ++ recs.flatMap StoreRec.bytes; b ++ List.replicate (244 - b.length) 0

/-- Bytes 0 to 251 of a copy. -/
def StoreCopy.body (c : StoreCopy) : Bytes := leBytes 2 c.block ++ leBytes 2 c.layout ++ leBytes 4 c.seq.toNat ++ c.data.bytes
/-- A copy with its Check. -/
def StoreCopy.make (block layout : Nat) (seq : W32) (data : StoreData) : StoreCopy :=
  let c : StoreCopy := { block := block, layout := layout, seq := seq, data := data, check := 0 }
  { c with check := crc32c c.body }
/-- A copy is sound in block b for firmware that reads the layouts up to lay (R465). -/
def StoreCopy.sound (c : StoreCopy) (b lay : Nat) : Bool := c.check = crc32c c.body && c.block = b && c.layout ≤ lay

/-- Both copies alike. -/
def StoreBlk.both (c : StoreCopy) : StoreBlk := { a := c, b := c }
/-- A block as it leaves the factory: nothing in it; block 0 names bank 0, with no pending bank (R541). -/
def StoreBlk.fresh (b : Nat) : StoreBlk := .both (.make b 0 0 (if b = 0 then .raw [0, 0xFF] else if b = 1 then .raw [] else .entries [] []))
def State.storeBlk (s : State) (b : Nat) : StoreBlk := Tbl.get s.od.blocks (StoreBlk.fresh b) b
/-- The layout version that the running firmware writes. -/
def State.layout (s : State) : Nat := Config.layoutOf s.boot.fwVersion % 65536
/-- The later of two Sequences (R465). -/
def laterSeq (a b : W32) : Bool := let d := (a - b).toNat; 1 ≤ d && d < 2 ^ 31
def StoreBlk.seq (x : StoreBlk) : W32 := if laterSeq x.b.seq x.a.seq then x.b.seq else x.a.seq

/-- The copy that a block takes its contents from; none when neither is sound. -/
def StoreBlk.load (x : StoreBlk) (b lay : Nat) : Option StoreCopy :=
  if x.a.sound b lay && x.b.sound b lay then some (if laterSeq x.b.seq x.a.seq then x.b else x.a)
  else if x.a.sound b lay then some x.a
  else if x.b.sound b lay then some x.b
  else none

def StoreCopy.vals (c : StoreCopy) : Tbl Bytes := match c.data with | .entries v _ => v | .raw _ => []
def StoreCopy.recs (c : StoreCopy) : List StoreRec := match c.data with | .entries _ r => r | .raw _ => []

/-! ## Writing a block (R464) -/

/-- The block of the count of saves. -/
def savesBlock : Nat := storeBlock 0x1F00 3

/-- Write a block: Sequence rises, copy A is written and then copy B; a copy that still fails is left unsound and fails the save.  A save
raises 0x1F00:03, whose block, another one, then waits to be saved itself. -/
def writeBlock (s : State) (b lay : Nat) (d : StoreData) (aOk bOk : Bool) : State :=
  let x := s.storeBlk b
  let good := StoreCopy.make b lay (x.seq + 1) d
  let bad := { good with check := ~~~good.check }
  let y : StoreBlk := if !aOk then { x with a := bad } else if !bOk then { a := good, b := bad } else .both good
  let s := { s with od := { s.od with blocks := Tbl.set s.od.blocks b y } }
  if aOk && bOk then
    let s := { s with od := { s.od with saves := (s.od.saves + 1) % 2 ^ 32 } }
    if b = savesBlock then s else odPending s 0x1F00 3
  else { s with od := { s.od with saveFail := true } }

/-- Write a block in a save that no row reports: whether each copy verifies is free. -/
def writeNow (s : State) (b lay : Nat) (d : StoreData) : State :=
  let (k, s) := s.draw 2
  writeBlock s b lay d (Config.copyOk k) (Config.copyOk (k + 1))

/-! ## What a block holds -/

/-- The cores that are fenced, with their causes, three bytes each. -/
def packFences (s : State) : Bytes := s.cores.flatMap fun e => match e.2.fence with | some f => leBytes 2 e.1 ++ leBytes 1 f | none => []
def unpackFences : Bytes → List (Nat × Nat)
  | a :: b :: c :: t => (a.toNat + 256 * b.toNat, c.toNat) :: unpackFences t
  | _ => []

/-- A persistent entry that the engine itself keeps (R448). -/
def engineEntry (index sub : Nat) : Bool :=
  (index = 0x1F00 && sub = 3) || (index = 0x2010 && sub = 4) || (index = 0x2250 && (sub = 2 || sub = 6)) ||
  (index = 0x4000 && sub = 0x0B) || (index = 0x6480 && sub = 5) || (index = 0x9200 && sub = 2) ||
  (0x3100 ≤ index && index < 0x31F0 && sub = 9) || (0x4100 ≤ index && index < 0x41F0 && (sub = 5 || sub = 7))

/-- The values of those entries, where they are not 0. -/
def engineKept (s : State) : Tbl Bytes :=
  let one (index sub n v : Nat) : List (Nat × Bytes) := if v = 0 then [] else [(odKey index sub, leBytes n v)]
  one 0x1F00 3 4 s.od.saves ++ one 0x2010 4 4 s.upkeep.relocations ++
    (let f := packFences s; if f.isEmpty then [] else [(odKey 0x2250 2, f)]) ++ one 0x2250 6 4 s.faults.transient ++
    (s.power.regions.flatMap fun e => one (0x3100 + e.1) 9 2 e.2.lostCount) ++ one 0x4000 0x0B 2 s.thermal.shutdowns ++
    (s.power.regions.flatMap fun e => one (0x4100 + e.1) 5 1 e.2.pair ++ one (0x4100 + e.1) 7 2 e.2.pairCount) ++
    one 0x6480 5 4 s.upkeep.mismatches ++ one 0x9200 2 4 s.observe.vigils

/-- The record of a region, if it has one: what a start would find. -/
def regionRec (n : Nat) (r : Region) : Option StoreRec :=
  let x := r.dropOp
  if x.img.isNone ∧ x.op.isNone ∧ !x.split ∧ x.keyAct.isNone then none
  else some { region := n, image := x.img, op := x.op, split := x.split, key := x.keyAct }

/-- The entries that a recovery start keeps writable (R540). -/
def segmentKey (k : Nat) : Bool := k / 256 = 0x1020 || k / 256 = 0x1021

/-- What a save of a block writes.  A recovery start has loaded block 0 alone, so what else its block holds stays (R534, R540). -/
def blockData (s : State) (b : Nat) : StoreData :=
  let now := s.od.vals.filter fun e => odKept e.1 && storeBlock (e.1 / 256) (e.1 % 256) = b
  if s.boot.phase = .recovery then
    let c := (s.storeBlk b).load b 65535
    let old := match c with | some c => c.vals.filter fun e => !segmentKey e.1 | none => []
    .entries ((now.filter fun e => segmentKey e.1).foldl (fun t e => Tbl.set t e.1 e.2) old) (match c with | some c => c.recs | none => [])
  else
    let own := (engineKept s).filter fun e => storeBlock (e.1 / 256) (e.1 % 256) = b
    .entries (own.foldl (fun t e => Tbl.set t e.1 e.2) now) ((s.regions.filter fun e => recordBlock e.1 = b).filterMap fun e => regionRec e.1 e.2)

/-- Save a block (R464); a later change to it saves it again. -/
def saveBlock (s : State) (b : Nat) (aOk bOk : Bool) : State :=
  let s := { s with od := { s.od with pending := Tbl.del s.od.pending b } }
  writeBlock s b s.layout (blockData s b) aOk bOk
/-- Save a block in a save that no row reports. -/
def saveNow (s : State) (b : Nat) : State :=
  let (k, s) := s.draw 2
  saveBlock s b (Config.copyOk k) (Config.copyOk (k + 1))

/-- The record of a region's image has changed: its block is saved at once (R464). -/
def keepRecord (s : State) (n : Nat) : State := saveNow s (recordBlock n)

/-- Save every pending block at once, the count of saves last. -/
def saveAll (s : State) : State :=
  let s := (s.od.pending.map (·.1)).foldl saveNow s
  if (Tbl.find s.od.pending savesBlock).isSome then saveNow s savesBlock else s

/-- BLOCK_SAVE: SaveDelay after the first change not yet saved. -/
def execBlockSave (block : Nat) (aOk bOk : Bool) (s : State) : Res :=
  match Tbl.find s.od.pending block with
  | some t => if s.passed t (1000000 * s.setting 0x1F00 8 100) then .next (saveBlock s block aOk bOk) else .next s
  | none => .next s

/-- A write to 0x1F00:05: 1 saves every pending block. -/
def flushOp (s : State) (v : Nat) : OdEff := if v = 1 then (odBump (saveAll s) 0x1F00 5, 0) else (s, 4)
def execFlush (_w : Writer) (value : Nat) (s : State) : Res := applied s 0x1F00 (flushOp s value)

/-! ## Groups of settings -/

/-- Values of a region group in force, with whether the region is configured; both are settings of the store. -/
def keepRegion (s : State) (n : Nat) : State :=
  let r := s.region n
  let i := 0x2200 + n
  let put (s : State) (sub v : Nat) : State :=
    match odRow i sub with | some row => odStore s i sub row (leBytes (row.ty.size.getD 0) v) | none => s
  let s := put (put (put (put (put s 1 r.nw.toNat) 2 r.se.toNat) 3 r.exit) 4 r.setCap) 5 r.grant.toNat
  let k := odKey i 0x0D
  odPending { s with od := { s.od with vals := if r.state = 0 then Tbl.del s.od.vals k else Tbl.set s.od.vals k [1] } } i 0x0D

/-- A region as the store gives it. -/
def regionFromStore (s : State) (n : Nat) (r : Region) : Region :=
  let i := 0x2200 + n
  { r with
    nw := BitVec.ofNat 32 (s.setting i 1 0), se := BitVec.ofNat 32 (s.setting i 2 0), exit := s.setting i 3 0
    setCap := s.setting i 4 8, grant := BitVec.ofNat 8 (s.setting i 5 1)
    state := if (Tbl.find s.od.vals (odKey i 0x0D)).isSome then (if r.state = 2 ∨ r.split then 2 else 1) else 0 }

/-! ## Restoring defaults (R466) -/

/-- Entries that a restore leaves alone. -/
def restoreSpares (index : Nat) : Bool :=
  (0x1020 ≤ index && index ≤ 0x1022) || (0x2020 ≤ index && index ≤ 0x202F) || (0xA000 ≤ index && index ≤ 0xAFFF)

def swapsRun (s : State) : Bool := s.regions.any fun e => match e.2.op with | some o => o.swap | none => false

/-- A write to 0x1F00:07: 1 clears the fallback marks (R467). -/
def clearFallbackOp (s : State) (v : Nat) : OdEff :=
  if v = 1 then (odBump { s with od := { s.od with fellBack := [], loadFell := false } } 0x1F00 7, 0) else (s, 4)
def execClearFallback (_w : Writer) (value : Nat) (s : State) : Res := applied s 0x1F00 (clearFallbackOp s value)

/-! ## Loading (R465) -/

/-- The entries and the records that the store's sound blocks hold, for firmware that reads the layouts up to lay. -/
def storedVals (s : State) (lay : Nat) : Tbl Bytes :=
  s.od.blocks.foldl (fun t e => match e.2.load e.1 lay with | some c => c.vals.foldl (fun t v => Tbl.set t v.1 v.2) t | none => t) []
def storedRecs (s : State) (lay : Nat) : List StoreRec :=
  s.od.blocks.flatMap fun e => match e.2.load e.1 lay with | some c => c.recs | none => []

/-- The entries that the engine itself keeps take the values that the store holds; rom is how many saves the boot ROM has made. -/
def restoreKept (s : State) (vals : Tbl Bytes) (rom : Nat) : State :=
  let v (index sub : Nat) : Nat := match Tbl.find vals (odKey index sub) with | some b => leNat b | none => 0
  let fences := unpackFences ((Tbl.find vals (odKey 0x2250 2)).getD [])
  let cause (c : Nat) : Option Nat := (fences.find? fun e => e.1 = c).map (·.2)
  let s := { s with
    upkeep := { s.upkeep with relocations := v 0x2010 4, mismatches := v 0x6480 5 }
    observe := { s.observe with vigils := v 0x9200 2 }
    thermal := { s.thermal with shutdowns := v 0x4000 0x0B }
    faults := { s.faults with transient := v 0x2250 6 }
    od := { s.od with saves := (v 0x1F00 3 + rom) % 2 ^ 32 }
    cores := Tbl.map (fun c k => { k with fence := cause c }) s.cores }
  let s : State := fences.foldl (fun (s : State) e => if (s.core e.1).fence = some e.2 then s else s.updCore e.1 fun k => { k with fence := some e.2 }) s
  (List.range 240).foldl (fun (s : State) g =>
    let p := s.preg g
    let l : Nat := v (0x3100 + g) 9
    let x : Nat := v (0x4100 + g) 5
    let n : Nat := v (0x4100 + g) 7
    if (p.lostCount, p.pair, p.pairCount) = (l, x, n) then s else s.setPreg g { p with lostCount := l, pair := x, pairCount := n }) s

/-- The arrays that an interrupted rewrite may have begun: those of the layers that its record counts as completed, and of the next (R390,
R399). -/
def begunArrays (b : BoundImage) (o : LoadOp) : List Nat :=
  let ts := o.img.tiles.filter fun t => !t.host
  let all := (ts.map (·.layer)).eraseDups
  (ts.filter fun t => (all.filter (· < t.layer)).length ≤ o.layers).filterMap fun t => (b.placed[t.vcore]?).map fun p => 32 * p.core + p.array t.varray

/-- A region takes its image from its record; in a warm start the retained active version goes with it. -/
def Region.fromRecord (r : Region) (x : Option StoreRec) (cold : Bool) : Region :=
  match x with
  | none => { r with img := none, op := none, split := false, keyAct := none }
  | some x =>
    let version := if cold then 0 else match r.img with | some b => b.version | none => 0
    let op := match x.op, x.image with
      | some o, some b => some (if o.phase = .rollback then o else { o with touched := begunArrays b o })
      | o, _ => o
    let y := ({ r with img := x.image, op := op, split := x.split, keyAct := x.key } : Region).atStart cold
    { y with img := y.img.map fun b => { b with version := version } }

/-- Load the store: every block takes its contents, falls back, and is rewritten; settings that are not kept take their defaults.
Blocks 0 and 1 have rules of their own (R541, R557).  DESIGN CHOICE: the rewriting of both copies verifies. -/
def loadStore (s : State) (cold : Bool) (rom : Nat) : State :=
  let lay := s.layout
  let fell := (s.od.blocks.filter fun e => 2 ≤ e.1 && (e.2.load e.1 lay).isNone).map (·.1)
  let again (b : Nat) (x : StoreBlk) : StoreBlk :=
    if b < 2 then x
    else match x.load b lay with
      | some c => .both (.make b lay c.seq c.data)
      | none => .both (.make b lay 0 (.entries [] []))
  let vals := storedVals s lay
  let recs := storedRecs s lay
  let s := { s with od := { s.od with
    vals := vals.filter fun e => !engineEntry (e.1 / 256) (e.1 % 256), blocks := Tbl.map again s.od.blocks, pending := [], fellBack := fell
    loadFell := !fell.isEmpty } }
  let s := fell.foldl (fun s b => s.notice 2 (silCentral 6 none) b 0) s
  let s := restoreKept s vals rom
  let s := (List.range 64).foldl (fun s n =>
    let x := recs.find? fun e => e.region = n
    if x.isNone ∧ (Tbl.find s.regions n).isNone then s else s.updRegion n fun r => r.fromRecord x cold) s
  let s := { s with regions := Tbl.map (fun n r => regionFromStore s n r) s.regions }
  if rom = 0 then s else odPending s 0x1F00 3

/-! ## The boot record (R541) -/

/-- The bytes of the boot record, from offset 8. -/
def bootBytes (b : Boot) : Bytes :=
  leBytes 1 b.activeBank ++ leBytes 1 (match b.pendBank with | some p => p | none => 0xFF) ++ leBytes 1 b.attempts ++ leBytes 1 b.lastFail ++
    leBytes 4 b.minSec ++ slice b.digest 0 32

/-- Write the boot record.  DESIGN CHOICE: its Layout stays 0, the boot ROM's own, which every firmware reads. -/
def saveBoot (s : State) : State := writeNow s 0 0 (.raw (bootBytes s.boot))

/-- The boot record's fields as a sound copy of block 0 holds them. -/
def Boot.fromRecord (b : Boot) (d : Bytes) : Boot :=
  { b with
    activeBank := fieldAt d 0 1 % 2
    pendBank := if fieldAt d 1 1 = 0xFF then none else some (fieldAt d 1 1 % 2)
    attempts := max b.attempts (fieldAt d 2 1), lastFail := fieldAt d 3 1, minSec := fieldAt d 4 4, digest := slice d 8 32 }

/-! ## Shadows (R456, R458, R460) -/

/-- A write to an RWC entry: checked only for length, then kept in the writer's shadow. -/
def shadowOp (s : State) (w : Writer) (index sub : Nat) (v : Bytes) : OdEff :=
  match odRow index sub with
  | none => (s, 1)
  | some r =>
    if r.acc ≠ .rwc then (s, 2)
    else if r.ty.size ≠ some v.length then (s, 3)
    else
      let g := groupOf index
      let old := match s.shadow? w g with | some x => x.vals | none => []
      let s := dropShadow s w g
      ({ s with od := { s.od with shadows := s.od.shadows ++ [⟨w, g, Tbl.set old (odKey index sub) v, s.now⟩] } }, 0)

/-- SHADOW_WRITE. -/
def execShadowWrite (w : Writer) (index sub : Nat) (value : Bytes) (s : State) : Res := applied s index (shadowOp s w index sub value)
/-- A write of 0xFF to a group's commit subindex: the writer's shadow goes, and the write counts (R450, R458). -/
def discardOp (s : State) (w : Writer) (index : Nat) : State := odBump (dropShadow s w (groupOf index)) (groupOf index) 0x0F
/-- SHADOW_DISCARD: 0xFF at a group's commit subindex. -/
def execShadowDiscard (w : Writer) (index : Nat) (s : State) : Res := applied s index (discardOp s w index, 0)
/-- SHADOW_TIMEOUT: the writer has not written to the group for ShadowTimeout. -/
def execShadowTimeout (w : Writer) (index : Nat) (s : State) : Res :=
  match s.shadow? w (groupOf index) with
  | some x => if s.passed x.last (1000000000 * s.setting 0x1022 6 60) then .next (dropShadow s w (groupOf index)) else .next s
  | none => .next s

/-! ## The management segment group (R461, R470) -/

/-- Commit the candidate of the PLCA settings; without a shadow nothing changes (R452). -/
def segmentOp (s : State) (w : Writer) : OdEff :=
  match s.shadow? w 0x1020 with
  | none => (s, 0)
  | some _ =>
    let v (i sub : Nat) : Nat := candidate s w i sub
    let code := if v 0x1020 1 > 1 ∨ v 0x1020 2 = 0 then 1
      else if v 0x1021 0 = 0 ∧ v 0x1020 2 < 2 then 2 else 0
    let s := odBump { s with mgmt := { s.mgmt with segRes := code } } 0x1020 0x0E
    if code ≠ 0 then (s, 7)
    else
      let put (s : State) (i sub : Nat) : State :=
        match odRow i sub with | some row => odStore s i sub row (leBytes (row.ty.size.getD 0) (v i sub)) | none => s
      let s := put (put (put (put (put (put s 0x1020 1) 0x1020 2) 0x1020 3) 0x1020 4) 0x1020 5) 0x1021 0
      (dropShadow s w 0x1020, 0)

/-- SEGMENT_COMMIT. -/
def execSegmentCommit (w : Writer) (s : State) : Res := applied s 0x1020 (commitCounted (segmentOp s w) 0x1020)

end Sys2Proof.Machine
end

