-- ==== Sys2Proof/Machine/Power.lean ====
section
/-!
DEFINITION. Power regions: DOZE, DARK, wakes, the loss and the retry of a region, telemetry and measured power (R486, R489 to R508).
-/
namespace Sys2Proof.Machine

/-! ## Sleep -/

def slicesRun (s : State) (g : Nat) : Bool := s.cores.any fun e => powerOf e.1 = g && e.2.sets.any fun t => t.2.slice.isSome

/-- DOZE_ENTRY (R493). -/
def execDozeEntry (g : Nat) (s : State) : Res :=
  let p := s.preg g
  let d := 1000 * s.setting 0x3010 8 1000
  if g < 240 ∧ p.state = .nap ∧ d ≠ 0 ∧ s.passed p.since d ∧ flitQuiet s g d ∧ !slicesRun s g ∧
      (powerCores g).all (fun c => !(s.core c).clockOn) then
    .next ((((s.countField (powerField g) 0 1).powerTo g .doze 0).updPreg g fun p => { p with upkeepFrom := none }).modePin g false)
  else .next s

/-- DARK_ENTRY (R241, R494). -/
def execDarkEntry (g : Nat) (s : State) : Res :=
  let p := s.preg g
  if g < 240 ∧ s.setting 0x3010 9 1 = 1 ∧ (p.state = .nap ∨ p.state = .doze) ∧ s.passed p.quiet (1000 * s.setting 0x3010 0x0A 10000) ∧
      !tenanted s g ∧ !upkeepNear s g then .next (goDark s g)
  else .next s

/-! ## Wakes -/

/-- Something asks for the region (R495): a flit at a neighbouring router or bound for it, upkeep, or a retry. -/
def wakeAsked (s : State) (g reason : Nat) : Bool :=
  match reason with
  | 0 => s.mesh.any fun f => match nextHop s f.pkt f.loc with | .go c _ _ _ => powerOf c = g | .drop => false
  | 1 => s.mesh.any fun f => powerOf f.pkt.dest = g
  | 2 => upkeepDue s g
  | 4 => (s.preg g).retryAt.isSome
  | _ => false

/-- A region is woken for upkeep: what falls due within a tenth of the interval is scheduled with it, and the region will return to the
state that it is in (R119). -/
def wakeForUpkeep (s : State) (g : Nat) : State :=
  let p := s.preg g
  let soon (k : Core) (e : Nat × Arr) : Core :=
    if dueSoon s p e.2 ∧ !((k.set (e.1 / 4)).tasks.any fun x => x.array = e.1 ∧ x.level = 3) then k.addTask e.1 5 else k
  { s.updPreg g fun p => { p with upkeepFrom := some p.state } with
    cores := Tbl.map (fun c k => if powerOf c = g then k.arrays.foldl soon k else k) s.cores }

/-- A region leaves DOZE or DARK; a LOST one only for its retry (R497, R499, R505). -/
def wakeRegion (s : State) (g : Nat) (retry : Bool) : State :=
  match (s.preg g).state with
  | .doze => dozeWake s g
  | .dark => darkWake s g
  | .lost => if retry then darkWake s g else s
  | _ => s

/-- NEIGHBOUR_RECHECK: 250 ns on, the sequencer reads the neighbours again; the profile is kept (R499, R508). -/
def execNeighbourRecheck (look : WakeLook) (s : State) : Res :=
  let g := look.region
  match (s.preg g).wake with
  | some w =>
    if w.ramped ∨ !s.passed w.lastCheck 250 then .next s
    else
      let s := (readMonitors s look.samples).countField (powerField g) 5 250
      let w := { w with lastCheck := s.now }
      let s := s.updPreg g fun p => { p with wake := some w }
      .next (if loadOk s g w.slow then rampUp s g w else s)
  | none => .next s

/-- WAKE_WAIT_LIMIT: a wait reaches WakeWaitLimit; it is counted and told, and goes on (R500). -/
def execWakeWaitLimit (g : Nat) (s : State) : Res :=
  match (s.preg g).wake with
  | some w =>
    if w.ramped ∨ w.counted ∨ !s.passed w.since (1000 * s.setting 0x3010 7 16) then .next s
    else
      let s := (s.countField (powerField g) 6 1).updPreg g fun p => { p with wake := some { w with counted := true } }
      .next (s.notice 3 (silField (powerField g)) g (s.now - w.since))
  | none => .next s

/-! ## Loss (R502 to R504) -/

/-- A region is LOST: isolated, its routers holes, its cores judged dead, its page off. -/
def loseRegion (s : State) (g cause status : Nat) : State :=
  if (s.preg g).state = .lost then s
  else
    let s := s.countField (powerField g) 7 1
    let s := (s.powerTo g .lost cause).updPreg g fun p => { p with
      wake := none, retryAt := none, upkeepFrom := none, current := 0, before := 0, cause := cause, status := status % 65536, lostCount := (p.lostCount + 1) % 65536 }
    let s := (odPending s (0x3100 + g) 9).modePin g false
    let held := s.mesh.filter fun f => powerOf f.loc = g
    let s := { s with mesh := s.mesh.filter fun f => powerOf f.loc ≠ g }
    let s := held.foldl (fun s f => discardFault s f.loc f.pkt) s
    -- the routers of cores that were no longer usable have become holes too (R227, R253)
    let (dead, others) := (powerCores g).partition (usable s)
    let s := others.foldl newHole s
    let s := dead.foldl (fun s c => coreDies s c 0x0205 g) s
    let s := { s with cores := Tbl.map (fun c k => if powerOf c = g then { k.darkened with ctrs := [], ovf := [], clearedAt := s.now } else k) s.cores }
    (s.pmbus g pmOperation 0x00).pmbus g pmStatusWord 0

/-- A retry has failed: its page's STATUS_WORD is read, and the loss is counted (R486, R505). -/
def retryFailed (s : State) (g : Nat) : State :=
  let (k, s) := s.draw 1
  (odPending (s.updPreg g fun p => { p with
    wake := none, retryAt := none, cause := 4, status := (Config.statusWord k).toNat, lostCount := (p.lostCount + 1) % 65536 })
    (0x3100 + g) 9).pmbus g pmStatusWord 0

/-- PG has not risen in a wake (R497, R502); a retried region fails its retry (R505). -/
def wakeFails (s : State) (g : Nat) : State :=
  if (s.preg g).retryAt.isSome then retryFailed (((s.powerTo g .lost 4).modePin g false).pmbus g pmOperation 0x00) g
  else
    let (k, s) := s.draw 1
    loseRegion s g 3 (Config.statusWord k).toNat

/-! ## Retry (R505) -/

/-- A retry begins: CLEAR_FAULTS and OPERATION on, with MODE low; then PG is waited for (R505). -/
def beginRetry (s : State) (g : Nat) : State :=
  ((s.pmbus g pmClearFaults 0).pmbus g pmOperation 0x80).updPreg g fun p => { p with retryAt := some s.now }

/-- A write to 0x3100+g:08. -/
def retryOp (s : State) (g v : Nat) : OdEff :=
  let p := s.preg g
  if v ≠ 1 then (s, 4)
  else if p.state ≠ .lost ∨ p.retryAt.isSome then (s, 5)
  else (odBump (beginRetry s g) (0x3100 + g) 8, 0)
def execRetry (_w : Writer) (g value : Nat) (s : State) : Res := if g < 240 then applied s 0x3100 (retryOp s g value) else .next s

/-! ## Telemetry and measured power -/

/-- TELEMETRY: once in a TelemetryPeriod, READ_IOUT and READ_VOUT of every page: pages 0 to 239 are the regions', 240 to 243 VDD_ARRAY,
VDD_AON, VDD_AUX and VDD_OPT.  The pages' answers come with the row; one that is missing leaves its entry (R486, R507). -/
def execTelemetry (pages : List PageRead) (s : State) : Res :=
  if !s.passed s.power.telemAt (1000000 * s.setting 0x3010 0x0C 10) then .next s
  else
  let s := (List.range 244).foldl (fun s g => (s.pmPage g pmReadIout).pmPage g pmReadVout) { s with power := { s.power with telemAt := s.now } }
  .next (pages.foldl (fun s r =>
    if r.page < 240 then s.updPreg r.page fun p => { p with regI := r.current, regV := r.voltage }
    else { s with power := { s.power with railI := Tbl.set s.power.railI (r.page - 240) r.current } }) s)

/-- Setpoint of an engine-wide rail in mV (R482). -/
def railMv (i : Nat) : Nat := nth [800, 750, 1800, 3300] i 0

/-- Measured power in W, to the nearest: each region's current times its voltage, and each engine-wide rail's times its setpoint (R490). -/
def measuredPower (s : State) : Nat :=
  let cores := (s.power.regions.map fun e => e.2.current * e.2.regV).sum
  let rails := (s.power.railI.map fun e => e.2 * railMv e.1).sum
  (1000 * cores + 65536 * rails + 500 * 2 ^ 32) / (1000 * 2 ^ 32)

/-- POWER_UPDATE: the monitors are read, then the measured power is recomputed (R489, R490, R507). -/
def execPowerUpdate (samples : List MonRead) (s : State) : Res :=
  let s := readMonitors s samples
  let m := measuredPower s
  .next { s with power := { s.power with measured := m, history := (m :: s.power.history).take 100 } }

end Sys2Proof.Machine
end

