-- ==== Sys2Proof/Machine/Shutdown.lean ====
section
/-!
DEFINITION. The end of everything that runs, as a thermal shutdown, a trip, an ordered restart, a lost array rail and a start share it
(R487, R488, R525, R527, R533).
-/
namespace Sys2Proof.Machine

/-- Drop the enables of the engine-wide rails in order; their power-good lines follow (R487). -/
def dropEnables (s : State) : State :=
  let s := ((s.emit (.pin 3 0 false)).emit (.pin 2 0 false)).emit (.pin 1 0 false)
  { s with power := { s.power with enOpt := false, enAux := false, enArray := false, pgOpt := false, pgAux := false, pgArray := false } }

/-- Every request and tuning job ends, contexts and key-value blocks are freed, and steps in flight are discarded (R525 steps 1 and 2);
answers how many requests ended. -/
def endEverything (s : State) (code : Nat) : State × Nat :=
  let s := { s with regions := Tbl.map (fun _ r => { r with steps := [], again := [], lastChunk := 0, genRun := 0, bucket := 0 }) s.regions }
  let cs := (s.serving.ctxs.filter fun e => e.2.state ≠ .ended && e.2.tune.isNone).map (·.1)
  let s := endReqs s cs 3 code
  let s := { s with serving := { s.serving with ctxs := [], index := [] }
                    regions := Tbl.map (fun _ r => { r with pool := [], cursor := 0, delivered := 0 }) s.regions }
  (s, cs.length)

/-- Loads and early swaps end without a trace but for their handles; other swaps wait for the next start. -/
def dropOps (s : State) : State := { s with regions := Tbl.map (fun _ r => r.dropOp) s.regions }

/-- Every outstanding handle completes, but those of swaps that a start finishes (R525 step 3). -/
def endHandles (s : State) (status detail : Nat) : State :=
  let kept := s.regions.filterMap fun e => match e.2.op with | some o => if o.survives then o.handle else none | none => none
  let hs := (s.host.handles.filter fun e => e.2.out.isSome && !kept.contains e.1).map (·.1)
  let s := hs.foldl (fun s h => s.finish h status detail 0 0) s
  { s with serving := { s.serving with jobs := [] } }

/-- An array when a start begins: one that was being programmed waits for its check (R385, R487). -/
def Arr.atStart (a : Arr) : Arr := if a.state = 5 then { a with state := 0, digest := [] } else a

/-- What a core keeps over a start: arrays, trims and its fence; its counters are cleared (R536, R575, R618). -/
def Core.atStart (k : Core) (now : Nat) : Core :=
  { k.darkened with arrays := Tbl.map (fun _ a => a.atStart) k.arrays, ctrs := [], ovf := [], clearedAt := now }

/-- What every start clears (R13, R126, R529, R536, R563, R456, R618, R631, R634). -/
def clearBoth (s : State) (cold : Bool) : State :=
  { s with
    cores := Tbl.map (fun _ k => k.atStart s.now) s.cores
    syncs := [], mesh := []
    regions := Tbl.map (fun _ r => r.atStart cold) s.regions
    od := { s.od with shadows := [], select := [], commits := [] }
    power := { s.power with ctrs := [], ovf := [], wakeQ := [] }
    thermal := { s.thermal with flags := 0 }
    upkeep := { s.upkeep with warnings := 0, layer := 0 }
    fabric := { s.fabric with waits := [] }
    host := { s.host with writes := [] }
    observe := { s.observe with dumps := [], watches := [], dumpReqs := [], vigilQ := [], clearedAt := s.now }
    boot := { s.boot with sessions := [], attests := [], signing := none, inputs := none } }

/-- What a power region keeps over a cold start: that it is LOST, until its retry, its log of losses, its sensor pair and its arrays' age (R128, R507, R530). -/
def PRegion.atCold (p : PRegion) : PRegion :=
  { PRegion.reset with state := if p.state = .lost then .lost else .dark, lostCount := p.lostCount, pair := p.pair, pairCount := p.pairCount, aged := p.aged, calHot := p.calHot, calDue := p.calDue }

/-- What a cold start clears besides: every AON-retained value but the start-attempt count (R532, R536); weights, array records, the
store with what it keeps, and the factory's memory stay.  DESIGN CHOICE: sentinel retirements before the start no longer count toward
R105's escalation of a core. -/
def clearCold (s : State) : State :=
  let s := clearBoth s true
  { s with
    almanac := 0
    serving := { Serving.reset with adapters := s.serving.adapters }
    host := { HostIf.reset with sites := Vector.ofFn fun i => { Site.reset with populated := s.factory.sites.contains i.val } }
    od := { s.od with changes := [], seen := [], saveFail := false }
    mgmt := { Mgmt.reset with totalAt := s.now }
    power := { s.power with regions := Tbl.map (fun _ p => p.atCold) s.power.regions, auxLost := none, railI := [], telemAt := s.now, measured := 0, history := [] }
    thermal := { Thermal.reset with shutdowns := s.thermal.shutdowns, lastOk := s.now }
    upkeep := { s.upkeep with warnings := 0, layer := 0, retired := [], spread := 0 }
    faults := { FaultSvc.reset with transient := s.faults.transient }
    fabric := Fabric.reset
    observe := { Observe.reset with vigils := s.observe.vigils, clearedAt := s.now }
    boot := { s.boot with keptDigest := [], keys := none, attState := if s.boot.leafSound then 1 else 2, treeOk := false, tagFails := 0 } }

/-- Every Vigil arm ends (R634). -/
def disarmAll (s : State) : State := (s.regions.map (·.1)).foldl disarmVigil s

/-- Steps 1 to 3 of R525 with an error record code: gates close, requests end, handles complete. -/
def endService (s : State) (code aux0 : Nat) : State :=
  let (s, n) := endEverything (disarmAll s) code
  let s := s.recordErr (plainRec s code none aux0 n)
  dropOps (endHandles s 5 0xFFFF)

/-- The region with the highest T_hs. -/
def hottest (s : State) : Nat :=
  (s.power.regions.foldl (fun (b : Nat × Int) e => if b.2 < e.2.hot then (e.1, e.2.hot) else b) (0, (s.preg 0).hot)).1

/-- The ordered thermal shutdown (R525), or the part of it that follows a trip (R527). -/
def shutDown (s : State) (cause : Nat) : State :=
  let s := endService s 0x0501 cause
  let s := s.postEvent 13 0 cause (hottest s)
  let s := { s with thermal := { s.thermal with shutdowns := (s.thermal.shutdowns + 1) % 65536, state := if cause = 3 then 3 else 2 } }
  let s := saveAll (odPending s 0x4000 0x0B)
  let s := if cause = 3 then s else dropEnables (allDark s)
  { s with boot := { s.boot with phase := .down }, regions := Tbl.map (fun _ r => r.unbind) s.regions, mesh := [] }

/-- A start of a kind is triggered (R531): a warm one owes the COMPLETE of every handle still outstanding (R427, R536, R537), and the
handle of a swap that the start finishes does not survive it (R399). -/
def trigger (s : State) (kind n : Nat) : State :=
  let hs := if kind = 2 then (s.host.handles.filter fun e => e.2.out.isSome).map (·.1) else []
  { s with
    boot := { s.boot with phase := .trigger kind, trigAt := s.now }
    host := { s.host with late := hs, lateN := n }
    regions := Tbl.map (fun _ r => { r with op := r.op.map fun o => { o with handle := none } }) s.regions }

/-- What a start that a RESTART or 0x4030:01 orders does first: steps 1 to 3 and 5 of R525 (R533). -/
def orderedStart (s : State) (kind : Nat) : State :=
  let s := endService s 0x0502 kind
  trigger (saveAll s) kind s.handlesOut

/-- A warm start begun by the watchdog or a memory error: requests end, handles wait for the start's end (R427, R533). -/
def suddenWarm (s : State) : State :=
  let s := disarmAll s
  let h := s.handlesOut
  let (s, n) := endEverything s 0x0502
  let s := s.recordErr (plainRec s 0x0502 none 2 n)
  trigger (dropOps { s with serving := { s.serving with jobs := [] } }) 2 h

end Sys2Proof.Machine
end

