-- ==== Sys2Proof/Machine/Cooling.lean ====
section
/-!
DEFINITION. Coolant, hot spots, the thermal cap, gates, the coolant hold, shutdown and trip (R509 to R530).
-/
namespace Sys2Proof.Machine

/-- A temperature of whole degrees in 1/65,536 °C. -/
def degC (n : Int) : Int := n * 65536

/-! ## Flags (R528, R529) -/

/-- Event 11 may be posted for a bit: none was in the last second. -/
def flagDue (t : Thermal) (now bit : Nat) : Bool :=
  match Tbl.find t.flagTimes bit with | some x => decide (x + 1000000000 ≤ now) | none => true

/-- Set a bit of 0x4010:01; event 11 is posted when it sets, at most once per second per bit. -/
def setFlag (s : State) (bit region : Nat) : State :=
  let t := s.thermal
  if t.flags.getLsbD bit then s
  else
    let u : Thermal := { t with flags := t.flags ||| (1#32 <<< bit) }
    if flagDue t s.now bit then
      State.postEvent { s with thermal := { u with flagTimes := Tbl.set t.flagTimes bit s.now } } 11 0 u.flags.toNat region
    else { s with thermal := u }

/-- A write to 0x4010:02: ones clear bits. -/
def clearFlagsOp (s : State) (mask : W32) : OdEff :=
  (odBump { s with thermal := { s.thermal with flags := s.thermal.flags &&& ~~~mask } } 0x4010 2, 0)
def execClearFlags (_w : Writer) (mask : W32) (s : State) : Res := applied s 0x4010 (clearFlagsOp s mask)

/-! ## The hold (R521 to R524) -/

/-- Flow in hundredths of a litre per minute. -/
def flow100 (s : State) : Nat := (s.thermal.flow * 100 + 32768) / 65536

/-- A time from which something counts, at the end of a hold of d ns: what the hold took does not count, and what began within the hold
begins at its end (R523). -/
def afterHold (now d t : Nat) : Nat := min now (t + d)

/-- An operation's progress timer stood still for a hold. -/
def Hdl.shift (now d : Nat) (h : Hdl) : Hdl := { h with out := h.out.map fun o => { o with since := afterHold now d o.since } }

/-- The coolant hold begins: gates close, every core's clock stops, and programming pauses. -/
def beginHold (s : State) : State :=
  if s.thermal.state ≠ 0 then s
  else
    let s := { s with thermal := { s.thermal with state := 1, holdAt := s.now, limit := false, flowOk := none }, cores := Tbl.map (fun _ k => k.freeze) s.cores }
    let s := (List.range 240).foldl (fun s g => if (s.preg g).state = .run then s.powerTo g .nap 0 else s) s
    s.postEvent 12 0 1 (flow100 s)

/-- A held core resumes where it stopped, with the time its limits had left (R523, R524). -/
def Core.thaw (k : Core) (now d : Nat) : Core :=
  { k with
    run := .issuing, waitFrom := afterHold now d k.waitFrom, idleFrom := afterHold now d k.idleFrom
    lastIssue := afterHold now d k.lastIssue, stoppedAt := k.stoppedAt.map (afterHold now d), seq := { k.seq with stepFrom := afterHold now d k.seq.stepFrom } }

/-- A region frozen for its Vigil dump stays frozen (R635). -/
def vigilFrozen (s : State) (c : Nat) : Bool :=
  match ownerOf s c with
  | some n => (match (s.region n).flush with | some f => f.phase = 3 | none => false)
  | none => false

/-! ## The tray hub (R510, R511) -/

/-- A signed 16-bit field. -/
def i16At (b : Bytes) (off : Nat) : Int := signedOf 16 (fieldAt b off 2)

/-- TRAY_READ: the 12 bytes the hub returned, or none after a NACK.  Flow is compared as the hub gives it, in 0.01 L/min: 20 % of 32 L/min
is 640 (R521, R524, R529). -/
def execTrayRead (sample : Option Bytes) (s : State) : Res :=
  match sample with
  | none => .next s
  | some b =>
    let count := fieldAt b 10 2
    if b.length ≠ 12 ∨ fieldAt b 0 2 ≠ 0x5448 ∨ fieldAt b 2 1 % 8 ≠ 7 ∨ s.thermal.sampleN = some count then .next s
    else
      let raw := fieldAt b 8 2
      let recent := s.thermal.flows.filter fun e => s.now ≤ e.1 + 200000000
      let best := recent.foldl (fun m e => max m e.2) 0
      let back : Bool := 32 * s.setting 0x4020 7 60 ≤ raw
      let s := { s with thermal := { s.thermal with
        inlet := rneInt (i16At b 4 * 65536) 100, outlet := rneInt (i16At b 6 * 65536) 100, flow := (raw * 65536 + 50) / 100
        sampleN := some count, lastOk := s.now, stale := false, lostTray := false, flows := recent ++ [(s.now, raw)]
        flowOk := if back then (match s.thermal.flowOk with | some t => some t | none => some s.now) else none } }
      let s := if s.thermal.inlet < degC 18 ∨ degC 40 < s.thermal.inlet then setFlag s 2 0xFFFF else s
      let s := if raw < 32 * s.setting 0x4020 2 75 then setFlag s 1 0xFFFF else s
      if raw < 640 ∨ 2 * raw < best then .next (beginHold s) else .next s

/-- TRAY_STALE: no valid read for 100 ms. -/
def execTrayStale (s : State) : Res :=
  if s.passed s.thermal.lastOk 100000000 then .next (setFlag { s with thermal := { s.thermal with stale := true } } 7 0xFFFF) else .next s

/-- TRAY_LOST: no valid read for 1 s. -/
def execTrayLost (s : State) : Res :=
  if s.passed s.thermal.lastOk 1000000000 then
    .next (beginHold (setFlag { s with thermal := { s.thermal with stale := true, lostTray := true, flowOk := none } } 7 0xFFFF))
  else .next s

/-! ## Junction sensors (R513 to R516) -/

/-- A faulted pair (R515); one that is faulted already only sets its flag again (R529). -/
def faultPair (s : State) (g : Nat) : State :=
  let p := s.preg g
  if p.pair = 3 then setFlag s 5 g
  else setFlag (odPending (odPending (s.setPreg g { p with pair := 3, pairCount := (p.pairCount + 1) % 65536 }) (0x4100 + g) 5) (0x4100 + g) 7) 5 g

/-- A temperature as the AON tile reads it: to 0.0625 °C (R513). -/
def toSixteenth (v : Int) : Int := rneInt v 4096 * 4096

/-- One region's sample, the diodes to their resolution and the coarse reading only where the region's state lets it be read: the vote of
R514, and what R515 times. -/
def voteDiodes (s : State) (d : Diodes) : State :=
  let g := d.region
  let p := s.preg g
  let read : Bool := p.state = .run || p.state = .nap || p.state = .doze
  let r : Diodes := { d with a := toSixteenth d.a, b := toSixteenth d.b, coarse := if read then d.coarse else none }
  let ok (v : Int) : Bool := s.thermal.inlet - degC 5 ≤ v && v ≤ degC 130
  let c := match r.coarse with | some v => v + degC 5 | none => p.hot
  let pa := ok r.a; let pb := ok r.b
  let gap := ((r.a - r.b).natAbs : Int)
  let best := if pa && pb then max r.a r.b else if pa then max r.a c else if pb then max r.b c else c
  let hot := if p.pair = 3 then max best c else best
  let pair := if p.pair = 3 then 3 else if pa && pb then (if gap ≤ degC 3 then 0 else 1) else if pa || pb then 2 else p.pair
  let apart := if pa && pb && degC 10 < gap then (match p.apartFrom with | some t => some t | none => some s.now) else none
  let close := if pa && pb && gap ≤ degC 3 then (match p.closeFrom with | some t => some t | none => some s.now) else none
  let s := s.setPreg g { p with
    diodeA := r.a, diodeB := r.b, hot := hot, coarse := r.coarse.getD p.coarse, pair := pair, apartFrom := apart, closeFrom := close }
  let s := if pair = p.pair then s else odPending s (0x4100 + g) 5
  let s := if !(pa && pb) then setFlag s 4 g else s
  let s := if pa && pb && degC 3 < gap then setFlag s 3 g else s
  if !pa && !pb then faultPair s g else if p.pair = 3 then setFlag s 5 g else s

/-- Arrays whose region's temperature has moved since their last calibration pass wait for another: those whose last pass is the cold start's
all together, the others one by one (R107). -/
def tempTasks (s : State) (g : Nat) : State :=
  let p := s.preg g
  let lim := degC (s.setting 0x5040 5 8)
  let moved (t : Int) : Bool := lim < ((p.hot - t).natAbs : Int)
  let own (c : Nat) (k : Core) : Core := k.arrays.foldl (fun k e =>
    let a := e.2
    if (a.state = 0 ∨ a.state = 4) ∧ !passIsCold s c a ∧ (a.format ≠ 0 ∨ a.calAt ≠ 0) ∧ moved (calTempOf s c a) then k.addTask e.1 4 else k) k
  let s : State := { s with cores := Tbl.map (fun c (k : Core) => if powerOf c = g then own c k else k) s.cores }
  if s.upkeep.calAt.isSome ∧ moved p.calHot ∧ !p.calDue then s.updPreg g fun p => { p with calDue := true } else s

/-- The readings of one 100 µs sample enter the votes and wake what R107 wakes; answers whether a hot spot has reached 100 °C. -/
def takeSample (s : State) (readings : List Diodes) : State × Bool :=
  let rs := readings.filter fun r => r.region < 240
  let s := rs.foldl voteDiodes s
  let s := rs.foldl (fun s r => tempTasks s r.region) s
  ({ s with thermal := { s.thermal with sampleAt := some s.now } }, s.thermal.state ≤ 1 && rs.any fun r => degC 100 ≤ (s.preg r.region).hot)

/-- DIODE_SAMPLE: the readings of one 100 µs sample; 100 °C anywhere shuts the engine down, and so does a hold that has reached its limit, with the
hot spot as the cause recorded where both are so (R513, R514, R525). -/
def execDiodeSample (readings : List Diodes) (s : State) : Res :=
  let x := takeSample s readings
  if x.2 then .next (shutDown x.1 2) else if x.1.thermal.state = 1 ∧ x.1.thermal.limit then .next (shutDown x.1 1) else .next x.1

/-- HOLD_LIMIT: a hold of 30 s ends in an ordered shutdown, after the 100 µs sample of the same time (R525). -/
def execHoldLimit (s : State) : Res :=
  let y := s.thermal
  if y.state = 1 ∧ s.passed y.holdAt 30000000000 then
    .next (if y.sampleAt = some s.now then shutDown s 1 else { s with thermal := { y with limit := true } })
  else .next s

/-- PAIR_FAULT: the diodes have stayed more than 10 K apart for 1 s. -/
def execPairFault (g : Nat) (s : State) : Res :=
  match (s.preg g).apartFrom with
  | some t => if s.passed t 1000000000 then .next (faultPair s g) else .next s
  | none => .next s

/-- The power regions of a tenant region. -/
def powersOf (r : Region) : List Nat := ((rectCores r.nw r.se).map powerOf).eraseDups

/-- The power regions of a tenant region whose pair is faulted (R520). -/
def badPairs (s : State) (r : Region) : List Nat :=
  if r.state = 0 then [] else (powersOf r).filter fun g => (s.preg g).pair = 3

/-- A tenant region that has no faulted pair left has no second level (R520). -/
def settleGates (s : State) : State :=
  { s with regions := Tbl.map (fun _ r => if (badPairs s r).isEmpty then { r with gateF := 0, gateLow := 0 } else r) s.regions }

/-- A write to 0x4100+g:06. -/
def clearPairOp (s : State) (g v : Nat) : OdEff :=
  let p := s.preg g
  if v ≠ 1 then (s, 4)
  else match p.closeFrom with
    | some t => if s.passed t 10000000000 then (odBump (settleGates (odPending (s.setPreg g { p with pair := 0 }) (0x4100 + g) 5)) (0x4100 + g) 6, 0) else (s, 5)
    | none => (s, 5)
def execClearPairFault (_w : Writer) (g value : Nat) (s : State) : Res := if g < 240 then applied s 0x4100 (clearPairOp s g value) else .next s

/-! ## The thermal cap (R517, R518) -/

/-- THERMAL_CAP_UPDATE.  The mean power is sum / n and R_th a fraction of whole numbers: only the law value is rounded, down to whole
watts (R517). -/
def execThermalCapUpdate (s : State) : Res :=
  let sum := s.power.history.sum
  let n := max 1 s.power.history.length
  let g := hottest s
  let t := s.thermal
  let tmax := (s.preg g).hot
  let fresh : Bool := 4000 * n ≤ sum
  let num := if fresh then ((tmax - t.inlet) * 1000).toNat * n else t.rthN
  let den := if fresh then sum else t.rthD
  let law := if num = 0 then 2 ^ 32 - 1 else max 2000 (((degC 90 - t.inlet) * 1000).toNat * den / num)
  let cap := if law < t.cap then law else min law (t.cap + s.setting 0x4020 0x0E 400)
  let q : Int := heatRemoved s
  let off : Bool := 15 * (sum : Int) < 100 * ((q * n - sum).natAbs : Int)
  let since := if off then (match t.mismatch with | some x => some x | none => some s.now) else none
  let s := { s with thermal := { t with rthN := num, rthD := den, cap := cap, tmax := tmax, tmaxG := g, mismatch := since } }
  let s := if cap < s.setting 0x3000 2 20000 then setFlag s 0 0xFFFF else s
  match since with
  | some x => if s.passed x 10000000000 then .next (setFlag s 6 0xFFFF) else .next s
  | none => .next s

/-! ## Gates (R519, R520) -/

/-- A tenant region's second level F_n: 8 from the moment it holds a faulted pair. -/
def levelF (s : State) (r : Region) : Nat := if (badPairs s r).isEmpty then 0 else max 8 r.gateF

/-- A tenant region's second level after an update, by the 1 ms currents of its faulted regions. -/
def gateF (s : State) (r : Region) : Nat × Nat :=
  let bad := badPairs s r
  if bad.isEmpty then (0, 0)
  else
    let f := levelF s r
    if bad.any fun g => 55 * 65536 < (s.preg g).mean then (min 15 (f + 1), 0)
    else if bad.all fun g => 10 * (s.preg g).mean ≤ 495 * 65536 then
      (if r.gateLow + 1 = 10 then (max 8 (f - 1), 0) else (f, r.gateLow + 1))
    else (f, 0)

/-- GATE_UPDATE. -/
def execGateUpdate (s : State) : Res :=
  let cap := effectiveCap s
  let m := s.power.measured
  let t := s.thermal
  let (level, below) :=
    if cap < m then (min 15 (t.level + 1), 0)
    else if 100 * m ≤ 95 * cap then (if t.below + 1 = 10 then (t.level - 1, 0) else (t.level, t.below + 1))
    else (t.level, 0)
  let s := { s with thermal := { t with level := level, below := below } }
  .next { s with regions := Tbl.map (fun _ r => let (f, l) := gateF s r; { r with gateF := f, gateLow := l }) s.regions }

/-- The gate level of a tenant region. -/
def gateLevel (s : State) (r : Region) : Nat := max s.thermal.level (levelF s r)

/-- A tenant region's gate is open: in the first part of its window, which its level gives (R519, R522). -/
def gateOpen (s : State) (n : Nat) : Bool :=
  let r := s.region n
  s.thermal.state = 0 && (gateLevel s r = 0 || s.almanac.toNat < r.gateFrom + (16 - gateLevel s r) * 6250)

/-- GATE_WINDOW: a 100 µs window begins, and each gated region may open slots in its first part. -/
def execGateWindow (s : State) : Res :=
  let start := s.almanac.toNat / 100000 * 100000
  .next { s with regions := Tbl.map (fun _ r => { r with gateFrom := start }) s.regions }

/-! ## The trip, and the way back (R526, R527) -/

/-- HARDWARE_TRIP: a diode at 105 °C to 130 °C drops every rail; the rest of R525 follows with cause 3. -/
def execHardwareTrip (g : Nat) (s : State) : Res :=
  if 240 ≤ g ∨ s.thermal.state = 3 then .next s
  else
    let s := dropEnables (allDark s)
    if s.thermal.state = 2 then .next { s with thermal := { s.thermal with state := 3 } } else .next (shutDown s 3)

/-- A write to 0x4030:01. -/
def coldStartOp (s : State) (v : Nat) : OdEff :=
  let t := s.thermal
  if v ≠ 1 then (s, 4)
  else if t.sampleN.isNone ∨ t.stale ∨ t.lostTray ∨ flow100 s < 32 * s.setting 0x4020 7 60 ∨ degC 40 < t.inlet then (s, 5)
  else (orderedStart (odBump s 0x4030 1) 1, 0)
def execColdStartRequest (_w : Writer) (value : Nat) (s : State) : Res := applied s 0x4030 (coldStartOp s value)

end Sys2Proof.Machine
end

