-- ==== Sys2Proof/Machine/Admit.lean ====
section
/-!
DEFINITION. Chained prefix hashing and the lookup of an admission (R302 to R306), and admission steps 4 to 6 (R338, R340), which a swap
can hold (R339, R393).
-/
namespace Sys2Proof.Machine

/-! ## Chain hashes (R302) -/

/-- The chain hash of a block from its predecessor's and its 64 token ids. -/
def chainHash (version : Nat) (prev : Bytes) (ids : List Nat) : Bytes :=
  (sha256 (leBytes 8 version ++ prev ++ ids.flatMap fun i => leBytes 4 i)).take 16

/-- The chain hashes of the first blocks of a token sequence. -/
def chainGo (version : Nat) : Nat → Bytes → List Nat → List Bytes
  | 0, _, _ => []
  | f + 1, prev, ids =>
    let h := chainHash version prev (ids.take 64)
    h :: chainGo version f h (ids.drop 64)
def chain (version blocks : Nat) (ids : List Nat) : List Bytes := chainGo version blocks (List.replicate 16 0) ids

/-! ## Lookup (R303, R304) -/

/-- The custody session of a key: the context's while custody is on, else 0. -/
def keySession (s : State) (x : Ctx) : Nat := if custodyOn s then x.session else 0

def PfxEnt.matches (e : PfxEnt) (h : Bytes) (region adapter session : Nat) : Bool :=
  e.hash = h && e.region = region && e.adapter = adapter && e.session = session

/-- Contexts that neither look up nor publish blocks: vector input (R303), and those of a tuning job (R331). -/
def Ctx.noPrefix (x : Ctx) : Bool := x.d.vecIn || x.tune.isSome

/-- Blocks that a lookup may match: the prompt's last token is always prefilled, and so is each position that gives an output. -/
def matchLimit (x : Ctx) : Nat :=
  let len := x.prefillEnd
  let lim := if x.refill = 0 ∧ x.d.maxTokens = 0 then len / 64 else (len - 1) / 64
  if x.refill = 0 ∧ x.d.mode = 2 then min lim ((len - x.d.maxTokens) / 64) else lim

/-- Match one block: the entry is the most recently matched, and the block gains one count. -/
def matchBlock (s : State) (n c : Nat) (e : PfxEnt) : State :=
  let st := s.serving.stamp + 1
  let s := { s with serving := { s.serving with
    hits := s.serving.hits + 1, stamp := st
    index := s.serving.index.map fun f => if f = e then { f with matched := st } else f } }
  let s := s.updRegion n fun r => r.setBlk e.block { r.blk e.block with count := (r.blk e.block).count + 1 }
  s.updCtx c fun x => { x with
    blocks := x.blocks ++ [{ blk := e.block, frame := none, evict := 0, digest := [], openB := false }]
    matched := x.matched + 1, done := x.done + 64 }

/-- Look up blocks in order, stopping at the first miss. -/
def lookupGo (n c adapter session : Nat) : List Bytes → State → State
  | [], s => s
  | h :: hs, s =>
    match s.serving.index.find? fun e => e.matches h n adapter session with
    | some e => lookupGo n c adapter session hs (matchBlock s n c e)
    | none => { s with serving := { s.serving with misses := s.serving.misses + 1 } }

/-- The lookup of a context that holds no block yet. -/
def lookupPrefix (s : State) (c version : Nat) : State :=
  match s.ctx? c with
  | none => s
  | some x =>
    if x.noPrefix then s
    else lookupGo x.d.region c x.d.adapter (keySession s x) (chain version (matchLimit x) x.toks) s

/-! ## Admission steps 4 to 6 (R338, R340) -/

/-- A swap of the region holds new admissions at step 4 (R339, R393). -/
def holdsAdmissions (s : State) (n : Nat) : Bool :=
  match (s.region n).op with
  | some o => o.swap && (o.phase = .drain || o.phase = .rewrite || o.phase = .activate || o.phase = .rollback)
  | none => false

/-- The detail of a failed length check; 0 when all pass. -/
def lengthDetail (s : State) (x : Ctx) : Nat :=
  if x.promptLen = 0 then 1
  else if x.d.mode ≠ 2 ∧ maxContext s x.d.region < x.promptLen + x.d.maxTokens then 2
  else if x.d.mode = 2 ∧ x.promptLen < x.d.maxTokens then 3
  else 0

/-- An empty token prompt becomes the image's StartToken, if it has one. -/
def Ctx.started (x : Ctx) (v : ServSec) : Ctx :=
  if x.promptLen = 0 ∧ !x.d.vecIn ∧ v.startTok ≠ 0xFFFFFFFF then { x with promptLen := 1, toks := [v.startTok] } else x

/-- Steps 4 to 6 for a context that is not pinned yet. -/
def admitTail (s : State) (c : Nat) : State :=
  match s.ctx? c with
  | none => s
  | some x =>
    if x.state ≠ .queued ∨ x.pinned.isSome then s else
    match (s.region x.d.region).img with
    | none => endReq s c 7 0
    | some b =>
      let vocab := match b.img.serving with | some v => v.vocab | none => 0
      let x := match b.img.serving with | some v => x.started v | none => x
      let det := lengthDetail s x
      if x.d.version ≠ 0 ∧ x.d.version ≠ b.version then endReq s c 7 0
      else if det ≠ 0 then endReq s c 6 det
      else if x.promptBad ≠ 0 then endReq s c 6 x.promptBad
      else if !x.d.vecIn ∧ x.toks.any fun t => vocab ≤ t then endReq s c 6 4
      else
        let s := lookupPrefix (s.setCtx c { x with pinned := some b.version }) c b.version
        match s.ctx? c with
        | some x => if x.promptLen ≤ x.done then endReq s c 0 0 else s
        | none => s

/-- Contexts that wait at admission step 4 go on, in admission order. -/
def admitWaiting (s : State) (n : Nat) : State :=
  let cs := (s.serving.ctxs.filter fun e => e.2.d.region = n && e.2.state = .queued && e.2.pinned.isNone).map fun e => (e.2.adm, e.1)
  let cs := cs.foldl (fun l x => l.takeWhile (fun y => y.1 ≤ x.1) ++ x :: l.dropWhile (fun y => y.1 ≤ x.1)) []
  if holdsAdmissions s n then s else cs.foldl (fun s x => admitTail s x.2) s

end Sys2Proof.Machine
end

