-- ==== Sys2Proof/Machine/RegionCommit.lean ====
section
/-!
DEFINITION. The commit and the release of a tenant region (R250 to R252, R496, R584).
-/
namespace Sys2Proof.Machine

/-- A region as a writer's candidate values would make it. -/
def candRegion (s : State) (w : Writer) (n : Nat) : Region :=
  let i := 0x2200 + n
  { s.region n with
    nw := BitVec.ofNat 32 (candidate s w i 1), se := BitVec.ofNat 32 (candidate s w i 2), exit := candidate s w i 3
    setCap := candidate s w i 4, grant := BitVec.ofNat 8 (candidate s w i 5) }

/-- Two rectangles meet. -/
def rectsMeet (a b : W32 × W32) : Bool :=
  let c (x : W32) : Nat := x.toNat / 65536
  let r (x : W32) : Nat := x.toNat % 65536
  c a.1 ≤ c b.2 && c b.1 ≤ c a.2 && r a.1 ≤ r b.2 && r b.1 ≤ r a.2

/-- Check 1: the corners. -/
def cornersOk (r : Region) : Bool :=
  let c0 := r.nw.toNat / 65536; let r0 := r.nw.toNat % 65536
  let c1 := r.se.toNat / 65536; let r1 := r.se.toNat % 65536
  c1 ≤ 127 && r1 ≤ 149 && c0 ≤ c1 && r0 ≤ r1

/-- The other configured regions. -/
def otherRegions (s : State) (n : Nat) : List Region := (s.regions.filter fun e => e.1 ≠ n && e.2.state ≠ 0).map (·.2)

/-- Check 2: no overlap. -/
def overlapOk (s : State) (n : Nat) (r : Region) : Bool := (otherRegions s n).all fun o => !rectsMeet (r.nw, r.se) (o.nw, o.se)

/-- Check 3: corridors. -/
def corridorOk (s : State) (n : Nat) (r : Region) : Bool :=
  (otherRegions s n).all fun o =>
    (match corridor r with
     | some q => !rectsMeet q (o.nw, o.se) && (match corridor o with | some z => !rectsMeet q z | none => true)
     | none => true) &&
    (match corridor o with | some z => !rectsMeet z (r.nw, r.se) | none => true)

/-- Check 5 concerns the commit: corners or exit edge change. -/
def movesRegion (old r : Region) : Bool := old.nw ≠ r.nw || old.se ≠ r.se || old.exit ≠ r.exit

/-- Check 6: reserved bits and ranges. -/
def valuesOk (r : Region) : Bool := r.exit ≤ 4 && r.setCap ≤ 8 && r.grant.toNat ≤ 3

/-- The first check of R251 that fails; 0 when none does. -/
def commitCheck (s : State) (n : Nat) (r : Region) : Nat :=
  let old := s.region n
  if !cornersOk r then 1
  else if !overlapOk s n r then 2
  else if !corridorOk s n r then 3
  else if !routesOk (s.setRegion n { r with state := 1 }) n then 4
  else if regionBound s n && movesRegion old r then 5
  else if !valuesOk r then 6
  else 0

/-- A power region meets a candidate rectangle or its corridor (R496). -/
def regionMeets (r : Region) (g : Nat) : Bool :=
  (powerCores g).any fun c => inRect r.nw r.se c || (match corridor r with | some (a, b) => inRect a b c | none => false)

/-- The power regions that a candidate meets leave DOZE and DARK (R495, R496). -/
def wakeFor (s : State) (r : Region) : State := ((List.range 240).filter (regionMeets r)).foldl (fun s g => wakeRegion s g false) s

/-- A commit waits for the DARK regions that its candidate meets to be awake, or lost (R496). -/
def commitWaits (s : State) (r : Region) : Bool :=
  ((List.range 240).filter (regionMeets r)).any fun g =>
    let p := s.preg g
    p.state = .dark || (p.state = .waking && (match p.wake with | some w => w.fromDark | none => true))

/-- What stands for the outcome of a commit that waits: no cause of R451. -/
def commitHeld : Nat := 256

/-- Keep a commit's result (R458). -/
def setResult (s : State) (n code : Nat) : State :=
  odBump (s.updRegion n fun r => { r with result := code }) (0x2200 + n) 0x0E

/-- A write of 1 to 0x2200+n:0F: regions are woken first, and the commit waits for those in DARK; then the checks decide; without a shadow
nothing changes (R251, R452, R496). -/
def regionCommitOp (s : State) (w : Writer) (n : Nat) : OdEff :=
  match s.shadow? w (0x2200 + n) with
  | none => (s, 0)
  | some _ =>
    let r := candRegion s w n
    let s := wakeFor s r
    if commitWaits s r then (s, commitHeld) else
    let code := commitCheck s n r
    if code ≠ 0 then (setResult s n code, 7)
    else
      let old := s.region n
      let moved := movesRegion old r
      let s := s.setRegion n { r with
        state := if old.state = 2 ∧ old.nw = r.nw ∧ old.se = r.se then 2 else 1, forbidden := if moved then [] else old.forbidden }
      let s := odBump (keepRegion (setResult s n 0) n) (0x2200 + n) 0x0D
      (dropShadow s w (0x2200 + n), 0)
/-- Hold a commit until its regions are awake. -/
def holdCommit (s : State) (w : Writer) (n : Nat) (via : CommitVia) : State :=
  { s with od := { s.od with commits := s.od.commits ++ [⟨w, n, via⟩] } }

/-- REGION_COMMIT. -/
def execRegionCommit (w : Writer) (region : Nat) (s : State) : Res :=
  if 64 ≤ region ∨ entryShut s 0x2200 then .next s
  else
    let (t, c) := commitCounted (regionCommitOp s w region) (0x2200 + region)
    .next (if c = commitHeld then holdCommit t w region .row else t)

/-- A write of 2 to 0x2200+n:0F: the region is unconfigured, its sync objects lose their owner, and
its window slots, blocks and watches go (R252, R283, R312, R631). -/
def regionReleaseOp (s : State) (n : Nat) : OdEff :=
  if regionBound s n then (setResult s n 5, 7)
  else
    let s := disarmVigil s n
    let s := s.updRegion n fun r => { r with state := 0, forbidden := [], windows := [], pool := [], cursor := 0 }
    let s := { s with
      serving := { s.serving with index := s.serving.index.filter fun e => e.region ≠ n }
      observe := { s.observe with watches := Tbl.map (fun _ w => if w.region = n then { w with state := 0 } else w) s.observe.watches } }
    let s := { s with syncs := Tbl.map (fun _ o => if o.owner = some n then { o with owner := none } else o) s.syncs }
    (odBump (keepRegion (setResult s n 0) n) (0x2200 + n) 0x0D, 0)
/-- REGION_RELEASE. -/
def execRegionRelease (_w : Writer) (region : Nat) (s : State) : Res :=
  if region < 64 then applied s 0x2200 (commitCounted (regionReleaseOp s region) (0x2200 + region)) else .next s

end Sys2Proof.Machine
end

