-- ==== Sys2Proof/Machine/HostLink.lean ====
section
/-!
DEFINITION. The host links: flits, modules and sites (R410 to R418, R442, R443), the site window (R419, R420), doorbells (R422, R431),
reads of commands and their acceptance (R423 to R428, R562).
-/
namespace Sys2Proof.Machine

/-! ## Reading host memory -/

/-- Issue one read of at most a page to a site (R415). -/
def State.hostRead (s : State) (i addr len : Nat) (use : ReadUse) : State :=
  let tag := s.host.readTag
  let s := { s with host := { s.host with
    readTag := (tag + 1) % 2 ^ 32, reads := Tbl.set s.host.reads tag { site := i, len := len, use := use, data := none } } }
  s.hostSend i (.mrd tag addr len)

def State.dropRead (s : State) (tag : Nat) : State := { s with host := { s.host with reads := Tbl.del s.host.reads tag } }

/-- The engine takes commands: from the end of a start, in recovery, and for dictionary access after a shutdown (R488, R526, R537,
R540). -/
def servesHost (s : State) : Bool :=
  match s.boot.phase with
  | .complete => true
  | .recovery => true
  | .down => true
  | _ => false

/-- Commands of a queue that can be read now: up to 8, to the end of the queue and of the page, each with room for two records
(R422 to R424). -/
def readable (s : State) (q : Sq) : Nat :=
  match s.ring? q.ring with
  | none => 0
  | some r =>
    if q.failed ∨ q.tail = q.head ∨ (s.site q.site).lost then 0
    else
      let addr := q.base + 64 * q.head
      let wait := (q.tail + q.entries - q.head) % q.entries
      min (min 8 wait) (min (min (q.entries - q.head) ((4096 - addr % 4096) / 64)) ((r.free - r.reserved) / 2))

/-- Start the next read of commands, round robin over the queues, when none is under way (R423). -/
def readCommands (s : State) : State :=
  let busy := s.host.reads.any fun e => match e.2.use with | .commands _ _ _ => true | _ => false
  if busy ∨ !servesHost s then s
  else
    let qs := s.host.sqs.filter fun e => readable s e.2 ≠ 0
    match (qs.filter fun e => s.host.turn ≤ e.1) ++ qs with
    | [] => s
    | (i, q) :: _ =>
      let n := readable s q
      let s := { (s.setSq i { q with reading := n }) with host := { (s.setSq i { q with reading := n }).host with turn := i + 1 } }
      s.hostRead q.site (q.base + 64 * q.head) (64 * n) (.commands i q.head n)

/-! ## Acceptance (R425 to R428) -/

/-- The lowest handle slot that holds no outstanding command. -/
def freeHandle : Tbl Hdl → Nat → Nat
  | [], i => i
  | (k, h) :: t, i => if k < i then freeHandle t i else if k = i ∧ h.out.isSome then freeHandle t (i + 1) else i

/-- Operand fields of a command: offset and bytes (R434 and the chapters it names); none for an unknown opcode. -/
def cmdFields : Nat → Option (List (Nat × Nat))
  | 0x01 => some [(16, 2), (20, 4), (24, 8), (32, 4)]
  | 0x02 => some [(16, 2)]
  | 0x03 => some [(16, 4), (20, 1), (21, 1), (22, 2), (24, 8)]
  | 0x04 => some [(16, 4)]
  | 0x05 => some [(16, 4), (20, 4)]
  | 0x10 => some [(16, 2), (18, 1), (24, 8), (32, 4)]
  | 0x11 => some [(16, 2), (18, 1), (24, 8), (32, 4)]
  | 0x20 => some [(24, 8)]
  | 0x21 => some [(16, 4), (20, 4)]
  | 0x30 => some [(16, 1), (17, 1), (18, 1), (24, 8)]
  | 0x31 => some [(16, 1)]
  | 0x32 => some [(16, 1), (17, 1), (18, 1), (24, 8)]
  | 0x33 => some [(16, 1), (20, 4), (24, 8)]
  | 0x34 => some [(16, 1), (17, 1), (18, 1), (19, 1), (24, 8), (32, 8)]
  | 0x40 => some [(24, 8)]
  | 0x50 => some [(24, 8), (32, 8), (40, 4)]
  | 0x51 => some [(16, 4)]
  | 0x52 => some [(16, 1), (17, 1), (18, 1), (20, 4), (24, 8), (32, 8)]
  | 0x53 => some [(16, 4), (20, 4)]
  | 0x54 => some [(24, 8), (32, 4)]
  | 0x55 => some []
  | 0x56 => some [(24, 8), (32, 4), (40, 8)]
  | 0x57 => some []
  | 0x58 => some [(16, 1), (24, 8)]
  | 0x59 => some [(16, 1)]
  | 0x7F => some []
  | _ => none

/-- Reserved bytes and bits are zero; bytes 44 to 63 of a custody command are not reserved (R428, R562). -/
def reservedZero (cmd : Bytes) (fs : List (Nat × Nat)) (tagged : Bool) : Bool :=
  zeros cmd 2 2 && fieldAt cmd 1 1 ≤ 1 &&
  (List.range 48).all fun i =>
    let o := 16 + i
    (fs.any fun f => f.1 ≤ o && o < f.1 + f.2) || (tagged && 44 ≤ o) || fieldAt cmd o 1 = 0

/-- The session a command needs with custody on: 0 none, 1 any role, 2 ADMIN (R562). -/
def sessionNeed (op : Nat) (cmd : Bytes) : Nat :=
  if op = 0x10 then (if odPublic (fieldAt cmd 16 2) (fieldAt cmd 18 1) then 0 else 1)
  else if op = 0x20 ∨ op = 0x21 ∨ op = 0x40 ∨ op = 0x57 then 1
  else if op ≤ 5 ∨ op = 0x7F ∨ op = 0x50 ∨ op = 0x56 then 0
  else 2

/-- A CANCEL that names a request of another session (R562). -/
def otherRequest (s : State) (op id : Nat) (cmd : Bytes) : Bool :=
  op = 0x21 && (match s.ctx? (fieldAt cmd 16 4) with
    | some x => x.adm = fieldAt cmd 20 4 && x.session ≠ id
    | none => false)

/-- The custody checks of a command: whether it is accepted, and the state with the session's Counter, its last use and the count of
wrong Tags. -/
def custodyCheck (s : State) (op : Nat) (cmd : Bytes) : Bool × State :=
  let id := fieldAt cmd 4 4
  if !custodyOn s then (true, s)
  else if id = 0 then (sessionNeed op cmd = 0, s)
  else match s.session? id with
    | none => (false, s)
    | some x =>
      let ctr := fieldAt cmd 44 4
      if (hmac x.mac (slice cmd 0 48)).take 16 ≠ slice cmd 48 16 then
        (false, { s with boot := { s.boot with tagFails := s.boot.tagFails + 1 } })
      else if ctr < x.counter ∨ (sessionNeed op cmd = 2 ∧ !x.admin) ∨ otherRequest s op id cmd then (false, s)
      else (true, { s with boot := { s.boot with sessions := Tbl.set s.boot.sessions id { x with counter := ctr + 1, used := s.now } } })

/-- Opcodes that the engine's phase lets in (R488, R526, R540). -/
def phaseTakes (s : State) (q op : Nat) (cmd : Bytes) : Bool :=
  let coldOrder := op = 0x59 && fieldAt cmd 16 1 = 2
  match s.boot.phase with
  | .recovery => q < 4 && (op = 0x7F || op = 0x10 || op = 0x54 || coldOrder)
  | .down => op = 0x10 || op = 0x11 || (s.thermal.state ≤ 1 && (op = 0x7F || op = 0x54 || coldOrder))
  | _ => true

/-- Accept or refuse one command of a queue: the ACCEPT record, the handle and the reserved record. -/
def acceptCmd (s : State) (q idx : Nat) (cmd : Bytes) : State :=
  match s.sq? q with
  | none => s
  | some sq =>
    let op := fieldAt cmd 0 1
    let tag := fieldAt cmd 8 8
    let record (s : State) (status handle : Nat) : State :=
      s.putRecords sq.ring [record32 1 q status 0 idx handle tag s.almanac 0]
    let form : Bool := match cmdFields op with
      | some fs => reservedZero cmd fs (custodyOn s && fieldAt cmd 4 4 ≠ 0)
      | none => false
    if !form ∨ (op ≤ 5 ∧ 4 ≤ q) ∨ !phaseTakes s q op cmd then record s 5 0xFFFFFFFF
    else
      let (ok, s) := custodyCheck s op cmd
      if !ok then record s 5 0xFFFFFFFF
      else
        let h := freeHandle s.host.handles 0
        if 65536 ≤ h then record s 4 0xFFFFFFFF
        else
          let gen := (s.hdl h).gen % 65535 + 1
          let o : HOut := { queue := q, index := idx, tag := BitVec.ofNat 64 tag, cmd := cmd, session := fieldAt cmd 4 4,
                            since := s.now, running := false, left := 0, tags := [], num := s.host.accN }
          let s := s.setHdl h { gen := gen, out := some o }
          let s := { s with host := { s.host with accN := s.host.accN + 1 } }
          let s := record s 0 (handleWord h gen)
          match s.ring? sq.ring with
          | some r => s.setRing sq.ring { r with reserved := r.reserved + 1 }
          | none => s

/-- Accept the commands of a read in queue order, stopping if the queue has failed. -/
def acceptGo : Nat → State → Nat → Bytes → State
  | 0, s, _, _ => s
  | n + 1, s, q, b =>
    match s.sq? q with
    | none => s
    | some x =>
      if x.failed then s
      else
        let s := s.setSq q { x with head := (x.head + 1) % x.entries, reading := x.reading - 1 }
        acceptGo n (acceptCmd s q x.head (slice b 0 64)) q (b.drop 64)

/-- A queue fails: the engine stops reading it and posts event 3 (R422). -/
def failQueue (s : State) (q tail : Nat) : State :=
  match s.sq? q with
  | some x => (s.setSq q { x with failed := true, reading := 0 }).postEvent 3 0 tail q
  | none => s

/-! ## Class 1 reads (R439, R441) -/

/-- The edge hub where a core's interface traffic enters and leaves (R245). -/
def hubOf (s : State) (c : Nat) : Nat :=
  match ownerOf s c with | some n => (exitRouter (s.region n).exit c).getD c | none => c

/-- An interface packet toward a core (R441); Length 0 carries a Status. -/
def ifaceIn (s : State) (c q pos cls status : Nat) (data : List Bytes) : State :=
  let r := (ownerOf s c).getD 64
  let hub := hubOf s c
  placeAt s hub { blankPacket 0xC r c hub with
    tag := reqTag q pos, cls := cls, body := BitVec.ofNat 128 status, length := 2 * data.length, payload := data.flatten } false

/-- A class 1 request of a core has failed at the hub: its other reads deliver nothing more. -/
def class1Fail (s : State) (c q req status : Nat) : State :=
  let mine (u : ReadUse) : Bool := match u with | .class1 c' q' r' _ _ _ _ => c' = c && q' = q && r' = req | _ => false
  let s := { s with host := { s.host with reads := Tbl.map (fun _ r => if mine r.use then { r with use := .spare } else r) s.host.reads } }
  ifaceIn s c q req 1 status []

/-- Packets of a delivered page, at most 32 lines each. -/
def deliverPage (s : State) (c q req : Nat) (b : Bytes) : State :=
  (chunks 2048 b).foldl (fun s d => ifaceIn s c q req 1 0 (chunks 64 d)) s

/-- Deliver the pages of a request that have come, in address order (R441). -/
def deliverGo : Nat → State → Nat → Nat → Nat → State
  | 0, s, _, _, _ => s
  | f + 1, s, c, q, req =>
    let mine := s.host.reads.filterMap fun e => match e.2.use with
      | .class1 c' q' r' _ _ i _ => if c' = c ∧ q' = q ∧ r' = req then some (i, e.1, e.2.data) else none
      | _ => none
    let first := mine.foldl (fun b e => match b with
      | none => some e
      | some (x : Nat × Nat × Option Bytes) => if e.1 < x.1 then some e else some x) none
    match first with
    | some (_, tag, some d) => deliverGo f (tagEnded ((deliverPage s c q req d).dropRead tag) tag) c q req
    | _ => s

/-! ## Modules and sites -/

/-- The messages a module holds, unacknowledged ones first. -/
def Mod.held (x : Mod) : List HMsg := x.unacked.map (·.2) ++ x.waiting
def Mod.emptied (x : Mod) : Mod := { x with unacked := [], flits := [], waiting := [], owePosted := 0, oweRead := 0 }

/-- A site is lost (R443); its modules go on retraining until RetrainLimit (R442). -/
def loseSite (s : State) (i : Nat) : State :=
  let t := s.site i
  if t.lost then s
  else
    let t := (t.setMod 0 { (t.mod 0).emptied with up := false }).setMod 1 { (t.mod 1).emptied with up := false }
    let s := s.setSite i { t with lost := true }
    let cmds (r : RdOut) : Bool := r.site = i && (match r.use with | .commands _ _ _ => true | _ => false)
    let s := { s with host := { s.host with
      sqs := Tbl.map (fun _ q => if q.site = i then { q with failed := true, head := q.tail, reading := 0 } else q) s.host.sqs
      reads := s.host.reads.filter fun e => !cmds e.2 } }
    let onSite (r : Nat) : Bool := match s.ring? r with | some g => g.site = i | none => false
    let cs := (s.serving.ctxs.filter fun e => e.2.tune.isNone && e.2.state ≠ .ended &&
      ((match s.sq? e.2.queue with | some q => q.site = i | none => e.2.site = i) || onSite e.2.d.ring)).map (·.1)
    let s := endReqs s cs 4 i
    let gone := s.host.reads.filter fun e => e.2.site = i
    -- each request completes once, with the first of its pages
    let s := gone.foldl (fun s e =>
      let s := match (Tbl.find s.host.reads e.1).map (·.use) with
        | some (.class1 c q req _ _ _ _) => class1Fail s c q req 3
        | _ => s
      tagEnded (s.dropRead e.1) e.1) s
    s.postEvent 1 0 0 i

/-- A module goes down: what it has not had acknowledged goes on the other module of its site, before anything later (R418); retraining
begins (R442). -/
def modDown (s : State) (i m : Nat) : State :=
  let t := s.site i
  let x := t.mod m
  let o := t.mod (1 - m)
  let y := { x with up := false, training := true, down := true, downAt := s.now, l1 := false }
  if o.down then loseSite (s.setSite i (t.setMod m y)) i
  else if o.up then
    (s.setSite i ((t.setMod m y.emptied).setMod (1 - m) { o with waiting := x.held ++ o.waiting })).drainMod i (1 - m)
  else s.setSite i (t.setMod m y)

/-- A protocol error: counted, and the module retrains (R416); what it has not had acknowledged goes on the other module, if that is up (R418). -/
def protocolError (s : State) (i m : Nat) : State :=
  let t := s.site i
  let x := t.mod m
  let o := t.mod (1 - m)
  let y := { x with up := false, training := true, downAt := s.now, l1 := false }
  if o.up then
    (s.setSite i { (t.setMod m y.emptied).setMod (1 - m) { o with waiting := x.held ++ o.waiting } with protErrs := t.protErrs + 1 }).drainMod i (1 - m)
  else s.setSite i { t.setMod m y with protErrs := t.protErrs + 1 }

/-- Resend every flit after the last acknowledged one, in order (R412). -/
def replayMod (s : State) (i m : Nat) : State :=
  let t := s.site i
  let x := t.mod m
  let s := s.setSite i { t with replayed := t.replayed + x.flits.length }
  { s with out := s.out ++ x.flits.map fun f => Out.hostFlit i m (flitBytes (f.header x) f.body) }

/-- A Seq that an Ack does not cover. -/
def afterAck (ack seq : Nat) : Bool := 2048 ≤ (ack + 4096 - seq) % 4096
/-- Release the flits up to an acknowledged Seq, and the messages that end in them. -/
def Mod.released (x : Mod) (ack now : Nat) : Mod :=
  let l := x.flits.filter fun f => afterAck ack f.seq
  { x with unacked := x.unacked.filter fun e => afterAck ack e.1, flits := l
           heldFrom := if l.length < x.flits.length then now else x.heldFrom }

/-- The acknowledgement, replay request and credits a flit carries. -/
def takeFlit (s : State) (i m : Nat) (h : FlitHdr) : State :=
  let x := (s.site i).mod m
  let x := if h.ackValid then x.released h.ack s.now else x
  let s := s.setMod i m { x with posted := x.posted + h.posted, readCr := x.readCr + h.read }
  (if h.nak then replayMod s i m else s).drainMod i m

/-- FLIT: accepted in sequence with its CRC right, and acknowledged, or discarded, counted and answered with Nak (R411, R412).  The messages in its
body are commands of their own. -/
def execFlit (site module : Nat) (flit : Bytes) (s : State) : Res :=
  let hdr := flitHdrOf flit
  let t := s.site site
  let x := t.mod module
  if 4 ≤ site ∨ 2 ≤ module ∨ !x.up then .next s
  else if hdr.crcOk ∧ hdr.kind = 0 then .next (takeFlit s site module hdr)
  else if hdr.crcOk ∧ hdr.kind ≤ 2 ∧ hdr.seq = (x.rxSeq + 1) % 4096 then
    .next ((takeFlit (s.setMod site module { x with rxSeq := hdr.seq, lastUse := s.now, l1 := false }) site module hdr).sendIdle site module false)
  else .next ((s.setSite site { t with flitErrs := t.flitErrs + 1 }).sendIdle site module true)

/-- A module is up with its partner's grants: Seq restarts, and what was not acknowledged goes again (R413, R418). -/
def modUp (s : State) (i m rate width posted read : Nat) : State :=
  let t := s.site i
  let x := t.mod m
  let o := t.mod (1 - m)
  let lift := !o.up
  let y : Mod := { x with
    up := true, training := false, failed := false, down := false, rate := rate, width := width, txSeq := 0, rxSeq := 0
    unacked := [], flits := [controlFlit i m s.now], waiting := x.held ++ (if lift then o.held else []), posted := posted, readCr := read, owePosted := 0, oweRead := 0, heldFrom := s.now
    lastUse := s.now, l1 := false }
  let s := s.setSite i ((t.setMod (1 - m) (if lift then o.emptied else o)).setMod m y)
  readCommands ((s.emit (.hostFlit i m (flitBytes ((controlFlit i m s.now).header y) (controlBody i m)))).drainMod i m)

/-- LINK_TRAINED: a module has trained and exchanged its control flit (R408, R409, R413). -/
def execLinkTrained (site module rate width posted read : Nat) (s : State) : Res :=
  let t := s.site site
  if 4 ≤ site ∨ 2 ≤ module ∨ !t.populated ∨ t.lost ∨ !(t.mod module).training ∨ !(rate = 8 ∨ rate = 16 ∨ rate = 32) ∨
      !(width = 8 ∨ width = 16) ∨ s.boot.phase = .off then .next s
  else .next (modUp s site module rate width posted read)

/-- MODULE_DOWN: UCIe reports the link down, or the module has held unacknowledged flits for longer than LinkTimeout (R442). -/
def execModuleDown (port : HostPort) (reported : Bool) (s : State) : Res :=
  let site := port.site
  let module := port.module
  let x := (s.site site).mod module
  let late : Bool := !x.flits.isEmpty && s.passed x.heldFrom (1000 * s.setting 0x1100 1 10000 + 1)
  if site < 4 ∧ module < 2 ∧ x.up ∧ (reported ∨ late) then .next (modDown s site module) else .next s

/-- RETRAIN_TIMEOUT: the module stays down and event 2 is posted; with both down the site is lost (R442). -/
def execRetrainTimeout (site module : Nat) (s : State) : Res :=
  let t := s.site site
  let x := t.mod module
  if site < 4 ∧ module < 2 ∧ t.populated ∧ x.training ∧ s.passed x.downAt (1000000 * s.setting 0x1100 2 100) then
    let s := (s.setMod site module { x with training := false, failed := true, down := true }).postEvent 2 0 module site
    .next (if (t.mod (1 - module)).down then loseSite s site else s)
  else .next s

/-- LINK_L1_ENTRY: L1 after 100 µs without traffic (R408). -/
def execLinkL1Entry (site module : Nat) (s : State) : Res :=
  let x := (s.site site).mod module
  if site < 4 ∧ module < 2 ∧ x.up ∧ x.unacked.isEmpty ∧ s.passed x.lastUse 100000 then .next (s.setMod site module { x with l1 := true })
  else .next s

/-! ## Completions of reads -/

/-- A module that can deliver a message. -/
def delivers (s : State) (i m : Nat) : Bool := i < 4 && m < 2 && ((s.site i).mod m).up

/-- The bytes that a class 1 read brings to a core: under custody they are deciphered under the region's key (R567). -/
def class1Plain (s : State) (c slot off : Nat) (data : Bytes) : Bytes :=
  if custodyOn s then
    match ownerOf s c with
    | some g =>
      let key := hkdf [] ((s.region g).keyAct.getD []) (ascii "stream") 32
      Config.ctr key (leBytes 1 0x53 ++ leBytes 1 slot ++ leBytes 2 0 ++ leBytes 8 (off / 16) ++ leBytes 4 0) data
    | none => data
  else data
/-- A page of a class 1 read has come. -/
def State.pageCome (s : State) (tag : Nat) (r : RdOut) (b : Bytes) : State :=
  { s with host := { s.host with reads := Tbl.set s.host.reads tag { r with data := some b } } }

/-- MRD_CPL: the bytes of an outstanding read; another Op, a reserved bit, or a Tag or length that matches no read is a protocol error (R415, R416,
R441). -/
def execMrdCpl (site module : Nat) (hdr : BitVec 128) (data : Bytes) (s : State) : Res :=
  let tag := hdrTag hdr
  if !delivers s site module then .next s
  else match if hdrGood 4 hdr then Tbl.find s.host.reads tag else none with
    | none => .next (protocolError s site module)
    | some r =>
      if r.site ≠ site ∨ r.len ≠ data.length ∨ hdrBytes hdr ≠ data.length ∨ r.data.isSome then .next (protocolError s site module)
      else match r.use with
        | .spare => .next (tagEnded (s.dropRead tag) tag)
        | .commands q first n =>
          let s := s.dropRead tag
          match s.sq? q with
          | some x => .next (readCommands (if x.reading = n ∧ x.head = first then acceptGo n s q data else s))
          | none => .next (readCommands s)
        | .class1 c q req slot off _ _ =>
          let s := s.pageCome tag r (class1Plain s c slot off data)
          .next (deliverGo (s.host.reads.length + 1) s c q req)

/-- MRD_ERR: a refused read of commands fails the queue; a class 1 read completes with Status 2 (R415, R441). -/
def execMrdErr (site module : Nat) (head addr : W64) (s : State) : Res :=
  let hdr := headerOf head addr
  let tag := hdrTag hdr
  let status := hdrStatus hdr
  if !delivers s site module then .next s
  else match if hdrGood 5 hdr then Tbl.find s.host.reads tag else none with
    | none => .next (protocolError s site module)
    | some r =>
      if r.site ≠ site ∨ r.data.isSome ∨ !(status = 1 ∨ status = 2) then .next (protocolError s site module)
      else
        let s := s.dropRead tag
        match r.use with
        | .spare => .next (tagEnded s tag)
        | .commands q _ _ =>
          let tail := match s.sq? q with | some x => x.tail | none => 0
          .next (readCommands (failQueue s q tail))
        | .class1 c q req _ _ _ _ => .next (tagEnded (class1Fail s c q req 2) tag)

/-! ## The site window (R419, R420) -/

/-- EWR: the four registers that AdminCommit takes; a read-only or reserved offset is ignored, and a header that breaks R414 or another length than
8 bytes is a protocol error (R414, R416, R419). -/
def execEwr (site module : Nat) (hdr : BitVec 128) (value : W64) (s : State) : Res :=
  if !delivers s site module then .next s
  else if !hdrGood 6 hdr ∨ hdrBytes hdr ≠ 8 then .next (protocolError s site module)
  else
    let s := s.hostTook site module 2 0
    let t := s.site site
    match hdrAddr hdr with
    | 0x08 => .next (s.setSite site { t with base := value })
    | 0x10 => .next (s.setSite site { t with entries := value })
    | 0x18 => .next (s.setSite site { t with ringBase := value })
    | 0x20 => .next (s.setSite site { t with ringLog := value })
    | _ => .next s

/-- SiteStatus. -/
def siteStatus (s : State) (i : Nat) : Nat :=
  let t := s.site i
  boolBit t.up 0 + boolBit (t.mod 0).up 1 + boolBit (t.mod 1).up 2 + boolBit (servesHost s) 3 + 16 * i

/-- The value an ERD returns; a write-only or reserved offset reads as 0. -/
def windowReg (s : State) (i offset : Nat) : W64 :=
  let t := s.site i
  match offset with
  | 0x00 => BitVec.ofNat 64 (siteStatus s i)
  | 0x08 => t.base
  | 0x10 => t.entries
  | 0x18 => t.ringBase
  | 0x20 => t.ringLog
  | 0x30 => t.result
  | _ => 0

/-- ERD: answered with ERD_CPL on the module it came by (R414, R419). -/
def execErd (site module : Nat) (head addr : W64) (s : State) : Res :=
  let hdr := headerOf head addr
  if !delivers s site module then .next s
  else if !hdrGood 7 hdr ∨ hdrBytes hdr ≠ 8 then .next (protocolError s site module)
  else
    let s := s.hostTook site module 0 1
    let x := (s.site site).mod module
    .next ((s.setMod site module { x with waiting := x.waiting ++ [.erdCpl (hdrTag hdr) (windowReg s site (hdrAddr hdr))] }).drainMod site module)

/-- SQ_DOORBELL: the later tail stands; a tail of 0x1_0000 or more, or not below Entries, fails the queue (R422, which gives the bits above the
tail this meaning). -/
def execSqDoorbell (port : HostPort) (queue : Nat) (value : W64) (s : State) : Res :=
  let site := port.site
  let module := port.module
  if !delivers s site module then .next s else
  let s := s.hostTook site module 2 0
  match s.sq? queue with
  | none => .next s
  | some q =>
    let tail := value.toNat
    if q.site ≠ site ∨ q.failed then .next s
    else if q.entries ≤ tail then .next (failQueue s queue tail)
    else .next (readCommands (s.setSq queue { q with tail := tail }))

/-- RING_DOORBELL: space returns to a ring; a read index out of range is ignored and told, a free descriptor is counted (R431,
R365). -/
def execRingDoorbell (port : HostPort) (value : W64) (s : State) : Res :=
  let site := port.site
  let module := port.module
  if !delivers s site module then .next s
  else
    let s := s.hostTook site module 2 0
    let id := bits value.toNat 18 0
    let idx := bits value.toNat 63 32
    match s.ring? id with
    | none => .next { s with host := { s.host with stray := (s.host.stray + 1) % 2 ^ 32 } }
    | some r =>
      let ahead := (idx + 2 ^ 32 - r.readIdx) % 2 ^ 32
      if (r.written + 2 ^ 32 - r.readIdx) % 2 ^ 32 < ahead then .next (s.postEvent 10 0 idx id)
      else .next (readCommands (creditsBack (s.setRing id { r with readIdx := idx }) id))

/-- The admin queue has commands outstanding, or its ring holds records unread (R420). -/
def adminBusy (s : State) (i : Nat) : Bool :=
  (s.host.handles.any fun e => match e.2.out with | some o => o.queue = i | none => false) ||
  (match s.ring? (524284 + i) with | some r => r.written ≠ r.readIdx | none => false)

def isPow2 (n : Nat) : Bool := n ≠ 0 && 2 ^ n.log2 = n

/-- ADMIN_COMMIT: the four registers act together, or AdminResult says why not (R419, R420, R440). -/
def execAdminCommit (port : HostPort) (s : State) : Res :=
  let site := port.site
  let module := port.module
  if !delivers s site module then .next s
  else
    let s := s.hostTook site module 2 0
    let t := s.site site
    let n := t.entries.toNat
    let k := t.ringLog.toNat
    if t.base.toNat % 4096 ≠ 0 ∨ t.ringBase.toNat % 4096 ≠ 0 ∨ !isPow2 n ∨ n < 2 ∨ 4096 < n ∨ k < 2 ∨ 16 < k then
      .next (s.setSite site { t with result := 1 })
    else if adminBusy s site then .next (s.setSite site { t with result := 2 })
    else
      let s := s.setSite site { t with result := 0 }
      let s := s.setRing (524284 + site) { site := site, kind := 1, log2 := k, vector := none, base := t.ringBase.toNat, written := 0,
                                           readIdx := 0, reserved := 0, mask := 0, drops := 0, lastIrq := none, irqHeld := false }
      .next (s.setSq site { site := site, ring := 524284 + site, base := t.base.toNat, entries := n, head := 0, tail := 0, reading := 0,
                            failed := false })

/-- ADMIN_RELEASE: the admin queue and its ring go, unless they are in use (R420). -/
def execAdminRelease (port : HostPort) (s : State) : Res :=
  let site := port.site
  let module := port.module
  if !delivers s site module then .next s else
  let s := s.hostTook site module 2 0
  let t := s.site site
  if adminBusy s site then .next (s.setSite site { t with result := 2 })
  else
    let s := s.setSite site { t with result := 0 }
    .next { s with host := { s.host with sqs := Tbl.del s.host.sqs site, rings := Tbl.del s.host.rings (524284 + site) } }

/-- A write of 1 to 0x1110+s:08: a lost site's modules are retrained (R442, R444). -/
def restoreSiteOp (s : State) (i v : Nat) : OdEff :=
  if v ≠ 1 then (s, 4)
  else
    let t := s.site i
    let back (x : Mod) : Mod := if x.up then x else { x with training := true, failed := false, down := false, downAt := s.now }
    let s := if t.populated then s.setSite i { (t.setMod 0 (back (t.mod 0))).setMod 1 (back (t.mod 1)) with lost := false } else s
    (odBump s (0x1110 + i) 8, 0)
/-- RESTORE. -/
def execRestore (_w : Writer) (site value : Nat) (s : State) : Res := if site < 4 then applied s 0x1110 (restoreSiteOp s site value) else .next s

/-- IRQ_INTERVAL_EXPIRY: an interrupt held back by IrqInterval is sent (R432). -/
def execIrqIntervalExpiry (ring : Nat) (s : State) : Res :=
  match s.ring? ring with
  | some r =>
    if r.irqHeld ∧ s.irqDue r then
      match r.vector with
      | some v => .next ((s.hostSend r.site (.irq v)).setRing ring { r with lastIrq := some s.now, irqHeld := false })
      | none => .next s
    else .next s
  | none => .next s

end Sys2Proof.Machine
end

