-- ==== Sys2Proof/Machine/Iface.lean ====
section
/-!
DEFINITION. Interface packets at the edge hubs and at their cores: class 1 requests to the host tier (R246, R284, R285, R441) and class 2
writes to and from peer engines (R596, R601, R603).
-/
namespace Sys2Proof.Machine

/-! ## Class 1 -/

/-- Pages of a byte range: first line, offset, bytes (R285). -/
def pagesGo : Nat → Nat → Nat → Nat → List (Nat × Nat × Nat)
  | 0, _, _, _ => []
  | f + 1, i, off, n =>
    if n = 0 then []
    else
      let k := min n (4096 - off % 4096)
      (i, off, k) :: pagesGo f (i + k / 64) (off + k) (n - k)
def pagesOf (off n : Nat) : List (Nat × Nat × Nat) := pagesGo (n / 4096 + 2) 0 off n

/-- The status of a class 1 transfer under a slot record: 2 refused (R284, R567), 3 a page's site is lost (R443), else 0. -/
def recordStatus (s : State) (r : Option Window) (off op lines : Nat) : Nat :=
  match r with
  | none => 2
  | some w =>
    if !(if op = 1 then w.read else w.write && !custodyOn s) ∨ off % 64 ≠ 0 ∨ w.size < off + 64 * lines then 2
    else if (pagesOf off (64 * lines)).any fun p => match pageSite w (p.2.1 / 4096) with
      | some i => (s.site i).lost
      | none => true then 3
    else 0

/-- The status of a class 1 transfer under the record that stands in its slot. -/
def class1Status (s : State) (n addr op lines : Nat) : Nat :=
  recordStatus s (Tbl.find (s.region n).windows (addr / 2 ^ 60)) (addr % 2 ^ 60) op lines

/-- Lines of a class 1 write have been sent to the host; the last ones complete it with its first non-zero Status. -/
def class1Written (s : State) (c q req lines status : Nat) : State :=
  match (s.core c).await? q req with
  | none => s
  | some a =>
    let st := if a.status = 0 then status else a.status
    let s := s.updCore c fun k => k.putAwait { a with left := a.left - lines, status := st }
    if a.left ≤ lines then ifaceIn s c q req 1 st [] else s

/-- A class 1 write packet at its hub: the first one fixes the slot record and R284's verdict for the whole request, and each one's lines
go to the host by that record (R284, R439, R441). -/
def class1Part (s : State) (p : Packet) : State :=
  let c := p.src
  let q := tagQueue p.tag
  let req := tagPos p.tag
  let addr := bits p.body.toNat 127 64
  let off := addr % 2 ^ 60
  let lines := p.length / 2
  let key := hubKey c q req
  let h := match Tbl.find s.host.writes key with
    | some h => h
    | none =>
      let r := Tbl.find (s.region p.region).windows (addr / 2 ^ 60)
      { slot := addr / 2 ^ 60, win := r, refused := recordStatus s r off 2 p.reqLines = 2, left := p.reqLines }
  let st := if h.refused then 2 else recordStatus s h.win off 2 lines
  let s := match h.win with
    | some w => if st = 0 then winWrite s w off p.payload else s
    | none => s
  let s := class1Written s c q req lines st
  if h.left ≤ lines then hubDone s key
  else { s with host := { s.host with writes := Tbl.set s.host.writes key { h with left := h.left - lines } } }

/-- An earlier packet of the same class 1 write is still on its way: the hub takes them in address order. -/
def earlierPart (s : State) (p : Packet) : Bool :=
  p.cls ≠ 2 && s.mesh.any fun f => f.pkt.op = 0xB && f.pkt.cls ≠ 2 && f.pkt.src = p.src && f.pkt.tag = p.tag &&
    bits f.pkt.body.toNat 127 64 < bits p.body.toNat 127 64

/-- A class 1 packet at its hub. -/
def class1Out (s : State) (p : Packet) : State :=
  let c := p.src
  let q := tagQueue p.tag
  let req := tagPos p.tag
  let addr := bits p.body.toNat 127 64
  let off := addr % 2 ^ 60
  if bits p.body.toNat 63 56 ≠ 1 then class1Part s p
  else
    let st := class1Status s p.region addr 1 p.reqLines
    match Tbl.find (s.region p.region).windows (addr / 2 ^ 60) with
    | none => class1Fail s c q req 2
    | some w =>
      if st ≠ 0 then class1Fail s c q req st
      else (pagesOf off (64 * p.reqLines)).foldl (fun s x =>
        match pageSite w (x.2.1 / 4096) with
        | some i => s.hostRead i (w.base + x.2.1) x.2.2 (.class1 c q req (addr / 2 ^ 60) x.2.1 x.1 (x.2.2 / 64))
        | none => s) s

/-! ## Class 2 -/

/-- The wait of a class 2 request at the hub, one WACK less; the last one completes the request (R603). -/
def class2Done (s : State) (c q req status : Nat) : State :=
  match s.fabric.waits.find? fun w => w.core = c && w.q = q && w.req = req with
  | none => s
  | some w =>
    let st := if w.status = 0 then status else w.status
    let rest := s.fabric.waits.filter fun x => !(x.core = c && x.q = q && x.req = req)
    if w.left ≤ 1 then ifaceIn { s with fabric := { s.fabric with waits := rest } } c q req 2 st []
    else { s with fabric := { s.fabric with waits := rest ++ [{ w with left := w.left - 1, status := st }] } }

/-- A class 2 packet at its hub: one DATA frame on the core's port toward the peer, or Status 5 when none reaches it (R601, R603). -/
def class2Out (s : State) (p : Packet) : State :=
  let c := p.src
  let q := tagQueue p.tag
  let req := tagPos p.tag
  let peer := bits p.body.toNat 127 113
  let known := s.fabric.waits.any fun w => w.core = c && w.q = q && w.req = req
  let s := if known then s else
    { s with fabric := { s.fabric with waits := s.fabric.waits ++ [⟨c, q, req, peer, (p.reqLines + 30) / 31, 0⟩] } }
  let ports := portsTo s peer
  match ports[c % max 1 ports.length]?, (s.region p.region).img with
  | some port, some b =>
    let f := { blankFrame s 1 1 peer with
      version := if b.active then b.version else 0, srcStage := b.img.stage
      destStage := (firstIdx (· = peer) b.stageTab).getD 255
      specific := BitVec.ofNat 80 p.body.toNat, payload := p.payload }
    s.putFrame port peer f
  | _, _ => class2Done s c q req 5

/-- IFACE_OUT: the edge hub accepts a packet whose region is granted its class, and issues host or fabric traffic (R246).  DESIGN CHOICE: a discard
counts in counter 6 of the exit router; R246 has it counted and names no counter. -/
def execIfaceOut (flight : Nat) (s : State) : Res :=
  match s.mesh[flight]? with
  | none => .next s
  | some x =>
    if earlierPart s x.pkt then .next s
    else .next (arrive s flight 0xB fun s loc p =>
      let r := s.region p.region
      let granted := if p.cls = 2 then r.grant.getLsbD 1 else r.grant.getLsbD 0
      if 64 ≤ p.region ∨ !granted ∨ exitRouter r.exit p.src ≠ some loc then discardFault s loc p
      else if p.cls = 2 then class2Out s p else class1Out s p)

/-! ## Arrival at a core -/

/-- The fields a DATA frame leaves in the body of its IFACE_IN packet beside Specific: the peer, its stage and the port. -/
def dataBody (f : FFrame) (port : Nat) : BitVec 128 :=
  BitVec.ofNat 128 (f.srcEngine % 2 ^ 15 * 2 ^ 113 + f.srcStage % 256 * 2 ^ 86 + port % 64 * 2 ^ 80 + f.specific.toNat)

/-- The WACK of a frame (R596). -/
def wackFor (s : State) (port peer version dstStage srcStage specific status lines : Nat) : State :=
  s.putFrame port peer { blankFrame s 2 0 peer with
    version := version, destStage := dstStage, srcStage := srcStage
    specific := BitVec.ofNat 80 (status % 256 * 2 ^ 72 + bits specific 31 8 * 2 ^ 48 + lines % 65536 * 2 ^ 32 + specific % 256) }

/-- The walk that data lines i onward of a DATA frame take. -/
def walkSlice (w : Walk) (i n : Nat) : List (Int × Nat) := (w.lines.drop i).take n

/-- Data of a peer's class 2 write lands at its home core: the lines, the mapped sync object, the WACK (R603). -/
def landData (s : State) (c : Nat) (p : Packet) : State :=
  let v := p.body.toNat
  let data := (chunks 64 p.payload).drop 1
  let w := walkOf (BitVec.ofNat 128 (fieldAt p.payload 0 16))
  let bad := homeRefuses s c
  let ls := (walkSlice w (bits v 47 32) data.length).zip data
  let s := if bad then s else s.updCore c fun k => ls.foldl (fun k x => k.writeLine x.1.1.toNat x.1.2 x.2) k
  match (s.region p.region).img with
  | none => s
  | some b =>
    let s := if bad ∨ !bitAt v 63 then s else applySignal s c (some p.region) (nth b.syncIdx (bits v 62 48) 0) 1
    wackFor s (bits v 85 80) (bits v 127 113) (if b.active then b.version else 0) (bits v 93 86) b.img.stage (v % 2 ^ 80)
      (if bad then 1 else 0) (if bad then 0 else data.length)

/-- An earlier DATA frame of the same peer channel has not landed yet: frames apply in Seq order (R603). -/
def earlierData (s : State) (p : Packet) : Bool :=
  s.mesh.any fun f => f.pkt.op = 0xC && f.pkt.cls = 2 && f.pkt.length ≠ 0 && bits f.pkt.body.toNat 127 113 = bits p.body.toNat 127 113 &&
    bits f.pkt.body.toNat 85 80 = bits p.body.toNat 85 80 && (let d := (p.id + 65536 - f.pkt.id) % 65536; 1 ≤ d && d < 32768)

/-- IFACE_IN: read data lands in the reserved entries or the local walk, a completion ends its request, a peer's data is written (R189,
R441, R603). -/
def execIfaceIn (flight : Nat) (s : State) : Res :=
  match s.mesh[flight]? with
  | none => .next s
  | some x =>
    if x.pkt.cls = 2 ∧ x.pkt.length ≠ 0 ∧ earlierData s x.pkt then .next s
    else .next (arrive s flight 0xC fun s c p =>
      if p.length ≠ 0 ∧ p.cls = 2 then landData s c p
      else match (s.core c).await? (tagQueue p.tag) (tagPos p.tag) with
        | none => s
        | some a =>
          if p.length = 0 then settle (complete s c a p.body.toNat) c else settle (landLines s c a (chunks 64 p.payload)) c)

end Sys2Proof.Machine
end

