-- ==== Sys2Proof/Machine/Wear.lean ====
section
/-!
DEFINITION. Worn columns, spares and retirement (R120 to R124), the image that stops (R405), the programming budget (R389) and the
programming of one array (R383, R384, R120).
-/
namespace Sys2Proof.Machine

/-! ## Images that stop (R405) -/

/-- The image of a region stops: it is deactivated and every request ends VERSION_GONE; event 7 names the core and the array. -/
def stopImage (s : State) (n c a : Nat) : State :=
  let s := s.updRegion n fun r => { r with img := r.img.map fun b => { b with active := false, stopped := true } }
  let s := endReqs s (liveOf s n) 7 0
  let s := ((s.serving.jobs.filter fun j => j.region = n).map (·.handle)).foldl (fun s h => endJob s h 5 15) s
  s.postEvent 7 4 n (coreArray c a)

/-! ## Retirement (R104, R123, R124, R404) -/

/-- The region and the virtual core whose tile an array holds, or has been given by a running relocation. -/
def tileOwner (s : State) (c a : Nat) : Option (Nat × Nat) :=
  match ownerOf s c, ((s.core c).arr a).tile with
  | some n, some _ => (holderOf s n c).map fun v => (n, v)
  | _, _ => none

/-- An array is retired: 1 for wear, 2 by sentinel.  A bound tile on it moves, or its image stops; a swap under way fails with detail 17
(R386, R397).  DESIGN CHOICE: a pending sample of the array is given up, so that the set's later evaluations are sampled again. -/
def retireArray (s : State) (c a cause : Nat) : State :=
  let owner := tileOwner s c a
  let s := s.updCore c fun k =>
    let k := k.setArr a { k.arr a with state := cause, subst := [], worn := [], repair := [] }
    let t := k.set (a / 4)
    k.setSet (a / 4) { t with
      tasks := t.tasks.filter fun x => x.array ≠ a
      sample := match t.sample with | some m => if m.array = a then none else some m | none => none }
  let s := { s with upkeep := { s.upkeep with warnings := s.upkeep.warnings ||| 8 } }
  match owner with
  | none => s
  | some (n, v) =>
    let r := s.region n
    match r.img with
    | none => s
    | some b =>
      let inSwap : Bool := match r.op with | some o => o.swap | none => false
      let s := if inSwap then
          s.updRegion n fun r => { r with op := r.op.map fun o => if o.failed.isNone then { o with failed := some (4, 17, coreArray c a) } else o }
        else s
      if !b.bound then s
      else if s.setting 0x2010 1 1 = 0 then (if inSwap then s else stopImage s n c a)
      else
        let fits : Bool := match b.img.cores[v]? with | some e => (fitOn (s.core c) e.arrays).isSome | none => false
        s.updRegion n fun r => r.queueReloc ([v], if fits then [] else [c], none) [c]

/-! ## Worn columns (R121 to R123) -/

/-- Event count of a column. -/
def Arr.events (a : Arr) (j : Nat) : Nat := a.fullWrites + Tbl.get a.colEvents 0 j
/-- As many spares are left. -/
def Arr.sparesLeft (a : Arr) (n : Nat) : Bool := a.sparesUsed + a.worn.length + n ≤ 16

/-- The columns that are worn and served together: one, or the pair of a W8 weight column (R97, R122). -/
def Arr.wearUnit (x : Arr) (j : Nat) : List Nat := if x.format = 5 then [j / 2 * 2, j / 2 * 2 + 1] else [j]

/-- The response to a worn column, with its partner in a W8 array; lv gives the levels of a column at detection (R123). -/
def wornColumn (s : State) (c a j : Nat) (lv : Nat → List Nat) : State :=
  let k := s.core c
  let x := k.arr a
  let unit := (x.wearUnit j).filter fun i => (Tbl.find x.worn i).isNone && (Tbl.find x.subst i).isNone
  if x.state = 1 ∨ x.state = 2 ∨ unit.isEmpty then s
  else
    let cu : Bool := decide (k.substUsed (a / 4) + unit.length ≤ 64)
    let put (t : Tbl (List Nat)) : Tbl (List Nat) := unit.foldl (fun t i => Tbl.set t i (lv i)) t
    if x.sparesLeft unit.length then
      if cu then s.setCore c ((k.setArr a { x with subst := put x.subst, worn := put x.worn }).addTask a 7)
      else
        let going : Bool := (k.set (a / 4)).tasks.any fun t => t.array = a && t.level = 0
        s.setCore c ((k.setArr a { x with
          worn := put x.worn, state := if x.state = 5 then 5 else 4, fixRow := if going then x.fixRow else 0 }).addTask a 0)
    else if cu then s.setCore c (k.setArr a { x with subst := put x.subst })
    else retireArray s c a 1

/-- Columns whose event count reaches 10^6 when it rises by n. -/
def wornByCount (a : Arr) (n : Nat) : List Nat :=
  if a.maxEvents < 10 ^ 6 then [] else (List.range 512).filter fun j => 10 ^ 6 ≤ a.events j && a.events j < 10 ^ 6 + n

/-- A spare has been programmed: it stands for the column, and the correction unit's slot is free (R41, R123). -/
def Arr.useSpare (a : Arr) (j : Nat) : Arr :=
  match Tbl.find a.worn j with
  | none => a
  | some lv =>
    let p := 512 + a.sparesUsed
    let levels := (lv.zipIdx).foldl (fun t x => if x.1 = 8 then Tbl.del t (528 * x.2 + p) else Tbl.set t (528 * x.2 + p) x.1) a.levels
    { a with levels := levels, colMap := Tbl.set a.colMap j p, sparesUsed := a.sparesUsed + 1, subst := Tbl.del a.subst j
             worn := Tbl.del a.worn j }

/-- An array is read whole: the record it gives, with the conversions that returned OVR counted (R48, R73, R383). -/
def State.readRecord (s : State) (c a base : Nat) : Bytes × State :=
  let k := s.core c
  let x := k.arr a
  (x.toRecord base (a % 4) (k.set (a / 4)).outliers, s.updCore c fun k => k.count 1 6 (x.overReads false base (List.range 512)))

/-! ## The programming budget (R389) -/

/-- Arrays being programmed on the engine. -/
def programming (s : State) : Nat := (s.regions.map fun e => match e.2.op with | some o => o.busy.length | none => 0).sum
/-- Arrays that may be programmed at once. -/
def programLimit (s : State) : Nat :=
  let other := s.power.measured - 80 * programming s
  max 1 (min (s.setting 0x6480 1 3000) (effectiveCap s - other) / 80)

/-! ## Programming one array -/

/-- Pulse rounds of a full write: one to eight for each row (R120). -/
def roundsOf (base n : Nat) : Nat := ((List.range n).map fun i => max 1 (min 8 (Config.rounds (base + i)))).sum

/-- The outlier table of a set with one array's entries replaced, within its 2,048 entries (R88).  DESIGN CHOICE: where a swap's old tiles,
still standing, and its new ones together have more, the last entries of the new tile find no place. -/
def putOutliers (old : List W32) (pos : Nat) (new : List W32) : List W32 :=
  ((old.filter fun w => bits w.toNat 30 29 ≠ pos) ++ new.map fun w => BitVec.ofNat 32 (w.toNat % 2 ^ 29 + pos * 2 ^ 29 + 2 ^ 31)).take 2048

/-- Entries that no tile stands behind leave a set's table when a tile needs their place; what those arrays held is no record any more
(R88). -/
def Core.makeRoom (k : Core) (a new : Nat) : Core :=
  let t := k.set (a / 4)
  let mine (w : W32) : Bool := bits w.toNat 30 29 = a % 4
  if (t.outliers.filter fun w => !mine w).length + new ≤ 2048 then k
  else
    let base := a / 4 * 4
    let stale := ((List.range 4).map (base + ·)).filter fun i => i ≠ a && (k.arr i).tile.isNone
    let k := stale.foldl (fun k i => k.setArr i { k.arr i with digest := [] }) k
    k.setSet (a / 4) { t with outliers := t.outliers.filter fun w => !stale.contains (base + bits w.toNat 30 29) }

/-- W8 columns in the correction unit or awaiting a spare whose partner is not: a record of another format has left them single, and the
pair is treated as worn (R97, R122). -/
def Arr.halfPairs (x : Arr) : List Nat :=
  if x.format ≠ 5 then []
  else (x.subst ++ x.worn).map (·.1) |>.filter fun j =>
    let p := 4 * (j / 2) + 1 - j
    (Tbl.find x.subst p).isNone && (Tbl.find x.worn p).isNone

/-- An array holds a record: programmed, verified and calibrated, in service (R107, R110, R121, R383).  DESIGN CHOICE: its alarm count
starts again with the record, as after a refresh pass, which is the one event that R103 names. -/
def programArray (s : State) (c a : Nat) (b : Bytes) (tile : Nat × Nat × Nat) (failed : List Nat) : State :=
  let (base, s) := s.draw (512 + 20 * 1040)
  let g := s.preg (powerOf c)
  let lv (j : Nat) : List Nat := (List.range 512).map fun i => recLevel b i j
  let s := s.updCore c fun k =>
    let k := k.makeRoom a (recOutliers b).length
    let x := k.arr a
    let y : Arr := { x.ofRecord b tile with
      worn := x.worn.map fun e => (e.1, lv e.1)
      state := if x.worn.any fun e => (Tbl.find x.subst e.1).isNone then 4 else 0
      fullWrites := x.fullWrites + 1, pulses := x.pulses + roundsOf base 512, ageBase := g.aged, calAt := s.now
      calTemp := g.hot, alarms := 0, nextRow := 0, snaps := [], fixRow := 0, fixFailed := [], calGroup := 0, group := 0, repair := []
      retries := 0, fallbacks := if x.tile = some tile then x.fallbacks else [] }
    let t := (k.set (a / 4)).putTrims (base + 512) (List.range 1040)
    (k.setArr a y).setSet (a / 4) { t with
      use := 0, outliers := putOutliers t.outliers (a % 4) (recOutliers b), tasks := t.tasks.filter fun x => x.array ≠ a || x.level = 7 || (x.level = 0 && !y.worn.isEmpty)
      sample := match t.sample with | some m => if m.array = a then none else some m | none => none }
  let y := (s.core c).arr a
  let worn := (failed.filter fun j => j < 512) ++ wornByCount y 1 ++ y.halfPairs
  worn.foldl (fun s j => wornColumn s c a j lv) s

end Sys2Proof.Machine
end

