-- ==== Sys2Proof/Machine/Load.lean ====
section
/-!
DEFINITION. The work of a load, a swap, a rollback and a relocation: shards read, arrays programmed and read back, images bound and
activated (R263 to R266, R277 to R282, R380 to R384, R388 to R402, R565).
-/
namespace Sys2Proof.Machine

/-! ## What an operation programs -/

def ShardSt.reset : ShardSt := { failures := 0, arrived := false, records := [], done := [], verified := false }
def LoadOp.shard (o : LoadOp) (i : Nat) : ShardSt := Tbl.get o.shards ShardSt.reset i
def LoadOp.setShard (o : LoadOp) (i : Nat) (x : ShardSt) : LoadOp := { o with shards := Tbl.set o.shards i x }
def setOp (s : State) (n : Nat) (o : LoadOp) : State := s.updRegion n fun r => { r with op := some o }

/-- The operation's handle shows progress (R632). -/
def opProgress (s : State) (n : Nat) : State :=
  match (s.region n).op with
  | some o => (match o.handle with | some h => s.keep h fun x => { x with since := s.now } | none => s)
  | none => s

/-- Insert by key, ascending and stable. -/
def sortBy {α : Type} (key : α → Nat) (l : List α) : List α :=
  l.foldl (fun acc x => acc.takeWhile (fun y => key y ≤ key x) ++ x :: acc.dropWhile (fun y => key y ≤ key x)) []

/-- The image whose tiles an operation programs, its source slot and the places of its virtual cores. -/
def opSource (r : Region) (o : LoadOp) : Image × Nat × List Placed :=
  match r.img with
  | none => (o.img, o.slot, [])
  | some b => match o.phase with
    | .rollback => (b.img, b.slot, b.placed)
    | .relocate => (b.img, b.slot, o.spots)
    | _ => (o.img, o.slot, b.placed)

/-- The core and array of a tile. -/
def tilePlace (ps : List Placed) (t : TileEnt) : Option (Nat × Nat) := ps[t.vcore]?.map fun p => (p.core, p.array t.varray)
def arrayKey (p : Nat × Nat) : Nat := 32 * p.1 + p.2

/-- The tile stays out of a rollback: its core is dead, or its array retired (R585). -/
def leftOut (s : State) (p : Nat × Nat) : Bool := !usable s p.1 || !(s.core p.1).arrIn p.2

/-- Array tiles of a shard, with their places. -/
def shardTiles (m : Image) (ps : List Placed) (shard : Nat) : List (Nat × TileEnt × (Nat × Nat)) :=
  (m.tilesOf shard).filterMap fun x => if x.2.host then none else (tilePlace ps x.2).map fun p => (x.1, x.2, p)

def shardLayer (m : Image) (shard : Nat) : Nat := match m.tilesOf shard with | x :: _ => x.2.layer | [] => 0

/-- The shards an operation reads, in order: all of them in list order to check them, else those of arrays by layer. -/
def wantedShards (r : Region) (o : LoadOp) : List Nat :=
  let (m, _, ps) := opSource r o
  let onArrays := (m.shards.filter fun h => !h.host).map (·.shard)
  match o.phase with
  | .loadProgram => m.shards.map (·.shard)
  | .verify => m.shards.map (·.shard)
  | .rewrite => sortBy (shardLayer m) onArrays
  | .rollback =>
    (sortBy (shardLayer m) (onArrays.filter fun h => (shardTiles m ps h).any fun x => o.touched.contains (arrayKey x.2.2))).reverse
  | .relocate => o.shards.map (·.1)
  | _ => []

/-- The shards in flight: the first 8 that have not arrived (R380). -/
def inFlightShards (r : Region) (o : LoadOp) : List Nat := ((wantedShards r o).filter fun h => !(o.shard h).arrived).take 8

def allVerified (r : Region) (o : LoadOp) : Bool := (wantedShards r o).all fun h => (o.shard h).verified
/-- Layers of which every wanted shard is verified. -/
def layersDone (r : Region) (o : LoadOp) : Nat :=
  let (m, _, _) := opSource r o
  let w := wantedShards r o
  let open_ := (w.filter fun h => !(o.shard h).verified).map (shardLayer m)
  (((w.map (shardLayer m)).eraseDups).filter fun l => !open_.contains l).length

/-- The layer being programmed: that of the first shard, in layer order, that is not verified (R390). -/
def currentLayer (r : Region) (o : LoadOp) : Option Nat :=
  let (m, _, _) := opSource r o
  let w := (wantedShards r o).filter fun h => !(o.shard h).verified && (m.shards.any fun x => x.shard = h && !x.host)
  let w := match o.phase with | .rollback => w | _ => sortBy (shardLayer m) w
  w.head?.map (shardLayer m)

/-! ## Starting to program (R389, R390) -/

/-- Tiles that can be programmed next, by core and array: place, and its key. -/
def programQueue (s : State) (r : Region) (o : LoadOp) : List (Nat × Nat) :=
  let (m, _, ps) := opSource r o
  match currentLayer r o with
  | none => []
  | some layer =>
    let ready := (wantedShards r o).flatMap fun h =>
      let st := o.shard h
      if !st.arrived || st.verified || shardLayer m h ≠ layer then []
      else (shardTiles m ps h).filterMap fun x =>
        if (Tbl.find st.records x.1).isSome && !st.done.contains x.1 && !o.busy.contains (arrayKey x.2.2) && !leftOut s x.2.2 then some x.2.2
        else none
    sortBy arrayKey ready

/-- Begin to program one array, within the budget and one per array set, on a converter set that no evaluation or slice uses (R43, R44,
R389). -/
def beginProgram (s : State) (n : Nat) (p : Nat × Nat) : State :=
  match (s.region n).op with
  | none => s
  | some o =>
    let k := s.core p.1
    let x := k.set (p.2 / 4)
    let taken : Bool := o.busy.any (fun b => b / 4 = arrayKey p / 4) || x.slice.isSome || x.use ≠ 0
    if taken ∨ programLimit s ≤ programming s then s
    else
      let k := (k.setArr p.2 { k.arr p.2 with state := 5 }).setSet (p.2 / 4) { k.set (p.2 / 4) with use := 4 }
      setOp (s.setCore p.1 k) n { o with
        busy := o.busy ++ [arrayKey p], touched := if o.swap ∧ !o.touched.contains (arrayKey p) then o.touched ++ [arrayKey p] else o.touched }

/-- Program what can be programmed; not in a coolant hold, nor without VDD_AUX (R488, R522). -/
def startPrograms (s : State) (n : Nat) : State :=
  match (s.region n).op with
  | none => s
  | some o =>
    if s.thermal.state ≠ 0 ∨ s.power.auxLost.isSome then s
    else (programQueue s (s.region n) o).foldl (fun s p => beginProgram s n p) s

/-- Programming stops: the arrays under way are left as they are. -/
def stopBusy (s : State) (busy : List Nat) : State :=
  busy.foldl (fun s b => s.updCore (b / 32) fun k =>
    let a := b % 32
    let k := if (k.arr a).state = 5 then k.setArr a { k.arr a with state := 0, digest := [] } else k
    k.setSet (a / 4) { k.set (a / 4) with use := 0 }) s

/-! ## Reports to the group (R400, R604) -/

/-- Send a CONTROL message of a swap, with the new version and stage table. -/
def opControl (s : State) (n st kind status : Nat) : State :=
  match (s.region n).img, (s.region n).op with
  | some b, some o => sendControl s { b with stageTab := o.stageTab } st kind status o.img.version []
  | _, _ => s
def opControlAll (s : State) (n kind status : Nat) : State :=
  match (s.region n).op with
  | some o => ((List.range o.img.stages).filter fun i => i ≠ o.img.stage).foldl (fun s st => opControl s n st kind status) s
  | none => s
/-- A handle's COMPLETE, if the operation still has one. -/
def finishOp (s : State) (h : Option Nat) (status detail r1 : Nat) : State :=
  match h with | some h => s.finish h status detail 0 r1 | none => s

/-! ## Activation (R346, R388) -/

/-- Every array that holds a tile of the image has passed its check: none is held (R385, R388). -/
def noneHeld (s : State) (b : BoundImage) : Bool :=
  b.img.tiles.all fun t => t.host || (match tilePlace b.placed t with
    | some (c, a) => let x := (s.core c).arr a; !(x.state = 4 && x.retries ≠ 0)
    | none => true)

/-- A stage 0 image serves once it is bound and every stage has reported that it is. -/
def tryActivate (s : State) (n : Nat) : State :=
  let r := s.region n
  match r.img with
  | none => s
  | some b =>
    if r.state = 1 ∧ b.bound ∧ !b.active ∧ !b.stopped ∧ b.img.stage = 0 ∧ b.img.serving.isSome ∧ r.op.isNone ∧ noneHeld s b ∧
        b.others.all fun i => b.reported.contains i then
      let b := { b with active := true, version := b.img.version, epoch := 0 }
      sendAllStages (s.setRegion n { r with img := some b }) b 2 0 b.version
    else s

/-- The model key of a region: pending for a load or swap, active for its later reads (R565). -/
def modelKey (r : Region) (o : LoadOp) : Bytes :=
  match o.phase with
  | .rollback => r.keyAct.getD []
  | .relocate => r.keyAct.getD []
  | _ => match r.keyPend with | some k => k.2.2 | none => []

/-! ## The end of a load -/

/-- A load fails: the region is unbound and its cores free (R264). -/
def failLoad (s : State) (n : Nat) (o : LoadOp) (st det r1 : Nat) : State :=
  let s := stopBusy s o.busy
  let s := match (s.region n).img with | some b => dropImage s n b | none => s
  let hs := (s.region n).relocs.filterMap (·.2.2)
  let s := finishOp (s.updRegion n fun r => { r with img := none, op := none, relocs := [] }) o.handle st det r1
  hs.foldl (fun s h => s.finish h 4 0 0 0) s

/-- The source window of a bound image gives its control part (R276 step 3, R277, R281). -/
def sourceOpen (r : Region) (b : BoundImage) : Bool :=
  match Tbl.find r.windows b.slot with | some w => w.read && b.img.ctlBytes ≤ w.size | none => false

/-- Every shard of a load is verified: bind, start, complete (R263 steps 4 to 6).  The sections are fetched from the source window: one
that has been withdrawn ends the load (R266, R276 step 3). -/
def finishLoad (s : State) (n : Nat) (o : LoadOp) : State :=
  match (s.region n).img with
  | none => s
  | some b =>
    if !sourceOpen (s.region n) b then failLoad s n o 5 4 0 else
    let b := { b with ctl := o.control, bound := true }
    match bindImage s n b o.control true with
    | none => failLoad s n o 5 9 0
    | some s =>
      let s := startCores s b
      let s := s.updRegion n fun r => { r.takeKey with
        img := some b, op := none, delivered := 0, genRun := 0, bucket := 0, cursor := 0 }
      let s := finishOp (keepRecord s n) o.handle 0 0 0
      let s := if b.grouped ∧ b.img.stage ≠ 0 then sendControl s b 0 1 0 b.img.version [] else s
      tryActivate s n

/-! ## The end of a swap (R392 to R399) -/

/-- Remove every index entry of a region (R312). -/
def dropIndex (s : State) (n : Nat) : State :=
  let s := { s with serving := { s.serving with index := s.serving.index.filter fun e => e.region ≠ n } }
  s.updRegion n fun r => { r with
    pool := (r.pool.map fun e => if e.2.state = .published then (e.1, { e.2 with state := .closed }) else e).filter
      fun e => !(e.2.state = .closed && e.2.count = 0) }

/-- Restart every virtual core that has a program at its restart bundle. -/
def restartCores (s : State) (b : BoundImage) : State := startImage s b (·.restart)

/-- End tuning jobs of a region with detail 15. -/
def endJobs (s : State) (n : Nat) (p : Tune → Bool) : State :=
  ((s.serving.jobs.filter fun j => j.region = n && p j).map (·.handle)).foldl (fun s h => endJob s h 5 15) s
/-- The running tuning jobs of a region end when the barrier closes (R396). -/
def endSwapJobs (s : State) (n : Nat) : State := endJobs s n (·.running)

/-- Free every ended context of a region, once none of its steps can leave the image any more (R343). -/
def freeEnded (s : State) (n : Nat) : State :=
  { s with serving := { s.serving with ctxs := s.serving.ctxs.filter fun e => !(e.2.d.region = n && e.2.state = .ended) } }

/-- A request of a swapped region is re-pinned, and reprefilled as the policy says: a parked one when it next leaves PARKED (R393). -/
def repin (s : State) (c version : Nat) (again : Bool) : State :=
  match s.ctx? c with
  | none => s
  | some x =>
    if x.pinned.isNone then s
    else
      let s := s.setCtx c { x with pinned := some version, refillDue := x.refillDue || (again && x.state = .parked) }
      if again ∧ x.state ≠ .parked then reprefill s x.d.region c else s

/-- Under compiler placement an image that keeps a tile on an array retired during its swap stops when the swap is over (R405). -/
def stopIfGone (s : State) (n : Nat) : State :=
  match (s.region n).img with
  | some b =>
    let gone := b.img.tiles.findSome? fun t => if t.host then none else match tilePlace b.placed t with
      | some (c, a) => let st := ((s.core c).arr a).state; if st = 1 ∨ st = 2 then some (c, a) else none
      | none => none
    (match gone with
     | some (c, a) => if b.bound ∧ !b.stopped ∧ s.setting 0x2010 1 1 = 0 then stopImage s n c a else s
     | none => s)
  | none => s

/-- A swap ends well: the new version serves (R392 phase 4, R395). -/
def finishSwap (s : State) (n : Nat) : State :=
  let r := s.region n
  match r.op, r.img with
  | some o, some b =>
    let v := o.img.version
    let b := { b with
      img := o.img, ctl := o.control, slot := o.slot, stageTab := o.stageTab, active := true, version := v, epoch := 0, stopped := false }
    let s := s.setRegion n { r.takeKey with
      img := some b, op := none, split := false, state := if r.split then 1 else r.state }
    let s := dropIndex s n
    let cs := (s.serving.ctxs.filter fun e => e.2.d.region = n && e.2.state ≠ .ended && e.2.tune.isNone).map (·.1)
    let s := admitWaiting (cs.foldl (fun s c => repin s c v (o.policy ≠ 1)) s) n
    stopIfGone (finishOp (keepRecord s n) o.handle 0 0 0) n
  | _, _ => s

/-- A swap ends before its barrier has closed: the old version goes on (R392). -/
def endSwapEarly (s : State) (n : Nat) (st det r1 : Nat) : State :=
  match (s.region n).op with
  | some o => stopIfGone (admitWaiting (finishOp (s.updRegion n fun r => { r with op := none }) o.handle st det r1) n) n
  | none => s

/-- A rollback is complete: the old sections are bound again and the old version goes on (R397, R399). -/
def endRollback (s : State) (n : Nat) : State :=
  let r := s.region n
  match r.op, r.img with
  | some o, some b =>
    let (st, det, r1) := o.failed.getD (2, 10, 0)
    let s := keepRecord (stopBusy (s.setRegion n { r with op := none }) o.busy) n
    let s := if b.bound then
        restartCores ((bindImage s n b b.ctl false).getD s) b
      else s
    let s := match (s.region n).flush with
      | some f => if f.phase = 5 then startFlush (s.updRegion n fun r => { r with flush := none }) n f.code else s
      | none => s
    let s := stopIfGone (admitWaiting s n) n
    match o.handle with
    | some h => s.finish h st det 0 r1
    | none => if b.bound then s else s.postEvent 6 0 n 0
  | _, _ => s

/-- A region goes to SWAP_SPLIT: FAULTED, its requests ended, its image bound and out of service (R398). -/
def toSplit (s : State) (n : Nat) : State :=
  let s := endReqs s (liveOf s n) 7 0
  let s := s.updRegion n fun r => { r with
    state := 2, split := true, op := none, flush := none, img := r.img.map fun b => { b with active := false } }
  (keepRecord s n).postEvent 9 0 n 0

/-- Tell the group that a rollback has failed (R401).  The message names the version that every stage still holds as bound, so that a
stage whose own rollback is over takes it as well (R605). -/
def tellSplit (s : State) (n : Nat) : State :=
  match (s.region n).img with
  | some b =>
    if !b.grouped then s
    else if b.img.stage = 0 then sendAllStages s b 8 3 b.img.version
    else sendControl s b 0 5 3 b.img.version []
  | none => s

/-- A rollback fails: neither version is whole (R398).  Layers are restored in descending order: those below the one being restored hold
the new version whole, those above it the old one. -/
def splitSwap (s : State) (n : Nat) (tell : Bool) : State :=
  let r := s.region n
  match r.op with
  | none => s
  | some o =>
    let low := (currentLayer r o).getD 0
    let s := toSplit (stopBusy (if tell then tellSplit s n else s) o.busy) n
    match o.handle with
    | some h => s.finish h 3 0 0 low
    | none => s.postEvent 6 3 n low

/-- Phase 3 fails: programming stops and the rewritten layers are restored (R397); the group is told. -/
def beginRollback (s : State) (n : Nat) (tell : Bool) : State :=
  let r := s.region n
  match r.op with
  | none => s
  | some o =>
    let st := (o.failed.getD (2, 10, 0)).1
    let s := if !tell then s else if o.later then opControl s n 0 5 st else if o.lead then opControlAll s n 8 st else s
    let s := stopBusy s o.busy
    keepRecord (setOp s n { o with phase := .rollback, shards := [], busy := [], failed := some (o.failed.getD (2, 10, 0)) }) n

/-- Drain or hold begins (R393). -/
def beginDrain (s : State) (n : Nat) : State :=
  match (s.region n).op with
  | none => s
  | some o =>
    let shut : Bool := o.policy ≠ 0 || o.drain = 0
    let s := setOp s n { o with phase := .drain, since := s.now, closed := shut }
    if shut then endSwapJobs s n else s

/-- Phase 1 has verified every shard: a later stage reports, stage 0 waits for the reports (R400). -/
def verifyDone (s : State) (n : Nat) : State :=
  match (s.region n).op with
  | none => s
  | some o =>
    if o.later then opControl (setOp s n { o with phase := .drain, since := s.now, closed := false }) n 0 3 0
    else if o.lead ∧ !o.allReport 0 then s
    else beginDrain s n

/-! ## The end of a relocation (R280) -/

/-- The reason of a relocation that no handle asked for: a dead core, an array gone, else a route. -/
def relocFail (s : State) (n : Nat) : State :=
  let r := s.region n
  match r.relocs, r.img with
  | (vs, olds, h) :: rest, some b =>
    let s := stopBusy s (match r.op with | some o => o.busy | none => [])
    let s := s.updRegion n fun r => { r with op := none, relocs := rest }
    match h with
    | some h => tryRelease (s.finish h 4 0 0 0) n
    | none =>
      let v := vs.headD 0
      let gone : Option (Nat × Nat) := vs.findSome? fun v => match b.img.cores[v]?, b.placed[v]? with
        | some e, some p => ((List.range 32).find? fun a => e.arrays.getLsbD a && !(s.core p.core).arrIn (p.array a)).map fun a => (p.core, p.array a)
        | _, _ => none
      if olds.any fun c => (s.core c).fence.isSome then tryRelease (faultRegion s n 0x0301 v) n
      else match gone with
        | some (c, a) => stopImage (s.updRegion n fun r => { r with relocs := [] }) n c a
        | none => tryRelease (faultRegion s n 0x0303 v) n
  | _, _ => s

/-- Rows 0 to 1,247 of a core that can still be read are copied; else what they held is lost (R280 step 3, R581, R582). -/
def moveRows (s : State) (n : Nat) (m : Image) (v c0 c1 : Nat) : State :=
  if c0 = c1 then s
  else
    let k := s.core c0
    let alive : Bool := (usable s c0 || k.fence = some 2 || k.fence = some 3) && !regionDark s.now (s.preg (powerOf c0))
    if alive then
      let low (x : Host.Cell) : Bool := x.1 < 1248 * 2048
      s.updCore c1 fun k1 => { k1 with
        packed := k.packed, mem := k.mem.filter low ++ k1.mem.filter fun x => !low x
        badWords := k1.badWords.filter fun w => 1248 ≤ w / 256, softWords := k1.softWords.filter fun w => 1248 ≤ w / 256 }
    else match m.cores[v]?.bind (·.pair?) with
      | some _ => loseBlocks s n (m.pairIndex v)
      | none => s

/-- A core that its virtual core has left: halted, its reductions and tiles forgotten. -/
def Core.vacate (k : Core) : Core :=
  { k with
    run := .halted, iqs := [], prog := Prog.reset, restartBy := none, router := { k.router with red := [], recv := [] }
    arrays := Tbl.map (fun _ a => { a with tile := none }) k.arrays }

/-- A physical array still stands for one of a virtual core's arrays. -/
def keepsArray (m : Image) (spots : List Placed) (v a : Nat) : Bool :=
  match m.cores[v]?, spots[v]? with
  | some e, some p => (List.range 32).any fun x => e.arrays.getLsbD x && p.array x = a
  | _, _ => false

/-- The moved virtual cores hold their tiles: copy, bind again, restart, release (R280 steps 3 to 5). -/
def finishReloc (s : State) (n : Nat) (o : LoadOp) : State :=
  match (s.region n).img with
  | none => s
  | some b =>
    let b' := { b with placed := o.spots, ctl := o.control }
    let pairs := o.moved.filterMap fun v => match b.placed[v]?, o.spots[v]? with
      | some p, some q => some (v, p.core, q.core)
      | _, _ => none
    let s := pairs.foldl (fun s x => moveRows s n b.img x.1 x.2.1 x.2.2) s
    let s := o.carried.foldl (fun s x => match (b.img.tiles[x.1]?).bind (tilePlace o.spots) with
      | some (c, a) => s.updCore c fun k => k.setArr a { k.arr a with fallbacks := x.2 }
      | none => s) s
    let s := pairs.foldl (fun s x =>
      if x.2.1 = x.2.2 then
        s.updCore x.2.1 fun k => { k with arrays := k.arrays.map fun e => (e.1, { e.2 with tile := if keepsArray b.img o.spots x.1 e.1 then e.2.tile else none }) }
      else if o.spots.any fun q => q.core = x.2.1 then s
      else
        s.haltCore x.2.1 Core.vacate) s
    let s := bindReds s { b' with img := { b'.img with reds := b'.img.reds.filter fun x => o.moved.contains x.1 } }
    let vs := touched o.control b.img o.moved
    match bindCores n b' o.control vs s with
    | none => relocFail s n
    | some s =>
      let again := vs.filterMap fun v => match b.img.cores[v]?, o.spots[v]? with
        | some e, some p => if e.prog = 0xFFFF then none else some p.core
        | _, _ => none
      let s := again.foldl (fun s c => (startCore s c (·.restart)).updCore c fun k => { k with restartBy := none }) s
      let s := s.updRegion n fun r => { r with img := some b', op := none, relocs := r.relocs.drop 1 }
      let s := { s with upkeep := { s.upkeep with relocations := s.upkeep.relocations + 1 } }
      let s := finishOp (keepRecord (odPending s 0x2010 4) n) o.handle 0 0 0
      tryRelease s n

/-! ## Placing again during a load (R265) -/

/-- Virtual cores whose core or arrays are no longer there. -/
def misplaced (s : State) (b : BoundImage) : List Nat :=
  (List.range b.placed.length).filter fun v => match b.img.cores[v]?, b.placed[v]? with
    | some e, some p => !usable s p.core || (List.range 32).any fun a => e.arrays.getLsbD a && !(s.core p.core).arrIn (p.array a)
    | _, _ => false

/-- Place them again, and read and program their shards again; under compiler placement, or with no core that fits, the load fails. -/
def refitLoad (s : State) (n : Nat) (o : LoadOp) (b : BoundImage) (vs : List Nat) : State :=
  if s.setting 0x2010 1 1 = 0 then failLoad s n o 4 6 0
  else match placeMoved s n b vs [] with
    | (none, relaxed) => failLoad (s.countSpread relaxed) n o 4 5 0
    | (some l, relaxed) =>
      let old := vs.filterMap fun v => b.placed[v]?.map (·.core)
      let drop := o.busy.filter fun x => old.contains (x / 32)
      let s := stopBusy s drop
      let hit := (b.img.tiles.filter fun t => vs.contains t.vcore && !t.host).map (·.shard)
      let o := { o with
        busy := o.busy.filter fun x => !drop.contains x
        shards := o.shards.map fun e => if hit.contains e.1 then (e.1, { ShardSt.reset with failures := e.2.failures }) else e }
      (s.countSpread relaxed).updRegion n fun r => { r with op := some o, img := some { b with placed := l } }

/-! ## Going on -/

/-- An operation fails with a status, a detail and Result1, as its phase says; before the rewrite of a group's swap a stage reports
to stage 0, and stage 0 tells the others. -/
def opFail (s : State) (n st det r1 : Nat) : State :=
  match (s.region n).op with
  | none => s
  | some o =>
    match o.phase with
    | .loadProgram => failLoad s n o st det r1
    | .verify => endSwapEarly (if o.later then opControl s n 0 3 st else if o.lead then opControlAll s n 8 st else s) n st det r1
    | .drain => endSwapEarly (if o.lead then opControlAll s n 8 st else s) n st det r1
    | .rewrite => beginRollback (setOp s n { o with failed := some (st, det, r1) }) n true
    | .activate => beginRollback (setOp s n { o with failed := some (st, det, r1) }) n true
    | .rollback => splitSwap s n true
    | .relocate => relocFail s n

/-- A swap whose array was retired fails where it stands (R386); a later stage that has reported its first phase fails when the rewrite
is ordered, which stage 0 then learns. -/
def failedSwap (s : State) (n : Nat) (o : LoadOp) : Option State :=
  match o.failed with
  | some (st, det, r1) => if o.later && o.phase = .drain then none else some (opFail s n st det r1)
  | none => none

/-- Do what an operation can do next. -/
def advanceOne (s : State) (n : Nat) : State :=
  let r := s.region n
  match r.op, r.img with
  | some o, some b =>
    match o.phase with
    | .loadProgram =>
      let vs := misplaced s b
      if !vs.isEmpty then refitLoad s n o b vs
      else if allVerified r o then finishLoad s n o else startPrograms s n
    | .verify => (failedSwap s n o).getD (if (wantedShards r o).all fun h => (o.shard h).arrived then verifyDone s n else s)
    | .drain => (failedSwap s n o).getD s
    | .rewrite => if o.failed.isSome then beginRollback s n true else startPrograms s n
    -- the switch is not ordered yet: still phase 3 (R400, R401).  A later stage tells stage 0, which decides.
    | .activate =>
      (match o.failed with
       | some (st, _, _) =>
         if o.lead then (if o.switched then s else beginRollback s n true)
         else if o.reports.isEmpty then opControl (setOp s n { o with reports := [(o.img.stage, st)] }) n 0 5 st
         else s
       | none => s)
    | .rollback => if allVerified r o then endRollback s n else startPrograms s n
    | .relocate =>
      -- a chosen core or array has gone since: the relocation chooses again
      if (misplaced s { b with placed := o.spots }).any fun v => o.moved.contains v then
        (stopBusy s o.busy).updRegion n fun r => { r with op := none }
      else if allVerified r o then finishReloc s n o else startPrograms s n
  | _, _ => s

/-- Go on until the operation waits for something. -/
def advance (s : State) (n : Nat) : State := advanceOne (advanceOne (advanceOne s n) n) n

/-! ## Shards arrive (R380, R381) -/

/-- The plaintext of a shard as read through the window; under custody the tag is checked (R566). -/
def shardPlain (s : State) (key : Bytes) (m : Image) (h : ShardEnt) (b : Bytes) : Option Bytes :=
  if custodyOn s then
    let nonce := leBytes 1 m.stage ++ leBytes 1 0 ++ leBytes 2 h.shard ++ List.replicate 8 0
    Config.gcmOpen key nonce (leBytes 8 m.version ++ leBytes 1 m.stage ++ leBytes 2 h.shard) b
  else some b

/-- Bytes of a shard in its window. -/
def shardSpan (s : State) (h : ShardEnt) : Nat := h.size + if custodyOn s then 16 else 0

/-- The shard as it should be, or none for a failed or corrupt read. -/
def goodShard (s : State) (n : Nat) (o : LoadOp) (h : ShardEnt) (data : Option Bytes) : Option Bytes :=
  let r := s.region n
  let (m, slot, _) := opSource r o
  let dig := (m.manifest.find? fun e => e.shard = h.shard && e.host = h.host).map (·.digest)
  match Tbl.find r.windows slot, data with
  | some w, some b =>
    if !w.read ∨ w.size < h.source + shardSpan s h then none
    else match shardPlain s (modelKey r o) m h b with
      | some p => if p.length = h.size ∧ some (sha256 p) = dig then some p else none
      | none => none
  | _, _ => none

/-- Outlier entries of other shards on a virtual set, from their records. -/
def othersOn (m : Image) (o : LoadOp) (shard v set : Nat) : Nat :=
  (o.shards.map fun e => if e.1 = shard then 0 else (e.2.records.map fun x => match m.tiles[x.1]? with
    | some t => if t.vcore = v ∧ t.varray / 4 = set ∧ !t.host then fieldAt x.2 2 2 else 0
    | none => 0).sum).sum

/-- A shard's records have come; tiles that their arrays hold already are not written (R390). -/
def takeShard (s : State) (n : Nat) (o : LoadOp) (h : ShardEnt) (p : Bytes) : State :=
  let (m, _, ps) := opSource (s.region n) o
  let st := o.shard h.shard
  let mine (t : TileEnt) : Bool := o.phase ≠ .relocate || o.moved.contains t.vcore
  let recs := ((m.tilesOf h.shard).filter fun x => mine x.2).map fun x => (x.1, tileRec p x.2)
  let ts := (shardTiles m ps h.shard).filter fun x => mine x.2.1
  let done := if o.phase = .verify then [] else (ts.filter fun x => (o.phase = .rollback && leftOut s x.2.2) ||
    (match recs.find? fun r => r.1 = x.1 with
     | some r => ((s.core x.2.2.1).arr x.2.2.2).digest = sha256 r.2
     | none => false)).map (·.1)
  setOp s n (o.setShard h.shard { st with
    arrived := true, records := if h.host then [] else recs, done := done, verified := h.host || ts.isEmpty })

/-- One reading of a shard in an operation. -/
def shardRead (s : State) (n : Nat) (o : LoadOp) (h : ShardEnt) (data : Option Bytes) : State :=
  let r := s.region n
  let (m, slot, ps) := opSource r o
  let s := winAsk s n slot h.source (shardSpan s h)
  let st := o.shard h.shard
  if o.phase = .loadProgram ∧ (Tbl.find r.windows slot).isNone then failLoad s n o 5 4 0
  else match goodShard s n o h data with
    | some p =>
      let gone := if o.phase = .rewrite then (shardTiles m ps h.shard).find? fun x => leftOut s x.2.2 else none
      if !shardOk m h.shard p (othersOn m o h.shard) then opFail s n 5 13 h.shard
      else match gone with
        -- a tile whose array has gone cannot be rewritten (R397)
        | some (_, _, c, a) => advance (opFail s n 4 17 (coreArray c a)) n
        | none => advance (opProgress (takeShard s n o h p) n) n
    | none =>
      if 3 ≤ st.failures then opFail s n 2 10 h.shard
      else setOp s n (o.setShard h.shard { st with failures := st.failures + 1 })

/-! ## Repair from the source (R385) -/

/-- A held array whose tile lies in a shard: core, array, tile. -/
def heldTile (s : State) (n shard : Nat) : Option ((Nat × Nat) × Nat × TileEnt) :=
  match (s.region n).img with
  | none => none
  | some b => (shardTiles b.img b.placed shard).findSome? fun x =>
      let a := (s.core x.2.2.1).arr x.2.2.2
      if a.state = 4 ∧ a.retries ≠ 0 ∧ a.repair.isEmpty then some (x.2.2, x.1, x.2.1) else none

/-- One reading for a held array: the first record whose digest is the stored one is written back in repair slices; after the fourth
failure the image stops (R385, R405). -/
def repairRead (s : State) (n shard : Nat) (data : Option Bytes) : State :=
  match heldTile s n shard, (s.region n).img with
  | some ((c, a), _, t), some b =>
    let s := match b.img.shards.find? fun h => h.shard = shard && !h.host with
      | some h => winAsk s n b.slot h.source (shardSpan s h)
      | none => s
    let good : Option Bytes := match data, Tbl.find (s.region n).windows b.slot, b.img.shards.find? fun h => h.shard = shard && !h.host with
      | some d, some w, some h => if w.read ∧ h.source + shardSpan s h ≤ w.size then shardPlain s ((s.region n).keyAct.getD []) b.img h d else none
      | _, _, _ => none
    let rec_ := match good with | some p => tileRec p t | none => []
    let x := (s.core c).arr a
    if good.isSome ∧ sha256 rec_ = x.digest then
      s.updCore c fun k => (k.setArr a { x with repair := rec_, fixRow := 0 }).addTask a 0
    else if 4 ≤ x.retries then stopImage s n c a
    else s.updCore c fun k => k.setArr a { x with retries := x.retries + 1 }
  | _, _ => s

/-- SHARD_ARRIVAL: a read of a shard ends, for the region's load, swap, rollback or relocation when that has it in flight, or else for a
held array (R380, R383, R385). -/
def execShardArrival (region shard : Nat) (data : Option Bytes) (s : State) : Res :=
  let r := s.region region
  match r.op with
  | none => .next (repairRead s region shard data)
  | some o =>
    let (m, _, _) := opSource r o
    let shut : Bool := match r.img with
      | some b => !b.bound && o.phase = .rollback && (match Tbl.find r.windows b.slot with | some w => !w.read | none => true)
      | none => false
    if !shut ∧ (inFlightShards r o).contains shard then
      match m.shards.find? fun h => h.shard = shard with
      | some h => .next (shardRead s region o h data)
      | none => .next s
    else .next (repairRead s region shard data)

/-! ## Arrays programmed and read back (R383, R384, R389) -/

/-- ARRAY_PROGRAMMED: the array holds its record, unless its core has died; the budget passes to the next one. -/
def execArrayProgrammed (core array : Nat) (failed : List Nat) (s : State) : Res :=
  let key := 32 * core + array
  match s.regions.find? fun e => match e.2.op with | some o => o.busy.contains key | none => false with
  | none => .next s
  | some (n, r) =>
    match r.op with
    | none => .next s
    | some o =>
      if s.thermal.state ≠ 0 ∨ s.power.auxLost.isSome then .next s
      else if !usable s core then .next (advance (setOp s n { o with busy := o.busy.filter (· ≠ key) }) n)
      else
        let (m, _, ps) := opSource r o
        let hit := (wantedShards r o).findSome? fun h => ((shardTiles m ps h).find? fun x => x.2.2 = (core, array)).map fun x => (h, x)
        match hit with
        | none => .next s
        | some (h, i, t, _) =>
          let st := o.shard h
          let b := Tbl.get st.records [] i
          let s := setOp s n ({ o with busy := o.busy.filter (· ≠ key) }.setShard h { st with done := st.done ++ [i] })
          .next (advance (programArray (opProgress s n) core array b (t.layer, t.shard, t.offset) failed) n)

/-- The shard as its arrays give it back, and the rebuilt record of each tile. -/
def rebuildShard (s : State) (base size : Nat) (st : ShardSt) (ts : List (Nat × TileEnt × (Nat × Nat))) : Bytes × List ((Nat × Nat) × Bytes) :=
  let recs := ts.zipIdx.map fun x =>
    let (c, a) := x.1.2.2
    let k := s.core c
    (x.1.2.1.offset, (c, a),
      if leftOut s (c, a) then Tbl.get st.records [] x.1.1
      else (k.arr a).toRecord (base + 2 ^ 21 * x.2) (a % 4) (k.set (a / 4)).outliers)
  (slice (recs.foldl (fun b r => patchAt b r.1 r.2.2) (List.replicate size 0)) 0 size, recs.map fun r => (r.2.1, r.2.2))

/-- Every tile of a shard is in its array, but those that a rollback leaves out (R383, R585). -/
def shardWritten (s : State) (o : LoadOp) (st : ShardSt) (ts : List (Nat × TileEnt × (Nat × Nat))) : Bool :=
  st.arrived && !st.verified && ts.all fun x =>
    (o.phase = .rollback && leftOut s x.2.2) || (st.done.contains x.1 && !o.busy.contains (arrayKey x.2.2))

/-- The converter sets of the arrays are free to read them: no evaluation, slice or programming uses one (R43, R44). -/
def setsFree (s : State) (ts : List (Nat × TileEnt × (Nat × Nat))) : Bool :=
  ts.all fun x => leftOut s x.2.2 || (let t := (s.core x.2.2.1).set (x.2.2.2 / 4); t.use = 0 && t.slice.isNone)

/-- SHARD_READBACK: once the arrays' sets are free, the rebuilt shard's digest is compared with the manifest, or in a relocation each tile's
with the record read (R279, R383, R384); after a mismatch the shard is read again.  DESIGN CHOICE: the read takes one row, so that no set is
seen in use for it. -/
def execShardReadback (region shard : Nat) (s : State) : Res :=
  let r := s.region region
  match r.op with
  | none => .next s
  | some o =>
    let (m, _, ps) := opSource r o
    let st := o.shard shard
    let ts := (shardTiles m ps shard).filter fun x => o.phase ≠ .relocate || o.moved.contains x.2.1.vcore
    if o.phase = .verify ∨ !(wantedShards r o).contains shard ∨ !shardWritten s o st ts ∨ !setsFree s ts then .next s
    else
      let (base, s) := s.draw (2 ^ 21 * ts.length)
      let size := match m.shards.find? fun h => h.shard = shard with | some h => h.size | none => 0
      let (whole, recs) := rebuildShard s base size st ts
      let s := ts.zipIdx.foldl (fun s x => if leftOut s x.1.2.2 then s else (s.readRecord x.1.2.2.1 x.1.2.2.2 (base + 2 ^ 21 * x.2)).2) s
      let good := if o.phase = .relocate then (ts.zip recs).all fun x => x.2.2 = Tbl.get st.records [] x.1.1
        else (m.manifest.any fun e => e.shard = shard && e.digest = sha256 whole)
      let clear (s : State) : State := ts.foldl (fun s x => s.updCore x.2.2.1 fun k => k.setArr x.2.2.2 { k.arr x.2.2.2 with digest := [] }) s
      if good then
        let s := (ts.zip recs).foldl (fun s x => if leftOut s x.1.2.2 then s else s.updCore x.1.2.2.1 fun k => k.setArr x.1.2.2.2 { k.arr x.1.2.2.2 with
          digest := sha256 x.2.2, tile := some (x.1.2.1.layer, x.1.2.1.shard, x.1.2.1.offset) }) s
        let o := o.setShard shard { st with verified := true }
        let o := { o with layers := if o.phase = .rewrite then layersDone r o else o.layers }
        .next (advance (keepRecord (opProgress (setOp s region o) region) region) region)
      else if 3 ≤ st.failures then .next (opFail (clear s) region 2 10 shard)
      else .next (setOp (clear s) region (o.setShard shard { ShardSt.reset with failures := st.failures + 1 }))

end Sys2Proof.Machine
end

