-- ==== Sys2Proof/Machine/Swap.lean ====
section
/-!
DEFINITION. The rows of a swap, a relocation and a rebinding (R277 to R282, R391 to R402), and the commands LOAD, UNLOAD, SWAP,
RELOCATE and WINDOW (R263, R286, R312, R434 to R440).
-/
namespace Sys2Proof.Machine

/-! ## Swap rows -/

/-- SWAP_BARRIER_CLOSED: the barrier is closed, which ends the running tuning jobs; once no step is in flight behind it the rewrite
begins (R393, R396, R400). -/
def execSwapBarrierClosed (region : Nat) (s : State) : Res :=
  let r := s.region region
  match r.op, r.img with
  | some o, some _ =>
    if !(o.swap ∧ o.phase = .drain ∧ !o.later ∧ drainShut s region o) then .next s
    else if o.failed.isSome then .next (advance s region)
    else
      let s := endSwapJobs (setOp s region { o with closed := true }) region
      let r := s.region region
      if !(r.steps.isEmpty ∧ r.flush.isNone) then .next s else
      let s := keepRecord (setOp s region { o with phase := .rewrite, since := s.now, closed := true, shards := [], layers := 0, reports := [] }) region
      let s := if o.lead then opControlAll s region 4 0 else s
      .next (advance s region)
  | _, _ => .next s

/-- DRAIN_DEADLINE: the barrier closes although old requests still run (R393, R396). -/
def execDrainDeadline (region : Nat) (s : State) : Res :=
  match (s.region region).op with
  | some o =>
    if o.swap ∧ o.phase = .drain ∧ !o.later ∧ o.policy = 0 ∧ !o.closed ∧ s.passed o.since (o.drain * 1000000) then
      .next (endSwapJobs (setOp s region { o with closed := true }) region)
    else .next s
  | none => .next s

/-- Stage 0 orders the switch once it and every other stage have rewritten (R400 step 5). -/
def orderSwitch (s : State) (n : Nat) : State :=
  match (s.region n).op with
  | some o => if o.failed.isSome then advance s n else if o.switched then opControlAll (keepRecord s n) n 6 0 else s
  | none => s

/-- SWAP_ACTIVATE: every layer is rewritten; the new sections are bound and the version switches (R392 phases 3 and 4, R400). -/
def execSwapActivate (region : Nat) (control : Option Bytes) (s : State) : Res :=
  let r := s.region region
  match r.op, r.img with
  | some o, some b =>
    if o.swap ∧ o.phase = .rewrite ∧ o.failed.isNone ∧ allVerified r o then
      let s := winAsk s region o.slot 0 o.img.ctlBytes
      let new := { b with img := o.img, slot := o.slot, stageTab := o.stageTab }
      let whole : Bool := match control with | some c => sha256 c = o.img.ctlDigest | none => false
      match if whole then bindImage s region new (control.getD []) false else none with
      | none => .next (advance (opFail s region 2 10 0) region)
      | some s =>
        let s := restartCores s new
        if !o.grouped then .next (finishSwap s region)
        else
          let s := setOp s region { o with phase := .activate, since := s.now }
          .next (if o.later then opControl s region 0 5 0 else orderSwitch s region)
    else if o.swap ∧ (o.phase = .rewrite ∨ o.phase = .activate) ∧ o.failed.isSome then .next (advance s region)
    else .next s
  | _, _ => .next s

/-- SWAP_GROUP_TIMEOUT: stage 0 has not every report, or a later stage has not reported itself, within SwapGroupTimeout: the swap ends
TIMEOUT with nothing rewritten (R401). -/
def execSwapGroupTimeout (region : Nat) (s : State) : Res :=
  match (s.region region).op with
  | some o =>
    if o.swap ∧ o.grouped ∧ o.phase = .verify ∧ s.passed o.since (s.setting 0x6480 7 600000 * 1000000) then
      let s := if o.later then opControl s region 0 3 6 else opControlAll s region 8 6
      .next (endSwapEarly s region 6 0 0)
    else .next s
  | none => .next s

/-! ## Relocation (R278 to R282, R583) -/

/-- A route that virtual core v would use from core q under a placement is forbidden (R583). -/
def usesForbidden (r : Region) (m : Image) (l : List Placed) (v : Nat) : Bool :=
  let at_ (c : Nat) : Option Nat := firstIdx (fun (p : Placed) => p.core = c) l
  r.forbidden.any fun f => (at_ f.1 = some v || at_ f.2 = some v) &&
    (exitRouter r.exit f.1 = some f.2 || exitRouter r.exit f.2 = some f.1 ||
      (match at_ f.1, at_ f.2 with | some x, some y => routeUsed m x y | _, _ => false))

/-- New places from which no used route is forbidden: cores that have one are left out in turn. -/
def placeClear (s : State) (n : Nat) (b : BoundImage) (vs : List Nat) : Nat → List Nat → Option (List Placed) × Nat
  | 0, _ => (none, 0)
  | f + 1, ban =>
    match placeMoved s n b vs ban with
    | (none, x) => (none, x)
    | (some l, x) =>
      let bad := (vs.filter fun v => usesForbidden (s.region n) b.img l v).filterMap fun v => l[v]?.map (·.core)
      if bad.isEmpty then (some l, x) else let y := placeClear s n b vs f (ban ++ bad); (y.1, x + y.2)

/-- A virtual core's core is usable and its arrays are in service. -/
def whole (s : State) (b : BoundImage) (v : Nat) : Bool := match b.img.cores[v]?, b.placed[v]? with
  | some e, some p => usable s p.core && (List.range 32).all fun a => !e.arrays.getLsbD a || (s.core p.core).arrIn (p.array a)
  | _, _ => false

/-- The virtual cores that a queued relocation still has to move: those that are still on the cores it vacates, or whose array has gone. -/
def stillToMove (s : State) (b : BoundImage) (vs olds : List Nat) : List Nat :=
  if olds.isEmpty then vs.filter fun v => !whole s b v
  else vs.filter fun v => match b.placed[v]? with | some p => olds.contains p.core | none => false

/-- New places for a queued relocation, with the second sweeps it took: a new arrangement on the same core where one array has gone,
else other cores. -/
def relocPlaces (s : State) (n : Nat) (b : BoundImage) (vs olds : List Nat) (asked : Bool) : Option (List Placed) × Nat :=
  if olds.isEmpty then
    match vs with
    | [v] => match b.img.cores[v]?, b.placed[v]? with
      | some e, some p => match fitOn (s.core p.core) e.arrays with
        | some (pi, sig) => (some (setNth b.placed v ⟨p.core, pi, sig⟩), 0)
        | none => placeMoved s n b vs [p.core]
      | _, _ => (none, 0)
    | _ => (none, 0)
  else if !asked ∧ vs.all (whole s b) then placeClear s n b vs (rectCores (s.region n).nw (s.region n).se).length olds
  else placeMoved s n b vs olds

/-- The moved tiles with the records read for them, in tile order; none when one could not be read whole. -/
def relocRecords (s : State) (b : BoundImage) (vs : List Nat) (tiles : List (Option Bytes)) : Except Nat (List (Nat × TileEnt × Bytes)) :=
  let ts := (b.img.tiles.zipIdx.filter fun x => vs.contains x.1.vcore && !x.1.host)
  let one (x : (TileEnt × Nat) × Nat) : Except Nat (Nat × TileEnt × Bytes) :=
    let t := x.1.1
    match (tiles[x.2]?).join, tilePlace b.placed t with
    | some d, some (c, a) =>
      let d := slice d 0 (recLen d)
      if sha256 d = ((s.core c).arr a).digest then .ok (x.1.2, t, d) else .error t.shard
    | _, _ => .error t.shard
  ts.zipIdx.mapM one

/-- The fallbacks in the window of the tiles that move, by tile: they are the tile's, and follow it (R94). -/
def carriedFallbacks (s : State) (b : BoundImage) (vs : List Nat) : List (Nat × List Nat) :=
  (b.img.tiles.zipIdx.filter fun x => vs.contains x.1.vcore && !x.1.host).filterMap fun x =>
    (tilePlace b.placed x.1).map fun p => (x.2, ((s.core p.1).arr p.2).fallbacks)

/-- The work of a relocation that has its places, its control part and its records: an array that holds its record already is not written
(R390). -/
def relocOp (s : State) (b : BoundImage) (h : Option Nat) (vs : List Nat) (l : List Placed) (control : Bytes)
    (recs : List (Nat × TileEnt × Bytes)) : LoadOp :=
  let put (t : Tbl ShardSt) (x : Nat × TileEnt × Bytes) : Tbl ShardSt :=
    let st := Tbl.get t ShardSt.reset x.2.1.shard
    let held : Bool := match tilePlace l x.2.1 with
      | some (c, a) => ((s.core c).arr a).digest = sha256 x.2.2
      | none => false
    Tbl.set t x.2.1.shard { st with
      arrived := true, records := Tbl.set st.records x.1 x.2.2, done := if held then st.done ++ [x.1] else st.done }
  { handle := h, swap := false, phase := .relocate, img := b.img, slot := b.slot, stageTab := b.stageTab, control := control,
    shards := recs.foldl put [], busy := [], touched := [], layers := 0, since := s.now, reports := [], failed := none, policy := 0,
    drain := 0, closed := false, moved := vs, spots := l, carried := carriedFallbacks s b vs }

/-- RELOCATION: the barrier has drained, and the first queued relocation chooses its cores, takes the control part and the tiles from
the source window, and begins to program (R279 to R281). -/
def execRelocation (region : Nat) (control : Option Bytes) (tiles : List (Option Bytes)) (s : State) : Res :=
  let r := s.region region
  match r.relocs, r.img with
  | (vs, olds, h) :: _, some b =>
    let drained : Bool := match r.flush with | none => r.steps.isEmpty | some f => f.phase = 2 || f.phase = 4
    let vs := stillToMove s b vs olds
    if r.state ≠ 1 ∨ r.op.isSome ∨ !b.bound ∨ !drained then .next s
    else if vs.isEmpty then
      -- a relocation before it in the queue has moved them already
      .next (tryRelease (finishOp (s.updRegion region fun r => { r with relocs := r.relocs.drop 1 }) h 0 0 0) region)
    else match relocPlaces s region b vs olds h.isSome with
      | (none, relaxed) => .next (relocFail (s.countSpread relaxed) region)
      | (some l, relaxed) =>
        let moved := (b.img.tiles.filter fun t => vs.contains t.vcore && !t.host).map (·.shard)
        let s := (b.img.shards.filter fun h => moved.contains h.shard).foldl (fun s h => winAsk s region b.slot h.source (shardSpan s h))
          (winAsk (s.countSpread relaxed) region b.slot 0 b.img.ctlBytes)
        let open_ := sourceOpen r b
        let ctlOk : Bool := match control with | some c => sha256 c = b.img.ctlDigest | none => false
        let recs := if open_ && ctlOk then relocRecords s b vs tiles else .error 0
        match recs with
        | .error shard => .next (relocFail (s.recordErr (plainRec s 0x0304 (some region) shard 0)) region)
        | .ok recs => .next (advance (setOp s region (relocOp s b h vs l (control.getD []) recs)) region)
  | _, _ => .next s

/-! ## Binding again after a start (R277, R385, R388) -/

/-- Check every array that holds a tile of the image against its stored digest; one that differs is held (R385). -/
def checkArrays (s : State) (b : BoundImage) : State :=
  b.img.tiles.foldl (fun s t => if t.host then s else match tilePlace b.placed t with
    | none => s
    | some (c, a) =>
      let x := (s.core c).arr a
      if x.state ≠ 0 ∧ ¬(x.state = 4 ∧ x.retries = 0) then s
      else
        let (base, s) := s.draw (2 ^ 21)
        let (whole, s) := s.readRecord c a base
        if sha256 whole = x.digest then s
        else s.updCore c fun k => k.setArr a { x with state := 4, retries := 1 }) s

/-- What follows when an image is bound and none of its arrays is held: a later stage reports, stage 0 activates (R388, R604). -/
def reportBound (s : State) (n : Nat) : State :=
  match (s.region n).img with
  | some b =>
    if !b.bound ∨ b.active ∨ b.stopped ∨ !noneHeld s b then s
    else if laterStage s n then sendControl s b 0 1 0 b.img.version [] else tryActivate s n
  | none => s

/-- REBIND: the recorded image is bound again from its control part; after a cold start its arrays are checked. -/
def execRebind (region : Nat) (control : Option Bytes) (s : State) : Res :=
  let r := s.region region
  match r.img, control with
  | some b, some c =>
    let open_ := sourceOpen r b
    if b.bound ∨ r.op.isSome ∨ s.boot.phase ≠ .complete ∨ !open_ ∨ sha256 c ≠ b.img.ctlDigest then .next s
    else match bindImage (winAsk s region b.slot 0 b.img.ctlBytes) region b c true with
      | none => .next s
      | some s =>
        let s := startCores s b
        let b' := { b with bound := true, ctl := c }
        let s := s.updRegion region fun r => { r with img := some b' }
        let s := if b.version = 0 then checkArrays s b' else s
        let dead := (List.range b.placed.length).filterMap fun v => match b.placed[v]? with
          | some p => if (s.core p.core).fence.isSome then some (v, p.core) else none
          | none => none
        match dead with
        | [] => .next (reportBound s region)
        | (v, _) :: _ =>
          if s.setting 0x2010 1 1 = 0 then .next (faultRegion s region 0x0302 v)
          else .next (reportBound (s.updRegion region fun r => { r with relocs := r.relocs ++ dead.map fun x => ([x.1], [x.2], none) }) region)
  | _, _ => .next s

/-! ## LOAD and SWAP -/

/-- The image signers' key slots (R553). -/
def signerKey (s : State) (i : Nat) : Option Bytes :=
  match Tbl.find s.od.vals (odKey (0xA010 + i) 0) with | some k => if k.length = 60 then some k else none | none => none

/-- The image that a LOAD or SWAP names, its stage table and control part, or the detail that refuses it, in the order of the
checks: window, structure, stage table, grant, windows section, R602, model key, manifest. -/
def namedImage (s : State) (n slot count : Nat) (stages control manifest : Option Bytes) : Except Nat (Image × List Nat × Bytes) :=
  let r := s.region n
  match Tbl.find r.windows slot, control with
  | some w, some c =>
    if !w.read ∨ w.size < c.length then .error 4
    else match parseImage c (s.setting 0x2010 1 1 = 1) with
      | none => .error 2
      | some m =>
        let tab := if count = 0 then [] else (entries 4 (slice (stages.getD []) 0 (4 * count))).map (bits · 14 0)
        let need (x : Nat × Nat × Nat) : Bool := match Tbl.find r.windows x.1 with
          | some w => x.2.2 ≤ w.size && (!bitAt x.2.1 0 || w.read) && (!bitAt x.2.1 1 || w.write)
          | none => false
        let twin : Bool := 1 < m.stages && s.regions.any fun e => e.1 ≠ n &&
          (match e.2.img with | some b => b.img.stage = m.stage && b.stageTab = tab | none => false)
        let keyed : Bool := !custodyOn s || (match r.keyPend with | some k => k.1 = m.version && k.2.1 = m.stage | none => false)
        if tab.length ≠ m.stages ∧ !(m.stages = 1 ∧ count = 0) then .error 2
        else if 1 < m.stages ∧ !r.grant.getLsbD 1 then .error 1
        else if !m.windows.all need then .error 4
        else if twin then .error 19
        else if !keyed then .error 18
        else match manifest with
          | none => .error 4
          | some x =>
            if w.size < alignUp m.ctlBytes 64 + x.length then .error 4
            else if !manSigOk (signerKey s) x then .error 11
            else if !manAgrees c m x then .error 12
            else .ok (m.withManifest x, tab, slice c 0 m.ctlBytes)
  | _, _ => .error 4

/-- A LOAD or SWAP reads its stage table through the queue's site, and the control part and the manifest through the source window (R263, R437). -/
def askImage (s : State) (o : HOut) (stages control manifest : Option Bytes) : State × Option Bytes :=
  let n := fieldAt o.cmd 16 1
  let slot := fieldAt o.cmd 17 1
  let (s, stages) := s.operand o (fieldAt o.cmd 24 8) (4 * fieldAt o.cmd 18 1) stages
  let c := (control.getD []).length
  (winAsk (winAsk s n slot 0 c) n slot (alignUp c 64) (manifest.getD []).length, stages)

/-- LOAD (R263, R264, R386, R387): the checks, the placement, and the beginning of the shards' arrival. -/
def execLoad (h : Nat) (stages control manifest : Option Bytes) (s : State) : Res :=
  .next (s.onCmd h 0x30 fun o =>
    let (s, stages) := askImage s o stages control manifest
    let n := fieldAt o.cmd 16 1
    let slot := fieldAt o.cmd 17 1
    let count := fieldAt o.cmd 18 1
    let r := s.region n
    if count ≠ 0 ∧ stages.isNone then s.finish h 5 4 0 0
    else if 64 ≤ n ∨ r.state ≠ 1 ∨ !r.grant.getLsbD 0 then s.finish h 5 1 0 0
    else if r.img.isSome then s.finish h 5 3 0 0
    else match namedImage s n slot count stages control manifest with
      | .error d => s.finish h 5 d 0 0
      | .ok (m, tab, c) =>
        match placeImage s n m with
        | (.error d, relaxed) => (s.countSpread relaxed).finish h 4 d 0 0
        | (.ok (l, y), relaxed) =>
          let s := (bindSyncs s n y).countSpread relaxed
          let b : BoundImage :=
            { img := m, ctl := c, slot := slot, stageTab := tab, placed := l, syncIdx := y, bound := false, active := false,
              version := 0, epoch := 0, reported := [], flushed := [], stopped := false }
          let op : LoadOp :=
            { handle := some h, swap := false, phase := .loadProgram, img := m, slot := slot, stageTab := tab, control := c, shards := [],
              busy := [], touched := [], layers := 0, since := s.now, reports := [], failed := none, policy := 0, drain := 0,
              closed := false, moved := [], spots := [], carried := [] }
          let s := s.updRegion n fun r => { r with
            img := some b, op := some op, pool := [], cursor := 0, delivered := 0, steps := [], again := [], genRun := 0, bucket := 0 }
          advance (s.keep h fun o => { o with running := true, since := s.now }) n)

/-- The new image can replace the bound one in place (R391); a split region has no active version. -/
def swapFits (b : BoundImage) (m : Image) : Bool :=
  let plain (e : CoreEnt) : CoreEnt := { e with prog := 0, data := 0 }
  let spots (i : Image) : List (Nat × Nat × Bool) := i.tiles.map fun t => (t.vcore, t.varray, t.host)
  m.stage = b.img.stage && m.cores.map plain = b.img.cores.map plain && (spots m).all (spots b.img).contains &&
  (spots b.img).all (spots m).contains && m.vsyncs = b.img.vsyncs && m.syncs = b.img.syncs &&
  !(b.active && m.version = b.version)

/-- SWAP (R386, R391, R392, R406): the checks, and phase 1 begins. -/
def execSwap (h : Nat) (stages control manifest : Option Bytes) (s : State) : Res :=
  .next (s.onCmd h 0x32 fun o =>
    let (s, stages) := askImage s o stages control manifest
    let n := fieldAt o.cmd 16 1
    let slot := fieldAt o.cmd 17 1
    let count := fieldAt o.cmd 18 1
    let r := s.region n
    if count ≠ 0 ∧ stages.isNone then s.finish h 5 4 0 0
    else if 64 ≤ n ∨ (r.state ≠ 1 ∧ !r.split) ∨ !r.grant.getLsbD 0 then s.finish h 5 1 0 0
    else match r.img with
      | none => s.finish h 5 15 0 0
      | some b =>
        if (!b.active ∧ !r.split) ∨ r.op.isSome ∨ !r.relocs.isEmpty then s.finish h 5 15 0 0
        else match namedImage s n slot count stages control manifest with
          | .error d => s.finish h 5 d 0 0
          | .ok (m, tab, c) =>
            if !swapFits b m then s.finish h 5 14 0 0
            else
              let op : LoadOp :=
                { handle := some h, swap := true, phase := .verify, img := m, slot := slot, stageTab := tab, control := c, shards := [],
                  busy := [], touched := [], layers := 0, since := s.now, reports := [], failed := none,
                  policy := s.setting (0x6400 + n) 1 0, drain := s.setting (0x6400 + n) 2 60000, closed := false, moved := [], spots := [],
                  carried := [] }
              advance ((setOp s n op).keep h fun o => { o with running := true, since := s.now }) n)

/-! ## UNLOAD -/

/-- The watches of a region disarm (R631). -/
def disarmRegion (s : State) (n : Nat) : State :=
  { s with observe := { s.observe with watches := Tbl.map (fun _ w => if w.region = n then { w with state := 0 } else w) s.observe.watches } }

/-- UNLOAD: the image leaves its region with its requests, blocks, index entries, key and watches; a FAULTED region returns to service
when its routes hold (R262, R312, R398, R565, R584, R631). -/
def execUnload (h : Nat) (s : State) : Res :=
  .next (s.onCmd h 0x31 fun o =>
    let n := fieldAt o.cmd 16 1
    let r := s.region n
    match if n < 64 then r.img else none with
    | none => s.finish h 5 0 0 0
    | some b =>
      let s := if b.grouped ∧ b.img.stage ≠ 0 ∧ b.bound then sendControl s b 0 1 1 b.img.version [] else s
      let s := match r.op with
        | some x => finishOp (stopBusy s x.busy) x.handle 5 15 0
        | none => s
      let s := (r.relocs.filterMap (·.2.2)).foldl (fun s h => s.finish h 4 0 0 0) s
      let s := freeEnded (endJobs (endReqs s (liveOf s n) 7 0) n fun _ => true) n
      let s := disarmVigil (disarmRegion (dropIndex (dropImage s n b) n) n) n
      let s := s.updRegion n fun r => { r with
        img := none, op := none, relocs := [], flush := none, split := false, pool := [], cursor := 0, steps := [], again := [],
        delivered := 0, genRun := 0, bucket := 0, keyAct := none }
      let s := if (s.region n).state = 2 ∧ routesOk s n then s.updRegion n fun r => { r with state := 1 } else s
      (keepRecord s n).finish h 0 0 0 0)

/-! ## RELOCATE -/

/-- RELOCATE: the list is checked whole, then vacated as one trigger (R278, R434 to R437, R440). -/
def execRelocate (h : Nat) (list : Option Bytes) (s : State) : Res :=
  .next (s.onCmd h 0x33 fun o =>
    let n := fieldAt o.cmd 16 1
    let count := fieldAt o.cmd 20 4
    let r := s.region n
    if count = 0 then s.finish h 0 0 0 0
    else if 19200 < count then s.finish h 5 2 0 0
    else
      let (s, list) := s.operand o (fieldAt o.cmd 24 8) (4 * count) list
      if list.isNone then s.finish h 5 0 0 0 else
      let es := entries 4 (slice (list.getD []) 0 (4 * count))
      let ok (e : Nat) : Bool := e / 65536 ≤ 127 && e % 65536 ≤ 149 && n < 64 && r.state ≠ 0 &&
        inRect r.nw r.se (coreKey (e / 65536) (e % 65536))
      match firstIdx (fun e => !ok e) es with
      | some i => s.finish h 5 1 0 i
      | none =>
        if s.setting 0x2010 1 1 = 0 then s.finish h 5 0 0 0
        else
          let cs := sortBy id (es.map fun e => coreKey (e / 65536) (e % 65536)).eraseDups
          let vs := cs.filterMap fun c => holderOf s n c
          if vs.isEmpty then s.finish h 0 0 0 0
          else if r.state = 2 then s.finish h 4 0 0 0
          else (s.setRegion n (r.queueReloc (vs, cs, some h) cs)).keep h fun o => { o with running := true, since := s.now })

/-! ## WINDOW -/

/-- Class 1 reads under way through a slot of a region (R439). -/
def slotReads (s : State) (n slot : Nat) : List Nat :=
  (s.host.reads.filterMap fun e => match e.2.use with
    | .class1 c _ _ sl _ _ _ => if sl = slot ∧ ownerOf s c = some n then some e.1 else none
    | _ => none) ++
  s.host.writes.filterMap fun e => if e.2.slot = slot ∧ ownerOf s (hubCore e.1) = some n then some e.1 else none

/-- WINDOW: grant, replace or withdraw a slot; its COMPLETE waits for the class 1 requests accepted under the old record (R438, R439). -/
def execWindow (h : Nat) (s : State) : Res :=
  .next (s.onCmd h 0x34 fun o =>
    let n := fieldAt o.cmd 16 1
    let slot := fieldAt o.cmd 17 1
    let access := fieldAt o.cmd 18 1
    let sites := fieldAt o.cmd 19 1
    let base := fieldAt o.cmd 24 8
    let size := fieldAt o.cmd 32 8
    let named : Bool := sites ≠ 0 && sites < 16 && (List.range 4).all fun i => !bitAt sites i || (s.site i).up
    let fits : Bool := base % 4096 = 0 && size % 4096 = 0 && size ≤ 2 ^ 40 - 4096 && 1 ≤ access && access ≤ 3 && named
    if 64 ≤ n ∨ 16 ≤ slot ∨ (size ≠ 0 ∧ !fits) then s.finish h 5 0 0 0
    else
      let w : Window := { base := base, size := size, sites := sites, write := bitAt access 1, read := bitAt access 0 }
      let tags := slotReads s n slot
      let s := s.updRegion n fun r => { r with windows := if size = 0 then Tbl.del r.windows slot else Tbl.set r.windows slot w }
      if tags.isEmpty then s.finish h 0 0 0 0 else s.keep h fun o => { o with running := true, tags := tags })

end Sys2Proof.Machine
end

