-- ==== Sys2Proof/Machine/Fabric.lean ====
section
/-!
DEFINITION. The Waloskuno rows: ports and HELLO (R590 to R601), class 2 writes from a peer (R603), CONTROL traffic of pipeline groups
(R400, R401, R604, R605), lost peers (R607), and Almanac alignment (R608 to R612).
-/
namespace Sys2Proof.Machine

/-! ## Almanac root (R608, R612) -/

/-- The best root that the neighbours on up ports report: root, its hops there, port and peer. -/
def almanacBest (s : State) : Option (Nat × Nat × Nat × Nat) :=
  let all := s.fabric.ports.flatMap fun e => if e.2.state ≠ 3 then [] else
    e.2.chans.filterMap fun c => if c.2.rootHops < 255 ∧ c.2.rootId ≠ engineId s then some (c.2.rootId, c.2.rootHops, e.1, c.1) else none
  all.foldl (fun b x => match b with
    | none => some x
    | some y => if x.1 < y.1 ∨ (x.1 = y.1 ∧ x.2.1 < y.2.1) then some x else some y) none

/-- Set the alignment state; a change posts event 16 (R612, R614). -/
def setAlmanac (s : State) (st root hops : Nat) : State :=
  let old := s.fabric.state
  let s := { s with fabric := { s.fabric with state := st, root := root, hops := hops } }
  if st = old then s else s.postEvent 16 0 st root

/-- Choose the root anew. -/
def chooseRoot (s : State) : State :=
  let id := engineId s
  let lead : Bool := s.setting 0x7000 3 0 = 1 && id ≠ 0xFFFF
  match almanacBest s with
  | some (root, hops, _, _) =>
    if lead ∧ id ≤ root then setAlmanac s 1 id 0
    else if s.fabric.state = 2 ∨ s.fabric.state = 3 then setAlmanac s s.fabric.state root (hops + 1)
    else setAlmanac { s with fabric := { s.fabric with good := 0, bad := 0 } } 3 root (hops + 1)
  | none =>
    if lead then setAlmanac s 1 id 0
    else setAlmanac s (if 2 ≤ s.fabric.state then 4 else 0) 0xFFFF 0xFF

/-! ## HELLO (R599, R600) -/

/-- The initial grant of a channel: the whole buffer in direct mode, a 64th of it in switched mode (R595, R599). -/
def helloGrant (mode : Nat) : Bytes :=
  let n := if mode = 0 then 1 else 64
  slice (leBytes 4 (2048 / n) ++ leBytes 4 (49152 / n) ++ leBytes 4 (14336 / n)) 0 64

def helloFrame (s : State) (grant : Bytes) : FFrame :=
  let v := s.setting 0x7000 2 0 * 2 ^ 48 + s.fabric.root % 2 ^ 15 * 2 ^ 33 + s.fabric.hops % 256 * 2 ^ 25 + s.setting 0x7000 3 0 % 2 * 2 ^ 24
  { blankFrame s 5 0 0 with specific := BitVec.ofNat 80 v, payload := grant }

/-- The key of a direct port's channel before its peer is known. -/
def linkKey : Nat := 0xFFFF

/-- Send a HELLO on a port: numbered on the one channel of a direct port, broadcast on a switched one. -/
def sendHello (s : State) (p : Nat) (grant : Bytes) : State :=
  let x := s.port p
  if x.mode = 0 then s.putFrame p (if x.peer = 0xFFFF then linkKey else x.peer) (helloFrame s grant)
  else s.sendFrame p (helloFrame s grant)

/-- Give a direct port's channel its peer's name. -/
def namePeer (s : State) (p peer : Nat) : State :=
  let x := s.port p
  match Tbl.find x.chans linkKey with
  | some c => if x.mode = 0 ∧ peer ≠ linkKey then s.setPort p { x with chans := Tbl.set (Tbl.del x.chans linkKey) peer c } else s
  | none => s

/-- A later stage whose stage 0 is heard of again reports that it is bound once more (R607). -/
def heardAgain (s : State) (peer : Nat) : State :=
  if !s.fabric.lost.contains peer then s
  else
    let s := { s with fabric := { s.fabric with lost := s.fabric.lost.filter (· ≠ peer) } }
    (s.regions.map (·.1)).foldl (fun s n => match (s.region n).img with
      | some b => if b.grouped ∧ b.img.stage ≠ 0 ∧ b.engineOf 0 = peer then reportBound s n else s
      | none => s) s

/-- What an accepted HELLO says: a conflict or another domain leaves the port HELLO only; else its grant and root are taken. -/
def takeHello (s : State) (p : Nat) (f : FFrame) : State :=
  let x := s.port p
  let v := f.specific.toNat
  let peer := f.srcEngine
  let clash : Bool := engineId s ≠ 0xFFFF && peer = engineId s
  if clash ∨ bits v 79 48 ≠ s.setting 0x7000 2 0 then
    let s := s.setPort p { x with state := 4 }
    if clash ∧ x.state ≠ 4 then s.postEvent 15 0 (p * 2 ^ 56 + 4) 0xFFFFFFFF else s
  else
    let fresh := (Tbl.find x.chans peer).isNone || x.state ≠ 3
    let c := x.chan peer
    let g (i : Nat) : Nat := fieldAt f.payload (4 * i) 4
    let c := if zeros f.payload 0 12 then c else { c with credits := (Vector.replicate 3 0).set 0 (g 0) |>.set 1 (g 1) |>.set 2 (g 2) }
    let c := { c with rootId := bits v 47 33, rootHops := bits v 32 25 }
    let s := s.setPort p { x.setChan peer c with state := 3, peer := if x.mode = 0 then peer else x.peer }
    let s := if fresh ∧ x.mode ≠ 0 then s.sendFrame p { helloFrame s (helloGrant x.mode) with destEngine := peer } else s
    chooseRoot (heardAgain (s.drainChan p peer) peer)

/-- HELLO: on a direct port as every numbered frame, on a switched port a broadcast. -/
def execHello (port : Nat) (f : FFrame) (s : State) : Res :=
  if f.type ≠ 5 then .next s
  else if (s.port port).mode = 0 then
    let (s, ok) := (namePeer s port f.srcEngine).takeFrame port f
    .next (if ok then takeHello s port f else s)
  else if !f.crcOk then .next s
  else if f.vc ≠ 0 ∨ !frameReserved f ∨ (s.port port).state < 2 then .next s.dropFrame
  else .next (takeHello s port f)

/-- HELLO_PERIOD: every up port sends a HELLO that changes no credit (R608). -/
def execHelloPeriod (s : State) : Res :=
  let s := chooseRoot s
  let up := (s.fabric.ports.filter fun e => 3 ≤ e.2.state).map (·.1)
  .next (up.foldl (fun s p => sendHello s p (List.replicate 64 0)) s)

/-! ## Almanac exchange (R609, R610) -/

/-- The Almanac in 1/8 ns. -/
def almanac8 (s : State) : Nat := 8 * s.almanac.toNat % 2 ^ 64

/-- ALMANAC_EXCHANGE: a follower asks its upstream engine. -/
def execAlmanacExchange (s : State) : Res :=
  match almanacBest s with
  | some (_, _, p, peer) =>
    if s.fabric.state = 2 ∨ s.fabric.state = 3 then
      let t1 := almanac8 s
      let s := { s with fabric := { s.fabric with reqOut := some (p, t1) } }
      .next (s.putFrame p peer { blankFrame s 6 0 peer with specific := BitVec.ofNat 80 (2 ^ 72), payload := slice (leBytes 8 t1) 0 64 })
    else .next s
  | none => .next s

/-- ALMANAC_REQUEST: answered with t2 and t3. -/
def execAlmanacRequest (port : Nat) (f : FFrame) (s : State) : Res :=
  if f.type ≠ 6 ∨ bits f.specific.toNat 79 72 ≠ 1 then .next s
  else
    let t2 := almanac8 s
    let (s, ok) := s.takeFrame port f
    if ok then
      .next (s.putFrame port f.srcEngine { blankFrame s 6 0 f.srcEngine with
        specific := BitVec.ofNat 80 (2 * 2 ^ 72), payload := slice (leBytes 8 t2 ++ leBytes 8 (almanac8 s)) 0 64 })
    else .next s

/-- Take an offset, given in 1/16 ns (R610): a step while acquiring, else a slew; aligned after 16 exchanges below 2 ns, acquiring
again after 4 above 4 ns. -/
def takeOffset (s : State) (d : Int) : State :=
  let s := { s with fabric := { s.fabric with offset := d * 125 / 2 } }
  let far : Bool := 16000 < d || d < -16000
  let s := if far then
      if s.fabric.state = 3 then { s with almanac := s.almanac + BitVec.ofInt 64 (rneInt d 16), fabric := { s.fabric with slew := 0 } } else s
    else { s with fabric := { s.fabric with slew := d / 2 } }
  let good := if -32 < d ∧ d < 32 then s.fabric.good + 1 else 0
  let bad := if 64 < d ∨ d < -64 then s.fabric.bad + 1 else 0
  let s := { s with fabric := { s.fabric with good := good, bad := bad } }
  if s.fabric.state = 3 ∧ 16 ≤ good then setAlmanac { s with fabric := { s.fabric with bad := 0 } } 2 s.fabric.root s.fabric.hops
  else if s.fabric.state = 2 ∧ 4 ≤ bad then setAlmanac { s with fabric := { s.fabric with good := 0 } } 3 s.fabric.root s.fabric.hops
  else s

/-- ALMANAC_REPLY. -/
def execAlmanacReply (port : Nat) (f : FFrame) (t4 : Nat) (s : State) : Res :=
  if f.type ≠ 6 ∨ bits f.specific.toNat 79 72 ≠ 2 then .next s
  else
    let (s, ok) := s.takeFrame port f
    match if ok then s.fabric.reqOut else none with
    | some (p, t1) =>
      if p ≠ port ∨ !(s.fabric.state = 2 || s.fabric.state = 3) then .next s
      else
        let t2 := fieldAt f.payload 0 8
        let t3 := fieldAt f.payload 8 8
        .next (takeOffset { s with fabric := { s.fabric with reqOut := none } } (((t2 : Int) - t1) + ((t3 : Int) - t4)))
    | none => .next s

/-! ## Acknowledgement and replay (R598) -/

/-- ACK. -/
def execAck (port : Nat) (f : FFrame) (s : State) : Res := if f.type = 7 then .next (s.takeFrame port f).1 else .next s

/-- ACK_DELAY: an accepted frame has waited 1 µs for its acknowledgement. -/
def execAckDelay (port peer : Nat) (s : State) : Res :=
  let c := (s.port port).chan peer
  if c.owed ≠ 0 ∧ s.passed c.owedAt 1000 then .next (s.sendAck port peer false) else .next s

/-- REPLAY_TIMEOUT. -/
def execReplayTimeout (port peer : Nat) (s : State) : Res :=
  let c := (s.port port).chan peer
  if !c.unacked.isEmpty ∧ s.passed c.ackAt (1000 * s.setting 0x7000 8 50) then .next (s.replayChan port peer) else .next s

/-! ## Losing a peer (R607) -/

/-- Requests of DATA frames that are discarded complete with Status 5. -/
def dropData (s : State) (fs : List FFrame) : State :=
  let reqs := ((fs.filter fun f => f.type = 1).map fun f =>
    let v := f.specific.toNat
    (coreKey (bits v 31 24) (bits v 23 16), bits v 15 13, bits v 12 8)).eraseDups
  reqs.foldl (fun s r =>
    let ws := s.fabric.waits.map fun w => if w.core = r.1 ∧ w.q = r.2.1 ∧ w.req = r.2.2 then { w with left := 1 } else w
    class2Done { s with fabric := { s.fabric with waits := ws } } r.1 r.2.1 r.2.2 5) s

/-- The steps in flight of a region end with its requests. -/
def dropSteps (s : State) (n code : Nat) : State × Nat :=
  let r := s.region n
  let cs := ((r.steps ++ r.again).flatMap fun p => p.segs.map (·.ctx)).eraseDups.filter fun c =>
    match s.ctx? c with | some x => x.state ≠ .ended | none => false
  let s := cs.foldl (fun s c => endFaulted s c code) s
  let s := s.updRegion n fun r => { r with steps := [], again := [] }
  let gone := (s.serving.ctxs.filter fun e => e.2.d.region = n && e.2.state = .ended).map (·.1)
  (gone.foldl (fun s c => s.delCtx c) s, cs.length)

/-- A peer engine has become unreachable: the images of groups that need it are deactivated. -/
def peerLost (s : State) (port peer : Nat) : State :=
  let s := { s with fabric := { s.fabric with lost := (s.fabric.lost.filter (· ≠ peer)) ++ [peer] } }
  (s.regions.map (·.1)).foldl (fun s n =>
    match (s.region n).img with
    | none => s
    | some b =>
      if !b.grouped ∨ !b.bound then s
      else if b.img.stage ≠ 0 then
        if b.engineOf 0 = peer then s.updRegion n fun r => { r with img := some { b with active := false } } else s
      else
        let gone := b.others.filter fun i => b.engineOf i = peer
        if gone.isEmpty then s
        else
          let s := s.updRegion n fun r => { r with
            img := some { b with active := false, reported := b.reported.filter fun i => !gone.contains i } }
          let (s, k) := dropSteps s n 0x0601
          (s.recordErr (plainRec s 0x0601 (some n) peer k)).postEvent 15 0 (port * 2 ^ 56 + (s.port port).state) peer) s

/-- Drop a peer channel of a port: its unacknowledged and waiting frames go on the next port of the peer's set, ahead of later ones;
with none they are discarded and the peer is lost. -/
def dropChan (s : State) (p peer : Nat) : State :=
  let x := s.port p
  match Tbl.find x.chans peer with
  | none => s
  | some c =>
    let s := s.setPort p { x with chans := Tbl.del x.chans peer, peer := if x.mode = 0 then 0xFFFF else x.peer }
    let fs := (c.unacked ++ c.waiting).filter fun f => 1 ≤ f.type && f.type ≤ 4
    let set := portsTo s peer
    match (set.filter fun q => p < q) ++ set with
    | q :: _ =>
      let d := (s.port q).chan peer
      (s.setPort q ((s.port q).setChan peer { d with waiting := fs ++ d.waiting })).drainChan q peer
    | [] => if peer = linkKey then s else peerLost (dropData s fs) p peer

/-- A port goes down (R592). -/
def portGoesDown (s : State) (p : Nat) : State :=
  let x := s.port p
  let on : Bool := s.setting (0x7100 + p) 3 1 = 1
  let s := s.setPort p { x with state := if on then 1 else 0, downAt := s.now }
  let s := x.chans.foldl (fun s e => dropChan s p e.1) s
  chooseRoot (s.setPort p { s.port p with chans := [], peer := 0xFFFF })

/-- Every port goes down with its rail (R488, R592). -/
def portsDown (s : State) : State :=
  ((s.fabric.ports.filter fun e => 2 ≤ e.2.state).map (·.1)).foldl portGoesDown s

/-- PORT_DOWN: lock or alignment lost, the link degraded, a rail lost, or the port disabled. -/
def execPortDown (port reason : Nat) (s : State) : Res :=
  let x := s.port port
  let on : Bool := s.setting (0x7100 + port) 3 1 = 1
  let due : Bool := match reason with
    | 0 => 2 ≤ x.state
    | 1 => 2 ≤ x.state
    | 2 => 2 ≤ x.state && !(s.power.pgAux && s.power.pgOpt)
    | 3 => x.state ≠ 0 && !on
    | _ => false
  if port < 48 ∧ due then .next (portGoesDown s port) else .next s

/-- Begin a port's training: its mode is taken, and the HELLO with the grant goes out (R592, R597, R599, R613). -/
def trainPort (s : State) (p : Nat) : State :=
  let x := s.port p
  let m := s.setting (0x7100 + p) 2 0
  sendHello (s.setPort p { x with state := 2, mode := m, chans := [], peer := 0xFFFF }) p (helloGrant m)

/-- PORT_RETRAIN: a down, enabled port whose rails are good retrains every 100 ms; it is up after the HELLO exchange. -/
def execPortRetrain (port : Nat) (trained : Bool) (s : State) : Res :=
  let x := s.port port
  let on : Bool := s.setting (0x7100 + port) 3 1 = 1
  if !(s.factory.ports.contains port) ∨ x.state ≥ 2 ∨ !on ∨ !s.power.pgAux ∨ !s.power.pgOpt ∨ !s.passed x.downAt 100000000 then .next s
  else if trained then .next (trainPort s port)
  else .next (s.setPort port { x with state := 1, downAt := s.now })

/-- PEER_UNREACHABLE: a peer channel has replayed without an advance of Ack for PeerLossTimeout. -/
def execPeerUnreachable (peer : Nat) (s : State) : Res :=
  let hit := s.fabric.ports.filter fun e => match Tbl.find e.2.chans peer with
    | some c => c.noAck ≠ 0 && s.passed c.noAck (1000 * s.setting 0x7000 9 1000)
    | none => false
  .next ((hit.map (·.1)).foldl (fun s p => chooseRoot (dropChan s p peer)) s)

/-! ## Class 2 writes from a peer (R603) -/

/-- The bound image of a group that a frame is for (check 1). -/
def groupFor (s : State) (f : FFrame) : Option (Nat × BoundImage) :=
  s.regions.findSome? fun e => match e.2.img with
    | some b =>
      if b.bound ∧ b.img.stage = f.destStage ∧ b.engineOf f.destStage = engineId s ∧ b.engineOf f.srcStage = f.srcEngine ∧
        f.srcStage < b.stageTab.length then some (e.1, b) else none
    | none => none

/-- Count a refusal for its version (0x6480:08). -/
def countRefusal (s : State) : State := { s with fabric := { s.fabric with refusals := s.fabric.refusals + 1 } }

/-- The active version of an image: 0 until it is activated. -/
def BoundImage.activeVersion (b : BoundImage) : Nat := if b.active then b.version else 0

/-- The outcome of the checks of a DATA frame: its Status, or the region, the image and the home core. -/
def dataCheck (s : State) (f : FFrame) : Except Nat (Nat × BoundImage × Nat) :=
  let v := f.specific.toNat
  match groupFor s f with
  | none => .error 5
  | some (n, b) =>
    if v % 256 ≠ b.epoch then .error 5
    else if f.version ≠ b.activeVersion then .error 4
    else match firstIdx (fun (e : CoreEnt) => e.nomCol = bits v 79 72 && e.nomRow = bits v 71 64) b.img.cores with
      | none => .error 1
      | some i =>
        if bitAt v 63 ∧ b.img.vsyncs ≤ bits v 62 48 then .error 6
        else
          let w := walkOf (BitVec.ofNat 128 (fieldAt f.payload 0 16))
          let k := f.payload.length / 64 - 1
          let ls := walkSlice w (bits v 47 32) k
          if !w.encOk ∨ ls.length ≠ k ∨ !ls.all (fun l => 0 ≤ l.1 && l.1 < 1248) then .error 1
          else match b.placed[i]? with | some p => .ok (n, b, p.core) | none => .error 1

/-- DATA: the checks in order; an accepted frame goes through its home core's remote port, a refused one is answered at once.
DESIGN CHOICE: the Id field of the IFACE_IN packet, for which R220 names no use outside reductions, carries the frame's sequence number, low 9
bits on a link. -/
def execData (port : Nat) (f : FFrame) (s : State) : Res :=
  if f.type ≠ 1 then .next s
  else
    let (s, ok) := s.takeFrame port f
    if !ok then .next s
    else match dataCheck s f with
      | .error st =>
        let s := if st = 4 then countRefusal s else s
        let version := match groupFor s f with | some (_, b) => b.activeVersion | none => 0
        .next (wackFor s port f.srcEngine version f.srcStage f.destStage f.specific.toNat st 0)
      | .ok (n, _, c) =>
        let hub := hubOf s c
        .next (placeAt s hub { blankPacket 0xC n c hub with
          cls := 2, id := f.seq, length := 2 * (f.payload.length / 64), payload := f.payload, body := dataBody f port } false)

/-- WACK: the request's wait at the hub ends with its last one; one of an earlier epoch is not counted (R603, R604). -/
def execWack (port : Nat) (f : FFrame) (s : State) : Res :=
  if f.type ≠ 2 then .next s
  else
    let (s, ok) := s.takeFrame port f
    let v := f.specific.toNat
    let c := coreKey (bits v 71 64) (bits v 63 56)
    let now_ : Bool := match ownerOf s c with
      | some n => (match (s.region n).img with | some b => b.epoch = v % 256 | none => false)
      | none => false
    .next (if ok && now_ then class2Done s c (bits v 55 53) (bits v 52 48) (bits v 79 72) else s)

/-! ## CONTROL frames (R604, R605) -/

/-- The image that a CONTROL frame is for: its stage, its table's digest, and the active or pending version. -/
def controlFor (s : State) (f : FFrame) : Option (Nat × BoundImage) :=
  let dig := slice f.payload 8 32
  let v := fieldAt f.payload 0 8
  s.regions.findSome? fun e => match e.2.img with
    | some b =>
      let bound : Bool := b.img.stage = f.destStage && stageDigest b.stageTab = dig && b.img.version = v
      let pending : Bool := match e.2.op with
        | some o => o.swap && o.img.stage = f.destStage && stageDigest o.stageTab = dig && (o.img.version = v || b.img.version = v)
        | none => false
      if b.grouped ∧ (bound ∨ pending) then some (e.1, b) else none
    | none => none

/-- Refuse a CONTROL frame with kind 12; its Status is the refused kind. -/
def rejectControl (s : State) (port : Nat) (f : FFrame) (kind : Nat) : State :=
  s.putFrame port f.srcEngine
    (controlFrame s f.srcEngine 12 kind (bits f.specific.toNat 63 56) (fieldAt f.payload 0 8) f.srcStage f.destStage (slice f.payload 8 32) [])

/-- The group of a swap whose members disagree: the stage 0 swap that waits for this engine's report (R401). -/
def disagreeing (s : State) (f : FFrame) : Option Nat :=
  s.regions.findSome? fun e => match e.2.op with
    | some o => if o.swap ∧ o.lead ∧ o.phase = .verify ∧ f.destStage = 0 ∧ nth o.stageTab f.srcStage 0xFFFF = f.srcEngine then some e.1 else none
    | none => none

/-- Receive a CONTROL frame of a kind and act on it when it matches. -/
def onControl (s : State) (port : Nat) (f : FFrame) (kind : Nat) (act : State → Nat → BoundImage → State) : Res :=
  if f.type ≠ 4 ∨ bits f.specific.toNat 79 72 ≠ kind then .next s
  else
    let (s, ok) := s.takeFrame port f
    if !ok then .next s
    else match controlFor s f with
      | some (n, b) => .next (act s n b)
      | none =>
        let s := rejectControl s port f kind
        match if kind = 3 then disagreeing s f else none with
        | some n => .next (endSwapEarly (opControlAll s n 8 5) n 5 16 0)
        | none => .next s

/-- The Status of a CONTROL frame. -/
def ctlStatus (f : FFrame) : Nat := bits f.specific.toNat 71 64

/-- The detail that goes with a status told by another stage. -/
def toldDetail (st : Nat) : Nat := match st with | 2 => 10 | 4 => 17 | 5 => 16 | _ => 0

/-- BOUND: a stage is bound on the image's version, or is unbound (R388). -/
def execBound (port : Nat) (f : FFrame) (s : State) : Res :=
  onControl s port f 1 fun s n b =>
    if b.img.stage ≠ 0 then s
    else
      let rest := b.reported.filter (· ≠ f.srcStage)
      if ctlStatus f ≠ 0 then s.updRegion n fun r => { r with img := some { b with reported := rest, active := false } }
      else
        let s := s.updRegion n fun r => { r with img := some { b with reported := rest ++ [f.srcStage] } }
        if b.active then sendControl s b f.srcStage 2 0 b.version [] else tryActivate s n

/-- ACTIVATE: the group is active; its epoch is 0. -/
def execActivate (port : Nat) (f : FFrame) (s : State) : Res :=
  onControl s port f 2 fun s n b =>
    if b.img.stage = 0 ∨ !b.bound ∨ b.stopped then s
    else s.updRegion n fun r => { r with img := some { b with active := true, version := b.img.version, epoch := 0 } }

/-- Run an action on the swap of a region in one of some phases. -/
def onSwap (s : State) (n : Nat) (f : LoadOp → State) : State :=
  match (s.region n).op with | some o => if o.swap then f o else s | none => s

/-- SWAP_VERIFIED: a stage's outcome of phase 1; a failure ends the swap on every stage. -/
def execSwapVerified (port : Nat) (f : FFrame) (s : State) : Res :=
  onControl s port f 3 fun s n _ => onSwap s n fun o =>
    let st := ctlStatus f
    if !o.lead ∨ o.phase ≠ .verify then s
    else if st ≠ 0 then endSwapEarly (opControlAll s n 8 st) n st (toldDetail st) 0
    else advance (setOp s n { o with reports := o.reports ++ [(f.srcStage, 0)] }) n

/-- SWAP_REWRITE: stage 0 orders phase 3. -/
def execSwapRewrite (port : Nat) (f : FFrame) (s : State) : Res :=
  onControl s port f 4 fun s n _ => onSwap s n fun o =>
    if !o.later ∨ o.phase ≠ .drain then s
    else
      let s := keepRecord (setOp s n { o with phase := .rewrite, since := s.now, closed := true, shards := [], layers := 0, reports := [] }) n
      advance (endSwapJobs s n) n

/-- A stage whose own rollback is over learns that another stage's has failed: it goes to SWAP_SPLIT too, and stage 0 tells the rest
(R401). -/
def splitLate (s : State) (n : Nat) (b : BoundImage) (f : FFrame) : State :=
  if ctlStatus f ≠ 3 ∨ (s.region n).split then s else toSplit (if b.img.stage = 0 then tellSplit s n else s) n

/-- SWAP_REWRITTEN: a stage's outcome of phase 3: a failure rolls every stage back, a failed rollback splits every stage (R401). -/
def execSwapRewritten (port : Nat) (f : FFrame) (s : State) : Res :=
  onControl s port f 5 fun s n b =>
    if (s.region n).op.isNone then splitLate s n b f else onSwap s n fun o =>
    let st := ctlStatus f
    if !o.lead then s
    else if st = 3 then splitSwap s n true
    else if (o.phase ≠ .rewrite ∧ o.phase ≠ .activate) ∨ o.switched then s
    else if st ≠ 0 then advance (beginRollback (setOp s n { o with failed := some (st, toldDetail st, 0) }) n true) n
    else orderSwitch (setOp s n { o with reports := o.reports ++ [(f.srcStage, 0)] }) n

/-- SWAP_SWITCH: a later stage switches its active version and acknowledges. -/
def execSwapSwitch (port : Nat) (f : FFrame) (s : State) : Res :=
  onControl s port f 6 fun s n _ => onSwap s n fun o =>
    if !o.later ∨ o.phase ≠ .activate then s
    else
      let s := finishSwap s n
      match (s.region n).img with | some b => sendControl s b 0 7 0 b.version [] | none => s

/-- SWAP_SWITCHED: with the last acknowledgement stage 0 releases the barrier on the new version. -/
def execSwapSwitched (port : Nat) (f : FFrame) (s : State) : Res :=
  onControl s port f 7 fun s n _ => onSwap s n fun o =>
    if !o.lead ∨ o.phase ≠ .activate then s
    else
      let o := { o with reports := o.reports ++ [(f.srcStage, 256)] }
      let s := setOp s n o
      if o.allReport 256 then finishSwap s n else s

/-- SWAP_ROLLBACK: stage 0 ends the swap: before the rewrite the old version goes on, after it the stage rolls back or splits. -/
def execSwapRollback (port : Nat) (f : FFrame) (s : State) : Res :=
  onControl s port f 8 fun s n b =>
    if (s.region n).op.isNone then (if b.img.stage = 0 then s else splitLate s n b f) else onSwap s n fun o =>
    let st := ctlStatus f
    if !o.later then s
    else match o.phase with
      | .verify => endSwapEarly s n st (toldDetail st) 0
      | .drain => endSwapEarly s n st (toldDetail st) 0
      | .rewrite => if st = 3 then splitSwap s n false else advance (beginRollback (setOp s n { o with failed := some (o.failed.getD (st, toldDetail st, 0)) }) n false) n
      | .activate => if st = 3 then splitSwap s n false else advance (beginRollback (setOp s n { o with failed := some (o.failed.getD (st, toldDetail st, 0)) }) n false) n
      | .rollback => if st = 3 then splitSwap s n false else s
      | _ => s

/-- CONTROL_FAULT: stage 0 ends the requests that the record names and flushes the group; during phase 3 of a swap the swap fails first
(R579, R605). -/
def execControlFault (port : Nat) (f : FFrame) (s : State) : Res :=
  onControl s port f 9 fun s n b =>
    if b.img.stage ≠ 0 then s
    else
      let rec_ := fieldAt f.payload 64 32
      let code := bits rec_ 239 224
      let (s, _) := endNamed s n (BitVec.ofNat 32 (bits rec_ 191 160)) none code
      match (s.region n).op with
      | some o =>
        if o.swap ∧ !o.switched ∧ (o.phase = .rewrite ∨ o.phase = .activate ∨ o.phase = .rollback) then
          let s := if (s.region n).flush.isSome then s else
            s.updRegion n fun r => { r with flush := some { phase := 5, since := s.now, code := code } }
          if o.phase = .rollback then s else advance (beginRollback s n true) n
        else startFlush s n code
      | none => startFlush s n code

/-- FLUSH_STOP: stage 0 orders a stage to stop, with the new epoch. -/
def execFlushStop (port : Nat) (f : FFrame) (s : State) : Res :=
  if ctlStatus f ≠ 1 then .next s
  else onControl s port f 10 fun s n b =>
    if b.img.stage = 0 then s
    else
      let b := { b with epoch := bits f.specific.toNat 63 56 }
      s.updRegion n fun r => { r with
        img := some b, flush := if r.flush.isSome then r.flush else some { phase := 0, since := s.now, code := 0 } }

/-- FLUSH_RESTART: stage 0 orders a stage that has drained to restart. -/
def execFlushRestart (port : Nat) (f : FFrame) (s : State) : Res :=
  if ctlStatus f ≠ 2 then .next s
  else onControl s port f 10 fun s n b =>
    match (s.region n).flush with
    | some x => if b.img.stage ≠ 0 ∧ x.phase = 4 then tryRelease (orderRestart s n) n else s
    | none => s

/-- FLUSHED: a stage has stopped, or has restarted. -/
def execFlushed (port : Nat) (f : FFrame) (s : State) : Res :=
  onControl s port f 11 fun s n b =>
    match (s.region n).flush with
    | some x =>
      let part : Bool := if ctlStatus f = 1 then x.phase ≤ 1 else x.phase = 2
      if b.img.stage = 0 ∧ part ∧ !b.flushed.contains f.srcStage then
        tryRelease (s.updRegion n fun r => { r with img := some { b with flushed := b.flushed ++ [f.srcStage] } }) n
      else s
    | none => s

/-- REJECTED: a swap whose report stage 0 refused ends, the members of its group disagreeing (R401). -/
def execRejected (port : Nat) (f : FFrame) (s : State) : Res :=
  if f.type ≠ 4 ∨ bits f.specific.toNat 79 72 ≠ 12 then .next s
  else
    let (s, ok) := s.takeFrame port f
    match if ok then controlFor s f else none with
    | some (n, _) => .next (onSwap s n fun o =>
        if ctlStatus f = 3 ∧ o.later ∧ (o.phase = .verify ∨ o.phase = .drain) then endSwapEarly s n 5 16 0 else s)
    | none => .next s

end Sys2Proof.Machine
end

