-- ==== Sys2Proof/Machine/Rails.lean ====
section
/-!
DEFINITION. The loss and the return of the engine-wide rails (R487, R488).
-/
namespace Sys2Proof.Machine

/-- ARRAY_RAIL_LOST: every step faults and every request ends, images are deactivated, every region goes dark, and only dictionary and
recovery commands remain until the next cold start. -/
def execArrayRailLost (s : State) : Res :=
  if !s.power.pgArray then .next s
  else
    let s := endService (s.pmPage 240 pmStatusWord) 0x0503 0
    let s := allDark { s with power := { s.power with pgArray := false } }
    .next { s with boot := { s.boot with phase := .down }, regions := Tbl.map (fun _ r => r.unbind) s.regions, mesh := [] }

/-- AUX_RAIL_LOST: program pulses stop, the arrays being programmed are held, and optical ports go down. -/
def execAuxRailLost (s : State) : Res :=
  if !s.power.pgAux then .next s
  else .next (portsDown { s.pmPage 242 pmStatusWord with power := { s.power with pgAux := false, auxLost := some s.now } })

/-- The shards of an operation that have an array being programmed. -/
def busyShards (r : Region) (o : LoadOp) : List Nat :=
  let (m, _, ps) := opSource r o
  (wantedShards r o).filter fun h => (shardTiles m ps h).any fun x => o.busy.contains (arrayKey x.2.2)

/-- Programming of a region's shards under way has failed once more (R381, R488): they are read again, or the operation fails. -/
def failBusy (s : State) (n : Nat) : State :=
  let r := s.region n
  match r.op with
  | none => s
  | some o =>
    let hs := busyShards r o
    if hs.isEmpty then s
    else match hs.find? fun h => 3 ≤ (o.shard h).failures with
      | some h => advance (opFail (stopBusy s o.busy) n 2 10 h) n
      | none =>
        let redo (o : LoadOp) (h : Nat) : LoadOp :=
          let st := o.shard h
          if o.phase = .relocate then o.setShard h { st with failures := st.failures + 1, done := [] }
          else o.setShard h { ShardSt.reset with failures := st.failures + 1 }
        setOp (stopBusy s o.busy) n { hs.foldl redo o with busy := [] }

/-- AUX_HOLD_LIMIT: the hold has lasted over 1 s. -/
def execAuxHoldLimit (s : State) : Res :=
  match s.power.auxLost with
  | some t => if s.passed t 1000000000 then .next ((s.regions.map (·.1)).foldl failBusy s) else .next s
  | none => .next s

/-- AUX_RAIL_RETURN: programming goes on. -/
def execAuxRailReturn (s : State) : Res :=
  match s.power.auxLost with
  | some _ =>
    let s := { s with power := { s.power with pgAux := true, auxLost := none } }
    .next ((s.regions.map (·.1)).foldl advance s)
  | none => .next s

/-- OPT_RAIL_LOST: optical ports go down. -/
def execOptRailLost (s : State) : Res :=
  if !s.power.pgOpt then .next s else .next (portsDown { s.pmPage 243 pmStatusWord with power := { s.power with pgOpt := false } })

/-- OPT_RAIL_RETURN: ports may retrain. -/
def execOptRailReturn (s : State) : Res :=
  if s.power.enOpt ∧ !s.power.pgOpt then .next { s with power := { s.power with pgOpt := true } } else .next s

/-- AON_RAIL_LOST: the engine is off: its rails, its links, its cores' state and the keys derived at start are gone, the arrays
stay; the next power-up is a cold start (R487, R488, R549). -/
def execAonRailLost (s : State) : Res :=
  let s := clearCold (dropOps s)
  .next { s with
    boot := { s.boot with phase := .off, attempts := 0 }
    power := { s.power with enArray := false, enAux := false, enOpt := false, pgArray := false, pgAux := false, pgOpt := false } }

end Sys2Proof.Machine
end

