-- ==== Sys2Proof/Machine/Submit.lean ====
section
/-!
DEFINITION. Requests and tuning jobs from the host: the descriptor and its checks (R336, R338, R365), CANCEL (R370), TUNE (R330, R331),
and deadlines (R371).
-/
namespace Sys2Proof.Machine

/-! ## The descriptor (R336) -/

def descriptorOf (b : Bytes) : Desc192 :=
  let fl := fieldAt b 102 1
  { tag := BitVec.ofNat 64 (fieldAt b 0 8), version := fieldAt b 8 8, promptAddr := fieldAt b 16 8, promptLen := fieldAt b 24 4,
    maxTokens := fieldAt b 28 4, outAddr := fieldAt b 32 8, outBytes := fieldAt b 40 4, ring := fieldAt b 44 4, deadline := fieldAt b 48 8,
    stats := fieldAt b 56 8, ttft := fieldAt b 64 4, tbt := fieldAt b 68 4, temp := BitVec.ofNat 32 (fieldAt b 72 4),
    topP := BitVec.ofNat 32 (fieldAt b 76 4), minP := BitVec.ofNat 32 (fieldAt b 80 4), topK := fieldAt b 84 2, adapter := fieldAt b 86 2,
    seed := BitVec.ofNat 64 (fieldAt b 88 8), region := fieldAt b 96 1, mode := fieldAt b 97 1, cands := fieldAt b 98 1,
    stops := (List.range (fieldAt b 99 1)).map fun i => fieldAt b (104 + 4 * i) 4, depth := fieldAt b 100 1, width := fieldAt b 101 1,
    logProb := bitAt fl 0, abort := bitAt fl 1, vecIn := bitAt fl 2, noPub := bitAt fl 3 }

/-- An FP32 number that is 0, or positive between two bounds given by their bits. -/
def f32Between (lo hi : Nat) (w : W32) : Bool :=
  let v := w.toNat
  v % 2 ^ 31 = 0 || (lo ≤ v && v ≤ hi)

/-- Reserved bytes are zero and every field lies in its range: temperature 0 or 0.001 to 100, TopP 0 to 1, MinP 0 to below 1. -/
def descriptorOk (b : Bytes) (d : Desc192) : Bool :=
  b.length = 192 && zeros b 103 1 && zeros b 168 24 && fieldAt b 102 1 < 16 && d.promptAddr % 4 = 0 && d.outAddr % 64 = 0 &&
    d.stats % 64 = 0 && d.ring < 524288 && f32Between 0x3A83126F 0x42C80000 d.temp && f32Between 1 0x3F800000 d.topP &&
    f32Between 1 0x3F7FFFFF d.minP && d.topK ≤ 256 && d.region < 64 && d.mode ≤ 2 && d.cands ≤ 8 && d.stops.length ≤ 16 &&
    d.depth ≤ 7 && d.width ≤ 8

/-- What the image makes of a descriptor: zero values replaced, the depth reduced (R336).  Raw vectors build no tree. -/
def Desc192.resolved (d : Desc192) (s : State) (v : ServSec) : Desc192 :=
  { d with
    cands := if d.mode = 1 then (if d.cands = 0 then 8 else d.cands) else 0
    depth := if d.mode = 2 then 0 else min d.depth (min v.specHeads (s.setting (0x6100 + d.region) 3 7))
    width := if d.width = 0 then 1 else d.width
    seed := if d.seed = 0 then s.almanac else d.seed }

/-- The most records one step of the request reserves (R365). -/
def Desc192.largestM (d : Desc192) : Nat :=
  if d.maxTokens = 0 then 0
  else if d.mode = 2 then 1
  else (d.depth + 1) * (1 + d.cands)

/-- The ring is bound, takes token records, has room enough and is named by no live request. -/
def ringFits (s : State) (d : Desc192) : Bool :=
  match s.ring? d.ring with
  | some g => g.kind = 0 && d.largestM + 1 ≤ g.size &&
      !(s.serving.ctxs.any fun e => e.2.d.ring = d.ring && e.2.state ≠ .ended && e.2.tune.isNone)
  | none => false

/-- Step 1 of R338: the serving section under which the request can be admitted, with the resolved descriptor. -/
def admissible (s : State) (b : Bytes) : Option (ServSec × Desc192) :=
  let d := descriptorOf b
  let r := s.region d.region
  match r.img with
  | none => none
  | some im =>
    match im.img.serving with
    | none => none
    | some v =>
      let d' := d.resolved s v
      if descriptorOk b d ∧ r.state = 1 ∧ im.bound ∧ im.active ∧ im.img.stage = 0 ∧ d.promptLen ≤ maxContext s d.region ∧ ringFits s d' ∧
          (d.adapter = 0 ∨ (Tbl.find s.serving.adapters (65536 * d.region + d.adapter)).isSome) ∧
          (if d.mode = 2 then v.outWidth ≠ 0 ∧ d.maxTokens * vecSize v ≤ d.outBytes ∧ (d.maxTokens = 0 ∨ d.outBytes ≠ 0) else v.vocab ≠ 0) ∧
          (if d.vecIn then v.inWidth ≠ 0 else v.vocab ≠ 0) then some (v, d')
      else none

/-! ## SUBMIT (R338 to R340, R437, R566) -/

/-- The prompt as the controller has it: its bytes, or the detail of the failed read. -/
def promptBytes (s : State) (d : Desc192) (v : ServSec) (desc : Bytes) (session : Nat) (prompt : Option Bytes) : Except Nat Bytes :=
  let len := d.promptLen * (if d.vecIn then 2 * v.inWidth else 4)
  if d.promptLen = 0 then .ok []
  else match prompt with
    | none => .error 5
    | some p =>
      if custodyOn s then
        let key := ((s.session? session).map (·.dataKey)).getD []
        match Config.gcmOpen key (slice p 0 12) desc (slice p 12 (len + 16)) with
        | some x => .ok (slice x 0 len)
        | none => .error 6
      else .ok (slice p 0 len)

/-- A context as admission step 3 leaves it. -/
def Ctx.fresh (d : Desc192) (queue site session adm : Nat) : Ctx :=
  { state := .queued, d := d, tune := none, adm := adm, queue := queue, site := site, session := session, pinned := none, toks := [],
    vecs := [], promptBad := 0, promptLen := d.promptLen, refill := 0, ahead := false, done := 0, sent := 0, blocks := [], matched := 0,
    guesses := [], path := [], prevBase := 0, results := [], reserve := 0, dead := false, promoted := false, admTime := 0, first := 0,
    lastCommit := 0, creditEnd := 0, pauseFrom := 0, readyFrom := 0, refillDue := false, genSteps := 0, prefilled := 0, maxGap := 0, lateN := 0, creditNs := 0,
    pausedNs := 0, upkeepNs := 0, tuneNs := 0, wakeNs := 0, recs := [], vout := [] }

/-- The lowest free context (R341). -/
def freeCtx (s : State) : Option Nat :=
  if 65536 ≤ s.serving.ctxs.length then none else leastBelow 65536 fun c => (s.ctx? c).isNone

/-- SUBMIT: the checks, the context and its admission number, the handle, then steps 4 to 6 unless a swap holds them.  DESIGN CHOICE: a
completion has room for the low 32 bits of the descriptor's Tag, which stand in its Result1 (R336). -/
def execSubmit (h : Nat) (descriptor prompt : Option Bytes) (s : State) : Res :=
  .next (s.onCmd h 0x20 fun o =>
    let (s, descriptor) := s.operand o (fieldAt o.cmd 24 8) 192 descriptor
    match descriptor with
    | none => s.finish h 5 0 0 0
    | some b =>
      let tag := (descriptorOf b).tag.toNat % 2 ^ 32
      match admissible s b with
      | none => s.finish h 5 0 0 tag
      | some (v, d) =>
        match freeCtx s with
        | none => s.finish h 4 0 0 tag
        | some c =>
          let adm := s.serving.nextAdm
          let site := match s.sq? o.queue with | some q => q.site | none => 0
          let x := { Ctx.fresh d o.queue site o.session adm with admTime := s.almanac.toNat, readyFrom := s.now }
          let len := d.promptLen * (if d.vecIn then 2 * v.inWidth else 4)
          let (s, prompt) := s.operand o (fieldAt b 16 8) (if len = 0 then 0 else if custodyOn s then len + 28 else len) prompt
          let x := match promptBytes s d v b o.session prompt with
            | .error e => { x with promptBad := e }
            | .ok p => if d.vecIn then { x with vecs := p, toks := List.replicate d.promptLen 0 } else { x with toks := entries 4 p }
          let s := (s.setCtx c x).finish h 0 0 (c * 2 ^ 32 + adm % 2 ^ 32) tag
          let s := { s with serving := { s.serving with nextAdm := (adm + 1) % 2 ^ 32 } }
          if holdsAdmissions s d.region then s else admitTail s c)

/-! ## CANCEL and deadlines -/

/-- CANCEL: at its place in the order of events; ALREADY_DONE for a context that is free, used again or ended (R370). -/
def execCancel (h : Nat) (s : State) : Res :=
  .next (s.onCmd h 0x21 fun o =>
    let c := fieldAt o.cmd 16 4
    match s.ctx? c with
    | some x =>
      if x.adm = fieldAt o.cmd 20 4 ∧ x.state ≠ .ended ∧ x.tune.isNone then (endReq s c 1 0).finish h 0 0 0 0 else s.finish h 1 0 0 0
    | none => s.finish h 1 0 0 0)

/-- DEADLINE_PASSED: the request ends, or its step in flight decides at its commit point (R371). -/
def execDeadlinePassed (ctx : Nat) (s : State) : Res :=
  match s.ctx? ctx with
  | none => .next s
  | some x =>
    if x.state = .ended ∨ x.tune.isSome ∨ x.d.deadline = 0 ∨ s.almanac.toNat < x.d.deadline ∨ x.dead then .next s
    else if outputsInFlight s x.d.region ctx then .next (s.setCtx ctx { x with dead := true })
    else .next (endReq s ctx 2 0)

/-- PARK: a credit wait has reached ParkDelay (R342); the time of parking orders evictions (R308). -/
def execPark (ctx : Nat) (s : State) : Res :=
  match s.ctx? ctx with
  | none => .next s
  | some x =>
    if x.state = .paused ∧ s.passed x.pauseFrom (1000 * s.setting (0x6100 + x.d.region) 5 100000) then
      .next (s.setCtx ctx { x with state := .parked, readyFrom := s.now })
    else .next s

/-! ## TUNE (R330 to R332, R580) -/

/-- The parameter block of a tuning job.  PRESUMED: R330 gives the parameters and no layout; they stand in the table's order, each
aligned, with the region whose model is tuned. -/
structure TuneParams where
  adapter : Nat
  start   : Nat
  rank    : Nat
  targets : Nat
  region  : Nat
  alpha   : W32
  rate    : W32
  beta1   : W32
  beta2   : W32
  eps     : W32
  decay   : W32
  steps   : Nat
  batch   : Nat
  seed    : W64
  dataSlot : Nat
  outSlot : Nat
  dataOff : Nat
  dataLen : Nat
  outOff  : Nat
deriving DecidableEq, Repr

def tuneParams (b : Bytes) : TuneParams :=
  { adapter := fieldAt b 0 2, start := fieldAt b 2 2, rank := fieldAt b 4 1, targets := fieldAt b 5 1, region := fieldAt b 6 1,
    alpha := BitVec.ofNat 32 (fieldAt b 8 4), rate := BitVec.ofNat 32 (fieldAt b 12 4), beta1 := BitVec.ofNat 32 (fieldAt b 16 4),
    beta2 := BitVec.ofNat 32 (fieldAt b 20 4), eps := BitVec.ofNat 32 (fieldAt b 24 4), decay := BitVec.ofNat 32 (fieldAt b 28 4),
    steps := fieldAt b 32 4, batch := fieldAt b 36 4, seed := BitVec.ofNat 64 (fieldAt b 40 8), dataSlot := fieldAt b 48 1, outSlot := fieldAt b 49 1, dataOff := fieldAt b 56 8,
    dataLen := fieldAt b 64 8, outOff := fieldAt b 72 8 }

/-- One token of the training data: its position within its record, its id, and whether its loss counts. -/
structure TrainTok where
  pos  : Nat
  id   : Nat
  loss : Bool
deriving DecidableEq, Repr

/-- The t-th token of n words of training data: records of a length and that many words, each a token id below a loss flag (R330).
DESIGN CHOICE: after the last record the data starts again; a record that the end cuts is as long as its words. -/
def trainTok (w : Nat → W32) (n : Nat) : Nat → Nat → Nat → TrainTok
  | 0, _, _ => ⟨0, 0, false⟩
  | f + 1, off, t =>
    if n ≤ off then trainTok w n f 0 t
    else
      let k := min (w off).toNat (n - off - 1)
      if t < k then ⟨t, (w (off + 1 + t)).toNat % 2 ^ 31, (w (off + 1 + t)).getLsbD 31⟩ else trainTok w n f (off + 1 + k) (t - k)

/-- The t-th training token of a job, by its parameter block. -/
def trainAt (params : Bytes) (t : Nat) : TrainTok :=
  let n := (tuneParams params).dataLen / 4
  trainTok (Config.trainWord params) n ((t + 2) * (n + 2)) 0 t

/-- One element of an adapter: its layer and target, whether it is of B, its place in its matrix, and the inputs n of the target. -/
structure AdElem where
  layer  : Nat
  target : Nat
  ofB    : Bool
  index  : Nat
  inputs : Nat
deriving DecidableEq, Repr

/-- The elements of an adapter in the order of its bytes: per layer, per target in bit order, A of r rows, then B of r columns, each row-major
(R330).  The model's layers and the sizes of its matrices are quantities of the model. -/
def adapterElems (version : Nat) (p : TuneParams) : List AdElem :=
  ((List.range (Config.modelLayers version)).flatMap fun l => ((List.range 7).filter (bitAt p.targets)).map fun t => (l, t)).flatMap fun e =>
    let (nIn, nOut) := Config.targetSize version e.2
    (List.range (p.rank * nIn)).map (fun i => ⟨e.1, e.2, false, i, nIn⟩) ++ (List.range (nOut * p.rank)).map fun i => ⟨e.1, e.2, true, i, nIn⟩

/-- One element under AdamW, in FP32: its value, the two moments, and the powers of Beta1 and Beta2. -/
structure Adam where
  w  : W32
  m  : W32
  v  : W32
  p1 : W32
  p2 : W32
deriving DecidableEq, Repr

/-- One AdamW step with a gradient (R330).  PRESUMED: the published form of AdamW, with weight decay apart from the gradient and both moments
corrected for their start; each operation rounds once. -/
def Adam.step (p : TuneParams) (g : W32) (x : Adam) : Adam :=
  let one : W32 := 0x3F800000
  let m := f32add (f32mul p.beta1 x.m) (f32mul (f32sub one p.beta1) g)
  let v := f32add (f32mul p.beta2 x.v) (f32mul (f32sub one p.beta2) (f32mul g g))
  let p1 := f32mul x.p1 p.beta1
  let p2 := f32mul x.p2 p.beta2
  let mh := f32div m (f32sub one p1)
  let vh := f32div v (f32sub one p2)
  let move := f32add (f32div mh (f32add (f32sqrt vh) p.eps)) (f32mul p.decay x.w)
  { w := f32sub x.w (f32mul p.rate move), m := m, v := v, p1 := p1, p2 := p2 }

/-- The tokens of an optimiser step, counted from 0, with their places in their records and their loss flags. -/
def trainBatch (params : Bytes) (k : Nat) : List TrainTok :=
  (List.range (tuneParams params).batch).map fun i => trainAt params (k * (tuneParams params).batch + i)

/-- The gradient of an element in an optimiser step.  FREE VALUE: the cores compute it through the arrays, with their analog errors (R329), from
the parameters and the step's tokens, of which those whose loss flag is set count. -/
def gradient (params : Bytes) (k : Nat) (e : AdElem) : W32 :=
  f32fin (Config.gradient params k ((trainBatch params k).map fun t => (t.pos, t.id, t.loss)) (e.layer, e.target, e.ofB, e.index))

/-- An element after some optimiser steps. -/
def adamRun (params : Bytes) (e : AdElem) : Nat → Adam → Adam
  | 0, x => x
  | k + 1, x => let y := adamRun params e k x; y.step (tuneParams params) (gradient params k e)

/-- An element before the first step: with no start adapter, A is the seed's normal number of deviation 1 / √n and B is 0, else the start
adapter's element (R330).  FREE VALUE: the normal numbers.  DESIGN CHOICE: n is the number of inputs of the target, and a start adapter of another
shape gives the element at the same place in its bytes, or 0 past their end. -/
def firstElem (p : TuneParams) (start : Bytes) (e : AdElem) (place : Nat) : W32 :=
  if p.start ≠ 0 then f32of (Flt.bf16.val (fieldAt start (2 * place) 2)).1
  else if e.ofB then 0
  else f32div (f32fin (Config.normal p.seed e.layer e.target e.index)) (f32sqrt (f32of (.ofInt e.inputs)))

/-- The trained adapter in BF16 after the job's optimiser steps (R330). -/
def trainedBytes (version : Nat) (params start : Bytes) : Bytes :=
  let p := tuneParams params
  (adapterElems version p).zipIdx.flatMap fun x =>
    let a := adamRun params x.1 p.steps ⟨firstElem p start x.1 x.2, 0, 0, 0x3F800000, 0x3F800000⟩
    leBytes 2 (Flt.bf16.of (f32val a.w)).1

/-- The parameters lie in their ranges, and the region can train. -/
def tuneOk (s : State) (p : TuneParams) : Bool :=
  let r := s.region p.region
  let taken := (Tbl.find s.serving.adapters (65536 * p.region + p.adapter)).isSome ||
    s.serving.jobs.any fun j => j.region = p.region && (tuneParams j.params).adapter = p.adapter
  let reads := match Tbl.find r.windows p.dataSlot with | some w => w.read && p.dataOff + p.dataLen ≤ w.size | none => false
  let writes := match Tbl.find r.windows p.outSlot with | some w => w.write && p.outOff < w.size | none => false
  let serves := match r.img with | some b => b.bound && b.active && b.img.stage = 0 && b.img.serving.isSome | none => false
  s.setting 0x6300 1 1 = 1 && p.region < 64 && r.state = 1 && serves && p.adapter ≠ 0 && !taken &&
    (p.start = 0 || (Tbl.find s.serving.adapters (65536 * p.region + p.start)).isSome) && 1 ≤ p.rank && p.rank ≤ 64 && p.targets < 128 &&
    1 ≤ p.steps && 64 ≤ p.batch && p.batch ≤ 65536 && p.dataLen ≠ 0 && reads && writes

/-- Start waiting jobs of a region while fewer than four run, and no closed barrier holds it: a private context, pinned to the active
version (R331, R334, R396). -/
def startJobs (s : State) (n : Nat) : State :=
  (s.serving.jobs.filter fun j => j.region = n && !j.running).foldl (fun s j =>
    match (s.region n).img, freeCtx s with
    | some b, some c =>
      if barrierClosed s n ∨ 4 ≤ (s.serving.jobs.filter (·.running)).length then s
      else
        let d := { descriptorOf [] with region := n }
        let x := { Ctx.fresh d 0 0 j.session 0 with tune := some j.handle, pinned := some b.version, state := .prefill }
        let s := s.setCtx c x
        { s with serving := { s.serving with
          jobs := s.serving.jobs.map fun i => if i.handle = j.handle then { i with running := true, ctx := c, version := b.version } else i } }
    | _, _ => s) s

/-- TUNE: the job is taken and runs until its last optimiser step; a fifth one waits. -/
def execTune (h : Nat) (params : Option Bytes) (s : State) : Res :=
  .next (s.onCmd h 0x40 fun o =>
    let (s, params) := s.operand o (fieldAt o.cmd 24 8) 80 params
    match params with
    | none => s.finish h 5 0 0 0
    | some b =>
      let p := tuneParams b
      if !tuneOk s p then s.finish h 5 0 0 0
      else
        let j : Tune := { handle := h, region := p.region, params := b, session := o.session, running := false, ctx := 65536,
                          stepsLeft := p.steps, tokens := 0, version := 0 }
        let s := s.keep h fun x => { x with running := true, since := s.now }
        startJobs { s with serving := { s.serving with jobs := s.serving.jobs ++ [j] } } p.region)

end Sys2Proof.Machine
end

