-- ==== Sys2Proof/Machine/Pipeline.lean ====
section
/-!
DEFINITION. The pipeline slot: what the controller delivers to an image's entry core, in which order, and how (R313 to R319, R328, R332,
R347 to R351, R353 to R356, R361, R394).
-/
namespace Sys2Proof.Machine

/-! ## Writing rows (R348) -/

/-- One WRITE packet of lines within a row. -/
def svcWrite (s : State) (c row col : Nat) (ls : List Bytes) : State :=
  injectServing s c { blankPacket 5 0 c c with length := 2 * ls.length, body := descOf row col ls.length 1 0 1 0 0 0, payload := ls.flatten }

def svcGo : Nat → State → Nat → Nat → Nat → List Bytes → State
  | 0, s, _, _, _, _ => s
  | f + 1, s, c, row, l, ls =>
    if ls.isEmpty then s
    else
      let k := 32 - l % 32
      svcGo f (svcWrite s c (row + l / 32) (l % 32) (ls.take k)) c row (l + k) (ls.drop k)

/-- Bytes at an offset, a multiple of 64, from the first byte of a row, in whole lines. -/
def svcBytes (s : State) (c row off : Nat) (b : Bytes) : State :=
  let ls := chunks 64 (slice b 0 (alignUp b.length 64))
  svcGo (ls.length + 1) s c row (off / 64) ls

/-! ## Positions of a step -/

/-- One position of a step: its segment, its index in it, and its context. -/
structure StepPos where
  seg : Seg
  i   : Nat
  ctx : Ctx
deriving DecidableEq, Repr

def positionsOf (s : State) (segs : List Seg) : List StepPos :=
  segs.flatMap fun g => match s.ctx? g.ctx with
    | some x => (List.range g.n).map fun i => ⟨g, i, x⟩
    | none => []

/-- The depth of a tree node, 0 for the root (R361). -/
def nodeDepth (width i : Nat) : Nat := if i = 0 then 0 else (i - 1) / width + 1
/-- The tree mask of a node: itself and its ancestors, the root and the rank-0 nodes of lower depths (R317, R361). -/
def nodeMask (width i : Nat) : Nat :=
  if i = 0 then 1 else 1 + ((List.range (nodeDepth width i - 1)).map fun e => 2 ^ (1 + e * width)).sum + 2 ^ i

def StepPos.out (p : StepPos) : Bool := p.seg.n ≤ p.i + p.seg.outs
/-- The node index of a position: its place in the tree, else 0. -/
def StepPos.node (p : StepPos) : Nat := if p.seg.tree then p.i else 0
def StepPos.pos (p : StepPos) : Nat := p.seg.base + p.i
/-- The position sampled: the one after the output position, at a node's depth below the root (R351, R362). -/
def StepPos.sampled (p : StepPos) : Nat := if p.seg.tree then p.seg.base + nodeDepth p.ctx.d.width p.i + 1 else p.pos + 1

/-- Input token id (R347). -/
def StepPos.id (s : State) (p : StepPos) : Nat :=
  match p.ctx.tune with
  | some h => (match s.serving.jobs.find? fun j => j.handle = h with
    | some j => (trainAt j.params (p.ctx.sent - p.seg.n + p.i)).id
    | none => 0)
  | none => if p.node = 0 then nth p.ctx.toks p.pos 0 else p.ctx.guess p.node

/-- Destination word (R350); block 0 where the image has no attention. -/
def StepPos.dest (p : StepPos) : Nat :=
  let b := match p.ctx.blocks[p.pos / 64]? with | some b => b.blk | none => 0
  b % 65536 * 65536 + (if p.out then 0x8000 else 0) + (if p.node ≠ 0 then 0x4000 else 0) + p.pos % 64

/-- Sample line (R351). -/
def StepPos.sample (p : StepPos) : Bytes :=
  let d := p.ctx.d
  leBytes 4 p.seg.ctx ++ leBytes 4 d.temp.toNat ++ leBytes 4 d.topP.toNat ++ leBytes 4 d.minP.toNat ++ leBytes 2 d.topK ++ leBytes 1 d.mode ++
    leBytes 1 d.cands ++ leBytes 1 (if d.depth = 0 then 0 else d.width) ++ leBytes 1 (if d.logProb then 1 else 0) ++ leBytes 2 0 ++
    leBytes 8 d.seed.toNat ++ leBytes 4 p.sampled ++ leBytes 4 p.node ++ List.replicate 24 0

/-! ## Length tables (R313 to R319) -/

/-- The blocks of a context at a pair index: ordinal and slot, in ascending ordinal. -/
def Ctx.refsAt (x : Ctx) (nc p : Nat) : List (Nat × Nat) :=
  x.blocks.zipIdx.filterMap fun b => if b.1.blk % nc = p then some (b.2, b.1.blk / nc) else none

/-- One table under way: entries, references and visible tiles so far. -/
structure TableAcc where
  qStart : Nat
  refs   : List (Nat × Nat)
  ents   : List Nat
  tiles  : Nat
deriving DecidableEq, Repr

/-- Add one segment to the table of a pair index. -/
def TableAcc.add (t : TableAcc) (nc p : Nat) (g : Seg) (x : Ctx) : TableAcc :=
  let rs := x.refsAt nc p
  let ent := t.qStart * 2 ^ 112 + g.n * 2 ^ 102 + (if g.tree then 2 ^ 101 else 0) + g.base % 2 ^ 32 * 2 ^ 64 + (g.base + g.n) % 2 ^ 32 * 2 ^ 32 +
    t.refs.length * 2 ^ 19 + rs.length * 2 ^ 10
  let seen := ((List.range ((g.n + 63) / 64)).map fun q =>
    (rs.filter fun r => 64 * r.1 < g.base + min (64 * (q + 1)) g.n).length).sum
  { qStart := t.qStart + g.n, refs := t.refs ++ rs, ents := t.ents ++ [ent], tiles := t.tiles + seen }

/-- The table of a pair index. -/
def tableAt (s : State) (nc p : Nat) (segs : List Seg) : TableAcc :=
  segs.foldl (fun t g => match s.ctx? g.ctx with | some x => t.add nc p g x | none => t) ⟨0, [], [], 0⟩

/-- Query heads per key-value head: from 1 to 16 (R289). -/
def headsOf (version : Nat) : Nat := 1 + Config.heads version % 16

/-- Write the length tables of a step into the area that its sequence selects, on every attention core. -/
def writeTables (s : State) (n seq : Nat) (b : BoundImage) (segs : List Seg) (ps : List StepPos) : State :=
  let nc := b.img.pairSize
  let row := 1025 + 16 * (seq % 2)
  let heads := headsOf b.version
  let masks := if segs.any (·.tree) then ps.flatMap fun p => leBytes 8 (nodeMask p.ctx.d.width p.i) else []
  (List.range nc).foldl (fun s p =>
    let t := tableAt s nc p segs
    let header := leBytes 64 (t.ents.length * 2 ^ 496 + t.tiles * heads % 2 ^ 24 * 2 ^ 472 + (Config.scoreScale b.version).toNat * 2 ^ 440 +
      heads * 2 ^ 435 + (if int4On s n then 2 ^ 434 else 0))
    let ents := t.ents.flatMap fun e => leBytes 16 e
    let refs := t.refs.flatMap fun r => leBytes 4 (r.1 % 65536 * 65536 + r.2 % 256)
    (b.img.coresAt p).foldl (fun s v => match b.placed[v]? with
      | some q => svcBytes (svcBytes (svcBytes (svcBytes s q.core row 0 header) q.core row 64 ents) q.core row 8256 masks) q.core row 12352 refs
      | none => s) s) s

/-! ## Delivery (R348, R349) -/

/-- The token line of a step. -/
def tokenLine (seq kind : Nat) (segs : List Seg) (ps : List StepPos) : Bytes :=
  let base := match segs with | g :: _ => g.base | [] => 0
  let single : Option (Seg × Ctx) := match segs, ps with | [g], p :: _ => some (g, p.ctx) | _, _ => none
  let (ctx, adapter, path, prev) := match single with
    | some (g, x) => (g.ctx, x.d.adapter, if kind = 2 then x.path else [], g.prev)
    | none => (0xFFFFFFFE, 0, [], 0)
  let fl := seq % 2 + (if segs.any (·.tree) then 2 else 0) + (if ps.any (·.ctx.d.vecIn) then 4 else 0) + (if segs.any (·.outs ≠ 0) then 8 else 0)
  leBytes 4 ctx ++ leBytes 4 seq ++ leBytes 4 base ++ leBytes 2 ps.length ++ leBytes 1 kind ++ leBytes 1 fl ++ leBytes 2 adapter ++
    leBytes 1 path.length ++ leBytes 1 0 ++ ((path ++ List.replicate 8 255).take 8).flatMap (fun i => leBytes 1 i) ++ leBytes 4 prev ++
    List.replicate 32 0

/-- Deliver a step: its lines, its sample lines, its length tables, then the STEP_TOKEN, all at their cores' own routers. -/
def deliver (s : State) (n kind : Nat) (segs : List Seg) : State :=
  match (s.region n).img with
  | none => s
  | some b =>
    match b.img.serving, b.img.serving.bind (fun v => b.placed[v.entryCore]?), b.img.serving.bind (fun v => b.placed[v.finalCore]?) with
    | some v, some pe, some pf =>
      let seq := (s.region n).delivered
      let ps := positionsOf s segs
      let s := svcBytes s pe.core (v.tokenRow + 1) 0 (ps.flatMap fun p => leBytes 4 (p.id s))
      let s := svcBytes s pe.core (v.tokenRow + 2) 0 (ps.flatMap fun p => leBytes 4 p.dest)
      let s := if ps.any (·.ctx.d.vecIn) then
          svcBytes s pe.core (v.tokenRow + 3) 0 (ps.flatMap fun p => slice (slice p.ctx.vecs (2 * v.inWidth * p.pos) (2 * v.inWidth)) 0 64)
        else s
      let s := ps.zipIdx.foldl (fun s p => if p.1.out then svcWrite s pf.core (v.sampleRow + p.2 / 32) (p.2 % 32) [p.1.sample] else s) s
      let s := writeTables s n seq b segs ps
      let s := injectServing s pe.core { blankPacket 9 0 pe.core pe.core with
        length := 2, body := BitVec.ofNat 128 (nth b.syncIdx v.entrySync 0), payload := tokenLine (seq % 2 ^ 32) kind segs ps }
      let full : Bool := kind = 1 && s.setting 0x6000 2 512 ≤ ps.length
      s.updRegion n fun r => { r with
        delivered := r.delivered + 1, steps := r.steps ++ [{ seq := seq % 2 ^ 32, kind := kind, segs := segs, at_ := s.now }]
        gaps := if full ∧ r.lastChunk ≠ 0 then keep64 r.gaps (s.now - r.lastChunk) else r.gaps
        lastChunk := if full then s.now else r.lastChunk }
    | _, _, _ => s

/-! ## Generation (R353 items 1 and 2, R354, R361) -/

/-- A generation step of a context can enter, but for its blocks. -/
def genReady (s : State) (n : Nat) (e : Nat × Ctx) : Bool :=
  e.2.d.region = n && e.2.tune.isNone && e.2.state = .generate && !inFlight s n e.1 && (e.2.blocks.all (·.frame.isNone)) &&
    hasCredit s e.2 e.2.treeSize

/-- Ready contexts in order: late ones by falling lateness, then those ready longest; ties to the lower context. -/
def genOrder (s : State) (n : Nat) : List Nat :=
  let cs := s.serving.ctxs.filter (genReady s n)
  let late := sortBy (fun e => 2 ^ 64 - lateness s e.2) (cs.filter fun e => lateness s e.2 ≠ 0)
  let rest := sortBy (fun e => e.2.readyFrom) (cs.filter fun e => lateness s e.2 = 0)
  (late ++ rest).map (·.1)

/-- Blocks for the first m positions of a context; an image without attention needs none. -/
def allocFor (s : State) (n c m : Nat) : Option State :=
  match (s.region n).img with
  | some b => if b.img.pairSize = 0 then some s else allocUpto 16 s c m
  | none => none

/-- Deliver the first generation step whose blocks are allocated. -/
def tryGen (s : State) (n : Nat) : Option State :=
  (genOrder s n).findSome? fun c =>
    match s.ctx? c with
    | none => none
    | some x =>
      (allocFor s n c (x.done + x.treeSize)).map fun s =>
        let g : Seg := { ctx := c, base := x.done, n := x.treeSize, outs := x.treeSize, tree := x.d.depth ≠ 0, prev := x.prevBase }
        (deliver s n 2 [g]).updCtx c fun x => { x with reserve := x.reserve + x.reserveFor g.outs }

/-! ## Prefill (R328, R353 items 3 and 4, R355, R356, R394) -/

/-- A context with positions to prefill. -/
def prefillable (n : Nat) (e : Nat × Ctx) : Bool :=
  e.2.d.region = n && e.2.tune.isNone && e.2.pinned.isSome && (e.2.state = .queued || e.2.state = .prefill) && e.2.done < e.2.prefillEnd &&
    e.2.blocks.all (·.frame.isNone)

/-- The length bucket, 0 to 4, of an unmatched prompt length (R328). -/
def bucketOf (x : Ctx) : Nat :=
  let u := x.promptLen - 64 * x.matched
  if u ≤ 256 then 0 else if u ≤ 1024 then 1 else if u ≤ 4096 then 2 else if u ≤ 16384 then 3 else 4

/-- TtftTarget in force, in µs; 0 none. -/
def ttftOf (s : State) (x : Ctx) : Nat := if x.d.ttft = 0 then s.setting (0x6100 + x.d.region) 1 0 else x.d.ttft

/-- The request is at risk of missing its first-token target (R355). -/
def atRisk (s : State) (x : Ctx) : Bool :=
  let r := s.region x.d.region
  let chunks := (x.prefillEnd - x.done + 511) / 512
  ttftOf s x ≠ 0 && x.lastCommit = 0 &&
    x.admTime + 1000 * ttftOf s x < s.almanac.toNat + 1000 * (chunks * avgUs r.gaps + avgUs r.lats + s.setting 0x6000 4 2000)

/-- Requests at risk are promoted until their first commit. -/
def promote (s : State) (n : Nat) : State :=
  { s with serving := { s.serving with
    ctxs := Tbl.map (fun c x => if prefillable n (c, x) ∧ atRisk s x then { x with promoted := true } else x) s.serving.ctxs } }

/-- The references of a table stay within its 5,104 on every core. -/
def refsFit (s : State) (n : Nat) (segs : List Seg) : Bool :=
  match (s.region n).img with
  | some b => (List.range b.img.pairSize).all fun p => (tableAt s b.img.pairSize p segs).refs.length ≤ 5104
  | none => true

/-- Outputs of a prefill segment: the last position when it ends the prompt, or those of the prompt's last MaxTokens positions in mode 2;
none in a reprefill (R356, R394). -/
def prefillOuts (x : Ctx) (k : Nat) : Nat :=
  let e := x.done + k
  if x.refill ≠ 0 ∨ x.d.maxTokens = 0 then 0
  else if x.d.mode = 2 then min k (e - (x.promptLen - x.d.maxTokens))
  else if x.promptLen ≤ e then 1 else 0

/-- A reprefilled context looks up its history before its first segment (R394). -/
def relookup (s : State) (c : Nat) : State :=
  match s.ctx? c with
  | some x => if x.ahead ∧ x.done = 0 ∧ x.blocks.isEmpty then (match x.pinned with | some v => lookupPrefix s c v | none => s) else s
  | none => s

/-- Add the next segment of a context to a chunk: none is added when blocks or credits lack, and without credits the request pauses. -/
def addSeg (n room : Nat) (acc : State × List Seg) (c : Nat) : State × List Seg :=
  let (s, segs) := acc
  let s := relookup s c
  let left := room - (segs.map (·.n)).sum
  match s.ctx? c with
  | none => (s, segs)
  | some x =>
    let sameInput : Bool := segs.all fun g => match s.ctx? g.ctx with | some y => y.d.vecIn = x.d.vecIn | none => true
    let k := min (x.prefillEnd - x.done) left
    let g : Seg := { ctx := c, base := x.done, n := k, outs := prefillOuts x k, tree := false, prev := x.prevBase }
    if k = 0 ∨ !sameInput then (s, segs)
    else if !hasCredit s x g.outs then (s.setCtx c { x with state := .paused, pauseFrom := s.now }, segs)
    else match allocFor s n c (x.done + k) with
      | none => (s, segs)
      | some t => if refsFit t n (segs ++ [g]) then (t, segs ++ [g]) else (s, segs)

/-- Deliver a prefill chunk of contexts in order, if one can enter. -/
def tryChunk (s : State) (n : Nat) (order : List Nat) : State × Bool :=
  let (s, segs) := order.foldl (addSeg n (s.setting 0x6000 2 512)) (s, [])
  if segs.isEmpty then (s, false)
  else
    (segs.foldl (fun s g => s.updCtx g.ctx fun x => { x with
      state := .prefill, done := g.base + g.n, prevBase := g.base, reserve := x.reserve + x.reserveFor g.outs }) (deliver s n 1 segs), true)

/-- Members of a bucket, reprefilled ones first, then in admission order. -/
def bucketOrder (cs : List (Nat × Ctx)) (k : Nat) : List Nat :=
  (sortBy (fun e => (if e.2.ahead then 0 else 2 ^ 32) + e.2.adm) (cs.filter fun e => bucketOf e.2 = k)).map (·.1)

/-- Deliver a prefill chunk: reprefilled contexts first, then a promoted request's with the room filled from its own bucket, then the
buckets in turn, one chunk each. -/
def tryPrefill (s : State) (n : Nat) : State × Bool :=
  let s := promote s n
  let cs := s.serving.ctxs.filter (prefillable n)
  let from_ (e : Nat × Ctx) : List Nat := e.1 :: (bucketOrder cs (bucketOf e.2)).filter (· ≠ e.1)
  let firsts := sortBy (fun e => e.2.adm) (cs.filter (·.2.ahead)) ++
    sortBy (fun e => e.2.admTime + 1000 * ttftOf s e.2) (cs.filter fun e => e.2.promoted && !e.2.ahead)
  let try_ (acc : State × Bool) (l : List Nat) : State × Bool := if acc.2 then acc else tryChunk acc.1 n l
  let acc := (firsts.map from_).foldl try_ (s, false)
  if acc.2 then acc
  else
    let b0 := (s.region n).bucket
    ((List.range 5).map fun i => (b0 + i) % 5).foldl (fun acc k =>
      let (t, ok) := try_ acc (bucketOrder cs k)
      if ok ∧ !acc.2 then (t.updRegion n fun r => { r with bucket := (k + 1) % 5 }, true) else (t, ok)) acc

/-! ## Tuning (R332) -/

/-- The training tokens of the next step: from the t-th one on, in one record, within the step's and the batch's limits. -/
def trainRun (params : Bytes) (t : Nat) : Nat → Nat → Nat
  | 0, _ => 0
  | f + 1, i => if (trainAt params (t + i)).pos = (trainAt params t).pos + i then 1 + trainRun params t f (i + 1) else 0

/-- Deliver a tuning step of a running job that has none in flight; a new record starts on fresh blocks. -/
def tryTune (s : State) (n : Nat) : Option State :=
  (s.serving.jobs.filter fun j => j.region = n && j.running).findSome? fun j =>
    match s.ctx? j.ctx with
    | none => none
    | some x =>
      if inFlight s n j.ctx then none
      else
        let base := (trainAt j.params x.sent).pos
        let k := trainRun j.params x.sent (min (s.setting 0x6300 2 1) ((tuneParams j.params).batch - j.tokens)) 0
        let s := if base = 0 ∧ !x.blocks.isEmpty then (releaseBlocks s n x.blocks).setCtx j.ctx { x with blocks := [] } else s
        if k = 0 then none
        else (allocFor s n j.ctx (base + k)).map fun s =>
          (deliver (s.updCtx j.ctx fun x => { x with sent := x.sent + k }) n 3
            [{ ctx := j.ctx, base := base, n := k, outs := 0, tree := false, prev := x.prevBase }]).updCtx j.ctx fun x => { x with prevBase := base }

/-! ## The slot (R348, R353, R576) -/

/-- The entry core can take a step: the image serves, its barrier and its gate are open, and ReleaseSync has reached the delivered
count. -/
def slotOpen (s : State) (n : Nat) : Bool :=
  let r := s.region n
  match r.img with
  | some b =>
    match b.img.serving with
    | some v => s.boot.phase = .complete && r.state = 1 && b.bound && b.active && !b.stopped && b.img.stage = 0 && !barrierClosed s n &&
        gateOpen s n && reached (s.sync (nth b.syncIdx v.releaseSync 0)).value (BitVec.ofNat 32 r.delivered)
    | none => false
  | none => false

/-- The first step to be delivered again of those that are, or are not, tuning steps. -/
def Region.nextAgain (r : Region) (tune : Bool) : Option StepRec := r.again.find? fun p => (p.kind = 3) = tune

/-- Count a slot toward the share of R353: the slots in a row that went to generation while prefill waits. -/
def countSlot (s : State) (n : Nat) (gen waits : Bool) : State :=
  s.updRegion n fun r => { r with genRun := if gen && waits then r.genRun + 1 else 0 }

/-- Deliver a step again. -/
def deliverAgain (s : State) (n : Nat) (p : StepRec) (waits : Bool) : State :=
  countSlot ((deliver s n p.kind p.segs).updRegion n fun r => { r with again := r.again.erase p }) n (p.kind = 2) waits

/-- What enters at an open slot: a generation or prefill step to be delivered again, else by R353's order, with the share that 0x6000:03
keeps for prefill; a tuning step enters when nothing else does (R332). -/
def fillSlot (s : State) (n : Nat) : State :=
  let waits := s.serving.ctxs.any (prefillable n)
  match (s.region n).nextAgain false with
  | some p => deliverAgain s n p waits
  | none =>
    let k := s.setting 0x6000 3 0
    let turn : Bool := 0 < k && waits && k - 1 ≤ (s.region n).genRun
    let gen (s : State) : Option State := (tryGen s n).map fun s => countSlot s n true waits
    match if turn then none else gen s with
    | some s => s
    | none =>
      let (t, ok) := tryPrefill s n
      if ok then countSlot t n false waits
      else match if turn then gen t else none with
        | some s => s
        | none =>
          match (t.region n).nextAgain true with
          | some p => deliverAgain t n p waits
          | none =>
            let t := startJobs t n
            match tryTune t n with | some t => countSlot t n false waits | none => t

/-- PIPELINE_SLOT: a region's slot opens and the first available item is delivered. -/
def execPipelineSlot (region : Nat) (s : State) : Res := .next (if slotOpen s region then fillSlot s region else s)

end Sys2Proof.Machine
end

