-- ==== Sys2Proof/Machine/Results.lean ====
section
/-!
DEFINITION. Results of steps: from the final core, from the last stage of a group, and steps that leave without any (R331, R341, R343,
R352, R362, R366, R372, R603, R606).
-/
namespace Sys2Proof.Machine

/-! ## Taking a result -/

/-- The segment of a context with outputs in a step. -/
def outSeg (p : StepRec) (c : Nat) : Option Seg := p.segs.find? fun g => g.ctx = c && g.outs ≠ 0

/-- The key of a result within its segment: its node, or in mode 2 the position sampled. -/
def resKey (x : Ctx) (b : Bytes) : Nat := if x.d.mode = 2 then resPos b else resNode b
/-- Keys that a segment's outputs can have. -/
def keyOk (x : Ctx) (g : Seg) (k : Nat) : Bool :=
  if x.d.mode = 2 then g.base + g.n - g.outs < k && k ≤ g.base + g.n else k < g.outs

/-- The results of a context for a step. -/
def Ctx.resultsOf (x : Ctx) (seq : Nat) : List (Nat × Bytes) := x.results.filterMap fun e => if e.1 = seq then some e.2 else none

/-- Every output of a step has come. -/
def allOut (s : State) (p : StepRec) : Bool :=
  p.segs.all fun g => g.outs = 0 || (match s.ctx? g.ctx with | some x => (x.resultsOf p.seq).length = g.outs | none => true)

/-- The last result of a request's step is its commit point: the step is discarded for a request that has ended, ends one whose deadline
aborts it, and commits otherwise (R343, R366, R370 to R372). -/
def commitStep (s : State) (n c : Nat) (p : StepRec) (g : Seg) : State :=
  let s := if p.kind = 1 then s.updCtx c fun x => { x with prefilled := x.prefilled + g.n } else s
  match s.ctx? c, (s.region n).img.bind (·.img.serving) with
  | some x, some v =>
    if x.state = .ended then s
    else if x.dead ∧ x.d.abort then endReq s c 2 0
    else if x.d.mode = 2 then commitVectors s c v g (x.resultsOf p.seq)
    else commitTokens s c v g (p.kind = 2) (x.resultsOf p.seq)
  | _, _ => s

/-- Record one result; the last one of a request commits, and the last one of the step lets it leave. -/
def takeResult (s : State) (n c seq : Nat) (b : Bytes) : State :=
  match (s.region n).steps.find? fun p => p.seq = seq with
  | none => s
  | some p =>
    match s.ctx? c, outSeg p c with
    | some x, some g =>
      let k := resKey x b
      if x.d.region ≠ n ∨ !keyOk x g k ∨ (x.resultsOf seq).any (fun e => e.1 = k) then s
      else
        let s := s.setCtx c { x with results := x.results ++ [(seq, k, b)] }
        let s := if (x.resultsOf seq).length + 1 = g.outs then commitStep s n c p g else s
        if allOut s p then stepLeft s n p else s
    | _, _ => s

/-- Forward a result to stage 0 (R352, R606). -/
def forwardResult (s : State) (b : BoundImage) (c seq : Nat) (res : Bytes) : State :=
  let dest := b.engineOf 0
  match portsTo s dest with
  | p :: _ => s.putFrame p dest { blankFrame s 3 2 dest with
      version := b.activeVersion, destStage := 0, srcStage := b.img.stage
      specific := BitVec.ofNat 80 (c % 2 ^ 32 * 2 ^ 48 + seq % 2 ^ 32 * 2 ^ 16 + b.epoch % 256 * 2 ^ 8)
      payload := slice res 0 (alignUp res.length 64) }
  | [] => s

/-- A result that arrives is no longer on its way: it leaves the posted results of the final core (R352). -/
def arrivePost (s : State) (b : BoundImage) (c : Nat) (res : Bytes) : State :=
  match b.img.serving.bind fun v => b.placed[v.finalCore]? with
  | some p => if (s.core p.core).posts.contains (c, res) then s.updCore p.core fun k => { k with posts := k.posts.erase (c, res) } else s
  | none => s

/-- SP_RESULT: a result of the final core reaches its engine's controller: stage 0's takes it, the last stage's forwards it. -/
def execSpResult (region ctx sequence : Nat) (result : Bytes) (s : State) : Res :=
  match (s.region region).img with
  | none => .next s
  | some b =>
    if b.img.stage + 1 ≠ b.img.stages ∨ !b.bound then .next s
    else
      let s := arrivePost s b ctx result
      if b.img.stage = 0 then .next (takeResult s region ctx sequence result)
      else .next (forwardResult s b ctx sequence result)

/-- A result that stage 0 refused: every request of its step ends STEP_FAULT, and the output counts as come. -/
def refuseResult (s : State) (n c seq : Nat) (b : Bytes) : State :=
  match (s.region n).steps.find? fun p => p.seq = seq with
  | none => s
  | some p =>
    let s := ((p.segs.map (·.ctx)).eraseDups).foldl (fun s c => endFaulted s c 0x010C) s
    takeResult s n c seq b

/-- RESULT: a forwarded result is checked; a refused one is discarded and counted, and its step faults (R603, R606).  A result of an
earlier epoch belongs to no step that is in flight. -/
def execResult (port : Nat) (f : FFrame) (s : State) : Res :=
  if f.type ≠ 3 then .next s
  else
    let (s, ok) := s.takeFrame port f
    if !ok then .next s
    else
      let v := f.specific.toNat
      let c := bits v 79 48
      let seq := bits v 47 16
      match groupFor s f with
      | none => .next (countRefusal s)
      | some (n, b) =>
        if bits v 15 8 ≠ b.epoch then .next (countRefusal s)
        else if f.version ≠ b.activeVersion then .next (refuseResult (countRefusal s) n c seq f.payload)
        else .next (takeResult s n c seq f.payload)

/-! ## Steps without outputs -/

/-- A tuning step has left: a batch complete is one optimiser step; after the last one the trained adapter is written and becomes
available (R330, R331, R566). -/
def tuneLeft (s : State) (n : Nat) (p : StepRec) : State :=
  p.segs.foldl (fun s g =>
    match (s.ctx? g.ctx).bind (·.tune) with
    | none => s
    | some h =>
      match s.serving.jobs.find? fun j => j.handle = h with
      | none => s
      | some j =>
        let q := tuneParams j.params
        let full : Bool := q.batch ≤ j.tokens + g.n
        let j' := if full then { j with tokens := 0, stepsLeft := j.stepsLeft - 1 } else { j with tokens := j.tokens + g.n }
        let s := s.keep h fun x => { x with since := s.now }
        let s := { s with serving := { s.serving with jobs := s.serving.jobs.map fun i => if i.handle = h then j' else i } }
        if j'.stepsLeft ≠ 0 then s
        else
          let plain := trainedBytes j.version j.params (Tbl.get s.serving.adapters [] (65536 * n + q.start))
          let (base, s) := s.draw 1
          let data := if custodyOn s then
              let nonce := (Config.random base 12).take 12
              let key := hkdf [] ((s.region n).keyAct.getD []) (ascii "stream") 32
              nonce ++ Config.gcmSeal key nonce [] plain
            else plain
          let s := match Tbl.find (s.region n).windows q.outSlot with
            | some w => if w.write then winWrite s w q.outOff (data.take (w.size - q.outOff)) else s
            | none => s
          let s := { s with serving := { s.serving with adapters := Tbl.set s.serving.adapters (65536 * n + q.adapter) plain } }
          endJob s h 0 0) s

/-- STEP_LEAVES_IMAGE: a step that samples nothing leaves the final core. -/
def execStepLeavesImage (region sequence : Nat) (s : State) : Res :=
  match (s.region region).steps.find? fun p => p.seq = sequence with
  | none => .next s
  | some p => .next (if p.segs.any (·.outs ≠ 0) then s else tuneLeft (stepLeft s region p) region p)

end Sys2Proof.Machine
end

