-- ==== Sys2Proof/Machine/Kv.lean ====
section
/-!
DEFINITION. Key-value blocks: closing and publishing (R301, R305, R306), INT4 compaction (R296), the return of evicted frames (R311), and
the prefix flush (R312).
-/
namespace Sys2Proof.Machine

/-! ## BLOCK_CLOSE (R301 to R306) -/

/-- Positions whose keys and values stand in their final place: accepted tree nodes away from it are moved by the next step (R362). -/
def Ctx.stable (x : Ctx) : Nat :=
  if x.path.isEmpty then x.done else x.prevBase + 1 + (x.path.zipIdx.takeWhile fun e => e.1 = e.2 + 1).length

/-- Positions of a context that stand in their final place once a step has left the last layer: those of its chunk, or its root's. -/
def Seg.final (kind : Nat) (g : Seg) : Nat := if kind = 2 then g.base + 1 else g.base + g.n

/-- The steps delivered so far write all of a block's positions, and none of them waits to be delivered again.  The command says that the
last of those steps has left the last layer; its results may still be on their way. -/
def blockWritten (s : State) (n c k : Nat) (x : Ctx) : Bool :=
  let r := s.region n
  (64 * (k + 1) ≤ x.stable || r.steps.any fun p => p.segs.any fun g => g.ctx = c && 64 * (k + 1) ≤ g.final p.kind) &&
    r.again.all fun p => p.segs.all fun g => g.ctx ≠ c || 64 * (k + 1) ≤ g.base

/-- The least recently matched index entry of a PUBLISHED block with count 0, of any region (R306). -/
def idleEntry (s : State) : Option PfxEnt :=
  (s.serving.index.filter fun e => ((s.region e.region).blk e.block).state = .published && ((s.region e.region).blk e.block).count = 0).foldl
    (fun b e => match b with
      | none => some e
      | some (f : PfxEnt) => if e.matched < f.matched then some e else some f) none

/-- Make room for one index entry; none when nothing can be replaced. -/
def indexRoom (s : State) : Option State :=
  if s.serving.index.length < 131072 then some s
  else (idleEntry s).map fun e => (dropEntry s e.region e.block).updRegion e.region fun r => r.setBlk e.block Blk.reset

/-- Publish a closed block under its key, unless R301 keeps it CLOSED. -/
def publish (s : State) (n : Nat) (x : Ctx) (b : Nat) (h : Bytes) : State :=
  let ses := keySession s x
  let kept : Bool := s.setting (0x6280 + n) 3 1 = 0 || x.noPrefix || x.d.noPub || s.serving.index.any fun e => e.matches h n x.d.adapter ses
  if kept then s
  else match indexRoom s with
    | none => s
    | some s =>
      let st := s.serving.stamp + 1
      let e : PfxEnt := { hash := h, region := n, adapter := x.d.adapter, session := ses, block := b, matched := st }
      let s := { s with serving := { s.serving with index := s.serving.index ++ [e], stamp := st } }
      s.updRegion n fun r => r.setBlk b { r.blk b with state := .published }

/-- BLOCK_CLOSE: the step that fills a context's block leaves the last layer: the block is hashed and published. -/
def execBlockClose (ctx block : Nat) (s : State) : Res :=
  match s.ctx? ctx with
  | none => .next s
  | some x =>
    let n := x.d.region
    match x.blocks[block]? with
    | none => .next s
    | some cb =>
      let y := (s.region n).blk cb.blk
      if cb.frame.isSome ∨ y.state ≠ .openB ∨ !blockWritten s n ctx block x then .next s
      else
        let h := ((chain (x.pinned.getD 0) (block + 1) x.toks).getLast?).getD []
        let s := s.updRegion n fun r => r.setBlk cb.blk { y with state := .closed, hash := h }
        let s := s.updCtx ctx fun x => { x with blocks := x.blocks.set block { cb with openB := false } }
        .next (publish s n x cb.blk h)

/-! ## INT4_COMPACTION (R293, R294, R296) -/

/-- The exact quotient of two FP32 values rounded to nearest, ties to even; 0 for a divisor of 0. -/
def quotInt (a b : W32) : Int :=
  let x := f32val a
  let y := f32val b
  if y.m = 0 then 0
  else if y.e ≤ x.e then rneInt (x.m * 2 ^ (x.e - y.e).toNat) y.m.toNat else rneInt x.m (y.m.toNat * 2 ^ (y.e - x.e).toNat)

/-- One half of a block, 64 tokens of 128 elements: its scale, max|x| ÷ 7, and its INT4 elements, two to a byte. -/
def int4Half (xs : List W32) : W32 × Bytes :=
  let top := xs.foldl (fun m x => if f32lt m (x &&& 0x7FFFFFFF) then x &&& 0x7FFFFFFF else m) 0
  let sc := if top = 0 then 0 else f32div top 0x40E00000
  let q (x : W32) : Nat := (quotInt x sc % 16).toNat
  (sc, (chunks 2 xs).map fun p => BitVec.ofNat 8 (q (nth p 0 0) + 16 * q (nth p 1 0)))

/-- Compact the block in a slot pair: keys, then values, in the core's key-value area. -/
def Core.compact (k : Core) (slot : Nat) : Core :=
  let u := slot / 2
  let half (val : Bool) : List W32 := (List.range 64).flatMap fun t => (List.range 128).map fun d => kvElem k 0 0 u false val t d
  let (sk, kb) := int4Half (half false)
  let (sv, vb) := int4Half (half true)
  let k := ((k.putBytes (8 * u * 2048) kb).putBytes ((8 * u + 2) * 2048) vb).putBytes (1024 * 2048 + 8 * slot)
    (leBytes 4 sk.toNat ++ leBytes 4 sv.toNat)
  ({ k with packed := k.packed ++ [slot] }).count 11 5 1

/-- Compaction is work for the core's fast clock: it starts for it, and stops again where nothing else runs; a region in DOZE wakes first,
and in a coolant hold or in an unpowered region nothing happens (R27, R30, R240, R522). -/
def compactNow (s : State) (c slot : Nat) : State :=
  let was := s.core c
  let t := if was.clockOn then s else s.startClock c
  if !(t.core c).clockOn then t
  else
    let t := t.updCore c fun k => k.compact slot
    if was.clockOn ∨ was.hasWork then t else t.stopClock c

/-- INT4_COMPACTION: a core of the block's pairs compacts it once it has closed; slot 2u + 1 is free once every such core has (R296 step 5). -/
def execInt4Compaction (core slot : Nat) (s : State) : Res :=
  match ownerOf s core with
  | none => .next s
  | some n =>
    match (s.region n).img, vcoreAt s n core with
    | some im, some v =>
      let pair : Bool := match im.img.cores[v]? with | some e => e.pair?.isSome | none => false
      let b := slot * im.img.pairSize + im.img.pairIndex v
      let y := (s.region n).blk b
      if pair ∧ int4On s n ∧ slot % 2 = 0 ∧ slot < 256 ∧ (y.state = .closed ∨ y.state = .published) ∧ !(s.core core).packed.contains slot ∧
          usable s core then .next (compactNow s core slot)
      else .next s
    | _, _ => .next s

/-! ## FRAME_RETURN (R310, R311, R566) -/

/-- Write one core's part of a frame into a slot; answers the rest of the bytes. -/
def putSlot (k : Core) (int4 opn : Bool) (slot : Nat) (b : Bytes) : Core × Bytes :=
  if !int4 then (k.putBytes (8 * slot * 2048) (slice b 0 16384), b.drop 16384)
  else if opn then (k.putBytes (4 * slot * 2048) (slice b 0 16384), b.drop 16384)
  else
    let k := (k.putBytes (4 * slot * 2048) (slice b 0 8192)).putBytes (1024 * 2048 + 8 * slot) (slice b 8192 8)
    ({ k with packed := k.packed.filter (· ≠ slot) ++ [slot] }, b.drop 8200)

/-- Write a frame into the cores of a block. -/
def putFrameBytes (s : State) (n : Nat) (im : BoundImage) (b : Nat) (opn : Bool) (frame : Bytes) : State :=
  let nc := im.img.pairSize
  let int4 := int4On s n
  let raw := if int4 ∧ opn then Config.openFrame true frame else frame
  ((im.img.coresAt (b % nc)).foldl (fun acc v => match im.placed[v]? with
    | some p =>
      let (k, rest) := putSlot (acc.1.core p.core) int4 opn (b / nc) acc.2
      (acc.1.setCore p.core k, rest)
    | none => acc) (s, raw)).1

/-- What a frame's read gives: its plaintext when its digest is the stored one. -/
def framePlain (s : State) (n : Nat) (x : Ctx) (cb : CtxBlk) (data : Option Bytes) : Option Bytes :=
  let slot := s.setting (0x6280 + n) 2 255
  match data, cb.frame with
  | some d, some f =>
    let readable : Bool := match Tbl.find (s.region n).windows slot with | some w => w.read && frameFits w (frameSize s n) f | none => false
    let p := match custodyOn s, s.session? x.session with
      | true, some se => Config.ctr se.kvKey (frameBlock slot f cb.evict 0) d
      | _, _ => d
    if readable ∧ sha256 p = cb.digest then some p else none
  | _, _ => none

/-- One returned block: allocated again under R298 and written. -/
def returnBlk (s : State) (n c i : Nat) (plain : Bytes) : Option State :=
  match s.ctx? c, (s.region n).img with
  | some x, some im =>
    match x.blocks[i]? with
    | none => none
    | some cb =>
      let nc := im.img.pairSize
      if nc = 0 then none
      else
        let p := if i = 0 then (s.region n).cursor % nc else (nth (x.blocks.map (·.blk)) 0 0 + i) % nc
        (findBlock s n nc p).map fun (t, b) =>
          let t := t.updRegion n fun r =>
            let r := if i = 0 then { r with cursor := (r.cursor + 1) % nc } else r
            r.setBlk b { state := if cb.openB then .openB else .closed, count := 1, hash := [] }
          let t := putFrameBytes (unpack t im nc b) n im b cb.openB plain
          t.updCtx c fun x => { x with blocks := x.blocks.set i { cb with blk := b, frame := none, digest := [], evict := 0 } }
  | _, _ => none

/-- Return every evicted block in order; none while a block cannot be allocated. -/
def returnGo (n c : Nat) : List (Nat × Bytes) → State → Option State
  | [], s => some s
  | (i, p) :: l, s => (returnBlk s n c i p).bind (returnGo n c l)

/-- FRAME_RETURN: before the next step of a context with evicted blocks its frames are read back and checked. -/
def execFrameReturn (ctx : Nat) (frames : List (Option Bytes)) (s : State) : Res :=
  match s.ctx? ctx with
  | none => .next s
  | some x =>
    let n := x.d.region
    let gone := x.blocks.zipIdx.filter fun e => e.1.frame.isSome
    if gone.isEmpty ∨ (x.state ≠ .generate ∧ x.state ≠ .prefill) then .next s
    else
      let slot := s.setting (0x6280 + n) 2 255
      let s := gone.foldl (fun s e => winAsk s n slot (e.1.frame.getD 0 * frameSize s n) (frameSize s n)) s
      let got := gone.zipIdx.map fun e => (e.1.2, framePlain s n x e.1.1 (nth frames e.2 none))
      if got.any fun e => e.2.isNone then .next (endReq s ctx 5 0)
      else
        -- a context whose blocks are all back is ready from now on (R353)
        .next (((returnGo n ctx (got.map fun e => (e.1, e.2.getD [])) s).map fun t => t.updCtx ctx fun x => { x with
          readyFrom := if x.blocks.any fun b => b.frame.isSome then x.readyFrom else s.now }).getD s)

/-! ## FLUSH_PREFIX (R312) -/

/-- A write to 0x6200:05. -/
def flushPrefixOp (s : State) (n : Nat) : OdEff := if n < 64 then (odBump (dropIndex s n) 0x6200 5, 0) else (s, 4)
def execFlushPrefix (_w : Writer) (region : Nat) (s : State) : Res := applied s 0x6200 (flushPrefixOp s region)

end Sys2Proof.Machine
end

