-- ==== Sys2Proof/Machine/Upkeep.lean ====
section
/-!
DEFINITION. Upkeep: refresh ages and due work (R110, R111, R119), intercalary slots (R113 to R118), sentinel checks (R101 to R105),
calibration (R106, R107), refresh by read and snap (R108 to R112, R385), spare programming and repair (R123, R385), CALIBRATE, and the
precision warnings (R125, R126).
-/
namespace Sys2Proof.Machine

/-! ## Ages (R110, R111) -/

/-- An array's refresh age has reached a multiple of its interval. -/
def ageReached (s : State) (p : PRegion) (a : Arr) (mult : Nat) : Bool := 655360 * mult * refreshInterval s a.format ≤ p.aged - a.ageBase

/-- Refresh of one array is scheduled when due, and becomes forced at twice the interval (R111). -/
def dueTasks (p : PRegion) (s : State) (k : Core) (e : Nat × Arr) : Core :=
  let a := e.2
  if a.format = 0 ∨ (a.state ≠ 0 ∧ a.state ≠ 4) then k
  else
    let t := k.set (e.1 / 4)
    let has (l : Nat) : Bool := t.tasks.any fun x => x.array = e.1 && x.level = l
    if ageReached s p a 2 then
      if has 3 then k
      else k.setSet (e.1 / 4) { t with tasks := (t.tasks.filter fun x => !(x.array = e.1 && x.level = 5)) ++ [⟨3, e.1⟩] }
    else if ageReached s p a 1 && !has 3 then k.addTask e.1 5 else k

/-- 2^x for x = f/2^k, f < 2^k, in units of 2^-60, from the square roots of two. -/
def pow2Frac : Nat → Nat → Nat → Nat → Nat
  | 0, _, _, acc => acc
  | k + 1, f, root, acc =>
    -- root is 2^(1/2^i) for the bit that is looked at
    pow2Frac k (f % 2 ^ k) (isqrt (root * 2 ^ 60)) (if 2 ^ k ≤ f then acc * root / 2 ^ 60 else acc)

/-- One 100 ms increment of refresh age above 55 °C, 0.1·2^((T - 55)/10) s in 1/655,360 s (R110). -/
def ageStep (t : Int) : Nat :=
  let n := (t - degC 55).toNat
  let f := n % 655360 * 2 ^ 32 / 655360
  pow2Frac 32 f (isqrt (2 * 2 ^ 120)) (2 ^ 60) * 65536 * 2 ^ (n / 655360) / 2 ^ 60

/-- AGE_TICK: every refresh age grows by 0.1 s times f(T), T the hot spot of the array's power region; due work is scheduled. -/
def execAgeTick (s : State) : Res :=
  let s := (List.range 240).foldl (fun s g => s.updPreg g fun p => { p with
    aged := p.aged + if p.hot ≤ degC 55 then 65536 else ageStep p.hot }) s
  .next { s with cores := Tbl.map (fun c k => if usable s c then k.arrays.foldl (dueTasks (s.preg (powerOf c)) s) k else k) s.cores }

/-! ## What can run on a set (R113 to R115, R118, R123) -/

/-- The arrays of a layer that an operation programs; a relocation programs the tiles of the virtual cores that it moves, in their new
places. -/
def layerArrays (r : Region) (o : LoadOp) (layer : Nat) : List (Nat × Nat) :=
  let (m, _, ps) := opSource r o
  (m.tiles.filter fun t => !t.host && t.layer = layer && (o.phase ≠ .relocate || o.moved.contains t.vcore)).filterMap (tilePlace ps)

/-- The array's layer is being programmed or rewritten (R71, R113). -/
def layerBusy (s : State) (c a : Nat) : Bool :=
  match ownerOf s c with
  | none => false
  | some n =>
    let r := s.region n
    match r.op with
    | none => false
    | some o => (o.phase = .loadProgram || o.phase = .rewrite || o.phase = .rollback || o.phase = .relocate) &&
      (match currentLayer r o with | some l => (layerArrays r o l).contains (c, a) | none => false)

/-- The pending tasks of a set: its sentinel check, its listed tasks, and passes that a temperature change asks for (R107). -/
def setTasks (s : State) (c set : Nat) : List Task :=
  let t := (s.core c).set set
  (match t.sample with | some m => [⟨1, m.array⟩] | none => []) ++ t.tasks ++
    ((List.range 4).filter fun i => calDueOf s c (4 * set + i)).map fun i => ⟨4, 4 * set + i⟩

/-- Slices of a level pulse cells: repair, refresh, spares (R115). -/
def Task.pulses (t : Task) : Bool := t.level = 0 || t.level = 3 || t.level = 5 || t.level = 7

/-- A task can run now: none does on a layer that is being programmed (R113), none that pulses without VDD_AUX (R488), and a repair has
something to repair (R123). -/
def taskOk (s : State) (c : Nat) (k : Core) (t : Task) : Bool :=
  let a := k.arr t.array
  a.state ≠ 5 && !layerBusy s c t.array && !(t.pulses && s.power.auxLost.isSome) &&
    (t.level ≠ 0 || !a.repair.isEmpty || a.worn.any fun e => (Tbl.find a.subst e.1).isNone)

/-- A sentinel sample has been pending for 20 ms (R118). -/
def sampleLate (s : State) (t : ASet) : Bool := match t.sample with | some m => s.passed m.since 20000000 | none => false

/-- A task whose slices are forced (R118, R123). -/
def forcedTask (s : State) (x : ASet) (t : Task) : Bool := t.level = 0 || t.level = 3 || (t.level = 1 && sampleLate s x)

/-- The next task of a set, or the next whose slices are forced: the lowest level, then the greatest refresh age (R115); repair
slices come before, spares behind a substitution after the others.  DESIGN CHOICE: a slice of a higher level may come between a refresh
slice that stopped at 8 µs and its continuation, which R109 puts before the array's other refresh slices only. -/
def nextTask (s : State) (c set : Nat) (forced : Bool) : Option Task :=
  let k := s.core c
  let age (t : Task) : Nat := (s.preg (powerOf c)).aged - (k.arr t.array).ageBase
  ((setTasks s c set).filter fun t => taskOk s c k t && (!forced || forcedTask s (k.set set) t)).foldl (fun b t => match b with
    | none => some t
    | some (u : Task) => if t.level < u.level ∨ (t.level = u.level ∧ age u < age t) then some t else some u) none

/-- The queued evaluations of a set. -/
def Core.queuedEvals (k : Core) (set : Nat) : List (Nat × Nat) :=
  k.seq.queued.filterMap fun q => match q.op with
    | .cimEval _ a _ _ _ _ _ => if a / 4 = set then some (q.num, a) else none
    | _ => none

/-- An evaluation that was queued when the set's last slice ran goes before the next one, but one that waits for a held array: an evaluation
meets at most one slice (R117, R123). -/
def hasMet (k : Core) (set : Nat) (t : Task) : Bool :=
  (k.queuedEvals set).any fun q =>
    q.1 < (k.set set).fixAfter && (t.level ≠ 0 || q.2 ≠ t.array) && !(k.stuck.any fun p => p.num = q.1)

/-- A forced slice may start: no evaluation in progress, none waiting that has met a slice, and 100 µs after the last forced slice, from
which repair slices are free (R117, R118, R123). -/
def forcedOk (s : State) (k : Core) (set : Nat) (t : Task) : Bool :=
  let x := k.set set
  x.use = 0 && !hasMet k set t &&
    (t.level = 0 || (match x.lastForced with | some l => s.passed l 100000 | none => true))

/-- An unforced slice may start: nothing queued, nothing running, and the guard time since the last phase (R114). -/
def slotOk (s : State) (k : Core) (set : Nat) : Bool :=
  let x := k.set set
  x.use = 0 && (k.queuedEvals set).isEmpty && (match x.lastPhase with | some l => s.passed l (s.setting 0x5040 6 1000) | none => true)

/-- Start one slice; a forced one sets its warning and is noted in the Sillage stream. -/
def startSlice (s : State) (c set : Nat) (t : Task) (forced : Bool) : State :=
  let s := s.updCore c fun k =>
    let x := k.set set
    k.setSet set { x with use := 5, slice := some ⟨t, s.now, forced⟩, lastForced := if forced ∧ t.level ≠ 0 then some s.now else x.lastForced }
  if forced then
    { s with upkeep := { s.upkeep with warnings := s.upkeep.warnings ||| 4 } }.notice 1 (silCore c (ownerOf s c)) set s.now
  else s

/-- The core's arrays are powered and may be worked on: not in a coolant hold, nor in a region that is not powered. -/
def upkeepPower (s : State) (c : Nat) : Bool :=
  let g := (s.preg (powerOf c)).state
  s.thermal.state = 0 && (g = .run || g = .nap) && usable s c

/-- A forced slice goes ahead of an evaluation that would start now (R118, R123). -/
def forcedFirst (s : State) (c set : Nat) : Bool :=
  upkeepPower s c && (match nextTask s c set true with | some t => forcedOk s (s.core c) set t | none => false)

/-- No upkeep that can run is left on the usable cores of a region. -/
def upkeepIdle (s : State) (g : Nat) : Bool :=
  (powerCores g).all fun c => !usable s c || (List.range 8).all fun t => ((s.core c).set t).slice.isNone && (nextTask s c t false).isNone

/-- A region that was woken for its upkeep returns to its previous state once that is done; with a clock running it stays, and with a flit in
it, or where R241 keeps it from DARK, it naps (R119). -/
def upkeepReturn (s : State) (g : Nat) : State :=
  match (s.preg g).upkeepFrom with
  | none => s
  | some st =>
    if ((s.preg g).state ≠ .run ∧ (s.preg g).state ≠ .nap) ∨ !upkeepIdle s g then s
    else
      let s := s.updPreg g fun p => { p with upkeepFrom := none }
      if (powerCores g).any fun c => (s.core c).clockOn then s
      else if !flitQuiet s g 0 ∨ (st = .dark ∧ tenanted s g) then s.powerTo g .nap 0
      else if st = .dark then goDark s g
      else ((s.countField (powerField g) 0 1).powerTo g .doze 0).modePin g false

/-- INTERCALARY_SLOT: a slot opens on an array set and its next slice starts; a forced slice does not wait for the set to be free of
queued evaluations. -/
def execIntercalarySlot (core set : Nat) (s : State) : Res :=
  let k := s.core core
  if 8 ≤ set ∨ !upkeepPower s core ∨ (k.set set).slice.isSome then .next s
  else match nextTask s core set (!slotOk s k set) with
    | none => .next (upkeepReturn s (powerOf core))
    | some t =>
      if !forcedTask s (k.set set) t then .next (startSlice s core set t false)
      else if forcedOk s k set t then .next (startSlice s core set t true)
      else .next s

/-- SENTINEL_FORCE: a sample pending for 20 ms forces a slice. -/
def execSentinelForce (core set : Nat) (s : State) : Res :=
  let k := s.core core
  match (k.set set).sample with
  | none => .next s
  | some m =>
    let t : Task := ⟨1, m.array⟩
    if set < 8 ∧ sampleLate s (k.set set) ∧ upkeepPower s core ∧ (k.set set).slice.isNone ∧ taskOk s core k t ∧ forcedOk s k set t then
      .next (startSlice s core set t true)
    else .next s

/-! ## Sentinel checks (R101 to R105) -/

/-- The rows that a check reads in a row group: those with an input; all of them for a transposed sample. -/
def Sample.rowsOf (m : Sample) (g : Nat) : List Nat :=
  ((List.range 64).map (64 * g + ·)).filter fun i => m.trans || nth m.input i 0 ≠ 0

/-- The row groups a check has to read: those with a driven row; all of them for a transposed sample, whose lines are columns. -/
def Sample.groups (m : Sample) : List Nat :=
  (List.range 8).filter fun g => !(m.rowsOf g).isEmpty

/-- The exact reference of one output over the groups that its analog sum covers. -/
def Sample.reference (m : Sample) (a : Arr) (base e : Nat) : Int :=
  let w8 := a.format = 5
  let n := if m.trans then (if w8 then 256 else 512) else 512
  let per := if m.trans then (if w8 then 16 else 32) else 64
  ((List.range n).map fun i =>
    let x := nth m.input i 0
    let (row, col) := if m.trans then (e, i) else (i, e)
    if x = 0 ∨ m.skip.contains (i / per, e) then 0 else cellWeight w8 (a.snap false base) row col * x).sum

/-- The errors of the included outputs. -/
def Sample.errors (m : Sample) (a : Arr) (base : Nat) : List Int :=
  m.sums.zipIdx.filterMap fun e => e.1.map fun v => v - m.reference a base e.2

/-- A check's errors exceed a threshold, in 1/65,536 per cent of full scale (R102). -/
def checkAlarms (es : List Int) (fs rms peak : Nat) : Bool :=
  rms ^ 2 * es.length * fs ^ 2 < 10000 * 2 ^ 32 * (es.map fun e => e.natAbs ^ 2).sum || es.any fun e => peak * fs < 100 * 65536 * e.natAbs

/-- Array sets of a core that have a sentinel retirement within one base interval. -/
def retiredSets (s : State) (c : Nat) : List Nat :=
  ((s.upkeep.retired.filter fun x => x.1 = c && s.now ≤ x.2.2 + 1000000000 * s.setting 0x5040 1 21600).map (·.2.1)).eraseDups

/-- A sentinel alarm: counted, and all four arrays of the set wait for calibration, but a retired one, or at the third alarm the array is
retired, which three sets of a core escalate to a core death. -/
def sentinelAlarm (s : State) (c set a : Nat) : State :=
  let x := (s.core c).arr a
  let n := min (x.alarms + 1) 3
  let s := s.updCore c fun k => (k.count (2 + set) 7 1).setArr a { x with alarms := n }
  let s := { s with upkeep := { s.upkeep with warnings := s.upkeep.warnings ||| 2 } }
  let s := s.precisionEvent ((x.tile.map (·.1)).getD 0) c a
  if n < 3 then
    s.updCore c fun k => (List.range 4).foldl (fun k i =>
      let b := 4 * set + i
      if (k.arr b).state = 0 ∨ (k.arr b).state = 4 then k.addTask b 2 else k) k
  else
    let s := retireArray s c a 2
    let s := { s with upkeep := { s.upkeep with retired := s.upkeep.retired ++ [(c, set, s.now)] } }
    let sets := retiredSets s c
    if 3 ≤ sets.length then
      let s := { s with upkeep := { s.upkeep with warnings := s.upkeep.warnings ||| 16 } }
      coreDies s c 0x0203 ((sets.map fun i => 2 ^ i).sum)
    else s

/-- One sentinel slice: a row group is read; after the last one the check is decided, and the sample counted as checked (R98). -/
def sentinelSlice (s : State) (c set : Nat) : State :=
  let k := s.core c
  match (k.set set).sample with
  | none => s
  | some m =>
    match m.groups.filter fun g => m.group ≤ g with
    | _ :: g :: _ => s.setCore c (k.setSet set { k.set set with sample := some { m with group := g } })
    | _ =>
      let (base, s) := s.draw (2 ^ 21)
      let x := k.arr m.array
      let ovr := x.overReads false base (m.groups.flatMap m.rowsOf)
      let s := s.setCore c (((k.setSet set { k.set set with sample := none }).count (2 + set) 5 1).count 1 6 ovr)
      if x.format ≠ 0 ∧ checkAlarms (m.errors x base) (fullScale x.format) (s.setting 0x5020 2 9830) (s.setting 0x5020 3 32768) then
        sentinelAlarm s c set m.array
      else s

/-! ## Calibration (R106, R107, R434) -/

/-- Cores that a CALIBRATE names. -/
def calScope (word c : Nat) : Bool := word = 0xFFFFFFFF || (word < 2 ^ 32 && c = unpackCore word)

/-- A calibration pass that a CALIBRATE waits for is still to come. -/
def calWaits (s : State) (word : Nat) : Bool :=
  s.cores.any fun e => calScope word e.1 && usable s e.1 && e.2.sets.any fun t => t.2.tasks.any fun x => x.level = 6

/-- CALIBRATE handles whose passes have all completed end OK; the others show progress. -/
def calHandles (s : State) : State :=
  s.host.handles.foldl (fun s e => match e.2.out with
    | some o =>
      if o.opcode ≠ 0x51 ∨ !o.running then s
      else if calWaits s (fieldAt o.cmd 16 4) then s.keep e.1 fun x => { x with since := s.now }
      else s.finish e.1 0 0 0 0
    | none => s) s

/-- A completed calibration pass: every calibration task of the array is done.  DESIGN CHOICE: a trigger that arose while the pass ran asks
for no further pass. -/
def calDone (s : State) (c a : Nat) : State :=
  let hot := (s.preg (powerOf c)).hot
  let s := s.updCore c fun k =>
    let t := k.set (a / 4)
    (k.setArr a { k.arr a with calGroup := 0, calAt := s.now, calTemp := hot }).setSet (a / 4) { t with
      tasks := t.tasks.filter fun x => !(x.array = a && (x.level = 2 || x.level = 4 || x.level = 6)) }
  calHandles s

/-- Write the trims of some slices of a set with a fresh fit. -/
def State.fitSlices (s : State) (c set : Nat) (slices : List Nat) : State :=
  let (base, s) := s.draw (20 * 1040)
  s.updCore c fun k => k.setSet set ((k.set set).putTrims base slices)

/-- One calibration slice, of one row group of eight; it fits that group's row slices and the column slices (R106).  DESIGN CHOICE: its
zero-input and pattern phases and its turnaround count in no counter of the array control, whose phases R73 counts for evaluations. -/
def calSlice (s : State) (c a : Nat) : State :=
  let x := (s.core c).arr a
  let s := s.fitSlices c (a / 4) (calSlices x.calGroup)
  if x.calGroup < 7 then s.updCore c fun k => k.setArr a { x with calGroup := x.calGroup + 1 } else calDone s c a

/-- A whole pass on an array at once. -/
def calPass (s : State) (c a : Nat) : State := calDone (s.fitSlices c (a / 4) (List.range 1040)) c a

/-- CALIBRATE: passes on the programmed arrays of one core or of every core; a core outside the wafer is refused. -/
def execCalibrate (h : Nat) (s : State) : Res :=
  .next (s.onCmd h 0x51 fun o =>
    let w := fieldAt o.cmd 16 4
    if w ≠ 0xFFFFFFFF ∧ (127 < w / 65536 ∨ 149 < w % 65536) then s.finish h 5 0 0 0
    else
      let add (k : Core) : Core := k.arrays.foldl (fun k e =>
        if e.2.format ≠ 0 ∧ (e.2.state = 0 ∨ e.2.state = 4) then k.addTask e.1 6 else k) k
      let s := { s with cores := Tbl.map (fun c k => if calScope w c ∧ usable s c then add k else k) s.cores }
      calHandles (s.keep h fun x => { x with running := true, since := s.now }))

/-! ## Refresh (R108 to R112, R385) -/

/-- What a refresh of rows has found and done: time used in ns, levels pulsed, snapped levels of marked rows, columns pulsed, columns
worn with the row of the failing cell, pulse rounds, and the first row left to pulse. -/
structure Refresh where
  time   : Nat
  arr    : Arr
  cols   : List Nat
  worn   : List Nat
  pulses : Nat
  stop   : Option Nat
deriving DecidableEq, Repr

/-- Rounds of pulse and verify on marked cells, each of which a pulse brings to its level: the columns that the verify's read still finds
farther than an eighth of the spacing from it, and the rounds used, at most four (R108). -/
def pulseRounds (sp base : Nat) (goal : Nat → Nat) : Nat → List Nat → List Nat × Nat
  | 0, l => (l, 0)
  | f + 1, l =>
    if l.isEmpty then ([], 0)
    else
      let left := l.filter fun j =>
        sp < 8 * ((readLevel (Config.readError (base + 512 * f + j)) (goal j)).1 - 32 * (goal j : Int)).natAbs
      let (rest, n) := pulseRounds sp base goal f left
      (rest, n + 1)

/-- Refresh of one row: its cells are read and snapped; marked ones are pulsed toward their level, while the slice has time. -/
def Refresh.row (x : Refresh) (base r : Nat) : Refresh :=
  if x.stop.isSome then x
  else
    let a := x.arr
    let sp := spacing32 a.format
    let eb := base + 4096 * r
    let cell (j : Nat) : Nat × Bool :=
      let l := (a.readCell false base r j).1
      let t := snapLevel a.format l
      (t, sp < 4 * (l - 32 * (t : Int)).natAbs)
    let cells := (List.range 512).map cell
    let off := (cells.zipIdx.filter fun e => e.1.1 ≠ a.level r e.2).map fun e => (e.2, e.1.1)
    let marked := (cells.zipIdx.filter fun e => e.1.2).map (·.2)
    let snaps := off.foldl (fun t e => Tbl.set t (512 * r + e.1) e.2) a.snaps
    if marked.isEmpty then { x with arr := { a with snaps := snaps } }
    else if 8000 < x.time + 480 then { x with stop := some r }
    else
      let (left, n) := pulseRounds sp (eb + 512) (fun j => (nth cells j (8, false)).1) 4 marked
      let levels := marked.foldl (fun t j =>
        let v := (nth cells j (8, false)).1
        let key := 528 * r + a.phys j
        if v = 8 then Tbl.del t key else Tbl.set t key v) a.levels
      { x with
        time := x.time + 120 * n, arr := { a with snaps := snaps, levels := levels }
        cols := x.cols ++ marked.filter fun j => !x.cols.contains j
        worn := x.worn ++ left.filter fun j => !x.worn.contains j
        pulses := x.pulses + n }

/-- The digest check at the end of a pass: an array whose levels do not give its stored digest is held. -/
def passDigest (s : State) (c a : Nat) : State :=
  let k := s.core c
  let x := k.arr a
  let read (i j : Nat) : Nat := Tbl.get x.snaps (x.level i j) (512 * i + j)
  let bad : Bool := x.tile.isSome && !x.digest.isEmpty && x.state = 0 && sha256 (x.recordWith read (a % 4) (k.set (a / 4)).outliers) ≠ x.digest
  s.setCore c (k.setArr a { x with snaps := [], state := if bad then 4 else x.state, retries := if bad then 1 else x.retries })

/-- A refresh pass completes: the age and the alarm count start again, calibration follows (R103, R107, R110, R385). -/
def refreshDone (s : State) (c a : Nat) : State :=
  let p := s.preg (powerOf c)
  let s := passDigest s c a
  s.updCore c fun k =>
    let x := k.arr a
    let k := k.setArr a { x with group := 0, nextRow := 0, alarms := 0, ageBase := p.aged }
    let t := k.set (a / 4)
    (k.setSet (a / 4) { t with tasks := t.tasks.filter fun x => !(x.array = a && (x.level = 3 || x.level = 5)) }).addTask a 6

/-- One refresh slice: the rows of the group from where the last slice stopped (R109).  A column found worn is taken at its snapped levels,
read for it in the rows that the pass has not reached (R122). -/
def refreshSlice (s : State) (c a : Nat) : State :=
  let (base, s) := s.draw (2 ^ 22)
  let x := (s.core c).arr a
  let first := max (64 * x.group) x.nextRow
  let rows := (List.range 64).filterMap fun i => if first ≤ 64 * x.group + i then some (64 * x.group + i) else none
  let z : Refresh := { time := 20 * rows.length, arr := if x.group = 0 ∧ x.nextRow = 0 then { x with snaps := [] } else x,
                       cols := [], worn := [], pulses := 0, stop := none }
  let z := rows.foldl (fun z r => z.row base r) z
  let y := z.cols.foldl (fun y j => { y with colEvents := Tbl.set y.colEvents j (Tbl.get y.colEvents 0 j + 1) }) { z.arr with pulses := x.pulses + z.pulses }
  let y := match z.stop with
    | some r => { y with nextRow := r }
    | none => { y with nextRow := 0, group := y.group + 1 }
  let s := s.updCore c fun k => (k.setArr a y).count 1 6 (x.overReads false base rows)
  let s := if y.group < 8 then s else refreshDone s c a
  let worn := z.worn ++ (z.cols.filter fun j => y.events j = 10 ^ 6 && !z.worn.contains j)
  let reached := match z.stop with | some r => r | none => 64 * y.group
  let lv (j : Nat) : List Nat := (List.range 512).map fun i =>
    if i < reached then Tbl.get y.snaps (y.level i j) (512 * i + j) else x.snap false (base + 2 ^ 21) i j
  worn.foldl (fun s j => wornColumn s c a j lv) s

/-! ## Spares and repair (R123, R385) -/

/-- Rows that one repair slice writes, from a row on, within 8 µs of pulse rounds: the rows written, the rounds used, and the columns with a
cell that fails its verify after eight rounds (R122). -/
def repairRows (base : Nat) : Nat → Nat → Nat → Nat × Nat × List Nat
  | 0, _, used => (0, used, [])
  | f + 1, r, used =>
    let n := max 1 (min 8 (Config.rounds (base + r)))
    if 512 ≤ r ∨ 66 < used + n then (0, used, [])
    else
      let (k, u, l) := repairRows base f (r + 1) (used + n)
      (k + 1, u, if n = 8 then Config.failedCells (base + r) ++ l else l)

/-- The columns whose spares a task programs together: behind a substitution for an unforced task, without one for a repair; none when
nothing waits. -/
def spareFor (x : Arr) (level : Nat) : List Nat :=
  match x.worn.find? fun e => if level = 0 then (Tbl.find x.subst e.1).isNone else (Tbl.find x.subst e.1).isSome with
  | none => []
  | some e => x.wearUnit e.1

/-- A repaired array is calibrated (R107), and its digest checked again: it returns to service, or is read once more from the source.  The
repair is a full write, so columns may be worn by it (R121, R122).  DESIGN CHOICE: the alarm count starts again with it, as after a
refresh pass, which is the one event that R103 names. -/
def repairDone (s : State) (c a : Nat) : State :=
  let (base, s) := s.draw (2 ^ 21)
  let x := (s.core c).arr a
  let b := x.repair
  let y := { x.ofRecord x.repair (x.tile.getD (0, 0, 0)) with
    fullWrites := x.fullWrites + 1, repair := [], fixRow := 0, fixFailed := [], snaps := [], group := 0, calGroup := 0
    ageBase := (s.preg (powerOf c)).aged, alarms := 0 }
  let s := s.updCore c fun k => k.setArr a y
  let (whole, s) := (calPass s c a).readRecord c a base
  let good : Bool := sha256 whole = y.digest
  let lv (j : Nat) : List Nat := (List.range 512).map fun i => recLevel b i j
  let s := ((x.fixFailed.filter fun j => j < 512) ++ wornByCount y 1).foldl (fun s j => wornColumn s c a j lv) s
  let z := (s.core c).arr a
  let waits := z.worn.any fun e => (Tbl.find z.subst e.1).isNone
  let s := if good ∧ z.state = 4 then s.updCore c fun k => k.setArr a { z with state := if waits then 4 else 0, retries := 0 } else s
  if z.state ≠ 4 then s
  else if !good then
    (match ownerOf s c with
     | some n => if 4 ≤ z.retries then stopImage s n c a else s.updCore c fun k => k.setArr a { z with retries := z.retries + 1 }
     | none => s)
  else
    let s := odPending { s with upkeep := { s.upkeep with mismatches := s.upkeep.mismatches + 1 } } 0x6480 5
    let s := s.precisionEvent ((y.tile.map (·.1)).getD 0) c a
    match ownerOf s c with | some n => reportBound s n | none => s

/-- Tasks of an array whose repairs are done go; a held array with nothing left to repair returns to service. -/
def settleTask (s : State) (c a level : Nat) : State :=
  s.updCore c fun k =>
    let x := k.arr a
    let more : Bool := (level = 0 && !x.repair.isEmpty) || !(spareFor x level).isEmpty
    let k := if more then k else
      let t := k.set (a / 4)
      k.setSet (a / 4) { t with tasks := t.tasks.filter fun y => !(y.array = a && y.level = level) }
    let held := x.worn.any fun e => (Tbl.find x.subst e.1).isNone
    if level = 0 ∧ x.state = 4 ∧ x.retries = 0 ∧ !held then k.setArr a { k.arr a with state := 0 } else k

/-- One slice of a repair (level 0) or of a spare behind a substitution (level 7).  DESIGN CHOICE: the cells of a spare column verify. -/
def fixSlice (s : State) (c a level : Nat) : State :=
  let (base, s) := s.draw 512
  let x := (s.core c).arr a
  let (k, used, failed) := repairRows base 512 x.fixRow 0
  let y := { x with fixRow := x.fixRow + k, pulses := x.pulses + used, fixFailed := if x.repair.isEmpty then [] else x.fixFailed ++ failed }
  let s := s.updCore c fun q => q.setArr a y
  let s := if y.fixRow < 512 then s
    else if level = 0 ∧ !y.repair.isEmpty then repairDone s c a
    else s.updCore c fun q => q.setArr a { (spareFor y level).foldl Arr.useSpare y with fixRow := 0 }
  settleTask s c a level

/-- A queued evaluation at the end of a slice of its set: its wait for it, and since when it goes on waiting for an array held for repair.
One that names a held array waits from its issue on; another one waits while a forced slice runs (R118, R123, R403). -/
def sliceWait (before after : Core) (x : Slice) (now : Nat) (q : QOp) : Nat × Option Nat :=
  let from_ := if before.namesHeld q then q.held.getD q.since else if x.forced then max x.since q.since else now
  (now - from_, if after.namesHeld q then some now else none)

/-- Record the waits of a set's queued evaluations at the end of a slice (R357). -/
def bearSlice (s : State) (c set : Nat) (before : Core) (x : Slice) : State :=
  let k := s.core c
  let named (q : QOp) : Bool := (k.queuedEvals set).any fun e => e.1 = q.num
  let s' := (k.seq.queued.filter named).foldl (fun s q => bearWait s c q.req q.stepSeq (sliceWait before k x s.now q).1 fun y w =>
    { y with upkeepNs := y.upkeepNs + w }) s
  s'.updCore c fun k' => { k' with seq := { k'.seq with
    queued := k'.seq.queued.map fun q => if named q then { q with held := (sliceWait before k x s.now q).2 } else q } }

/-- The work that a slice has done by its end. -/
def sliceWork (s : State) (core set : Nat) (t : Task) : State :=
  match t.level with
  | 0 => fixSlice s core t.array 0
  | 1 => sentinelSlice s core set
  | 3 => refreshSlice s core t.array
  | 5 => refreshSlice s core t.array
  | 7 => fixSlice s core t.array 7
  | _ => calSlice s core t.array

/-- UPKEEP_SLICE_END: the slice's work is done and the set is idle; evaluations queued by then have met it, and their waits are recorded
(R116, R117, R357).  A slice that pulses and has lost VDD_AUX ends without its work, which its task then does again (R488). -/
def execUpkeepSliceEnd (core set : Nat) (s : State) : Res :=
  let k := s.core core
  match (k.set set).slice with
  | none => .next s
  | some x =>
    let t := k.set set
    let s := s.setCore core (k.setSet set { t with
      slice := none, use := if t.use = 5 then 0 else t.use, fixAfter := k.seq.opNum })
    let st := (k.arr x.task.array).state
    if st = 1 ∨ st = 2 ∨ st = 3 ∨ st = 5 ∨ (x.task.pulses ∧ s.power.auxLost.isSome) then .next (upkeepReturn (bearSlice s core set k x) (powerOf core))
    else
      let s := upkeepReturn (bearSlice (sliceWork s core set x.task) core set k x) (powerOf core)
      .next (match ownerOf s core with | some n => advance s n | none => s)

/-! ## Warnings (R125, R126) -/

/-- A write to 0x5060:03: ones clear bits. -/
def clearWarningsOp (s : State) (mask : W32) : OdEff :=
  (odBump { s with upkeep := { s.upkeep with warnings := s.upkeep.warnings &&& ~~~mask } } 0x5060 3, 0)
def execClearWarnings (_w : Writer) (mask : W32) (s : State) : Res := applied s 0x5060 (clearWarningsOp s mask)

end Sys2Proof.Machine
end

