-- ==== Sys2Proof/Machine/Start.lean ====
section
/-!
DEFINITION. Starts: the steps of R534, firmware banks (R541 to R546), the root key and the derived keys (R549 to R551), failed starts,
recovery, the management controller's supervision and restarts (R531 to R540, R547).
-/
namespace Sys2Proof.Machine

/-! ## Firmware banks (R542 to R545) -/

def fwSecurity (b : Bytes) : Nat := fieldAt b 4 4
def fwCode (b : Bytes) : Nat := fieldAt b 12 4
def fwKey (b : Bytes) : Bytes := slice b 20 60
/-- The image that a bank holds, signature included. -/
def fwImage (b : Bytes) : Bytes := b.take (128 + fwCode b + 5396)

/-- A bank verifies but for its SecurityVersion: its layout, its vendor key and its signature. -/
def fwSigned (b : Bytes) : Bool :=
  1 ≤ fwCode b && fwCode b ≤ 4183040 && 128 + fwCode b + 5396 ≤ b.length &&
  sha256 (fwKey b) = Config.vendorKeyHash &&
  hssOk .vendor (fwKey b) (b.take (128 + fwCode b)) (slice b (128 + fwCode b) 5396)

def fwVerifies (b : Bytes) (minSec : Nat) : Bool := fwSigned b && minSec ≤ fwSecurity b
def State.bank (s : State) (i : Nat) : Bytes := if i = 0 then s.boot.banks[0] else s.boot.banks[1]

/-- Run a bank: it is the active one (R543, R544), as the boot record says where it has changed (R541). -/
def runBank (s : State) (i : Nat) (prev : Option Nat) : State :=
  let b := s.bank i
  let d := sha256 (fwImage b)
  let t : State := { s with boot := { s.boot with
    activeBank := i, prevBank := prev, digest := d, keptDigest := d, fwVersion := fieldAt b 8 4
    written := s.boot.written && i = s.boot.activeBank } }
  if bootBytes t.boot = bootBytes s.boot then t else saveBoot t

/-- R543: the pending bank once, then the active one, then the other; none when no bank verifies. -/
def selectBank (s : State) : State × Bool :=
  let act := s.boot.activeBank
  let ok (i : Nat) : Bool := fwVerifies (s.bank i) s.boot.minSec
  match s.boot.pendBank with
  | some p =>
    let s := saveBoot { s with boot := { s.boot with pendBank := none } }
    if ok p then (runBank s p (if p = act then none else some act), true)
    else if ok act then (runBank s act none, true)
    else if ok (1 - act) then (runBank s (1 - act) none, true)
    else (s, false)
  | none =>
    if ok act then (runBank s act none, true)
    else if ok (1 - act) then (runBank s (1 - act) none, true)
    else (s, false)

/-- Step 3 of a warm start (R544): a bank whose hash is the retained one runs without its signature being checked. -/
def selectWarm (s : State) : State × Bool :=
  if s.boot.pendBank.isNone ∧ sha256 (fwImage (s.bank s.boot.activeBank)) = s.boot.keptDigest then
    (runBank s s.boot.activeBank none, true)
  else selectBank s

/-! ## The boot record (R539, R541) -/

/-- The highest SecurityVersion of any bank that verifies. -/
def topSecurity (s : State) : Nat := ((List.range 2).map fun i => if fwSigned (s.bank i) then fwSecurity (s.bank i) else 0).foldl max 0

/-- Block 0 is read, or made anew when neither copy is sound, and the attempt is counted and written. -/
def readBootRecord (s : State) : State :=
  let b := match (s.storeBlk 0).load 0 0 with
    | some c => s.boot.fromRecord c.data.bytes
    | none => { s.boot with activeBank := 0, pendBank := none, lastFail := 0, digest := slice [] 0 32, minSec := topSecurity s }
  saveBoot { s with boot := { b with attempts := (b.attempts + 1) % 256 } }

/-- The start fails at a step: a cold start with VDD_AON kept (R532, R538); a pending bank has had its attempt. -/
def startFails (s : State) (step : Nat) : State :=
  let s := clearCold s
  saveBoot { s with boot := { s.boot with
    phase := .trigger 1, trigAt := s.now, lastFail := step
    activeBank := s.boot.prevBank.getD s.boot.activeBank, prevBank := none } }

/-- The leaf index that a sound copy of block 1 holds.  DESIGN CHOICE: it lies in the first four bytes of Data. -/
def copyLeaf (s : State) (c : StoreCopy) : Option Nat := if c.sound 1 s.layout then some (fieldAt c.data.bytes 0 4) else none

/-- Block 1 is loaded: q is the larger value of the sound copies; with none, signing is disabled (R557). -/
def loadLeaf (s : State) : State :=
  let x := s.storeBlk 1
  match copyLeaf s x.a, copyLeaf s x.b with
  | none, none => { s with boot := { s.boot with leafSound := false, attState := 2 } }
  | a, b => { s with boot := { s.boot with leaf := max (a.getD 0) (b.getD 0) } }

/-! ## Identity (R549 to R551) -/

/-- The root key that a PUF readout gives, if KeyCheck accepts it. -/
def rootKey (s : State) (puf : Bytes) : Option Bytes :=
  let id := s.factory.identity
  let root := Config.pufRoot puf (slice id 448 2048)
  if sha256 (ascii "chk" ++ root) = slice id 312 32 then some root else none

/-- The identity record's signature and digests agree with the running bank's key and the derived keys. -/
def identityOk (s : State) : Bool :=
  let id := s.factory.identity
  hssOk .vendor (fwKey (s.bank s.boot.activeBank)) (slice id 0 2496) (slice id 2496 5396) &&
  sha256 (slice (Config.kemPublic (kemSeed s)) 0 1568) = slice id 344 32 &&
  slice (Config.hssPublic (keyPart s 0 32) (keyPart s 32 16)) 0 60 = slice id 376 60

/-! ## Steps 6 to 9 -/

/-- Raise an enable of the engine-wide rails: 1 EN_ARRAY, 2 EN_AUX, 3 EN_OPT; its power-good line follows. -/
def raise (s : State) (i : Nat) (pg : Bool) : State :=
  let s := s.emit (.pin i 0 true)
  { s with power := match i with
    | 1 => { s.power with enArray := true, pgArray := pg }
    | 2 => { s.power with enAux := true, pgAux := pg }
    | _ => { s.power with enOpt := true, pgOpt := pg } }

/-- Power regions whose wake or retry is in progress. -/
def wakesNow (s : State) : Nat := ((List.range 240).filter fun g => (s.preg g).wake.isSome || (s.preg g).retryAt.isSome).length

/-- Wake the next regions of step 7, at most 8 at once, each under R499; a cold start retries a LOST one (R505). -/
def wakeNext : Nat → State → State
  | 0, s => s
  | n + 1, s =>
    match s.power.wakeQ with
    | [] => s
    | g :: t =>
      if 8 ≤ wakesNow s then s
      else
        let s := { s with power := { s.power with wakeQ := t } }
        wakeNext n (if (s.preg g).state = .lost then beginRetry s g else wakeRegion s g false)

/-- Step 8: modules that train are up, and in a warm start those that were; the others go on training. -/
def trainModules (s : State) (ups : List LinkUp) (warm : Bool) : State :=
  let s := (List.range 4).foldl (fun s i =>
    let t := s.site i
    let off (j : Nat) : Mod :=
      if (ups.any fun u => u.site = i ∧ u.module = j) ∨ (warm ∧ (t.mod j).up) then t.mod j else { t.mod j with up := false, training := t.populated, downAt := s.now }
    s.setSite i { (t.setMod 0 (off 0)).setMod 1 (off 1) with lost := t.lost && !(ups.any fun u => u.site = i) }) s
  ups.foldl (fun s u =>
    if 4 ≤ u.site ∨ 2 ≤ u.module ∨ !(s.site u.site).populated ∨ !(u.rate = 8 ∨ u.rate = 16 ∨ u.rate = 32) ∨ !(u.width = 8 ∨ u.width = 16)
    then s else modUp s u.site u.module u.rate u.width u.posted u.read) s

/-- Step 9: ports that train. -/
def trainPorts (s : State) (ps : List Nat) : State :=
  ps.foldl (fun s p =>
    if s.factory.ports.contains p ∧ (s.port p).state ≤ 1 ∧ s.setting (0x7100 + p) 3 1 = 1 ∧ s.power.pgAux ∧ s.power.pgOpt
    then trainPort s p else s) s

def setPhase (s : State) (p : Phase) : State := { s with boot := { s.boot with phase := p } }

/-! ## The starts -/

/-- Step 7 goes on; when every wake has ended, steps 8 and 9 follow. -/
def wakesGoOn (s : State) : State :=
  match s.boot.inputs with
  | none => s
  | some i =>
    let s := wakeNext 240 s
    if s.power.wakeQ.isEmpty ∧ wakesNow s = 0 then
      let warm : Bool := match s.boot.phase with | .starting 2 => true | _ => false
      trainPorts (trainModules { s with boot := { s.boot with inputs := none } } i.modulesUp warm) i.portsUp
    else s

/-- Step 7 begins: in a warm start every region that is not LOST goes to DARK, and a LOST one stays so. -/
def wakeAll (s : State) (kind : Nat) (i : StartInputs) : State :=
  let s := if kind = 2 then allDark { s with power := { s.power with regions := Tbl.map (fun _ p => { p with retryAt := none }) s.power.regions } } else s
  let q := (List.range 240).filter fun g => kind = 1 || (s.preg g).state ≠ .lost
  wakesGoOn { s with power := { s.power with wakeQ := q }, boot := { s.boot with inputs := some i, phase := .starting kind } }

/-- Load the store, with how many saves the boot ROM has made, and change the setpoints of the regions as the loaded settings say (R486). -/
def loadSettings (s : State) (cold : Bool) (rom : Nat) : State :=
  let t := loadStore s cold rom
  (List.range 240).foldl (fun u g =>
    let v := t.setting (0x3100 + g) 2 650
    if s.setting (0x3100 + g) 2 650 = v then u else setpointOp u g v) t

/-- Steps 4 to 7 of a cold start. -/
def coldFrom4 (s : State) (i : StartInputs) (rom : Nat) : State :=
  match rootKey s i.puf with
  | none => startFails s 4
  | some root =>
    let s := { s with boot := { s.boot with keys := some (deriveKeys root) } }
    if !identityOk s then startFails s 4
    else
      let s := raise (loadLeaf (loadSettings s true rom)) 2 i.pgAux
      if !i.pgAux then startFails s 6
      else
        let s := raise s 3 i.pgOpt
        if !i.pgOpt then startFails s 6 else wakeAll s 1 i

/-- The tray bus starts: ENTDAA gives the hub its dynamic address 0x30, and DISEC disables in-band interrupts and hot-join (R509). -/
def startTray (s : State) : State := (s.emit (.entdaa 0x30)).emit (.disec 0x30 0x09)

/-- COLD_START: VDD_AON has risen or a cold start was triggered; the steps up to 7 run, as far as they go; the end of the last wake brings
those after it (R534). -/
def execColdStart (i : StartInputs) (s : State) : Res :=
  if s.boot.phase = .off ∨ s.boot.phase = .trigger 1 then
    let s := clearCold s
    let s := { s with boot := { s.boot with trigAt := if s.boot.phase = .off then s.now else s.boot.trigAt } }
    let s := raise (startTray s) 1 i.pgArray
    if !i.pgArray then .next (startFails s 2)
    else
      let saves := s.od.saves
      let s := readBootRecord s
      if 4 ≤ s.boot.attempts then .next (setPhase s (.trigger 3))
      else
        let (s, ok) := selectBank s
        if !ok then .next (setPhase s (.trigger 3)) else .next (coldFrom4 s i (s.od.saves - saves))
  else .next s

/-- Reads under way when a warm start begins deliver nothing: commands are read again, and cores have forgotten their requests. -/
def forgetReads (s : State) : State :=
  { s with host := { s.host with
    reads := Tbl.map (fun _ r => { r with use := .spare }) s.host.reads
    sqs := Tbl.map (fun _ q => { q with reading := 0 }) s.host.sqs } }

/-- WARM_START: the reduced steps; regions go through DARK, a LOST one stays LOST. -/
def execWarmStart (i : StartInputs) (s : State) : Res :=
  if s.boot.phase = .trigger 2 then
    let s := clearBoth s false
    let s := { s with
      serving := { Serving.reset with
        adapters := s.serving.adapters, nextAdm := s.serving.nextAdm, hits := s.serving.hits, misses := s.serving.misses }
      mgmt := { Mgmt.reset with ctrs := s.mgmt.ctrs, segRes := s.mgmt.segRes, totalAt := s.now } }
    let saves := s.od.saves
    let s := readBootRecord (forgetReads s)
    if 4 ≤ s.boot.attempts then .next (setPhase s (.trigger 3))
    else
      let (s, ok) := selectWarm s
      if !ok then .next (setPhase s (.trigger 3))
      else .next (wakeAll (loadLeaf (loadSettings s false (s.od.saves - saves))) 2 i)
  else .next s

/-- RECOVERY_START: block 0 and whether custody is on, EN_AUX alone, every region DARK, the sites trained (R534, R540).  DESIGN CHOICE: whether
custody is on the boot ROM reads from the store whatever the Layout of its copies. -/
def execRecoveryStart (i : StartInputs) (s : State) : Res :=
  if s.boot.phase = .trigger 3 then
    let s := clearCold (allDark s)
    let s := { s with
      od := { s.od with vals := (storedVals s 65535).filter fun e => e.1 = odKey 0x2020 1, pending := [] }
      regions := Tbl.map (fun _ r => r.fromRecord none true) s.regions }
    let s := if s.power.enArray then s else raise s 1 i.pgArray
    if !s.power.pgArray then .next (startFails s 2) else
    let s := raise s 2 i.pgAux
    if !i.pgAux then .next (startFails s 6)
    else .next (setPhase (trainModules { s with boot := { s.boot with lastKind := 3, fwVersion := 0 } } i.modulesUp false) .recovery)
  else .next s

/-! ## Completion -/

/-- A start's calibration does not reach a core that is fenced or whose power region is LOST. -/
def calBarred (s : State) (c : Nat) : Bool := (s.core c).fence.isSome || (s.preg (powerOf c)).state = .lost

/-- What a core keeps of calibration work when a cold start's passes have completed: none is left, and all its trims are those passes'. -/
def Core.coldCal (k : Core) : Core :=
  { k with
    arrays := Tbl.map (fun _ a => { a with calGroup := 0 }) k.arrays
    sets := Tbl.map (fun _ t => { t with trims := [], tasks := t.tasks.filter fun x => !(x.level = 2 || x.level = 4 || x.level = 6) }) k.sets }

/-- Step 10 of a cold start: every DAC table is characterised and every array passes, on every core that the start reaches (R107).  The passes
write every trim after the characterisation, so they alone are kept. -/
def coldCalibrate (s : State) : State :=
  let missed := (s.cores.map (·.1)).filter (calBarred s)
  let kept := missed.map fun c => (c, coldPass s c)
  let (base, s) := s.draw (20 * 1040 * 8 * 19200)
  let s := (List.range 240).foldl (fun s g => s.updPreg g fun p => { p with calHot := p.hot, calDue := false }) s
  { s with
    cores := Tbl.map (fun c k => if missed.contains c then k else k.coldCal) s.cores
    upkeep := { s.upkeep with calAt := some s.now, trimBase := base, calMiss := kept } }

/-- Step 10 of a warm start: a slice on one array of each set, and where its fit differs from the retained trims, a pass on all four (R107). -/
def warmCalibrate (s : State) : State :=
  let (base, s) := s.draw (8 * 19200)
  (List.range 19200).foldl (fun s c =>
    if calBarred s c then s
    else (List.range 8).foldl (fun s t =>
      if Config.spotDiffers (base + 8 * c + t) then (List.range 4).foldl (fun s i => calPass s c (4 * t + i)) s else s) s) s

/-- What a warm start owes of the commands that it ended (R427). -/
def writeLate (s : State) : State :=
  let s := s.host.late.foldl (fun s h => s.finish h 5 0xFFFD 0 0) s
  { s with host := { s.host with late := [] } }

/-- The calibrations of a start of a kind have ended, and it is complete: what a warm one owes goes out, and event 14 (R537, R545). -/
def started (s : State) (kind : Nat) : State :=
  let s := if kind = 1 then coldCalibrate s else warmCalibrate s
  let b := s.bank s.boot.activeBank
  let s := saveBoot { s with boot := { s.boot with
    phase := .complete, attempts := 0, lastKind := kind, prevBank := none
    minSec := if bitAt (fieldAt b 16 4) 0 then max s.boot.minSec (fwSecurity b) else s.boot.minSec } }
  if kind = 2 then (writeLate s).postEvent 14 0 2 s.host.lateN else s

/-- START_COMPLETE: the wakes of step 7, calibration and link training have ended; regions go on, and commands are read (R537, R545). -/
def execStartComplete (s : State) : Res :=
  match s.boot.phase with
  | .starting kind =>
    if s.boot.inputs.isSome then .next s else
    let s := started s kind
    .next (readCommands ((s.regions.map (·.1)).foldl advance s))
  | _ => .next s

/-- START_FAILED: a step has failed, or StartLimit has passed since the trigger. -/
def execStartFailed (step : Nat) (s : State) : Res :=
  let under : Bool := match s.boot.phase with | .trigger _ => true | .starting _ => true | _ => false
  if under ∧ 1 ≤ step ∧ step ≤ 11 ∧ s.passed s.boot.trigAt 120000000000 then .next (startFails s step) else .next s

/-! ## Supervision (R533, R547) -/

/-- MANAGEMENT_WATCHDOG: a warm start begins; during a start, the start fails. -/
def execManagementWatchdog (s : State) : Res :=
  match s.boot.phase with
  | .complete =>
    let s := suddenWarm s
    .next (saveBoot { s with boot := { s.boot with lastFail := 0xFF } })
  | .trigger _ => .next (startFails s 0xFF)
  | .starting _ => .next (startFails s 0xFF)
  | .down => .next (saveBoot { s with boot := { s.boot with lastFail := 0xFF } })
  | _ => .next s

/-- MANAGEMENT_MEMORY_ERROR: a warm start begins, also over a start whose firmware runs. -/
def execManagementMemoryError (s : State) : Res :=
  match s.boot.phase with
  | .complete => .next (suddenWarm s)
  | .starting _ => .next (trigger s 2 s.handlesOut)
  | _ => .next s

/-! ## Restarts and firmware by command (R533, R540, R546) -/

/-- RESTART: its COMPLETE goes out before the start begins; a kind that is none is denied. -/
def restartCmd (s : State) (h kind : Nat) : State :=
  s.onCmd h 0x59 fun o =>
    let k := fieldAt o.cmd 16 1
    if k = kind then
      let rec_ : Bool := s.boot.phase = .recovery
      let s := orderedStart (s.finish h 0 0 0 0) (if kind = 2 then 1 else 2)
      if rec_ ∧ kind = 2 then saveBoot { s with boot := { s.boot with attempts := 0 } } else s
    else if k = 1 ∨ k = 2 then s
    else s.finish h 5 0 0 0

def execRestartWarm (h : Nat) (s : State) : Res := .next (restartCmd s h 1)
def execRestartCold (h : Nat) (s : State) : Res := .next (restartCmd s h 2)

/-- Verify an image and write it to the bank that is not active; the answer's detail is 0 when it is written (R546). -/
def writeBank (s : State) (b : Bytes) : State × Nat :=
  if !fwSigned b then (s, 1)
  else if fwSecurity b < s.boot.minSec then (s, 2)
  else
    let v := if s.boot.activeBank = 0 then s.boot.banks.set 1 b else s.boot.banks.set 0 b
    ({ s with boot := { s.boot with banks := v, written := true } }, 0)

/-- FW_WRITE. -/
def execFwWrite (h : Nat) (image : Option Bytes) (s : State) : Res :=
  .next (s.onCmd h 0x54 fun o =>
    let n := fieldAt o.cmd 32 4
    if n = 0 ∨ 4194304 < n then s.finish h 5 3 0 0
    else let asked := s.operand o (fieldAt o.cmd 24 8) n image; let s := asked.1; match asked.2 with
      | none => s.finish h 5 0 0 0
      | some b =>
        if b.length ≠ n then s
        else
          let (s, d) := writeBank s b
          s.finish h (if d = 0 then 0 else 5) d 0 0)

/-- FW_ACTIVATE: as a RESTART of kind 1, with the written bank pending. -/
def execFwActivate (h : Nat) (s : State) : Res :=
  .next (s.onCmd h 0x55 fun _ =>
    if !s.boot.written then s.finish h 5 0 0 0
    else
      let s := s.finish h 0 0 0 0
      orderedStart (saveBoot { s with boot := { s.boot with pendBank := some (1 - s.boot.activeBank) } }) 2)

/-- NOP. -/
def execNop (h : Nat) (s : State) : Res := .next (s.onCmd h 0x7F fun _ => s.finish h 0 0 0 0)

end Sys2Proof.Machine
end

