-- ==== Sys2Proof/Machine/Custody.lean ====
section
/-!
DEFINITION. Attestation (R555 to R557), the custody switch, custody sessions and model keys (R558 to R565).
-/
namespace Sys2Proof.Machine

/-! ## Attestation -/

/-- The bound regions with their images. -/
def boundImages (s : State) : List (Nat × Region × BoundImage) :=
  s.regions.filterMap fun e => match e.2.img with | some b => if b.bound then some (e.1, e.2, b) else none | none => none

/-- The part of a report that the device key signs. -/
def attestBody (s : State) (nonce : Bytes) (leaf : Nat) : Bytes :=
  let rs := boundImages s
  leBytes 4 0x41545354 ++ leBytes 2 1 ++ leBytes 2 (boolBit (custodyOn s) 0 + boolBit (s.setting 0x2010 1 1 = 1) 1) ++
    slice nonce 0 32 ++ leBytes 8 s.almanac.toNat ++ leBytes 4 leaf ++ leBytes 4 s.boot.fwVersion ++ slice s.boot.digest 0 32 ++
    sha256 (slice s.factory.identity 0 7892) ++ slice (Config.kemPublic (kemSeed s)) 0 1568 ++
    slice (Config.hssPublic (keyPart s 0 32) (keyPart s 32 16)) 0 60 ++ leBytes 4 rs.length ++
    rs.flatMap fun e => leBytes 1 e.1 ++ leBytes 1 e.2.1.state ++ leBytes 6 0 ++
      leBytes 8 (if e.2.2.active then e.2.2.version else 0) ++ slice e.2.2.img.manDigest 0 32

/-- Bytes of a report. -/
def attestLength (s : State) : Nat := 1752 + 48 * (boundImages s).length + 5396

/-- The refusal of an ATTEST as things stand: status and detail. -/
def attestRefusal (s : State) (o : HOut) : Option (Nat × Nat) :=
  if !s.boot.leafSound then some (5, 2)
  else if 2 ^ 30 ≤ s.boot.leaf then some (4, 0)
  else if fieldAt o.cmd 40 4 < attestLength s then some (5, 1)
  else none

/-- The next signing starts once its leaf is saved as used; a save that fails refuses the ATTEST (R556). -/
def signGo : Nat → State → State
  | 0, s => s
  | n + 1, s =>
    if s.boot.signing.isSome ∨ !s.boot.treeOk then s
    else match s.boot.attests with
      | [] => s
      | (h, nonce) :: rest =>
        let s := { s with boot := { s.boot with attests := rest } }
        match s.cmd? h with
        | none => signGo n s
        | some o =>
          match attestRefusal s o with
          | some (st, det) => signGo n (s.finish h st det 0 0)
          | none =>
            let (k, s) := s.draw 2
            let q := s.boot.leaf
            let a := Config.copyOk k
            let b := Config.copyOk (k + 1)
            let s := writeBlock { s with boot := { s.boot with leaf := if a then q + 1 else q } } 1 s.layout (.raw (leBytes 4 (q + 1))) a b
            if !(a && b) then signGo n (s.finish h 5 2 0 0)
            else
              let body := attestBody s nonce q
              let s := s.keep h fun x => { x with since := s.now }
              { s with boot := { s.boot with signing := some (h, body) } }

def startSigning (s : State) : State := signGo (s.boot.attests.length + 1) s

/-- ATTEST: it waits for its signature, in acceptance order. -/
def execAttest (h : Nat) (nonce : Option Bytes) (s : State) : Res :=
  .next (s.onCmd h 0x50 fun o =>
    let (s, nonce) := s.operand o (fieldAt o.cmd 24 8) 32 nonce
    match nonce with
    | none => s.finish h 5 0 0 0
    | some b =>
      match attestRefusal s o with
      | some (st, det) => s.finish h st det 0 0
      | none =>
        let s := s.keep h fun x => { x with running := true, since := s.now }
        startSigning { s with boot := { s.boot with attests := s.boot.attests ++ [(h, b)] } })

/-- The leaf index that a report's body carries. -/
def bodyLeaf (body : Bytes) : Nat := fieldAt body 48 4

/-- ATTEST_SIGNED: the report goes to the host, the handle completes, and the next signing starts; the last leaf of a lower tree makes
the next tree's build begin. -/
def execAttestSigned (s : State) : Res :=
  match s.boot.signing with
  | none => .next s
  | some (h, body) =>
    let q := bodyLeaf body
    let report := body ++ slice (Config.hssSign (keyPart s 0 32) (keyPart s 32 16) q body) 0 5396
    let s := match s.cmd? h with
      | some o => (s.hostWrite (cmdSite s o) (fieldAt o.cmd 32 8) report).finish h 0 0 q report.length
      | none => s
    let usedUp := 2 ^ 30 ≤ s.boot.leaf
    let tree := s.boot.treeOk && (q + 1) % 2 ^ 20 ≠ 0
    .next (startSigning { s with boot := { s.boot with
      signing := none, treeOk := tree || usedUp, attState := if usedUp then 3 else if tree then 0 else 1 } })

/-- LOWER_TREE_BUILT: waiting ATTESTs are signed. -/
def execLowerTreeBuilt (s : State) : Res :=
  if s.boot.phase ≠ .complete ∨ s.boot.treeOk then .next s
  else
    let st := if !s.boot.leafSound then 2 else if 2 ^ 30 ≤ s.boot.leaf then 3 else 0
    .next (startSigning { s with boot := { s.boot with treeOk := true, attState := st } })

/-! ## The custody switch (R558) -/

/-- The 60-byte key of administrator slot k, if it holds one (R554). -/
def adminKey (s : State) (k : Nat) : Option Bytes :=
  match Tbl.find s.od.vals (odKey (0xA020 + k) 0) with | some b => if b.isEmpty then none else some b | none => none
def noAdminKey (s : State) : Bool := (List.range 8).all fun k => (adminKey s k).isNone

/-- Store a checked value of an RW entry. -/
def storeValue (s : State) (index sub : Nat) (v : Bytes) : State :=
  match odRow index sub with | some r => odStore s index sub r v | none => s

/-- A write to 0x2020:01. -/
def custodyOp (s : State) (v : Nat) : OdEff :=
  if 1 < v then (s, 4)
  else if !(boundRegions s).isEmpty ∨ !s.serving.ctxs.isEmpty ∨ !s.serving.jobs.isEmpty ∨ (v = 1 ∧ !custodyOn s ∧ noAdminKey s) then (s, 5)
  else (storeValue s 0x2020 1 (leBytes 1 v), 0)
/-- A writer may turn custody: anyone while it is off, and then an ADMIN session only (R558); what a queue writes has been let through at
acceptance with its command's session (R562). -/
def mayTurn (s : State) (w : Writer) : Bool :=
  !custodyOn s || w.kind = 0 || (w.kind = 2 && (match s.session? w.id with | some x => x.admin | none => false))
def execCustodyEnable (w : Writer) (value : Nat) (s : State) : Res :=
  if mayTurn s w then applied s 0x2020 (custodyOp s value) else .next s

/-! ## Sessions -/

/-- A session identifier that is not zero and not open. -/
def freshSession (s : State) (r : Nat) : Nat :=
  ((List.range 258).find? fun j => let v := (r + j) % 2 ^ 32; v ≠ 0 && (s.session? v).isNone).elim 1 fun j => (r + j) % 2 ^ 32

/-- Open a session from an open block: status, session and response (R559, R560). -/
def openSession (s : State) (b : Bytes) (source : Option Nat) : State × Nat × Nat × Bytes :=
  let role := fieldAt b 0 4
  let admin := role = 2
  let lengthOk := (role = 1 && b.length = 1592) || (role = 2 && b.length = 3208)
  let signed : Bool := !admin || (match adminKey s (fieldAt b 4 4) with
    | some k => fieldAt b 4 4 < 8 && hssOk .admin k (slice b 0 1592) (slice b 1592 1616)
    | none => false)
  if !lengthOk ∨ !signed then (s, 5, 0, [])
  else if 256 ≤ s.boot.sessions.length then (s, 4, 0, [])
  else
    let k := Config.kemDecaps (kemSeed s) (slice b 24 1568)
    let salt := slice b 8 16
    let (i, s) := s.draw 1
    let id := freshSession s (leNat ((Config.random i 4).take 4))
    let x : Session := { admin := admin, mac := hkdf salt k (ascii "mac") 32, dataKey := hkdf salt k (ascii "data") 32
                         kvKey := hkdf salt k (ascii "kv") 32, source := source, counter := 0, used := s.now, peer := 0, resp := [] }
    let rsp := leBytes 4 id ++ leBytes 4 role ++ hmac x.mac (ascii "confirm" ++ leBytes 4 id) ++ leBytes 24 0
    ({ s with boot := { s.boot with sessions := Tbl.set s.boot.sessions id x } }, 0, id, rsp)

/-- SESSION_OPEN. -/
def execSessionOpen (h : Nat) (block : Option Bytes) (s : State) : Res :=
  .next (s.onCmd h 0x56 fun o =>
    let n := fieldAt o.cmd 32 4
    let asked := s.operand o (fieldAt o.cmd 24 8) n block
    if n ≠ 1592 ∧ n ≠ 3208 then s.finish h 5 0 0 0
    else let s := asked.1; match asked.2 with
      | none => s.finish h 5 0 0 0
      | some b =>
        if b.length ≠ n then s
        else
          let (s, st, id, rsp) := openSession s b none
          if st ≠ 0 then s.finish h st 0 0 0
          else (s.hostWrite (cmdSite s o) (fieldAt o.cmd 40 8) rsp).finish h 0 0 0 id)

/-- Index entries of a session go; blocks that no context holds become FREE (R312, R563). -/
def dropSessionIndex (s : State) (id : Nat) : State :=
  let gone := s.serving.index.filter fun e => e.session = id
  let s := { s with serving := { s.serving with index := s.serving.index.filter fun e => e.session ≠ id } }
  gone.foldl (fun s e => s.updRegion e.region fun r =>
    let b := Tbl.get r.pool { state := .free, count := 0, hash := [] } e.block
    if b.state ≠ .published then r
    else { r with pool := if b.count = 0 then Tbl.del r.pool e.block else Tbl.set r.pool e.block { b with state := .closed } }) s

/-- A session ends: its live requests are cancelled, its index entries and its shadows go (R460, R563). -/
def endSession (s : State) (id : Nat) : State :=
  match s.session? id with
  | none => s
  | some _ =>
    let cs := (s.serving.ctxs.filter fun e => e.2.session = id && e.2.state ≠ .ended && e.2.tune.isNone).map (·.1)
    let s := dropSessionIndex (endReqs s cs 1 0) id
    let w : Writer := ⟨2, id⟩
    { s with
      boot := { s.boot with sessions := Tbl.del s.boot.sessions id }
      od := { s.od with shadows := s.od.shadows.filter fun x => x.writer ≠ w, select := s.od.select.filter fun e => e.1 ≠ w } }

/-- SESSION_CLOSE. -/
def execSessionClose (h : Nat) (s : State) : Res :=
  .next (s.onCmd h 0x57 fun o =>
    if (s.session? o.session).isNone then s.finish h 5 0 0 0 else (endSession s o.session).finish h 0 0 0 0)

/-- SESSION_IDLE. -/
def execSessionIdle (session : Nat) (s : State) : Res :=
  match s.session? session with
  | some x => if s.passed x.used (1000000000 * s.setting 0x2020 3 3600) then .next (endSession s session) else .next s
  | none => .next s

/-! ## Model keys (R564) -/

/-- The model key that a blob wraps. -/
def unwrapKey (s : State) (b : Bytes) : Option Bytes :=
  let k := hkdf [] (Config.kemDecaps (kemSeed s) (slice b 0 1568)) (ascii "model") 32
  Config.gcmOpen k (slice b 1584 12) (slice b 1568 9) (slice b 1596 48)

/-- KEYLOAD. -/
def execKeyload (h : Nat) (blob : Option Bytes) (s : State) : Res :=
  .next (s.onCmd h 0x58 fun o =>
    let n := fieldAt o.cmd 16 1
    let (s, blob) := s.operand o (fieldAt o.cmd 24 8) 1644 blob
    match blob with
    | none => s.finish h 5 0 0 0
    | some b =>
      if 64 ≤ n then s.finish h 5 0 0 0
      else if b.length ≠ 1644 then s
      else match unwrapKey s b with
        | none => s.finish h 5 0 0 0
        | some k =>
          (s.updRegion n fun r => { r with keyPend := some (fieldAt b 1568 8, fieldAt b 1576 1, k) }).finish h 0 0 0 0)

end Sys2Proof.Machine
end

