-- ==== Sys2Proof/Machine/Observe.lean ====
section
/-!
DEFINITION. Counters and their dumps, tensor watches, hangs and Vigil dumps, the Sillage stream's marks (R615 to R639).
-/
namespace Sys2Proof.Machine

/-! ## Clearing overflow bits (R619) -/

/-- A write to 0x8000:04. -/
def clearOverflowOp (s : State) (w : Writer) (v : Nat) : OdEff :=
  let blk := s.selection w (odKey 0x8000 2)
  if v ≠ 1 then (s, 4)
  else match counterUnit (s.selection w (odKey 0x8000 1)) blk with
    | none => (s, 4)
    | some (u, field) =>
      let keep (base : Nat) (l : List Nat) : List Nat := l.filter fun i => i / 8 ≠ base
      let s := if field then { s with power := { s.power with ovf := keep u s.power.ovf } }
        else if (s.core u).ovf.isEmpty then s
        else s.updCore u fun k => { k with ovf := keep blk k.ovf }
      (odBump s 0x8000 4, 0)
def execClearOverflow (w : Writer) (value : Nat) (s : State) : Res := applied s 0x8000 (clearOverflowOp s w value)

/-! ## The dump scope (R621) -/

def cornerOk (v : Nat) : Bool := v / 65536 < 128 && v % 65536 < 150
/-- The first check of the scope's commit that fails. -/
def scopeCheck (nw se blocks : Nat) : Nat :=
  if !cornerOk nw ∨ !cornerOk se ∨ se / 65536 < nw / 65536 ∨ se % 65536 < nw % 65536 then 1
  else if bits blocks 16 0 = 0 ∧ !bitAt blocks 31 then 2 else 0

/-- Commit the writer's candidate of the dump scope; without a shadow nothing changes (R452). -/
def scopeOp (s : State) (w : Writer) : OdEff :=
  match s.shadow? w 0x8010 with
  | none => (s, 0)
  | some _ =>
    let v (sub : Nat) : Nat := candidate s w 0x8010 sub
    let code := scopeCheck (v 1) (v 2) (v 3)
    let s := odBump { s with observe := { s.observe with scopeRes := code } } 0x8010 0x0E
    if code ≠ 0 then (s, 7)
    else (dropShadow (storeValue (storeValue (storeValue s 0x8010 1 (leBytes 4 (v 1))) 0x8010 2 (leBytes 4 (v 2))) 0x8010 3 (leBytes 4 (v 3)))
      w 0x8010, 0)
def execScopeCommit (w : Writer) (s : State) : Res := applied s 0x8010 (commitCounted (scopeOp s w) 0x8010)

/-! ## Snapshot dumps (R622 to R624) -/

/-- COUNTER_DUMP: a ring begins, changes or stops its dump. -/
def execCounterDump (h : Nat) (s : State) : Res :=
  .next (s.onCmd h 0x53 fun o =>
    let ring := fieldAt o.cmd 16 4
    let us := fieldAt o.cmd 20 4
    let isDump : Bool := match s.ring? ring with | some r => r.kind = 3 | none => false
    if !isDump ∨ (us ≠ 0 ∧ (us < 10 ∨ 10000000 < us)) then s.finish h 5 0 0 0
    else if us = 0 then { s with observe := { s.observe with dumps := Tbl.del s.observe.dumps ring } }.finish h 0 0 0 0
    else
      let old := Tbl.find s.observe.dumps ring
      if old.isNone ∧ 4 ≤ s.observe.dumps.length then s.finish h 4 0 0 0
      else
        let d : Dump :=
          { period := us, nw := s.setting 0x8010 1 0, se := s.setting 0x8010 2 0x7F0095, blocks := BitVec.ofNat 32 (s.setting 0x8010 3 0x1FFFF)
            number := 0, missed := match old with | some d => d.missed | none => 0, start := s.now, last := s.almanac.toNat }
        { s with observe := { s.observe with dumps := Tbl.set s.observe.dumps ring d } }.finish h 0 0 0 0)

/-- One block record. -/
def blockRecord (blk place ctrl status number : Nat) (ctrs : Tbl Nat) (base : Nat) : Bytes :=
  leBytes 1 2 ++ leBytes 1 blk ++ leBytes 2 place ++ leBytes 1 ctrl ++ leBytes 1 status ++ leBytes 2 0 ++
    ((List.range 8).flatMap fun i => leBytes 6 (Tbl.get ctrs 0 (base + i))) ++ leBytes 8 number

def ovfBits (ovf : List Nat) (base : Nat) : Nat := ((List.range 8).map fun i => boolBit (ovf.contains (base + i)) i).sum

/-- Cores in a scope that the factory has not excluded; fenced ones are marked in their records. -/
def scopeCores (s : State) (d : Dump) : List Nat :=
  (rectCores (BitVec.ofNat 32 d.nw) (BitVec.ofNat 32 d.se)).filter fun c => !s.factory.unusable.contains c

/-- The block records of a snapshot. -/
def snapshotRecords (s : State) (d : Dump) : List Bytes :=
  let cs := rectCores (BitVec.ofNat 32 d.nw) (BitVec.ofNat 32 d.se)
  let blks := (List.range 17).filter fun b => d.blocks.getLsbD b
  let ofCores := (scopeCores s d).flatMap fun c =>
    let k := s.core c
    let st := boolBit k.fence.isSome 0 + boolBit ((s.preg (powerOf c)).state = .dark) 1 + boolBit (d.start < k.clearedAt) 2
    blks.map fun b => blockRecord b (coreByteId c) (ovfBits k.ovf (8 * b)) st d.number k.ctrs (8 * b)
  let fields := if d.blocks.getLsbD 31 then (List.range 48).filter fun f => cs.any fun c => fieldOf c = f else []
  ofCores ++ fields.map fun f =>
    blockRecord 32 (0xFF00 + f) (ovfBits s.power.ovf (8 * f)) (boolBit (d.start < s.observe.clearedAt) 2) d.number s.power.ctrs (8 * f)

/-- SNAPSHOT: at a boundary of the ring's period the snapshot is written whole, or missed. -/
def execSnapshot (ring : Nat) (s : State) : Res :=
  match Tbl.find s.observe.dumps ring, s.ring? ring with
  | some d, some r =>
    let p := 1000 * d.period
    let b := s.almanac.toNat / p * p
    if d.period = 0 ∨ b ≤ d.last then .next s
    else
      let skipped := (b - d.last - 1) / p
      let recs := snapshotRecords s d
      if r.free < recs.length + 1 then
        .next { s with observe := { s.observe with dumps := Tbl.set s.observe.dumps ring { d with missed := d.missed + skipped + 1, last := b } } }
      else
        let head := leBytes 1 1 ++ leBytes 3 0 ++ leBytes 4 recs.length ++ leBytes 8 b ++ leBytes 8 d.number ++
          leBytes 4 (d.missed + skipped) ++ leBytes 4 d.period ++ leBytes 32 0
        let s := s.putRecords ring (head :: recs)
        .next { s with observe := { s.observe with dumps := Tbl.set s.observe.dumps ring { d with
          number := d.number + 1, missed := 0, start := s.now, last := b } } }
  | _, _ => .next s

/-! ## Tensor watches (R626 to R631) -/

/-- A write of 1 to 0x9100+w:0F; without a shadow nothing changes (R452). -/
def watchArmOp (s : State) (w : Writer) (n : Nat) : OdEff :=
  match s.shadow? w (0x9100 + n) with
  | none => (s, 0)
  | some _ =>
    let i := 0x9100 + n
    let v (sub : Nat) : Nat := candidate s w i sub
    let x : Watch :=
      { region := v 1, tensor := v 2, kind := v 3, ctx := v 4, skip := v 5, count := v 6, slot := v 7, offset := v 8, size := v 9
        state := 1, skipped := 0, written := 0, used := 0, result := 0 }
    let r := s.region x.region
    let bound : Bool := match r.img with | some b => b.bound | none => false
    let open_ : Bool := match Tbl.find r.windows x.slot with | some g => g.write | none => false
    let code :=
      if 64 ≤ x.region ∨ 2 ^ 20 ≤ x.tensor ∨ 16 ≤ x.slot ∨ x.offset % 64 ≠ 0 ∨ x.size % 64 ≠ 0 then 1
      else if !bound ∨ !open_ then 2
      else if custodyOn s then 3 else 0
    let s := odBump s i 0x0E
    if code ≠ 0 then
      (({ s with observe := { s.observe with
        watches := Tbl.set s.observe.watches n { Tbl.get s.observe.watches Watch.reset n with result := code } } } : State), 7)
    else
      let s := { s with
        observe := { s.observe with watches := Tbl.set s.observe.watches n x }
        cores := Tbl.map (fun _ k => { k with watchN := Tbl.del k.watchN n }) s.cores }
      (dropShadow ((List.range 9).foldl (fun s j => odBump s i (j + 1)) s) w i, 0)
def execWatchArm (w : Writer) (watch : Nat) (s : State) : Res := if watch < 64 then applied s 0x9100 (commitCounted (watchArmOp s w watch) (0x9100 + watch)) else .next s

/-- A write of 2 to 0x9100+w:0F. -/
def watchDisarmOp (s : State) (n : Nat) : OdEff :=
  (({ s with observe := { s.observe with
    watches := Tbl.set s.observe.watches n { Tbl.get s.observe.watches Watch.reset n with state := 0 } } } : State), 0)
def execWatchDisarm (_w : Writer) (watch : Nat) (s : State) : Res := if watch < 64 then applied s 0x9100 (commitCounted (watchDisarmOp s watch) (0x9100 + watch)) else .next s

/-- The header of a tensor dump (R629). -/
def dumpHeader (tensor : Nat) (q : DumpReq) (lines : Nat) : Bytes :=
  leBytes 4 tensor ++ leBytes 1 q.watch ++ leBytes 1 (bits q.walk.toNat 31 28) ++ leBytes 2 0 ++ leBytes 4 (coreId q.core) ++
    leBytes 4 q.req.toNat ++ leBytes 2 q.kind.toNat ++ leBytes 2 q.bundle ++ leBytes 4 lines ++ leBytes 8 q.time.toNat ++
    leBytes 16 q.walk.toNat ++ leBytes 16 0

/-- WATCH_DUMP: a dump is read, its hold ends, and it is written to the watch's buffer if there is room. -/
def execWatchDump (core op : Nat) (s : State) : Res :=
  match s.observe.dumpReqs.find? fun q => q.core = core && q.op = op with
  | none => .next s
  | some q =>
    let k := s.core core
    let w := Tbl.get s.observe.watches Watch.reset q.watch
    let lines := k.readWalk (walkOf q.walk)
    let size := 64 * (1 + lines.length)
    let addr := w.slot * 2 ^ 60 + (w.offset + w.used)
    let fits : Bool := w.used + size ≤ w.size && class1Status s w.region addr 2 (1 + lines.length) = 0
    let s := { s with observe := { s.observe with dumpReqs := s.observe.dumpReqs.erase q } }
    let s := if s.observe.dumpReqs.any fun x => x.core = core && x.op = op then s
      else s.updCore core fun k => { k with holds := k.holds.filter fun x => x.num ≠ op }
    let put (s : State) (x : Watch) : State := { s with observe := { s.observe with watches := Tbl.set s.observe.watches q.watch x } }
    match fits, Tbl.find (s.region w.region).windows w.slot with
    | true, some g =>
      let s := winWrite s g (w.offset + w.used) (dumpHeader w.tensor q lines.length ++ lines.flatten)
      let s := put s { w with written := (w.written + 1) % 2 ^ 32, used := w.used + size }
      .next (s.notice 4 (silCore core (ownerOf s core)) q.watch size)
    | _, _ => .next (settle (put s { w with skipped := (w.skipped + 1) % 2 ^ 32, state := 2 }) core)

/-! ## Vigil (R634 to R636) -/

/-- The sync objects that a region owns, ascending. -/
def ownedSyncs (s : State) (n : Nat) : List Nat := (s.syncs.filter fun e => e.2.owner = some n).map (·.1)
/-- The sync section of a dump. -/
def syncSection (s : State) (n : Nat) : Bytes :=
  let b := (ownedSyncs s n).flatMap fun i => leBytes 4 i ++ leBytes 4 (s.sync i).value.toNat
  slice b 0 (alignUp b.length 4096)

/-- VIGIL with action 1. -/
def armVigil (s : State) (h : Nat) (o : HOut) : State :=
  let n := fieldAt o.cmd 16 1
  let slot := fieldAt o.cmd 18 1
  let off := fieldAt o.cmd 24 8
  let size := fieldAt o.cmd 32 8
  let r := s.region n
  let bound : Bool := match r.img with | some b => b.bound | none => false
  let open_ : Bool := match Tbl.find r.windows slot with | some w => w.write && off + size ≤ w.size | none => false
  if 64 ≤ n ∨ 16 ≤ slot ∨ off % 64 ≠ 0 ∨ !bound ∨ r.vigil.isSome ∨ !open_ ∨ size < 4096 + (syncSection s n).length then s.finish h 5 0 0 0
  else
    let v : VigArm := { handle := h, slot := slot, offset := off, size := size, noPads := bitAt (fieldAt o.cmd 20 4) 0 }
    (s.updRegion n fun r => { r with vigil := some v }).keep h fun x => { x with running := true, since := s.now }

def execVigilArm (h : Nat) (s : State) : Res :=
  .next (s.onCmd h 0x52 fun o =>
    match fieldAt o.cmd 17 1 with
    | 1 => armVigil s h o
    | 2 => s
    | _ => s.finish h 5 0 0 0)

def execVigilDisarm (h : Nat) (s : State) : Res :=
  .next (s.onCmd h 0x52 fun o =>
    let n := fieldAt o.cmd 16 1
    match fieldAt o.cmd 17 1 with
    | 2 =>
      if 64 ≤ n then s.finish h 5 0 0 0
      else if (s.region n).vigil.isNone then s.finish h 1 0 0 0
      else (disarmVigil s n).finish h 0 0 0 0
    | 1 => s
    | _ => s.finish h 5 0 0 0)

/-- The descriptors of an operation, as issued. -/
def DOp.descs : DOp → List Desc
  | .tmCopy dd ds => [dd, ds]
  | .tmFill dd _ _ => [dd]
  | .sha ds _ _ => [ds]
  | .veArith dd da db _ _ => [dd, da, db]
  | .veNorm dd da db _ _ => [dd, da, db]
  | .veAct dd da db _ => [dd, da, db]
  | .veFunc dd da _ => [dd, da]
  | .veCvt dd da => [dd, da]
  | .accClr _ => []
  | .accOut _ dd _ stat dstat => if stat then [dd, dstat] else [dd]
  | .accAdd _ ds => [ds]
  | .aeQk dd da db _ => [dd, da, db]
  | .aeSm dd da _ => [dd, da]
  | .aePv dd da db => [dd, da, db]
  | .spSample dd ds _ => [dd, ds]
  | .cimEval _ _ d _ _ _ _ => [d]
  | .qPush _ _ => []
  | .qPop _ dd => [dd]
  | .rmread _ dd ds _ _ => [dd, ds]
  | .nred _ ds _ _ _ => [ds]

/-- An entry of a dispatch queue: the slot word that the program window holds, and the descriptors (R168, R636). -/
def dispatchEntry (k : Core) (q : QOp) : Bytes :=
  slice (slice (k.mem.read (0x270000 + 16 * q.bundle + if q.slot = 2 then 4 else 8) 4) 0 16 ++
    (q.op.descs.flatMap fun d => leBytes 16 d.toNat)) 0 64

/-- The SQ condition (R636). -/
def sqCondition (k : Core) : Nat :=
  match k.run, k.held with
  | .halted, _ => 6
  | .stopped, _ => 7
  | _, none => 0
  | _, some (.syncWait _ _) => 1
  | _, some (.qwait _ _ _) => 2
  | _, some (.queue _) => 3
  | _, some (.mem _) => 4
  | _, some (.signal _ _) => 5
  | _, some (.fence _) => 8

/-- The awaited condition. -/
def sqAwaits (s : State) (k : Core) : Bytes :=
  match k.held with
  | some (.syncWait i t) => leBytes 4 i ++ leBytes 4 t.toNat ++ leBytes 4 (s.sync i).value.toNat
  | some (.qwait out q n) =>
    leBytes 4 q ++ leBytes 4 n ++ leBytes 4 (if out then (k.oq q).length else k.iqReady q) ++
      leBytes 4 (if out then k.oqFree q else 32 - (k.iq q).length)
  | _ => []

/-- The engines in the order of a dump's dispatch queues: AE, VE, TM, SP, SHA engine and the array sets. -/
def dumpEngines : List Nat := [3, 2, 0, 4, 1, 5, 6, 7, 8, 9, 10, 11, 12]

/-- Bytes 0 to 106,495 of a core record, and the free values of its queues from base on; cause is the step fault that began the dump
on this core. -/
def coreState (s : State) (c base cause : Nat) : Bytes :=
  let k := s.core c
  let q := k.seq
  let loops := q.loops.flatMap fun l => leBytes 4 l.remaining ++ leBytes 4 l.last
  let free (i : Nat) : Bytes := [Config.vigilQueue (base + i)]
  let queue (l : List QOp) : Bytes := slice ((l.take 4).flatMap (dispatchEntry k)) 0 256
  let ops (e : Nat) : List QOp :=
    (match Tbl.find k.active e with | some a => [a.q] | none => []) ++ q.queued.filter fun x => x.eng = e
  let fault := match k.report with | some r => r.cause | none => cause
  leBytes 4 (coreId c) ++ leBytes 2 q.pc.toNat ++ leBytes 1 q.asr.toNat ++ leBytes 1 (sqCondition k) ++ leBytes 8 (seqCycles s k) ++
    leBytes 4 (stepCyc s k) ++ leBytes 2 q.stepKind.toNat ++ leBytes 2 0 ++ leBytes 4 q.stepReq.toNat ++ leBytes 4 fault ++
    slice loops 0 16 ++ leBytes 16 0 ++
    ((List.finRange 32).flatMap fun i => leBytes 4 q.regs[i].toNat) ++ ((List.finRange 16).flatMap fun i => leBytes 16 q.descs[i].toNat) ++
    slice (sqAwaits s k) 0 64 ++
    (dumpEngines.flatMap fun e => queue (ops e)) ++
    slice (q.sigBuf.flatMap fun g => leBytes 4 g.idx ++ leBytes 4 g.amount.toNat) 0 64 ++
    ((List.range 8).flatMap fun i => free i ++ leBytes 1 (k.oq i).length ++ free (16 + i) ++ free (24 + i)) ++
    ((List.range 8).flatMap fun i => free (8 + i) ++ leBytes 1 (k.iq i).length ++ leBytes 1 (k.iqReady i) ++
      leBytes 1 ((k.iq i).filter fun e => !e.filled).length) ++ leBytes 128 0 ++
    ((List.range 8).flatMap fun i => slice ((k.oq i).flatMap fun e => slice e.line 0 64) 0 2048) ++
    ((List.range 8).flatMap fun i => slice ((k.iq i).flatMap fun e => slice e.data 0 64) 0 2048) ++
    ((List.range 34).flatMap fun r => (List.range 32).flatMap fun l => k.readLine (2014 + r) l)

/-- A core record, with custody on only its public part. -/
def coreRecord (s : State) (c base cause : Nat) (full : Bool) : Bytes :=
  let b := coreState s c base cause
  let b := if full then b ++ (s.core c).mem.read 0 2621440 else b
  if custodyOn s then b.take 64 ++ List.replicate 384 0 ++ slice b 448 64 ++ List.replicate (b.length - 512) 0 else b

/-- The dump of a region (R636), and its length. -/
def vigilBytes (s : State) (n base : Nat) (t : VigTrig) (v : VigArm) : Bytes :=
  let r := s.region n
  let cs := (rectCores r.nw r.se).filter (usable s)
  let syncs := syncSection s n
  let head := 4096 + syncs.length
  let full := !v.noPads && head + 2727936 * cs.length ≤ v.size
  let some_ := full || head + 106496 * cs.length ≤ v.size
  let total := if full then head + 2727936 * cs.length else if some_ then head + 106496 * cs.length else head
  let core := match t.core with | some c => coreId c | none => Config.vigilCore base
  let version := match r.img with | some b => if b.active then b.version else 0 | none => 0
  let word := match t.handle with | some h => handleWord h (s.hdl h).gen | none => 0xFFFFFFFF
  let cause := if t.trigger = 1 then 11 else if t.trigger = 2 then 16 else 0
  slice (leBytes 4 0x56474C44 ++ leBytes 2 1 ++ leBytes 1 n ++ leBytes 1 t.trigger ++ leBytes 4 core ++
    leBytes 4 (boolBit (!full) 0 + boolBit (!some_) 1 + boolBit (custodyOn s) 2) ++ leBytes 8 t.time.toNat ++ leBytes 8 version ++
    leBytes 4 (if some_ then cs.length else 0) ++ leBytes 4 (ownedSyncs s n).length ++ leBytes 8 total ++ leBytes 4 word) 0 4096 ++ syncs ++
    if some_ then cs.zipIdx.flatMap fun e => coreRecord s e.1 (base + 1 + 32 * e.2) (if t.core = some e.1 then cause else 0) full else []

/-- The dump is written and the arming handle completes; a slot withdrawn meanwhile denies it (R439, R634). -/
def writeVigil (s : State) (n : Nat) (t : VigTrig) (v : VigArm) : State :=
  let s' := s.updRegion n fun r => { r with vigil := none }
  match Tbl.find (s.region n).windows v.slot with
  | some w =>
    if !w.write then s'.finish v.handle 5 4 0 0
    else
      let (base, s) := s.draw (1 + 32 * 19200)
      let b := vigilBytes s n base t v
      let core := match t.core with | some c => coreByteId c | none => Config.vigilCore base % 65536
      let s := winWrite (s.updRegion n fun r => { r with vigil := none }) w v.offset b
      let s := odPending { s with observe := { s.observe with vigils := (s.observe.vigils + 1) % 2 ^ 32 } } 0x9200 2
      let s := s.notice 6 (silCentral 6 (some n)) n b.length
      s.finish v.handle 0 0 b.length (t.trigger * 2 ^ 24 + core)
  | none => s'.finish v.handle 5 4 0 0

/-- VIGIL_DUMP: the first dump waiting is written; then the region's cores stop as R206 says and the flush goes on (R635). -/
def execVigilDump (region : Nat) (s : State) : Res :=
  match s.observe.vigilQ with
  | [] => .next s
  | t :: rest =>
    if t.region ≠ region then .next s
    else
      let s := { s with observe := { s.observe with vigilQ := rest } }
      match (s.region region).flush with
      | some f =>
        if f.phase ≠ 3 then .next s
        else
          let s := match (s.region region).vigil with | some v => writeVigil s region t v | none => s
          let s := match t.handle with | some h => s.finish h 6 0xFFFE 0 0 | none => s
          let r := s.region region
          let s := (rectCores r.nw r.se).foldl (fun s c =>
            let k := s.core c
            if k.run = .frozen ∨ k.run = .issuing then s.haltCore c id else s) s
          .next (s.updRegion region fun r => { r with flush := some { f with phase := 1 } })
      | none => .next s

/-! ## Handles without progress (R632, R633) -/

/-- The region of an operation behind a handle, if it has one. -/
def handleRegion (s : State) (h : Nat) (o : HOut) : Option Nat :=
  if o.opcode = 0x30 ∨ o.opcode = 0x32 ∨ o.opcode = 0x33 then some (fieldAt o.cmd 16 1)
  else if o.opcode = 0x40 then (s.serving.jobs.find? fun j => j.handle = h).map (·.region)
  else none

/-- A handle's command has progress marks now. -/
def marksProgress (s : State) (o : HOut) : Bool :=
  o.running && match o.opcode with
    | 0x30 => true
    | 0x32 => (match (s.region (fieldAt o.cmd 16 1)).op with | some x => x.swap && (x.phase = .verify || x.phase = .drain) | none => false)
    | 0x33 => true
    | 0x51 => true
    | 0x50 => true
    | 0x40 => true
    | _ => false

/-- The operation behind a handle stops: a load or swap fails, any other stops where it stands; the handle completes TIMEOUT now, or
after its region's dump. -/
def abandon (s : State) (h : Nat) (o : HOut) (now : Bool) : State :=
  let n := (handleRegion s h o).getD 64
  let done (s : State) : State := if now then s.finish h 6 0xFFFE 0 0 else s
  match o.opcode with
  | 0x30 => opFail s n 6 0xFFFE 0
  | 0x32 =>
    let s := if now then s else s.updRegion n fun r => { r with op := r.op.map fun x => { x with handle := none } }
    opFail s n 6 0xFFFE 0
  | 0x33 =>
    let r := s.region n
    let first : Bool := match r.relocs with | (_, _, some x) :: _ => x = h | _ => false
    let s := match r.op with
      | some x => if first && x.phase = OpPhase.relocate then (stopBusy s x.busy).updRegion n fun r => { r with op := none } else s
      | none => s
    tryRelease (done (s.updRegion n fun r => { r with relocs := r.relocs.filter fun x => x.2.2 ≠ some h })) n
  | 0x40 => done (dropJob s h)
  | 0x50 =>
    let s := { s with boot := { s.boot with
      attests := s.boot.attests.filter fun a => a.1 ≠ h
      signing := match s.boot.signing with | some a => if a.1 = h then none else some a | none => none } }
    startSigning (s.finish h 6 0xFFFE 0 0)
  | _ =>
    let w := fieldAt o.cmd 16 4
    let others := s.host.handles.any fun e => e.1 ≠ h && match e.2.out with | some x => x.opcode = 0x51 && x.running | none => false
    let s := if others then s else
      { s with cores := Tbl.map (fun c k => if calScope w c then
          { k with sets := Tbl.map (fun _ t => { t with tasks := t.tasks.filter fun x => x.level ≠ 6 }) k.sets } else k) s.cores }
    s.finish h 6 0xFFFE 0 0

/-- HANDLE_PROGRESS_TIMEOUT: a hang; a region armed for Vigil is dumped before the handle completes. -/
def execHandleProgressTimeout (h : Nat) (s : State) : Res :=
  match s.cmd? h with
  | none => .next s
  | some o =>
    if !marksProgress s o ∨ s.thermal.state = 1 ∨ !s.passed o.since (1000000000 * s.setting 0x9000 1 600) then .next s
    else
      let hung : Option Nat := (handleRegion s h o).bind fun n =>
        if (s.region n).vigil.isSome ∧ (s.region n).flush.isNone ∧ !(s.region n).imgCores.isEmpty then some n else none
      match hung with
      | none => .next (abandon s h o true)
      | some n => .next (beginVigil ((abandon s h o false).keep h fun x => { x with since := s.now }) n 3 none (some h))

/-! ## Marks of the Sillage stream (R638, R639) -/

/-- A write to 0x9300:03. -/
def sillageMarkOp (s : State) (v : Nat) : OdEff :=
  (odBump (s.sil 8 (silCentral 8 none) (leBytes 4 v)) 0x9300 3, 0)
def execSillageMark (_w : Writer) (value : W32) (s : State) : Res := applied s 0x9300 (sillageMarkOp s value.toNat)

/-- PERIODIC_MARK: every 1 ms while selected. -/
def execPeriodicMark (s : State) : Res :=
  if bitAt (s.setting 0x9300 1 0x80) 7 ∧ s.passed s.observe.markAt 1000000 then
    .next (({ s with observe := { s.observe with markAt := s.now } } : State).sil 8 (silCentral 8 none) (leBytes 4 0))
  else .next s

end Sys2Proof.Machine
end

