-- ==== Sys2Proof/Machine/OdWrite.lean ====
section
/-!
DEFINITION. Writes of the object dictionary (R446 to R452): every writable entry led to its rule, and the commands OD_READ and OD_WRITE
(R434, R440, R449).
-/
namespace Sys2Proof.Machine

/-- Entries that a recovery start offers (R540). -/
def recoveryEntry (index sub : Nat) : Bool :=
  index = 0x1000 || (0x1020 ≤ index && index ≤ 0x1023) || index = 0x1030 || index = 0x1F00 || index = 0x1F01 ||
  (index = 0xA000 && (sub = 2 || sub = 3)) || index = 0xA001

/-- What a stored setting changes at once. -/
def afterWrite (s : State) (index sub v : Nat) : State :=
  if 0x3100 ≤ index ∧ index < 0x31F0 then setpointOp s (index - 0x3100) v
  else if index = 0x7000 ∧ sub ≤ 3 then chooseRoot s
  else if 0x7100 ≤ index ∧ index < 0x7130 ∧ sub = 3 then
    let p := index - 0x7100
    if v = 0 then portGoesDown s p
    else if (s.port p).state = 0 then s.setPort p { s.port p with state := 1, downAt := s.now } else s
  else s

/-! ## Restoring defaults (R466) -/

/-- A write to 0x1F00:06: every persistent RW and RWC entry but the spared ones takes its default, with the effect that a write of it has,
saved at once. -/
def restoreOp (s : State) (key : Nat) : OdEff :=
  if key ≠ 0x44464C54 then (s, 4)
  else if !(boundRegions s).isEmpty ∨ swapsRun s then (s, 5)
  else
    let gone (k : Nat) : Bool :=
      !restoreSpares (k / 256) && match odRow (k / 256) (k % 256) with | some r => r.keep && (r.acc = .rw || r.acc = .rwc) | none => false
    let old := (s.od.vals.filter fun e => gone e.1).map (·.1)
    let s := { s with od := { s.od with vals := s.od.vals.filter fun e => !gone e.1 } }
    let s := { s with regions := Tbl.map (fun _ r => { r with nw := 0, se := 0, exit := 0, setCap := 8, grant := 1 }) s.regions }
    let s := old.foldl (fun s k =>
      let index := k / 256; let sub := k % 256
      let s := odPending (odBump s index sub) index sub
      afterWrite s index sub (match odRow index sub with | some r => r.dflt | none => 0)) s
    (odBump (saveAll s) 0x1F00 6, 0)
def execRestoreDefaults (_w : Writer) (key : W32) (s : State) : Res := applied s 0x1F00 (restoreOp s key.toNat)

/-! ## Writes to WO entries -/

/-- A write to a commit subindex: 1 and 2 as the group says, 0xFF discards the writer's shadow (R458, R461, R621, R626). -/
def commitWrite (s : State) (w : Writer) (index v : Nat) : OdEff :=
  if v = 0xFF then (discardOp s w index, 0)
  else commitCounted (
    if index = 0x1020 then (if v = 1 then segmentOp s w else (s, 4))
    else if index = 0x8010 then (if v = 1 then scopeOp s w else (s, 4))
    else if index < 0x9000 then
      (if v = 1 then regionCommitOp s w (index - 0x2200) else if v = 2 then regionReleaseOp s (index - 0x2200) else (s, 4))
    else (if v = 1 then watchArmOp s w (index - 0x9100) else if v = 2 then watchDisarmOp s (index - 0x9100) else (s, 4))) index

/-- A write of a checked value to a WO entry. -/
def writeOnly (s : State) (w : Writer) (index sub v : Nat) : OdEff :=
  if sub = 0x0F then commitWrite s w index v
  else if 0x1110 ≤ index ∧ index < 0x1114 then restoreSiteOp s (index - 0x1110) v
  else if index = 0x1F00 then (if sub = 5 then flushOp s v else if sub = 6 then restoreOp s v else clearFallbackOp s v)
  else if 0x3100 ≤ index ∧ index < 0x31F0 then retryOp s (index - 0x3100) v
  else if index = 0x4010 then clearFlagsOp s (BitVec.ofNat 32 v)
  else if index = 0x4030 then coldStartOp s v
  else if 0x4100 ≤ index ∧ index < 0x41F0 then clearPairOp s (index - 0x4100) v
  else if index = 0x5060 then clearWarningsOp s (BitVec.ofNat 32 v)
  else if index = 0x6200 then flushPrefixOp s v
  else if index = 0x8000 then clearOverflowOp s w v
  else sillageMarkOp s v

/-! ## Writes to RW entries -/

/-- The entry's own rule refuses a write in the present state (cause 5). -/
def writeBarred (s : State) (index sub v : Nat) : Bool :=
  if index = 0x2010 then !(boundRegions s).isEmpty
  else if 0x6280 ≤ index ∧ index < 0x62C0 ∧ sub = 1 then
    let n := index - 0x6280
    (s.serving.ctxs.any fun e => e.2.d.region = n) || (s.region n).pool.any fun e => e.2.state ≠ .free
  else if index = 0x7000 ∧ (sub = 1 ∨ sub = 2) then (boundImages s).any fun e => 1 < e.2.2.img.stages
  else if 0x7100 ≤ index ∧ index < 0x7130 ∧ sub = 3 then v = 1 && !s.factory.ports.contains (index - 0x7100)
  else false

/-- A write of a checked value to a setting. -/
def writeSetting (s : State) (w : Writer) (index sub : Nat) (r : OdRow) (v : Bytes) : OdEff :=
  let x := leNat v
  if perWriter index sub then
    if index = 0x5100 ∧ !coreExists (namedCore (BitVec.ofNat 32 x)) then (s, 4) else (odBump (s.setSelection w (odKey index sub) x) index sub, 0)
  else if index = 0x2020 ∧ sub = 1 then custodyOp s x
  else if writeBarred s index sub x then (s, 5)
  else
    let v := if index = 0x9300 ∧ sub = 1 then leBytes 1 (x / 128 * 128 + x % 4) else v
    (afterWrite (odStore s index sub r v) index sub x, 0)

/-- A write to a key slot (R553, R554): 60 bytes of allowed types, or nothing; custody keeps one administrator. -/
def writeKey (s : State) (index sub : Nat) (r : OdRow) (v : Bytes) : OdEff :=
  let admin := 0xA020 ≤ index
  let last := (List.range 8).all fun k => 0xA020 + k = index || (adminKey s k).isNone
  if v.length ≠ 0 ∧ v.length ≠ 60 then (s, 3)
  else if v.length = 60 ∧ !keyTypesOk (if admin then .admin else .image) v then (s, 4)
  else if v.isEmpty ∧ admin ∧ custodyOn s ∧ last ∧ (adminKey s (index - 0xA020)).isSome then (s, 5)
  else (odStore s index sub r v, 0)

/-- A write that R478 or R562 has let through. -/
def odWriteOp (s : State) (w : Writer) (index sub : Nat) (v : Bytes) : OdEff :=
  match odRow index sub with
  | none => (s, if odExists index sub then 2 else 1)
  | some r =>
    if entryShut s index then (s, if r.acc = .ro ∨ r.acc = .const then 2 else 5)
    else match r.acc with
      | .ro => (s, 2)
      | .const => (s, 2)
      | .rwc => shadowOp s w index sub v
      | .wo => (match odCheck r v with | some c => (s, c) | none => writeOnly s w index sub (leNat v))
      | .rw =>
        if r.ty.size.isNone then writeKey s index sub r v
        else match odCheck r v with | some c => (s, c) | none => writeSetting s w index sub r v

/-- A read, in a recovery start of its entries only. -/
def odReadOp (s : State) (w : Writer) (admin : Bool) (index sub : Nat) : Except Nat Bytes :=
  if s.boot.phase = .recovery ∧ odExists index sub ∧ !recoveryEntry index sub then .error 5 else odRead s w admin index sub

/-! ## OD_READ and OD_WRITE -/

/-- An earlier dictionary command of the same queue has not been applied yet (R449). -/
def earlierOd (s : State) (o : HOut) : Bool :=
  s.host.handles.any fun e => match e.2.out with
    | some x => x.queue = o.queue && x.num < o.num && (x.opcode = 0x10 || x.opcode = 0x11)
    | none => false

/-- A reader with the rights of an administrator: every reader while custody is off (R620). -/
def adminReader (s : State) (session : Nat) : Bool :=
  !custodyOn s || match s.session? session with | some x => x.admin | none => false

/-- OD_READ.  DESIGN CHOICE: it completes DENIED where no MWR has the buffer's address, which is not a word's (R415). -/
def odReadCmd (s : State) (h : Nat) (o : HOut) : State :=
  if earlierOd s o then s
  else
    let n := fieldAt o.cmd 32 4
    match odReadOp s ⟨0, o.queue⟩ (adminReader s o.session) (fieldAt o.cmd 16 2) (fieldAt o.cmd 18 1) with
    | .error c => s.finish h 5 c 0 0
    | .ok v =>
      if n = 0 then s.finish h 0 0 0 v.length
      else if n < v.length then s.finish h 5 8 0 v.length
      else if fieldAt o.cmd 24 8 % 4 ≠ 0 then s.finish h 5 0 0 v.length
      else (s.hostWrite (cmdSite s o) (fieldAt o.cmd 24 8) v).finish h 0 0 0 v.length

def odWriteCmd (s : State) (h : Nat) (o : HOut) (data : Option Bytes) : State :=
  if earlierOd s o then s
  else
    let n := fieldAt o.cmd 32 4
    let asked := s.operand o (fieldAt o.cmd 24 8) n data
    let s := asked.1
    match if n = 0 then some [] else asked.2 with
    | none => s.finish h 5 0 0 0
    | some v =>
      if v.length ≠ n then s
      else
        let put (s : State) : OdEff := odWriteOp s ⟨0, o.queue⟩ (fieldAt o.cmd 16 2) (fieldAt o.cmd 18 1) v
        let (t, c) := put s
        -- a start that the write begins ends every handle but the write's own (R533)
        if c = commitHeld then holdCommit (t.keep h fun x => { x with running := true, since := s.now }) ⟨0, o.queue⟩ (fieldAt o.cmd 16 2 - 0x2200) (.handle h)
        else if fieldAt o.cmd 16 2 = 0x4030 ∧ c = 0 then (put (s.finish h 0 0 0 0)).1
        else t.finish h (if c = 0 then 0 else 5) c 0 0

/-- OD_READ. -/
def execOdRead (h : Nat) (s : State) : Res := .next (s.onCmd h 0x10 fun o => odReadCmd s h o)
/-- OD_WRITE. -/
def execOdWrite (h : Nat) (data : Option Bytes) (s : State) : Res := .next (s.onCmd h 0x11 fun o => odWriteCmd s h o data)

end Sys2Proof.Machine
end

