-- ==== Sys2Proof/Machine/HostCmd.lean ====
section
/-!
DEFINITION. Management of submission queues, rings and events by command (R421, R432, R434, R440, R460).
-/
namespace Sys2Proof.Machine

/-- The site of the admin queue that a command came on. -/
def ownSite (s : State) (o : HOut) : Nat := cmdSite s o

/-- CREATE_SQ. -/
def execCreateSq (h : Nat) (s : State) : Res :=
  .next (s.onCmd h 0x01 fun o =>
    let q := fieldAt o.cmd 16 2
    let ring := fieldAt o.cmd 20 4
    let base := fieldAt o.cmd 24 8
    let n := fieldAt o.cmd 32 4
    let ringOk : Bool := match s.ring? ring with | some r => r.kind = 1 && r.site = ownSite s o | none => false
    if 1024 ≤ s.host.sqs.length then s.finish h 4 0 0 0
    else if q < 4 ∨ 1024 ≤ q ∨ (s.sq? q).isSome ∨ !ringOk ∨ base % 64 ≠ 0 ∨ !isPow2 n ∨ n < 2 ∨ 65536 < n then s.finish h 5 0 0 0
    else
      let x : Sq := { site := ownSite s o, ring := ring, base := base, entries := n, head := 0, tail := 0, reading := 0, failed := false }
      (s.setSq q x).finish h 0 0 0 0)

/-- A command of a queue has been accepted and has no COMPLETE yet. -/
def queueBusy (s : State) (q : Nat) : Bool :=
  s.host.handles.any fun e => match e.2.out with | some x => x.queue = q | none => false

/-- DELETE_SQ: unread entries are discarded with the queue, and so are its shadows and selections. -/
def execDeleteSq (h : Nat) (s : State) : Res :=
  .next (s.onCmd h 0x02 fun o =>
    let q := fieldAt o.cmd 16 2
    if q < 4 ∨ (s.sq? q).isNone ∨ queueBusy s q then s.finish h 5 0 0 0
    else
      let w : Writer := ⟨0, q⟩
      let s := { s with
        host := { s.host with sqs := Tbl.del s.host.sqs q }
        od := { s.od with shadows := s.od.shadows.filter fun x => x.writer ≠ w, select := s.od.select.filter fun e => e.1 ≠ w } }
      s.finish h 0 0 0 0)

/-- The lowest key that a table does not hold, from a key on. -/
def firstGap {α : Type} : Tbl α → Nat → Nat
  | [], i => i
  | (k, _) :: t, i => if k = i then firstGap t (i + 1) else i

/-- CREATE_RING. -/
def execCreateRing (h : Nat) (s : State) : Res :=
  .next (s.onCmd h 0x03 fun o =>
    let asked := fieldAt o.cmd 16 4
    let kind := fieldAt o.cmd 20 1
    let k := fieldAt o.cmd 21 1
    let vec := fieldAt o.cmd 22 2
    let base := fieldAt o.cmd 24 8
    let id := if asked = 0xFFFFFFFF then firstGap s.host.rings 0 else asked
    if 3 < kind ∨ k < 2 ∨ 24 < k ∨ base % 4096 ≠ 0 then s.finish h 5 0 0 0
    else if 524284 ≤ id then s.finish h (if asked = 0xFFFFFFFF then 4 else 5) 0 0 0
    else if (s.ring? id).isSome then s.finish h 5 0 0 0
    else
      let r : Ring := { site := ownSite s o, kind := kind, log2 := k, vector := if vec = 0xFFFF then none else some vec, base := base
                        written := 0, readIdx := 0, reserved := 0, mask := 0, drops := 0, lastIrq := none, irqHeld := false }
      (s.setRing id r).finish h 0 0 0 id)

/-- A live request, a submission queue or a dump names a ring. -/
def ringNamed (s : State) (id : Nat) : Bool :=
  (s.serving.ctxs.any fun e => e.2.state ≠ .ended && e.2.tune.isNone && e.2.d.ring = id) ||
  (s.host.sqs.any fun e => e.2.ring = id) || (Tbl.find s.observe.dumps id).isSome

/-- DELETE_RING. -/
def execDeleteRing (h : Nat) (s : State) : Res :=
  .next (s.onCmd h 0x04 fun o =>
    let id := fieldAt o.cmd 16 4
    if 524284 ≤ id ∨ (s.ring? id).isNone ∨ ringNamed s id then s.finish h 5 0 0 0
    else { s with host := { s.host with rings := Tbl.del s.host.rings id } }.finish h 0 0 0 0)

/-- SET_EVENTS. -/
def execSetEvents (h : Nat) (s : State) : Res :=
  .next (s.onCmd h 0x05 fun o =>
    let id := fieldAt o.cmd 16 4
    match s.ring? id with
    | some r =>
      if r.kind ≠ 2 then s.finish h 5 0 0 0
      else (s.setRing id { r with mask := BitVec.ofNat 32 (fieldAt o.cmd 20 4) }).finish h 0 0 0 0
    | none => s.finish h 5 0 0 0)

end Sys2Proof.Machine
end

