-- ==== Sys2Proof/Machine/OpEvents.lean ====
section
/-!
DEFINITION. Operations start and take effect (R69 to R71, R74, R91 to R100, R117, R118, R179 to R191, R203 to R206).
-/
namespace Sys2Proof.Machine

/-- The checks of an operation when it starts (R205). -/
def startCheck (s : State) (c : Nat) (k : Core) (q : QOp) : Option Fail :=
  match q.op with
  | .tmCopy dd ds => tmCopyCheck k dd ds
  | .tmFill dd _ _ => tmFillCheck dd
  | .sha ds a f => shaCheck k ds a f
  | .veArith dd da db f _ => veArithCheck k dd da db f
  | .veNorm dd da db f _ => veNormCheck k dd da db f
  | .veAct dd da db f => veActCheck k dd da db f
  | .veFunc dd da f => veFuncCheck k dd da f
  | .veCvt dd da => veCvtCheck k dd da
  | .accClr _ => none
  | .accOut t dd _ st ds => accOutCheck k t dd st ds
  | .accAdd t ds => accAddCheck k t ds
  | .aeQk dd da db t => aeQkCheck k q.step dd da db t
  | .aeSm dd da st => aeSmCheck k dd da st
  | .aePv dd da db => aePvCheck k dd da db
  | .spSample dd ds a =>
    let v := servingOf s c
    spCheck k ((v.map (·.vocab)).getD 0) ((v.map (·.outWidth)).getD 0) dd ds a
  | .cimEval tr a d t clear _ m =>
    firstFail [cimCheck k tr a m d (layerBusy s c a),
      if clear || zeroInput k tr a m d then none else tileFail k t (if (k.arr a).format = 5 && !tr then 256 else 512)]
  | .qPush oq a => pushCheck s c k oq a
  | .qPop iq dd =>
    let w := walkOf dd
    firstFail [encFail 0x51 w.encOk, bndFail w true true, if k.iqReady iq < w.count then some ⟨4, iq, 0⟩ else none]
  | .rmread oq dd ds home _ =>
    let wd := walkOf dd; let ws := walkOf ds
    firstFail [encFail 0x52 (wd.encOk && ws.encOk), encFail 0x52 (ws.count ≤ 32 && wd.count = ws.count), bndFail wd false true,
      if k.oqFree oq < 1 then some ⟨3, oq, 0⟩ else none]
  | .nred oq ds dest _ _ =>
    let w := walkOf ds
    firstFail [encFail 0x53 w.encOk, bndFail w true false,
      if k.oqFree oq < w.count then some ⟨3, oq, 0⟩ else none, badFail k w]

/-- The array's refresh age is within its format's interval (R87, R111). -/
def withinInterval (s : State) (c : Nat) (a : Arr) : Bool := refreshAge s c a ≤ 655360 * refreshInterval s a.format

/-- Start an evaluation: the whole computation with fresh analog errors, its phases and its counts. -/
def startEval (s : State) (c : Nat) (q : QOp) (tr : Bool) (a : Nat) (d : Desc) (nar : Bool) (m : Nat) : State :=
  let (base, s) := s.draw (2 ^ 20)
  let k := s.core c
  let v := cimIn k base tr a m d nar q.gov (withinInterval s c (k.arr a))
  let o := v.run
  let set := a / 4
  let turn := !o.phases.isEmpty && (k.set set).evals ≠ 0 && (k.set set).dirTrans ≠ tr
  let from_ := s.now + if turn then 20 else 0
  let plan : EvalPlan := { rounds := o.rounds, ends := phaseEnds o.phases, phases := o.phases.length, fellBack := o.fallen ≠ 0, since := from_ }
  let k := { k with
    active := Tbl.set k.active q.eng ⟨q, some plan⟩
    seq := { k.seq with queued := k.seq.queued.filter fun x => x.num ≠ q.num } }
  let k := countEval k set turn o
  let k := sampleEval k set a (s.setting 0x5020 1 12) s.now v o
  let k := if o.phases.isEmpty && o.reads.isEmpty then k else k.setSet set { k.set set with
    use := if tr then 2 else 1, readAt := if o.reads.isEmpty then none else some (from_ + 20 * o.phases.length) }
  let s := s.setCore c k
  if o.fallen = 0 then s else noteFallback s c a

/-- An evaluation leaves its set to a forced slice that goes first; an all-zero one takes no phase and does not wait (R74, R118). -/
def yieldsToSlice (s : State) (core : Nat) (k : Core) (q : QOp) : Bool :=
  match q.op with | .cimEval tr a d _ _ _ m => !zeroInput k tr a m d && forcedFirst s core (a / 4) | _ => false

/-- An attention operation waits for the compaction of the closed INT4 blocks in its core's slots (R296). -/
def awaitsCompaction (s : State) (c : Nat) (q : QOp) : Bool :=
  let attends : Bool := match q.op with | .aeQk _ _ _ _ => true | .aePv _ _ _ => true | _ => false
  attends && match ownerOf s c with
    | none => false
    | some n => int4On s n && match (s.region n).img, vcoreAt s n c with
      | some im, some v => ((im.img.cores[v]?.bind (·.pair?)).isSome && (s.region n).pool.any fun e =>
          e.1 % im.img.pairSize = im.img.pairIndex v && (e.2.state = .closed || e.2.state = .published) &&
            !(s.core c).packed.contains (e.1 / im.img.pairSize))
      | _, _ => false

/-- OPERATION_START: the checks of the operation at the head of an engine's queue, and its start, which frees its queue entry (R170,
R179, R180, R205). -/
def execOperationStart (core eng : Nat) (s : State) : Res :=
  let k := s.core core
  match k.ready? eng with
  | none => .next s
  | some q =>
    if yieldsToSlice s core k q ∨ awaitsCompaction s core q then .next s
    else match startCheck s core k q with
    | some f => .next (stepFaultAt s core f q.bundle q.slot false)
    | none =>
      let s := match q.op with
        | .cimEval tr a d _ _ nar m => startEval s core q tr a d nar m
        | _ => s.setCore core { k with
            active := Tbl.set k.active eng ⟨q, none⟩
            seq := { k.seq with queued := k.seq.queued.filter fun x => x.num ≠ q.num } }
      .next (resume s core)

/-! ## Operations take effect -/

/-- The dumps a tagged operation's TAG named, once it has taken effect: each holds the walk until it is read (R629). -/
def tagDumps (s : State) (c : Nat) (q : QOp) : State :=
  match q.op.dest with
  | none => s
  | some w =>
    let reqs := q.dumps.map fun n =>
      { core := c, op := q.num, watch := n, walk := w, req := q.req, kind := q.kind, bundle := q.bundle, time := s.almanac : DumpReq }
    let s := { s with observe := { s.observe with dumpReqs := s.observe.dumpReqs ++ reqs } }
    if reqs.isEmpty then s else s.updCore c fun k => { k with holds := k.holds ++ [⟨q.num, w⟩] }

/-- What an operation that takes effect leaves of its engine: an evaluation's phases are counted toward its step, and its set is idle again
(R43, R203). -/
def Core.opDone (k : Core) (eng : Nat) (a : ActOp) (now : Nat) : Core :=
  let k := { k with active := Tbl.del k.active eng, idleFrom := now, seq := k.seq.addPhases a.q.step a.phases }
  if eng < 5 then k
  else
    let x := k.set (eng - 5)
    k.setSet (eng - 5) { x.released with lastPhase := if a.phases = 0 then x.lastPhase else some now }

/-- A core's step is a tuning step: its request is the private context of a job (R331). -/
def tuningStep (s : State) (req : W32) : Bool := match s.ctx? req.toNat with | some x => x.tune.isSome | none => false

/-- An operation is an evaluation in a direction. -/
def DOp.turnsFrom (o : DOp) (tr : Bool) : Bool := match o with | .cimEval t _ _ _ _ _ _ => t ≠ tr | _ => false
/-- The direction of an evaluation. -/
def DOp.transposed (o : DOp) : Bool := match o with | .cimEval t _ _ _ _ _ _ => t | _ => false

/-- A tuning step's evaluation has ended: the steps whose evaluations its set kept waiting bore a tuning wait, with the turnaround of R68 where
the waiting evaluation runs in the other direction (R332). -/
def bearTuning (s : State) (c : Nat) (a : ActOp) : State :=
  match a.plan with
  | none => s
  | some p =>
    if p.phases = 0 ∨ !tuningStep s a.q.req then s
    else
      let k := s.core c
      let set := a.q.eng - 5
      (k.seq.queued.filter fun q => (k.queuedEvals set).any fun e => e.1 = q.num).foldl (fun s q =>
        if tuningStep s q.req then s
        else bearWait s c q.req q.stepSeq (s.now - max p.since q.since + if q.op.turnsFrom a.q.op.transposed then 20 else 0) fun y w => { y with tuneNs := y.tuneNs + w }) s

/-- OPERATION_TAKES_EFFECT: the operation in progress in an engine writes its results and frees its footprints, and programming that
waited for its array set may begin; an evaluation past its step's PhaseLimit does not (R43, R171, R179, R203). -/
def execOperationTakesEffect (core eng : Nat) (s : State) : Res :=
  let k := s.core core
  match Tbl.find k.active eng with
  | none => .next s
  | some a =>
    if k.run ≠ .issuing ∨ !k.clockOn ∨ k.pastLimit a then .next s
    else
      let k := (Effects.run (opEffects k a) (k.readSoftLines (opReads k a))).opDone eng a s.now
      let s := settle (tagDumps (bearTuning (s.setCore core k) core a) core a.q) core
      .next (match ownerOf s core with | some n => if 5 ≤ eng then advance s n else s | none => s)

end Sys2Proof.Machine
end

