-- ==== Sys2Proof/Machine/Segment.lean ====
section
/-!
DEFINITION. The management segment: reception, rates, peers and sessions, reads and writes, IDENT, session and firmware messages,
transmission (R468 to R481, R546, R561).
-/
namespace Sys2Proof.Machine

/-! ## Counters and rates -/

/-- Count in 0x1030. -/
def countSeg (s : State) (sub : Nat) : State :=
  { s with mgmt := { s.mgmt with ctrs := Tbl.set s.mgmt.ctrs sub ((Tbl.get s.mgmt.ctrs 0 sub + 1) % 2 ^ 32) } }

/-- The management controller listens: from step 3 of a start on, in recovery, and after a shutdown (R526, R540). -/
def segmentUp (s : State) : Bool :=
  match s.boot.phase with
  | .starting _ => true
  | .complete => true
  | .recovery => true
  | .down => true
  | _ => false

/-- A bucket's tokens after a time, in millionths. -/
def refill (tokens span rate burst : Nat) : Nat := min (tokens + span * rate / 1000) (1000000 * burst)

/-- Take one token from the source's bucket and from the engine's; none when either is empty (R479). -/
def takeToken (s : State) (mac : Nat) : Option State :=
  let m := s.mgmt
  let total := refill m.total (s.now - m.totalAt) (s.setting 0x1022 4 500) 50
  let burst := s.setting 0x1022 3 20
  let own := match m.buckets.find? fun b => b.mac = mac with
    | some b => refill b.tokens (s.now - b.at_) (s.setting 0x1022 2 50) burst
    | none => 1000000 * burst
  let ok := 1000000 ≤ total && 1000000 ≤ own
  let cut := if ok then 1000000 else 0
  let b : Bucket := { mac := mac, tokens := own - cut, at_ := s.now }
  let s := { s with mgmt := { m with
    total := total - cut, totalAt := s.now, buckets := (b :: m.buckets.filter fun b => b.mac ≠ mac).take 64 } }
  if ok then some s else none

/-! ## Messages (R471, R472) -/

def mType (m : Bytes) : Nat := fieldAt m 3 1
def mSession (m : Bytes) : Nat := fieldAt m 4 4
def mSeq (m : Bytes) : Nat := fieldAt m 8 4
def mIndex (m : Bytes) : Nat := fieldAt m 12 2
def mSub (m : Bytes) : Nat := fieldAt m 14 1
def mOffset (m : Bytes) : Nat := fieldAt m 16 4
def mLength (m : Bytes) : Nat := fieldAt m 20 2
def mData (m : Bytes) : Bytes := slice m 32 (mLength m)

/-- Message types that the engine takes: those of sessions not in a recovery start, those of firmware only there (R540, R546). -/
def listedType (s : State) (t : Nat) : Bool :=
  t = 1 || t = 2 || t = 3 || (if s.boot.phase = .recovery then t = 0x18 || t = 0x19 else t = 0x10 || t = 0x12)

/-- The message checks of R471. -/
def messageOk (s : State) (m : Bytes) : Bool :=
  32 ≤ m.length && fieldAt m 0 2 = 0x4F44 && fieldAt m 2 1 = 1 && listedType s (mType m) && fieldAt m 15 1 = 0 &&
  mLength m ≤ 1024 && 32 + mLength m + (if mSession m = 0 then 0 else 16) ≤ m.length

/-- The frame is addressed to the engine (R471). -/
def addressed (s : State) (f : MFrame) : Bool :=
  (f.dst = s.mac || (f.dst = 2 ^ 48 - 1 && mType f.msg = 3)) && !f.vlan && f.etherType = 0x88B5

/-- The Tag of a message within a session (R477). -/
def messageTag (x : Session) (dst src : Nat) (m : Bytes) : Bytes :=
  (hmac x.mac (beBytes 6 dst ++ beBytes 6 src ++ slice m 0 (32 + mLength m))).take 16

/-- What a request is answered with. -/
structure Answer where
  type   : Nat
  status : Nat
  total  : Nat
  change : Nat
  data   : Bytes
deriving DecidableEq, Repr

/-- The response message (R472, R477). -/
def response (s : State) (f : MFrame) (x : Option Session) (a : Answer) : Bytes :=
  let m := f.msg
  let b := leBytes 2 0x4F44 ++ leBytes 1 1 ++ leBytes 1 a.type ++ slice m 4 11 ++ leBytes 1 0 ++ slice m 16 4 ++
    leBytes 2 a.data.length ++ leBytes 2 a.status ++ leBytes 4 a.total ++ leBytes 4 a.change ++ a.data
  match x with | some x => b ++ messageTag x f.src s.mac b | none => b

/-- Queue a frame; a full queue loses it (R480). -/
def queueTx (s : State) (dst : Nat) (msg : Bytes) : State :=
  if 16 ≤ s.mgmt.tx.length then countSeg s 0x0A
  else { s with mgmt := { s.mgmt with tx := s.mgmt.tx ++ [{ dst := dst, msg := msg, since := s.now, tries := 0 }] } }

/-! ## Peers and sequences (R476) -/

/-- What becomes of a request by its Seq. -/
inductive Turn where
  | run | again (resp : Bytes) | stale
deriving DecidableEq, Repr

def turnOf (seq last : Nat) (resp : Bytes) : Turn :=
  let d := (seq + 2 ^ 32 - last) % 2 ^ 32
  if d = 0 then .again resp else if d < 2 ^ 31 then .run else .stale

def seqTurn (s : State) (f : MFrame) (x : Option Session) : Turn :=
  match x with
  | some x => if mSeq f.msg = 0 then .stale else turnOf (mSeq f.msg) x.peer x.resp
  | none => match s.mgmt.peers.find? fun p => p.mac = f.src with
    | some p => if mSeq f.msg = 0 then .run else turnOf (mSeq f.msg) p.last p.resp
    | none => .run

/-- Keep the processed Seq with its response: in the session, or in one of the 32 peer entries. -/
def keepTurn (s : State) (f : MFrame) (sid : Nat) (resp : Bytes) : State :=
  if sid = 0 then
    let p : Peer := { mac := f.src, last := mSeq f.msg, resp := resp, used := s.now }
    { s with mgmt := { s.mgmt with peers := (p :: s.mgmt.peers.filter fun q => q.mac ≠ f.src).take 32 } }
  else match s.session? sid with
    | some x => { s with boot := { s.boot with sessions := Tbl.set s.boot.sessions sid { x with peer := mSeq f.msg, resp := resp, used := s.now } } }
    | none => s

/-- The session of a message: none when it carries none; an error when the checks of R477 fail, with whether its Tag was wrong. -/
def messageSession (s : State) (f : MFrame) : Except Bool (Option Session) :=
  if mSession f.msg = 0 then .ok none
  else match s.session? (mSession f.msg) with
    | none => .error false
    | some x =>
      if x.source ≠ some f.src then .error false
      else if messageTag x f.dst f.src f.msg ≠ slice f.msg (32 + mLength f.msg) 16 then .error true
      else .ok (some x)

/-- A delayed response is kept with its Seq, for repeats of the request, and queued (R474, R476). -/
def lateResponse (s : State) (dst sid seq : Nat) (r : Bytes) : State :=
  let s := match if sid = 0 then none else s.session? sid with
    | some x =>
      if x.peer = seq then { s with boot := { s.boot with sessions := Tbl.set s.boot.sessions sid { x with resp := r } } } else s
    | none => { s with mgmt := { s.mgmt with
        peers := s.mgmt.peers.map fun p => if sid = 0 ∧ p.mac = dst ∧ p.last = seq then { p with resp := r } else p } }
  queueTx s dst r
/-- Answer a request late. -/
def lateAnswer (s : State) (f : MFrame) (a : Answer) : State :=
  let x := if mSession f.msg = 0 then none else s.session? (mSession f.msg)
  lateResponse s f.src (mSession f.msg) (mSeq f.msg) (response s f x a)

/-- A duplicate uses its peer's entry or session (R476). -/
def touchPeer (s : State) (f : MFrame) (x : Option Session) : State :=
  match x with
  | some x => { s with boot := { s.boot with sessions := Tbl.set s.boot.sessions (mSession f.msg) { x with used := s.now } } }
  | none => match s.mgmt.peers.find? fun p => p.mac = f.src with
    | some p => { s with mgmt := { s.mgmt with peers := { p with used := s.now } :: s.mgmt.peers.filter fun q => q.mac ≠ f.src } }
    | none => s

/-- Receive a frame that a row of a message type brings; act answers the request, and none waits for more. -/
def receive (s : State) (f : MFrame) (type : Nat) (act : State → Option Session → State × Option Answer) : State :=
  if !segmentUp s then s
  else if !f.fcsOk then countSeg s 2
  else if !addressed s f then countSeg (countSeg s 1) 3
  else if !messageOk s f.msg then countSeg (countSeg s 1) 4
  else if mType f.msg ≠ type then s
  else
    let s := countSeg s 1
    match takeToken s f.src with
    | none => countSeg s 7
    | some s =>
      match messageSession s f with
      | .error tag =>
        let s := countSeg s 8
        if tag then { s with boot := { s.boot with tagFails := s.boot.tagFails + 1 } } else s
      | .ok x =>
        match seqTurn s f x with
        | .stale => countSeg s 6
        | .again resp =>
          let s := touchPeer (countSeg s 5) f x
          if resp.isEmpty then s else queueTx s f.src resp
        | .run =>
          let (s, a) := act s x
          match a with
          | none => keepTurn s f (mSession f.msg) []
          | some a =>
            let r := response s f x a
            queueTx (keepTurn s f (mSession f.msg) r) f.src r

/-! ## READ and WRITE (R473, R478) -/

/-- The writer that a request stands for. -/
def segWriter (f : MFrame) : Writer := if mSession f.msg = 0 then ⟨1, f.src⟩ else ⟨2, mSession f.msg⟩

def refuse (type status : Nat) : Answer := { type := type, status := status, total := 0, change := 0, data := [] }

/-- The reader has an administrator's rights. -/
def segAdmin (s : State) (x : Option Session) : Bool := !custodyOn s || match x with | some x => x.admin | none => false

/-- The answer to a READ or WRITE with a status: the length of the entry's value and its change count go with every one (R472). -/
def answerFor (s : State) (f : MFrame) (x : Option Session) (type status : Nat) : State × Answer :=
  let total := match odRead s (segWriter f) true (mIndex f.msg) (mSub f.msg) with | .ok v => v.length | .error _ => 0
  let (n, s) := changeCount s (segWriter f) (segAdmin s x) (mIndex f.msg) (mSub f.msg)
  (s, { type := type, status := status, total := total, change := n, data := [] })

/-- READ. -/
def readSeg (s : State) (f : MFrame) (x : Option Session) : State × Option Answer :=
  let m := f.msg
  let (t, a) := answerFor s f x 0x81 0
  if custodyOn s && x.isNone && !odPublic (mIndex m) (mSub m) then (t, some { a with status := 6 })
  else if mLength m ≠ 0 then (t, some { a with status := 3 })
  else match odReadOp s (segWriter f) (segAdmin s x) (mIndex m) (mSub m) with
    | .error c => (t, some { a with status := c })
    | .ok v =>
      if v.length < mOffset m then (t, some { a with status := 9 })
      else (t, some { a with total := v.length, data := (v.drop (mOffset m)).take 1024 })
def execRead (f : MFrame) (s : State) : Res := .next (receive s f 1 fun s x => readSeg s f x)

/-- A WRITE is allowed: with custody on within a session, an administrator's for the entries that need one; else as WritePolicy says. -/
def writeAllowed (s : State) (index sub : Nat) (x : Option Session) : Bool :=
  if custodyOn s then
    match x with
    | some x => x.admin || !((index = 0x2020 && sub = 1) || (0xA010 ≤ index && index < 0xA028))
    | none => false
  else match s.setting 0x1022 1 1 with
    | 0 => false
    | 1 => true
    | _ => x.isSome

/-- WRITE. -/
def writeSeg (s : State) (f : MFrame) (x : Option Session) : State × Option Answer :=
  let m := f.msg
  let told (s : State) (c : Nat) : State × Option Answer := let (s, a) := answerFor s f x 0x82 c; (s, some a)
  if !writeAllowed s (mIndex m) (mSub m) x then told s 6
  else if mOffset m ≠ 0 then told s 9
  else
    let (s, c) := odWriteOp s (segWriter f) (mIndex m) (mSub m) (mData m)
    if c = commitHeld then (holdCommit s (segWriter f) (mIndex m - 0x2200) (.frame f), none)
    else told s c
def execWrite (f : MFrame) (s : State) : Res := .next (receive s f 2 fun s x => writeSeg s f x)

/-! ## IDENT (R474) -/

/-- Data of an IDENT_RSP. -/
def identData (s : State) : Bytes :=
  leBytes 4 0x4D540048 ++ leBytes 4 s.boot.fwVersion ++ leBytes 6 s.mac ++ leBytes 1 (s.setting 0x1021 0 255) ++
    leBytes 1 (boolBit (custodyOn s) 0) ++ ascii "B0" ++ leBytes 14 0 ++ slice s.factory.serial 0 16

def identAnswer (s : State) : Answer := { type := 0x83, status := 0, total := 48, change := 0, data := identData s }

/-- IDENT: a broadcast one is answered after a delay. -/
def execIdent (f : MFrame) (s : State) : Res :=
  if f.dst = s.mac then .next (receive s f 3 fun s _ => (s, some (identAnswer s)))
  else .next (receive s f 3 fun s x =>
    let (k, s) := s.draw 1
    let due := s.now + Config.holdoff k % (1000000 * s.setting 0x1022 5 20 + 1)
    let t : TxFrame := { dst := f.src, msg := response s f x (identAnswer s), since := due, tries := 0 }
    ({ s with mgmt := { s.mgmt with holdoff := s.mgmt.holdoff ++ [(due, t)] } }, none))

/-- IDENT_HOLDOFF: the delayed response is queued. -/
def execIdentHoldoff (peer : Nat) (s : State) : Res :=
  match s.mgmt.holdoff.find? fun e => e.2.dst = peer with
  | some (due, t) =>
    if due ≤ s.now then
      .next (lateResponse { s with mgmt := { s.mgmt with holdoff := s.mgmt.holdoff.erase (due, t) } } t.dst (mSession t.msg) (mSeq t.msg) t.msg)
    else .next s
  | none => .next s

/-! ## Session messages (R561) -/

def findPart (l : List Assembly) (mac : Nat) : List (Nat × Bytes) := match l.find? fun a => a.mac = mac with | some a => a.parts | none => []
/-- The byte at an offset, from the newest part that holds it. -/
def partByte (ps : List (Nat × Bytes)) (i : Nat) : Option Byte :=
  ps.findSome? fun p => if p.1 ≤ i then p.2[i - p.1]? else none
/-- The first n bytes, when all have come. -/
def assembled (ps : List (Nat × Bytes)) (n : Nat) : Option Bytes := (List.range n).mapM fun i => partByte ps i
def partsEnd (ps : List (Nat × Bytes)) : Nat := ps.foldl (fun m p => max m (p.1 + p.2.length)) 0

/-- OPEN_PART: the block opens a session once the bytes that its Role needs are present. -/
def openPartSeg (s : State) (f : MFrame) : State × Option Answer :=
  let ps := (mOffset f.msg, mData f.msg) :: findPart s.mgmt.opens f.src
  let rest := s.mgmt.opens.filter fun a => a.mac ≠ f.src
  let wait := ({ s with mgmt := { s.mgmt with opens := rest ++ [{ mac := f.src, parts := ps, last := s.now }] } } : State)
  let gone := ({ s with mgmt := { s.mgmt with opens := rest } } : State)
  match assembled ps 4 with
  | none => (if 3208 < partsEnd ps then (gone, some (refuse 0x11 (Config.openStatus 5).toNat)) else (wait, none))
  | some r =>
    let n := match leNat r with | 1 => 1592 | 2 => 3208 | _ => 0
    if n < partsEnd ps then (gone, some (refuse 0x11 (Config.openStatus 5).toNat))
    else match assembled ps n with
      | none => (wait, none)
      | some b =>
        let (s, st, _, rsp) := openSession gone b (some f.src)
        if st ≠ 0 then (s, some (refuse 0x11 (Config.openStatus st).toNat))
        else (s, some { type := 0x11, status := 0, total := 64, change := 0, data := rsp })
def execOpenPart (f : MFrame) (s : State) : Res := .next (receive s f 0x10 fun s _ => openPartSeg s f)

/-- OPEN_PART_TIMEOUT. -/
def execOpenPartTimeout (peer : Nat) (s : State) : Res :=
  match s.mgmt.opens.find? fun a => a.mac = peer with
  | some a =>
    if s.passed a.last 1000000000 then .next { s with mgmt := { s.mgmt with opens := s.mgmt.opens.filter fun a => a.mac ≠ peer } }
    else .next s
  | none => .next s

/-- CLOSE: the message's session ends; without one, the message is refused. -/
def execClose (f : MFrame) (s : State) : Res :=
  .next (receive s f 0x12 fun s x =>
    match x with
    | some _ => (endSession s (mSession f.msg), some (refuse 0x13 0))
    | none => (s, some (refuse 0x13 6)))

/-! ## Firmware messages of a recovery start (R546) -/

/-- FW_PART. -/
def fwPartSeg (s : State) (f : MFrame) : State × Option Answer :=
  let p := (mOffset f.msg, mData f.msg)
  if 4194304 < p.1 + p.2.length then (s, some (refuse 0x98 3))
  else
    let ps := p :: findPart s.mgmt.fws f.src
    let rest := s.mgmt.fws.filter fun a => a.mac ≠ f.src
    ({ s with mgmt := { s.mgmt with fws := rest ++ [{ mac := f.src, parts := ps, last := s.now }] } }, some (refuse 0x98 0))
def execFwPart (f : MFrame) (s : State) : Res := .next (receive s f 0x18 fun s _ => fwPartSeg s f)

/-- FW_COMMIT: the assembled image is verified and written as FW_WRITE does. -/
def fwCommitSeg (s : State) (f : MFrame) : State × Option Answer :=
  let ps := findPart s.mgmt.fws f.src
  let s := { s with mgmt := { s.mgmt with fws := s.mgmt.fws.filter fun a => a.mac ≠ f.src } }
  match if ps.isEmpty then none else assembled ps (partsEnd ps) with
  | none => (s, some (refuse 0x99 3))
  | some b =>
    let (s, d) := writeBank s b
    (s, some (refuse 0x99 d))
def execFwCommit (f : MFrame) (s : State) : Res := .next (receive s f 0x19 fun s _ => fwCommitSeg s f)

/-- FW_TRANSFER_TIMEOUT. -/
def execFwTransferTimeout (peer : Nat) (s : State) : Res :=
  match s.mgmt.fws.find? fun a => a.mac = peer with
  | some a =>
    if s.passed a.last 10000000000 then .next { s with mgmt := { s.mgmt with fws := s.mgmt.fws.filter fun a => a.mac ≠ peer } }
    else .next s
  | none => .next s

/-! ## Transmission (R470, R480) -/

/-- The frames at the head of the queue leave, up to n. -/
def sendFrames (s : State) (n : Nat) : State :=
  let s' := { s with mgmt := { s.mgmt with tx := s.mgmt.tx.drop n } }
  (s.mgmt.tx.take n).foldl (fun s t => s.emit (.mgmt t.dst t.msg)) s'

/-- A collision in PLCA is counted; more than three in a second set the flag. -/
def plcaCollision (s : State) : State :=
  let times := (s.now :: s.mgmt.collTimes).take 4
  let many := times.length = 4 && times.all fun t => s.now < t + 1000000000
  countSeg { s with mgmt := { s.mgmt with collTimes := times, collFlag := s.mgmt.collFlag || many } } 0x0B

/-- A collision under CSMA/CD is counted; the sixteenth attempt of a frame abandons it. -/
def csmaCollision (s : State) : State :=
  match s.mgmt.tx with
  | [] => s
  | t :: rest =>
    let s := countSeg s 9
    if 15 ≤ t.tries then countSeg { s with mgmt := { s.mgmt with tx := rest } } 0x0A
    else { s with mgmt := { s.mgmt with tx := { t with tries := t.tries + 1 } :: rest } }

/-- TRANSMIT_OPPORTUNITY: the coordinator's BEACON, then a queued frame with the burst that PLCA allows. -/
def execTransmitOpportunity (collided : Bool) (s : State) : Res :=
  if !segmentUp s then .next s
  else if plcaActive s then
    let s := if plcaLead s then s.emit (.beacon (s.setting 0x1020 2 8)) else s
    if collided ∧ (plcaLead s ∨ !s.mgmt.tx.isEmpty) then .next (plcaCollision s)
    else .next (sendFrames s (1 + s.setting 0x1020 4 0))
  else if collided then .next (csmaCollision s)
  else .next (sendFrames s 1)

/-- TX_ABANDON: responses not started within 100 ms are abandoned and counted. -/
def execTxAbandon (s : State) : Res :=
  let old := s.mgmt.tx.filter fun t => s.passed t.since 100000000
  let s' := { s with mgmt := { s.mgmt with tx := s.mgmt.tx.filter fun t => !s.passed t.since 100000000 } }
  .next (old.foldl (fun s _ => countSeg s 0x0A) s')

/-- PLCA_FALLBACK: beacons stop, and the fallback is counted, or they resume. -/
def execPlcaFallback (beacon : Bool) (s : State) : Res :=
  if !segmentUp s ∨ !plcaOn s ∨ plcaLead s then .next s
  else if beacon then .next { s with mgmt := { s.mgmt with plcaOk := true } }
  else if s.mgmt.plcaOk then .next (countSeg { s with mgmt := { s.mgmt with plcaOk := false } } 0x0C)
  else .next s

/-- PLCA_COLLISION_QUIET: 10 s without a collision clear the flag. -/
def execPlcaCollisionQuiet (s : State) : Res :=
  match s.mgmt.collTimes with
  | t :: _ => if s.mgmt.collFlag ∧ s.passed t 10000000000 then .next { s with mgmt := { s.mgmt with collFlag := false } } else .next s
  | [] => .next s

end Sys2Proof.Machine
end

