-- ==== Sys2Proof/Machine/Wakes.lean ====
section
/-!
DEFINITION. What goes on when power comes back or a wake ends: region commits that waited and step 7 of a start (R495 to R497, R502, R505,
R534), and the end of a coolant hold (R523, R524).
-/
namespace Sys2Proof.Machine

/-! ## Commits that waited (R496) -/

/-- A commit that waited is carried out, and the write that asked for it answered; it goes on waiting if another of its regions is DARK. -/
def resumeCommit (s : State) (x : HeldCommit) : State :=
  let (s, c) := commitCounted (regionCommitOp s x.writer x.region) (0x2200 + x.region)
  if c = commitHeld then holdCommit s x.writer x.region x.via
  else match x.via with
    | .row => s
    | .handle h => s.onCmd h 0x11 fun _ => s.finish h (if c = 0 then 0 else 5) c 0 0
    | .frame f =>
      let (s, a) := answerFor s f (if mSession f.msg = 0 then none else s.session? (mSession f.msg)) 0x82 c
      lateAnswer s f a

/-- Every held commit whose regions are awake or lost goes on, in order. -/
def resumeCommits (s : State) : State :=
  let l := s.od.commits
  l.foldl (fun s x =>
    if commitWaits s (candRegion s x.writer x.region) then holdCommit s x.writer x.region x.via else resumeCommit s x)
    { s with od := { s.od with commits := [] } }

/-- A wake or a retry has ended: what waited for it goes on. -/
def wakeOver (s : State) : State := resumeCommits (wakesGoOn s)

/-! ## Wakes -/

/-- WAKE_REQUEST: a region leaves DOZE or DARK for one of R495's reasons, its neighbours' monitors read; a LOST one only for its retry (R119,
R495, R497, R499, R505). -/
def execWakeRequest (look : WakeLook) (reason : Nat) (s : State) : Res :=
  let g := look.region
  let p := s.preg g
  let asked := if reason = 3 then s.od.commits.any fun x => regionMeets (candRegion s x.writer x.region) g else wakeAsked s g reason
  if 240 ≤ g ∨ !asked then .next s
  else
    let s := if reason = 2 ∧ (p.state = .doze ∨ p.state = .dark) then wakeForUpkeep s g else s
    .next (wakeRegion (readMonitors s look.samples) g (reason = 4))

/-- REGION_WAKE: the sequence of R497 ends in NAP. -/
def execRegionWake (g : Nat) (s : State) : Res :=
  match (s.preg g).wake with
  | some w => if w.ramped then .next (wakeOver (wakeDone s g w)) else .next s
  | none => .next s

/-- WAKE_PG_TIMEOUT: PG has not risen 2.5 µs after MODE (R497, R502). -/
def execWakePgTimeout (g : Nat) (s : State) : Res :=
  match (s.preg g).wake with
  | some w => if w.ramped ∧ s.passed w.rampAt 2500 then .next (wakeOver (wakeFails s g)) else .next s
  | none => .next s

/-- REGION_LOST: PG or FLT_N of the region fell; a wake of it is abandoned (R502 to R504). -/
def execRegionLost (g cause status : Nat) (s : State) : Res :=
  if g < 240 then .next (wakeOver (loseRegion s g cause status)) else .next s

/-- RETRY_PG_TIMEOUT: PG has not come within 100 µs; the region stays LOST. -/
def execRetryPgTimeout (g : Nat) (s : State) : Res :=
  let p := s.preg g
  match p.retryAt with
  | some t => if p.state = .lost ∧ s.passed t 100000 then .next (wakeOver (retryFailed s g)) else .next s
  | none => .next s

/-! ## The end of a coolant hold -/

/-- HOLD_END: flow has been back for one second. -/
def execHoldEnd (s : State) : Res :=
  match s.thermal.flowOk with
  | some t =>
    if s.thermal.state ≠ 1 ∨ !s.passed t 1000000000 then .next s
    else
      let d := s.now - s.thermal.holdAt
      let woken := (s.cores.filter fun e => e.2.run = .frozen && !vigilFrozen s e.1).map (·.1)
      let s := { s with
        thermal := { s.thermal with state := 0, level := 8, below := 0, limit := false, flowOk := none }
        cores := Tbl.map (fun c (k : Core) => if woken.contains c then k.thaw s.now d else k) s.cores
        host := { s.host with handles := Tbl.map (fun _ h => h.shift s.now d) s.host.handles } }
      -- clocks start where there is work, and programming goes on
      let s := woken.foldl (fun s c => if (s.core c).hasWork then s.startClock c else s) s
      let s := (s.regions.map (·.1)).foldl advance s
      .next (s.postEvent 12 0 0 (flow100 s))
  | none => .next s

end Sys2Proof.Machine
end

