-- ==== Sys2Proof/Machine/Dispatch.lean ====
section
/-!
DEFINITION. The one dispatch: each command of the table to its meaning.
-/
namespace Sys2Proof.Machine

def exec (i : Instr) (s : State) : Host.Outcome State Fault Refusal :=
  match i with
  | .add p rd rs1 rs2 => Sys2Proof.Machine.execAdd p rd rs1 rs2 s
  | .sub p rd rs1 rs2 => Sys2Proof.Machine.execSub p rd rs1 rs2 s
  | .and p rd rs1 rs2 => Sys2Proof.Machine.execAnd p rd rs1 rs2 s
  | .or p rd rs1 rs2 => Sys2Proof.Machine.execOr p rd rs1 rs2 s
  | .xor p rd rs1 rs2 => Sys2Proof.Machine.execXor p rd rs1 rs2 s
  | .shl p rd rs1 rs2 => Sys2Proof.Machine.execShl p rd rs1 rs2 s
  | .shr p rd rs1 rs2 => Sys2Proof.Machine.execShr p rd rs1 rs2 s
  | .sra p rd rs1 rs2 => Sys2Proof.Machine.execSra p rd rs1 rs2 s
  | .mul p rd rs1 rs2 => Sys2Proof.Machine.execMul p rd rs1 rs2 s
  | .slt p rd rs1 rs2 => Sys2Proof.Machine.execSlt p rd rs1 rs2 s
  | .sltu p rd rs1 rs2 => Sys2Proof.Machine.execSltu p rd rs1 rs2 s
  | .addi p rd rs1 imm => Sys2Proof.Machine.execAddi p rd rs1 imm s
  | .andi p rd rs1 imm => Sys2Proof.Machine.execAndi p rd rs1 imm s
  | .ori p rd rs1 imm => Sys2Proof.Machine.execOri p rd rs1 imm s
  | .xori p rd rs1 imm => Sys2Proof.Machine.execXori p rd rs1 imm s
  | .shli p rd rs1 imm => Sys2Proof.Machine.execShli p rd rs1 imm s
  | .shri p rd rs1 imm => Sys2Proof.Machine.execShri p rd rs1 imm s
  | .srai p rd rs1 imm => Sys2Proof.Machine.execSrai p rd rs1 imm s
  | .lui p rd imm => Sys2Proof.Machine.execLui p rd imm s
  | .ld p rd rs1 imm => Sys2Proof.Machine.execLd p rd rs1 imm s
  | .st p rs2 rs1 imm => Sys2Proof.Machine.execSt p rs2 rs1 imm s
  | .ld64 p rd rs1 imm => Sys2Proof.Machine.execLd64 p rd rs1 imm s
  | .st64 p rs2 rs1 imm => Sys2Proof.Machine.execSt64 p rs2 rs1 imm s
  | .beq p rs1 rs2 off => Sys2Proof.Machine.execBeq p rs1 rs2 off s
  | .bne p rs1 rs2 off => Sys2Proof.Machine.execBne p rs1 rs2 off s
  | .blt p rs1 rs2 off => Sys2Proof.Machine.execBlt p rs1 rs2 off s
  | .bge p rs1 rs2 off => Sys2Proof.Machine.execBge p rs1 rs2 off s
  | .bltu p rs1 rs2 off => Sys2Proof.Machine.execBltu p rs1 rs2 off s
  | .bgeu p rs1 rs2 off => Sys2Proof.Machine.execBgeu p rs1 rs2 off s
  | .jmp p rs1 rs2 off => Sys2Proof.Machine.execJmp p rs1 rs2 off s
  | .jal p rd off => Sys2Proof.Machine.execJal p rd off s
  | .jr p rs1 => Sys2Proof.Machine.execJr p rs1 s
  | .loop p rs1 off => Sys2Proof.Machine.execLoop p rs1 off s
  | .dld p d rs1 imm => Sys2Proof.Machine.execDld p d rs1 imm s
  | .dst p d rs1 imm => Sys2Proof.Machine.execDst p d rs1 imm s
  | .daddr p d rs1 => Sys2Proof.Machine.execDaddr p d rs1 s
  | .daddc p d rs1 => Sys2Proof.Machine.execDaddc p d rs1 s
  | .csrr p rd csr => Sys2Proof.Machine.execCsrr p rd csr s
  | .csrw p rs1 csr => Sys2Proof.Machine.execCsrw p rs1 csr s
  | .cimAsel p mask => Sys2Proof.Machine.execCimAsel p mask s
  | .slotNop p slot => Sys2Proof.Machine.execSlotNop p slot s
  | .tmCopy p dd ds => Sys2Proof.Machine.execTmCopy p dd ds s
  | .tmFill p dd rs size => Sys2Proof.Machine.execTmFill p dd rs size s
  | .shaDigest p ds rs fin => Sys2Proof.Machine.execShaDigest p ds rs fin s
  | .veArith p dd da db func rs => Sys2Proof.Machine.execVeArith p dd da db func rs s
  | .veNorm p dd da db func rs => Sys2Proof.Machine.execVeNorm p dd da db func rs s
  | .veAct p dd da db func => Sys2Proof.Machine.execVeAct p dd da db func s
  | .veFunc p dd da func => Sys2Proof.Machine.execVeFunc p dd da func s
  | .veCvt p dd da => Sys2Proof.Machine.execVeCvt p dd da s
  | .accClr p t => Sys2Proof.Machine.execAccClr p t s
  | .accOut p t dd rs stat dstat => Sys2Proof.Machine.execAccOut p t dd rs stat dstat s
  | .accAdd p t ds => Sys2Proof.Machine.execAccAdd p t ds s
  | .aeQk p dd da db rs => Sys2Proof.Machine.execAeQk p dd da db rs s
  | .aeSm p dd da rs => Sys2Proof.Machine.execAeSm p dd da rs s
  | .aePv p dd da db => Sys2Proof.Machine.execAePv p dd da db s
  | .spSample p dd ds rs => Sys2Proof.Machine.execSpSample p dd ds rs s
  | .cimEval p a d t clear narrow mode => Sys2Proof.Machine.execCimEval p a d t clear narrow mode s
  | .cimEvalt p a d t clear narrow mode => Sys2Proof.Machine.execCimEvalt p a d t clear narrow mode s
  | .qPush p oq rs => Sys2Proof.Machine.execQPush p oq rs s
  | .qPop p iq dd => Sys2Proof.Machine.execQPop p iq dd s
  | .rmread p oq dd ds rs tag => Sys2Proof.Machine.execRmread p oq dd ds rs tag s
  | .nred p oq ds rs a id => Sys2Proof.Machine.execNred p oq ds rs a id s
  | .syncWait p idx rs => Sys2Proof.Machine.execSyncWait p idx rs s
  | .syncSignal p idx rs one => Sys2Proof.Machine.execSyncSignal p idx rs one s
  | .qwait p outb q n => Sys2Proof.Machine.execQwait p outb q n s
  | .fence p mask => Sys2Proof.Machine.execFence p mask s
  | .step p rs kind => Sys2Proof.Machine.execStep p rs kind s
  | .tag p slotB id => Sys2Proof.Machine.execTag p slotB id s
  | .operationStart core eng => Sys2Proof.Machine.execOperationStart core eng s
  | .waitSatisfied core => Sys2Proof.Machine.execWaitSatisfied core s
  | .signalRelease core => Sys2Proof.Machine.execSignalRelease core s
  | .clockStop core => Sys2Proof.Machine.execClockStop core s
  | .budgetOverrun core => Sys2Proof.Machine.execBudgetOverrun core s
  | .waitLimit core => Sys2Proof.Machine.execWaitLimit core s
  | .activityOverrun core => Sys2Proof.Machine.execActivityOverrun core s
  | .readReq flight => Sys2Proof.Machine.execReadReq flight s
  | .mergeReq flight => Sys2Proof.Machine.execMergeReq flight s
  | .mergeWindowClose core row col => Sys2Proof.Machine.execMergeWindowClose core row col s
  | .readReply flight => Sys2Proof.Machine.execReadReply flight s
  | .mergeReply flight => Sys2Proof.Machine.execMergeReply flight s
  | .remoteWrite flight => Sys2Proof.Machine.execRemoteWrite flight s
  | .writeAck flight => Sys2Proof.Machine.execWriteAck flight s
  | .reduce flight => Sys2Proof.Machine.execReduce flight s
  | .signal flight => Sys2Proof.Machine.execSignal flight s
  | .stepToken flight => Sys2Proof.Machine.execStepToken flight s
  | .packetHop flight => Sys2Proof.Machine.execPacketHop flight s
  | .ifaceOut flight => Sys2Proof.Machine.execIfaceOut flight s
  | .ifaceIn flight => Sys2Proof.Machine.execIfaceIn flight s
  | .fault core marchFails source => Sys2Proof.Machine.execFault core marchFails source s
  | .imageFlush region => Sys2Proof.Machine.execImageFlush region s
  | .flushDrained region => Sys2Proof.Machine.execFlushDrained region s
  | .faultActionStop core => Sys2Proof.Machine.execFaultActionStop core s
  | .faultActionRestart core => Sys2Proof.Machine.execFaultActionRestart core s
  | .coreDead core code aux0 => Sys2Proof.Machine.execCoreDead core code aux0 s
  | .sequencerWatchdog core => Sys2Proof.Machine.execSequencerWatchdog core s
  | .heartbeatMissing core => Sys2Proof.Machine.execHeartbeatMissing core s
  | .relocation region control tiles => Sys2Proof.Machine.execRelocation region control tiles s
  | .createSq h => Sys2Proof.Machine.execCreateSq h s
  | .deleteSq h => Sys2Proof.Machine.execDeleteSq h s
  | .createRing h => Sys2Proof.Machine.execCreateRing h s
  | .deleteRing h => Sys2Proof.Machine.execDeleteRing h s
  | .setEvents h => Sys2Proof.Machine.execSetEvents h s
  | .odRead h => Sys2Proof.Machine.execOdRead h s
  | .odWrite h data => Sys2Proof.Machine.execOdWrite h data s
  | .submit h descriptor prompt => Sys2Proof.Machine.execSubmit h descriptor prompt s
  | .cancel h => Sys2Proof.Machine.execCancel h s
  | .load h stages control manifest => Sys2Proof.Machine.execLoad h stages control manifest s
  | .unload h => Sys2Proof.Machine.execUnload h s
  | .swap h stages control manifest => Sys2Proof.Machine.execSwap h stages control manifest s
  | .relocate h list => Sys2Proof.Machine.execRelocate h list s
  | .window h => Sys2Proof.Machine.execWindow h s
  | .tune h params => Sys2Proof.Machine.execTune h params s
  | .attest h nonce => Sys2Proof.Machine.execAttest h nonce s
  | .calibrate h => Sys2Proof.Machine.execCalibrate h s
  | .vigilArm h => Sys2Proof.Machine.execVigilArm h s
  | .vigilDisarm h => Sys2Proof.Machine.execVigilDisarm h s
  | .counterDump h => Sys2Proof.Machine.execCounterDump h s
  | .fwWrite h image => Sys2Proof.Machine.execFwWrite h image s
  | .fwActivate h => Sys2Proof.Machine.execFwActivate h s
  | .sessionOpen h block => Sys2Proof.Machine.execSessionOpen h block s
  | .sessionClose h => Sys2Proof.Machine.execSessionClose h s
  | .keyload h blob => Sys2Proof.Machine.execKeyload h blob s
  | .restartWarm h => Sys2Proof.Machine.execRestartWarm h s
  | .restartCold h => Sys2Proof.Machine.execRestartCold h s
  | .nop h => Sys2Proof.Machine.execNop h s
  | .flit site module b => Sys2Proof.Machine.execFlit site module b s
  | .linkTrained site module rate width posted read => Sys2Proof.Machine.execLinkTrained site module rate width posted read s
  | .moduleDown port reported => Sys2Proof.Machine.execModuleDown port reported s
  | .retrainTimeout site module => Sys2Proof.Machine.execRetrainTimeout site module s
  | .mrdCpl site module hdr data => Sys2Proof.Machine.execMrdCpl site module hdr data s
  | .mrdErr site module head addr => Sys2Proof.Machine.execMrdErr site module head addr s
  | .ewr site module hdr value => Sys2Proof.Machine.execEwr site module hdr value s
  | .erd site module head addr => Sys2Proof.Machine.execErd site module head addr s
  | .sqDoorbell port queue value => Sys2Proof.Machine.execSqDoorbell port queue value s
  | .ringDoorbell port value => Sys2Proof.Machine.execRingDoorbell port value s
  | .adminCommit port => Sys2Proof.Machine.execAdminCommit port s
  | .adminRelease port => Sys2Proof.Machine.execAdminRelease port s
  | .pipelineSlot region => Sys2Proof.Machine.execPipelineSlot region s
  | .frameReturn ctx frames => Sys2Proof.Machine.execFrameReturn ctx frames s
  | .spResult region ctx sequence result => Sys2Proof.Machine.execSpResult region ctx sequence result s
  | .blockClose ctx block => Sys2Proof.Machine.execBlockClose ctx block s
  | .int4Compaction core slot => Sys2Proof.Machine.execInt4Compaction core slot s
  | .park ctx => Sys2Proof.Machine.execPark ctx s
  | .deadlinePassed ctx => Sys2Proof.Machine.execDeadlinePassed ctx s
  | .shardArrival region shard data => Sys2Proof.Machine.execShardArrival region shard data s
  | .shardReadback region shard => Sys2Proof.Machine.execShardReadback region shard s
  | .swapBarrierClosed region => Sys2Proof.Machine.execSwapBarrierClosed region s
  | .drainDeadline region => Sys2Proof.Machine.execDrainDeadline region s
  | .swapActivate region control => Sys2Proof.Machine.execSwapActivate region control s
  | .swapGroupTimeout region => Sys2Proof.Machine.execSwapGroupTimeout region s
  | .rebind region control => Sys2Proof.Machine.execRebind region control s
  | .ageTick => Sys2Proof.Machine.execAgeTick s
  | .sentinelForce core set => Sys2Proof.Machine.execSentinelForce core set s
  | .intercalarySlot core set => Sys2Proof.Machine.execIntercalarySlot core set s
  | .upkeepSliceEnd core set => Sys2Proof.Machine.execUpkeepSliceEnd core set s
  | .dozeEntry g => Sys2Proof.Machine.execDozeEntry g s
  | .darkEntry g => Sys2Proof.Machine.execDarkEntry g s
  | .wakeRequest look reason => Sys2Proof.Machine.execWakeRequest look reason s
  | .neighbourRecheck look => Sys2Proof.Machine.execNeighbourRecheck look s
  | .wakeWaitLimit g => Sys2Proof.Machine.execWakeWaitLimit g s
  | .regionWake g => Sys2Proof.Machine.execRegionWake g s
  | .wakePgTimeout g => Sys2Proof.Machine.execWakePgTimeout g s
  | .regionLost g cause status => Sys2Proof.Machine.execRegionLost g cause status s
  | .retry w g value => Sys2Proof.Machine.execRetry w g value s
  | .retryPgTimeout g => Sys2Proof.Machine.execRetryPgTimeout g s
  | .arrayRailLost => Sys2Proof.Machine.execArrayRailLost s
  | .auxRailLost => Sys2Proof.Machine.execAuxRailLost s
  | .auxHoldLimit => Sys2Proof.Machine.execAuxHoldLimit s
  | .auxRailReturn => Sys2Proof.Machine.execAuxRailReturn s
  | .optRailLost => Sys2Proof.Machine.execOptRailLost s
  | .optRailReturn => Sys2Proof.Machine.execOptRailReturn s
  | .telemetry pages => Sys2Proof.Machine.execTelemetry pages s
  | .powerUpdate samples => Sys2Proof.Machine.execPowerUpdate samples s
  | .gateUpdate => Sys2Proof.Machine.execGateUpdate s
  | .thermalCapUpdate => Sys2Proof.Machine.execThermalCapUpdate s
  | .diodeSample readings => Sys2Proof.Machine.execDiodeSample readings s
  | .pairFault g => Sys2Proof.Machine.execPairFault g s
  | .trayRead sample => Sys2Proof.Machine.execTrayRead sample s
  | .trayStale => Sys2Proof.Machine.execTrayStale s
  | .trayLost => Sys2Proof.Machine.execTrayLost s
  | .holdEnd => Sys2Proof.Machine.execHoldEnd s
  | .holdLimit => Sys2Proof.Machine.execHoldLimit s
  | .hardwareTrip g => Sys2Proof.Machine.execHardwareTrip g s
  | .coldStartRequest w value => Sys2Proof.Machine.execColdStartRequest w value s
  | .coldStart inputs => Sys2Proof.Machine.execColdStart inputs s
  | .warmStart inputs => Sys2Proof.Machine.execWarmStart inputs s
  | .recoveryStart inputs => Sys2Proof.Machine.execRecoveryStart inputs s
  | .startComplete => Sys2Proof.Machine.execStartComplete s
  | .startFailed step => Sys2Proof.Machine.execStartFailed step s
  | .managementWatchdog => Sys2Proof.Machine.execManagementWatchdog s
  | .lowerTreeBuilt => Sys2Proof.Machine.execLowerTreeBuilt s
  | .blockSave block aOk bOk => Sys2Proof.Machine.execBlockSave block aOk bOk s
  | .shadowWrite w index sub value => Sys2Proof.Machine.execShadowWrite w index sub value s
  | .shadowDiscard w index => Sys2Proof.Machine.execShadowDiscard w index s
  | .shadowTimeout w index => Sys2Proof.Machine.execShadowTimeout w index s
  | .regionCommit w region => Sys2Proof.Machine.execRegionCommit w region s
  | .regionRelease w region => Sys2Proof.Machine.execRegionRelease w region s
  | .segmentCommit w => Sys2Proof.Machine.execSegmentCommit w s
  | .scopeCommit w => Sys2Proof.Machine.execScopeCommit w s
  | .watchArm w watch => Sys2Proof.Machine.execWatchArm w watch s
  | .watchDisarm w watch => Sys2Proof.Machine.execWatchDisarm w watch s
  | .clearWarnings w mask => Sys2Proof.Machine.execClearWarnings w mask s
  | .flush w value => Sys2Proof.Machine.execFlush w value s
  | .restoreDefaults w key => Sys2Proof.Machine.execRestoreDefaults w key s
  | .clearFallback w value => Sys2Proof.Machine.execClearFallback w value s
  | .flushPrefix w region => Sys2Proof.Machine.execFlushPrefix w region s
  | .clearPairFault w g value => Sys2Proof.Machine.execClearPairFault w g value s
  | .clearFlags w mask => Sys2Proof.Machine.execClearFlags w mask s
  | .clearOverflow w value => Sys2Proof.Machine.execClearOverflow w value s
  | .sillageMark w value => Sys2Proof.Machine.execSillageMark w value s
  | .restore w site value => Sys2Proof.Machine.execRestore w site value s
  | .custodyEnable w value => Sys2Proof.Machine.execCustodyEnable w value s
  | .read f => Sys2Proof.Machine.execRead f s
  | .write f => Sys2Proof.Machine.execWrite f s
  | .ident f => Sys2Proof.Machine.execIdent f s
  | .identHoldoff peer => Sys2Proof.Machine.execIdentHoldoff peer s
  | .openPart f => Sys2Proof.Machine.execOpenPart f s
  | .openPartTimeout peer => Sys2Proof.Machine.execOpenPartTimeout peer s
  | .close f => Sys2Proof.Machine.execClose f s
  | .fwPart f => Sys2Proof.Machine.execFwPart f s
  | .fwCommit f => Sys2Proof.Machine.execFwCommit f s
  | .fwTransferTimeout peer => Sys2Proof.Machine.execFwTransferTimeout peer s
  | .txAbandon => Sys2Proof.Machine.execTxAbandon s
  | .plcaFallback beacon => Sys2Proof.Machine.execPlcaFallback beacon s
  | .sessionIdle session => Sys2Proof.Machine.execSessionIdle session s
  | .data port f => Sys2Proof.Machine.execData port f s
  | .wack port f => Sys2Proof.Machine.execWack port f s
  | .result port f => Sys2Proof.Machine.execResult port f s
  | .ack port f => Sys2Proof.Machine.execAck port f s
  | .hello port f => Sys2Proof.Machine.execHello port f s
  | .helloPeriod => Sys2Proof.Machine.execHelloPeriod s
  | .almanacExchange => Sys2Proof.Machine.execAlmanacExchange s
  | .almanacRequest port f => Sys2Proof.Machine.execAlmanacRequest port f s
  | .almanacReply port f t4 => Sys2Proof.Machine.execAlmanacReply port f t4 s
  | .bound port f => Sys2Proof.Machine.execBound port f s
  | .activate port f => Sys2Proof.Machine.execActivate port f s
  | .swapVerified port f => Sys2Proof.Machine.execSwapVerified port f s
  | .swapRewrite port f => Sys2Proof.Machine.execSwapRewrite port f s
  | .swapRewritten port f => Sys2Proof.Machine.execSwapRewritten port f s
  | .swapSwitch port f => Sys2Proof.Machine.execSwapSwitch port f s
  | .swapSwitched port f => Sys2Proof.Machine.execSwapSwitched port f s
  | .swapRollback port f => Sys2Proof.Machine.execSwapRollback port f s
  | .controlFault port f => Sys2Proof.Machine.execControlFault port f s
  | .flushStop port f => Sys2Proof.Machine.execFlushStop port f s
  | .flushRestart port f => Sys2Proof.Machine.execFlushRestart port f s
  | .flushed port f => Sys2Proof.Machine.execFlushed port f s
  | .rejected port f => Sys2Proof.Machine.execRejected port f s
  | .replayTimeout port peer => Sys2Proof.Machine.execReplayTimeout port peer s
  | .peerUnreachable peer => Sys2Proof.Machine.execPeerUnreachable peer s
  | .portDown port reason => Sys2Proof.Machine.execPortDown port reason s
  | .portRetrain port trained => Sys2Proof.Machine.execPortRetrain port trained s
  | .snapshot ring => Sys2Proof.Machine.execSnapshot ring s
  | .watchDump core op => Sys2Proof.Machine.execWatchDump core op s
  | .handleProgressTimeout h => Sys2Proof.Machine.execHandleProgressTimeout h s
  | .vigilDump region => Sys2Proof.Machine.execVigilDump region s
  | .periodicMark => Sys2Proof.Machine.execPeriodicMark s
  | .operationTakesEffect core eng => Sys2Proof.Machine.execOperationTakesEffect core eng s
  | .undefinedOpcode p slot opcode => Sys2Proof.Machine.execUndefinedOpcode p slot opcode s
  | .stepLeavesImage region sequence => Sys2Proof.Machine.execStepLeavesImage region sequence s
  | .arrayProgrammed core array failed => Sys2Proof.Machine.execArrayProgrammed core array failed s
  | .aonRailLost => Sys2Proof.Machine.execAonRailLost s
  | .managementMemoryError => Sys2Proof.Machine.execManagementMemoryError s
  | .gateWindow => Sys2Proof.Machine.execGateWindow s
  | .ackDelay port peer => Sys2Proof.Machine.execAckDelay port peer s
  | .transmitOpportunity collided => Sys2Proof.Machine.execTransmitOpportunity collided s
  | .plcaCollisionQuiet => Sys2Proof.Machine.execPlcaCollisionQuiet s
  | .irqIntervalExpiry ring => Sys2Proof.Machine.execIrqIntervalExpiry ring s
  | .linkL1Entry site module => Sys2Proof.Machine.execLinkL1Entry site module s
  | .attestSigned => Sys2Proof.Machine.execAttestSigned s

end Sys2Proof.Machine
end

