-- ==== Sys2Proof/Machine/Idle.lean ====
section
/-!
DEFINITION. What passes when no command waits: one nanosecond of engine time and of Almanac time (R625), the latter slewed by
at most 50 parts per million while an offset of 1 ns or more, kept in 1/8 ns, remains (R610); and a record of the Sillage stream's buffer leaves.
-/
namespace Sys2Proof.Machine

/-- The Almanac's extra step in this nanosecond: 1 in 20,000 while slewing (R610). -/
def slewStep (s : State) : Int :=
  if s.now % 20000 = 0 then (if 8 ≤ s.fabric.slew then 1 else if s.fabric.slew ≤ -8 then -1 else 0) else 0

/-- The Sillage port sends a record about every 2 ns while it is enabled (R637, R639). -/
def sendSillage (s : State) : State :=
  match s.observe.sillage with
  | r :: rest =>
    if s.now % 2 = 0 ∧ s.setting 0x9300 5 1 = 1 then State.emit { s with observe := { s.observe with sillage := rest } } (.sillage r r.bytes) else s
  | [] => s

/-- One nanosecond passes. -/
def idleTick (s : State) : State :=
  let s := sendSillage s
  let d := slewStep s
  { s with now := s.now + 1, almanac := s.almanac + 1 + BitVec.ofInt 64 d, fabric := { s.fabric with slew := s.fabric.slew - 8 * d } }

end Sys2Proof.Machine
end

