-- ==== Sys2Proof/Safety.lean ====
section
/-!
DEFINITION. What counts as a safe run, and the terms that the statements use: no step stops, the memories keep their one canonical
form, register s0 holds zero; the core as a slot of its next bundle finds it; two states that differ in one core only.
-/
namespace Sys2Proof.Safety
open Sys2Proof.Machine

/-- A step went on. -/
def goesOn (o : Host.Outcome State Fault Refusal) : Prop := ∃ t, o = .next t

/-- Every core's scratchpad is in canonical form (R140: an unlisted byte reads as 0). -/
def memOk (s : State) : Prop := ∀ c, Memory.wf (s.core c).mem

/-- Scalar register s0 of every core holds zero, in the bundle in issue too (R162). -/
def zeroOk (s : State) : Prop :=
  ∀ c, (s.core c).seq.regs[0] = 0 ∧ ∀ b, (s.core c).bundle = some b → b.pre.regs[0] = 0

/-- The tables that a removal reads keep their keys rising, so that a removed entry is gone. -/
def tablesOk (s : State) : Prop :=
  Tbl.wf s.regions ∧ Tbl.wf s.serving.ctxs ∧ Tbl.wf s.host.sqs ∧ Tbl.wf s.host.rings ∧ Tbl.wf s.host.reads ∧ Tbl.wf s.host.writes ∧ Tbl.wf s.host.handles ∧
  Tbl.wf s.od.vals ∧ Tbl.wf s.od.pending ∧ Tbl.wf s.boot.sessions ∧ Tbl.wf s.observe.dumps ∧ Tbl.wf s.fabric.ports ∧
  (∀ n, Tbl.wf (s.region n).windows) ∧ (∀ p, Tbl.wf (s.port p).chans) ∧
  ∀ c, Tbl.wf (s.core c).acc ∧ Tbl.wf (s.core c).active

/-- The core can issue, and no uncorrectable word stands in its program window (R139, R165). -/
abbrev ready (s : State) (c : Nat) : Prop :=
  (s.core c).canIssue = true ∧ ∀ w ∈ (s.core c).badWords, ¬ (0x4E000 ≤ w ∧ w < 0x50000)

/-- The core as a slot of its next bundle, or of the bundle in issue, finds it (R169). -/
def entered (s : State) (c slot : Nat) : Core := (s.core c).enter slot s.now

/-- The command answers a next state of which a property holds. -/
def answers (c : Instr) (s : State) (p : State → Prop) : Prop := ∃ t, exec c s = .next t ∧ p t

/-- The router at a flight's destination takes it in at once: it is no hole, its core's power region is awake, and the packet has neither
waited nor come with damage. -/
abbrev landsAtOnce (s : State) (f : Flight) : Prop :=
  f.loc = f.pkt.dest ∧ isHole s f.loc = false ∧ coreWaits (s.preg (powerOf f.loc)) = false ∧ f.dozeFrom = none ∧
  f.pkt.badHead = false ∧ f.pkt.badFrom = none ∧ f.pkt.poison = none

/-- The state differs from another in core c only. -/
def onlyCore (s t : State) (c : Nat) : Prop := ∃ k, t = s.setCore c k

/-- What the engines of a core work on is as it was: scratchpad, accumulators and their status, arrays, array sets, queues,
operations in progress, router. -/
def sameData (k k' : Core) : Prop :=
  k'.mem = k.mem ∧ k'.acc = k.acc ∧ k'.accStat = k.accStat ∧ k'.badWords = k.badWords ∧ k'.arrays = k.arrays ∧ k'.sets = k.sets ∧
  k'.oqs = k.oqs ∧ k'.iqs = k.iqs ∧ k'.awaits = k.awaits ∧ k'.holds = k.holds ∧ k'.active = k.active ∧ k'.ae = k.ae ∧
  k'.router = k.router ∧ k'.prog = k.prog ∧ k'.fence = k.fence ∧ k'.report = k.report ∧ k'.run = k.run

/-- The step a core is in is as it was: kind, request, budget, set mask limit, phases, dispatch queues, signal buffer. -/
def sameStep (q q' : Seq) : Prop :=
  q'.stepKind = q.stepKind ∧ q'.stepReq = q.stepReq ∧ q'.stepNum = q.stepNum ∧ q'.stepFrom = q.stepFrom ∧ q'.stepAcc = q.stepAcc ∧
  q'.maxSets = q.maxSets ∧ q'.budget = q.budget ∧ q'.phaseLim = q.phaseLim ∧ q'.phases = q.phases ∧ q'.older = q.older ∧
  q'.entered = q.entered

/-- The dispatch queues and the signal buffer of a core are as they were. -/
def sameQueues (q q' : Seq) : Prop := q'.queued = q.queued ∧ q'.opNum = q.opNum ∧ q'.sigBuf = q.sigBuf

end Sys2Proof.Safety
end

