-- ==== Sys2Proof/Certificates/Slice0/Obligations.lean ====
section
/-!
DEFINITION. The statements about the model for the provers.
-/
open Sys2Proof Sys2Proof.Machine Sys2Proof.Safety

/-! ## The block -/

/-- Step takes the command at the front of the queue and runs it on the state with the queue's rest (log 1); on an empty queue one
nanosecond of engine time passes, and nothing stops (log 2: the model's choice). -/
def Obligations.StepRunsFront : Prop :=
  (∀ (c : Instr) (s : State), step { s with pending := c :: s.pending } = exec c s) ∧
  ∀ s : State, s.pending = [] → ∃ t, step s = .next t ∧ t.now = s.now + 1 ∧ t.pending = [] ∧ t.cores = s.cores ∧
    t.regions = s.regions ∧ t.boot = s.boot

/-! ## The scalar slot (R162, R163, R169, R171, R173) -/

/-- The register instructions write to rd what R171 says of the registers as they stood before the bundle (R169); s0 stays zero.
Each of these is shown to answer a next state under the conditions of its clause: add, sub, and, or, xor, shl, shr, sra, mul, slt, sltu,
addi, andi, ori, xori, shli, shri, srai, lui. -/
def Obligations.ScalarResults : Prop :=
  ∀ (s : State) (p : Place) (rd rs1 rs2 : BitVec 5) (imm : BitVec 14) (imm19 : BitVec 19),
    ready s p.core → p.rsv = false →
    let x := (entered s p.core 0).pre.reg rs1
    let y := (entered s p.core 0).pre.reg rs2
    let i : W32 := imm.signExtend 32
    let gives (c : Instr) (v : W32) : Prop := answers c s fun t => (t.core p.core).seq.reg rd = if rd = 0 then 0 else v
    gives (.add p rd rs1 rs2) (BitVec.ofNat 32 (x.toNat + y.toNat)) ∧
    gives (.sub p rd rs1 rs2) (BitVec.ofInt 32 (x.toInt - y.toInt)) ∧
    gives (.and p rd rs1 rs2) (x &&& y) ∧
    gives (.or p rd rs1 rs2) (x ||| y) ∧
    gives (.xor p rd rs1 rs2) (x ^^^ y) ∧
    gives (.shl p rd rs1 rs2) (BitVec.ofNat 32 (x.toNat * 2 ^ (y.toNat % 32))) ∧
    gives (.shr p rd rs1 rs2) (BitVec.ofNat 32 (x.toNat / 2 ^ (y.toNat % 32))) ∧
    gives (.sra p rd rs1 rs2) (BitVec.ofInt 32 (x.toInt / 2 ^ (y.toNat % 32))) ∧
    gives (.mul p rd rs1 rs2) (BitVec.ofNat 32 (x.toNat * y.toNat)) ∧
    gives (.slt p rd rs1 rs2) (if x.toInt < y.toInt then 1 else 0) ∧
    gives (.sltu p rd rs1 rs2) (if x.toNat < y.toNat then 1 else 0) ∧
    gives (.addi p rd rs1 imm) (BitVec.ofInt 32 (x.toInt + imm.toInt)) ∧
    gives (.andi p rd rs1 imm) (x &&& i) ∧
    gives (.ori p rd rs1 imm) (x ||| i) ∧
    gives (.xori p rd rs1 imm) (x ^^^ i) ∧
    gives (.shli p rd rs1 imm) (BitVec.ofNat 32 (x.toNat * 2 ^ (imm.toNat % 32))) ∧
    gives (.shri p rd rs1 imm) (BitVec.ofNat 32 (x.toNat / 2 ^ (imm.toNat % 32))) ∧
    gives (.srai p rd rs1 imm) (BitVec.ofInt 32 (x.toInt / 2 ^ (imm.toNat % 32))) ∧
    gives (.lui p rd imm19) (BitVec.ofNat 32 (imm19.toNat * 2 ^ 13))

/-- The register instructions change no scalar register but rd, no descriptor register, not ASR, nothing of the step, of the queues or
of what the engines of the core work on, and nothing outside their core. -/
def Obligations.ScalarFrame : Prop :=
  ∀ (s : State) (p : Place) (rd rs1 rs2 : BitVec 5) (imm : BitVec 14) (imm19 : BitVec 19),
    ready s p.core → p.rsv = false →
    ∀ c ∈ [Instr.add p rd rs1 rs2, .sub p rd rs1 rs2, .and p rd rs1 rs2, .or p rd rs1 rs2, .xor p rd rs1 rs2, .shl p rd rs1 rs2,
        .shr p rd rs1 rs2, .sra p rd rs1 rs2, .mul p rd rs1 rs2, .slt p rd rs1 rs2, .sltu p rd rs1 rs2, .addi p rd rs1 imm,
        .andi p rd rs1 imm, .ori p rd rs1 imm, .xori p rd rs1 imm, .shli p rd rs1 imm, .shri p rd rs1 imm, .srai p rd rs1 imm,
        .lui p rd imm19],
      ∀ t, exec c s = .next t →
        onlyCore s t p.core ∧ sameData (s.core p.core) (t.core p.core) ∧ sameStep (s.core p.core).seq (t.core p.core).seq ∧
        sameQueues (s.core p.core).seq (t.core p.core).seq ∧ (t.core p.core).seq.asr = (s.core p.core).seq.asr ∧
        (∀ r, r ≠ rd → (t.core p.core).seq.reg r = (s.core p.core).seq.reg r) ∧
        ∀ d, (t.core p.core).seq.desc d = (s.core p.core).seq.desc d

/-- A taken branch, a jump and JR make their target the next bundle; a branch not taken falls through, and so does the last bundle of
no loop; JAL writes the number of the next bundle to rd (R171, R174).
Each of these is shown to answer a next state under the conditions of its clause: beq, bne, blt, bge, bltu, bgeu, jmp, jal, jr. -/
def Obligations.Branches : Prop :=
  ∀ (s : State) (p : Place) (rd rs1 rs2 : BitVec 5) (off : BitVec 14),
    ready s p.core → p.rsv = false → p.last = true →
    let k := entered s p.core 0
    let x := k.pre.reg rs1
    let y := k.pre.reg rs2
    let pc := k.seq.pc
    let dest : BitVec 12 := BitVec.ofInt 12 (pc.toNat + off.toInt)
    let goes (c : Instr) (taken : Prop) (a : BitVec 12) : Prop := answers c s fun t =>
      (taken → (t.core p.core).seq.pc = a) ∧
      (¬ taken → (∀ l ∈ k.seq.loops, l.last ≠ pc.toNat) → (t.core p.core).seq.pc = pc + 1)
    goes (.beq p rs1 rs2 off) (x = y) dest ∧
    goes (.bne p rs1 rs2 off) (x ≠ y) dest ∧
    goes (.blt p rs1 rs2 off) (x.toInt < y.toInt) dest ∧
    goes (.bge p rs1 rs2 off) (y.toInt ≤ x.toInt) dest ∧
    goes (.bltu p rs1 rs2 off) (x.toNat < y.toNat) dest ∧
    goes (.bgeu p rs1 rs2 off) (y.toNat ≤ x.toNat) dest ∧
    goes (.jmp p 0 0 off) True dest ∧
    (answers (.jal p rd off) s fun t => (t.core p.core).seq.pc = dest ∧
      (t.core p.core).seq.reg rd = if rd = 0 then 0 else BitVec.ofNat 32 ((pc.toNat + 1) % 4096)) ∧
    goes (.jr p rs1) True (BitVec.ofNat 12 x.toNat)

/-- A branch, jump, LOOP, CSRR, CSRW, CIM.ASEL, DADDR, DADDC or a slot NOP changes nothing outside its core and nothing of what the
engines work on, and no register that R171 does not name for it. -/
def Obligations.ControlFrame : Prop :=
  ∀ (s : State) (p : Place) (rd rs1 rs2 : BitVec 5) (off : BitVec 14) (d : BitVec 4) (mask : BitVec 8) (slot : BitVec 2),
    ready s p.core →
    ∀ c ∈ [Instr.beq p rs1 rs2 off, .bne p rs1 rs2 off, .blt p rs1 rs2 off, .bge p rs1 rs2 off, .bltu p rs1 rs2 off,
        .bgeu p rs1 rs2 off, .jmp p rs1 rs2 off, .jal p rd off, .jr p rs1, .loop p rs1 off, .csrr p rd off, .csrw p rs1 off,
        .cimAsel p mask, .daddr p d rs1, .daddc p d rs1, .slotNop p slot],
      ∀ t, exec c s = .next t → (t.core p.core).run = .issuing →
        onlyCore s t p.core ∧ sameData (s.core p.core) (t.core p.core) ∧ sameStep (s.core p.core).seq (t.core p.core).seq ∧
        sameQueues (s.core p.core).seq (t.core p.core).seq ∧
        (∀ r, r ≠ rd ∨ (c ≠ .jal p rd off ∧ c ≠ .csrr p rd off) → (t.core p.core).seq.reg r = (s.core p.core).seq.reg r) ∧
        (∀ e, e ≠ d ∨ (c ≠ .daddr p d rs1 ∧ c ≠ .daddc p d rs1) → (t.core p.core).seq.desc e = (s.core p.core).seq.desc e) ∧
        (c ≠ .csrw p rs1 off → c ≠ .cimAsel p mask → (t.core p.core).seq.asr = (s.core p.core).seq.asr)

/-- LOOP with a count of at least 1 opens a loop over the bundles PC + 1 to PC + off14, and a count of 0 skips its body; the last
bundle of a body goes back to its first while counts remain (R173).
Each of these is shown to answer a next state under the conditions of its clause: loop, slotNop. -/
def Obligations.Loops : Prop :=
  (∀ (s : State) (p : Place) (rs1 : BitVec 5) (off : BitVec 14),
    ready s p.core → p.rsv = false →
    let k := entered s p.core 0
    1 ≤ off.toInt → k.seq.pc.toNat + off.toInt.toNat < k.prog.bundles → k.seq.loops.length < 2 → p.last = false →
    answers (.loop p rs1 off) s fun t =>
      ((k.pre.reg rs1).toNat = 0 → (t.core p.core).seq.loops = k.seq.loops ∧
        (t.core p.core).seq.next = BitVec.ofNat 12 (k.seq.pc.toNat + off.toInt.toNat + 1)) ∧
      ((k.pre.reg rs1).toNat ≠ 0 → (t.core p.core).seq.loops =
        ⟨k.seq.pc.toNat + 1, k.seq.pc.toNat + off.toInt.toNat, (k.pre.reg rs1).toNat⟩ :: k.seq.loops)) ∧
  ∀ (s : State) (p : Place) (slot : BitVec 2) (l : LoopCtr) (ls : List LoopCtr),
    ready s p.core → p.rsv = false → p.last = true → (s.core p.core).bundle = none →
    (s.core p.core).seq.loops = l :: ls → (s.core p.core).seq.pc.toNat = l.last → 1 < l.remaining → l.first < 4096 →
    answers (.slotNop p slot) s fun t =>
      (t.core p.core).seq.pc.toNat = l.first ∧ (t.core p.core).seq.loops = { l with remaining := l.remaining - 1 } :: ls

/-- An instruction whose opcode is not in the table, the MSQ-1 opcodes 0x24 to 0x26 among them, or that sets a reserved bit, fails the
encoding check: the core stops with cause 1 and the registers of the bundle stand as before it; a scalar access out of range or misaligned,
and a store to the program window, fails the scratchpad bounds check with cause 2 and the address (R165, R171, R175, R205, R206).
Each of these is shown to answer a next state under the conditions of its clause: undefinedOpcode. -/
def Obligations.IssueChecks : Prop :=
  ∀ (s : State) (p : Place) (slot : BitVec 2) (opcode : Byte), ready s p.core → (s.core p.core).active = [] →
    (answers (.undefinedOpcode p slot opcode) s fun t => (t.core p.core).run = .stopped ∧
      (∃ r, (t.core p.core).report = some r ∧ r.cause = 1 ∧ r.aux0 = opcode.toNat ∧ r.slot = slot.toNat) ∧
      (t.core p.core).seq.regs = (entered s p.core slot.toNat).pre.regs ∧ (t.core p.core).seq.queued = []) ∧
    ∀ (rd rs1 rs2 : BitVec 5) (imm : BitVec 14),
      (p.rsv = true → answers (.add p rd rs1 rs2) s fun t => (t.core p.core).run = .stopped ∧
        (∃ r, (t.core p.core).report = some r ∧ r.cause = 1 ∧ r.aux0 = 1) ∧
        (t.core p.core).seq.regs = (entered s p.core 0).pre.regs) ∧
      (p.rsv = false →
        let a := (scalarAddr (entered s p.core 0) rs1 imm).toNat
        let stops (c : Instr) : Prop := answers c s fun t => (t.core p.core).run = .stopped ∧
          ∃ x, (t.core p.core).report = some x ∧ x.cause = 2 ∧ x.aux0 = a
        (a % 4 ≠ 0 ∨ 2621440 < a + 4 → stops (.ld p rd rs1 imm)) ∧
        (a % 4 ≠ 0 ∨ 2621440 < a + 4 ∨ (0x270000 ≤ a ∧ a < 0x280000) → stops (.st p rd rs1 imm)))

/-- CSRR reads the eight registers of R163 and fails the encoding check for any other number; CSRW writes ASR only, within the step's
MaxSets (R163, R201); CIM.ASEL sets ASR.
Each of these is shown to answer a next state under the conditions of its clause: csrr, csrw, cimAsel. -/
def Obligations.ControlRegisters : Prop :=
  ∀ (s : State) (p : Place) (rd rs1 : BitVec 5) (csr : BitVec 14) (mask : BitVec 8),
    ready s p.core → p.rsv = false →
    let k := entered s p.core 0
    let reads (n : BitVec 14) (v : W32) : Prop := answers (.csrr p rd n) s fun t =>
      (t.core p.core).seq.reg rd = if rd = 0 then 0 else v
    reads 0 (BitVec.ofNat 32 (seqCycles s k)) ∧ reads 1 (BitVec.ofNat 32 (seqCycles s k / 2 ^ 32)) ∧
    reads 2 (BitVec.ofNat 32 (p.core % 128 * 65536 + p.core / 128)) ∧ reads 3 (BitVec.ofNat 32 ((ownerOf s p.core).getD 0)) ∧
    reads 4 (BitVec.ofNat 32 (stepCyc s k)) ∧ reads 5 (BitVec.ofNat 32 k.pre.asr.toNat) ∧
    reads 6 (BitVec.ofNat 32 k.seq.stepKind.toNat) ∧ reads 7 k.seq.stepReq ∧
    (7 < csr.toNat → (s.core p.core).active = [] → answers (.csrr p rd csr) s fun t => (t.core p.core).run = .stopped) ∧
    (csr ≠ 5 → (s.core p.core).active = [] → answers (.csrw p rs1 csr) s fun t => (t.core p.core).run = .stopped) ∧
    (popcount (BitVec.ofNat 8 (k.pre.reg rs1).toNat) ≤ k.seq.maxSets → answers (.csrw p rs1 5) s fun t =>
      (t.core p.core).seq.asr = BitVec.ofNat 8 (k.pre.reg rs1).toNat) ∧
    (popcount mask ≤ k.seq.maxSets → answers (.cimAsel p mask) s fun t => (t.core p.core).seq.asr = mask)

/-- DADDR moves the base row of a descriptor by rs1 modulo its 11 bits and DADDC its base line-column modulo 32; a slot NOP of a bundle
not closed changes nothing but the bundle in issue (R168, R171, R176).
Each of these is shown to answer a next state under the conditions of its clause: daddr, daddc, slotNop. -/
def Obligations.DescriptorMoves : Prop :=
  ∀ (s : State) (p : Place) (d : BitVec 4) (rs1 : BitVec 5) (slot : BitVec 2),
    ready s p.core → p.rsv = false →
    let k := entered s p.core 0
    let w := walkOf (k.pre.desc d)
    (answers (.daddr p d rs1) s fun t => walkOf ((t.core p.core).seq.desc d) =
      { w with row := (w.row + (k.pre.reg rs1).toNat) % 2048 }) ∧
    (answers (.daddc p d rs1) s fun t => walkOf ((t.core p.core).seq.desc d) =
      { w with col := (w.col + (k.pre.reg rs1).toNat) % 32 }) ∧
    (p.last = false → answers (.slotNop p slot) s fun t => t.core p.core = entered s p.core slot.toNat)

/-! ## Scalar accesses (R138, R159, R165, R171) -/

/-- The loads and stores read and write the bytes at their address, least significant first (R8), when it is aligned and in range and no
earlier operation or uncorrectable word is in the way; LD64 and ST64 reach the accumulator entries too (R159); a bundle with an
uncorrectable word faults the step with cause 15 when it is fetched (R139: log 160, the model's reading).
Each of these is shown to answer a next state under the conditions of its clause: ld, st, ld64, st64, dld, dst. -/
def Obligations.LoadsStores : Prop :=
  ∀ (s : State) (p : Place) (r rs1 : BitVec 5) (d : BitVec 4) (imm : BitVec 14) (imm15 : BitVec 15),
    ready s p.core → p.rsv = false → memOk s →
    let k := entered s p.core 0
    let a := (BitVec.ofInt 32 ((k.pre.reg rs1).toInt + imm.toInt)).toNat
    let b := (BitVec.ofInt 32 ((k.pre.reg rs1).toInt + 16 * imm15.toInt)).toNat
    let free (at_ n : Nat) (w : Bool) : Prop := feetMeet [footAddr at_ n w] (k.pendingFeet k.seq.opNum) = false ∧ k.badWords = []
    (a % 4 = 0 → a + 4 ≤ 2621440 → free a 4 false → answers (.ld p r rs1 imm) s fun t =>
      (t.core p.core).seq.reg r = if r = 0 then 0 else BitVec.ofNat 32 (leNat (k.mem.read a 4))) ∧
    (a % 4 = 0 → a + 4 ≤ 0x270000 ∨ (0x280000 ≤ a ∧ a + 4 ≤ 2621440) → free a 4 true → answers (.st p r rs1 imm) s fun t =>
      (t.core p.core).mem.read a 4 = leBytes 4 (k.pre.reg r).toNat) ∧
    (a % 8 = 0 → a + 8 ≤ 2621440 → r.toNat % 2 = 0 → free a 8 false → answers (.ld64 p r rs1 imm) s fun t =>
      (r ≠ 0 → (t.core p.core).seq.reg r = BitVec.ofNat 32 (leNat (k.mem.read a 8))) ∧
      (t.core p.core).seq.reg (r + 1) = BitVec.ofNat 32 (leNat (k.mem.read a 8) / 2 ^ 32)) ∧
    (a % 8 = 0 → 0x3F0000 ≤ a → a + 8 ≤ 0x400000 → r.toNat % 2 = 0 → free a 8 false → answers (.ld64 p r rs1 imm) s fun t =>
      let v := k.accGet ((a - 0x3F0000) / 4096) ((a - 0x3F0000) / 8 % 512)
      (r ≠ 0 → (t.core p.core).seq.reg r = BitVec.ofNat 32 v.toNat) ∧
      (t.core p.core).seq.reg (r + 1) = BitVec.ofNat 32 (v.toNat / 2 ^ 32)) ∧
    (a % 8 = 0 → a + 8 ≤ 0x270000 ∨ (0x280000 ≤ a ∧ a + 8 ≤ 2621440) → r.toNat % 2 = 0 → free a 8 true →
      answers (.st64 p r rs1 imm) s fun t =>
        (t.core p.core).mem.read a 8 = leBytes 8 ((k.pre.reg r).toNat + 2 ^ 32 * (k.pre.reg (r + 1)).toNat)) ∧
    (a % 8 = 0 → 0x3F0000 ≤ a → a + 8 ≤ 0x400000 → r.toNat % 2 = 0 → free a 8 true → answers (.st64 p r rs1 imm) s fun t =>
      Tbl.wf k.acc → ((t.core p.core).accGet ((a - 0x3F0000) / 4096) ((a - 0x3F0000) / 8 % 512)).toNat =
        (k.pre.reg r).toNat + 2 ^ 32 * (k.pre.reg (r + 1)).toNat) ∧
    (b % 16 = 0 → b + 16 ≤ 2621440 → free b 16 false → answers (.dld p d rs1 imm15) s fun t =>
      (t.core p.core).seq.desc d = BitVec.ofNat 128 (leNat (k.mem.read b 16) / 2 ^ 51 * 2 ^ 51)) ∧
    (b % 16 = 0 → b + 16 ≤ 0x270000 ∨ (0x280000 ≤ b ∧ b + 16 ≤ 2621440) → free b 16 true → answers (.dst p d rs1 imm15) s fun t =>
      (t.core p.core).mem.read b 16 = leBytes 16 (k.pre.desc d).toNat) ∧
    ∀ (u : State) (w : Nat), (u.core p.core).canIssue = true → (u.core p.core).bundle = none → (u.core p.core).active = [] →
      w ∈ (u.core p.core).badWords → w / 2 = 0x27000 + (u.core p.core).seq.pc.toNat → answers (.ld p r rs1 imm) u fun t =>
        (t.core p.core).run = .stopped ∧ (t.core p.core).seq.regs = (u.core p.core).seq.regs ∧
        ∃ x, (t.core p.core).report = some x ∧ x.cause = 15 ∧ x.bundle = (u.core p.core).seq.pc.toNat

/-- A load or store that goes on changes, outside its destination register and the bytes at its computed address, no register, no byte
and nothing outside its core. -/
def Obligations.LoadStoreFrame : Prop :=
  ∀ (s : State) (p : Place) (r rs1 : BitVec 5) (d : BitVec 4) (imm : BitVec 14) (imm15 : BitVec 15),
    ready s p.core →
    let k := entered s p.core 0
    let kept (c : Instr) (reg : BitVec 5 → Prop) (desc : BitVec 4 → Prop) (lo hi : Nat) : Prop := ∀ t, exec c s = .next t →
      (t.core p.core).run = .issuing →
      onlyCore s t p.core ∧ sameStep (s.core p.core).seq (t.core p.core).seq ∧ sameQueues (s.core p.core).seq (t.core p.core).seq ∧
      (t.core p.core).seq.asr = (s.core p.core).seq.asr ∧ (t.core p.core).active = (s.core p.core).active ∧
      (∀ i, ¬ reg i → (t.core p.core).seq.reg i = (s.core p.core).seq.reg i) ∧
      (∀ e, ¬ desc e → (t.core p.core).seq.desc e = (s.core p.core).seq.desc e) ∧
      ∀ a, a < lo ∨ hi ≤ a → Memory.get (t.core p.core).mem a = Memory.get (s.core p.core).mem a
    let a := (scalarAddr k rs1 imm).toNat
    let b := (descAddr k rs1 imm15).toNat
    kept (.ld p r rs1 imm) (· = r) (fun _ => False) 0 0 ∧
    kept (.ld64 p r rs1 imm) (fun i => i = r ∨ i = r + 1) (fun _ => False) 0 0 ∧
    kept (.dld p d rs1 imm15) (fun _ => False) (· = d) 0 0 ∧
    kept (.st p r rs1 imm) (fun _ => False) (fun _ => False) a (a + 4) ∧
    kept (.st64 p r rs1 imm) (fun _ => False) (fun _ => False) a (a + 8) ∧
    kept (.dst p d rs1 imm15) (fun _ => False) (fun _ => False) b (b + 16)

/-! ## The dispatch slots (R168 to R170, R178) -/

/-- A dispatch that passes its checks at issue enters the dispatch queue of its engine with the descriptors and registers as they stood
before the bundle, when the queue holds fewer than 4 operations; when it holds 4 the bundle waits at issue and the operation enters once
one has left; DLD, DADDR and DADDC change no operation that has issued (R169, R170, R178).
Each of these is shown to answer a next state under the conditions of its clause: tmCopy, tmFill, shaDigest, veArith, veNorm, veAct,
veFunc, veCvt, accClr, accOut, accAdd, aeQk, aeSm, aePv, spSample, cimEval, cimEvalt, qPush, qPop, rmread, nred. -/
def Obligations.DispatchQueues : Prop :=
  ∀ (s : State) (p : DPlace) (x y z : BitVec 4) (rs : BitVec 5) (func : BitVec 4) (size mode : BitVec 2) (f g : Bool) (a : BitVec 5)
    (q : BitVec 3) (tag : BitVec 7) (id : BitVec 9),
    ready s p.core → p.rsv = false →
    let k := entered s p.core (if p.slotB then 2 else 1)
    let dx := k.pre.desc x
    let dy := k.pre.desc y
    let dz := k.pre.desc z
    let r := k.pre.reg rs
    let enters (c : Instr) (eng : Nat) (op : DOp) : Prop := k.queuedOn eng < 4 → answers c s fun t =>
      ∃ e, (t.core p.core).seq.queued = k.seq.queued ++ [e] ∧ e.op = op ∧ e.eng = eng ∧ e.num = k.seq.opNum ∧
        e.step = k.seq.stepNum ∧ e.req = k.seq.stepReq
    enters (.tmCopy p x y) 0 (.tmCopy dx dy) ∧
    enters (.tmFill p x rs size) 0 (.tmFill dx (k.pre.reg (rs + 1) ++ r) size.toNat) ∧
    enters (.shaDigest p x rs f) 1 (.sha dx r f) ∧
    (func.toNat ≤ 8 → enters (.veArith p x y z func rs) 2 (.veArith dx dy dz func.toNat r)) ∧
    (func.toNat ≤ 3 → enters (.veNorm p x y z func rs) 2 (.veNorm dx dy dz func.toNat r)) ∧
    (func.toNat ≤ 3 → enters (.veAct p x y z func) 2 (.veAct dx dy dz func.toNat)) ∧
    (func.toNat ≤ 3 → enters (.veFunc p x y func) 2 (.veFunc dx dy func.toNat)) ∧
    enters (.veCvt p x y) 2 (.veCvt dx dy) ∧
    enters (.accClr p x) 2 (.accClr x.toNat) ∧
    enters (.accOut p x y rs f z) 2 (.accOut x.toNat dy r f dz) ∧
    enters (.accAdd p x y) 2 (.accAdd x.toNat dy) ∧
    enters (.aeQk p x y z rs) 3 (.aeQk dx dy dz r) ∧
    enters (.aeSm p x y rs) 3 (.aeSm dx dy r) ∧
    enters (.aePv p x y z) 3 (.aePv dx dy dz) ∧
    enters (.spSample p x y rs) 4 (.spSample dx dy r) ∧
    (mode ≠ 3 → k.seq.asr.getLsbD (a.toNat / 4) = true →
      enters (.cimEval p a x y f g mode) (5 + a.toNat / 4) (.cimEval false a.toNat dx y.toNat f g mode.toNat) ∧
      enters (.cimEvalt p a x y f g mode) (5 + a.toNat / 4) (.cimEval true a.toNat dx y.toNat f g mode.toNat)) ∧
    enters (.qPush p q rs) 0 (.qPush q.toNat r) ∧
    enters (.qPop p q x) 0 (.qPop q.toNat dx) ∧
    enters (.rmread p q x y rs tag) 0 (.rmread q.toNat dx dy r tag.toNat) ∧
    (size.toNat ≤ 1 → enters (.nred p q x rs size id) 0 (.nred q.toNat dx r size.toNat id.toNat)) ∧
    (4 ≤ k.queuedOn 0 → answers (.tmCopy p x y) s fun t =>
      (t.core p.core).canIssue = false ∧ (t.core p.core).seq.queued = k.seq.queued ∧
      ∃ e, (t.core p.core).held = some (.queue e) ∧ e.op = .tmCopy dx dy ∧
        ∀ u, (u.core p.core).run = .issuing → (u.core p.core).held = some (.queue e) → (u.core p.core).queuedOn 0 < 4 →
          ((resume u p.core).core p.core).held = none ∧
          ∃ e', ((resume u p.core).core p.core).seq.queued = (u.core p.core).seq.queued ++ [e'] ∧ e'.op = e.op) ∧
    ∀ (pl : Place) (imm15 : BitVec 15), pl.core = p.core → ∀ c ∈ [Instr.dld pl x rs imm15, .daddr pl x rs, .daddc pl x rs],
      ∀ t, exec c s = .next t → (t.core p.core).run = .issuing →
        (t.core p.core).seq.queued = (s.core p.core).seq.queued ∧ (t.core p.core).active = (s.core p.core).active

/-- An evaluation of an array whose set's bit in ASR is clear faults the step with cause 9, while a change of ASR leaves what is queued or
running; one with mode 3 fails the encoding check, and so does a function code or an arithmetic that is not listed (R171, R172, R191,
R202). -/
def Obligations.DispatchChecks : Prop :=
  ∀ (s : State) (p : DPlace) (x y z : BitVec 4) (rs : BitVec 5) (func : BitVec 4) (mode : BitVec 2) (f g : Bool) (a : BitVec 5)
    (q : BitVec 3) (id : BitVec 9),
    ready s p.core → p.rsv = false → (s.core p.core).active = [] →
    let k := entered s p.core (if p.slotB then 2 else 1)
    let stops (c : Instr) (cause : Nat) : Prop := answers c s fun t => (t.core p.core).run = .stopped ∧
      (∃ r, (t.core p.core).report = some r ∧ r.cause = cause) ∧ (t.core p.core).seq.regs = k.pre.regs
    (mode ≠ 3 → k.seq.asr.getLsbD (a.toNat / 4) = false →
      stops (.cimEval p a x y f g mode) 9 ∧ stops (.cimEvalt p a x y f g mode) 9) ∧
    stops (.cimEval p a x y f g 3) 1 ∧ stops (.cimEvalt p a x y f g 3) 1 ∧
    (8 < func.toNat → stops (.veArith p x y z func rs) 1) ∧
    (3 < func.toNat → stops (.veNorm p x y z func rs) 1 ∧ stops (.veAct p x y z func) 1 ∧ stops (.veFunc p x y func) 1) ∧
    (1 < mode.toNat → stops (.nred p q x rs mode id) 1) ∧
    ∀ (pl : Place) (mask : BitVec 8) (u t : State), pl.core = p.core → ready u p.core →
      (exec (.cimAsel pl mask) u = .next t ∨ exec (.csrw pl rs 5) u = .next t) → (t.core p.core).run = .issuing →
      (t.core p.core).seq.queued = (u.core p.core).seq.queued ∧ (t.core p.core).active = (u.core p.core).active

/-- A dispatch that goes on changes nothing but its core's dispatch queue, the number of the next operation and the bundle: no register, no
memory, no accumulator, no other core. -/
def Obligations.DispatchFrame : Prop :=
  ∀ (s : State) (p : DPlace) (x y z : BitVec 4) (rs : BitVec 5) (func : BitVec 4) (size mode : BitVec 2) (f g : Bool) (a : BitVec 5)
    (q : BitVec 3) (tag : BitVec 7) (id : BitVec 9),
    ready s p.core →
    ∀ c ∈ [Instr.tmCopy p x y, .tmFill p x rs size, .shaDigest p x rs f, .veArith p x y z func rs, .veNorm p x y z func rs,
        .veAct p x y z func, .veFunc p x y func, .veCvt p x y, .accClr p x, .accOut p x y rs f z, .accAdd p x y, .aeQk p x y z rs,
        .aeSm p x y rs, .aePv p x y z, .spSample p x y rs, .cimEval p a x y f g mode, .cimEvalt p a x y f g mode, .qPush p q rs,
        .qPop p q x, .rmread p q x y rs tag, .nred p q x rs size id],
      ∀ t, exec c s = .next t → (t.core p.core).run = .issuing →
        onlyCore s t p.core ∧ sameData (s.core p.core) (t.core p.core) ∧ sameStep (s.core p.core).seq (t.core p.core).seq ∧
        (t.core p.core).seq.regs = (s.core p.core).seq.regs ∧ (t.core p.core).seq.descs = (s.core p.core).seq.descs ∧
        (t.core p.core).seq.asr = (s.core p.core).seq.asr ∧ (t.core p.core).seq.sigBuf = (s.core p.core).seq.sigBuf

/-! ## The sync slot (R184, R192 to R204) -/

/-- SYNC.WAIT goes on when (V - t) mod 2^32 lies below 2^31 and holds issue otherwise; SYNC.SIGNAL enters the signal buffer with its
amount; QWAIT goes on at n ready or free entries; FENCE goes on when the selected engines have nothing queued or in progress.
Each of these is shown to answer a next state under the conditions of its clause: syncWait, syncSignal, qwait, fence. -/
def Obligations.SyncSlot : Prop :=
  ∀ (s : State) (p : Place) (idx : BitVec 15) (rs : BitVec 5) (one outb : Bool) (q : BitVec 3) (n : BitVec 6) (mask : BitVec 8),
    ready s p.core → p.rsv = false →
    let k := entered s p.core 3
    let v := (s.sync idx.toNat).value
    let goesOn (c : Instr) : Prop := answers c s fun t => (t.core p.core).held = none ∧ (t.core p.core).run = .issuing
    let holds (c : Instr) (h : Held) : Prop := answers c s fun t => (t.core p.core).held = some h ∧ (t.core p.core).canIssue = false
    (syncCheck s p.core idx.toNat = none → ownsSync s p.core idx.toNat = true →
      ((v.toNat + 2 ^ 32 - (k.pre.reg rs).toNat) % 2 ^ 32 < 2 ^ 31 → goesOn (.syncWait p idx rs)) ∧
      (2 ^ 31 ≤ (v.toNat + 2 ^ 32 - (k.pre.reg rs).toNat) % 2 ^ 32 → holds (.syncWait p idx rs) (.syncWait idx.toNat (k.pre.reg rs)))) ∧
    (syncCheck s p.core idx.toNat = none → k.seq.sigBuf.length < 8 → answers (.syncSignal p idx rs one) s fun t =>
      (t.core p.core).seq.sigBuf = k.seq.sigBuf ++ [⟨idx.toNat, if one then 1 else k.pre.reg rs, k.seq.opNum, (k.seq.pc.toNat, 3)⟩]) ∧
    (syncCheck s p.core idx.toNat = none → 8 ≤ k.seq.sigBuf.length →
      holds (.syncSignal p idx rs one) (.signal idx.toNat (if one then 1 else k.pre.reg rs))) ∧
    (n.toNat ≤ 32 → (if outb then (k.oq q.toNat).length + n.toNat ≤ 32
        else n.toNat ≤ ((k.iq q.toNat).takeWhile (·.filled)).length) → goesOn (.qwait p outb q n)) ∧
    (k.seq.queued = [] → k.active = [] → k.oqs = [] → k.awaits = [] → goesOn (.fence p mask)) ∧
    (mask.getLsbD 2 = true → 0 < k.depth 2 → holds (.fence p mask) (.fence mask))

/-- STEP latches the kind and the request, clears ASR and STEPCYC and takes the limits that the program header declares; a kind it does
not declare faults with cause 9; TAG names the operation that a dispatch slot of its bundle has queued (R199, R201, R204).
Each of these is shown to answer a next state under the conditions of its clause: step, tag. -/
def Obligations.StepAndTag : Prop :=
  ∀ (s : State) (p : Place) (rs : BitVec 5) (kind : W16) (slotB : Bool) (id : BitVec 20),
    ready s p.core → p.rsv = false →
    let k := entered s p.core 3
    (∀ d, (k.prog.kinds.find? fun d => d.kind = kind.toNat) = some d → d.maxSets ≤ (s.region ((ownerOf s p.core).getD 0)).setCap →
      answers (.step p rs kind) s fun t =>
        let q := (t.core p.core).seq
        q.stepKind = kind ∧ q.stepReq = k.pre.reg rs ∧ q.asr = 0 ∧ q.stepAcc = 0 ∧ q.stepFrom = s.now ∧ q.maxSets = d.maxSets ∧
        q.budget = d.budget ∧ q.phaseLim = d.phases ∧ q.phases = 0) ∧
    ((k.prog.kinds.find? fun d => d.kind = kind.toNat) = none → (s.core p.core).active = [] → answers (.step p rs kind) s fun t =>
      (t.core p.core).run = .stopped ∧ ∃ r, (t.core p.core).report = some r ∧ r.cause = 9) ∧
    ∀ (b : Bundle) (o : QOp), k.bundle = some b → (if slotB then b.opB else b.opA) = some o.num → o ∈ k.seq.queued →
      o.op.dest.isSome = true → answers (.tag p slotB id) s fun t =>
        (t.core p.core).run = .issuing ∧ ∃ o' ∈ (t.core p.core).seq.queued, o'.num = o.num ∧ o'.op = o.op ∧ o'.tag = some id.toNat

/-- The sync slot changes no scalar or descriptor register, no memory, no accumulator and no other core; STEP alone clears ASR. -/
def Obligations.SyncFrame : Prop :=
  ∀ (s : State) (p : Place) (idx : BitVec 15) (rs : BitVec 5) (one outb : Bool) (q : BitVec 3) (n : BitVec 6) (mask : BitVec 8)
    (kind : W16) (id : BitVec 20),
    ready s p.core →
    ∀ c ∈ [Instr.syncWait p idx rs, .syncSignal p idx rs one, .qwait p outb q n, .fence p mask, .step p rs kind, .tag p one id],
      ∀ t, exec c s = .next t → (t.core p.core).run = .issuing →
        t.syncs = s.syncs ∧ t.regions = s.regions ∧ t.host = s.host ∧ (∀ d, d ≠ p.core → t.core d = s.core d) ∧
        (t.core p.core).mem = (s.core p.core).mem ∧ (t.core p.core).acc = (s.core p.core).acc ∧
        (t.core p.core).seq.regs = (s.core p.core).seq.regs ∧ (t.core p.core).seq.descs = (s.core p.core).seq.descs ∧
        (c ≠ .step p rs kind → (t.core p.core).seq.asr = (s.core p.core).seq.asr)

/-! ## Inside a core (R69, R170, R179, R180, R195 to R206) -/

/-- An operation starts when its engine is free and its footprints meet no earlier operation's, and takes effect from its engine, an
evaluation within its step's phase limit too; a satisfied wait goes on and its cycles do not count; the oldest signal leaves the buffer once every earlier operation has taken effect.
Each of these is shown to answer a next state under the conditions of its clause: operationStart, waitSatisfied, signalRelease,
clockStop, operationTakesEffect. -/
def Obligations.CoreProgress : Prop :=
  ∀ (s : State) (c eng : Nat),
    (∀ q, (s.core c).ready? eng = some q → yieldsToSlice s c (s.core c) q = false → awaitsCompaction s c q = false →
      startCheck s c (s.core c) q = none → (s.core c).held = none → answers (.operationStart c eng) s fun t =>
        ∃ a, Tbl.find (t.core c).active eng = some a ∧ a.q = q) ∧
    (∀ a, Tbl.find (s.core c).active eng = some a → (s.core c).run = .issuing → (s.core c).clockOn = true →
      (s.core c).pastLimit a = false →
      let k := s.core c
      let k := (Effects.run (opEffects k a) (k.readSoftLines (opReads k a))).opDone eng a s.now
      let t := settle (tagDumps (bearTuning (s.setCore c k) c a) c a.q) c
      exec (.operationTakesEffect c eng) s =
        .next (match ownerOf s c with | some n => if 5 ≤ eng then advance t n else t | none => t)) ∧
    (∀ a, eng < 5 → Tbl.find (s.core c).active eng = some a → a.plan = none → (s.core c).run = .issuing → (s.core c).clockOn = true →
      Tbl.wf (s.core c).active → (s.core c).held = none → (s.core c).oqs = [] → a.q.dumps = [] →
      (∀ oq ad, a.q.op ≠ .qPush oq ad) → (∀ oq w v m n, a.q.op ≠ .rmread oq w v m n) → (∀ oq w v m n, a.q.op ≠ .nred oq w v m n) →
      answers (.operationTakesEffect c eng) s fun t => Tbl.find (t.core c).active eng = none ∧
        (t.core c).mem = (Effects.run (opEffects (s.core c) a) ((s.core c).readSoftLines (opReads (s.core c) a))).mem) ∧
    (∀ i v, (s.core c).run = .issuing → (s.core c).held = some (.syncWait i v) →
      ((s.sync i).value.toNat + 2 ^ 32 - v.toNat) % 2 ^ 32 < 2 ^ 31 → answers (.waitSatisfied c) s fun t =>
        (t.core c).held = none ∧
        (s.thermal.state ≠ 1 → (s.preg (powerOf c)).state = .run ∨ (s.preg (powerOf c)).state = .nap → (t.core c).clockOn = true) ∧
        (t.core c).seq.stepFrom = (s.core c).seq.stepFrom + (s.now - (s.core c).waitFrom)) ∧
    (∀ g rest, (s.core c).run = .issuing → (s.core c).seq.sigBuf = g :: rest → (s.core c).settled g.num = true → (s.core c).held = none →
      (s.core c).oqs = [] → g.idx / 512 = fieldOf c → ownsSync s c g.idx = true → s.silOn 1 (ownerOf s c) = false →
      answers (.signalRelease c) s fun t => (t.core c).seq.sigBuf = rest ∧ (t.sync g.idx).value = (s.sync g.idx).value + g.amount ∧
        ∀ i, i ≠ g.idx → t.sync i = s.sync i) ∧
    (∀ i v, (s.core c).run = .issuing → (s.core c).clockOn = true → (s.core c).held = some (.syncWait i v) →
      2 ^ 31 ≤ ((s.sync i).value.toNat + 2 ^ 32 - v.toNat) % 2 ^ 32 → (s.core c).seq.queued = [] → (s.core c).active = [] →
      16 ≤ cyclesOf (s.now - max (s.core c).waitFrom (s.core c).idleFrom) →
      answers (.clockStop c) s fun t => (t.core c).clockOn = false)

/-- The limits of a step: a step past its cycle budget faults with cause 11, a wait past its limit with cause 16, an evaluation whose
step has run more phases than declared with cause 10; the core stops, its queues and its signals are discarded (R200, R203, R205, R206).
Each of these is shown to answer a next state under the conditions of its clause: budgetOverrun, waitLimit, activityOverrun. -/
def Obligations.StepLimits : Prop :=
  ∀ (s : State) (c : Nat), (s.core c).run = .issuing →
    let faults (i : Instr) (cause : Nat) : Prop := answers i s fun t => (t.core c).run = .stopped ∧ (t.core c).seq.queued = [] ∧
      (t.core c).seq.sigBuf = [] ∧ (t.core c).active = [] ∧ (t.core c).held = none ∧
      ∃ r, (t.core c).report = some r ∧ r.cause = cause ∧ r.req = (t.core c).seq.stepReq
    ((s.core c).seq.budget ≠ 0 → (s.core c).seq.budget < stepCyc s (s.core c) → faults (.budgetOverrun c) 11) ∧
    ((s.core c).seq.budget = 0 → s.setting 0x2110 1 1400000 < stepCyc s (s.core c) → faults (.budgetOverrun c) 11) ∧
    (∀ i v, (s.core c).held = some (.syncWait i v) → 2 ^ 31 ≤ ((s.sync i).value.toNat + 2 ^ 32 - v.toNat) % 2 ^ 32 →
      s.setting 0x2110 2 100000 * 1000 < s.now - (s.core c).waitFrom → faults (.waitLimit c) 16) ∧
    (∀ a at_, (s.core c).overrun? = some (a, at_) → at_ ≤ s.now → faults (.activityOverrun c) 10)

/-- What the movers and the accumulators write when they take effect: a fill of 8 bytes writes its pattern, a copy of one line its source,
ACC.CLR zeroes its tile, and ACC.ADD of a walk adds its entries exactly. -/
def Obligations.EngineResults : Prop :=
  ∀ (k : Core) (a : ActOp) (r c r' c' : Nat) (t : Nat) (pat : W64), Memory.wf k.mem → r < 1248 → c < 32 → r' < 1248 → c' < 32 → t < 16 →
    let line := descOf r c 1 1 0 0 0 0 0
    let line' := descOf r' c' 1 1 0 0 0 0 0
    (a.q.op = .tmFill line pat 3 → (Effects.run (opEffects k a) k).mem.read (2048 * r + 64 * c) 64 =
      (List.replicate 8 (leBytes 8 pat.toNat)).flatten) ∧
    (a.q.op = .tmCopy line line' → (Effects.run (opEffects k a) k).mem.read (2048 * r + 64 * c) 64 =
      k.mem.read (2048 * r' + 64 * c') 64) ∧
    (a.q.op = .accClr t → ∀ e, e < 512 → (Effects.run (opEffects k a) k).accGet t e = 0) ∧
    (a.q.op = .accClr t → ∀ u e, u ≠ t → e < 512 → (Effects.run (opEffects k a) k).accGet u e = k.accGet u e)

/-! ## The mesh (R151, R156 to R158, R189, R221 to R237, R348, R441, R603, R665) -/

/-- PACKET_HOP moves an undamaged packet from a router that forwards, whose next router is permitted, unforbidden and awake, to that router,
unchanged but for its detour field and its corrected single-bit errors; it discards one whose Op is reserved, counting it, and one that
stands at a router that is a hole (R221, R225 to R231).
Each of these is shown to answer a next state under the conditions of its clause: packetHop. -/
def Obligations.PacketHops : Prop :=
  ∀ (s : State) (i : Nat) (f : Flight), s.mesh[i]? = some f →
    (∀ c d col side, f.pkt.op ≠ 0 → f.pkt.op ≤ 0xC → f.pkt.op ≠ 4 → f.pkt.op ≠ 7 → f.pkt.region < 64 → f.pkt.badHead = false →
      f.pkt.badFrom = none → isHole s f.loc = false → isHole s f.pkt.dest = false → f.loc ≠ f.pkt.dest →
      permitted s f.pkt f.loc = true → onForbidden s f.pkt = false → nextHop s f.pkt f.loc = .go c d col side →
      routersWait (s.preg (powerOf f.loc)) = false → routersWait (s.preg (powerOf c)) = false →
      answers (.packetHop i) s fun t => t.mesh = s.mesh.set i
        { loc := c, pkt := { f.pkt with detour := d, soft := 0 }, colMove := col, since := s.now }) ∧
    (f.pkt.op = 0 ∨ 0xC < f.pkt.op → answers (.packetHop i) s fun t => t.mesh = s.mesh.eraseIdx i ∧
      ((s.core f.loc).fence = none → Tbl.get (t.core f.loc).ctrs 0 134 = (Tbl.get (s.core f.loc).ctrs 0 134 + 1) % 2 ^ 48)) ∧
    (f.pkt.op ≠ 0 → f.pkt.op ≤ 0xC → f.pkt.op ≠ 4 → f.pkt.region < 64 → f.loc ≠ f.pkt.dest → isHole s f.loc = true →
      answers (.packetHop i) s fun t => t.mesh = s.mesh.eraseIdx i)

/-- A packet with no detour moves along its row until it is in its destination's column, then along that column, whenever the next router
is in its area and no hole (R225). -/
def Obligations.DimensionOrder : Prop :=
  ∀ (s : State) (p : Packet) (loc : Nat), p.detour = 0 → loc < 19200 → p.dest < 19200 →
    let free (n : Nat) : Prop := permitted s p n = true ∧ isHole s n = false
    (coreCol loc < coreCol p.dest → free (loc + 1) → nextHop s p loc = .go (loc + 1) 0 false false) ∧
    (coreCol p.dest < coreCol loc → free (loc - 1) → nextHop s p loc = .go (loc - 1) 0 false false) ∧
    (coreCol loc = coreCol p.dest → coreRow loc < coreRow p.dest → free (loc + 128) → nextHop s p loc = .go (loc + 128) 0 true false) ∧
    (coreCol loc = coreCol p.dest → coreRow p.dest < coreRow loc → free (loc - 128) → nextHop s p loc = .go (loc - 128) 0 true false)

/-- At its home core a remote read is answered with the lines of its walk, a remote write writes them and is acknowledged, a merged read
opens the merge buffer and is answered, and the buffer's line goes when its window of 64 cycles closes; a fenced or unusable home core
answers with Status 1 and writes nothing (R156 to R158, R574).
Each of these is shown to answer a next state under the conditions of its clause: readReq, mergeReq, mergeWindowClose, remoteWrite. -/
def Obligations.HomeRequests : Prop :=
  ∀ (s : State) (i : Nat) (f : Flight), s.mesh[i]? = some f → landsAtOnce s f →
    let p := f.pkt
    let c := p.dest
    let w := walkOf p.body
    let replies (t : State) (op : Nat) (body : BitVec 128) (data : Bytes) : Prop :=
      ∃ r ∈ t.mesh, r.loc = c ∧ r.pkt.op = op ∧ r.pkt.src = c ∧ r.pkt.dest = p.src ∧ r.pkt.body = body ∧ r.pkt.payload = data
    (p.op = 1 → homeRefuses s c = false → homeOk w false = true → lineFail (s.core c) w.lines = none → (s.core c).active = [] →
      answers (.readReq i) s fun t => replies t 3 0 ((s.core c).readWalk w).flatten ∧ t.core c = (s.core c).readSoftLines w.lines ∧
        ∀ d, d ≠ c → t.core d = s.core d) ∧
    (p.op = 1 → homeRefuses s c = true → answers (.readReq i) s fun t => replies t 3 1 [] ∧ t.cores = s.cores) ∧
    (p.op = 5 → p.svc = false → homeRefuses s c = false → homeOk w true = true → answers (.remoteWrite i) s fun t =>
      replies t 6 0 [] ∧ t.core c = (s.core c).writeWalk w (chunks 64 p.payload) ∧ ∀ d, d ≠ c → t.core d = s.core d) ∧
    (p.op = 5 → p.svc = false → homeOk w true = false → answers (.remoteWrite i) s fun t => replies t 6 1 [] ∧ t.cores = s.cores) ∧
    (p.op = 2 → homeRefuses s c = false → homeOk w false = true → (s.core c).active = [] → (s.core c).router.merge = [] →
      let l := nth w.lines 0 (0, 0)
      lineFail (s.core c) [l] = none → answers (.mergeReq i) s fun t =>
        replies t 4 (bodyOf [mergeEntry p]) ((s.core c).readLine l.1.toNat l.2) ∧
        (t.core c).router.merge = [⟨l.1.toNat, l.2, s.now, false, (s.core c).readLine l.1.toNat l.2, false⟩] ∧ (t.core c).mem = (s.core c).mem) ∧
    ∀ m, (s.core c).router.merge = [m] → 64 ≤ cyclesOf (s.now - m.opened) → answers (.mergeWindowClose c m.row m.col) s fun t =>
      (t.core c).router.merge = []

/-- At the requester a reply lands its lines or completes its request with its Status, an acknowledgement completes it, and a merged reply
is delivered to each entry of its own core; the last reply of a request lands its line in the local walk and ends the request, and so does
a merged reply (R156, R189, R237).
Each of these is shown to answer a next state under the conditions of its clause: readReply, mergeReply, writeAck. -/
def Obligations.RepliesComplete : Prop :=
  ∀ (s : State) (i : Nat) (f : Flight) (a : Await), s.mesh[i]? = some f → landsAtOnce s f →
    let p := f.pkt
    let c := p.dest
    let u := s.unmesh i
    let lands (a : Await) : State := settle (landLines u c a (chunks 64 p.payload)) c
    let fills (a : Await) : State := settle (complete u c a p.body.toNat) c
    ((s.core c).await? (tagQueue p.tag) (tagPos p.tag) = some a →
      (p.op = 3 → exec (.readReply i) s = .next (if p.body = 0 then lands a else fills a)) ∧
      (p.op = 6 → exec (.writeAck i) s = .next (fills a))) ∧
    (p.op = 4 → bodyEntries p.body ≠ [] → (∀ e ∈ bodyEntries p.body, unpackByteCore (e / 65536) = c) → exec (.mergeReply i) s =
      .next ((bodyEntries p.body).foldl (fun v e => mergeDeliver v c e p.payload) (countCopies (markReplied u c p) c []))) ∧
    ((s.core c).run = .issuing → (s.core c).held = none → (s.core c).oqs = [] → (s.core c).iqs = [] → a.sig = none →
    let l := nth (walkOf a.walk).lines 0 (0, 0)
    let ends (t : State) : Prop := (t.core c).await? a.q a.req = none ∧ (t.core c).run = .issuing
    (p.op = 3 → p.body = 0 → (s.core c).await? (tagQueue p.tag) (tagPos p.tag) = some a → a.toWalk = true → a.lines = 1 → a.left = 1 →
      p.payload.length = 64 → answers (.readReply i) s fun t => ends t ∧
        (t.core c).mem = ((s.core c).writeLine l.1.toNat l.2 p.payload).mem) ∧
    (p.op = 6 → p.body = 0 → (s.core c).await? (tagQueue p.tag) (tagPos p.tag) = some a → a.write = true →
      answers (.writeAck i) s fun t => ends t ∧ (t.core c).mem = (s.core c).mem) ∧
    (p.op = 4 → ∀ e, bodyEntries p.body = [e] → unpackByteCore (e / 65536) = c →
      (s.core c).await? (bits e 15 13) (bits e 12 8) = some a → a.merge = true → a.toWalk = true → a.lines = 1 → a.left = 1 →
      answers (.mergeReply i) s fun t => ends t ∧ (t.core c).mem = ((s.core c).writeLine l.1.toNat l.2 p.payload).mem))

/-- A completion with a non-zero Status fills the first reserved entry of its request and faults the step when that entry becomes ready,
with cause 14 for Status 1 and cause 12 for any other; while an earlier entry is not ready, the step goes on (R190).
Each of these is shown to answer a next state under the conditions of its clause: writeAck. -/
def Obligations.RefusedRequests : Prop :=
  ∀ (s : State) (i : Nat) (f : Flight) (a : Await) (es l : List IqEntry) (e : IqEntry), s.mesh[i]? = some f → landsAtOnce s f →
    let p := f.pkt
    let c := p.dest
    (s.core c).run = .issuing → (p.op = 3 ∨ p.op = 6) → p.body.toNat ≠ 0 →
    (s.core c).await? (tagQueue p.tag) (tagPos p.tag) = some a → (s.core c).iq a.q = es ++ e :: l → e.req = a.req → e.filled = false →
    (∀ d ∈ es, d.req ≠ a.req ∧ d.status = 0) →
    let cmd := if p.op = 3 then Instr.readReply i else .writeAck i
    ((∀ d ∈ es, d.filled = true) → answers cmd s fun t => (t.core c).run = .stopped ∧
      ∃ r, (t.core c).report = some r ∧ r.cause = if p.body.toNat = 1 then 14 else 12) ∧
    ((∃ d ∈ es, d.filled = false) → (s.core c).held = none → (s.core c).oqs = [] → answers cmd s fun t => (t.core c).run = .issuing ∧
      ∃ d, (t.core c).iq a.q = es ++ d :: l ∧ d.filled = true ∧ d.status = p.body.toNat)

/-- The first contribution to a line of a reduction is written and counted; the last one clears the count and signals the table entry's
sync object; INT64 addition adds each 64-bit word modulo 2^64 and counts what leaves the range (R233 to R235).
Each of these is shown to answer a next state under the conditions of its clause: reduce. -/
def Obligations.ReductionsLand : Prop :=
  (∀ (v w : W64), addLines 0 (leBytes 8 v.toNat) (leBytes 8 w.toNat) =
    (leBytes 8 (v + w).toNat, if v.toInt + w.toInt < -2 ^ 63 ∨ 2 ^ 63 ≤ v.toInt + w.toInt then 1 else 0)) ∧
  ∀ (s : State) (i : Nat) (f : Flight), s.mesh[i]? = some f → landsAtOnce s f → f.pkt.op = 7 →
    let p := f.pkt
    let c := p.dest
    let e := (Tbl.get (s.core c).router.red 0 p.id).toNat
    let n := (Tbl.get (s.core c).router.recv (0, 0) p.id).1
    let mask := (Tbl.get (s.core c).router.recv (0, 0) p.id).2
    let row := bits e 63 53
    let col := (bits e 52 48 + p.line) % 32
    (s.core c).fence = none → draining s p.region = false → bits e 25 10 ≠ 0 → bits e 42 41 = p.a → p.line ≤ bits e 47 43 →
    (mask.getLsbD p.line = false → n + p.count < bits e 25 10 * (bits e 47 43 + 1) → answers (.reduce i) s fun t =>
      (t.core c).mem = ((s.core c).writeLine row col p.payload).mem ∧
      Tbl.get (t.core c).router.recv (0, 0) p.id = (n + p.count, mask ||| BitVec.ofNat 32 (2 ^ p.line)) ∧ t.syncs = s.syncs) ∧
    ((mask.getLsbD p.line = true → lineFail (s.core c) [((row : Int), col)] = none) → bits e 25 10 * (bits e 47 43 + 1) ≤ n + p.count →
      answers (.reduce i) s fun t =>
      (t.sync (bits e 40 26)).value = (s.sync (bits e 40 26)).value + 1 ∧
      ∀ j, j ≠ bits e 40 26 → t.sync j = s.sync j)

/-- A SIGNAL packet adds its amount to an object that its source's region owns and changes no other object; a step token writes the token
line and raises the entry object by 1 (R193, R194, R348, R665).
Each of these is shown to answer a next state under the conditions of its clause: signal, stepToken. -/
def Obligations.SignalsArrive : Prop :=
  ∀ (s : State) (i : Nat) (f : Flight), s.mesh[i]? = some f → landsAtOnce s f →
    let p := f.pkt
    let idx := bits p.body.toNat 14 0
    (p.op = 8 → earlierSignal s i p = false → ownsSync s p.src idx = true → answers (.signal i) s fun t =>
      (t.sync idx).value = (s.sync idx).value + BitVec.ofNat 32 (bits p.body.toNat 63 32) ∧ (t.sync idx).owner = (s.sync idx).owner ∧
      (∀ j, j ≠ idx → t.sync j = s.sync j) ∧ t.cores = s.cores) ∧
    (p.op = 8 → earlierSignal s i p = false → ownsSync s p.src idx = false → (s.core p.src).run = .issuing → answers (.signal i) s fun t =>
      t.syncs = s.syncs ∧ ∃ r, (t.core p.src).report = some r ∧ r.cause = 7 ∧ r.aux0 = idx) ∧
    (∀ v, p.op = 9 → (∀ g ∈ s.mesh.take i, g.pkt.svc = false) → (s.core p.dest).fence = none → p.length = 2 →
      servingOf s p.dest = some v → answers (.stepToken i) s fun t =>
        (t.core p.dest).mem = ((s.core p.dest).writeLine v.tokenRow 0 (slice p.payload 0 64)).mem ∧
        (t.sync idx).value = (s.sync idx).value + 1)

/-- An edge hub discards an interface packet whose region lacks the grant or that is not at the exit of its source, and the source's step
faults with cause 8; a granted packet of class 1 goes to the host through its window slot, one of class 2 to a peer; IFACE_IN lands the
lines of a read, ends the request at its core or lands a peer's data.  The packets of a class 1 write are taken in address order, all
by the slot record that stood when the hub accepted the first (R246, R439, R441, R603).
Each of these is shown to answer a next state under the conditions of its clause: ifaceOut, ifaceIn. -/
def Obligations.InterfacePackets : Prop :=
  ∀ (s : State) (i : Nat) (f : Flight), s.mesh[i]? = some f → landsAtOnce s f →
    let p := f.pkt
    (p.op = 0xB → p.region < 64 → exitRouter (s.region p.region).exit p.src = some f.loc →
      (p.cls ≠ 2 → earlierPart s p = true → exec (.ifaceOut i) s = .next s) ∧
      (p.cls ≠ 2 → earlierPart s p = false → (s.region p.region).grant.getLsbD 0 = true →
        exec (.ifaceOut i) s = .next (class1Out (s.unmesh i) p)) ∧
      (p.cls = 2 → (s.region p.region).grant.getLsbD 1 = true → exec (.ifaceOut i) s = .next (class2Out (s.unmesh i) p))) ∧
    (p.op = 0xC →
      (∀ a, (s.core p.dest).await? (tagQueue p.tag) (tagPos p.tag) = some a →
        (p.length = 0 → exec (.ifaceIn i) s = .next (settle (complete (s.unmesh i) p.dest a p.body.toNat) p.dest)) ∧
        (p.length ≠ 0 → p.cls ≠ 2 → exec (.ifaceIn i) s = .next (settle (landLines (s.unmesh i) p.dest a (chunks 64 p.payload)) p.dest))) ∧
      (p.length ≠ 0 → p.cls = 2 → earlierData s p = false → exec (.ifaceIn i) s = .next (landData (s.unmesh i) p.dest p))) ∧
    (p.op = 0xB → p.region < 64 → p.cls = 1 → earlierPart s p = false → (s.region p.region).grant.getLsbD 0 = false →
      (s.core p.src).run = .issuing → p.src ≠ f.loc →
      answers (.ifaceOut i) s fun t => (t.core p.src).run = .stopped ∧ ∃ r, (t.core p.src).report = some r ∧ r.cause = 8) ∧
    (p.op = 0xB → p.region < 64 → p.cls = 1 → earlierPart s p = false → (s.region p.region).grant.getLsbD 0 = true →
      exitRouter (s.region p.region).exit p.src = some f.loc → bits p.body.toNat 63 56 = 2 → p.length = 2 → p.payload.length = 64 →
      let key := hubKey p.src (tagQueue p.tag) (tagPos p.tag)
      let addr := bits p.body.toNat 127 64
      (∀ w a, Tbl.find s.host.writes key = none → Tbl.find (s.region p.region).windows (addr / 2 ^ 60) = some w →
        class1Status s p.region addr 2 p.reqLines = 0 → 1 < p.reqLines →
        (s.core p.src).await? (tagQueue p.tag) (tagPos p.tag) = some a → 1 < a.left → a.status = 0 →
        answers (.ifaceOut i) s fun t => (∃ b, (t.core p.src).await? (tagQueue p.tag) (tagPos p.tag) = some b ∧ b.left = a.left - 1) ∧
          Tbl.find t.host.writes key = some { slot := addr / 2 ^ 60, win := some w, refused := false, left := p.reqLines - 1 }) ∧
      (∀ h, Tbl.find s.host.writes key = some h → 1 < h.left → answers (.ifaceOut i) s fun t =>
        Tbl.find t.host.writes key = some { h with left := h.left - 1 } ∧
        ∀ w, h.win = some w → h.refused = false → recordStatus s h.win (addr % 2 ^ 60) 2 1 = 0 →
          (s.core p.src).await? (tagQueue p.tag) (tagPos p.tag) = none →
          t = { winWrite (s.unmesh i) w (addr % 2 ^ 60) p.payload with host := t.host } ∧
          t.host.sites = (winWrite (s.unmesh i) w (addr % 2 ^ 60) p.payload).host.sites)) ∧
    (∀ a, p.op = 0xC → p.length = 0 → p.cls = 1 → p.body = 0 → (s.core p.dest).await? (tagQueue p.tag) (tagPos p.tag) = some a →
      (s.core p.dest).run = .issuing → (s.core p.dest).held = none → (s.core p.dest).oqs = [] → (s.core p.dest).iqs = [] → a.sig = none →
      answers (.ifaceIn i) s fun t => (t.core p.dest).await? a.q a.req = none ∧ (t.core p.dest).run = .issuing)

/-! ## Faults (R206, R569 to R588) -/

/-- The fault service takes a core's report: it writes the error record with the fault's code, 0x0100 plus its cause, and the flush of a
bound image begins (R576, R586, R588).
Each of these is shown to answer a next state under the conditions of its clause: fault. -/
def Obligations.FaultRecorded : Prop :=
  ∀ (s : State) (c : Nat) (fails : Bool) (src : Option Bytes) (r : FaultRep), (s.core c).report = some r → r.cause ≠ 15 →
    r.req = 0xFFFFFFFF →
    answers (.fault c fails src) s fun t => (t.core c).report = none ∧ t.faults.records = (s.faults.records + 1) % 2 ^ 32 ∧
      (∃ e l, t.faults.log = e :: l ∧ e.code = 0x0100 + r.cause ∧ e.core = some c ∧ e.aux0 = BitVec.ofNat 32 r.aux0) ∧
      ∀ n b, ownerOf s c = some n → (s.region n).img = some b → b.bound = true → b.img.stage = 0 → (s.region n).flush = none →
        (s.region n).vigil = none → ∃ x, (t.region n).flush = some x ∧ x.phase = 0

/-- The flush of an image orders its cores to stop, a core that takes the order stops with nothing queued, and once every core has
stopped and the mesh is clear the image's sync objects are zeroed and its cores are ordered to restart at their restart bundles; on a later
stage of a group it waits for stage 0, and stage 0 for the reports of the others (R576, R579).
Each of these is shown to answer a next state under the conditions of its clause: imageFlush, flushDrained, faultActionStop,
faultActionRestart. -/
def Obligations.FlushRuns : Prop :=
  ∀ (s : State) (n c : Nat),
    (∀ x, (s.region n).flush = some x → x.phase = 0 →
      exec (.imageFlush n) s = .next (((liveCores s n).foldl (fun v d => injectSvc v d (faultPacket d x.code 1)) s).updRegion n
        fun r => { r with flush := some { x with phase := 1 } }) ∧
      answers (.imageFlush n) s fun t => (∃ y, (t.region n).flush = some y ∧ y.phase = 1) ∧
      ∀ d ∈ liveCores s n, ∃ f ∈ t.mesh, f.loc = d ∧ f.pkt.op = 0xA ∧ f.pkt.dest = d ∧ faultAction f.pkt = 1) ∧
    (∀ i, faultFlight s c 1 = some i → (s.core c).run = .issuing → answers (.faultActionStop c) s fun t =>
      (t.core c).run = .stopped ∧ (t.core c).seq.queued = [] ∧ (t.core c).active = [] ∧ (t.core c).oqs = [] ∧ (t.core c).awaits = []) ∧
    (∀ i, faultFlight s c 2 = some i → (s.core c).fence = none → (s.core c).run = .stopped → s.thermal.state ≠ 1 →
      answers (.faultActionRestart c) s fun t =>
      (t.core c).run = .issuing ∧ (t.core c).seq.pc = BitVec.ofNat 12 (s.core c).prog.restart ∧ (t.core c).mem = (s.core c).mem ∧
      (t.core c).restartBy = none) ∧
    (∀ x b, (s.region n).flush = some x → x.phase = 1 → (s.region n).img = some b →
      (∀ d ∈ liveCores s n, ((s.core d).run = .stopped ∨ (s.core d).run = .halted) ∧ faultFlight s d 1 = none) →
      (∀ f ∈ s.mesh, f.pkt.svc = true ∨ f.pkt.region ≠ n) →
      let u := clearImage (requeueSteps s n) n
      let v := u.recordErr (plainRec u 0x0401 (some n) (u.region n).again.length 0)
      (b.grouped = false → exec (.flushDrained n) s = .next (tryRelease (orderRestart v n) n)) ∧
      (b.grouped = true → b.img.stage ≠ 0 → answers (.flushDrained n) s fun t => (t.region n).flush = some { x with phase := 4 }) ∧
      (b.grouped = true → b.img.stage = 0 → (∀ i ∈ b.others, b.flushed.contains i = true) → answers (.flushDrained n) s fun t =>
        (t.region n).img = some { b with flushed := [] } ∧ ∃ y, (t.region n).flush = some y ∧ y.phase = 2)) ∧
    ∀ x b, (s.region n).flush = some x → x.phase = 1 → (s.region n).img = some b → b.img.stages ≤ 1 → b.img.stage = 0 →
      liveCores s n = [] → s.mesh = [] → (s.region n).relocs = [] → (s.region n).steps = [] →
      answers (.flushDrained n) s fun t => (t.region n).flush = none ∧
        ∀ i, (s.sync i).owner = some n → (t.sync i).value = 0 ∧ (t.sync i).owner = some n

/-- A core judged dead is fenced with the cause of its code and stops for good, with one error record when no region is concerned; the
watchdog judges a core that has not issued for 2^20 cycles and the heartbeat one whose region is in RUN or NAP (R571 to R573).
Each of these is shown to answer a next state under the conditions of its clause: coreDead, sequencerWatchdog, heartbeatMissing. -/
def Obligations.CoreDeath : Prop :=
  ∀ (s : State) (c : Nat), (s.core c).fence = none →
    let dies (i : Instr) (cause : Nat) : Prop := answers i s fun t =>
      (t.core c).fence = some cause ∧ (t.core c).run = .stopped ∧ (t.core c).seq.queued = [] ∧
      (s.regions = [] → ∃ e l, t.faults.log = e :: l ∧ e.code = 0x0200 + cause ∧ e.core = some c)
    (∀ code aux0, 0x0201 ≤ code → code ≤ 0x0205 → dies (.coreDead c code aux0) (code - 0x0200)) ∧
    ((s.core c).run = .issuing → (s.core c).held = none → 2 ^ 20 ≤ cyclesOf (s.now - (s.core c).lastIssue) → dies (.sequencerWatchdog c) 2) ∧
    ((s.preg (powerOf c)).state = .run ∨ (s.preg (powerOf c)).state = .nap → dies (.heartbeatMissing c) 4)


/-! ## The host link and the commands (R407 to R444) -/

/-- CREATE_SQ, CREATE_RING and SET_EVENTS make a queue, a ring and an event mask as their operands say, DELETE_SQ and DELETE_RING take
an unused one away, NOP does nothing else; each completes, which ends its handle (R425 to R427, R432, R434).
Each of these is shown to answer a next state under the conditions of its clause: createSq, deleteSq, createRing, deleteRing, setEvents,
nop. -/
def Obligations.QueueCommands : Prop :=
  ∀ (s : State) (h : Nat) (o : HOut), s.cmd? h = some o → o.running = false → Tbl.wf s.host.sqs → Tbl.wf s.host.rings →
    let f := fieldAt o.cmd
    let done (t : State) : Prop := t.cmd? h = none
    (o.opcode = 0x01 → 4 ≤ f 16 2 → f 16 2 < 1024 → s.sq? (f 16 2) = none → s.host.sqs.length < 1024 → f 24 8 % 64 = 0 →
      isPow2 (f 32 4) = true → 2 ≤ f 32 4 → f 32 4 ≤ 65536 → (∃ r, s.ring? (f 20 4) = some r ∧ r.kind = 1 ∧ r.site = cmdSite s o) →
      answers (.createSq h) s fun t => done t ∧ ∃ q, t.sq? (f 16 2) = some q ∧ q.site = cmdSite s o ∧ q.ring = f 20 4 ∧ q.base = f 24 8 ∧
        q.entries = f 32 4 ∧ q.head = 0 ∧ q.tail = 0 ∧ q.failed = false) ∧
    (o.opcode = 0x02 → 4 ≤ f 16 2 → (s.sq? (f 16 2)).isSome → queueBusy s (f 16 2) = false →
      answers (.deleteSq h) s fun t => done t ∧ t.sq? (f 16 2) = none ∧ ∀ q, q ≠ f 16 2 → t.sq? q = s.sq? q) ∧
    (o.opcode = 0x03 → f 16 4 < 524284 → s.ring? (f 16 4) = none → f 20 1 ≤ 3 → 2 ≤ f 21 1 → f 21 1 ≤ 24 → f 24 8 % 4096 = 0 →
      answers (.createRing h) s fun t => done t ∧ ∃ r, t.ring? (f 16 4) = some r ∧ r.site = cmdSite s o ∧ r.kind = f 20 1 ∧ r.log2 = f 21 1 ∧
        r.base = f 24 8) ∧
    (o.opcode = 0x04 → f 16 4 < 524284 → (s.ring? (f 16 4)).isSome → ringNamed s (f 16 4) = false →
      answers (.deleteRing h) s fun t => done t ∧ t.ring? (f 16 4) = none) ∧
    (∀ r, o.opcode = 0x05 → s.ring? (f 16 4) = some r → r.kind = 2 →
      answers (.setEvents h) s fun t => done t ∧ ∃ r', t.ring? (f 16 4) = some r' ∧ r'.mask = BitVec.ofNat 32 (f 20 4)) ∧
    (o.opcode = 0x7F → answers (.nop h) s fun t => done t ∧ t.cores = s.cores ∧ t.regions = s.regions ∧ t.od = s.od)

/-- A flit whose CRC checks and whose Seq follows the last one is accepted, and so is an idle flit, which has no Seq; any other is discarded,
counted and answered with an idle flit that carries Nak and the last Seq accepted (R411, R412).
Each of these is shown to answer a next state under the conditions of its clause: flit. -/
def Obligations.FlitsInOrder : Prop :=
  ∀ (s : State) (i m : Nat) (b : Bytes), i < 4 → m < 2 → ((s.site i).mod m).up = true →
    let h := flitHdrOf b
    let x := (s.site i).mod m
    (h.crcOk = true → 1 ≤ h.kind → h.kind ≤ 2 → h.seq = (x.rxSeq + 1) % 4096 →
      answers (.flit i m b) s fun t => ((t.site i).mod m).rxSeq = h.seq ∧ (t.site i).flitErrs = (s.site i).flitErrs) ∧
    (h.crcOk = true → h.kind = 0 → answers (.flit i m b) s fun t => ((t.site i).mod m).rxSeq = x.rxSeq ∧
      (t.site i).flitErrs = (s.site i).flitErrs ∧ t.cores = s.cores) ∧
    ((h.crcOk = false ∨ (h.kind ≠ 0 ∧ (2 < h.kind ∨ h.seq ≠ (x.rxSeq + 1) % 4096))) →
      answers (.flit i m b) s fun t => ((t.site i).mod m).rxSeq = x.rxSeq ∧ (t.site i).flitErrs = (s.site i).flitErrs + 1 ∧ t.cores = s.cores ∧
        t.out = s.out ++ [.hostFlit i m (flitBytes ⟨0, 0, x.rxSeq, true, true, 15, 0, min x.owePosted 4095, min x.oweRead 4095, true⟩ [])])

/-- A trained module is up at its rate and width; one that goes down, by UCIe's report or because it has held unacknowledged flits for longer
than LinkTimeout, retrains while its partner carries the site, and both down lose the site; a retraining past RetrainLimit fails the module;
an idle module enters L1; RESTORE makes a lost site train again (R408, R409, R418, R442 to R444).
Each of these is shown to answer a next state under the conditions of its clause: linkTrained, moduleDown, retrainTimeout, restore,
linkL1Entry. -/
def Obligations.HostModules : Prop :=
  ∀ (s : State) (i m : Nat), i < 4 → m < 2 →
    let t := s.site i
    let x := t.mod m
    let mod (u : State) : Mod := (u.site i).mod m
    (∀ rate width posted read, t.populated = true → t.lost = false → x.training = true → (rate = 8 ∨ rate = 16 ∨ rate = 32) →
      (width = 8 ∨ width = 16) → s.boot.phase ≠ .off → answers (.linkTrained i m rate width posted read) s fun u =>
        (mod u).up = true ∧ (mod u).rate = rate ∧ (mod u).width = width ∧ (mod u).rxSeq = 0 ∧ (mod u).training = false) ∧
    (x.up = true → exec (.moduleDown ⟨i, m⟩ true) s = .next (modDown s i m)) ∧
    (x.up = true → x.flits ≠ [] → x.heldFrom + 1000 * s.setting 0x1100 1 10000 < s.now →
      exec (.moduleDown ⟨i, m⟩ false) s = .next (modDown s i m)) ∧
    (x.up = true → (t.mod (1 - m)).up = true → (t.mod (1 - m)).down = false → answers (.moduleDown ⟨i, m⟩ true) s fun u =>
      (mod u).up = false ∧ (mod u).training = true ∧ (mod u).unacked = [] ∧ (u.site i).lost = t.lost ∧ ((u.site i).mod (1 - m)).up = true) ∧
    (x.up = true → (t.mod (1 - m)).down = true → t.lost = false → s.serving.ctxs = [] → s.host.reads = [] → answers (.moduleDown ⟨i, m⟩ true) s fun u =>
      (u.site i).lost = true ∧ (mod u).up = false ∧ (mod u).training = true ∧ ∀ q y, s.sq? q = some y → y.site = i → ∃ z, u.sq? q = some z ∧ z.failed = true) ∧
    (t.populated = true → x.training = true → s.passed x.downAt (1000000 * s.setting 0x1100 2 100) = true →
      (t.mod (1 - m)).down = false → answers (.retrainTimeout i m) s fun u => (mod u).training = false ∧ (mod u).failed = true) ∧
    (x.up = true → x.unacked = [] → s.passed x.lastUse 100000 = true → answers (.linkL1Entry i m) s fun u =>
      mod u = { x with l1 := true } ∧ u.cores = s.cores) ∧
    ∀ w, entryShut s 0x1110 = false → t.populated = true → x.up = false → answers (.restore w i 1) s fun u =>
      (u.site i).lost = false ∧ (mod u).training = true ∧ (mod u).down = false

/-- A read's completion is taken once; a Tag that matches no read, or a header that breaks R414, is a protocol error; a refused read of commands fails its queue; the
site window's registers are written and read back; a doorbell moves a queue's tail or fails the queue when the tail is out of range, and
returns room to a ring; AdminCommit makes the admin queue of its site and AdminRelease takes it away; a held interrupt is sent when its
interval has passed (R415, R416, R419 to R422, R431, R432).
Each of these is shown to answer a next state under the conditions of its clause: mrdCpl, mrdErr, ewr, erd, sqDoorbell, ringDoorbell,
adminCommit, adminRelease, irqIntervalExpiry. -/
def Obligations.HostMessages : Prop :=
  ∀ (s : State) (i m tag : Nat) (head addr : W64), let hdr := headerOf head addr; i < 4 → m < 2 → ((s.site i).mod m).up = true → hdrTag hdr = tag →
    (∀ data, hdrGood 4 hdr = false ∨ Tbl.find s.host.reads tag = none → answers (.mrdCpl i m hdr data) s fun t =>
      (t.site i).protErrs = (s.site i).protErrs + 1 ∧ ((t.site i).mod m).up = false ∧ t.host.sqs = s.host.sqs) ∧
    (∀ data r, hdrGood 4 hdr = true → Tbl.find s.host.reads tag = some r → r.site = i → r.len = data.length → hdrBytes hdr = data.length →
      r.data = none → r.use = .spare → Tbl.wf s.host.reads → s.host.handles = [] →
      answers (.mrdCpl i m hdr data) s fun t => Tbl.find t.host.reads tag = none ∧ t.cores = s.cores) ∧
    (∀ data r, hdrGood 4 hdr = true → Tbl.find s.host.reads tag = some r → r.site = i → r.len = data.length → hdrBytes hdr = data.length →
      r.data = none →
      (r.use = .spare → exec (.mrdCpl i m hdr data) s = .next (tagEnded (s.dropRead tag) tag)) ∧
      (∀ q first n y, r.use = .commands q first n → s.sq? q = some y → y.reading = n → y.head = first →
        exec (.mrdCpl i m hdr data) s = .next (readCommands (acceptGo n (s.dropRead tag) q data))) ∧
      (∀ c q req slot off first n, r.use = .class1 c q req slot off first n →
        let u := s.pageCome tag r (class1Plain s c slot off data)
        exec (.mrdCpl i m hdr data) s = .next (deliverGo (u.host.reads.length + 1) u c q req))) ∧
    (hdrGood 5 hdr = true → ∀ r, Tbl.find s.host.reads tag = some r → r.site = i → r.data = none →
      (hdrStatus hdr = 1 ∨ hdrStatus hdr = 2) →
      (∀ q first n y, r.use = .commands q first n → s.sq? q = some y →
        answers (.mrdErr i m head addr) s fun t => ∃ z, t.sq? q = some z ∧ z.failed = true ∧ z.head = y.head) ∧
      (∀ c q req slot off first n, r.use = .class1 c q req slot off first n →
        exec (.mrdErr i m head addr) s = .next (tagEnded (class1Fail (s.dropRead tag) c q req 2) tag))) ∧
    (∀ v, hdrGood 6 hdr = true → hdrBytes hdr = 8 →
      (hdrAddr hdr = 0x08 → answers (.ewr i m hdr v) s fun t => (t.site i).base = v ∧ windowReg t i 0x08 = v ∧ t.host.sqs = s.host.sqs) ∧
      (hdrAddr hdr = 0x10 → answers (.ewr i m hdr v) s fun t => (t.site i).entries = v ∧ windowReg t i 0x10 = v ∧ t.host.sqs = s.host.sqs) ∧
      (hdrAddr hdr = 0x18 → answers (.ewr i m hdr v) s fun t => (t.site i).ringBase = v ∧ windowReg t i 0x18 = v ∧ t.host.sqs = s.host.sqs) ∧
      (hdrAddr hdr = 0x20 → answers (.ewr i m hdr v) s fun t => (t.site i).ringLog = v ∧ windowReg t i 0x20 = v ∧ t.host.sqs = s.host.sqs)) ∧
    (∀ v, hdrGood 6 hdr = false ∨ hdrBytes hdr ≠ 8 → exec (.ewr i m hdr v) s = .next (protocolError s i m)) ∧
    (hdrGood 7 hdr = true → hdrBytes hdr = 8 → ((s.site i).mod m).waiting = [] → ((s.site i).mod m).flits.length < 2048 →
      answers (.erd i m head addr) s fun t =>
        t.out = (s.hostTook i m 0 1).out ++ [.host i m (.erdCpl tag (windowReg s i (hdrAddr hdr)))] ∧ t.host.sqs = s.host.sqs) ∧
    (∀ q y (v : W64), s.sq? q = some y → y.site = i → y.failed = false → v.toNat < y.entries →
      answers (.sqDoorbell ⟨i, m⟩ q v) s fun t => ∃ z, t.sq? q = some z ∧ z.tail = v.toNat ∧ z.head = y.head ∧ z.failed = false) ∧
    (∀ q y (v : W64), s.sq? q = some y → y.site = i → y.failed = false → y.entries ≤ v.toNat →
      answers (.sqDoorbell ⟨i, m⟩ q v) s fun t => ∃ z, t.sq? q = some z ∧ z.failed = true ∧ z.tail = y.tail) ∧
    (∀ r (v : W64), s.ring? (bits v.toNat 18 0) = some r →
      (bits v.toNat 63 32 + 2 ^ 32 - r.readIdx) % 2 ^ 32 ≤ (r.written + 2 ^ 32 - r.readIdx) % 2 ^ 32 →
      let u := (s.hostTook i m 2 0).setRing (bits v.toNat 18 0) { r with readIdx := bits v.toNat 63 32 }
      exec (.ringDoorbell ⟨i, m⟩ v) s = .next (readCommands (creditsBack u (bits v.toNat 18 0))) ∧
      (s.serving.ctxs = [] → r.owed = [] →
        answers (.ringDoorbell ⟨i, m⟩ v) s fun t => t.ring? (bits v.toNat 18 0) = some { r with readIdx := bits v.toNat 63 32 })) ∧
    (let w := s.site i
     w.base.toNat % 4096 = 0 → w.ringBase.toNat % 4096 = 0 → isPow2 w.entries.toNat = true → 2 ≤ w.entries.toNat → w.entries.toNat ≤ 4096 →
     2 ≤ w.ringLog.toNat → w.ringLog.toNat ≤ 16 → adminBusy s i = false → answers (.adminCommit ⟨i, m⟩) s fun t =>
       (t.site i).result = 0 ∧ (∃ y, t.sq? i = some y ∧ y.base = w.base.toNat ∧ y.entries = w.entries.toNat ∧ y.ring = 524284 + i ∧ y.head = 0 ∧
         y.tail = 0) ∧ ∃ r, t.ring? (524284 + i) = some r ∧ r.kind = 1 ∧ r.base = w.ringBase.toNat ∧ r.written = 0) ∧
    (adminBusy s i = false → Tbl.wf s.host.sqs → Tbl.wf s.host.rings → answers (.adminRelease ⟨i, m⟩) s fun t =>
      (t.site i).result = 0 ∧ t.sq? i = none ∧ t.ring? (524284 + i) = none) ∧
    (adminBusy s i = true → answers (.adminRelease ⟨i, m⟩) s fun t => (t.site i).result = 2 ∧ t.host.sqs = s.host.sqs ∧ t.host.rings = s.host.rings) ∧
    ∀ r x v, s.ring? r = some x → x.irqHeld = true → s.irqDue x = true → x.vector = some v →
      answers (.irqIntervalExpiry r) s fun t => t.ring? r = some { x with lastIrq := some s.now, irqHeld := false }

/-! ## The object dictionary (R445 to R467) -/

/-- OD_READ completes with the entry's length, its value written to the buffer, or with the cause of its refusal; OD_WRITE of a plain setting stores a value in range and leaves
the entry as it was for one of the wrong length or out of range (R434, R446, R448, R451, R452).
Each of these is shown to answer a next state under the conditions of its clause: odRead, odWrite. -/
def Obligations.DictionaryCommands : Prop :=
  ∀ (s : State) (h : Nat) (o : HOut), s.cmd? h = some o → o.running = false → earlierOd s o = false → s.boot.phase = .complete →
    Tbl.wf s.od.vals →
    let index := fieldAt o.cmd 16 2
    let sub := fieldAt o.cmd 18 1
    (o.opcode = 0x10 → answers (.odRead h) s fun t => t.cmd? h = none ∧ t.od = s.od ∧ t.cores = s.cores) ∧
    (∀ v, o.opcode = 0x10 → odReadOp s ⟨0, o.queue⟩ (adminReader s o.session) index sub = .ok v → fieldAt o.cmd 24 8 % 4 = 0 →
      let n := fieldAt o.cmd 32 4
      (n = 0 → exec (.odRead h) s = .next (s.finish h 0 0 0 v.length)) ∧
      (n ≠ 0 → v.length ≤ n → exec (.odRead h) s = .next ((s.hostWrite (cmdSite s o) (fieldAt o.cmd 24 8) v).finish h 0 0 0 v.length)) ∧
      (n ≠ 0 → n < v.length → exec (.odRead h) s = .next (s.finish h 5 8 0 v.length))) ∧
    (∀ data r, o.opcode = 0x11 → (s.site (cmdSite s o)).lost = false → fieldAt o.cmd 24 8 % 4 = 0 → index = 0x5010 → odRow index sub = some r → r.acc = .rw → r.ty.size = some 2 → fieldAt o.cmd 32 4 = 2 →
      data.length = 2 →
      (r.lo ≤ leNat data → leNat data ≤ r.hi → answers (.odWrite h (some data)) s fun t =>
        t.cmd? h = none ∧ t.setting index sub r.dflt = leNat data ∧
        ∀ k, k ≠ odKey index sub → Tbl.find t.od.vals k = Tbl.find s.od.vals k) ∧
      (r.hi < leNat data → r.also = none → answers (.odWrite h (some data)) s fun t => t.cmd? h = none ∧ t.od = s.od)) ∧
    (∀ data r, o.opcode = 0x11 → odRow index sub = some r → r.acc = .ro → fieldAt o.cmd 32 4 = data.length → data ≠ [] → index ≠ 0x4030 →
      answers (.odWrite h (some data)) s fun t => t.cmd? h = none ∧ t.od = s.od)

/-- A write of a group's entry goes to the writer's shadow alone; 0xFF and the passing of ShadowTimeout discard it; a recovery start takes
a write of no group but the segment's; a commit of the
segment group or of the dump scope puts the candidate in force when its check passes, and keeps the check's number when not; without a
shadow it changes nothing (R452, R456 to R461, R470, R540, R621).
Each of these is shown to answer a next state under the conditions of its clause: shadowWrite, shadowDiscard, shadowTimeout,
segmentCommit, scopeCommit. -/
def Obligations.DictionaryGroups : Prop :=
  ∀ (s : State) (w : Writer),
    let group (index : Nat) : Nat := groupOf index
    (∀ index sub v, entryShut s index = true → exec (.shadowWrite w index sub v) s = .next s ∧ exec (.shadowDiscard w index) s = .next s) ∧
    (∀ index sub v r, entryShut s index = false → odRow index sub = some r → r.acc = .rwc → r.ty.size = some v.length →
      answers (.shadowWrite w index sub v) s fun t => t.shadowVal w index sub = some v ∧ t.od.vals = s.od.vals ∧ t.regions = s.regions ∧
        ∀ x, x ≠ w → ∀ g, t.shadow? x g = s.shadow? x g) ∧
    (∀ index, entryShut s index = false → answers (.shadowDiscard w index) s fun t => t.shadow? w (group index) = none ∧ t.od.vals = s.od.vals) ∧
    (∀ index x, s.shadow? w (group index) = some x → s.passed x.last (1000000000 * s.setting 0x1022 6 60) = true →
      answers (.shadowTimeout w index) s fun t => t.shadow? w (group index) = none ∧ t.od.vals = s.od.vals) ∧
    (entryShut s 0x1020 = false → (s.shadow? w 0x1020).isSome → candidate s w 0x1020 1 ≤ 1 → candidate s w 0x1020 2 ≠ 0 →
      (candidate s w 0x1021 0 = 0 → 2 ≤ candidate s w 0x1020 2) → answers (.segmentCommit w) s fun t =>
        t.shadow? w 0x1020 = none ∧ t.mgmt.segRes = 0) ∧
    (entryShut s 0x1020 = false → s.shadow? w 0x1020 = none → answers (.segmentCommit w) s fun t => t.mgmt = s.mgmt ∧ t.od.vals = s.od.vals) ∧
    (entryShut s 0x1020 = false → (s.shadow? w 0x1020).isSome → candidate s w 0x1020 2 = 0 → answers (.segmentCommit w) s fun t =>
      t.mgmt.segRes = 1 ∧ t.od.vals = s.od.vals ∧ t.shadow? w 0x1020 = s.shadow? w 0x1020) ∧
    (entryShut s 0x8010 = false → s.shadow? w 0x8010 = none → answers (.scopeCommit w) s fun t => t.observe = s.observe ∧ t.od.vals = s.od.vals) ∧
    (entryShut s 0x8010 = false → (s.shadow? w 0x8010).isSome → scopeCheck (candidate s w 0x8010 1) (candidate s w 0x8010 2) (candidate s w 0x8010 3) = 0 →
      answers (.scopeCommit w) s fun t => t.shadow? w 0x8010 = none ∧ t.observe.scopeRes = 0) ∧
    (entryShut s 0x8010 = false → (s.shadow? w 0x8010).isSome → scopeCheck (candidate s w 0x8010 1) (candidate s w 0x8010 2) (candidate s w 0x8010 3) = 2 →
      answers (.scopeCommit w) s fun t => t.observe.scopeRes = 2 ∧ t.od.vals = s.od.vals)

/-- A block save writes both copies with the next Sequence, the firmware's Layout, the block's contents and their Check, so that the block
loads as it was saved, and counts the save, which changes the count's own block; FLUSH empties what waits to be saved; a restore with its key drops the
persistent settings but those it spares; the other writes of action entries clear what they name (R463, R464, R465, R466, R467, R529, R619, R638).
Each of these is shown to answer a next state under the conditions of its clause: blockSave, clearWarnings, flush, restoreDefaults,
clearFallback, clearFlags, clearOverflow, sillageMark, periodicMark. -/
def Obligations.StoreAndActions : Prop :=
  ∀ (s : State) (w : Writer),
    (∀ b since, Tbl.find s.od.pending b = some since → s.passed since (1000000 * s.setting 0x1F00 8 100) = true → Tbl.wf s.od.pending →
      answers (.blockSave b true true) s fun t => Tbl.find t.od.pending b = none ∧ t.od.saves = (s.od.saves + 1) % 2 ^ 32 ∧
        let x := StoreCopy.make b s.layout ((s.storeBlk b).seq + 1) (blockData s b)
        t.storeBlk b = .both x ∧ x.sound b s.layout = true ∧ (t.storeBlk b).load b s.layout = some x ∧
        (b ≠ savesBlock → (Tbl.find t.od.pending savesBlock).isSome)) ∧
    (entryShut s 0x1F00 = false → Tbl.wf s.od.pending → answers (.flush w 1) s fun t => t.od.pending = [] ∧ t.od.vals = s.od.vals) ∧
    (entryShut s 0x1F00 = false → boundRegions s = [] → swapsRun s = false → answers (.restoreDefaults w 0x44464C54) s fun t =>
      (∀ index sub r, odRow index sub = some r → r.keep = true → r.acc = .rw → restoreSpares index = false → sub < 256 →
        t.setting index sub r.dflt = r.dflt) ∧ ∀ k, restoreSpares (k / 256) = true → Tbl.find t.od.vals k = Tbl.find s.od.vals k) ∧
    (entryShut s 0x1F00 = false → answers (.clearFallback w 1) s fun t => t.od.fellBack = [] ∧ t.od.loadFell = false ∧ t.od.vals = s.od.vals) ∧
    (∀ mask, entryShut s 0x5060 = false → answers (.clearWarnings w mask) s fun t => t.upkeep.warnings = s.upkeep.warnings &&& ~~~mask ∧ t.cores = s.cores) ∧
    (∀ mask : W32, entryShut s 0x4010 = false → answers (.clearFlags w mask) s fun t => ∀ b, mask.getLsbD b = false → t.thermal.flags.getLsbD b = s.thermal.flags.getLsbD b) ∧
    (∀ u, entryShut s 0x8000 = false → counterUnit (s.selection w (odKey 0x8000 1)) (s.selection w (odKey 0x8000 2)) = some (u, true) →
      answers (.clearOverflow w 1) s fun t => (∀ i ∈ t.power.ovf, i / 8 ≠ u) ∧ t.power.ctrs = s.power.ctrs) ∧
    (∀ v : W32, entryShut s 0x9300 = false →
      (s.observe.sillage.length < 16384 → s.observe.silLost = 0 → answers (.sillageMark w v) s fun t => t.observe.silLost = 0 ∧
        ∃ r, t.observe.sillage = s.observe.sillage ++ [r] ∧ r.type = 8 ∧ r.payload = slice (leBytes 4 v.toNat) 0 48) ∧
      (s.observe.sillage.length < 16383 → 0 < s.observe.silLost → answers (.sillageMark w v) s fun t => t.observe.silLost = 0 ∧
        ∃ l r, t.observe.sillage = s.observe.sillage ++ [l, r] ∧ l.type = 7 ∧ l.payload = slice (leBytes 8 s.observe.silLost) 0 48 ∧
          r.type = 8 ∧ r.payload = slice (leBytes 4 v.toNat) 0 48) ∧
      (16384 ≤ s.observe.sillage.length → answers (.sillageMark w v) s fun t => t.observe.sillage = s.observe.sillage ∧
        t.observe.silLost = s.observe.silLost + 1 ∧ t.observe.silDrop = s.observe.silDrop + 1)) ∧
    (bitAt (s.setting 0x9300 1 0x80) 7 = true → s.passed s.observe.markAt 1000000 = true → answers .periodicMark s fun t =>
      t.observe.markAt = s.now ∧ t.cores = s.cores)

/-! ## Serving (R295 to R372, R519) -/

/-- SUBMIT of an admissible request takes the lowest free context with the next admission number and completes; with its lengths and
token ids in range it stays QUEUED, pinned to the active version unless a swap holds admissions; an inadmissible one leaves the
controller as it was (R338, R340).
Each of these is shown to answer a next state under the conditions of its clause: submit. -/
def Obligations.Admission : Prop :=
  ∀ (s : State) (h : Nat) (o : HOut) (b : Bytes) (prompt : Option Bytes), s.cmd? h = some o → o.running = false → o.opcode = 0x20 →
    (admissible s b = none → answers (.submit h (some b) prompt) s fun t => t.cmd? h = none ∧ t.serving = s.serving) ∧
    (∀ v d c q im, (s.site (cmdSite s o)).lost = false → fieldAt o.cmd 24 8 % 4 = 0 → fieldAt b 16 8 % 4 = 0 → admissible s b = some (v, d) → freeCtx s = some c → promptBytes s d v b o.session prompt = .ok q →
      (s.region d.region).img = some im → d.promptLen ≠ 0 → d.maxTokens ≠ 0 → (d.version = 0 ∨ d.version = im.version) →
      (d.mode ≠ 2 → d.promptLen + d.maxTokens ≤ maxContext s d.region) → (d.mode = 2 → d.maxTokens ≤ d.promptLen) →
      (d.vecIn = false → ∀ k ∈ entries 4 q, k < v.vocab) →
      answers (.submit h (some b) prompt) s fun t => t.cmd? h = none ∧ t.serving.nextAdm = (s.serving.nextAdm + 1) % 2 ^ 32 ∧
        ∃ x, t.ctx? c = some x ∧ x.state = .queued ∧ x.adm = s.serving.nextAdm ∧ x.d = d ∧
          (holdsAdmissions s d.region = false → x.pinned = some im.version))

/-- A live request that is cancelled, or whose deadline passes with no output in flight, ends with one record in its ring, written at once
where the ring owes nothing and has room for it; with outputs in
flight the deadline waits for their commit; a cancel of a context that is gone changes no request; a credit wait of ParkDelay parks (R341,
R342, R367, R368, R370, R371).
Each of these is shown to answer a next state under the conditions of its clause: cancel, park, deadlinePassed. -/
def Obligations.RequestEnds : Prop :=
  ∀ (s : State) (c : Nat) (x : Ctx), s.ctx? c = some x → x.state ≠ .ended → x.tune = none → Tbl.wf s.serving.ctxs →
    let gone (t : State) : Prop := (∀ y, t.ctx? c = some y → y.state = .ended) ∧
      ∀ g, s.ring? x.d.ring = some g → (s.site g.site).lost = false →
        ∃ g', t.ring? x.d.ring = some g' ∧ g'.atEnd.written = (g.atEnd.written + 1) % 2 ^ 32 ∧
          (g.owed = [] → 1 ≤ g.free → g'.written = (g.written + 1) % 2 ^ 32)
    (∀ h o, s.cmd? h = some o → o.running = false → o.opcode = 0x21 → fieldAt o.cmd 16 4 = c →
      (fieldAt o.cmd 20 4 = x.adm → exec (.cancel h) s = .next ((endReq s c 1 0).finish h 0 0 0 0) ∧
        answers (.cancel h) s fun t => t.cmd? h = none ∧ ∀ y, t.ctx? c = some y → y.state = .ended) ∧
      (fieldAt o.cmd 20 4 ≠ x.adm → answers (.cancel h) s fun t => t.cmd? h = none ∧ t.serving = s.serving)) ∧
    (x.d.deadline ≠ 0 → x.d.deadline ≤ s.almanac.toNat → x.dead = false →
      (outputsInFlight s x.d.region c = false → answers (.deadlinePassed c) s gone) ∧
      (outputsInFlight s x.d.region c = true → answers (.deadlinePassed c) s fun t => t = s.setCtx c { x with dead := true })) ∧
    (x.state = .paused → s.passed x.pauseFrom (1000 * s.setting (0x6100 + x.d.region) 5 100000) = true →
      answers (.park c) s fun t => t = s.setCtx c { x with state := .parked, readyFrom := s.now })

/-- An open pipeline slot delivers one step: the first generation or prefill step to be repeated, which counts toward the share of prefill,
or, while nothing waits for prefill, the first generation step whose blocks are there; a STEP_TOKEN for the entry core enters the mesh behind the step's lines.  A closed slot delivers nothing (R348, R353).
Each of these is shown to answer a next state under the conditions of its clause: pipelineSlot. -/
def Obligations.SlotsDeliver : Prop :=
  ∀ (s u : State) (n : Nat) (b : BoundImage) (v : ServSec) (pe pf : Placed), b.img.serving = some v →
    b.placed[v.entryCore]? = some pe → b.placed[v.finalCore]? = some pf →
    let sent (u t : State) (kind : Nat) (segs : List Seg) : Prop := (t.region n).delivered = (u.region n).delivered + 1 ∧
      (t.region n).steps = (u.region n).steps ++ [{ seq := (u.region n).delivered % 2 ^ 32, kind := kind, segs := segs, at_ := u.now }] ∧
      ∃ f ∈ t.mesh, f.loc = pe.core ∧ f.pkt.op = 9 ∧ f.pkt.dest = pe.core
    (slotOpen s n = false → answers (.pipelineSlot n) s fun t => t = s) ∧
    (slotOpen s n = true → exec (.pipelineSlot n) s = .next (fillSlot s n)) ∧
    (∀ p, slotOpen s n = true → (s.region n).nextAgain false = some p → (s.region n).img = some b → answers (.pipelineSlot n) s fun t =>
      sent s t p.kind p.segs ∧ (t.region n).again = (s.region n).again.erase p ∧
      (t.region n).genRun = if p.kind = 2 ∧ s.serving.ctxs.any (prefillable n) = true then (s.region n).genRun + 1 else 0) ∧
    (∀ c x l, slotOpen s n = true → (s.region n).nextAgain false = none → s.serving.ctxs.any (prefillable n) = false → genOrder s n = c :: l →
      s.ctx? c = some x → allocFor s n c (x.done + x.treeSize) = some u → (u.region n).img = some b → answers (.pipelineSlot n) s fun t =>
        sent u t 2 [{ ctx := c, base := x.done, n := x.treeSize, outs := x.treeSize, tree := x.d.depth ≠ 0, prev := x.prevBase }])

/-- SP_RESULT on the last stage posts its notice and takes the result at stage 0 or forwards it.  The one result of a plain generation step commits its token: the record goes to the ring, the token joins the request, the step is
over.  A step without outputs leaves with its prefill counted (R343, R352, R364, R366).
Each of these is shown to answer a next state under the conditions of its clause: spResult, stepLeavesImage. -/
def Obligations.StepsCommit : Prop :=
  ∀ (s : State) (n c seq : Nat) (b : BoundImage) (v : ServSec) (p : StepRec) (g : Seg) (x : Ctx), (s.region n).img = some b →
    (∀ res, b.img.stage + 1 = b.img.stages → b.bound = true → exec (.spResult n c seq res) s = .next (
      let u := arrivePost s b c res
      if b.img.stage = 0 then takeResult u n c seq res else forwardResult u b c seq res)) ∧
    (b.img.serving = some v → b.img.stage = 0 → b.img.stages = 1 → b.bound = true → s.ctx? c = some x → x.d.region = n → x.tune = none →
    (s.region n).steps.find? (fun q => q.seq = seq) = some p → p.segs = [g] → g.ctx = c →
    (∀ res, p.kind = 2 → g.outs = 1 → x.state = .generate → x.dead = false → x.d.mode = 0 → x.d.depth = 0 → x.resultsOf seq = [] →
      resNode res = 0 → x.d.stops.contains (resTok res) = false → resTok res ≠ v.eosTok → x.sent + 1 < x.d.maxTokens →
      answers (.spResult n c seq res) s fun t => (∀ q ∈ (t.region n).steps, q.seq ≠ seq) ∧
        (∃ y, t.ctx? c = some y ∧ y.sent = x.sent + 1 ∧ y.toks = x.toks ++ [resTok res] ∧ (y.state = .generate ∨ y.state = .paused)) ∧
        ∀ r, s.ring? x.d.ring = some r → ∃ r', t.ring? x.d.ring = some r' ∧ r'.atEnd.written = (r.atEnd.written + 1) % 2 ^ 32 ∧
          (r.owed = [] → 2 ≤ r.free → r'.written = (r.written + 1) % 2 ^ 32)) ∧
    ((∀ h ∈ p.segs, h.outs = 0) → exec (.stepLeavesImage n seq) s = .next (tuneLeft (stepLeft s n p) n p)) ∧
    (p.kind = 1 → g.outs = 0 → x.state = .prefill → x.refill = 0 → x.d.maxTokens ≠ 0 → x.dead = false →
      answers (.stepLeavesImage n seq) s fun t => (∀ q ∈ (t.region n).steps, q.seq ≠ seq) ∧
        ∃ y, t.ctx? c = some y ∧ y.prefilled = x.prefilled + g.n ∧ y.state = .prefill ∧ y.toks = x.toks))

/-- A block whose last step has left closes under its chain hash and is published or kept CLOSED; a core of the pair compacts a closed
block of its INT4 pair; an evicted block comes back from its frame into a free block, and a frame that does not check ends the request
with KV_LOST; FLUSH_PREFIX empties a region's index; a window of 100 µs opens each region's slots in the part that its gate level gives (R296, R301, R311,
R312, R519).
Each of these is shown to answer a next state under the conditions of its clause: frameReturn, blockClose, int4Compaction, flushPrefix,
gateWindow. -/
def Obligations.BlocksMove : Prop :=
  ∀ (s : State) (c : Nat) (x : Ctx), s.ctx? c = some x →
    let n := x.d.region
    (∀ k cb, x.blocks[k]? = some cb → cb.frame = none → ((s.region n).blk cb.blk).state = .openB → blockWritten s n c k x = true →
      answers (.blockClose c k) s fun t => let y := (t.region n).blk cb.blk
        (y.state = .closed ∨ y.state = .published) ∧ y.count = ((s.region n).blk cb.blk).count ∧
        y.hash = ((chain (x.pinned.getD 0) (k + 1) x.toks).getLast?).getD [] ∧ t.cores = s.cores) ∧
    (∀ core slot im v e m, ownerOf s core = some m → (s.region m).img = some im → vcoreAt s m core = some v → im.img.cores[v]? = some e →
      e.pair?.isSome → int4On s m = true → slot % 2 = 0 → slot < 256 →
      ((s.region m).blk (slot * im.img.pairSize + im.img.pairIndex v)).state = .closed → (s.core core).packed.contains slot = false →
      usable s core = true →
      ((s.core core).clockOn = true ∨
        (s.thermal.state ≠ 1 ∧ ((s.preg (powerOf core)).state = .run ∨ (s.preg (powerOf core)).state = .nap))) →
      answers (.int4Compaction core slot) s fun t =>
        (t.core core).packed = (s.core core).packed ++ [slot] ∧ ∀ d, d ≠ core → t.core d = s.core d) ∧
    (∀ frames : List (Option Bytes), (x.state = .generate ∨ x.state = .prefill) →
      let gone := x.blocks.zipIdx.filter fun e => e.1.frame.isSome
      let u := gone.foldl (fun v e => winAsk v n (s.setting (0x6280 + n) 2 255) (e.1.frame.getD 0 * frameSize s n) (frameSize s n)) s
      let got := gone.zipIdx.map fun e => (e.1.2, framePlain u n x e.1.1 (nth frames e.2 none))
      gone ≠ [] →
      ((∀ e ∈ got, e.2.isSome) → returnGo n c (got.map fun e => (e.1, e.2.getD [])) u = none → exec (.frameReturn c frames) s = .next u) ∧
      (∀ v, (∀ e ∈ got, e.2.isSome) → returnGo n c (got.map fun e => (e.1, e.2.getD [])) u = some v →
        (∀ y, v.ctx? c = some y → ∀ e ∈ y.blocks, e.frame = none) →
        exec (.frameReturn c frames) s = .next (v.updCtx c fun y => { y with readyFrom := s.now })) ∧
      ((∃ e ∈ got, e.2 = none) → exec (.frameReturn c frames) s = .next (endReq u c 5 0))) ∧
    (∀ im cb f d p b, x.blocks = [cb] → cb.frame = some f → (x.state = .generate ∨ x.state = .prefill) → (s.region n).img = some im →
      framePlain s n x cb (some d) = some p → im.img.pairSize ≠ 0 →
      freeAt s n im.img.pairSize ((s.region n).cursor % im.img.pairSize) = some b →
      answers (.frameReturn c [some d]) s fun t => ((t.region n).blk b).count = 1 ∧
        ∃ y, t.ctx? c = some y ∧ y.blocks = [{ cb with blk := b, frame := none, digest := [], evict := 0 }]) ∧
    (∀ cb, x.blocks = [cb] → cb.frame.isSome → (x.state = .generate ∨ x.state = .prefill) → x.tune = none → Tbl.wf s.serving.ctxs →
      answers (.frameReturn c [none]) s fun t => ∀ y, t.ctx? c = some y → y.state = .ended) ∧
    (∀ w m, entryShut s 0x6200 = false → m < 64 → answers (.flushPrefix w m) s fun t => (∀ e ∈ t.serving.index, e.region ≠ m) ∧ t.serving.ctxs = s.serving.ctxs) ∧
    answers .gateWindow s fun t => ∀ m r, Tbl.find s.regions m = some r →
      (t.region m).gateFrom = s.almanac.toNat / 100000 * 100000 ∧ (gateOpen t m = true ↔ s.thermal.state = 0 ∧
        (gateLevel s r = 0 ∨ s.almanac.toNat % 100000 < (16 - gateLevel s r) * 6250))

/-! ## Loading, swapping and moving images (R262 to R286, R380 to R402, R434 to R440) -/

/-- LOAD of an image that passes every check holds its region with the image unbound and begins the arrival of its shards; the handle
stays open.  A LOAD into a region that holds an image is refused and changes no region (R262, R263, R386).
Each of these is shown to answer a next state under the conditions of its clause: load. -/
def Obligations.LoadBegins : Prop :=
  ∀ (s : State) (h : Nat) (o : HOut) (stages control manifest : Option Bytes), s.cmd? h = some o → o.running = false → o.opcode = 0x30 →
    let n := fieldAt o.cmd 16 1
    let slot := fieldAt o.cmd 17 1
    let count := fieldAt o.cmd 18 1
    n < 64 → (s.region n).state = 1 → (s.region n).grant.getLsbD 0 = true →
    (count = 0 ∨ (stages.isSome ∧ (s.site (cmdSite s o)).lost = false ∧ fieldAt o.cmd 24 8 % 4 = 0)) →
    (∀ m tab c l y relaxed, (s.region n).img = none → namedImage s n slot count stages control manifest = .ok (m, tab, c) →
      placeImage s n m = (.ok (l, y), relaxed) → m.shards ≠ [] → (∀ b : BoundImage, b.img = m → b.placed = l → misplaced s b = []) →
      answers (.load h stages control manifest) s fun t =>
        (∃ b, (t.region n).img = some b ∧ b.img = m ∧ b.placed = l ∧ b.bound = false ∧ b.slot = slot ∧ b.stageTab = tab) ∧
        (∃ x, (t.region n).op = some x ∧ x.phase = .loadProgram ∧ x.handle = some h ∧ x.img = m) ∧ ∃ q, t.cmd? h = some q ∧ q.running = true) ∧
    ((s.region n).img.isSome → answers (.load h stages control manifest) s fun t => t.cmd? h = none ∧ t.regions = s.regions ∧ t.cores = s.cores)

/-- While an image is verified, a good reading of a shard arrives; a bad one counts as a failure, and the fourth ends a load with its
region unbound; a programmed array has one full write more and its tile done; the read-back, which waits for the converter sets of the
shard's arrays, verifies a shard whose digest agrees and has any other read again.  For an arrival and a programmed array the state that exec answers is named for every phase (R43, R44, R263,
R264, R380 to R384, R390).
Each of these is shown to answer a next state under the conditions of its clause: shardArrival, shardReadback, arrayProgrammed. -/
def Obligations.ShardsProgram : Prop :=
  ∀ (s : State) (n shard : Nat) (o : LoadOp) (b : BoundImage), (s.region n).op = some o → (s.region n).img = some b →
    let src := opSource (s.region n) o
    (∀ h data, let shut : Prop := b.bound = false ∧ o.phase = .rollback ∧ ∀ w, Tbl.find (s.region n).windows b.slot = some w → w.read = false
      ¬ shut → o.phase ≠ .relocate → (inFlightShards (s.region n) o).contains shard = true → src.1.shards.find? (fun x => x.shard = shard) = some h →
      exec (.shardArrival n shard data) s = .next (shardRead s n o h data)) ∧
    (∀ h data p, o.phase = .verify → o.failed = none → (inFlightShards (s.region n) o).contains shard = true →
      src.1.shards.find? (fun x => x.shard = shard) = some h → goodShard s n o h data = some p →
      shardOk src.1 h.shard p (othersOn src.1 o h.shard) = true → (∃ g ∈ src.1.shards, g.shard ≠ shard ∧ (o.shard g.shard).arrived = false) →
      answers (.shardArrival n shard data) s fun t => ∃ x, (t.region n).op = some x ∧ x.phase = .verify ∧ (x.shard shard).arrived = true) ∧
    (∀ h data, o.phase = .loadProgram → (inFlightShards (s.region n) o).contains shard = true →
      src.1.shards.find? (fun x => x.shard = shard) = some h → (Tbl.find (s.region n).windows src.2.1).isSome → goodShard s n o h data = none →
      ((o.shard shard).failures < 3 → answers (.shardArrival n shard data) s fun t =>
        ∃ x, (t.region n).op = some x ∧ (x.shard shard).failures = (o.shard shard).failures + 1 ∧ (x.shard shard).arrived = false) ∧
      (3 ≤ (o.shard shard).failures → answers (.shardArrival n shard data) s fun t => (t.region n).img = none ∧ (t.region n).op = none ∧
        ∀ x, o.handle = some x → t.cmd? x = none)) ∧
    (∀ core array failed h i t p, s.thermal.state = 0 → s.power.auxLost = none → usable s core = true →
      s.regions.find? (fun e => match e.2.op with | some x => x.busy.contains (32 * core + array) | none => false) = some (n, s.region n) →
      (wantedShards (s.region n) o).findSome? (fun h => ((shardTiles src.1 src.2.2 h).find? fun x => x.2.2 = (core, array)).map fun x => (h, x)) =
        some (h, i, t, p) →
      let rest := { o with busy := o.busy.filter (· ≠ 32 * core + array) }.setShard h { o.shard h with done := (o.shard h).done ++ [i] }
      exec (.arrayProgrammed core array failed) s = .next (advance (programArray (opProgress (setOp s n rest) n) core array
        (Tbl.get (o.shard h).records [] i) (t.layer, t.shard, t.offset) failed) n)) ∧
    (∀ core array i t p, o.phase = .rewrite → o.failed = none → s.thermal.state = 0 → s.power.auxLost = none → usable s core = true →
      ((s.core core).arr array).subst = [] → ((s.core core).arr array).worn = [] →
      s.regions.find? (fun e => match e.2.op with | some x => x.busy.contains (32 * core + array) | none => false) = some (n, s.region n) →
      (wantedShards (s.region n) o).findSome? (fun h => ((shardTiles src.1 src.2.2 h).find? fun x => x.2.2 = (core, array)).map fun x => (h, x)) =
        some (shard, i, t, p) → ((s.core core).arr array).colEvents = [] → ((s.core core).arr array).fullWrites + 1 < 1000000 →
      answers (.arrayProgrammed core array []) s fun u =>
        ((u.core core).arr array).fullWrites = ((s.core core).arr array).fullWrites + 1 ∧
        ∃ x, (u.region n).op = some x ∧ (x.shard shard).done.contains i = true) ∧
    (∀ whole recs, o.phase = .rewrite → o.failed = none → (wantedShards (s.region n) o).contains shard = true →
      let st := o.shard shard
      let ts := shardTiles src.1 src.2.2 shard
      shardWritten s o st ts = true → setsFree s ts = true → rebuildShard (s.draw (2 ^ 21 * ts.length)).2 (s.draw (2 ^ 21 * ts.length)).1
        (match src.1.shards.find? (fun h => h.shard = shard) with | some h => h.size | none => 0) st ts = (whole, recs) →
      ((src.1.manifest.any fun e => e.shard = shard && e.digest = sha256 whole) = true → answers (.shardReadback n shard) s fun u =>
        ∃ x, (u.region n).op = some x ∧ (x.shard shard).verified = true) ∧
      ((src.1.manifest.any fun e => e.shard = shard && e.digest = sha256 whole) = false → st.failures < 3 → answers (.shardReadback n shard) s
        fun u => ∃ x, (u.region n).op = some x ∧ x.shard shard = { ShardSt.reset with failures := st.failures + 1 })) ∧
    (o.phase = .rewrite → setsFree s (shardTiles src.1 src.2.2 shard) = false → exec (.shardReadback n shard) s = .next s)

/-- UNLOAD takes the image out of its region, with its requests' steps and its blocks; REBIND binds a recorded image again from its control
part (R262, R277, R312, R388).
Each of these is shown to answer a next state under the conditions of its clause: unload, rebind. -/
def Obligations.ImagesLeaveAndReturn : Prop :=
  ∀ (s : State) (n : Nat) (b : BoundImage), n < 64 → (s.region n).img = some b →
    (∀ h o, s.cmd? h = some o → o.running = false → o.opcode = 0x31 → fieldAt o.cmd 16 1 = n → answers (.unload h) s fun t =>
      t.cmd? h = none ∧ (t.region n).img = none ∧ (t.region n).op = none ∧ (t.region n).pool = [] ∧ (t.region n).steps = [] ∧
        (t.region n).keyAct = none) ∧
    (∀ c u w, b.bound = false → (s.region n).op = none → s.boot.phase = .complete → Tbl.find (s.region n).windows b.slot = some w →
      w.read = true → b.img.ctlBytes ≤ w.size → sha256 c = b.img.ctlDigest →
      bindImage (winAsk s n b.slot 0 b.img.ctlBytes) n b c true = some u →
      (∀ p ∈ b.placed, ((startCores u b).core p.core).fence = none) →
      answers (.rebind n (some c)) s fun t => ∃ x, (t.region n).img = some x ∧ x.bound = true ∧ x.img = b.img ∧ x.placed = b.placed)

/-- SWAP of a compatible image begins to verify it beside the served one; the barrier closes on no step and the rewrite begins; a drain
past its deadline closes the barrier; SWAP_ACTIVATE puts the new version in service, and SWAP_GROUP_TIMEOUT ends a swap with the old one
untouched; for each the state that exec answers is named whatever requests run (R391 to R393, R400, R401).
Each of these is shown to answer a next state under the conditions of its clause: swap, swapBarrierClosed, drainDeadline, swapActivate,
swapGroupTimeout. -/
def Obligations.SwapPhases : Prop :=
  ∀ (s : State) (n : Nat) (b : BoundImage), (s.region n).img = some b →
    (∀ h o stages control manifest m tab c, s.cmd? h = some o → o.running = false → o.opcode = 0x32 → fieldAt o.cmd 16 1 = n → n < 64 →
      (((s.region n).state = 1 ∧ b.active = true) ∨ (s.region n).split = true) → (s.region n).grant.getLsbD 0 = true →
      (fieldAt o.cmd 18 1 = 0 ∨ (stages.isSome ∧ (s.site (cmdSite s o)).lost = false ∧ fieldAt o.cmd 24 8 % 4 = 0)) → (s.region n).op = none → (s.region n).relocs = [] →
      namedImage s n (fieldAt o.cmd 17 1) (fieldAt o.cmd 18 1) stages control manifest = .ok (m, tab, c) → swapFits b m = true → m.shards ≠ [] →
      answers (.swap h stages control manifest) s fun t => (t.region n).img = some b ∧
        ∃ x, (t.region n).op = some x ∧ x.swap = true ∧ x.phase = .verify ∧ x.img = m ∧ x.handle = some h) ∧
    (∀ o, (s.region n).op = some o → o.swap = true →
      (o.phase = .drain → o.failed = none → o.later = false → drainShut s n o = true →
        let u := endSwapJobs (setOp s n { o with closed := true }) n
        ((u.region n).steps ≠ [] ∨ (u.region n).flush ≠ none → exec (.swapBarrierClosed n) s = .next u) ∧
        ((u.region n).steps = [] → (u.region n).flush = none → answers (.swapBarrierClosed n) s fun t =>
          ∃ x, (t.region n).op = some x ∧ x.phase = .rewrite ∧ x.closed = true ∧ x.img = o.img)) ∧
      (o.phase = .drain → o.later = false → o.policy = 0 → o.closed = false → s.passed o.since (o.drain * 1000000) = true →
        answers (.drainDeadline n) s fun t => (t.region n).op = some { o with closed := true } ∧
          t = endSwapJobs (setOp s n { o with closed := true }) n) ∧
      (∀ c u, o.phase = .rewrite → o.failed = none → allVerified (s.region n) o = true → sha256 c = o.img.ctlDigest →
        let new := { b with img := o.img, slot := o.slot, stageTab := o.stageTab }
        bindImage (winAsk s n o.slot 0 o.img.ctlBytes) n new c false = some u →
        let w := setOp (restartCores u new) n { o with phase := .activate, since := s.now }
        (o.grouped = false → exec (.swapActivate n (some c)) s = .next (finishSwap (restartCores u new) n)) ∧
        (o.later = true → exec (.swapActivate n (some c)) s = .next (opControl w n 0 5 0)) ∧
        (o.lead = true → exec (.swapActivate n (some c)) s = .next (orderSwitch w n))) ∧
      (∀ c u, o.phase = .rewrite → o.failed = none → allVerified (s.region n) o = true → sha256 c = o.img.ctlDigest → o.grouped = false →
        s.serving.ctxs = [] → s.setting 0x2010 1 1 ≠ 0 → bindImage (winAsk s n o.slot 0 o.img.ctlBytes) n { b with img := o.img, slot := o.slot, stageTab := o.stageTab } c false = some u →
        answers (.swapActivate n (some c)) s fun t => (t.region n).op = none ∧ (∀ h, o.handle = some h → t.cmd? h = none) ∧
          ∃ x, (t.region n).img = some x ∧ x.img = o.img ∧ x.version = o.img.version ∧ x.active = true) ∧
      (o.phase = .verify → o.grouped = true → s.passed o.since (s.setting 0x6480 7 600000 * 1000000) = true →
        exec (.swapGroupTimeout n) s = .next (endSwapEarly (if o.later then opControl s n 0 3 6 else opControlAll s n 8 6) n 6 0 0)) ∧
      (o.phase = .verify → o.grouped = true → s.passed o.since (s.setting 0x6480 7 600000 * 1000000) = true → s.serving.ctxs = [] →
        s.setting 0x2010 1 1 ≠ 0 →
        answers (.swapGroupTimeout n) s fun t => (t.region n).op = none ∧ (t.region n).img = some b ∧ ∀ h, o.handle = some h → t.cmd? h = none))

/-- RELOCATE queues the virtual cores of the cores it lists as one trigger, and an entry off its region is refused with its index;
RELOCATION takes the first trigger, with its records at hand, to its new places; WINDOW grants, replaces and withdraws a slot (R278 to
R282, R434, R436, R438 to R440).
Each of these is shown to answer a next state under the conditions of its clause: relocation, relocate, window. -/
def Obligations.CoresMove : Prop :=
  ∀ (s : State) (n : Nat), n < 64 →
    (∀ h o list, s.cmd? h = some o → o.running = false → o.opcode = 0x33 → fieldAt o.cmd 16 1 = n →
      let count := fieldAt o.cmd 20 4
      let es := entries 4 (slice list 0 (4 * count))
      let cs := sortBy id (es.map fun e => coreKey (e / 65536) (e % 65536)).eraseDups
      let inside (e : Nat) : Prop := e / 65536 ≤ 127 ∧ e % 65536 ≤ 149 ∧
        inRect (s.region n).nw (s.region n).se (coreKey (e / 65536) (e % 65536)) = true
      count ≠ 0 → count ≤ 19200 → (s.site (cmdSite s o)).lost = false → fieldAt o.cmd 24 8 % 4 = 0 →
      ((∀ e ∈ es, inside e) → (s.region n).state = 1 → s.setting 0x2010 1 1 = 1 → cs.filterMap (fun c => holderOf s n c) ≠ [] →
        answers (.relocate h (some list)) s fun t =>
          (t.region n).relocs = ((s.region n).queueReloc (cs.filterMap (fun c => holderOf s n c), cs, some h) cs).relocs ∧ ∃ q, t.cmd? h = some q ∧ q.running = true) ∧
      (∀ i e, (s.region n).state ≠ 0 → es[i]? = some e → ¬ inside e → (∀ j < i, ∀ e, es[j]? = some e → inside e) →
        exec (.relocate h (some list)) s = .next ((s.operand o (fieldAt o.cmd 24 8) (4 * count) (some list)).1.finish h 5 1 0 i)) ∧
      ((∃ e ∈ es, ¬ inside e) → answers (.relocate h (some list)) s fun t => t.cmd? h = none ∧ t.regions = s.regions)) ∧
    (∀ olds all h rest b c tiles, (s.region n).relocs = (all, olds, h) :: rest → (s.region n).img = some b →
      (s.region n).state = 1 → (s.region n).op = none → b.bound = true → (s.region n).flush = none → (s.region n).steps = [] →
      let vs := stillToMove s b all olds
      (vs = [] → exec (.relocation n c tiles) s =
        .next (tryRelease (finishOp (s.updRegion n fun r => { r with relocs := rest }) h 0 0 0) n)) ∧
      (∀ relaxed, vs ≠ [] → relocPlaces s n b vs olds h.isSome = (none, relaxed) →
        exec (.relocation n c tiles) s = .next (relocFail (s.countSpread relaxed) n)) ∧
      (∀ l relaxed recs ctl, vs ≠ [] → relocPlaces s n b vs olds h.isSome = (some l, relaxed) → sourceOpen (s.region n) b = true → c = some ctl →
        sha256 ctl = b.img.ctlDigest →
        let moved := (b.img.tiles.filter fun t => vs.contains t.vcore && !t.host).map (·.shard)
        let v := (b.img.shards.filter fun x => moved.contains x.shard).foldl (fun v x => winAsk v n b.slot x.source (shardSpan v x))
          (winAsk (s.countSpread relaxed) n b.slot 0 b.img.ctlBytes)
        relocRecords v b vs tiles = .ok recs →
        exec (.relocation n c tiles) s = .next (advance (setOp v n (relocOp v b h vs l ctl recs)) n) ∧
        (recs ≠ [] → (∀ v ∈ vs, v ∉ misplaced s { b with placed := l }) → answers (.relocation n c tiles) s fun t => ∃ x, (t.region n).op = some x ∧ x.phase = .relocate ∧ x.moved = vs ∧ x.spots = l ∧ x.handle = h))) ∧
    ∀ h o, s.cmd? h = some o → o.running = false → o.opcode = 0x34 → fieldAt o.cmd 16 1 = n → fieldAt o.cmd 17 1 < 16 →
      let f := fieldAt o.cmd
      (slotReads s n (f 17 1) ≠ [] → f 32 8 = 0 → answers (.window h) s fun t => ∃ x, t.cmd? h = some x ∧ x.running = true ∧
        x.tags = slotReads s n (f 17 1)) ∧
      (slotReads s n (f 17 1) = [] → f 32 8 ≠ 0 → f 24 8 % 4096 = 0 → f 32 8 % 4096 = 0 → f 32 8 ≤ 2 ^ 40 - 4096 → 1 ≤ f 18 1 → f 18 1 ≤ 3 → 1 ≤ f 19 1 → f 19 1 < 16 →
        (∀ i < 4, bitAt (f 19 1) i = true → (s.site i).up = true) → answers (.window h) s fun t => t.cmd? h = none ∧
          Tbl.find (t.region n).windows (f 17 1) =
            some { base := f 24 8, size := f 32 8, sites := f 19 1, write := bitAt (f 18 1) 1, read := bitAt (f 18 1) 0 }) ∧
      (slotReads s n (f 17 1) = [] → f 32 8 = 0 → Tbl.wf (s.region n).windows → answers (.window h) s fun t => t.cmd? h = none ∧
        Tbl.find (t.region n).windows (f 17 1) = none)

/-! ## Upkeep (R101 to R119, R123, R434) -/

/-- Refresh ages grow by 0.1 s a tick at or below 55 degrees and by twice that at 65; a slot opens on an idle set with the lowest task that
can run, a sample pending for 20 ms forces a slice, and the end of a slice frees its set, does its work, unless its array has left service or it pulses without
VDD_AUX, and counts a calibrated row group; CALIBRATE
schedules a pass on each programmed array it names and is refused off the wafer (R102, R106, R110, R113 to R115, R118, R434, R488).
Each of these is shown to answer a next state under the conditions of its clause: calibrate, ageTick, sentinelForce, intercalarySlot,
upkeepSliceEnd. -/
def Obligations.UpkeepWork : Prop :=
  ∀ (s : State) (c set : Nat),
    let x := (s.core c).set set
    let begins (t : State) (k : Task) (forced : Bool) : Prop := ((t.core c).set set).slice = some ⟨k, s.now, forced⟩ ∧ ((t.core c).set set).use = 5 ∧
      ∀ d, d ≠ c → t.core d = s.core d
    (answers .ageTick s fun t => (∀ g < 240, ((s.preg g).hot ≤ degC 55 → (t.preg g).aged = (s.preg g).aged + 65536) ∧
      ((s.preg g).hot = degC 65 → (t.preg g).aged = (s.preg g).aged + 131072)) ∧ t.regions = s.regions ∧ t.host = s.host) ∧
    (∀ k, set < 8 → upkeepPower s c = true → x.slice = none → slotOk s (s.core c) set = true → nextTask s c set false = some k →
      forcedTask s x k = false → answers (.intercalarySlot c set) s fun t => begins t k false ∧ t.upkeep = s.upkeep ∧
        ∀ u ∈ setTasks s c set, taskOk s c (s.core c) u = true → k.level ≤ u.level) ∧
    (∀ k, set < 8 → upkeepPower s c = true → x.slice = none → nextTask s c set (!slotOk s (s.core c) set) = some k →
      forcedTask s x k = true → forcedOk s (s.core c) set k = true → answers (.intercalarySlot c set) s fun t =>
        begins t k true ∧ t.upkeep.warnings = s.upkeep.warnings ||| 4) ∧
    (∀ m, set < 8 → x.sample = some m → s.passed m.since 20000000 = true → upkeepPower s c = true → x.slice = none →
      taskOk s c (s.core c) ⟨1, m.array⟩ = true → forcedOk s (s.core c) set ⟨1, m.array⟩ = true → answers (.sentinelForce c set) s fun t =>
        begins t ⟨1, m.array⟩ true ∧ t.upkeep.warnings = s.upkeep.warnings ||| 4) ∧
    (∀ y, x.slice = some y →
      let k := s.core c
      let u := s.setCore c (k.setSet set { x with slice := none, use := if x.use = 5 then 0 else x.use, fixAfter := k.seq.opNum })
      let v := upkeepReturn (bearSlice (sliceWork u c set y.task) c set k y) (powerOf c)
      let st := (k.arr y.task.array).state
      let halts : Prop := y.task.pulses = true ∧ s.power.auxLost.isSome
      (st = 0 ∨ st = 4 → ¬ halts → exec (.upkeepSliceEnd c set) s = .next (match ownerOf v c with | some n => advance v n | none => v)) ∧
      (st = 1 ∨ st = 2 ∨ st = 3 ∨ st = 5 ∨ halts → exec (.upkeepSliceEnd c set) s = .next (upkeepReturn (bearSlice u c set k y) (powerOf c)))) ∧
    (∀ a from_ forced, x.slice = some ⟨⟨4, a⟩, from_, forced⟩ → x.use = 5 → ((s.core c).arr a).state = 0 →
      ((s.core c).arr a).calGroup < 7 → (s.preg (powerOf c)).upkeepFrom = none → ownerOf s c = none → answers (.upkeepSliceEnd c set) s fun t => ((t.core c).set set).slice = none ∧ ((t.core c).set set).use = 0 ∧
        ((t.core c).arr a).calGroup = ((s.core c).arr a).calGroup + 1 ∧ (t.core c).mem = (s.core c).mem) ∧
    ∀ h o, s.cmd? h = some o → o.running = false → o.opcode = 0x51 →
      let w := fieldAt o.cmd 16 4
      (w ≠ 0xFFFFFFFF → (127 < w / 65536 ∨ 149 < w % 65536) → answers (.calibrate h) s fun t => t.cmd? h = none ∧ t.cores = s.cores) ∧
      (∀ a y, (w = 0xFFFFFFFF ∨ (w / 65536 ≤ 127 ∧ w % 65536 ≤ 149)) → calScope w c = true → usable s c = true → Tbl.wf s.host.handles →
        Tbl.find (s.core c).arrays a = some y → y.format ≠ 0 → y.state = 0 → answers (.calibrate h) s fun t =>
          (∃ k ∈ ((t.core c).set (a / 4)).tasks, k.array = a ∧ k.level = 6) ∧ ∃ q, t.cmd? h = some q ∧ q.running = true)

/-! ## Keys, sessions, firmware and tuning (R330, R331, R544, R546, R555 to R565) -/

/-- ATTEST waits for its signature and is refused when its buffer is too short, and the signed report ends it; the build of a lower tree
lets signing go on; the custody switch follows a write that its conditions admit; a session opens under a fresh number and closes; KEYLOAD
holds the unwrapped key for the region's next load; FW_WRITE fills the bank that is not active and FW_ACTIVATE starts it warm; TUNE enters
its job.
Each of these is shown to answer a next state under the conditions of its clause: tune, attest, fwWrite, fwActivate, sessionOpen,
sessionClose, keyload, lowerTreeBuilt, custodyEnable, sessionIdle, attestSigned. -/
def Obligations.KeysAndFirmware : Prop :=
  ∀ (s : State),
    (∀ h o, s.cmd? h = some o → o.running = false →
      let f := fieldAt o.cmd
      let done (t : State) : Prop := t.cmd? h = none
      let runs (t : State) : Prop := ∃ q, t.cmd? h = some q ∧ q.running = true
      (∀ b, (s.site (cmdSite s o)).lost = false → fieldAt o.cmd 24 8 % 4 = 0 → o.opcode = 0x50 → attestRefusal s o = none → s.boot.signing.isSome → answers (.attest h (some b)) s fun t =>
        runs t ∧ t.boot.attests = s.boot.attests ++ [(h, b)] ∧ t.boot.signing = s.boot.signing ∧ t.boot.leaf = s.boot.leaf) ∧
      (∀ b, (s.site (cmdSite s o)).lost = false → fieldAt o.cmd 24 8 % 4 = 0 → o.opcode = 0x50 → s.boot.leafSound = true → s.boot.leaf < 2 ^ 30 → f 40 4 < attestLength s →
        answers (.attest h (some b)) s fun t => done t ∧ t.boot = s.boot) ∧
      (∀ b, (s.site (cmdSite s o)).lost = false → fieldAt o.cmd 24 8 % 4 = 0 → o.opcode = 0x56 → b.length = 1592 → f 32 4 = 1592 → fieldAt b 0 4 = 1 → s.boot.sessions.length < 256 →
        answers (.sessionOpen h (some b)) s fun t => done t ∧ ∃ i x, i ≠ 0 ∧ s.session? i = none ∧ t.session? i = some x ∧ x.admin = false ∧
          x.mac = hkdf (slice b 8 16) (Config.kemDecaps (kemSeed s) (slice b 24 1568)) (ascii "mac") 32) ∧
      (∀ x, o.opcode = 0x57 → s.session? o.session = some x → Tbl.wf s.boot.sessions → answers (.sessionClose h) s fun t =>
        done t ∧ t.session? o.session = none) ∧
      (∀ b, (s.site (cmdSite s o)).lost = false → fieldAt o.cmd 24 8 % 4 = 0 → o.opcode = 0x58 → f 16 1 < 64 → b.length = 1644 →
        (∀ k, unwrapKey s b = some k → answers (.keyload h (some b)) s fun t => done t ∧
          (t.region (f 16 1)).keyPend = some (fieldAt b 1568 8, fieldAt b 1576 1, k) ∧ (t.region (f 16 1)).keyAct = (s.region (f 16 1)).keyAct) ∧
        (unwrapKey s b = none → answers (.keyload h (some b)) s fun t => done t ∧ t.regions = s.regions)) ∧
      (∀ b, (s.site (cmdSite s o)).lost = false → fieldAt o.cmd 24 8 % 4 = 0 → o.opcode = 0x54 → f 32 4 = b.length → b ≠ [] → b.length ≤ 4194304 → s.boot.activeBank ≤ 1 →
        (fwSigned b = true → s.boot.minSec ≤ fwSecurity b → answers (.fwWrite h (some b)) s fun t => done t ∧
          t.bank (1 - s.boot.activeBank) = b ∧ t.bank s.boot.activeBank = s.bank s.boot.activeBank ∧ t.boot.written = true) ∧
        (fwSigned b = false → answers (.fwWrite h (some b)) s fun t => done t ∧ t.boot = s.boot)) ∧
      (o.opcode = 0x55 → s.boot.written = true → answers (.fwActivate h) s fun t => done t ∧ t.boot.phase = .trigger 2 ∧
        t.boot.pendBank = some (1 - s.boot.activeBank)) ∧
      (o.opcode = 0x55 → s.boot.written = false → answers (.fwActivate h) s fun t => done t ∧ t.boot = s.boot) ∧
      (∀ b, (s.site (cmdSite s o)).lost = false → fieldAt o.cmd 24 8 % 4 = 0 → o.opcode = 0x40 → tuneOk s (tuneParams b) = true → answers (.tune h (some b)) s fun t => runs t ∧
        ∃ j ∈ t.serving.jobs, j.handle = h ∧ j.region = (tuneParams b).region ∧ j.params = b) ∧
      (∀ b, o.opcode = 0x40 → tuneOk s (tuneParams b) = false → answers (.tune h (some b)) s fun t => done t ∧ t.serving = s.serving)) ∧
    (∀ h body, s.boot.signing = some (h, body) → s.boot.attests = [] → answers .attestSigned s fun t =>
      t.boot.signing = none ∧ t.cmd? h = none) ∧
    (∀ h body, s.boot.signing = some (h, body) →
      let q := bodyLeaf body
      let report := body ++ slice (Config.hssSign (keyPart s 0 32) (keyPart s 32 16) q body) 0 5396
      let v := match s.cmd? h with
        | some o => (s.hostWrite (cmdSite s o) (fieldAt o.cmd 32 8) report).finish h 0 0 q report.length
        | none => s
      let tree := v.boot.treeOk && (q + 1) % 2 ^ 20 ≠ 0
      exec .attestSigned s = .next (startSigning { v with boot := { v.boot with
        signing := none, treeOk := tree || 2 ^ 30 ≤ v.boot.leaf, attState := if 2 ^ 30 ≤ v.boot.leaf then 3 else if tree then 0 else 1 } })) ∧
    (s.boot.phase = .complete → s.boot.treeOk = false → exec .lowerTreeBuilt s = .next (startSigning { s with boot := { s.boot with
      treeOk := true, attState := if !s.boot.leafSound then 2 else if 2 ^ 30 ≤ s.boot.leaf then 3 else 0 } })) ∧
    (s.boot.phase = .complete → s.boot.treeOk = false → s.boot.leafSound = true → s.boot.leaf < 2 ^ 30 → s.boot.attests = [] →
      answers .lowerTreeBuilt s fun t => t.boot.treeOk = true ∧ t.boot.attState = 0 ∧ t.boot.leaf = s.boot.leaf) ∧
    (∀ w v, entryShut s 0x2020 = false → v ≤ 1 → boundRegions s = [] → s.serving.ctxs = [] → s.serving.jobs = [] → noAdminKey s = false → Tbl.wf s.od.vals →
      mayTurn s w = true →
      answers (.custodyEnable w v) s fun t => (custodyOn t = true ↔ v = 1)) ∧
    (∀ w, custodyOn s = false → noAdminKey s = true → answers (.custodyEnable w 1) s fun t => t = s) ∧
    (∀ w v, custodyOn s = true → (w.kind = 1 ∨ w.kind = 2 ∧ ∀ x, s.session? w.id = some x → x.admin = false) →
      answers (.custodyEnable w v) s fun t => t = s) ∧
    ∀ i x, s.session? i = some x → s.passed x.used (1000000000 * s.setting 0x2020 3 3600) = true → Tbl.wf s.boot.sessions →
      answers (.sessionIdle i) s fun t => t.session? i = none

/-! ## Starts (R531 to R547) -/

/-- A cold or a warm start that finds its rail, a bank and its keys runs to the wait for its completion, which comes when the wakes of its
regions have ended and clears the attempts; each attempt is counted in the boot record; a rail that does not rise fails the start at step 2
and the fourth attempt goes to recovery, which leaves every region dark; a failed start tries a cold one again; the
watchdog and a memory error begin a warm start, and so do RESTART and the write that orders one (R531 to R540, R547).
Each of these is shown to answer a next state under the conditions of its clause: restartWarm, restartCold, coldStart, warmStart,
recoveryStart, startComplete, startFailed, managementWatchdog, managementMemoryError. -/
def Obligations.Starts : Prop :=
  ∀ (s : State) (i : StartInputs) (r : StoreCopy),
    let d := r.data.bytes
    let tries := max s.boot.attempts (fieldAt d 2 1)
    let bank := fieldAt d 0 1 % 2
    let kept (t : State) : Prop := (t.storeBlk 0).a.data = .raw (bootBytes t.boot)
    (s.storeBlk 0).load 0 0 = some r →
    (∀ u, (s.boot.phase = .off ∨ s.boot.phase = .trigger 1) →
      (i.pgArray = false → answers (.coldStart i) s fun t => t.boot.phase = .trigger 1 ∧ t.boot.lastFail = 2) ∧
      (i.pgArray = true → 3 ≤ tries → tries < 255 → answers (.coldStart i) s fun t => t.boot.phase = .trigger 3 ∧ t.boot.attempts = tries + 1 ∧
        kept t) ∧
      (i.pgArray = true → tries < 3 → fieldAt d 1 1 = 0xFF → fwVerifies (s.bank bank) (fieldAt d 4 4) = true → rootKey s i.puf = some u →
        i.pgAux = true → i.pgOpt = true → i.modulesUp = [] → i.portsUp = [] →
        identityOk { s with boot := { s.boot with keys := some (deriveKeys u), activeBank := bank } } = true →
        answers (.coldStart i) s fun t => t.boot.phase = .starting 1 ∧ t.power.enArray = true ∧ t.power.enAux = true ∧ t.power.enOpt = true ∧
          t.boot.keys = some (deriveKeys u) ∧ t.boot.activeBank = bank ∧ t.boot.attempts = tries + 1 ∧ kept t)) ∧
    (s.boot.phase = .trigger 2 → tries < 3 → fieldAt d 1 1 = 0xFF → sha256 (fwImage (s.bank bank)) = s.boot.keptDigest → i.modulesUp = [] → i.portsUp = [] →
      answers (.warmStart i) s fun t => t.boot.phase = .starting 2 ∧ t.almanac = s.almanac ∧ t.boot.sessions = [] ∧ t.syncs = []) ∧
    (s.boot.phase = .trigger 3 → (s.power.enArray = true → s.power.pgArray = true) → i.pgArray = true → i.pgAux = true → i.modulesUp = [] → answers (.recoveryStart i) s fun t =>
      t.boot.phase = .recovery ∧ t.boot.lastKind = 3 ∧ t.power.enAux = true ∧
      ∀ g < 240, (t.preg g).state = if (s.preg g).state = .lost then .lost else .dark) ∧
    (∀ k, s.boot.phase = .starting k → s.boot.inputs.isSome → exec .startComplete s = .next s) ∧
    (∀ k, s.boot.phase = .starting k → s.boot.inputs = none →
      let u := started s k
      exec .startComplete s = .next (readCommands ((u.regions.map (·.1)).foldl advance u)) ∧ u.boot.phase = .complete ∧
        u.boot.attempts = 0 ∧ u.boot.lastKind = k ∧ kept u) ∧
    (∀ k, s.boot.phase = .starting k → s.boot.inputs = none → (∀ e ∈ s.regions, e.2.op = none ∧ e.2.relocs = []) → answers .startComplete s fun t =>
      t.boot.phase = .complete ∧ t.boot.attempts = 0 ∧ t.boot.lastKind = k ∧ t.boot.prevBank = none) ∧
    (∀ k n, s.boot.phase = .starting k → 1 ≤ n → n ≤ 11 → s.passed s.boot.trigAt 120000000000 = true → answers (.startFailed n) s fun t =>
      t.boot.phase = .trigger 1 ∧ t.boot.lastFail = n ∧ t.boot.attempts = s.boot.attempts ∧ t.boot.keys = none) ∧
    (s.boot.phase = .complete →
      (answers .managementWatchdog s fun t => t.boot.phase = .trigger 2 ∧ t.boot.lastFail = 0xFF ∧ t.serving.ctxs = [] ∧ t.almanac = s.almanac) ∧
      (answers .managementMemoryError s fun t => t.boot.phase = .trigger 2 ∧ t.serving.ctxs = [] ∧ t.almanac = s.almanac) ∧
      (∀ h o, s.cmd? h = some o → o.running = false → o.opcode = 0x59 →
        (fieldAt o.cmd 16 1 = 1 → answers (.restartWarm h) s fun t => t.boot.phase = .trigger 2 ∧ t.cmd? h = none ∧ t.serving.ctxs = []) ∧
        (fieldAt o.cmd 16 1 = 2 → answers (.restartCold h) s fun t => t.boot.phase = .trigger 1 ∧ t.cmd? h = none ∧ t.serving.ctxs = [])))

/-! ## Tenant regions, counters, watches and dumps (R250 to R252, R618 to R639) -/

/-- A region commit wakes the regions that its candidate meets, waits for those in DARK, and puts the writer's candidates in force when its
checks pass, or keeps the number of the one that fails; a commit without a shadow changes nothing (R452); a release
unconfigures a region that is not bound and refuses one that is; a dump ring takes a snapshot at a boundary of its period, with room, and
counts it missed without; a watch arms, disarms and writes a dump; Vigil arms, disarms and dumps; a hang ends its handle.
Each of these is shown to answer a next state under the conditions of its clause: vigilArm, vigilDisarm, counterDump, regionCommit,
regionRelease, watchArm, watchDisarm, snapshot, watchDump, handleProgressTimeout, vigilDump. -/
def Obligations.RegionsAndWatches : Prop :=
  ∀ (s : State) (w : Writer) (n : Nat), n < 64 →
    (entryShut s 0x2200 = false → s.shadow? w (0x2200 + n) = none → answers (.regionCommit w n) s fun t => t.regions = s.regions ∧ t.power = s.power) ∧
    (entryShut s 0x2200 = false → (s.shadow? w (0x2200 + n)).isSome →
      let r := candRegion s w n
      let u := wakeFor s r
      (commitWaits u r = true → exec (.regionCommit w n) s = .next (holdCommit u w n .row) ∧ answers (.regionCommit w n) s fun t =>
        t.od.commits = s.od.commits ++ [⟨w, n, .row⟩] ∧ t.regions = s.regions ∧ t.shadow? w (0x2200 + n) = s.shadow? w (0x2200 + n)) ∧
      (commitWaits u r = false → commitCheck u n r = 0 → answers (.regionCommit w n) s fun t =>
        let q := t.region n
        q.nw = r.nw ∧ q.se = r.se ∧ q.exit = r.exit ∧ q.setCap = r.setCap ∧ q.grant = r.grant ∧ q.state ≠ 0 ∧ q.result = 0 ∧
          t.shadow? w (0x2200 + n) = none ∧ ∀ m, m ≠ n → t.region m = s.region m) ∧
      (commitWaits u r = false → cornersOk r = false → answers (.regionCommit w n) s fun t => (t.region n).result = 1 ∧
        t.region n = { s.region n with result := 1 } ∧ t.shadow? w (0x2200 + n) = s.shadow? w (0x2200 + n))) ∧
    (entryShut s 0x2200 = false → regionBound s n = false → answers (.regionRelease w n) s fun t => (t.region n).state = 0 ∧ (t.region n).windows = [] ∧
      (t.region n).pool = [] ∧ (∀ i, (s.sync i).owner = some n → (t.sync i).owner = none) ∧
      ∀ i, (s.sync i).owner ≠ some n → t.sync i = s.sync i) ∧
    (entryShut s 0x2200 = false → regionBound s n = true → answers (.regionRelease w n) s fun t => t.region n = { s.region n with result := 5 } ∧ t.syncs = s.syncs) ∧
    (∀ h o, s.cmd? h = some o → o.running = false →
      let f := fieldAt o.cmd
      let done (t : State) : Prop := t.cmd? h = none
      (∀ r, o.opcode = 0x53 → s.ring? (f 16 4) = some r → r.kind = 3 →
        (10 ≤ f 20 4 → f 20 4 ≤ 10000000 → s.observe.dumps.length < 4 → answers (.counterDump h) s fun t => done t ∧
          ∃ d, Tbl.find t.observe.dumps (f 16 4) = some d ∧ d.period = f 20 4 ∧ d.number = 0 ∧ d.last = s.almanac.toNat ∧
            d.nw = s.setting 0x8010 1 0 ∧ d.se = s.setting 0x8010 2 0x7F0095) ∧
        (f 20 4 = 0 → Tbl.wf s.observe.dumps → answers (.counterDump h) s fun t => done t ∧ Tbl.find t.observe.dumps (f 16 4) = none) ∧
        (1 ≤ f 20 4 → f 20 4 < 10 → answers (.counterDump h) s fun t => done t ∧ t.observe.dumps = s.observe.dumps)) ∧
      (∀ b g, o.opcode = 0x52 → f 16 1 = n → f 17 1 = 1 → f 18 1 < 16 → f 24 8 % 64 = 0 → (s.region n).img = some b → b.bound = true →
        (s.region n).vigil = none → Tbl.find (s.region n).windows (f 18 1) = some g → g.write = true → f 24 8 + f 32 8 ≤ g.size →
        4096 + (syncSection s n).length ≤ f 32 8 → answers (.vigilArm h) s fun t => (∃ q, t.cmd? h = some q ∧ q.running = true) ∧
          ∃ v, (t.region n).vigil = some v ∧ v.handle = h ∧ v.slot = f 18 1 ∧ v.offset = f 24 8 ∧ v.size = f 32 8) ∧
      (o.opcode = 0x52 → f 16 1 = n → f 17 1 = 2 → answers (.vigilDisarm h) s fun t => done t ∧ (t.region n).vigil = none ∧
        ∀ v, (s.region n).vigil = some v → t.cmd? v.handle = none)) ∧
    (∀ ring d r, Tbl.find s.observe.dumps ring = some d → s.ring? ring = some r → d.period ≠ 0 →
      let p := 1000 * d.period
      let b := s.almanac.toNat / p * p
      let k := (snapshotRecords s d).length + 1
      d.last < b →
      (k ≤ r.free → answers (.snapshot ring) s fun t =>
        Tbl.find t.observe.dumps ring = some { d with number := d.number + 1, missed := 0, start := s.now, last := b } ∧
        ∃ q, t.ring? ring = some q ∧ q.written = (r.written + k) % 2 ^ 32) ∧
      (r.free < k → answers (.snapshot ring) s fun t =>
        Tbl.find t.observe.dumps ring = some { d with missed := d.missed + (b - d.last - 1) / p + 1, last := b } ∧ t.host = s.host)) ∧
    (entryShut s 0x9100 = false → s.shadow? w (0x9100 + n) = none → answers (.watchArm w n) s fun t => t.observe = s.observe ∧ t.cores = s.cores) ∧
    (entryShut s 0x9100 = false → (s.shadow? w (0x9100 + n)).isSome →
      let v (sub : Nat) : Nat := candidate s w (0x9100 + n) sub
      v 1 < 64 → v 2 < 2 ^ 20 → v 7 < 16 → v 8 % 64 = 0 → v 9 % 64 = 0 → (∃ b, (s.region (v 1)).img = some b ∧ b.bound = true) →
      (∃ g, Tbl.find (s.region (v 1)).windows (v 7) = some g ∧ g.write = true) →
      (custodyOn s = false → answers (.watchArm w n) s fun t => t.shadow? w (0x9100 + n) = none ∧
        ∃ y, Tbl.find t.observe.watches n = some y ∧ y.state = 1 ∧ y.region = v 1 ∧ y.tensor = v 2 ∧ y.slot = v 7 ∧ y.used = 0) ∧
      (custodyOn s = true → answers (.watchArm w n) s fun t =>
        Tbl.find t.observe.watches n = some { Tbl.get s.observe.watches Watch.reset n with result := 3 })) ∧
    (entryShut s 0x9100 = false → answers (.watchDisarm w n) s fun t =>
      Tbl.find t.observe.watches n = some { Tbl.get s.observe.watches Watch.reset n with state := 0 } ∧ t.cores = s.cores) ∧
    (∀ c op q, s.observe.dumpReqs.find? (fun q => q.core = c && q.op = op) = some q →
      let y := Tbl.get s.observe.watches Watch.reset q.watch
      let lines := (s.core c).readWalk (walkOf q.walk)
      let size := 64 * (1 + lines.length)
      y.used + size ≤ y.size → class1Status s y.region (y.slot * 2 ^ 60 + (y.offset + y.used)) 2 (1 + lines.length) = 0 →
      (Tbl.find (s.region y.region).windows y.slot).isSome → answers (.watchDump c op) s fun t => t.observe.dumpReqs = s.observe.dumpReqs.erase q ∧
        Tbl.find t.observe.watches q.watch = some { y with written := (y.written + 1) % 2 ^ 32, used := y.used + size }) ∧
    (∀ x rest f v g, s.observe.vigilQ = x :: rest → x.region = n → (s.region n).flush = some f → f.phase = 3 → (s.region n).vigil = some v →
      Tbl.find (s.region n).windows v.slot = some g → g.write = true → answers (.vigilDump n) s fun t => t.observe.vigilQ = rest ∧
        t.observe.vigils = (s.observe.vigils + 1) % 2 ^ 32 ∧ (t.region n).vigil = none ∧ (t.region n).flush = some { f with phase := 1 } ∧
        t.cmd? v.handle = none) ∧
    ∀ h o, s.cmd? h = some o → o.running = true → o.opcode = 0x51 → s.thermal.state ≠ 1 →
      s.passed o.since (1000000000 * s.setting 0x9000 1 600) = true → answers (.handleProgressTimeout h) s fun t => t.cmd? h = none

/-! ## Power regions and rails (R486 to R508) -/

/-- A quiet power region dozes and an empty one goes dark, with its arrays kept; what needs it wakes it, by the profile that its
neighbours' load lets it take; a ramped wake ends in NAP and one without its power good in LOST; a lost region's cores are fenced, and it is
retried; what waited for a wake goes on at its end; telemetry, once in a TelemetryPeriod, and the monitors' readings are kept; a lost rail takes down what it feeds, and its return lets it go on.
Each of these is shown to answer a next state under the conditions of its clause: dozeEntry, darkEntry, wakeRequest, neighbourRecheck,
wakeWaitLimit, regionWake, wakePgTimeout, regionLost, retry, retryPgTimeout, arrayRailLost, auxRailLost, auxHoldLimit, auxRailReturn,
optRailLost, optRailReturn, telemetry, powerUpdate, aonRailLost. -/
def Obligations.PowerSequences : Prop :=
  ∀ (s : State) (g : Nat), g < 240 →
    let p := s.preg g
    let calm : Prop := s.boot.inputs = none ∧ s.od.commits = []
    (p.state = .nap → s.setting 0x3010 8 1000 ≠ 0 → s.passed p.since (1000 * s.setting 0x3010 8 1000) = true →
      flitQuiet s g (1000 * s.setting 0x3010 8 1000) = true → slicesRun s g = false → (∀ c ∈ powerCores g, (s.core c).clockOn = false) →
      answers (.dozeEntry g) s fun t =>
        (t.preg g).state = .doze ∧ (t.preg g).mode = false ∧ t.cores = s.cores ∧ ∀ h, h ≠ g → t.preg h = s.preg h) ∧
    (s.setting 0x3010 9 1 = 1 → (p.state = .nap ∨ p.state = .doze) → s.passed p.quiet (1000 * s.setting 0x3010 0x0A 10000) = true →
      tenanted s g = false → upkeepNear s g = false → answers (.darkEntry g) s fun t => (t.preg g).state = .dark ∧
        ∀ c, (powerOf c = g → (t.core c).mem = Core.reset.mem ∧ (t.core c).arrays = (s.core c).arrays ∧ (t.core c).fence = (s.core c).fence) ∧
          (powerOf c ≠ g → t.core c = s.core c)) ∧
    (∀ ms, upkeepDue s g = true → p.state = .doze → answers (.wakeRequest ⟨g, ms⟩ 2) s fun t => (t.preg g).state = .waking ∧
      (t.preg g).upkeepFrom = some .doze ∧ (∀ c, (t.core c).mem = (s.core c).mem ∧ (powerOf c ≠ g → t.core c = s.core c)) ∧
      ∃ w, (t.preg g).wake = some w ∧ w.fromDark = false ∧ w.ramped = true) ∧
    (∀ ms, ∀ f ∈ s.mesh, powerOf f.pkt.dest = g → p.state = .doze → answers (.wakeRequest ⟨g, ms⟩ 1) s fun t => (t.preg g).state = .waking ∧
      t.cores = s.cores ∧ ∃ w, (t.preg g).wake = some w ∧ w.fromDark = false ∧ w.ramped = true) ∧
    (∀ ms, (upkeepDue s g = true ∧ p.state = .dark) ∨ (p.state = .lost ∧ p.retryAt.isSome) →
      let u := readMonitors s ms
      answers (.wakeRequest ⟨g, ms⟩ (if p.state = .dark then 2 else 4)) s fun t => (t.preg g).state = .waking ∧
        ∃ w, (t.preg g).wake = some w ∧ w.fromDark = true ∧ w.slow = needsSlow u g ∧ w.ramped = loadOk u g (needsSlow u g)) ∧
    (∀ w, p.wake = some w → w.ramped = false →
      (∀ ms, s.passed w.lastCheck 250 = true → answers (.neighbourRecheck ⟨g, ms⟩) s fun t => ∃ x, (t.preg g).wake = some x ∧ x.slow = w.slow ∧
        x.lastCheck = s.now ∧ x.ramped = loadOk (readMonitors s ms) g w.slow) ∧
      (w.counted = false → s.passed w.since (1000 * s.setting 0x3010 7 16) = true → answers (.wakeWaitLimit g) s fun t =>
        t.preg g = { p with wake := some { w with counted := true } })) ∧
    (∀ w, p.wake = some w → w.ramped = true →
      exec (.regionWake g) s = .next (wakeOver (wakeDone s g w)) ∧
      (calm → answers (.regionWake g) s fun t => (t.preg g).wake = none ∧ (t.preg g).retryAt = none ∧
        (p.upkeepFrom.isSome → s.thermal.state ≠ 1 → (t.preg g).state = .run) ∧
        (p.upkeepFrom = none → (∀ c ∈ powerCores g, (s.core c).hasWork = false) → (t.preg g).state = .nap) ∧
        (∀ c ∈ powerCores g, w.fromDark = false → p.retryAt = none → (s.core c).hasWork = true → s.thermal.state ≠ 1 →
          (t.preg g).state = .run ∧ (t.core c).clockOn = true)) ∧
      (calm → s.passed w.rampAt 2500 = true → p.retryAt = none → p.state ≠ .lost → answers (.wakePgTimeout g) s fun t =>
        (t.preg g).state = .lost ∧ (t.preg g).wake = none ∧ (t.preg g).cause = 3 ∧ .pmbus (g / 40) (g % 40) pmStatusWord 0 ∈ t.out) ∧
      (calm → s.passed w.rampAt 2500 = true → p.retryAt.isSome → answers (.wakePgTimeout g) s fun t =>
        (t.preg g).state = .lost ∧ (t.preg g).wake = none ∧ (t.preg g).retryAt = none ∧ (t.preg g).cause = 4 ∧
        (t.preg g).lostCount = (p.lostCount + 1) % 65536 ∧ .pmbus (g / 40) (g % 40) pmStatusWord 0 ∈ t.out)) ∧
    (∀ cause status, exec (.regionLost g cause status) s = .next (wakeOver (loseRegion s g cause status))) ∧
    (∀ cause status, calm → p.state ≠ .lost → answers (.regionLost g cause status) s fun t => (t.preg g).state = .lost ∧
      (t.preg g).cause = cause ∧ (t.preg g).status = status % 65536 ∧ (t.preg g).lostCount = (p.lostCount + 1) % 65536 ∧
      ∀ c, powerOf c = g → c < 19200 → usable s c = true → (t.core c).fence = some 5) ∧
    (∀ w, entryShut s 0x3100 = false → p.state = .lost → p.retryAt = none → answers (.retry w g 1) s fun t => t.preg g = { p with retryAt := some s.now }) ∧
    (∀ w, p.state ≠ .lost → answers (.retry w g 1) s fun t => t = s) ∧
    (∀ x, calm → p.state = .lost → p.retryAt = some x → s.passed x 100000 = true → answers (.retryPgTimeout g) s fun t =>
      (∃ v, t.preg g = { p with wake := none, retryAt := none, cause := 4, status := v, lostCount := (p.lostCount + 1) % 65536 }) ∧
      t.out = s.out ++ [.pmbus (g / 40) (g % 40) pmStatusWord 0]) ∧
    (∀ i v, s.passed s.power.telemAt (1000000 * s.setting 0x3010 0x0C 10) = true → answers (.telemetry [⟨g, i, v⟩]) s fun t =>
      t.preg g = { p with regI := i, regV := v } ∧ t.power.telemAt = s.now ∧
      t.out = ((List.range 244).foldl (fun u q => (u.pmPage q pmReadIout).pmPage q pmReadVout) s).out) ∧
    (∀ x : MonRead, x.region = g → answers (.powerUpdate [x]) s fun t =>
      t.preg g = { p with current := 16384 * x.amps, before := 16384 * x.before, mean := x.mean, peak := max p.peak (16384 * max x.top x.amps) } ∧
      t.power.measured = measuredPower t ∧ t.power.history = (t.power.measured :: s.power.history).take 100) ∧
    (s.power.pgArray = true → answers .arrayRailLost s fun t => t.boot.phase = .down ∧ t.power.pgArray = false ∧ t.serving.ctxs = [] ∧
      t.mesh = [] ∧ ((t.preg g).state = .dark ∨ (t.preg g).state = .lost)) ∧
    (s.power.pgAux = true → answers .auxRailLost s fun t => t.power.pgAux = false ∧ t.power.auxLost = some s.now ∧ t.power.pgArray = s.power.pgArray) ∧
    (∀ x, s.power.auxLost = some x → s.passed x 1000000000 = true →
      exec .auxHoldLimit s = .next ((s.regions.map (·.1)).foldl failBusy s)) ∧
    (∀ x n o h, s.power.auxLost = some x → s.passed x 1000000000 = true → Tbl.wf s.regions → (s.region n).op = some o →
      (∀ m, m ≠ n → (s.region m).op = none) → busyShards (s.region n) o = [h] → (o.shard h).failures < 3 → answers .auxHoldLimit s fun t =>
        ∃ q, (t.region n).op = some q ∧ (q.shard h).failures = (o.shard h).failures + 1 ∧ q.busy = []) ∧
    (∀ x, s.power.auxLost = some x →
      let u : State := { s with power := { s.power with pgAux := true, auxLost := none } }
      exec .auxRailReturn s = .next ((u.regions.map (·.1)).foldl advance u) ∧
      ((∀ n, (s.region n).op = none) → answers .auxRailReturn s fun t => t = u)) ∧
    (s.power.pgOpt = true → answers .optRailLost s fun t => t.power = { s.power with pgOpt := false }) ∧
    (s.power.enOpt = true → s.power.pgOpt = false → answers .optRailReturn s fun t => t = { s with power := { s.power with pgOpt := true } }) ∧
    answers .aonRailLost s fun t => t.boot.phase = .off ∧ t.boot.keys = none ∧ t.almanac = 0 ∧ t.power.pgArray = false ∧ t.power.pgAux = false ∧
      t.power.pgOpt = false ∧ ∀ c a, (t.core c).arr a = ((s.core c).arr a).atStart

/-! ## Cooling (R509 to R530) -/

/-- The gate level rises over the cap and falls after ten samples at 95 % of it; the cap falls at once and rises by its step at most; a
pair of diodes gives the larger reading, and 100 degrees shut the engine down; diodes apart fault a pair and ten close seconds let it be
cleared; the tray's samples are kept, low flow or a lost tray holds the cores, and flow frees them or the hold ends in a shutdown; a trip
drops the rails, and the way back is an ordered cold start.
Each of these is shown to answer a next state under the conditions of its clause: gateUpdate, thermalCapUpdate, diodeSample, pairFault,
trayRead, trayStale, trayLost, holdEnd, holdLimit, hardwareTrip, coldStartRequest, clearPairFault. -/
def Obligations.CoolingActs : Prop :=
  ∀ (s : State) (g : Nat), g < 240 →
    let y := s.thermal
    let held (t : State) : Prop := t.thermal.state = 1 ∧ t.thermal.holdAt = s.now ∧ ∀ c, (s.core c).run = .issuing → (t.core c).run = .frozen
    let shut (t : State) (st : Nat) : Prop := t.thermal.state = st ∧ t.boot.phase = .down ∧ t.serving.ctxs = [] ∧
      t.power.enArray = false ∧ t.power.enAux = false ∧ t.power.enOpt = false
    let low := 32 * s.setting 0x4020 7 60
    (effectiveCap s < s.power.measured → answers .gateUpdate s fun t => t.thermal.level = min 15 (y.level + 1) ∧ t.thermal.below = 0) ∧
    (s.power.measured ≤ effectiveCap s → 95 * effectiveCap s < 100 * s.power.measured → answers .gateUpdate s fun t =>
      t.thermal.level = y.level ∧ t.thermal.below = 0) ∧
    (s.power.measured ≤ effectiveCap s → 100 * s.power.measured ≤ 95 * effectiveCap s → y.below = 9 → answers .gateUpdate s fun t =>
      t.thermal.level = y.level - 1 ∧ t.thermal.below = 0) ∧
    (let h := s.power.history
     h ≠ [] → answers .thermalCapUpdate s fun t => t.thermal.tmax = (s.preg (hottest s)).hot ∧
       t.thermal.cap ≤ y.cap + s.setting 0x4020 0x0E 400 ∧
       (4000 * h.length ≤ h.sum →
         t.thermal.rthN = (((s.preg (hottest s)).hot - y.inlet) * 1000).toNat * h.length ∧ t.thermal.rthD = h.sum) ∧
       (h.sum < 4000 * h.length → t.thermal.rthN = y.rthN ∧ t.thermal.rthD = y.rthD) ∧
       (t.thermal.rthN ≠ 0 → t.thermal.cap ≤ max 2000 (((degC 90 - y.inlet) * 1000).toNat * t.thermal.rthD / t.thermal.rthN))) ∧
    (∀ r : Diodes, r.region = g →
      let a := toSixteenth r.a
      let b := toSixteenth r.b
      y.inlet - degC 5 ≤ a → a ≤ degC 130 → y.inlet - degC 5 ≤ b → b ≤ degC 130 →
      (max a b < degC 100 → y.state = 1 → y.limit = true → answers (.diodeSample [r]) s fun t => shut t 2) ∧
      (max a b < degC 100 → (y.state = 1 → y.limit = false) → (s.preg g).pair ≠ 3 → answers (.diodeSample [r]) s fun t => (t.preg g).hot = max a b ∧
        t.thermal.state = y.state ∧ (t.preg g).pair = if (a - b).natAbs ≤ degC 3 then 0 else 1) ∧
      (y.state ≤ 1 → degC 100 ≤ max a b → answers (.diodeSample [r]) s fun t => shut t 2)) ∧
    (∀ x, (s.preg g).apartFrom = some x → s.passed x 1000000000 = true → (s.preg g).pair ≠ 3 → answers (.pairFault g) s fun t =>
      (t.preg g).pair = 3 ∧ (t.preg g).pairCount = ((s.preg g).pairCount + 1) % 65536 ∧ t.thermal.flags.getLsbD 5 = true) ∧
    (∀ w x, entryShut s 0x4100 = false → (s.preg g).closeFrom = some x → s.passed x 10000000000 = true → answers (.clearPairFault w g 1) s fun t => (t.preg g).pair = 0) ∧
    (∀ w, (s.preg g).closeFrom = none → answers (.clearPairFault w g 1) s fun t => t = s) ∧
    (∀ b, b.length = 12 → fieldAt b 0 2 = 0x5448 → fieldAt b 2 1 % 8 = 7 → y.sampleN ≠ some (fieldAt b 10 2) →
      let raw := fieldAt b 8 2
      let best := (y.flows.filter fun e => s.now ≤ e.1 + 200000000).foldl (fun m e => max m e.2) 0
      (640 ≤ raw → best ≤ 2 * raw → answers (.trayRead (some b)) s fun t => t.thermal.flow = (raw * 65536 + 50) / 100 ∧ t.thermal.sampleN = some (fieldAt b 10 2) ∧
        t.thermal.lastOk = s.now ∧ t.thermal.stale = false ∧ t.thermal.lostTray = false ∧ t.thermal.state = y.state ∧ t.cores = s.cores) ∧
      (raw < 640 ∨ 2 * raw < best → y.state = 0 → answers (.trayRead (some b)) s held)) ∧
    (s.passed y.lastOk 100000000 = true → answers .trayStale s fun t => t.thermal.stale = true ∧ t.thermal.flags.getLsbD 7 = true ∧
      t.cores = s.cores) ∧
    (s.passed y.lastOk 1000000000 = true → y.state = 0 → answers .trayLost s fun t => held t ∧ t.thermal.lostTray = true) ∧
    (∀ x, (∀ n, (s.region n).op = none) → y.state = 1 → y.flowOk = some x → s.passed x 1000000000 = true → answers .holdEnd s fun t => t.thermal.state = 0 ∧
      t.thermal.level = 8 ∧ ∀ c, (s.core c).run = .frozen → vigilFrozen s c = false → (t.core c).run = .issuing) ∧
    (y.state = 1 → s.passed y.holdAt 30000000000 = true →
      (y.sampleAt = some s.now → answers .holdLimit s fun t => shut t 2) ∧
      (y.sampleAt ≠ some s.now → exec .holdLimit s = .next { s with thermal := { y with limit := true } })) ∧
    (y.state ≤ 1 → answers (.hardwareTrip g) s fun t => shut t 3) ∧
    (∀ w, entryShut s 0x4030 = false → y.sampleN.isSome → y.stale = false → y.lostTray = false → low ≤ flow100 s → y.inlet ≤ degC 40 →
      answers (.coldStartRequest w 1) s fun t => t.boot.phase = .trigger 1) ∧
    (∀ w, (y.stale = true ∨ flow100 s < low) → answers (.coldStartRequest w 1) s fun t => t = s)

/-! ## The management segment (R468 to R481, R546, R561) -/

/-- A well-formed frame outside a session, within its rates and with a new Seq, is answered by its type's response: IDENT with the
engine's identity, READ with an entry's value, WRITE once it is applied, OPEN_PART with the session, FW_PART and FW_COMMIT with the bank
written; CLOSE ends its session; a frame whose FCS fails is counted; delays and timeouts run out; a transmit opportunity sends the frame at
the head of the queue, and a collision is counted.
Each of these is shown to answer a next state under the conditions of its clause: read, write, ident, identHoldoff, openPart,
openPartTimeout, close, fwPart, fwCommit, fwTransferTimeout, txAbandon, plcaFallback, transmitOpportunity, plcaCollisionQuiet. -/
def Obligations.SegmentMessages : Prop :=
  ∀ (s : State), segmentUp s = true →
    let m := s.mgmt
    let count (t : State) (i : Nat) : Nat := Tbl.get t.mgmt.ctrs 0 i
    (∀ f, f.fcsOk = false → answers (.read f) s fun t => count t 2 = (count s 2 + 1) % 2 ^ 32 ∧ t.mgmt.tx = m.tx ∧ t.od = s.od) ∧
    (∀ f, f.fcsOk = true → addressed s f = true → messageOk s f.msg = true → (takeToken s f.src).isSome → m.tx.length < 16 →
      let came (t : State) : Prop := count t 1 = (count s 1 + 1) % 2 ^ 32
      let said (t : State) (type status : Nat) (p : Bytes → Prop) : Prop := came t ∧ ∃ b, t.mgmt.tx = m.tx ++ [⟨f.src, b, s.now, 0⟩] ∧
        mType b = type ∧ mSession b = mSession f.msg ∧ mSeq b = mSeq f.msg ∧ fieldAt b 22 2 = status ∧ p b
      let i := mIndex f.msg
      let j := mSub f.msg
      let offer := (mOffset f.msg, mData f.msg)
      (mSession f.msg = 0 → seqTurn s f none = .run →
        (mType f.msg = 3 → f.dst = s.mac → answers (.ident f) s fun t => said t 0x83 0 fun b => mData b = identData s) ∧
        (mType f.msg = 3 → f.dst ≠ s.mac → answers (.ident f) s fun t => came t ∧ t.mgmt.tx = m.tx ∧ ∃ due x,
          t.mgmt.holdoff = m.holdoff ++ [(due, x)] ∧ s.now ≤ due ∧ due ≤ s.now + 1000000 * s.setting 0x1022 5 20 ∧ x.dst = f.src) ∧
        (∀ r v, mType f.msg = 1 → custodyOn s = false → mLength f.msg = 0 → i = 0x5010 → odRow i j = some r → r.acc = .rw →
          odReadOp s (segWriter f) true i j = .ok v → mOffset f.msg = 0 → answers (.read f) s fun t =>
            said t 0x81 0 (fun b => mData b = v.take 1024) ∧ t.od = s.od) ∧
        (mType f.msg = 1 → custodyOn s = true → odPublic i j = false → answers (.read f) s fun t =>
          said t 0x81 6 (fun b => mData b = []) ∧ t.od.vals = s.od.vals) ∧
        (∀ r, mType f.msg = 2 → custodyOn s = false → s.setting 0x1022 1 1 = 1 → s.boot.phase = .complete → mOffset f.msg = 0 → i = 0x5010 →
          odRow i j = some r → r.acc = .rw → r.ty.size = some 2 → (mData f.msg).length = 2 → r.lo ≤ leNat (mData f.msg) →
          leNat (mData f.msg) ≤ r.hi → Tbl.wf s.od.vals → answers (.write f) s fun t =>
            said t 0x82 0 (fun _ => True) ∧ t.setting i j r.dflt = leNat (mData f.msg)) ∧
        (mType f.msg = 2 → custodyOn s = false → s.setting 0x1022 1 1 = 0 → answers (.write f) s fun t =>
          said t 0x82 6 (fun _ => True) ∧ t.od.vals = s.od.vals) ∧
        (mType f.msg = 0x10 → assembled (offer :: findPart m.opens f.src) 4 = some (leBytes 4 1) →
          partsEnd (offer :: findPart m.opens f.src) ≤ 1592 →
          (assembled (offer :: findPart m.opens f.src) 1592 = none → answers (.openPart f) s fun t => came t ∧ t.mgmt.tx = m.tx ∧
            findPart t.mgmt.opens f.src = offer :: findPart m.opens f.src) ∧
          (∀ b, assembled (offer :: findPart m.opens f.src) 1592 = some b → s.boot.sessions.length < 256 → answers (.openPart f) s fun t =>
            said t 0x11 0 (fun _ => True) ∧ findPart t.mgmt.opens f.src = [] ∧ ∃ k x, s.session? k = none ∧ t.session? k = some x ∧
              x.source = some f.src ∧ x.admin = false)) ∧
        (mType f.msg = 0x12 → answers (.close f) s fun t => said t 0x13 6 (fun _ => True) ∧ t.boot = s.boot) ∧
        (mType f.msg = 0x18 → offer.1 + offer.2.length ≤ 4194304 → answers (.fwPart f) s fun t => said t 0x98 0 (fun _ => True) ∧
          findPart t.mgmt.fws f.src = offer :: findPart m.fws f.src) ∧
        (∀ b, mType f.msg = 0x19 → findPart m.fws f.src ≠ [] → assembled (findPart m.fws f.src) (partsEnd (findPart m.fws f.src)) = some b →
          fwSigned b = true → s.boot.minSec ≤ fwSecurity b → s.boot.activeBank ≤ 1 → answers (.fwCommit f) s fun t =>
            said t 0x99 0 (fun _ => True) ∧ t.bank (1 - s.boot.activeBank) = b ∧ findPart t.mgmt.fws f.src = [])) ∧
      (∀ x v, mType f.msg = 0x12 → messageSession s f = .ok (some x) → seqTurn s f (some x) = .run → takeToken (countSeg s 1) f.src = some v →
        let e := endSession v (mSession f.msg)
        let r := response e f (some x) (refuse 0x13 0)
        exec (.close f) s = .next (queueTx (keepTurn e f (mSession f.msg) r) f.src r)) ∧
      (∀ x, mType f.msg = 0x12 → messageSession s f = .ok (some x) → seqTurn s f (some x) = .run → Tbl.wf s.boot.sessions → s.serving.ctxs = [] →
        answers (.close f) s fun t => said t 0x13 0 (fun _ => True) ∧ t.session? (mSession f.msg) = none)) ∧
    (∀ peer due x, m.holdoff.find? (fun e => e.2.dst = peer) = some (due, x) → due ≤ s.now → m.tx.length < 16 →
      answers (.identHoldoff peer) s fun t => t.mgmt.tx = m.tx ++ [⟨x.dst, x.msg, s.now, 0⟩] ∧ t.mgmt.holdoff = m.holdoff.erase (due, x)) ∧
    (∀ peer a, m.opens.find? (fun a => a.mac = peer) = some a → s.passed a.last 1000000000 = true → answers (.openPartTimeout peer) s fun t =>
      findPart t.mgmt.opens peer = [] ∧ t.mgmt.fws = m.fws) ∧
    (∀ peer a, m.fws.find? (fun a => a.mac = peer) = some a → s.passed a.last 10000000000 = true → answers (.fwTransferTimeout peer) s fun t =>
      findPart t.mgmt.fws peer = [] ∧ t.mgmt.opens = m.opens) ∧
    (answers .txAbandon s fun t => t.mgmt.tx = m.tx.filter (fun x => !s.passed x.since 100000000) ∧ t.out = s.out) ∧
    (plcaOn s = true → plcaLead s = false →
      (answers (.plcaFallback true) s fun t => t.mgmt.plcaOk = true ∧ t.mgmt.ctrs = m.ctrs) ∧
      (m.plcaOk = true → answers (.plcaFallback false) s fun t => t.mgmt.plcaOk = false ∧ count t 0x0C = (count s 0x0C + 1) % 2 ^ 32)) ∧
    (∀ x l, m.collTimes = x :: l → m.collFlag = true → s.passed x 10000000000 = true → answers .plcaCollisionQuiet s fun t =>
      t = { s with mgmt := { m with collFlag := false } }) ∧
    (plcaActive s = true → plcaLead s = true → answers (.transmitOpportunity true) s fun t =>
      t.out = s.out ++ [.beacon (s.setting 0x1020 2 8)] ∧ t.mgmt.tx = m.tx ∧ count t 0x0B = (count s 0x0B + 1) % 2 ^ 32) ∧
    (plcaActive s = true → plcaLead s = false → answers (.transmitOpportunity false) s fun t =>
      t.mgmt.tx = m.tx.drop (1 + s.setting 0x1020 4 0) ∧
        t.out = s.out ++ (m.tx.take (1 + s.setting 0x1020 4 0)).map fun x => .mgmt x.dst x.msg) ∧
    ∀ x l, m.tx = x :: l → plcaActive s = false →
      (answers (.transmitOpportunity false) s fun t => t.out = s.out ++ [.mgmt x.dst x.msg] ∧ t.mgmt.tx = l) ∧
      (x.tries < 15 → answers (.transmitOpportunity true) s fun t => t.out = s.out ∧ t.mgmt.tx = { x with tries := x.tries + 1 } :: l ∧
        count t 9 = (count s 9 + 1) % 2 ^ 32)

/-! ## The Waloskuno link (R592 to R614) -/

/-- A numbered frame in order is accepted and the next one expected; one out of order or with a bad CRC is answered with Nak, and one on
the wrong channel is discarded and counted; an accepted DATA frame goes to its home core, a WACK ends the wait of its request and a RESULT
is taken; an ACK releases frames; HELLO brings a port up; the Almanac exchange sets a follower's clock; unacknowledged frames are
replayed, a port goes down and trains again, a peer that never acknowledges is dropped from every port that has it.  No frame but HELLO
leaves without credit, and a frame on the wire has the layout of its header, payload and trailer, in switched mode within an Ethernet frame.
Each of these is shown to answer a next state under the conditions of its clause: data, wack, result, ack, hello, helloPeriod,
almanacExchange, almanacRequest, almanacReply, replayTimeout, peerUnreachable, portDown, portRetrain, ackDelay. -/
def Obligations.FabricLink : Prop :=
  ∀ (s : State) (p : Nat) (f : FFrame),
    let x := s.port p
    let c := x.chan f.srcEngine
    let u := (s.takeFrame p f).1
    let seqs (t : State) : Nat := ((t.port p).chan f.srcEngine).rxSeq
    let sound : Prop := f.crcOk = true ∧ f.vc = typeVc f.type ∧ 1 ≤ f.type ∧ f.type ≤ 7 ∧ (f.type = 5 ∨ f.destEngine = engineId s % 32768) ∧
      frameReserved f = true ∧ typePasses s x f.type = true
    let taken : Prop := sound ∧ f.ackValid = false ∧ f.nak = false ∧ f.seq = (c.rxSeq + 1) % 65536
    ((linkBytes f).length = 40 + f.payload.length ∧ linkWire 0 f = linkBytes f ∧ (linkWire 1 f).drop 14 = linkBytes f ∧
      ((linkWire 1 f).drop 12).take 2 = [0x88, 0xB6] ∧ (f.type < 16 → leNat ((linkBytes f).take 32) / 2 ^ 252 = f.type)) ∧
    (f.type = 1 →
      (f.crcOk = false → c.credit 0 = 0 → answers (.data p f) s fun t => t = s) ∧
      (f.crcOk = false → 1 ≤ c.credit 0 → typePasses s x 7 = true → answers (.data p f) s fun t => seqs t = c.rxSeq ∧ t.mesh = s.mesh ∧
        ∃ g, t.out = s.out ++ [.fabric p g (linkWire x.mode g)] ∧ g.type = 7 ∧ g.nak = true ∧ g.ack = c.rxSeq) ∧
      (f.crcOk = true → f.vc ≠ 1 → answers (.data p f) s fun t => t = s.dropFrame) ∧
      (sound → 1 ≤ c.credit 0 → engineId s ≠ 0xFFFF → f.seq ≠ (c.rxSeq + 1) % 65536 → answers (.data p f) s fun t => seqs t = c.rxSeq ∧
        t.mesh = s.mesh ∧ ((t.port p).chan f.srcEngine).unacked = c.unacked ∧
        ∃ g, t.out = s.out ++ [.fabric p g (linkWire x.mode g)] ∧ g.type = 7 ∧ g.nak = true ∧ g.ack = c.rxSeq) ∧
      (∀ n b h, taken → dataCheck s f = .ok (n, b, h) → answers (.data p f) s fun t => seqs t = f.seq ∧
        ∃ g ∈ t.mesh, g.loc = hubOf s h ∧ g.pkt.op = 0xC ∧ g.pkt.dest = h ∧ g.pkt.payload = f.payload) ∧
      (taken → dataCheck s f = .error 4 → answers (.data p f) s fun t => t.mesh = s.mesh ∧ t.fabric.refusals = s.fabric.refusals + 1)) ∧
    (f.type = 2 → taken →
      let v := f.specific.toNat
      let k := coreKey (bits v 71 64) (bits v 63 56)
      (∀ n b, ownerOf u k = some n → (u.region n).img = some b → b.epoch = v % 256 →
        exec (.wack p f) s = .next (class2Done u k (bits v 55 53) (bits v 52 48) (bits v 79 72))) ∧
      ∀ n b w, ownerOf s k = some n → (s.region n).img = some b → b.epoch = v % 256 → s.fabric.waits = [w] → w.core = k →
        w.q = bits v 55 53 → w.req = bits v 52 48 → w.left = 1 → answers (.wack p f) s fun t => t.fabric.waits = [] ∧
          ∃ g ∈ t.mesh, g.loc = hubOf s k ∧ g.pkt.op = 0xC ∧ g.pkt.dest = k ∧ g.pkt.cls = 2) ∧
    (f.type = 3 → taken →
      (∀ n b, groupFor s f = some (n, b) → bits f.specific.toNat 15 8 = b.epoch → f.version = b.activeVersion →
        answers (.result p f) s fun t => t = takeResult u n (bits f.specific.toNat 79 48) (bits f.specific.toNat 47 16) f.payload) ∧
      (groupFor s f = none → answers (.result p f) s fun t => t.fabric.refusals = s.fabric.refusals + 1 ∧ t.serving = s.serving)) ∧
    (f.type = 7 → sound → f.ackValid = true → f.nak = false → c.waiting = [] → answers (.ack p f) s fun t =>
      ((t.port p).chan f.srcEngine).unacked = releaseTo f.ack c.unacked ∧ t.mesh = s.mesh ∧ t.out = s.out) ∧
    (f.type = 5 → sound → x.mode ≠ 0 → bits f.specific.toNat 79 48 = s.setting 0x7000 2 0 → zeros f.payload 0 12 = false → c.waiting = [] →
      s.fabric.lost.contains f.srcEngine = false →
      (f.srcEngine ≠ engineId s → answers (.hello p f) s fun t => (t.port p).state = 3 ∧
        ((t.port p).chan f.srcEngine).credits = #v[fieldAt f.payload 0 4, fieldAt f.payload 4 4, fieldAt f.payload 8 4]) ∧
      (f.srcEngine = engineId s → engineId s ≠ 0xFFFF → answers (.hello p f) s fun t => (t.port p).state = 4)) ∧
    (f.type = 5 → taken → x.mode = 0 → Tbl.find x.chans linkKey = none → bits f.specific.toNat 79 48 = s.setting 0x7000 2 0 →
      f.srcEngine ≠ engineId s → s.fabric.lost.contains f.srcEngine = false → answers (.hello p f) s fun t =>
        (t.port p).state = 3 ∧ (t.port p).peer = f.srcEngine ∧ seqs t = f.seq) ∧
    (3 ≤ x.state → (x.mode ≠ 0 ∨ ((x.chan x.peer).waiting = [] ∧ (x.chan x.peer).unacked.length < 16384)) → answers .helloPeriod s fun t =>
      ∃ g, .fabric p g (linkWire x.mode g) ∈ t.out ∧ g.type = 5) ∧
    (∀ r h q peer, almanacBest s = some (r, h, q, peer) → (s.port q).state = 3 → (s.fabric.state = 2 ∨ s.fabric.state = 3) → ((s.port q).chan peer).waiting = [] →
      2 ≤ ((s.port q).chan peer).credit 0 → ((s.port q).chan peer).unacked.length < 16384 → answers .almanacExchange s fun t =>
        t.fabric.reqOut = some (q, almanac8 s) ∧ ∃ g, t.out = s.out ++ [.fabric q g (linkWire (s.port q).mode g)] ∧ g.type = 6 ∧ fieldAt g.payload 0 8 = almanac8 s) ∧
    (f.type = 6 → taken → bits f.specific.toNat 79 72 = 1 → ((u.port p).chan f.srcEngine).waiting = [] →
      2 ≤ ((u.port p).chan f.srcEngine).credit 0 → ((u.port p).chan f.srcEngine).unacked.length < 16384 →
      answers (.almanacRequest p f) s fun t => ∃ g, t.out = u.out ++ [.fabric p g (linkWire x.mode g)] ∧ g.type = 6 ∧ fieldAt g.payload 0 8 = almanac8 s) ∧
    (∀ (t1 t4 : Nat), f.type = 6 → taken → bits f.specific.toNat 79 72 = 2 → s.fabric.reqOut = some (p, t1) → (s.fabric.state = 2 ∨ s.fabric.state = 3) →
      let d : Int := ((fieldAt f.payload 0 8 : Int) - t1) + ((fieldAt f.payload 8 8 : Int) - t4)
      answers (.almanacReply p f t4) s fun t => t.fabric.reqOut = none ∧ t.fabric.offset = d * 125 / 2 ∧
        ((16000 < d ∨ d < -16000) → s.fabric.state = 3 → t.almanac = s.almanac + BitVec.ofInt 64 (rneInt d 16)) ∧
        (-16000 ≤ d → d ≤ 16000 → t.almanac = s.almanac ∧ t.fabric.slew = d / 2)) ∧
    (∀ peer, let d := x.chan peer
      (d.owed ≠ 0 → s.passed d.owedAt 1000 = true → 1 ≤ d.credit 0 → typePasses s x 7 = true → answers (.ackDelay p peer) s fun t => ((t.port p).chan peer).owed = 0 ∧
        ∃ g, t.out = s.out ++ [.fabric p g (linkWire x.mode g)] ∧ g.type = 7 ∧ g.nak = false ∧ g.ackValid = true ∧ g.ack = d.rxSeq) ∧
      (d.unacked ≠ [] → s.passed d.ackAt (1000 * s.setting 0x7000 8 50) = true → answers (.replayTimeout p peer) s fun t =>
        (t.port p).replayed = x.replayed + d.unacked.length ∧ ((t.port p).chan peer).unacked = d.unacked ∧
        t.out.length = s.out.length + d.unacked.length) ∧
      (∀ d, Tbl.find x.chans peer = some d → d.noAck ≠ 0 → s.passed d.noAck (1000 * s.setting 0x7000 9 1000) = true → peer ≠ linkKey →
        Tbl.wf x.chans → Tbl.wf s.fabric.ports → s.regions = [] → s.fabric.waits = [] → answers (.peerUnreachable peer) s fun t =>
          Tbl.find (t.port p).chans peer = none) ∧
      exec (.peerUnreachable peer) s = .next (((s.fabric.ports.filter fun e => match Tbl.find e.2.chans peer with
        | some d => d.noAck ≠ 0 && s.passed d.noAck (1000 * s.setting 0x7000 9 1000)
        | none => false).map (·.1)).foldl (fun s p => chooseRoot (dropChan s p peer)) s)) ∧
    (p < 48 → 2 ≤ x.state → answers (.portDown p 0) s fun t => (t.port p).chans = [] ∧ (t.port p).peer = 0xFFFF ∧
      (t.port p).downAt = s.now ∧ (t.port p).state = if s.setting (0x7100 + p) 3 1 = 1 then 1 else 0) ∧
    (s.factory.ports.contains p = true → x.state < 2 → s.setting (0x7100 + p) 3 1 = 1 → s.power.pgAux = true → s.power.pgOpt = true →
      s.passed x.downAt 100000000 = true →
      (answers (.portRetrain p true) s fun t => (t.port p).state = 2 ∧ (t.port p).mode = s.setting (0x7100 + p) 2 0 ∧
        ∃ g, t.out = s.out ++ [.fabric p g (linkWire (t.port p).mode g)] ∧ g.type = 5 ∧ g.payload = helloGrant (s.setting (0x7100 + p) 2 0)) ∧
      (answers (.portRetrain p false) s fun t => (t.port p).state = 1 ∧ (t.port p).downAt = s.now ∧ t.out = s.out))

/-! ## Pipeline groups (R400, R401, R604, R605) -/

/-- What an accepted CONTROL frame that matches an image of its group does, kind by kind: a stage bound, the group active, the phases of a
swap, a fault of another stage, and the phases of the group's flush; REJECTED ends a swap whose report stage 0 refused.  For every form the state that exec answers is named first, for every state in which
the frame matches; the clauses after it say what that state holds.
Each of these is shown to answer a next state under the conditions of its clause: bound, activate, swapVerified, swapRewrite,
swapRewritten, swapSwitch, swapSwitched, swapRollback, controlFault, flushStop, flushRestart, flushed, rejected. -/
def Obligations.GroupControl : Prop :=
  ∀ (s : State) (p n : Nat) (f : FFrame) (b : BoundImage),
    let u := (s.takeFrame p f).1
    f.type = 4 → (s.takeFrame p f).2 = true → controlFor u f = some (n, b) → (u.region n).img = some b →
    let kind (k : Nat) : Prop := bits f.specific.toNat 79 72 = k
    let st := ctlStatus f
    let img (t : State) (q : BoundImage → Prop) : Prop := ∃ y, (t.region n).img = some y ∧ q y
    (kind 1 → b.img.stage = 0 →
      (st = 0 → answers (.bound p f) s fun t => img t fun y => f.srcStage ∈ y.reported ∧ y.bound = b.bound) ∧
      (st ≠ 0 → answers (.bound p f) s fun t => img t fun y => f.srcStage ∉ y.reported ∧ y.active = false)) ∧
    (kind 2 → b.img.stage ≠ 0 → b.bound = true → b.stopped = false → answers (.activate p f) s fun t =>
      (t.region n).img = some { b with active := true, version := b.img.version, epoch := 0 }) ∧
    (kind 10 → b.img.stage ≠ 0 →
      (st = 1 → (u.region n).flush = none → answers (.flushStop p f) s fun t =>
        (t.region n).flush = some { phase := 0, since := s.now, code := 0 } ∧ img t fun y => y.epoch = bits f.specific.toNat 63 56) ∧
      (∀ x, st = 2 → (u.region n).flush = some x → x.phase = 4 → exec (.flushRestart p f) s = .next (tryRelease (orderRestart u n) n)) ∧
      (∀ x, st = 2 → (u.region n).flush = some x → x.phase = 4 → (∃ c ∈ liveCores u n, (u.core c).run ≠ .halted) →
        answers (.flushRestart p f) s fun t => (t.region n).flush = some { x with phase := 2 } ∧
          ∀ c ∈ liveCores u n, (u.core c).run ≠ .halted → (t.core c).restartBy = some (s.now + 10000))) ∧
    (∀ x, kind 11 → st = 1 → b.img.stage = 0 → (u.region n).flush = some x → x.phase ≤ 1 → f.srcStage ∉ b.flushed →
      answers (.flushed p f) s fun t => (t.region n).img = some { b with flushed := b.flushed ++ [f.srcStage] } ∧
        (t.region n).flush = some x) ∧
    (kind 9 → b.img.stage = 0 →
      let code := bits (fieldAt f.payload 64 32) 239 224
      let v := (endNamed u n (BitVec.ofNat 32 (bits (fieldAt f.payload 64 32) 191 160)) none code).1
      let swapping (o : LoadOp) : Prop := o.swap = true ∧ o.switched = false ∧ (o.phase = .rewrite ∨ o.phase = .activate ∨ o.phase = .rollback)
      ((∀ o, (v.region n).op = some o → ¬ swapping o) → exec (.controlFault p f) s = .next (startFlush v n code)) ∧
      (∀ o, (v.region n).op = some o → swapping o →
        let w := if (v.region n).flush.isSome then v else
          v.updRegion n fun r => { r with flush := some { phase := 5, since := v.now, code := code } }
        exec (.controlFault p f) s = .next (if o.phase = .rollback then w else advance (beginRollback w n true) n))) ∧
    (kind 5 → (u.region n).op = none → exec (.swapRewritten p f) s = .next (splitLate u n b f)) ∧
    (kind 8 → (u.region n).op = none → b.img.stage ≠ 0 → exec (.swapRollback p f) s = .next (splitLate u n b f)) ∧
    (kind 9 → b.img.stage = 0 → b.bound = true → (u.region n).op = none → (u.region n).flush = none → s.serving.ctxs = [] →
      answers (.controlFault p f) s fun t => ∃ x, (t.region n).flush = some x ∧ x.phase = 0 ∧
        x.code = bits (fieldAt f.payload 64 32) 239 224) ∧
    (∀ o, (u.region n).op = some o → o.swap = true →
      let adds (t : State) (r : Nat) : Prop := (t.region n).op = some { o with reports := o.reports ++ [(f.srcStage, r)] }
      let ends (t : State) : Prop := (t.region n).op = none ∧ (t.region n).img = some b ∧ ∀ h, o.handle = some h → t.cmd? h = none
      let split (t : State) : Prop := (t.region n).op = none ∧ (t.region n).state = 2 ∧ (t.region n).split = true
      let served (t : State) : Prop := (t.region n).op = none ∧ img t fun y => y.img = o.img ∧ y.version = o.img.version ∧ y.active = true
      let counted (r : Nat) : State := setOp u n { o with reports := o.reports ++ [(f.srcStage, r)] }
      let failing : State := setOp u n { o with failed := some (st, toldDetail st, 0) }
      let rolling : State := setOp u n { o with failed := some (o.failed.getD (st, toldDetail st, 0)) }
      (kind 3 → o.lead = true → o.phase = .verify →
        exec (.swapVerified p f) s = .next (if st ≠ 0 then endSwapEarly (opControlAll u n 8 st) n st (toldDetail st) 0 else advance (counted 0) n)) ∧
      (kind 4 → o.later = true → o.phase = .drain → exec (.swapRewrite p f) s = .next (advance (endSwapJobs (keepRecord (setOp u n { o with
        phase := .rewrite, since := u.now, closed := true, shards := [], layers := 0, reports := [] }) n) n) n)) ∧
      (kind 5 → o.lead = true → (((o.phase = .rewrite ∨ o.phase = .activate) ∧ o.switched = false) ∨ st = 3) → exec (.swapRewritten p f) s = .next (
        if st = 3 then splitSwap u n true else if st ≠ 0 then advance (beginRollback failing n true) n else orderSwitch (counted 0) n)) ∧
      (kind 6 → o.later = true → o.phase = .activate → exec (.swapSwitch p f) s = .next (match ((finishSwap u n).region n).img with
        | some y => sendControl (finishSwap u n) y 0 7 0 y.version []
        | none => finishSwap u n)) ∧
      (kind 7 → o.lead = true → o.phase = .activate → exec (.swapSwitched p f) s = .next (
        if LoadOp.allReport { o with reports := o.reports ++ [(f.srcStage, 256)] } 256 then finishSwap (counted 256) n else counted 256)) ∧
      (kind 8 → o.later = true →
        ((o.phase = .verify ∨ o.phase = .drain) → exec (.swapRollback p f) s = .next (endSwapEarly u n st (toldDetail st) 0)) ∧
        ((o.phase = .rewrite ∨ o.phase = .activate) → exec (.swapRollback p f) s = .next (
          if st = 3 then splitSwap u n false else advance (beginRollback rolling n false) n)) ∧
        (o.phase = .rollback → exec (.swapRollback p f) s = .next (if st = 3 then splitSwap u n false else u))) ∧
      (kind 12 → st = 3 → o.later = true → (o.phase = .verify ∨ o.phase = .drain) →
        exec (.rejected p f) s = .next (endSwapEarly u n 5 16 0)) ∧
      (kind 3 → o.lead = true → o.phase = .verify →
        (st = 0 → o.failed = none → ((wantedShards ((setOp u n { o with reports := o.reports ++ [(f.srcStage, 0)] }).region n)
            { o with reports := o.reports ++ [(f.srcStage, 0)] }).all fun h => (o.shard h).arrived) = false →
          answers (.swapVerified p f) s fun t => adds t 0) ∧
        (st ≠ 0 → s.serving.ctxs = [] → s.setting 0x2010 1 1 ≠ 0 → answers (.swapVerified p f) s ends)) ∧
      (kind 4 → o.later = true → o.phase = .drain → o.failed = none → answers (.swapRewrite p f) s fun t =>
        ∃ y, (t.region n).op = some y ∧ y.phase = .rewrite ∧ y.closed = true ∧ y.img = o.img) ∧
      (kind 5 → o.lead = true → o.phase = .rewrite → (st = 0 → o.failed = none → answers (.swapRewritten p f) s fun t => adds t 0) ∧
        (st = 3 → answers (.swapRewritten p f) s split)) ∧
      (kind 6 → o.later = true → o.phase = .activate → s.serving.ctxs = [] → s.setting 0x2010 1 1 ≠ 0 → answers (.swapSwitch p f) s served) ∧
      (kind 7 → o.lead = true → o.phase = .activate →
        (LoadOp.allReport { o with reports := o.reports ++ [(f.srcStage, 256)] } 256 = false → answers (.swapSwitched p f) s fun t => adds t 256) ∧
        (LoadOp.allReport { o with reports := o.reports ++ [(f.srcStage, 256)] } 256 = true → s.serving.ctxs = [] → s.setting 0x2010 1 1 ≠ 0 →
          answers (.swapSwitched p f) s served)) ∧
      (kind 8 → o.later = true →
        ((o.phase = .verify ∨ o.phase = .drain) → s.serving.ctxs = [] → s.setting 0x2010 1 1 ≠ 0 → answers (.swapRollback p f) s ends) ∧
        (o.phase = .rewrite → st = 3 → answers (.swapRollback p f) s split)) ∧
      (kind 12 → st = 3 → o.later = true → (o.phase = .verify ∨ o.phase = .drain) → s.serving.ctxs = [] → s.setting 0x2010 1 1 ≠ 0 → answers (.rejected p f) s ends))

/-! ## The whole machine -/

/-- The machine right after reset: it waits for its first cold start with its rails low, its cores halted with empty scratchpads, its power
regions dark, no region configured, no command waiting, and every setting at its default; the invariants hold (R31, R140, R162, R250, R507, R531; where no rule gives a value at reset it is the model's choice, log 6). -/
def Obligations.ResetState : Prop :=
  let s := State.reset
  s.pending = [] ∧ s.boot.phase = .trigger 1 ∧ s.power.pgArray = false ∧ s.power.pgAux = false ∧ s.power.pgOpt = false ∧ s.mesh = [] ∧
  s.out = [] ∧ s.boot.keys = none ∧
  (∀ c, (s.core c).run = .halted ∧ (s.core c).fence = none ∧ (s.core c).seq.asr = 0 ∧
    (∀ r, (s.core c).seq.reg r = 0) ∧ (∀ a, Memory.get (s.core c).mem a = 0)) ∧
  (∀ i, (s.sync i).value = 0 ∧ (s.sync i).owner = none) ∧ (∀ n, (s.region n).state = 0 ∧ (s.region n).img = none) ∧
  (∀ g, (s.preg g).state = .dark) ∧ (∀ h, s.cmd? h = none) ∧ (∀ index sub dflt, s.setting index sub dflt = dflt) ∧
  memOk s ∧ zeroOk s ∧ tablesOk s

/-- Every command, in every state, runs to a next state; every command and every step keep the scratchpads in canonical form and register
s0 at zero (R140, R162). -/
def Obligations.StepsKeepMemory : Prop :=
  (∀ (i : Instr) (s : State), ∃ t, exec i s = .next t ∧ (memOk s → zeroOk s → memOk t ∧ zeroOk t)) ∧
  ∀ s : State, ∃ t, step s = .next t ∧ (memOk s → zeroOk s → memOk t ∧ zeroOk t)

/-- Every step of every state keeps the keys of the tables rising, so that an entry that is removed is gone. -/
def Obligations.StepsKeepTables : Prop :=
  ∀ s t : State, tablesOk s → step s = .next t → tablesOk t
end

