-- ==== Sys2Proof/Laws/Tables.lean ====
section
/-!
SUPPORT. The laws of finite tables, byte strings and scratchpad memory: read after write, writes elsewhere, the canonical form.
-/
namespace Sys2Proof.Machine

/-! ## Finite tables -/

variable {α : Type}

@[simp] theorem Tbl.find_nil (i : Nat) : Tbl.find ([] : Tbl α) i = none := rfl

@[simp] theorem Tbl.find_set_same (t : Tbl α) (i : Nat) (x : α) : Tbl.find (Tbl.set t i x) i = some x := by
  induction t with
  | nil => simp [Tbl.set, Tbl.find]
  | cons e t ih =>
    obtain ⟨k, v⟩ := e
    by_cases h : i = k
    · simp [Tbl.set, Tbl.find, h]
    · by_cases h' : i < k
      · simp [Tbl.set, Tbl.find, h, h']
      · simp [Tbl.set, Tbl.find, h, h', ih]

theorem Tbl.find_set_ne (t : Tbl α) {i j : Nat} (x : α) (h : j ≠ i) : Tbl.find (Tbl.set t i x) j = Tbl.find t j := by
  induction t with
  | nil => simp [Tbl.set, Tbl.find, h]
  | cons e t ih =>
    obtain ⟨k, v⟩ := e
    by_cases hk : i = k
    · subst hk; simp [Tbl.set, Tbl.find, h]
    · by_cases h' : i < k
      · simp [Tbl.set, Tbl.find, hk, h', h]
      · simp [Tbl.set, Tbl.find, hk, h', ih]

theorem Tbl.find_del_ne (t : Tbl α) {i j : Nat} (h : j ≠ i) : Tbl.find (Tbl.del t i) j = Tbl.find t j := by
  induction t with
  | nil => rfl
  | cons e t ih =>
    obtain ⟨k, v⟩ := e
    by_cases hk : i = k
    · subst hk; simp [Tbl.del, Tbl.find, h]
    · simp [Tbl.del, Tbl.find, hk, ih]

@[simp] theorem Tbl.get_set_same (t : Tbl α) (d : α) (i : Nat) (x : α) : Tbl.get (Tbl.set t i x) d i = x := by
  simp [Tbl.get]

theorem Tbl.get_set_ne (t : Tbl α) (d : α) {i j : Nat} (x : α) (h : j ≠ i) : Tbl.get (Tbl.set t i x) d j = Tbl.get t d j := by
  simp [Tbl.get, Tbl.find_set_ne t x h]

theorem Tbl.find_map (f : Nat → α → α) (t : Tbl α) (i : Nat) : Tbl.find (Tbl.map f t) i = (Tbl.find t i).map (f i) := by
  induction t with
  | nil => rfl
  | cons e t ih =>
    obtain ⟨k, v⟩ := e
    by_cases h : i = k
    · subst h; simp [Tbl.map, Tbl.find]
    · simpa [Tbl.map, Tbl.find, h] using ih

theorem Tbl.find_mem {t : Tbl α} {i : Nat} {x : α} (h : Tbl.find t i = some x) : (i, x) ∈ t := by
  induction t with
  | nil => simp at h
  | cons e t ih =>
    obtain ⟨k, v⟩ := e
    by_cases hk : i = k
    · subst hk; simp [Tbl.find] at h; simp [h]
    · simp [Tbl.find, hk] at h; exact List.mem_cons_of_mem _ (ih h)

/-- Every entry of a written table was there before or is the one written. -/
theorem Tbl.mem_set {t : Tbl α} {i : Nat} {x : α} {e : Nat × α} (h : e ∈ Tbl.set t i x) : e = (i, x) ∨ e ∈ t := by
  induction t with
  | nil => simp [Tbl.set] at h; exact .inl h
  | cons a t ih =>
    obtain ⟨k, v⟩ := a
    by_cases hk : i = k
    · subst hk
      simp [Tbl.set] at h
      rcases h with h | h
      · exact .inl h
      · exact .inr (List.mem_cons_of_mem _ h)
    · by_cases h' : i < k
      · simp [Tbl.set, hk, h'] at h
        rcases h with h | h | h
        · exact .inl h
        · exact .inr (by simp [h])
        · exact .inr (List.mem_cons_of_mem _ h)
      · simp [Tbl.set, hk, h'] at h
        rcases h with h | h
        · exact .inr (by simp [h])
        · exact (ih h).imp id (List.mem_cons_of_mem _)

theorem Tbl.mem_del {t : Tbl α} {i : Nat} {e : Nat × α} (h : e ∈ Tbl.del t i) : e ∈ t := by
  induction t with
  | nil => simp [Tbl.del] at h
  | cons a t ih =>
    obtain ⟨k, v⟩ := a
    by_cases hk : i = k
    · subst hk; simp [Tbl.del] at h; exact List.mem_cons_of_mem _ h
    · simp [Tbl.del, hk] at h
      rcases h with h | h
      · simp [h]
      · exact List.mem_cons_of_mem _ (ih h)

theorem Tbl.wf_set {t : Tbl α} (h : Tbl.wf t) (i : Nat) (x : α) : Tbl.wf (Tbl.set t i x) := by
  induction t with
  | nil => simp [Tbl.set, Tbl.wf]
  | cons a t ih =>
    obtain ⟨k, v⟩ := a
    simp only [Tbl.wf, List.pairwise_cons] at h ih ⊢
    obtain ⟨h1, h2⟩ := h
    by_cases hk : i = k
    · subst hk; simp only [Tbl.set, if_true, List.pairwise_cons]; exact ⟨h1, h2⟩
    · by_cases h' : i < k
      · simp only [Tbl.set, hk, h', if_true, if_false, List.pairwise_cons]
        refine ⟨fun e he => ?_, h1, h2⟩
        rcases List.mem_cons.1 he with rfl | he
        · exact h'
        · exact lt_trans h' (h1 e he)
      · simp only [Tbl.set, hk, h', if_false, List.pairwise_cons]
        refine ⟨fun e he => ?_, ih h2⟩
        rcases Tbl.mem_set he with rfl | he
        · exact lt_of_le_of_ne (not_lt.1 h') (Ne.symm hk)
        · exact h1 e he

theorem Tbl.wf_del {t : Tbl α} (h : Tbl.wf t) (i : Nat) : Tbl.wf (Tbl.del t i) := by
  induction t with
  | nil => simpa [Tbl.del] using h
  | cons a t ih =>
    obtain ⟨k, v⟩ := a
    simp only [Tbl.wf, List.pairwise_cons] at h ih ⊢
    by_cases hk : i = k
    · subst hk; simpa [Tbl.del] using h.2
    · simp only [Tbl.del, hk, if_false, List.pairwise_cons]
      exact ⟨fun e he => h.1 e (Tbl.mem_del he), ih h.2⟩

theorem Tbl.wf_map {t : Tbl α} (h : Tbl.wf t) (f : Nat → α → α) : Tbl.wf (Tbl.map f t) := by
  unfold Tbl.wf Tbl.map at *
  exact List.pairwise_map.2 h

/-! ## Byte strings -/

@[simp] theorem length_leBytes (n v : Nat) : (leBytes n v).length = n := by
  induction n generalizing v with
  | zero => rfl
  | succ n ih => simp [leBytes, ih]

theorem leNat_leBytes (n v : Nat) : leNat (leBytes n v) = v % 256 ^ n := by
  induction n generalizing v with
  | zero => simp [leBytes, leNat, Nat.mod_one]
  | succ n ih =>
    simp only [leBytes, leNat, ih, BitVec.toNat_ofNat]
    rw [show (2 : Nat) ^ 8 = 256 by norm_num, pow_succ', Nat.mod_mul]

@[simp] theorem length_slice (b : Bytes) (off n : Nat) : (slice b off n).length = n := by
  simp only [slice, List.length_append, List.length_replicate, List.length_take, List.length_drop]
  omega

/-! ## Scratchpad memory -/

theorem Memory.mem_set {m : Memory} {a : Nat} {x : Byte} {e : Host.Cell} (h : e ∈ Memory.set m a x) :
    (e = (a, x) ∧ x ≠ 0) ∨ e ∈ m := by
  induction m with
  | nil =>
    by_cases hx : x = 0#8
    · simp [Memory.set, hx] at h
    · simp [Memory.set, hx] at h; exact .inl ⟨h, hx⟩
  | cons b m ih =>
    obtain ⟨k, v⟩ := b
    by_cases hk : a = k
    · subst hk
      by_cases hx : x = 0#8
      · simp [Memory.set, hx] at h; exact .inr (List.mem_cons_of_mem _ h)
      · simp [Memory.set, hx] at h
        rcases h with h | h
        · exact .inl ⟨h, hx⟩
        · exact .inr (List.mem_cons_of_mem _ h)
    · by_cases h' : a < k
      · by_cases hx : x = 0#8
        · simp [Memory.set, hk, h', hx] at h; exact .inr (by simpa using h)
        · simp [Memory.set, hk, h', hx] at h
          rcases h with h | h
          · exact .inl ⟨h, hx⟩
          · exact .inr (by simpa using h)
      · simp [Memory.set, hk, h'] at h
        rcases h with h | h
        · exact .inr (by simp [h])
        · exact (ih h).imp id (List.mem_cons_of_mem _)

theorem Memory.get_set_ne (m : Memory) {a b : Nat} (x : Byte) (h : b ≠ a) : Memory.get (Memory.set m a x) b = Memory.get m b := by
  induction m with
  | nil => by_cases hx : x = 0#8 <;> simp [Memory.set, Memory.get, hx, h]
  | cons c m ih =>
    obtain ⟨k, v⟩ := c
    by_cases hk : a = k
    · subst hk; by_cases hx : x = 0#8 <;> simp [Memory.set, Memory.get, hx, h]
    · by_cases h' : a < k
      · by_cases hx : x = 0#8 <;> simp [Memory.set, Memory.get, hk, h', hx, h]
      · simp [Memory.set, Memory.get, hk, h', ih]

theorem Memory.get_of_lt {m : Memory} {a : Nat} (h : ∀ e ∈ m, a < e.1) : Memory.get m a = 0 := by
  induction m with
  | nil => rfl
  | cons c m ih =>
    obtain ⟨k, v⟩ := c
    have hk : a ≠ k := Nat.ne_of_lt (h (k, v) (by simp))
    simp only [Memory.get, hk, if_false]
    exact ih fun e he => h e (List.mem_cons_of_mem _ he)

theorem Memory.get_set_same {m : Memory} (hm : Memory.wf m) (a : Nat) (x : Byte) : Memory.get (Memory.set m a x) a = x := by
  induction m with
  | nil => by_cases hx : x = 0#8 <;> simp [Memory.set, Memory.get, hx]
  | cons c m ih =>
    obtain ⟨k, v⟩ := c
    obtain ⟨h1, h2⟩ := hm
    have h1' := List.pairwise_cons.1 h1
    have hm' : Memory.wf m := ⟨h1'.2, fun e he => h2 e (List.mem_cons_of_mem _ he)⟩
    by_cases hk : a = k
    · subst hk
      by_cases hx : x = 0#8
      · simp only [Memory.set, if_true, hx]; exact Memory.get_of_lt h1'.1
      · simp [Memory.set, Memory.get, hx]
    · by_cases h' : a < k
      · by_cases hx : x = 0#8
        · simp only [Memory.set, hk, h', if_false, if_true, hx]
          refine Memory.get_of_lt fun e he => ?_
          rcases List.mem_cons.1 he with rfl | he
          · exact h'
          · exact lt_trans h' (h1'.1 e he)
        · simp [Memory.set, Memory.get, hk, h', hx]
      · simp [Memory.set, Memory.get, hk, h', ih hm']

theorem Memory.wf_set {m : Memory} (hm : Memory.wf m) (a : Nat) (x : Byte) : Memory.wf (Memory.set m a x) := by
  refine ⟨?_, fun e he => ?_⟩
  · induction m with
    | nil => by_cases hx : x = 0#8 <;> simp [Memory.set, hx]
    | cons c m ih =>
      obtain ⟨k, v⟩ := c
      obtain ⟨h1, h2⟩ := hm
      have h1' := List.pairwise_cons.1 h1
      have hm' : Memory.wf m := ⟨h1'.2, fun e he => h2 e (List.mem_cons_of_mem _ he)⟩
      by_cases hk : a = k
      · subst hk
        by_cases hx : x = 0#8
        · simpa [Memory.set, hx] using h1'.2
        · simpa [Memory.set, hx] using h1'
      · by_cases h' : a < k
        · by_cases hx : x = 0#8
          · simpa [Memory.set, hk, h', hx] using h1'
          · have hx' : ¬ x = 0 := hx
            simp only [Memory.set, hk, h', hx', if_true, if_false]
            refine List.pairwise_cons.2 ⟨fun e he => ?_, h1⟩
            rcases List.mem_cons.1 he with rfl | he
            · exact h'
            · exact lt_trans h' (h1'.1 e he)
        · simp only [Memory.set, hk, h', if_false, List.pairwise_cons]
          refine ⟨fun e he => ?_, ih hm'⟩
          rcases Memory.mem_set he with ⟨rfl, -⟩ | he
          · exact lt_of_le_of_ne (not_lt.1 h') (Ne.symm hk)
          · exact h1'.1 e he
  · rcases Memory.mem_set he with ⟨rfl, hx⟩ | he
    · exact hx
    · exact hm.2 e he

theorem Memory.wf_write {m : Memory} (hm : Memory.wf m) (a : Nat) (b : Bytes) : Memory.wf (Memory.write m a b) := by
  induction b generalizing m a with
  | nil => exact hm
  | cons x b ih => exact ih (Memory.wf_set hm a x) (a + 1)

/-- A write leaves every byte outside its range as it was. -/
theorem Memory.get_write_out (m : Memory) (a : Nat) (b : Bytes) (i : Nat) (h : i < a ∨ a + b.length ≤ i) :
    Memory.get (Memory.write m a b) i = Memory.get m i := by
  induction b generalizing m a with
  | nil => rfl
  | cons x b ih =>
    simp only [List.length_cons] at h
    rw [Memory.write, ih _ _ (by omega), Memory.get_set_ne _ _ (by omega)]

/-- A write is read back. -/
theorem Memory.get_write_in {m : Memory} (hm : Memory.wf m) (a : Nat) (b : Bytes) (i : Nat) (h : i < b.length) :
    Memory.get (Memory.write m a b) (a + i) = b[i] := by
  induction b generalizing m a i with
  | nil => simp at h
  | cons x b ih =>
    cases i with
    | zero =>
      rw [Memory.write, Memory.get_write_out _ _ _ _ (by omega)]
      simpa using Memory.get_set_same hm a x
    | succ i =>
      simp only [List.length_cons] at h
      have := ih (Memory.wf_set hm a x) (a + 1) i (by omega)
      rw [Memory.write, show a + (i + 1) = a + 1 + i by omega, this]
      simp

theorem Memory.read_write {m : Memory} (hm : Memory.wf m) (a : Nat) (b : Bytes) : Memory.read (Memory.write m a b) a b.length = b := by
  refine List.ext_getElem (by simp [Memory.read]) fun i h1 h2 => ?_
  simp only [Memory.read, List.getElem_map, List.getElem_range]
  exact Memory.get_write_in hm a b i h2

/-- Putting bytes back keeps the canonical form. -/
theorem Memory.wf_restore {m : Memory} (hm : Memory.wf m) (u : List (Nat × Byte)) :
    Memory.wf (u.foldl (fun m x => Memory.set m x.1 x.2) m) := by
  induction u generalizing m with
  | nil => exact hm
  | cons x u ih => exact ih (Memory.wf_set hm x.1 x.2)

theorem Memory.wf_nil : Memory.wf [] := ⟨List.Pairwise.nil, fun _ h => by simp at h⟩

end Sys2Proof.Machine
end

