-- ==== Sys2Proof/Laws/Host.lean ====
section
/-!
SUPPORT. A flit that the engine builds reads back as it was built.
-/
namespace Sys2Proof.Machine

/-- The CRC of a flit that is built checks (R411). -/
theorem crcOk_flitBytes (h : FlitHdr) (body : Bytes) : (flitHdrOf (flitBytes h body)).crcOk = true := by
  have hl : (leBytes 8 (flitHeader h) ++ slice body 0 240).length = 248 := by simp
  generalize hb : leBytes 8 (flitHeader h) ++ slice body 0 240 = b at hl
  have hc : (crc32c b).toNat % 256 ^ 4 = (crc32c b).toNat := Nat.mod_eq_of_lt (crc32c b).isLt
  have h1 : slice (b ++ leBytes 4 0 ++ leBytes 4 (crc32c b).toNat) 252 4 = leBytes 4 (crc32c b).toNat := by
    unfold slice
    rw [List.drop_append_of_le_length (by simp [hl]), List.drop_eq_nil_of_le (by simp [hl])]
    simp
  have h2 : slice (b ++ leBytes 4 0 ++ leBytes 4 (crc32c b).toNat) 0 248 = b := by
    unfold slice
    rw [List.drop_zero, List.append_assoc, List.take_left' hl]
    simp [hl]
  have hn : (b ++ leBytes 4 0 ++ leBytes 4 (crc32c b).toNat).length = 256 := by simp [hl]
  simp only [flitHdrOf, flitBytes, hb, fieldAt, h1, h2, leNat_leBytes, hc, hn, decide_true, Bool.and_self]

end Sys2Proof.Machine
end

