-- ==== Sys2Proof/Laws/State.lean ====
section
/-!
SUPPORT. What each update of the state leaves as it was: one lemma per field and update; and what it writes.
-/
namespace Sys2Proof.Machine

@[simp] theorem State.setCore_now (s : State) (c : Nat) (x : Core) : (s.setCore c x).now = s.now := rfl
@[simp] theorem State.setCore_almanac (s : State) (c : Nat) (x : Core) : (s.setCore c x).almanac = s.almanac := rfl
@[simp] theorem State.setCore_free (s : State) (c : Nat) (x : Core) : (s.setCore c x).free = s.free := rfl
@[simp] theorem State.setCore_factory (s : State) (c : Nat) (x : Core) : (s.setCore c x).factory = s.factory := rfl
@[simp] theorem State.setCore_boot (s : State) (c : Nat) (x : Core) : (s.setCore c x).boot = s.boot := rfl
@[simp] theorem State.setCore_syncs (s : State) (c : Nat) (x : Core) : (s.setCore c x).syncs = s.syncs := rfl
@[simp] theorem State.setCore_mesh (s : State) (c : Nat) (x : Core) : (s.setCore c x).mesh = s.mesh := rfl
@[simp] theorem State.setCore_regions (s : State) (c : Nat) (x : Core) : (s.setCore c x).regions = s.regions := rfl
@[simp] theorem State.setCore_serving (s : State) (c : Nat) (x : Core) : (s.setCore c x).serving = s.serving := rfl
@[simp] theorem State.setCore_host (s : State) (c : Nat) (x : Core) : (s.setCore c x).host = s.host := rfl
@[simp] theorem State.setCore_od (s : State) (c : Nat) (x : Core) : (s.setCore c x).od = s.od := rfl
@[simp] theorem State.setCore_mgmt (s : State) (c : Nat) (x : Core) : (s.setCore c x).mgmt = s.mgmt := rfl
@[simp] theorem State.setCore_power (s : State) (c : Nat) (x : Core) : (s.setCore c x).power = s.power := rfl
@[simp] theorem State.setCore_thermal (s : State) (c : Nat) (x : Core) : (s.setCore c x).thermal = s.thermal := rfl
@[simp] theorem State.setCore_upkeep (s : State) (c : Nat) (x : Core) : (s.setCore c x).upkeep = s.upkeep := rfl
@[simp] theorem State.setCore_faults (s : State) (c : Nat) (x : Core) : (s.setCore c x).faults = s.faults := rfl
@[simp] theorem State.setCore_fabric (s : State) (c : Nat) (x : Core) : (s.setCore c x).fabric = s.fabric := rfl
@[simp] theorem State.setCore_observe (s : State) (c : Nat) (x : Core) : (s.setCore c x).observe = s.observe := rfl
@[simp] theorem State.setCore_out (s : State) (c : Nat) (x : Core) : (s.setCore c x).out = s.out := rfl
@[simp] theorem State.setCore_pending (s : State) (c : Nat) (x : Core) : (s.setCore c x).pending = s.pending := rfl

@[simp] theorem State.setSync_now (s : State) (i : Nat) (x : SyncObj) : (s.setSync i x).now = s.now := rfl
@[simp] theorem State.setSync_almanac (s : State) (i : Nat) (x : SyncObj) : (s.setSync i x).almanac = s.almanac := rfl
@[simp] theorem State.setSync_free (s : State) (i : Nat) (x : SyncObj) : (s.setSync i x).free = s.free := rfl
@[simp] theorem State.setSync_factory (s : State) (i : Nat) (x : SyncObj) : (s.setSync i x).factory = s.factory := rfl
@[simp] theorem State.setSync_boot (s : State) (i : Nat) (x : SyncObj) : (s.setSync i x).boot = s.boot := rfl
@[simp] theorem State.setSync_cores (s : State) (i : Nat) (x : SyncObj) : (s.setSync i x).cores = s.cores := rfl
@[simp] theorem State.setSync_mesh (s : State) (i : Nat) (x : SyncObj) : (s.setSync i x).mesh = s.mesh := rfl
@[simp] theorem State.setSync_regions (s : State) (i : Nat) (x : SyncObj) : (s.setSync i x).regions = s.regions := rfl
@[simp] theorem State.setSync_serving (s : State) (i : Nat) (x : SyncObj) : (s.setSync i x).serving = s.serving := rfl
@[simp] theorem State.setSync_host (s : State) (i : Nat) (x : SyncObj) : (s.setSync i x).host = s.host := rfl
@[simp] theorem State.setSync_od (s : State) (i : Nat) (x : SyncObj) : (s.setSync i x).od = s.od := rfl
@[simp] theorem State.setSync_mgmt (s : State) (i : Nat) (x : SyncObj) : (s.setSync i x).mgmt = s.mgmt := rfl
@[simp] theorem State.setSync_power (s : State) (i : Nat) (x : SyncObj) : (s.setSync i x).power = s.power := rfl
@[simp] theorem State.setSync_thermal (s : State) (i : Nat) (x : SyncObj) : (s.setSync i x).thermal = s.thermal := rfl
@[simp] theorem State.setSync_upkeep (s : State) (i : Nat) (x : SyncObj) : (s.setSync i x).upkeep = s.upkeep := rfl
@[simp] theorem State.setSync_faults (s : State) (i : Nat) (x : SyncObj) : (s.setSync i x).faults = s.faults := rfl
@[simp] theorem State.setSync_fabric (s : State) (i : Nat) (x : SyncObj) : (s.setSync i x).fabric = s.fabric := rfl
@[simp] theorem State.setSync_observe (s : State) (i : Nat) (x : SyncObj) : (s.setSync i x).observe = s.observe := rfl
@[simp] theorem State.setSync_out (s : State) (i : Nat) (x : SyncObj) : (s.setSync i x).out = s.out := rfl
@[simp] theorem State.setSync_pending (s : State) (i : Nat) (x : SyncObj) : (s.setSync i x).pending = s.pending := rfl

@[simp] theorem State.setRegion_now (s : State) (n : Nat) (x : Region) : (s.setRegion n x).now = s.now := rfl
@[simp] theorem State.setRegion_almanac (s : State) (n : Nat) (x : Region) : (s.setRegion n x).almanac = s.almanac := rfl
@[simp] theorem State.setRegion_free (s : State) (n : Nat) (x : Region) : (s.setRegion n x).free = s.free := rfl
@[simp] theorem State.setRegion_factory (s : State) (n : Nat) (x : Region) : (s.setRegion n x).factory = s.factory := rfl
@[simp] theorem State.setRegion_boot (s : State) (n : Nat) (x : Region) : (s.setRegion n x).boot = s.boot := rfl
@[simp] theorem State.setRegion_cores (s : State) (n : Nat) (x : Region) : (s.setRegion n x).cores = s.cores := rfl
@[simp] theorem State.setRegion_syncs (s : State) (n : Nat) (x : Region) : (s.setRegion n x).syncs = s.syncs := rfl
@[simp] theorem State.setRegion_mesh (s : State) (n : Nat) (x : Region) : (s.setRegion n x).mesh = s.mesh := rfl
@[simp] theorem State.setRegion_serving (s : State) (n : Nat) (x : Region) : (s.setRegion n x).serving = s.serving := rfl
@[simp] theorem State.setRegion_host (s : State) (n : Nat) (x : Region) : (s.setRegion n x).host = s.host := rfl
@[simp] theorem State.setRegion_od (s : State) (n : Nat) (x : Region) : (s.setRegion n x).od = s.od := rfl
@[simp] theorem State.setRegion_mgmt (s : State) (n : Nat) (x : Region) : (s.setRegion n x).mgmt = s.mgmt := rfl
@[simp] theorem State.setRegion_power (s : State) (n : Nat) (x : Region) : (s.setRegion n x).power = s.power := rfl
@[simp] theorem State.setRegion_thermal (s : State) (n : Nat) (x : Region) : (s.setRegion n x).thermal = s.thermal := rfl
@[simp] theorem State.setRegion_upkeep (s : State) (n : Nat) (x : Region) : (s.setRegion n x).upkeep = s.upkeep := rfl
@[simp] theorem State.setRegion_faults (s : State) (n : Nat) (x : Region) : (s.setRegion n x).faults = s.faults := rfl
@[simp] theorem State.setRegion_fabric (s : State) (n : Nat) (x : Region) : (s.setRegion n x).fabric = s.fabric := rfl
@[simp] theorem State.setRegion_observe (s : State) (n : Nat) (x : Region) : (s.setRegion n x).observe = s.observe := rfl
@[simp] theorem State.setRegion_out (s : State) (n : Nat) (x : Region) : (s.setRegion n x).out = s.out := rfl
@[simp] theorem State.setRegion_pending (s : State) (n : Nat) (x : Region) : (s.setRegion n x).pending = s.pending := rfl

@[simp] theorem State.setPreg_now (s : State) (g : Nat) (x : PRegion) : (s.setPreg g x).now = s.now := rfl
@[simp] theorem State.setPreg_almanac (s : State) (g : Nat) (x : PRegion) : (s.setPreg g x).almanac = s.almanac := rfl
@[simp] theorem State.setPreg_free (s : State) (g : Nat) (x : PRegion) : (s.setPreg g x).free = s.free := rfl
@[simp] theorem State.setPreg_factory (s : State) (g : Nat) (x : PRegion) : (s.setPreg g x).factory = s.factory := rfl
@[simp] theorem State.setPreg_boot (s : State) (g : Nat) (x : PRegion) : (s.setPreg g x).boot = s.boot := rfl
@[simp] theorem State.setPreg_cores (s : State) (g : Nat) (x : PRegion) : (s.setPreg g x).cores = s.cores := rfl
@[simp] theorem State.setPreg_syncs (s : State) (g : Nat) (x : PRegion) : (s.setPreg g x).syncs = s.syncs := rfl
@[simp] theorem State.setPreg_mesh (s : State) (g : Nat) (x : PRegion) : (s.setPreg g x).mesh = s.mesh := rfl
@[simp] theorem State.setPreg_regions (s : State) (g : Nat) (x : PRegion) : (s.setPreg g x).regions = s.regions := rfl
@[simp] theorem State.setPreg_serving (s : State) (g : Nat) (x : PRegion) : (s.setPreg g x).serving = s.serving := rfl
@[simp] theorem State.setPreg_host (s : State) (g : Nat) (x : PRegion) : (s.setPreg g x).host = s.host := rfl
@[simp] theorem State.setPreg_od (s : State) (g : Nat) (x : PRegion) : (s.setPreg g x).od = s.od := rfl
@[simp] theorem State.setPreg_mgmt (s : State) (g : Nat) (x : PRegion) : (s.setPreg g x).mgmt = s.mgmt := rfl
@[simp] theorem State.setPreg_thermal (s : State) (g : Nat) (x : PRegion) : (s.setPreg g x).thermal = s.thermal := rfl
@[simp] theorem State.setPreg_upkeep (s : State) (g : Nat) (x : PRegion) : (s.setPreg g x).upkeep = s.upkeep := rfl
@[simp] theorem State.setPreg_faults (s : State) (g : Nat) (x : PRegion) : (s.setPreg g x).faults = s.faults := rfl
@[simp] theorem State.setPreg_fabric (s : State) (g : Nat) (x : PRegion) : (s.setPreg g x).fabric = s.fabric := rfl
@[simp] theorem State.setPreg_observe (s : State) (g : Nat) (x : PRegion) : (s.setPreg g x).observe = s.observe := rfl
@[simp] theorem State.setPreg_out (s : State) (g : Nat) (x : PRegion) : (s.setPreg g x).out = s.out := rfl
@[simp] theorem State.setPreg_pending (s : State) (g : Nat) (x : PRegion) : (s.setPreg g x).pending = s.pending := rfl

@[simp] theorem State.setCtx_now (s : State) (i : Nat) (x : Ctx) : (s.setCtx i x).now = s.now := rfl
@[simp] theorem State.setCtx_almanac (s : State) (i : Nat) (x : Ctx) : (s.setCtx i x).almanac = s.almanac := rfl
@[simp] theorem State.setCtx_free (s : State) (i : Nat) (x : Ctx) : (s.setCtx i x).free = s.free := rfl
@[simp] theorem State.setCtx_factory (s : State) (i : Nat) (x : Ctx) : (s.setCtx i x).factory = s.factory := rfl
@[simp] theorem State.setCtx_boot (s : State) (i : Nat) (x : Ctx) : (s.setCtx i x).boot = s.boot := rfl
@[simp] theorem State.setCtx_cores (s : State) (i : Nat) (x : Ctx) : (s.setCtx i x).cores = s.cores := rfl
@[simp] theorem State.setCtx_syncs (s : State) (i : Nat) (x : Ctx) : (s.setCtx i x).syncs = s.syncs := rfl
@[simp] theorem State.setCtx_mesh (s : State) (i : Nat) (x : Ctx) : (s.setCtx i x).mesh = s.mesh := rfl
@[simp] theorem State.setCtx_regions (s : State) (i : Nat) (x : Ctx) : (s.setCtx i x).regions = s.regions := rfl
@[simp] theorem State.setCtx_host (s : State) (i : Nat) (x : Ctx) : (s.setCtx i x).host = s.host := rfl
@[simp] theorem State.setCtx_od (s : State) (i : Nat) (x : Ctx) : (s.setCtx i x).od = s.od := rfl
@[simp] theorem State.setCtx_mgmt (s : State) (i : Nat) (x : Ctx) : (s.setCtx i x).mgmt = s.mgmt := rfl
@[simp] theorem State.setCtx_power (s : State) (i : Nat) (x : Ctx) : (s.setCtx i x).power = s.power := rfl
@[simp] theorem State.setCtx_thermal (s : State) (i : Nat) (x : Ctx) : (s.setCtx i x).thermal = s.thermal := rfl
@[simp] theorem State.setCtx_upkeep (s : State) (i : Nat) (x : Ctx) : (s.setCtx i x).upkeep = s.upkeep := rfl
@[simp] theorem State.setCtx_faults (s : State) (i : Nat) (x : Ctx) : (s.setCtx i x).faults = s.faults := rfl
@[simp] theorem State.setCtx_fabric (s : State) (i : Nat) (x : Ctx) : (s.setCtx i x).fabric = s.fabric := rfl
@[simp] theorem State.setCtx_observe (s : State) (i : Nat) (x : Ctx) : (s.setCtx i x).observe = s.observe := rfl
@[simp] theorem State.setCtx_out (s : State) (i : Nat) (x : Ctx) : (s.setCtx i x).out = s.out := rfl
@[simp] theorem State.setCtx_pending (s : State) (i : Nat) (x : Ctx) : (s.setCtx i x).pending = s.pending := rfl

@[simp] theorem State.delCtx_now (s : State) (i : Nat) : (s.delCtx i).now = s.now := rfl
@[simp] theorem State.delCtx_almanac (s : State) (i : Nat) : (s.delCtx i).almanac = s.almanac := rfl
@[simp] theorem State.delCtx_free (s : State) (i : Nat) : (s.delCtx i).free = s.free := rfl
@[simp] theorem State.delCtx_factory (s : State) (i : Nat) : (s.delCtx i).factory = s.factory := rfl
@[simp] theorem State.delCtx_boot (s : State) (i : Nat) : (s.delCtx i).boot = s.boot := rfl
@[simp] theorem State.delCtx_cores (s : State) (i : Nat) : (s.delCtx i).cores = s.cores := rfl
@[simp] theorem State.delCtx_syncs (s : State) (i : Nat) : (s.delCtx i).syncs = s.syncs := rfl
@[simp] theorem State.delCtx_mesh (s : State) (i : Nat) : (s.delCtx i).mesh = s.mesh := rfl
@[simp] theorem State.delCtx_regions (s : State) (i : Nat) : (s.delCtx i).regions = s.regions := rfl
@[simp] theorem State.delCtx_host (s : State) (i : Nat) : (s.delCtx i).host = s.host := rfl
@[simp] theorem State.delCtx_od (s : State) (i : Nat) : (s.delCtx i).od = s.od := rfl
@[simp] theorem State.delCtx_mgmt (s : State) (i : Nat) : (s.delCtx i).mgmt = s.mgmt := rfl
@[simp] theorem State.delCtx_power (s : State) (i : Nat) : (s.delCtx i).power = s.power := rfl
@[simp] theorem State.delCtx_thermal (s : State) (i : Nat) : (s.delCtx i).thermal = s.thermal := rfl
@[simp] theorem State.delCtx_upkeep (s : State) (i : Nat) : (s.delCtx i).upkeep = s.upkeep := rfl
@[simp] theorem State.delCtx_faults (s : State) (i : Nat) : (s.delCtx i).faults = s.faults := rfl
@[simp] theorem State.delCtx_fabric (s : State) (i : Nat) : (s.delCtx i).fabric = s.fabric := rfl
@[simp] theorem State.delCtx_observe (s : State) (i : Nat) : (s.delCtx i).observe = s.observe := rfl
@[simp] theorem State.delCtx_out (s : State) (i : Nat) : (s.delCtx i).out = s.out := rfl
@[simp] theorem State.delCtx_pending (s : State) (i : Nat) : (s.delCtx i).pending = s.pending := rfl

@[simp] theorem State.setPort_now (s : State) (p : Nat) (x : Port) : (s.setPort p x).now = s.now := rfl
@[simp] theorem State.setPort_almanac (s : State) (p : Nat) (x : Port) : (s.setPort p x).almanac = s.almanac := rfl
@[simp] theorem State.setPort_free (s : State) (p : Nat) (x : Port) : (s.setPort p x).free = s.free := rfl
@[simp] theorem State.setPort_factory (s : State) (p : Nat) (x : Port) : (s.setPort p x).factory = s.factory := rfl
@[simp] theorem State.setPort_boot (s : State) (p : Nat) (x : Port) : (s.setPort p x).boot = s.boot := rfl
@[simp] theorem State.setPort_cores (s : State) (p : Nat) (x : Port) : (s.setPort p x).cores = s.cores := rfl
@[simp] theorem State.setPort_syncs (s : State) (p : Nat) (x : Port) : (s.setPort p x).syncs = s.syncs := rfl
@[simp] theorem State.setPort_mesh (s : State) (p : Nat) (x : Port) : (s.setPort p x).mesh = s.mesh := rfl
@[simp] theorem State.setPort_regions (s : State) (p : Nat) (x : Port) : (s.setPort p x).regions = s.regions := rfl
@[simp] theorem State.setPort_serving (s : State) (p : Nat) (x : Port) : (s.setPort p x).serving = s.serving := rfl
@[simp] theorem State.setPort_host (s : State) (p : Nat) (x : Port) : (s.setPort p x).host = s.host := rfl
@[simp] theorem State.setPort_od (s : State) (p : Nat) (x : Port) : (s.setPort p x).od = s.od := rfl
@[simp] theorem State.setPort_mgmt (s : State) (p : Nat) (x : Port) : (s.setPort p x).mgmt = s.mgmt := rfl
@[simp] theorem State.setPort_power (s : State) (p : Nat) (x : Port) : (s.setPort p x).power = s.power := rfl
@[simp] theorem State.setPort_thermal (s : State) (p : Nat) (x : Port) : (s.setPort p x).thermal = s.thermal := rfl
@[simp] theorem State.setPort_upkeep (s : State) (p : Nat) (x : Port) : (s.setPort p x).upkeep = s.upkeep := rfl
@[simp] theorem State.setPort_faults (s : State) (p : Nat) (x : Port) : (s.setPort p x).faults = s.faults := rfl
@[simp] theorem State.setPort_observe (s : State) (p : Nat) (x : Port) : (s.setPort p x).observe = s.observe := rfl
@[simp] theorem State.setPort_out (s : State) (p : Nat) (x : Port) : (s.setPort p x).out = s.out := rfl
@[simp] theorem State.setPort_pending (s : State) (p : Nat) (x : Port) : (s.setPort p x).pending = s.pending := rfl

@[simp] theorem State.emit_now (s : State) (o : Out) : (s.emit o).now = s.now := rfl
@[simp] theorem State.emit_almanac (s : State) (o : Out) : (s.emit o).almanac = s.almanac := rfl
@[simp] theorem State.emit_free (s : State) (o : Out) : (s.emit o).free = s.free := rfl
@[simp] theorem State.emit_factory (s : State) (o : Out) : (s.emit o).factory = s.factory := rfl
@[simp] theorem State.emit_boot (s : State) (o : Out) : (s.emit o).boot = s.boot := rfl
@[simp] theorem State.emit_cores (s : State) (o : Out) : (s.emit o).cores = s.cores := rfl
@[simp] theorem State.emit_syncs (s : State) (o : Out) : (s.emit o).syncs = s.syncs := rfl
@[simp] theorem State.emit_mesh (s : State) (o : Out) : (s.emit o).mesh = s.mesh := rfl
@[simp] theorem State.emit_regions (s : State) (o : Out) : (s.emit o).regions = s.regions := rfl
@[simp] theorem State.emit_serving (s : State) (o : Out) : (s.emit o).serving = s.serving := rfl
@[simp] theorem State.emit_host (s : State) (o : Out) : (s.emit o).host = s.host := rfl
@[simp] theorem State.emit_od (s : State) (o : Out) : (s.emit o).od = s.od := rfl
@[simp] theorem State.emit_mgmt (s : State) (o : Out) : (s.emit o).mgmt = s.mgmt := rfl
@[simp] theorem State.emit_power (s : State) (o : Out) : (s.emit o).power = s.power := rfl
@[simp] theorem State.emit_thermal (s : State) (o : Out) : (s.emit o).thermal = s.thermal := rfl
@[simp] theorem State.emit_upkeep (s : State) (o : Out) : (s.emit o).upkeep = s.upkeep := rfl
@[simp] theorem State.emit_faults (s : State) (o : Out) : (s.emit o).faults = s.faults := rfl
@[simp] theorem State.emit_fabric (s : State) (o : Out) : (s.emit o).fabric = s.fabric := rfl
@[simp] theorem State.emit_observe (s : State) (o : Out) : (s.emit o).observe = s.observe := rfl
@[simp] theorem State.emit_pending (s : State) (o : Out) : (s.emit o).pending = s.pending := rfl

@[simp] theorem State.setCore_cores (s : State) (c : Nat) (x : Core) : (s.setCore c x).cores = Tbl.set s.cores c x := rfl
@[simp] theorem State.setSync_syncs (s : State) (i : Nat) (x : SyncObj) : (s.setSync i x).syncs = Tbl.set s.syncs i x := rfl
@[simp] theorem State.setRegion_regions (s : State) (n : Nat) (x : Region) : (s.setRegion n x).regions = Tbl.set s.regions n x := rfl
@[simp] theorem State.emit_out (s : State) (o : Out) : (s.emit o).out = s.out ++ [o] := rfl

@[simp] theorem State.core_setCore_same (s : State) (c : Nat) (x : Core) : (s.setCore c x).core c = x := by
  simp [State.core]
theorem State.core_setCore_ne (s : State) {c d : Nat} (x : Core) (h : d ≠ c) : (s.setCore c x).core d = s.core d := by
  simp [State.core, Tbl.get_set_ne _ _ _ h]
@[simp] theorem State.sync_setSync_same (s : State) (i : Nat) (x : SyncObj) : (s.setSync i x).sync i = x := by
  simp [State.sync, State.setSync]
theorem State.sync_setSync_ne (s : State) {i j : Nat} (x : SyncObj) (h : j ≠ i) : (s.setSync i x).sync j = s.sync j := by
  simp [State.sync, State.setSync, Tbl.get_set_ne _ _ _ h]
@[simp] theorem State.region_setRegion_same (s : State) (n : Nat) (x : Region) : (s.setRegion n x).region n = x := by
  simp [State.region, State.setRegion]
theorem State.region_setRegion_ne (s : State) {n m : Nat} (x : Region) (h : m ≠ n) : (s.setRegion n x).region m = s.region m := by
  simp [State.region, State.setRegion, Tbl.get_set_ne _ _ _ h]
@[simp] theorem State.preg_setPreg_same (s : State) (g : Nat) (x : PRegion) : (s.setPreg g x).preg g = x := by
  simp [State.preg, State.setPreg]
theorem State.preg_setPreg_ne (s : State) {g h : Nat} (x : PRegion) (hh : h ≠ g) : (s.setPreg g x).preg h = s.preg h := by
  simp [State.preg, State.setPreg, Tbl.get_set_ne _ _ _ hh]
@[simp] theorem State.ctx_setCtx_same (s : State) (i : Nat) (x : Ctx) : (s.setCtx i x).ctx? i = some x := by
  simp [State.ctx?, State.setCtx]
theorem State.ctx_setCtx_ne (s : State) {i j : Nat} (x : Ctx) (h : j ≠ i) : (s.setCtx i x).ctx? j = s.ctx? j := by
  simp [State.ctx?, State.setCtx, Tbl.find_set_ne _ _ h]
@[simp] theorem State.port_setPort_same (s : State) (p : Nat) (x : Port) : (s.setPort p x).port p = x := by
  simp [State.port, State.setPort]
theorem State.port_setPort_ne (s : State) {p q : Nat} (x : Port) (h : q ≠ p) : (s.setPort p x).port q = s.port q := by
  simp [State.port, State.setPort, Tbl.get_set_ne _ _ _ h]

@[simp] theorem State.sync_setCore (s : State) (c : Nat) (x : Core) (j : Nat) : (s.setCore c x).sync j = s.sync j := rfl
@[simp] theorem State.region_setCore (s : State) (c : Nat) (x : Core) (m : Nat) : (s.setCore c x).region m = s.region m := rfl
@[simp] theorem State.preg_setCore (s : State) (c : Nat) (x : Core) (h : Nat) : (s.setCore c x).preg h = s.preg h := rfl
@[simp] theorem State.ctx_setCore (s : State) (c : Nat) (x : Core) (j : Nat) : (s.setCore c x).ctx? j = s.ctx? j := rfl
@[simp] theorem State.port_setCore (s : State) (c : Nat) (x : Core) (q : Nat) : (s.setCore c x).port q = s.port q := rfl
@[simp] theorem State.core_setSync (s : State) (i : Nat) (x : SyncObj) (d : Nat) : (s.setSync i x).core d = s.core d := rfl
@[simp] theorem State.region_setSync (s : State) (i : Nat) (x : SyncObj) (m : Nat) : (s.setSync i x).region m = s.region m := rfl
@[simp] theorem State.preg_setSync (s : State) (i : Nat) (x : SyncObj) (h : Nat) : (s.setSync i x).preg h = s.preg h := rfl
@[simp] theorem State.ctx_setSync (s : State) (i : Nat) (x : SyncObj) (j : Nat) : (s.setSync i x).ctx? j = s.ctx? j := rfl
@[simp] theorem State.port_setSync (s : State) (i : Nat) (x : SyncObj) (q : Nat) : (s.setSync i x).port q = s.port q := rfl
@[simp] theorem State.core_setRegion (s : State) (n : Nat) (x : Region) (d : Nat) : (s.setRegion n x).core d = s.core d := rfl
@[simp] theorem State.sync_setRegion (s : State) (n : Nat) (x : Region) (j : Nat) : (s.setRegion n x).sync j = s.sync j := rfl
@[simp] theorem State.preg_setRegion (s : State) (n : Nat) (x : Region) (h : Nat) : (s.setRegion n x).preg h = s.preg h := rfl
@[simp] theorem State.ctx_setRegion (s : State) (n : Nat) (x : Region) (j : Nat) : (s.setRegion n x).ctx? j = s.ctx? j := rfl
@[simp] theorem State.port_setRegion (s : State) (n : Nat) (x : Region) (q : Nat) : (s.setRegion n x).port q = s.port q := rfl
@[simp] theorem State.core_setPreg (s : State) (g : Nat) (x : PRegion) (d : Nat) : (s.setPreg g x).core d = s.core d := rfl
@[simp] theorem State.sync_setPreg (s : State) (g : Nat) (x : PRegion) (j : Nat) : (s.setPreg g x).sync j = s.sync j := rfl
@[simp] theorem State.region_setPreg (s : State) (g : Nat) (x : PRegion) (m : Nat) : (s.setPreg g x).region m = s.region m := rfl
@[simp] theorem State.ctx_setPreg (s : State) (g : Nat) (x : PRegion) (j : Nat) : (s.setPreg g x).ctx? j = s.ctx? j := rfl
@[simp] theorem State.port_setPreg (s : State) (g : Nat) (x : PRegion) (q : Nat) : (s.setPreg g x).port q = s.port q := rfl
@[simp] theorem State.core_setCtx (s : State) (i : Nat) (x : Ctx) (d : Nat) : (s.setCtx i x).core d = s.core d := rfl
@[simp] theorem State.sync_setCtx (s : State) (i : Nat) (x : Ctx) (j : Nat) : (s.setCtx i x).sync j = s.sync j := rfl
@[simp] theorem State.region_setCtx (s : State) (i : Nat) (x : Ctx) (m : Nat) : (s.setCtx i x).region m = s.region m := rfl
@[simp] theorem State.preg_setCtx (s : State) (i : Nat) (x : Ctx) (h : Nat) : (s.setCtx i x).preg h = s.preg h := rfl
@[simp] theorem State.port_setCtx (s : State) (i : Nat) (x : Ctx) (q : Nat) : (s.setCtx i x).port q = s.port q := rfl
@[simp] theorem State.core_delCtx (s : State) (i : Nat) (d : Nat) : (s.delCtx i).core d = s.core d := rfl
@[simp] theorem State.sync_delCtx (s : State) (i : Nat) (j : Nat) : (s.delCtx i).sync j = s.sync j := rfl
@[simp] theorem State.region_delCtx (s : State) (i : Nat) (m : Nat) : (s.delCtx i).region m = s.region m := rfl
@[simp] theorem State.preg_delCtx (s : State) (i : Nat) (h : Nat) : (s.delCtx i).preg h = s.preg h := rfl
@[simp] theorem State.port_delCtx (s : State) (i : Nat) (q : Nat) : (s.delCtx i).port q = s.port q := rfl
@[simp] theorem State.core_setPort (s : State) (p : Nat) (x : Port) (d : Nat) : (s.setPort p x).core d = s.core d := rfl
@[simp] theorem State.sync_setPort (s : State) (p : Nat) (x : Port) (j : Nat) : (s.setPort p x).sync j = s.sync j := rfl
@[simp] theorem State.region_setPort (s : State) (p : Nat) (x : Port) (m : Nat) : (s.setPort p x).region m = s.region m := rfl
@[simp] theorem State.preg_setPort (s : State) (p : Nat) (x : Port) (h : Nat) : (s.setPort p x).preg h = s.preg h := rfl
@[simp] theorem State.ctx_setPort (s : State) (p : Nat) (x : Port) (j : Nat) : (s.setPort p x).ctx? j = s.ctx? j := rfl
@[simp] theorem State.core_emit (s : State) (o : Out) (d : Nat) : (s.emit o).core d = s.core d := rfl
@[simp] theorem State.sync_emit (s : State) (o : Out) (j : Nat) : (s.emit o).sync j = s.sync j := rfl
@[simp] theorem State.region_emit (s : State) (o : Out) (m : Nat) : (s.emit o).region m = s.region m := rfl
@[simp] theorem State.preg_emit (s : State) (o : Out) (h : Nat) : (s.emit o).preg h = s.preg h := rfl
@[simp] theorem State.ctx_emit (s : State) (o : Out) (j : Nat) : (s.emit o).ctx? j = s.ctx? j := rfl
@[simp] theorem State.port_emit (s : State) (o : Out) (q : Nat) : (s.emit o).port q = s.port q := rfl

/-! ## Registers of the sequencer -/

@[simp] theorem Seq.reg_zero (q : Seq) : q.reg 0#5 = 0#32 := rfl
@[simp] theorem Seq.setReg_zero (q : Seq) (v : W32) : q.setReg 0#5 v = q := rfl
theorem Seq.reg_setReg_same (q : Seq) (r : BitVec 5) (v : W32) (h : r ≠ 0) : (q.setReg r v).reg r = v := by
  replace h : ¬ r = 0#5 := h
  simp [Seq.reg, Seq.setReg, h]
theorem Seq.reg_setReg_ne (q : Seq) {r r' : BitVec 5} (v : W32) (h : r' ≠ r) : (q.setReg r v).reg r' = q.reg r' := by
  by_cases hr : r = 0#5
  · simp [Seq.setReg, hr]
  · by_cases h' : r' = 0#5
    · simp [Seq.reg, h']
    · have : r.toNat ≠ r'.toNat := fun e => h (BitVec.eq_of_toNat_eq e.symm)
      simp [Seq.reg, Seq.setReg, hr, h', this]
@[simp] theorem Seq.desc_setDesc_same (q : Seq) (d : BitVec 4) (v : Desc) : (q.setDesc d v).desc d = v := by
  simp [Seq.desc, Seq.setDesc]
theorem Seq.desc_setDesc_ne (q : Seq) {d e : BitVec 4} (v : Desc) (h : e ≠ d) : (q.setDesc d v).desc e = q.desc e := by
  have : d.toNat ≠ e.toNat := fun x => h (BitVec.eq_of_toNat_eq x.symm)
  simp [Seq.desc, Seq.setDesc, this]
/-- A register write leaves register 0 of the file as it was. -/
theorem Seq.setReg_file_zero (q : Seq) (r : BitVec 5) (v : W32) : (q.setReg r v).regs[0] = q.regs[0] := by
  by_cases hr : r = 0#5
  · simp [Seq.setReg, hr]
  · have : r.toNat ≠ 0 := fun e => hr (BitVec.eq_of_toNat_eq e)
    simp [Seq.setReg, hr, this]
@[simp] theorem Seq.setReg_pc (q : Seq) (r : BitVec 5) (v : W32) : (q.setReg r v).pc = q.pc := by
  unfold Seq.setReg; split <;> rfl
@[simp] theorem Seq.setReg_next (q : Seq) (r : BitVec 5) (v : W32) : (q.setReg r v).next = q.next := by
  unfold Seq.setReg; split <;> rfl
@[simp] theorem Seq.setReg_descs (q : Seq) (r : BitVec 5) (v : W32) : (q.setReg r v).descs = q.descs := by
  unfold Seq.setReg; split <;> rfl
@[simp] theorem Seq.setReg_asr (q : Seq) (r : BitVec 5) (v : W32) : (q.setReg r v).asr = q.asr := by
  unfold Seq.setReg; split <;> rfl
@[simp] theorem Seq.setReg_loops (q : Seq) (r : BitVec 5) (v : W32) : (q.setReg r v).loops = q.loops := by
  unfold Seq.setReg; split <;> rfl
@[simp] theorem Seq.setReg_entered (q : Seq) (r : BitVec 5) (v : W32) : (q.setReg r v).entered = q.entered := by
  unfold Seq.setReg; split <;> rfl
@[simp] theorem Seq.setReg_stepKind (q : Seq) (r : BitVec 5) (v : W32) : (q.setReg r v).stepKind = q.stepKind := by
  unfold Seq.setReg; split <;> rfl
@[simp] theorem Seq.setReg_stepReq (q : Seq) (r : BitVec 5) (v : W32) : (q.setReg r v).stepReq = q.stepReq := by
  unfold Seq.setReg; split <;> rfl
@[simp] theorem Seq.setReg_stepFrom (q : Seq) (r : BitVec 5) (v : W32) : (q.setReg r v).stepFrom = q.stepFrom := by
  unfold Seq.setReg; split <;> rfl
@[simp] theorem Seq.setReg_stepAcc (q : Seq) (r : BitVec 5) (v : W32) : (q.setReg r v).stepAcc = q.stepAcc := by
  unfold Seq.setReg; split <;> rfl
@[simp] theorem Seq.setReg_stepNum (q : Seq) (r : BitVec 5) (v : W32) : (q.setReg r v).stepNum = q.stepNum := by
  unfold Seq.setReg; split <;> rfl
@[simp] theorem Seq.setReg_maxSets (q : Seq) (r : BitVec 5) (v : W32) : (q.setReg r v).maxSets = q.maxSets := by
  unfold Seq.setReg; split <;> rfl
@[simp] theorem Seq.setReg_budget (q : Seq) (r : BitVec 5) (v : W32) : (q.setReg r v).budget = q.budget := by
  unfold Seq.setReg; split <;> rfl
@[simp] theorem Seq.setReg_phaseLim (q : Seq) (r : BitVec 5) (v : W32) : (q.setReg r v).phaseLim = q.phaseLim := by
  unfold Seq.setReg; split <;> rfl
@[simp] theorem Seq.setReg_phases (q : Seq) (r : BitVec 5) (v : W32) : (q.setReg r v).phases = q.phases := by
  unfold Seq.setReg; split <;> rfl
@[simp] theorem Seq.setReg_older (q : Seq) (r : BitVec 5) (v : W32) : (q.setReg r v).older = q.older := by
  unfold Seq.setReg; split <;> rfl
@[simp] theorem Seq.setReg_opNum (q : Seq) (r : BitVec 5) (v : W32) : (q.setReg r v).opNum = q.opNum := by
  unfold Seq.setReg; split <;> rfl
@[simp] theorem Seq.setReg_queued (q : Seq) (r : BitVec 5) (v : W32) : (q.setReg r v).queued = q.queued := by
  unfold Seq.setReg; split <;> rfl
@[simp] theorem Seq.setReg_sigBuf (q : Seq) (r : BitVec 5) (v : W32) : (q.setReg r v).sigBuf = q.sigBuf := by
  unfold Seq.setReg; split <;> rfl
@[simp] theorem Seq.setDesc_pc (q : Seq) (d : BitVec 4) (v : Desc) : (q.setDesc d v).pc = q.pc := rfl
@[simp] theorem Seq.setDesc_next (q : Seq) (d : BitVec 4) (v : Desc) : (q.setDesc d v).next = q.next := rfl
@[simp] theorem Seq.setDesc_asr (q : Seq) (d : BitVec 4) (v : Desc) : (q.setDesc d v).asr = q.asr := rfl
@[simp] theorem Seq.setDesc_loops (q : Seq) (d : BitVec 4) (v : Desc) : (q.setDesc d v).loops = q.loops := rfl
@[simp] theorem Seq.setDesc_entered (q : Seq) (d : BitVec 4) (v : Desc) : (q.setDesc d v).entered = q.entered := rfl
@[simp] theorem Seq.setDesc_stepKind (q : Seq) (d : BitVec 4) (v : Desc) : (q.setDesc d v).stepKind = q.stepKind := rfl
@[simp] theorem Seq.setDesc_stepReq (q : Seq) (d : BitVec 4) (v : Desc) : (q.setDesc d v).stepReq = q.stepReq := rfl
@[simp] theorem Seq.setDesc_stepFrom (q : Seq) (d : BitVec 4) (v : Desc) : (q.setDesc d v).stepFrom = q.stepFrom := rfl
@[simp] theorem Seq.setDesc_stepAcc (q : Seq) (d : BitVec 4) (v : Desc) : (q.setDesc d v).stepAcc = q.stepAcc := rfl
@[simp] theorem Seq.setDesc_stepNum (q : Seq) (d : BitVec 4) (v : Desc) : (q.setDesc d v).stepNum = q.stepNum := rfl
@[simp] theorem Seq.setDesc_maxSets (q : Seq) (d : BitVec 4) (v : Desc) : (q.setDesc d v).maxSets = q.maxSets := rfl
@[simp] theorem Seq.setDesc_budget (q : Seq) (d : BitVec 4) (v : Desc) : (q.setDesc d v).budget = q.budget := rfl
@[simp] theorem Seq.setDesc_phaseLim (q : Seq) (d : BitVec 4) (v : Desc) : (q.setDesc d v).phaseLim = q.phaseLim := rfl
@[simp] theorem Seq.setDesc_phases (q : Seq) (d : BitVec 4) (v : Desc) : (q.setDesc d v).phases = q.phases := rfl
@[simp] theorem Seq.setDesc_older (q : Seq) (d : BitVec 4) (v : Desc) : (q.setDesc d v).older = q.older := rfl
@[simp] theorem Seq.setDesc_opNum (q : Seq) (d : BitVec 4) (v : Desc) : (q.setDesc d v).opNum = q.opNum := rfl
@[simp] theorem Seq.setDesc_queued (q : Seq) (d : BitVec 4) (v : Desc) : (q.setDesc d v).queued = q.queued := rfl
@[simp] theorem Seq.setDesc_sigBuf (q : Seq) (d : BitVec 4) (v : Desc) : (q.setDesc d v).sigBuf = q.sigBuf := rfl
@[simp] theorem Seq.setDesc_regs (q : Seq) (d : BitVec 4) (v : Desc) : (q.setDesc d v).regs = q.regs := rfl

end Sys2Proof.Machine
end

