-- ==== Sys2Proof/Laws/Issue.lean ====
section
/-!
SUPPORT. What issuing a slot does: entering and closing a bundle, and the three ends of a slot.
-/
namespace Sys2Proof.Machine

/-! ## Counting -/

@[simp] theorem Core.count_run (k : Core) (b i n : Nat) : (k.count b i n).run = k.run := by
  unfold Core.count; split <;> rfl
@[simp] theorem Core.count_clockOn (k : Core) (b i n : Nat) : (k.count b i n).clockOn = k.clockOn := by
  unfold Core.count; split <;> rfl
@[simp] theorem Core.count_fence (k : Core) (b i n : Nat) : (k.count b i n).fence = k.fence := by
  unfold Core.count; split <;> rfl
@[simp] theorem Core.count_seq (k : Core) (b i n : Nat) : (k.count b i n).seq = k.seq := by
  unfold Core.count; split <;> rfl
@[simp] theorem Core.count_bundle (k : Core) (b i n : Nat) : (k.count b i n).bundle = k.bundle := by
  unfold Core.count; split <;> rfl
@[simp] theorem Core.count_held (k : Core) (b i n : Nat) : (k.count b i n).held = k.held := by
  unfold Core.count; split <;> rfl
@[simp] theorem Core.count_heldLast (k : Core) (b i n : Nat) : (k.count b i n).heldLast = k.heldLast := by
  unfold Core.count; split <;> rfl
@[simp] theorem Core.count_waitFrom (k : Core) (b i n : Nat) : (k.count b i n).waitFrom = k.waitFrom := by
  unfold Core.count; split <;> rfl
@[simp] theorem Core.count_idleFrom (k : Core) (b i n : Nat) : (k.count b i n).idleFrom = k.idleFrom := by
  unfold Core.count; split <;> rfl
@[simp] theorem Core.count_lastIssue (k : Core) (b i n : Nat) : (k.count b i n).lastIssue = k.lastIssue := by
  unfold Core.count; split <;> rfl
@[simp] theorem Core.count_prog (k : Core) (b i n : Nat) : (k.count b i n).prog = k.prog := by
  unfold Core.count; split <;> rfl
@[simp] theorem Core.count_mem (k : Core) (b i n : Nat) : (k.count b i n).mem = k.mem := by
  unfold Core.count; split <;> rfl
@[simp] theorem Core.count_acc (k : Core) (b i n : Nat) : (k.count b i n).acc = k.acc := by
  unfold Core.count; split <;> rfl
@[simp] theorem Core.count_accStat (k : Core) (b i n : Nat) : (k.count b i n).accStat = k.accStat := by
  unfold Core.count; split <;> rfl
@[simp] theorem Core.count_badWords (k : Core) (b i n : Nat) : (k.count b i n).badWords = k.badWords := by
  unfold Core.count; split <;> rfl
@[simp] theorem Core.count_active (k : Core) (b i n : Nat) : (k.count b i n).active = k.active := by
  unfold Core.count; split <;> rfl
@[simp] theorem Core.count_oqs (k : Core) (b i n : Nat) : (k.count b i n).oqs = k.oqs := by
  unfold Core.count; split <;> rfl
@[simp] theorem Core.count_iqs (k : Core) (b i n : Nat) : (k.count b i n).iqs = k.iqs := by
  unfold Core.count; split <;> rfl
@[simp] theorem Core.count_awaits (k : Core) (b i n : Nat) : (k.count b i n).awaits = k.awaits := by
  unfold Core.count; split <;> rfl
@[simp] theorem Core.count_holds (k : Core) (b i n : Nat) : (k.count b i n).holds = k.holds := by
  unfold Core.count; split <;> rfl
@[simp] theorem Core.count_ae (k : Core) (b i n : Nat) : (k.count b i n).ae = k.ae := by
  unfold Core.count; split <;> rfl
@[simp] theorem Core.count_arrays (k : Core) (b i n : Nat) : (k.count b i n).arrays = k.arrays := by
  unfold Core.count; split <;> rfl
@[simp] theorem Core.count_sets (k : Core) (b i n : Nat) : (k.count b i n).sets = k.sets := by
  unfold Core.count; split <;> rfl
@[simp] theorem Core.count_router (k : Core) (b i n : Nat) : (k.count b i n).router = k.router := by
  unfold Core.count; split <;> rfl
@[simp] theorem Core.count_clearedAt (k : Core) (b i n : Nat) : (k.count b i n).clearedAt = k.clearedAt := by
  unfold Core.count; split <;> rfl
@[simp] theorem Core.count_report (k : Core) (b i n : Nat) : (k.count b i n).report = k.report := by
  unfold Core.count; split <;> rfl
@[simp] theorem Core.count_watchN (k : Core) (b i n : Nat) : (k.count b i n).watchN = k.watchN := by
  unfold Core.count; split <;> rfl
@[simp] theorem Core.count_restartBy (k : Core) (b i n : Nat) : (k.count b i n).restartBy = k.restartBy := by
  unfold Core.count; split <;> rfl
@[simp] theorem Core.count_packed (k : Core) (b i n : Nat) : (k.count b i n).packed = k.packed := by
  unfold Core.count; split <;> rfl
@[simp] theorem Core.count_posts (k : Core) (b i n : Nat) : (k.count b i n).posts = k.posts := by
  unfold Core.count; split <;> rfl

@[simp] theorem Core.count_softWords (k : Core) (b i n : Nat) : (k.count b i n).softWords = k.softWords := by
  unfold Core.count; split <;> rfl
@[simp] theorem Core.count_fetched (k : Core) (b i n : Nat) : (k.count b i n).fetched = k.fetched := by
  unfold Core.count; split <;> rfl

/-! ## Fetching -/

@[simp] theorem Core.fetch_run (k : Core) (pc : Nat) : (k.fetch pc).run = k.run := by
  unfold Core.fetch; simp
@[simp] theorem Core.fetch_clockOn (k : Core) (pc : Nat) : (k.fetch pc).clockOn = k.clockOn := by
  unfold Core.fetch; simp
@[simp] theorem Core.fetch_fence (k : Core) (pc : Nat) : (k.fetch pc).fence = k.fence := by
  unfold Core.fetch; simp
@[simp] theorem Core.fetch_seq (k : Core) (pc : Nat) : (k.fetch pc).seq = k.seq := by
  unfold Core.fetch; simp
@[simp] theorem Core.fetch_bundle (k : Core) (pc : Nat) : (k.fetch pc).bundle = k.bundle := by
  unfold Core.fetch; simp
@[simp] theorem Core.fetch_held (k : Core) (pc : Nat) : (k.fetch pc).held = k.held := by
  unfold Core.fetch; simp
@[simp] theorem Core.fetch_heldLast (k : Core) (pc : Nat) : (k.fetch pc).heldLast = k.heldLast := by
  unfold Core.fetch; simp
@[simp] theorem Core.fetch_waitFrom (k : Core) (pc : Nat) : (k.fetch pc).waitFrom = k.waitFrom := by
  unfold Core.fetch; simp
@[simp] theorem Core.fetch_idleFrom (k : Core) (pc : Nat) : (k.fetch pc).idleFrom = k.idleFrom := by
  unfold Core.fetch; simp
@[simp] theorem Core.fetch_lastIssue (k : Core) (pc : Nat) : (k.fetch pc).lastIssue = k.lastIssue := by
  unfold Core.fetch; simp
@[simp] theorem Core.fetch_prog (k : Core) (pc : Nat) : (k.fetch pc).prog = k.prog := by
  unfold Core.fetch; simp
@[simp] theorem Core.fetch_mem (k : Core) (pc : Nat) : (k.fetch pc).mem = k.mem := by
  unfold Core.fetch; simp
@[simp] theorem Core.fetch_acc (k : Core) (pc : Nat) : (k.fetch pc).acc = k.acc := by
  unfold Core.fetch; simp
@[simp] theorem Core.fetch_accStat (k : Core) (pc : Nat) : (k.fetch pc).accStat = k.accStat := by
  unfold Core.fetch; simp
@[simp] theorem Core.fetch_badWords (k : Core) (pc : Nat) : (k.fetch pc).badWords = k.badWords := by
  unfold Core.fetch; simp
@[simp] theorem Core.fetch_softWords (k : Core) (pc : Nat) : (k.fetch pc).softWords = k.softWords := by
  unfold Core.fetch; simp
@[simp] theorem Core.fetch_active (k : Core) (pc : Nat) : (k.fetch pc).active = k.active := by
  unfold Core.fetch; simp
@[simp] theorem Core.fetch_oqs (k : Core) (pc : Nat) : (k.fetch pc).oqs = k.oqs := by
  unfold Core.fetch; simp
@[simp] theorem Core.fetch_iqs (k : Core) (pc : Nat) : (k.fetch pc).iqs = k.iqs := by
  unfold Core.fetch; simp
@[simp] theorem Core.fetch_awaits (k : Core) (pc : Nat) : (k.fetch pc).awaits = k.awaits := by
  unfold Core.fetch; simp
@[simp] theorem Core.fetch_holds (k : Core) (pc : Nat) : (k.fetch pc).holds = k.holds := by
  unfold Core.fetch; simp
@[simp] theorem Core.fetch_ae (k : Core) (pc : Nat) : (k.fetch pc).ae = k.ae := by
  unfold Core.fetch; simp
@[simp] theorem Core.fetch_arrays (k : Core) (pc : Nat) : (k.fetch pc).arrays = k.arrays := by
  unfold Core.fetch; simp
@[simp] theorem Core.fetch_sets (k : Core) (pc : Nat) : (k.fetch pc).sets = k.sets := by
  unfold Core.fetch; simp
@[simp] theorem Core.fetch_router (k : Core) (pc : Nat) : (k.fetch pc).router = k.router := by
  unfold Core.fetch; simp
@[simp] theorem Core.fetch_clearedAt (k : Core) (pc : Nat) : (k.fetch pc).clearedAt = k.clearedAt := by
  unfold Core.fetch; simp
@[simp] theorem Core.fetch_report (k : Core) (pc : Nat) : (k.fetch pc).report = k.report := by
  unfold Core.fetch; simp
@[simp] theorem Core.fetch_watchN (k : Core) (pc : Nat) : (k.fetch pc).watchN = k.watchN := by
  unfold Core.fetch; simp
@[simp] theorem Core.fetch_restartBy (k : Core) (pc : Nat) : (k.fetch pc).restartBy = k.restartBy := by
  unfold Core.fetch; simp
@[simp] theorem Core.fetch_packed (k : Core) (pc : Nat) : (k.fetch pc).packed = k.packed := by
  unfold Core.fetch; simp
@[simp] theorem Core.fetch_posts (k : Core) (pc : Nat) : (k.fetch pc).posts = k.posts := by
  unfold Core.fetch; simp

/-! ## Closing a bundle -/

@[simp] theorem Core.closeBundle_run (k : Core) (now : Nat) : (k.closeBundle now).run = k.run := by
  unfold Core.closeBundle; split <;> simp
@[simp] theorem Core.closeBundle_clockOn (k : Core) (now : Nat) : (k.closeBundle now).clockOn = k.clockOn := by
  unfold Core.closeBundle; split <;> simp
@[simp] theorem Core.closeBundle_fence (k : Core) (now : Nat) : (k.closeBundle now).fence = k.fence := by
  unfold Core.closeBundle; split <;> simp
@[simp] theorem Core.closeBundle_held (k : Core) (now : Nat) : (k.closeBundle now).held = k.held := by
  unfold Core.closeBundle; split <;> simp
@[simp] theorem Core.closeBundle_heldLast (k : Core) (now : Nat) : (k.closeBundle now).heldLast = k.heldLast := by
  unfold Core.closeBundle; split <;> simp
@[simp] theorem Core.closeBundle_waitFrom (k : Core) (now : Nat) : (k.closeBundle now).waitFrom = k.waitFrom := by
  unfold Core.closeBundle; split <;> simp
@[simp] theorem Core.closeBundle_idleFrom (k : Core) (now : Nat) : (k.closeBundle now).idleFrom = k.idleFrom := by
  unfold Core.closeBundle; split <;> simp
@[simp] theorem Core.closeBundle_prog (k : Core) (now : Nat) : (k.closeBundle now).prog = k.prog := by
  unfold Core.closeBundle; split <;> simp
@[simp] theorem Core.closeBundle_mem (k : Core) (now : Nat) : (k.closeBundle now).mem = k.mem := by
  unfold Core.closeBundle; split <;> simp
@[simp] theorem Core.closeBundle_acc (k : Core) (now : Nat) : (k.closeBundle now).acc = k.acc := by
  unfold Core.closeBundle; split <;> simp
@[simp] theorem Core.closeBundle_accStat (k : Core) (now : Nat) : (k.closeBundle now).accStat = k.accStat := by
  unfold Core.closeBundle; split <;> simp
@[simp] theorem Core.closeBundle_badWords (k : Core) (now : Nat) : (k.closeBundle now).badWords = k.badWords := by
  unfold Core.closeBundle; split <;> simp
@[simp] theorem Core.closeBundle_softWords (k : Core) (now : Nat) : (k.closeBundle now).softWords = k.softWords := by
  unfold Core.closeBundle; split <;> simp
@[simp] theorem Core.closeBundle_active (k : Core) (now : Nat) : (k.closeBundle now).active = k.active := by
  unfold Core.closeBundle; split <;> simp
@[simp] theorem Core.closeBundle_oqs (k : Core) (now : Nat) : (k.closeBundle now).oqs = k.oqs := by
  unfold Core.closeBundle; split <;> simp
@[simp] theorem Core.closeBundle_iqs (k : Core) (now : Nat) : (k.closeBundle now).iqs = k.iqs := by
  unfold Core.closeBundle; split <;> simp
@[simp] theorem Core.closeBundle_awaits (k : Core) (now : Nat) : (k.closeBundle now).awaits = k.awaits := by
  unfold Core.closeBundle; split <;> simp
@[simp] theorem Core.closeBundle_holds (k : Core) (now : Nat) : (k.closeBundle now).holds = k.holds := by
  unfold Core.closeBundle; split <;> simp
@[simp] theorem Core.closeBundle_ae (k : Core) (now : Nat) : (k.closeBundle now).ae = k.ae := by
  unfold Core.closeBundle; split <;> simp
@[simp] theorem Core.closeBundle_arrays (k : Core) (now : Nat) : (k.closeBundle now).arrays = k.arrays := by
  unfold Core.closeBundle; split <;> simp
@[simp] theorem Core.closeBundle_sets (k : Core) (now : Nat) : (k.closeBundle now).sets = k.sets := by
  unfold Core.closeBundle; split <;> simp
@[simp] theorem Core.closeBundle_router (k : Core) (now : Nat) : (k.closeBundle now).router = k.router := by
  unfold Core.closeBundle; split <;> simp
@[simp] theorem Core.closeBundle_clearedAt (k : Core) (now : Nat) : (k.closeBundle now).clearedAt = k.clearedAt := by
  unfold Core.closeBundle; split <;> simp
@[simp] theorem Core.closeBundle_report (k : Core) (now : Nat) : (k.closeBundle now).report = k.report := by
  unfold Core.closeBundle; split <;> simp
@[simp] theorem Core.closeBundle_watchN (k : Core) (now : Nat) : (k.closeBundle now).watchN = k.watchN := by
  unfold Core.closeBundle; split <;> simp
@[simp] theorem Core.closeBundle_restartBy (k : Core) (now : Nat) : (k.closeBundle now).restartBy = k.restartBy := by
  unfold Core.closeBundle; split <;> simp
@[simp] theorem Core.closeBundle_packed (k : Core) (now : Nat) : (k.closeBundle now).packed = k.packed := by
  unfold Core.closeBundle; split <;> simp
@[simp] theorem Core.closeBundle_posts (k : Core) (now : Nat) : (k.closeBundle now).posts = k.posts := by
  unfold Core.closeBundle; split <;> simp
@[simp] theorem Core.closeBundle_seq_regs (k : Core) (now : Nat) : (k.closeBundle now).seq.regs = k.seq.regs := by
  unfold Core.closeBundle; split <;> simp
@[simp] theorem Core.closeBundle_seq_descs (k : Core) (now : Nat) : (k.closeBundle now).seq.descs = k.seq.descs := by
  unfold Core.closeBundle; split <;> simp
@[simp] theorem Core.closeBundle_seq_asr (k : Core) (now : Nat) : (k.closeBundle now).seq.asr = k.seq.asr := by
  unfold Core.closeBundle; split <;> simp
@[simp] theorem Core.closeBundle_seq_entered (k : Core) (now : Nat) : (k.closeBundle now).seq.entered = k.seq.entered := by
  unfold Core.closeBundle; split <;> simp
@[simp] theorem Core.closeBundle_seq_stepKind (k : Core) (now : Nat) : (k.closeBundle now).seq.stepKind = k.seq.stepKind := by
  unfold Core.closeBundle; split <;> simp
@[simp] theorem Core.closeBundle_seq_stepReq (k : Core) (now : Nat) : (k.closeBundle now).seq.stepReq = k.seq.stepReq := by
  unfold Core.closeBundle; split <;> simp
@[simp] theorem Core.closeBundle_seq_stepFrom (k : Core) (now : Nat) : (k.closeBundle now).seq.stepFrom = k.seq.stepFrom := by
  unfold Core.closeBundle; split <;> simp
@[simp] theorem Core.closeBundle_seq_stepAcc (k : Core) (now : Nat) : (k.closeBundle now).seq.stepAcc = k.seq.stepAcc := by
  unfold Core.closeBundle; split <;> simp
@[simp] theorem Core.closeBundle_seq_stepNum (k : Core) (now : Nat) : (k.closeBundle now).seq.stepNum = k.seq.stepNum := by
  unfold Core.closeBundle; split <;> simp
@[simp] theorem Core.closeBundle_seq_maxSets (k : Core) (now : Nat) : (k.closeBundle now).seq.maxSets = k.seq.maxSets := by
  unfold Core.closeBundle; split <;> simp
@[simp] theorem Core.closeBundle_seq_budget (k : Core) (now : Nat) : (k.closeBundle now).seq.budget = k.seq.budget := by
  unfold Core.closeBundle; split <;> simp
@[simp] theorem Core.closeBundle_seq_phaseLim (k : Core) (now : Nat) : (k.closeBundle now).seq.phaseLim = k.seq.phaseLim := by
  unfold Core.closeBundle; split <;> simp
@[simp] theorem Core.closeBundle_seq_phases (k : Core) (now : Nat) : (k.closeBundle now).seq.phases = k.seq.phases := by
  unfold Core.closeBundle; split <;> simp
@[simp] theorem Core.closeBundle_seq_older (k : Core) (now : Nat) : (k.closeBundle now).seq.older = k.seq.older := by
  unfold Core.closeBundle; split <;> simp
@[simp] theorem Core.closeBundle_seq_opNum (k : Core) (now : Nat) : (k.closeBundle now).seq.opNum = k.seq.opNum := by
  unfold Core.closeBundle; split <;> simp
@[simp] theorem Core.closeBundle_seq_queued (k : Core) (now : Nat) : (k.closeBundle now).seq.queued = k.seq.queued := by
  unfold Core.closeBundle; split <;> simp
@[simp] theorem Core.closeBundle_seq_sigBuf (k : Core) (now : Nat) : (k.closeBundle now).seq.sigBuf = k.seq.sigBuf := by
  unfold Core.closeBundle; split <;> simp
@[simp] theorem Core.closeBundle_bundle (k : Core) (now : Nat) : (k.closeBundle now).bundle = none := by
  unfold Core.closeBundle; split <;> simp_all

/-- A taken branch: the next bundle is its target (R167). -/
theorem Core.closeBundle_taken {k : Core} {b : Bundle} (now : Nat) (h : k.bundle = some b) (ht : b.taken = true) :
    (k.closeBundle now).seq.pc = k.seq.next := by
  simp [Core.closeBundle, h, ht]

/-- In order, at the end of no loop's body: the next bundle is the one that follows. -/
theorem Core.closeBundle_next {k : Core} {b : Bundle} (now : Nat) (h : k.bundle = some b) (ht : b.taken = false)
    (hl : ∀ l ∈ k.seq.loops, l.last ≠ (k.seq.next - 1).toNat) : (k.closeBundle now).seq.pc = k.seq.next := by
  have : loopBack (k.seq.next - 1).toNat k.seq.next.toNat k.seq.loops = (k.seq.next.toNat, k.seq.loops) := by
    cases hk : k.seq.loops with
    | nil => rfl
    | cons l t =>
      have : ¬ (k.seq.next - 1).toNat = l.last := fun e => hl l (by simp [hk]) e.symm
      simp only [loopBack, this, if_false]
  simp only [Core.closeBundle, h, ht, this, Bool.false_eq_true, if_false]
  simp

/-- At the end of a loop's body with counts left: back to its first bundle (R173). -/
theorem Core.closeBundle_loop {k : Core} {b : Bundle} {l : LoopCtr} {ls : List LoopCtr} (now : Nat) (h : k.bundle = some b)
    (ht : b.taken = false) (hl : k.seq.loops = l :: ls) (he : (k.seq.next - 1).toNat = l.last) (hr : 1 < l.remaining) :
    (k.closeBundle now).seq.pc = BitVec.ofNat 12 l.first ∧
      (k.closeBundle now).seq.loops = { l with remaining := l.remaining - 1 } :: ls := by
  have : loopBack (k.seq.next - 1).toNat k.seq.next.toNat k.seq.loops =
      (l.first, { l with remaining := l.remaining - 1 } :: ls) := by
    simp only [hl, loopBack, he, if_true, hr]
  simp only [Core.closeBundle, h, ht, this, Bool.false_eq_true, if_false]
  simp

/-! ## Ending a slot -/

@[simp] theorem Core.endSlot_run (k : Core) (last : Bool) (now : Nat) : (k.endSlot last now).run = k.run := by
  unfold Core.endSlot; split <;> simp
@[simp] theorem Core.endSlot_clockOn (k : Core) (last : Bool) (now : Nat) : (k.endSlot last now).clockOn = k.clockOn := by
  unfold Core.endSlot; split <;> simp
@[simp] theorem Core.endSlot_fence (k : Core) (last : Bool) (now : Nat) : (k.endSlot last now).fence = k.fence := by
  unfold Core.endSlot; split <;> simp
@[simp] theorem Core.endSlot_held (k : Core) (last : Bool) (now : Nat) : (k.endSlot last now).held = k.held := by
  unfold Core.endSlot; split <;> simp
@[simp] theorem Core.endSlot_heldLast (k : Core) (last : Bool) (now : Nat) : (k.endSlot last now).heldLast = k.heldLast := by
  unfold Core.endSlot; split <;> simp
@[simp] theorem Core.endSlot_waitFrom (k : Core) (last : Bool) (now : Nat) : (k.endSlot last now).waitFrom = k.waitFrom := by
  unfold Core.endSlot; split <;> simp
@[simp] theorem Core.endSlot_idleFrom (k : Core) (last : Bool) (now : Nat) : (k.endSlot last now).idleFrom = k.idleFrom := by
  unfold Core.endSlot; split <;> simp
@[simp] theorem Core.endSlot_prog (k : Core) (last : Bool) (now : Nat) : (k.endSlot last now).prog = k.prog := by
  unfold Core.endSlot; split <;> simp
@[simp] theorem Core.endSlot_mem (k : Core) (last : Bool) (now : Nat) : (k.endSlot last now).mem = k.mem := by
  unfold Core.endSlot; split <;> simp
@[simp] theorem Core.endSlot_acc (k : Core) (last : Bool) (now : Nat) : (k.endSlot last now).acc = k.acc := by
  unfold Core.endSlot; split <;> simp
@[simp] theorem Core.endSlot_accStat (k : Core) (last : Bool) (now : Nat) : (k.endSlot last now).accStat = k.accStat := by
  unfold Core.endSlot; split <;> simp
@[simp] theorem Core.endSlot_badWords (k : Core) (last : Bool) (now : Nat) : (k.endSlot last now).badWords = k.badWords := by
  unfold Core.endSlot; split <;> simp
@[simp] theorem Core.endSlot_softWords (k : Core) (last : Bool) (now : Nat) : (k.endSlot last now).softWords = k.softWords := by
  unfold Core.endSlot; split <;> simp
@[simp] theorem Core.endSlot_active (k : Core) (last : Bool) (now : Nat) : (k.endSlot last now).active = k.active := by
  unfold Core.endSlot; split <;> simp
@[simp] theorem Core.endSlot_oqs (k : Core) (last : Bool) (now : Nat) : (k.endSlot last now).oqs = k.oqs := by
  unfold Core.endSlot; split <;> simp
@[simp] theorem Core.endSlot_iqs (k : Core) (last : Bool) (now : Nat) : (k.endSlot last now).iqs = k.iqs := by
  unfold Core.endSlot; split <;> simp
@[simp] theorem Core.endSlot_awaits (k : Core) (last : Bool) (now : Nat) : (k.endSlot last now).awaits = k.awaits := by
  unfold Core.endSlot; split <;> simp
@[simp] theorem Core.endSlot_holds (k : Core) (last : Bool) (now : Nat) : (k.endSlot last now).holds = k.holds := by
  unfold Core.endSlot; split <;> simp
@[simp] theorem Core.endSlot_ae (k : Core) (last : Bool) (now : Nat) : (k.endSlot last now).ae = k.ae := by
  unfold Core.endSlot; split <;> simp
@[simp] theorem Core.endSlot_arrays (k : Core) (last : Bool) (now : Nat) : (k.endSlot last now).arrays = k.arrays := by
  unfold Core.endSlot; split <;> simp
@[simp] theorem Core.endSlot_sets (k : Core) (last : Bool) (now : Nat) : (k.endSlot last now).sets = k.sets := by
  unfold Core.endSlot; split <;> simp
@[simp] theorem Core.endSlot_router (k : Core) (last : Bool) (now : Nat) : (k.endSlot last now).router = k.router := by
  unfold Core.endSlot; split <;> simp
@[simp] theorem Core.endSlot_clearedAt (k : Core) (last : Bool) (now : Nat) : (k.endSlot last now).clearedAt = k.clearedAt := by
  unfold Core.endSlot; split <;> simp
@[simp] theorem Core.endSlot_report (k : Core) (last : Bool) (now : Nat) : (k.endSlot last now).report = k.report := by
  unfold Core.endSlot; split <;> simp
@[simp] theorem Core.endSlot_watchN (k : Core) (last : Bool) (now : Nat) : (k.endSlot last now).watchN = k.watchN := by
  unfold Core.endSlot; split <;> simp
@[simp] theorem Core.endSlot_restartBy (k : Core) (last : Bool) (now : Nat) : (k.endSlot last now).restartBy = k.restartBy := by
  unfold Core.endSlot; split <;> simp
@[simp] theorem Core.endSlot_packed (k : Core) (last : Bool) (now : Nat) : (k.endSlot last now).packed = k.packed := by
  unfold Core.endSlot; split <;> simp
@[simp] theorem Core.endSlot_posts (k : Core) (last : Bool) (now : Nat) : (k.endSlot last now).posts = k.posts := by
  unfold Core.endSlot; split <;> simp
@[simp] theorem Core.endSlot_seq_regs (k : Core) (last : Bool) (now : Nat) : (k.endSlot last now).seq.regs = k.seq.regs := by
  unfold Core.endSlot; split <;> simp
@[simp] theorem Core.endSlot_seq_descs (k : Core) (last : Bool) (now : Nat) : (k.endSlot last now).seq.descs = k.seq.descs := by
  unfold Core.endSlot; split <;> simp
@[simp] theorem Core.endSlot_seq_asr (k : Core) (last : Bool) (now : Nat) : (k.endSlot last now).seq.asr = k.seq.asr := by
  unfold Core.endSlot; split <;> simp
@[simp] theorem Core.endSlot_seq_entered (k : Core) (last : Bool) (now : Nat) : (k.endSlot last now).seq.entered = k.seq.entered := by
  unfold Core.endSlot; split <;> simp
@[simp] theorem Core.endSlot_seq_stepKind (k : Core) (last : Bool) (now : Nat) : (k.endSlot last now).seq.stepKind = k.seq.stepKind := by
  unfold Core.endSlot; split <;> simp
@[simp] theorem Core.endSlot_seq_stepReq (k : Core) (last : Bool) (now : Nat) : (k.endSlot last now).seq.stepReq = k.seq.stepReq := by
  unfold Core.endSlot; split <;> simp
@[simp] theorem Core.endSlot_seq_stepFrom (k : Core) (last : Bool) (now : Nat) : (k.endSlot last now).seq.stepFrom = k.seq.stepFrom := by
  unfold Core.endSlot; split <;> simp
@[simp] theorem Core.endSlot_seq_stepAcc (k : Core) (last : Bool) (now : Nat) : (k.endSlot last now).seq.stepAcc = k.seq.stepAcc := by
  unfold Core.endSlot; split <;> simp
@[simp] theorem Core.endSlot_seq_stepNum (k : Core) (last : Bool) (now : Nat) : (k.endSlot last now).seq.stepNum = k.seq.stepNum := by
  unfold Core.endSlot; split <;> simp
@[simp] theorem Core.endSlot_seq_maxSets (k : Core) (last : Bool) (now : Nat) : (k.endSlot last now).seq.maxSets = k.seq.maxSets := by
  unfold Core.endSlot; split <;> simp
@[simp] theorem Core.endSlot_seq_budget (k : Core) (last : Bool) (now : Nat) : (k.endSlot last now).seq.budget = k.seq.budget := by
  unfold Core.endSlot; split <;> simp
@[simp] theorem Core.endSlot_seq_phaseLim (k : Core) (last : Bool) (now : Nat) : (k.endSlot last now).seq.phaseLim = k.seq.phaseLim := by
  unfold Core.endSlot; split <;> simp
@[simp] theorem Core.endSlot_seq_phases (k : Core) (last : Bool) (now : Nat) : (k.endSlot last now).seq.phases = k.seq.phases := by
  unfold Core.endSlot; split <;> simp
@[simp] theorem Core.endSlot_seq_older (k : Core) (last : Bool) (now : Nat) : (k.endSlot last now).seq.older = k.seq.older := by
  unfold Core.endSlot; split <;> simp
@[simp] theorem Core.endSlot_seq_opNum (k : Core) (last : Bool) (now : Nat) : (k.endSlot last now).seq.opNum = k.seq.opNum := by
  unfold Core.endSlot; split <;> simp
@[simp] theorem Core.endSlot_seq_queued (k : Core) (last : Bool) (now : Nat) : (k.endSlot last now).seq.queued = k.seq.queued := by
  unfold Core.endSlot; split <;> simp
@[simp] theorem Core.endSlot_seq_sigBuf (k : Core) (last : Bool) (now : Nat) : (k.endSlot last now).seq.sigBuf = k.seq.sigBuf := by
  unfold Core.endSlot; split <;> simp

/-! ## Entering a slot -/

/-- A slot joins the bundle in issue, or opens a bundle, closing the one before it (R169). -/
theorem Core.enter_cases (k : Core) (slot now : Nat) :
    (∃ b, k.bundle = some b ∧ b.slot < slot ∧ k.enter slot now = { k with bundle := some { b with slot := slot } }) ∨
    (k.bundle = none ∧ k.enter slot now =
      { k with bundle := some { pre := k.seq, taken := false, undo := [], undoWin := [], undoBad := [], undoSoft := [], slot := slot, opA := none, opB := none },
               seq := { k.seq with next := k.seq.pc + 1 } }) ∨
    (∃ b, k.bundle = some b ∧ ¬ b.slot < slot ∧ k.enter slot now =
      { k.closeBundle now with
        bundle := some { pre := (k.closeBundle now).seq, taken := false, undo := [], undoWin := [], undoBad := [], undoSoft := [], slot := slot, opA := none, opB := none },
        seq := { (k.closeBundle now).seq with next := (k.closeBundle now).seq.pc + 1 } }) := by
  cases hb : k.bundle with
  | none => exact .inr (.inl ⟨rfl, by unfold Core.enter; simp [hb]⟩)
  | some b =>
    by_cases hs : b.slot < slot
    · exact .inl ⟨b, rfl, hs, by unfold Core.enter; simp [hb, hs]⟩
    · exact .inr (.inr ⟨b, rfl, hs, by unfold Core.enter; simp [hb, hs]⟩)

@[simp] theorem Core.enter_run (k : Core) (slot now : Nat) : (k.enter slot now).run = k.run := by
  rcases k.enter_cases slot now with ⟨b, -, -, h⟩ | ⟨-, h⟩ | ⟨b, -, -, h⟩ <;> simp [h]
@[simp] theorem Core.enter_clockOn (k : Core) (slot now : Nat) : (k.enter slot now).clockOn = k.clockOn := by
  rcases k.enter_cases slot now with ⟨b, -, -, h⟩ | ⟨-, h⟩ | ⟨b, -, -, h⟩ <;> simp [h]
@[simp] theorem Core.enter_fence (k : Core) (slot now : Nat) : (k.enter slot now).fence = k.fence := by
  rcases k.enter_cases slot now with ⟨b, -, -, h⟩ | ⟨-, h⟩ | ⟨b, -, -, h⟩ <;> simp [h]
@[simp] theorem Core.enter_held (k : Core) (slot now : Nat) : (k.enter slot now).held = k.held := by
  rcases k.enter_cases slot now with ⟨b, -, -, h⟩ | ⟨-, h⟩ | ⟨b, -, -, h⟩ <;> simp [h]
@[simp] theorem Core.enter_heldLast (k : Core) (slot now : Nat) : (k.enter slot now).heldLast = k.heldLast := by
  rcases k.enter_cases slot now with ⟨b, -, -, h⟩ | ⟨-, h⟩ | ⟨b, -, -, h⟩ <;> simp [h]
@[simp] theorem Core.enter_waitFrom (k : Core) (slot now : Nat) : (k.enter slot now).waitFrom = k.waitFrom := by
  rcases k.enter_cases slot now with ⟨b, -, -, h⟩ | ⟨-, h⟩ | ⟨b, -, -, h⟩ <;> simp [h]
@[simp] theorem Core.enter_idleFrom (k : Core) (slot now : Nat) : (k.enter slot now).idleFrom = k.idleFrom := by
  rcases k.enter_cases slot now with ⟨b, -, -, h⟩ | ⟨-, h⟩ | ⟨b, -, -, h⟩ <;> simp [h]
@[simp] theorem Core.enter_prog (k : Core) (slot now : Nat) : (k.enter slot now).prog = k.prog := by
  rcases k.enter_cases slot now with ⟨b, -, -, h⟩ | ⟨-, h⟩ | ⟨b, -, -, h⟩ <;> simp [h]
@[simp] theorem Core.enter_mem (k : Core) (slot now : Nat) : (k.enter slot now).mem = k.mem := by
  rcases k.enter_cases slot now with ⟨b, -, -, h⟩ | ⟨-, h⟩ | ⟨b, -, -, h⟩ <;> simp [h]
@[simp] theorem Core.enter_acc (k : Core) (slot now : Nat) : (k.enter slot now).acc = k.acc := by
  rcases k.enter_cases slot now with ⟨b, -, -, h⟩ | ⟨-, h⟩ | ⟨b, -, -, h⟩ <;> simp [h]
@[simp] theorem Core.enter_accStat (k : Core) (slot now : Nat) : (k.enter slot now).accStat = k.accStat := by
  rcases k.enter_cases slot now with ⟨b, -, -, h⟩ | ⟨-, h⟩ | ⟨b, -, -, h⟩ <;> simp [h]
@[simp] theorem Core.enter_badWords (k : Core) (slot now : Nat) : (k.enter slot now).badWords = k.badWords := by
  rcases k.enter_cases slot now with ⟨b, -, -, h⟩ | ⟨-, h⟩ | ⟨b, -, -, h⟩ <;> simp [h]
@[simp] theorem Core.enter_softWords (k : Core) (slot now : Nat) : (k.enter slot now).softWords = k.softWords := by
  rcases k.enter_cases slot now with ⟨b, -, -, h⟩ | ⟨-, h⟩ | ⟨b, -, -, h⟩ <;> simp [h]
@[simp] theorem Core.enter_active (k : Core) (slot now : Nat) : (k.enter slot now).active = k.active := by
  rcases k.enter_cases slot now with ⟨b, -, -, h⟩ | ⟨-, h⟩ | ⟨b, -, -, h⟩ <;> simp [h]
@[simp] theorem Core.enter_oqs (k : Core) (slot now : Nat) : (k.enter slot now).oqs = k.oqs := by
  rcases k.enter_cases slot now with ⟨b, -, -, h⟩ | ⟨-, h⟩ | ⟨b, -, -, h⟩ <;> simp [h]
@[simp] theorem Core.enter_iqs (k : Core) (slot now : Nat) : (k.enter slot now).iqs = k.iqs := by
  rcases k.enter_cases slot now with ⟨b, -, -, h⟩ | ⟨-, h⟩ | ⟨b, -, -, h⟩ <;> simp [h]
@[simp] theorem Core.enter_awaits (k : Core) (slot now : Nat) : (k.enter slot now).awaits = k.awaits := by
  rcases k.enter_cases slot now with ⟨b, -, -, h⟩ | ⟨-, h⟩ | ⟨b, -, -, h⟩ <;> simp [h]
@[simp] theorem Core.enter_holds (k : Core) (slot now : Nat) : (k.enter slot now).holds = k.holds := by
  rcases k.enter_cases slot now with ⟨b, -, -, h⟩ | ⟨-, h⟩ | ⟨b, -, -, h⟩ <;> simp [h]
@[simp] theorem Core.enter_ae (k : Core) (slot now : Nat) : (k.enter slot now).ae = k.ae := by
  rcases k.enter_cases slot now with ⟨b, -, -, h⟩ | ⟨-, h⟩ | ⟨b, -, -, h⟩ <;> simp [h]
@[simp] theorem Core.enter_arrays (k : Core) (slot now : Nat) : (k.enter slot now).arrays = k.arrays := by
  rcases k.enter_cases slot now with ⟨b, -, -, h⟩ | ⟨-, h⟩ | ⟨b, -, -, h⟩ <;> simp [h]
@[simp] theorem Core.enter_sets (k : Core) (slot now : Nat) : (k.enter slot now).sets = k.sets := by
  rcases k.enter_cases slot now with ⟨b, -, -, h⟩ | ⟨-, h⟩ | ⟨b, -, -, h⟩ <;> simp [h]
@[simp] theorem Core.enter_router (k : Core) (slot now : Nat) : (k.enter slot now).router = k.router := by
  rcases k.enter_cases slot now with ⟨b, -, -, h⟩ | ⟨-, h⟩ | ⟨b, -, -, h⟩ <;> simp [h]
@[simp] theorem Core.enter_clearedAt (k : Core) (slot now : Nat) : (k.enter slot now).clearedAt = k.clearedAt := by
  rcases k.enter_cases slot now with ⟨b, -, -, h⟩ | ⟨-, h⟩ | ⟨b, -, -, h⟩ <;> simp [h]
@[simp] theorem Core.enter_report (k : Core) (slot now : Nat) : (k.enter slot now).report = k.report := by
  rcases k.enter_cases slot now with ⟨b, -, -, h⟩ | ⟨-, h⟩ | ⟨b, -, -, h⟩ <;> simp [h]
@[simp] theorem Core.enter_watchN (k : Core) (slot now : Nat) : (k.enter slot now).watchN = k.watchN := by
  rcases k.enter_cases slot now with ⟨b, -, -, h⟩ | ⟨-, h⟩ | ⟨b, -, -, h⟩ <;> simp [h]
@[simp] theorem Core.enter_restartBy (k : Core) (slot now : Nat) : (k.enter slot now).restartBy = k.restartBy := by
  rcases k.enter_cases slot now with ⟨b, -, -, h⟩ | ⟨-, h⟩ | ⟨b, -, -, h⟩ <;> simp [h]
@[simp] theorem Core.enter_packed (k : Core) (slot now : Nat) : (k.enter slot now).packed = k.packed := by
  rcases k.enter_cases slot now with ⟨b, -, -, h⟩ | ⟨-, h⟩ | ⟨b, -, -, h⟩ <;> simp [h]
@[simp] theorem Core.enter_posts (k : Core) (slot now : Nat) : (k.enter slot now).posts = k.posts := by
  rcases k.enter_cases slot now with ⟨b, -, -, h⟩ | ⟨-, h⟩ | ⟨b, -, -, h⟩ <;> simp [h]
@[simp] theorem Core.enter_seq_regs (k : Core) (slot now : Nat) : (k.enter slot now).seq.regs = k.seq.regs := by
  rcases k.enter_cases slot now with ⟨b, -, -, h⟩ | ⟨-, h⟩ | ⟨b, -, -, h⟩ <;> simp [h]
@[simp] theorem Core.enter_seq_descs (k : Core) (slot now : Nat) : (k.enter slot now).seq.descs = k.seq.descs := by
  rcases k.enter_cases slot now with ⟨b, -, -, h⟩ | ⟨-, h⟩ | ⟨b, -, -, h⟩ <;> simp [h]
@[simp] theorem Core.enter_seq_asr (k : Core) (slot now : Nat) : (k.enter slot now).seq.asr = k.seq.asr := by
  rcases k.enter_cases slot now with ⟨b, -, -, h⟩ | ⟨-, h⟩ | ⟨b, -, -, h⟩ <;> simp [h]
@[simp] theorem Core.enter_seq_entered (k : Core) (slot now : Nat) : (k.enter slot now).seq.entered = k.seq.entered := by
  rcases k.enter_cases slot now with ⟨b, -, -, h⟩ | ⟨-, h⟩ | ⟨b, -, -, h⟩ <;> simp [h]
@[simp] theorem Core.enter_seq_stepKind (k : Core) (slot now : Nat) : (k.enter slot now).seq.stepKind = k.seq.stepKind := by
  rcases k.enter_cases slot now with ⟨b, -, -, h⟩ | ⟨-, h⟩ | ⟨b, -, -, h⟩ <;> simp [h]
@[simp] theorem Core.enter_seq_stepReq (k : Core) (slot now : Nat) : (k.enter slot now).seq.stepReq = k.seq.stepReq := by
  rcases k.enter_cases slot now with ⟨b, -, -, h⟩ | ⟨-, h⟩ | ⟨b, -, -, h⟩ <;> simp [h]
@[simp] theorem Core.enter_seq_stepFrom (k : Core) (slot now : Nat) : (k.enter slot now).seq.stepFrom = k.seq.stepFrom := by
  rcases k.enter_cases slot now with ⟨b, -, -, h⟩ | ⟨-, h⟩ | ⟨b, -, -, h⟩ <;> simp [h]
@[simp] theorem Core.enter_seq_stepAcc (k : Core) (slot now : Nat) : (k.enter slot now).seq.stepAcc = k.seq.stepAcc := by
  rcases k.enter_cases slot now with ⟨b, -, -, h⟩ | ⟨-, h⟩ | ⟨b, -, -, h⟩ <;> simp [h]
@[simp] theorem Core.enter_seq_stepNum (k : Core) (slot now : Nat) : (k.enter slot now).seq.stepNum = k.seq.stepNum := by
  rcases k.enter_cases slot now with ⟨b, -, -, h⟩ | ⟨-, h⟩ | ⟨b, -, -, h⟩ <;> simp [h]
@[simp] theorem Core.enter_seq_maxSets (k : Core) (slot now : Nat) : (k.enter slot now).seq.maxSets = k.seq.maxSets := by
  rcases k.enter_cases slot now with ⟨b, -, -, h⟩ | ⟨-, h⟩ | ⟨b, -, -, h⟩ <;> simp [h]
@[simp] theorem Core.enter_seq_budget (k : Core) (slot now : Nat) : (k.enter slot now).seq.budget = k.seq.budget := by
  rcases k.enter_cases slot now with ⟨b, -, -, h⟩ | ⟨-, h⟩ | ⟨b, -, -, h⟩ <;> simp [h]
@[simp] theorem Core.enter_seq_phaseLim (k : Core) (slot now : Nat) : (k.enter slot now).seq.phaseLim = k.seq.phaseLim := by
  rcases k.enter_cases slot now with ⟨b, -, -, h⟩ | ⟨-, h⟩ | ⟨b, -, -, h⟩ <;> simp [h]
@[simp] theorem Core.enter_seq_phases (k : Core) (slot now : Nat) : (k.enter slot now).seq.phases = k.seq.phases := by
  rcases k.enter_cases slot now with ⟨b, -, -, h⟩ | ⟨-, h⟩ | ⟨b, -, -, h⟩ <;> simp [h]
@[simp] theorem Core.enter_seq_older (k : Core) (slot now : Nat) : (k.enter slot now).seq.older = k.seq.older := by
  rcases k.enter_cases slot now with ⟨b, -, -, h⟩ | ⟨-, h⟩ | ⟨b, -, -, h⟩ <;> simp [h]
@[simp] theorem Core.enter_seq_opNum (k : Core) (slot now : Nat) : (k.enter slot now).seq.opNum = k.seq.opNum := by
  rcases k.enter_cases slot now with ⟨b, -, -, h⟩ | ⟨-, h⟩ | ⟨b, -, -, h⟩ <;> simp [h]
@[simp] theorem Core.enter_seq_queued (k : Core) (slot now : Nat) : (k.enter slot now).seq.queued = k.seq.queued := by
  rcases k.enter_cases slot now with ⟨b, -, -, h⟩ | ⟨-, h⟩ | ⟨b, -, -, h⟩ <;> simp [h]
@[simp] theorem Core.enter_seq_sigBuf (k : Core) (slot now : Nat) : (k.enter slot now).seq.sigBuf = k.seq.sigBuf := by
  rcases k.enter_cases slot now with ⟨b, -, -, h⟩ | ⟨-, h⟩ | ⟨b, -, -, h⟩ <;> simp [h]

/-- A slot finds a bundle open. -/
theorem Core.enter_bundle (k : Core) (slot now : Nat) : ∃ b, (k.enter slot now).bundle = some b := by
  rcases k.enter_cases slot now with ⟨b, -, -, h⟩ | ⟨-, h⟩ | ⟨b, -, -, h⟩ <;> exact ⟨_, by rw [h]⟩

theorem Core.canIssue_run {k : Core} (h : k.canIssue = true) : k.run = .issuing := by
  simp [Core.canIssue] at h; exact h.1.1

/-- No uncorrectable word stands in the program window, so that no fetch meets one. -/
theorem Core.fetchFail_none {k : Core} {slot now : Nat} (h : ∀ w ∈ k.badWords, ¬ (0x4E000 ≤ w ∧ w < 0x50000)) :
    k.fetchFail slot now = none := by
  have hp := (k.enter slot now).seq.pc.isLt
  have hb : (k.enter slot now).badAt (0x270000 + 16 * (k.enter slot now).seq.pc.toNat) 16 = none := by
    simp only [Core.badAt, Core.enter_badWords, Option.map_eq_none_iff, List.find?_eq_none, decide_eq_true_eq, Bool.and_eq_true]
    intro w hw hc
    exact h w hw (by omega)
  simp [Core.fetchFail, hb]

/-! ## The ends of a slot -/

section
variable {s : State} {core slot opcode : Nat} {last : Bool} {f : Core → SlotRes}

/-- A slot that goes on. -/
theorem issue_go {k : Core} (h : (s.core core).canIssue = true) (hw : (s.core core).fetchFail slot s.now = none) (hf : f ((s.core core).enter slot s.now) = .go k) :
    issue s core slot opcode last false f = s.setCore core (k.endSlot last s.now) := by
  simp [issue, h, hw, hf]

/-- A slot that waits. -/
theorem issue_hold {k : Core} {w : Held} (h : (s.core core).canIssue = true) (hw : (s.core core).fetchFail slot s.now = none) (hf : f ((s.core core).enter slot s.now) = .hold k w) :
    issue s core slot opcode last false f = s.setCore core { k with held := some w, heldLast := last, waitFrom := s.now } := by
  simp [issue, h, hw, hf]

/-- A slot that fails a check. -/
theorem issue_bad {e : Fail} (h : (s.core core).canIssue = true) (hw : (s.core core).fetchFail slot s.now = none) (hf : f ((s.core core).enter slot s.now) = .bad e) :
    issue s core slot opcode last false f = stepFault (s.setCore core ((s.core core).enter slot s.now)) core e slot true := by
  simp [issue, h, hw, hf]

/-- A slot that opens a bundle with an uncorrectable word (R139). -/
theorem issue_fetch {e : Fail} {rsv : Bool} (h : (s.core core).canIssue = true) (hw : (s.core core).fetchFail slot s.now = some e) :
    issue s core slot opcode last rsv f = stepFault (s.setCore core ((s.core core).enter slot s.now)) core e 0 true := by
  simp [issue, h, hw]

/-- A slot with a reserved bit set (R171). -/
theorem issue_reserved (h : (s.core core).canIssue = true) (hw : (s.core core).fetchFail slot s.now = none) :
    issue s core slot opcode last true f = stepFault (s.setCore core ((s.core core).enter slot s.now)) core ⟨1, opcode, 0⟩ slot true := by
  simp [issue, h, hw]

end

end Sys2Proof.Machine
end

