-- ==== Sys2Proof/Laws/Store.lean ====
section
/-!
SUPPORT. A copy of a store block that is made is sound, and a block of two such copies loads.
-/
namespace Sys2Proof.Machine

/-- A copy is sound as it is made, for firmware that reads its layout (R463, R465). -/
@[simp] theorem StoreCopy.sound_make (b lay : Nat) (seq : W32) (d : StoreData) (v : Nat) (h : lay ≤ v) :
    (StoreCopy.make b lay seq d).sound b v = true := by
  simp [StoreCopy.sound, StoreCopy.make, StoreCopy.body, h]

/-- A block of two equal sound copies loads them (R465). -/
theorem StoreBlk.load_both (c : StoreCopy) (b v : Nat) (h : c.sound b v = true) : (StoreBlk.both c).load b v = some c := by
  simp only [StoreBlk.load, StoreBlk.both, h, Bool.and_self, if_true]
  exact congrArg some (ite_self c)

end Sys2Proof.Machine
end

