-- ==== Sys2Proof/WellFormed.lean ====
section
/-!
DEFINITION. Well-formed commands: every unit a command names exists (R7, R12, R17, R41, R182, R228, R242, R407, R421, R590),
and the bytes it carries have the length the spec gives them.
-/
namespace Sys2Proof

/-- A core number 128·row + col of the wafer's 128 × 150 positions (R11, R17). -/
def coreOk (c : Nat) : Bool := c < 19200
/-- A management frame's addresses are 48 bits and its EtherType 16 bits wide (R471). -/
def MFrame.ok (f : MFrame) : Bool := f.src < 2 ^ 48 && f.dst < 2 ^ 48 && f.etherType < 65536
/-- The fields of a fabric frame fit their widths (R594). -/
def FFrame.ok (f : FFrame) : Bool :=
  f.type < 16 && f.vc < 4 && f.destEngine < 32768 && f.srcEngine < 32768 && f.seq < 2 ^ 16 && f.ack < 2 ^ 16 &&
    f.creditVc < 4 && f.creditLines < 2 ^ 14 && f.version < 2 ^ 64 && f.destStage < 256 && f.srcStage < 256 &&
    f.payload.length % 64 = 0 && f.payload.length ≤ 2048
/-- The modules and ports that a start names exist (R407, R590). -/
def StartInputs.ok (x : StartInputs) : Bool := x.modulesUp.all (fun m => m.site < 4 && m.module < 2) && x.portsUp.all fun p => p < 48
/-- A message header's Op is the command's own, or none that the host may send (R414, R416). -/
def headerFor (op : Nat) (hdr : BitVec 128) : Bool :=
  let x := hdr.toNat / 2 ^ 120
  x = op || !(x = 4 || x = 5 || x = 6 || x = 7)

/-- A site and a module of it exist (R407). -/
def portOk (p : HostPort) : Bool := p.site < 4 && p.module < 2
/-- The power regions that a wake and its monitors name exist (R482, R499). -/
def lookOk (l : WakeLook) : Bool := l.region < 240 && l.samples.all fun x => x.region < 240

/-- Every unit the command names exists. -/
def Instr.wf (i : Instr) : Bool :=
  match i with
  | .add p _ _ _ => coreOk p.core
  | .sub p _ _ _ => coreOk p.core
  | .and p _ _ _ => coreOk p.core
  | .or p _ _ _ => coreOk p.core
  | .xor p _ _ _ => coreOk p.core
  | .shl p _ _ _ => coreOk p.core
  | .shr p _ _ _ => coreOk p.core
  | .sra p _ _ _ => coreOk p.core
  | .mul p _ _ _ => coreOk p.core
  | .slt p _ _ _ => coreOk p.core
  | .sltu p _ _ _ => coreOk p.core
  | .addi p _ _ _ => coreOk p.core
  | .andi p _ _ _ => coreOk p.core
  | .ori p _ _ _ => coreOk p.core
  | .xori p _ _ _ => coreOk p.core
  | .shli p _ _ _ => coreOk p.core
  | .shri p _ _ _ => coreOk p.core
  | .srai p _ _ _ => coreOk p.core
  | .lui p _ _ => coreOk p.core
  | .ld p _ _ _ => coreOk p.core
  | .st p _ _ _ => coreOk p.core
  | .ld64 p _ _ _ => coreOk p.core
  | .st64 p _ _ _ => coreOk p.core
  | .beq p _ _ _ => coreOk p.core
  | .bne p _ _ _ => coreOk p.core
  | .blt p _ _ _ => coreOk p.core
  | .bge p _ _ _ => coreOk p.core
  | .bltu p _ _ _ => coreOk p.core
  | .bgeu p _ _ _ => coreOk p.core
  | .jmp p _ _ _ => coreOk p.core
  | .jal p _ _ => coreOk p.core
  | .jr p _ => coreOk p.core
  | .loop p _ _ => coreOk p.core
  | .dld p _ _ _ => coreOk p.core
  | .dst p _ _ _ => coreOk p.core
  | .daddr p _ _ => coreOk p.core
  | .daddc p _ _ => coreOk p.core
  | .csrr p _ _ => coreOk p.core
  | .csrw p _ _ => coreOk p.core
  | .cimAsel p _ => coreOk p.core
  | .slotNop p _ => coreOk p.core
  | .tmCopy p _ _ => coreOk p.core
  | .tmFill p _ _ _ => coreOk p.core
  | .shaDigest p _ _ _ => coreOk p.core
  | .veArith p _ _ _ _ _ => coreOk p.core
  | .veNorm p _ _ _ _ _ => coreOk p.core
  | .veAct p _ _ _ _ => coreOk p.core
  | .veFunc p _ _ _ => coreOk p.core
  | .veCvt p _ _ => coreOk p.core
  | .accClr p _ => coreOk p.core
  | .accOut p _ _ _ _ _ => coreOk p.core
  | .accAdd p _ _ => coreOk p.core
  | .aeQk p _ _ _ _ => coreOk p.core
  | .aeSm p _ _ _ => coreOk p.core
  | .aePv p _ _ _ => coreOk p.core
  | .spSample p _ _ _ => coreOk p.core
  | .cimEval p _ _ _ _ _ _ => coreOk p.core
  | .cimEvalt p _ _ _ _ _ _ => coreOk p.core
  | .qPush p _ _ => coreOk p.core
  | .qPop p _ _ => coreOk p.core
  | .rmread p _ _ _ _ _ => coreOk p.core
  | .nred p _ _ _ _ _ => coreOk p.core
  | .syncWait p _ _ => coreOk p.core
  | .syncSignal p _ _ _ => coreOk p.core
  | .qwait p _ _ _ => coreOk p.core
  | .fence p _ => coreOk p.core
  | .step p _ _ => coreOk p.core
  | .tag p _ _ => coreOk p.core
  | .operationStart core eng => coreOk core && eng < 13
  | .waitSatisfied core => coreOk core
  | .signalRelease core => coreOk core
  | .clockStop core => coreOk core
  | .budgetOverrun core => coreOk core
  | .waitLimit core => coreOk core
  | .activityOverrun core => coreOk core
  | .readReq _ => true
  | .mergeReq _ => true
  | .mergeWindowClose core _ _ => coreOk core
  | .readReply _ => true
  | .mergeReply _ => true
  | .remoteWrite _ => true
  | .writeAck _ => true
  | .reduce _ => true
  | .signal _ => true
  | .stepToken _ => true
  | .packetHop _ => true
  | .ifaceOut _ => true
  | .ifaceIn _ => true
  | .fault core _ _ => coreOk core
  | .imageFlush region => region < 64
  | .flushDrained region => region < 64
  | .faultActionStop core => coreOk core
  | .faultActionRestart core => coreOk core
  | .coreDead core _ _ => coreOk core
  | .sequencerWatchdog core => coreOk core
  | .heartbeatMissing core => coreOk core
  | .relocation region _ _ => region < 64
  | .createSq h => h < 65536
  | .deleteSq h => h < 65536
  | .createRing h => h < 65536
  | .deleteRing h => h < 65536
  | .setEvents h => h < 65536
  | .odRead h => h < 65536
  | .odWrite h _ => h < 65536
  | .submit h _ _ => h < 65536
  | .cancel h => h < 65536
  | .load h _ _ _ => h < 65536
  | .unload h => h < 65536
  | .swap h _ _ _ => h < 65536
  | .relocate h _ => h < 65536
  | .window h => h < 65536
  | .tune h _ => h < 65536
  | .attest h _ => h < 65536
  | .calibrate h => h < 65536
  | .vigilArm h => h < 65536
  | .vigilDisarm h => h < 65536
  | .counterDump h => h < 65536
  | .fwWrite h _ => h < 65536
  | .fwActivate h => h < 65536
  | .sessionOpen h _ => h < 65536
  | .sessionClose h => h < 65536
  | .keyload h _ => h < 65536
  | .restartWarm h => h < 65536
  | .restartCold h => h < 65536
  | .nop h => h < 65536
  | .flit site module b => site < 4 && module < 2 && b.length = 256
  | .linkTrained site module _ _ _ _ => site < 4 && module < 2
  | .moduleDown p _ => portOk p
  | .retrainTimeout site module => site < 4 && module < 2
  | .mrdCpl site module h _ => site < 4 && module < 2 && headerFor 4 h
  | .mrdErr site module h a => site < 4 && module < 2 && headerFor 5 (h ++ a)
  | .ewr site module h _ => site < 4 && module < 2 && headerFor 6 h
  | .erd site module h a => site < 4 && module < 2 && headerFor 7 (h ++ a)
  | .sqDoorbell p queue _ => portOk p && queue < 1024
  | .ringDoorbell p _ => portOk p
  | .adminCommit p => portOk p
  | .adminRelease p => portOk p
  | .pipelineSlot region => region < 64
  | .frameReturn ctx _ => ctx < 65536
  | .spResult region ctx _ _ => region < 64 && ctx < 65536
  | .blockClose ctx _ => ctx < 65536
  | .int4Compaction core _ => coreOk core
  | .park ctx => ctx < 65536
  | .deadlinePassed ctx => ctx < 65536
  | .shardArrival region _ _ => region < 64
  | .shardReadback region _ => region < 64
  | .swapBarrierClosed region => region < 64
  | .drainDeadline region => region < 64
  | .swapActivate region _ => region < 64
  | .swapGroupTimeout region => region < 64
  | .rebind region _ => region < 64
  | .ageTick => true
  | .sentinelForce core set => coreOk core && set < 8
  | .intercalarySlot core set => coreOk core && set < 8
  | .upkeepSliceEnd core set => coreOk core && set < 8
  | .dozeEntry g => g < 240
  | .darkEntry g => g < 240
  | .wakeRequest l _ => lookOk l
  | .neighbourRecheck l => lookOk l
  | .wakeWaitLimit g => g < 240
  | .regionWake g => g < 240
  | .wakePgTimeout g => g < 240
  | .regionLost g _ _ => g < 240
  | .retry _ g _ => g < 240
  | .retryPgTimeout g => g < 240
  | .arrayRailLost => true
  | .auxRailLost => true
  | .auxHoldLimit => true
  | .auxRailReturn => true
  | .optRailLost => true
  | .optRailReturn => true
  | .telemetry _ => true
  | .powerUpdate l => l.all fun x => x.region < 240
  | .gateUpdate => true
  | .thermalCapUpdate => true
  | .diodeSample l => l.all fun x => x.region < 240
  | .pairFault g => g < 240
  | .trayRead b => (match b with | some x => decide (x.length = 12) | none => true)
  | .trayStale => true
  | .trayLost => true
  | .holdEnd => true
  | .holdLimit => true
  | .hardwareTrip g => g < 240
  | .coldStartRequest _ _ => true
  | .coldStart x => x.ok
  | .warmStart x => x.ok
  | .recoveryStart x => x.ok
  | .startComplete => true
  | .startFailed _ => true
  | .managementWatchdog => true
  | .lowerTreeBuilt => true
  | .blockSave _ _ _ => true
  | .shadowWrite _ _ _ _ => true
  | .shadowDiscard _ _ => true
  | .shadowTimeout _ _ => true
  | .regionCommit _ region => region < 64
  | .regionRelease _ region => region < 64
  | .segmentCommit _ => true
  | .scopeCommit _ => true
  | .watchArm _ watch => watch < 64
  | .watchDisarm _ watch => watch < 64
  | .clearWarnings _ _ => true
  | .flush _ _ => true
  | .restoreDefaults _ _ => true
  | .clearFallback _ _ => true
  | .flushPrefix _ region => region < 64
  | .clearPairFault _ g _ => g < 240
  | .clearFlags _ _ => true
  | .clearOverflow _ _ => true
  | .sillageMark _ _ => true
  | .restore _ site _ => site < 4
  | .custodyEnable _ _ => true
  | .read f => f.ok
  | .write f => f.ok
  | .ident f => f.ok
  | .identHoldoff _ => true
  | .openPart f => f.ok
  | .openPartTimeout _ => true
  | .close f => f.ok
  | .fwPart f => f.ok
  | .fwCommit f => f.ok
  | .fwTransferTimeout _ => true
  | .txAbandon => true
  | .plcaFallback _ => true
  | .sessionIdle session => session < 256
  | .data port f => port < 48 && f.ok
  | .wack port f => port < 48 && f.ok
  | .result port f => port < 48 && f.ok
  | .ack port f => port < 48 && f.ok
  | .hello port f => port < 48 && f.ok
  | .helloPeriod => true
  | .almanacExchange => true
  | .almanacRequest port f => port < 48 && f.ok
  | .almanacReply port f _ => port < 48 && f.ok
  | .bound port f => port < 48 && f.ok
  | .activate port f => port < 48 && f.ok
  | .swapVerified port f => port < 48 && f.ok
  | .swapRewrite port f => port < 48 && f.ok
  | .swapRewritten port f => port < 48 && f.ok
  | .swapSwitch port f => port < 48 && f.ok
  | .swapSwitched port f => port < 48 && f.ok
  | .swapRollback port f => port < 48 && f.ok
  | .controlFault port f => port < 48 && f.ok
  | .flushStop port f => port < 48 && f.ok
  | .flushRestart port f => port < 48 && f.ok
  | .flushed port f => port < 48 && f.ok
  | .rejected port f => port < 48 && f.ok
  | .replayTimeout port _ => port < 48
  | .peerUnreachable _ => true
  | .portDown port _ => port < 48
  | .portRetrain port _ => port < 48
  | .snapshot ring => ring < 524288
  | .watchDump core _ => coreOk core
  | .handleProgressTimeout h => h < 65536
  | .vigilDump region => region < 64
  | .periodicMark => true
  | .operationTakesEffect core eng => coreOk core && eng < 13
  | .undefinedOpcode p _ _ => coreOk p.core
  | .stepLeavesImage region _ => region < 64
  | .arrayProgrammed core array _ => coreOk core && array < 32
  | .aonRailLost => true
  | .managementMemoryError => true
  | .gateWindow => true
  | .ackDelay port _ => port < 48
  | .transmitOpportunity _ => true
  | .plcaCollisionQuiet => true
  | .irqIntervalExpiry ring => ring < 524288
  | .linkL1Entry site module => site < 4 && module < 2
  | .attestSigned => true

end Sys2Proof
end

