-- ==== Sys2Proof/Tests/Slice0.lean ====
section
/-!
SUPPORT. Small tests of the model: ill-formed commands that the check refuses, single steps whose results are worked out from the
rules, and for every statement with hypotheses a state that meets them.
-/
namespace Sys2Proof.Tests
open Sys2Proof.Machine Sys2Proof.Safety

-- one test after another: the kernel evaluates each, and many at once would wait on one another
set_option Elab.async false

/-! ## States to start from -/

/-- A slot of core 0 that is the last of its bundle. -/
def pl : Place := ⟨0, true, false⟩
/-- A slot of core 0 that does not close its bundle. -/
def mid : Place := ⟨0, false, false⟩
/-- A dispatch slot A of core 0. -/
def dp : DPlace := ⟨0, false, false, false⟩

/-- A core that issues: 16 bundles, one step kind, in a step of it. -/
def core0 : Core :=
  { Core.reset with run := .issuing, clockOn := true, prog := { Prog.reset with bundles := 16, restart := 3, kinds := [⟨1, 2, 5, 900⟩] } }

/-- The core with some registers set. -/
def regs (l : List (BitVec 5 × W32)) : Core := { core0 with seq := l.foldl (fun q x => q.setReg x.1 x.2) core0.seq }

/-- The block with core 0 as given. -/
def at0 (k : Core) : State := { State.reset with cores := [(0, k)] }

/-- The state after a step that goes on, and the reset state otherwise. -/
def after (o : Host.Outcome State Fault Refusal) : State := match o with | .next t => t | _ => State.reset

/-- Core 0 after a command. -/
def core (c : Instr) (k : Core) : Core := (after (exec c (at0 k))).core 0
/-- Register s3 of core 0 after a command. -/
def s3 (c : Instr) (k : Core) : W32 := (core c k).seq.reg 3

/-- A tenant region of the whole wafer. -/
def region0 : Region := { Region.reset with state := 1, nw := 0, se := 0x7F0095 }
/-- Core 0 as given in a region of the whole wafer, which owns sync object 0 with a value. -/
def owned (k : Core) (v : W32) : State := { at0 k with syncs := [(0, ⟨v, some 0⟩)], regions := [(0, region0)] }

/-- A Waloskuno frame with a type, a stage and a payload, and nothing else. -/
def frame (type stage : Nat) (payload : Bytes) : FFrame :=
  ⟨type, 0, 0, 0, 0, 0, false, false, 0, 0, 0, stage, 0, 0, payload, true⟩

/-! ## Ill-formed commands -/

theorem test_wf_core : Instr.wf (.add ⟨19200, true, false⟩ 1 2 3) = false ∧ Instr.wf (.add ⟨19199, true, false⟩ 1 2 3) = true := by decide
theorem test_wf_dispatch_core : Instr.wf (.tmCopy ⟨19200, true, true, false⟩ 1 2) = false ∧ Instr.wf (.tmCopy dp 1 2) = true := by decide
theorem test_wf_event_core : Instr.wf (.waitSatisfied 19200) = false ∧ Instr.wf (.watchDump 19200 0) = false := by decide
theorem test_wf_engine : Instr.wf (.operationStart 0 13) = false ∧ Instr.wf (.operationStart 0 12) = true ∧
    Instr.wf (.operationStart 19200 0) = false := by decide
theorem test_wf_region : Instr.wf (.imageFlush 64) = false ∧ Instr.wf (.imageFlush 63) = true ∧ Instr.wf (.spResult 64 0 0 []) = false := by decide
theorem test_wf_handle : Instr.wf (.nop 65536) = false ∧ Instr.wf (.nop 65535) = true := by decide
theorem test_wf_site : Instr.wf (.adminCommit ⟨4, 0⟩) = false ∧ Instr.wf (.moduleDown ⟨4, 0⟩ true) = false ∧ Instr.wf (.moduleDown ⟨3, 2⟩ true) = false ∧
    Instr.wf (.moduleDown ⟨3, 1⟩ true) = true ∧ Instr.wf (.restore ⟨1, 0⟩ 4 1) = false := by decide
theorem test_wf_queue : Instr.wf (.sqDoorbell ⟨0, 0⟩ 1024 0) = false ∧ Instr.wf (.sqDoorbell ⟨4, 0⟩ 0 0) = false ∧ Instr.wf (.sqDoorbell ⟨3, 2⟩ 0 0) = false ∧
    Instr.wf (.sqDoorbell ⟨3, 1⟩ 1023 0) = true := by
  decide
theorem test_wf_ring : Instr.wf (.snapshot 524288) = false ∧ Instr.wf (.irqIntervalExpiry 524287) = true := by decide
theorem test_wf_context : Instr.wf (.park 65536) = false ∧ Instr.wf (.park 65535) = true ∧ Instr.wf (.spResult 0 65536 0 []) = false := by decide
theorem test_wf_set : Instr.wf (.sentinelForce 0 8) = false ∧ Instr.wf (.sentinelForce 0 7) = true := by decide
theorem test_wf_array : Instr.wf (.arrayProgrammed 0 32 []) = false ∧ Instr.wf (.arrayProgrammed 0 31 []) = true := by decide
theorem test_wf_power : Instr.wf (.dozeEntry 240) = false ∧ Instr.wf (.dozeEntry 239) = true ∧ Instr.wf (.powerUpdate [⟨1, 2, 2, 2, 2⟩, ⟨240, 0, 0, 0, 0⟩]) = false ∧
    Instr.wf (.diodeSample [⟨240, 0, 0, none⟩]) = false ∧ Instr.wf (.wakeRequest ⟨3, [⟨240, 0, 0, 0, 0⟩]⟩ 0) = false := by decide
theorem test_wf_watch : Instr.wf (.watchArm ⟨0, 0⟩ 64) = false ∧ Instr.wf (.watchArm ⟨0, 0⟩ 63) = true := by decide
theorem test_wf_session : Instr.wf (.sessionIdle 256) = false ∧ Instr.wf (.sessionIdle 255) = true := by decide
theorem test_wf_port : Instr.wf (.portDown 48 0) = false ∧ Instr.wf (.portDown 47 0) = true := by decide
theorem test_wf_flit : Instr.wf (.flit 0 0 (List.replicate 255 0)) = false ∧ Instr.wf (.flit 0 2 (List.replicate 256 0)) = false ∧
    Instr.wf (.flit 3 1 (List.replicate 256 0)) = true := by decide +kernel
/-- A completion's header has its own Op, or one that no host message has (R414, R416). -/
theorem test_wf_header : Instr.wf (.mrdErr 0 0 (BitVec.ofNat 64 (4 * 2 ^ 56)) 0) = false ∧
    Instr.wf (.mrdErr 0 0 (BitVec.ofNat 64 (5 * 2 ^ 56)) 0) = true ∧ Instr.wf (.mrdErr 0 0 (BitVec.ofNat 64 (9 * 2 ^ 56)) 0) = true := by decide
theorem test_wf_frame : Instr.wf (.read ⟨2 ^ 48, 0, 0, false, true, []⟩) = false ∧ Instr.wf (.read ⟨0, 2 ^ 48, 0, false, true, []⟩) = false ∧
    Instr.wf (.read ⟨0, 0, 65536, false, true, []⟩) = false ∧ Instr.wf (.read ⟨0, 0, 0x88B5, false, true, []⟩) = true := by decide
theorem test_wf_fabric : Instr.wf (.data 0 (frame 16 0 [])) = false ∧ Instr.wf (.data 0 (frame 1 256 [])) = false ∧
    Instr.wf (.data 0 (frame 1 0 [1])) = false ∧ Instr.wf (.data 48 (frame 1 0 [])) = false ∧ Instr.wf (.data 47 (frame 1 0 [])) = true := by
  decide
theorem test_wf_fabric_fields : FFrame.ok { frame 1 0 [] with vc := 4 } = false ∧ FFrame.ok { frame 1 0 [] with destEngine := 32768 } = false ∧
    FFrame.ok { frame 1 0 [] with srcEngine := 32768 } = false ∧ FFrame.ok { frame 1 0 [] with seq := 65536 } = false ∧
    FFrame.ok { frame 1 0 [] with ack := 65536 } = false ∧ FFrame.ok { frame 1 0 [] with creditVc := 4 } = false ∧
    FFrame.ok { frame 1 0 [] with creditLines := 16384 } = false ∧ FFrame.ok { frame 1 0 [] with srcStage := 256 } = false := by decide
theorem test_wf_start : Instr.wf (.coldStart ⟨true, true, true, [], [⟨4, 0, 32, 16, 0, 0⟩], []⟩) = false ∧
    Instr.wf (.coldStart ⟨true, true, true, [], [⟨0, 2, 32, 16, 0, 0⟩], []⟩) = false ∧
    Instr.wf (.warmStart ⟨true, true, true, [], [], [48]⟩) = false ∧ Instr.wf (.warmStart ⟨true, true, true, [], [], [47]⟩) = true := by decide

/-- The table gives its rows no bits, so no word spells a command. -/
theorem test_no_words (nbits w : Nat) : decodeTableWord nbits w = none := rfl

/-! ## Single steps of a core, with results from the tables of R171, R176, R192 and R199 -/

theorem test_add_wraps : s3 (.add mid 3 1 2) (regs [(1, 0xFFFFFFFF), (2, 2)]) = 1 := by decide +kernel
theorem test_sub_wraps : s3 (.sub mid 3 1 2) (regs [(1, 1), (2, 2)]) = 0xFFFFFFFF := by decide +kernel
theorem test_and_or_xor : s3 (.and mid 3 1 2) (regs [(1, 0xF0F0), (2, 0xFF00)]) = 0xF000 ∧
    s3 (.or mid 3 1 2) (regs [(1, 0xF0F0), (2, 0xFF00)]) = 0xFFF0 ∧ s3 (.xor mid 3 1 2) (regs [(1, 0xF0F0), (2, 0xFF00)]) = 0x0FF0 := by
  decide +kernel
theorem test_shl_takes_five_bits : s3 (.shl mid 3 1 2) (regs [(1, 3), (2, 33)]) = 6 := by decide +kernel
theorem test_shr_fills_zero : s3 (.shr mid 3 1 2) (regs [(1, 0x80000000), (2, 31)]) = 1 := by decide +kernel
theorem test_sra_fills_sign : s3 (.sra mid 3 1 2) (regs [(1, 0x80000000), (2, 4)]) = 0xF8000000 := by decide +kernel
theorem test_mul_low_half : s3 (.mul mid 3 1 2) (regs [(1, 0x10001), (2, 0x10001)]) = 0x00020001 := by decide +kernel
theorem test_slt_signed : s3 (.slt mid 3 1 2) (regs [(1, 0xFFFFFFFF), (2, 1)]) = 1 ∧
    s3 (.sltu mid 3 1 2) (regs [(1, 0xFFFFFFFF), (2, 1)]) = 0 := by decide +kernel
theorem test_addi_sign_extends : s3 (.addi mid 3 1 0x3FFF) (regs [(1, 7)]) = 6 := by decide +kernel
theorem test_andi_sign_extends : s3 (.andi mid 3 1 0x3FFE) (regs [(1, 0xABCD0123)]) = 0xABCD0122 := by decide +kernel
theorem test_ori_xori : s3 (.ori mid 3 1 0x2000) (regs [(1, 1)]) = 0xFFFFE001 ∧ s3 (.xori mid 3 1 0x3FFF) (regs [(1, 1)]) = 0xFFFFFFFE := by
  decide +kernel
theorem test_shift_immediates : s3 (.shli mid 3 1 36) (regs [(1, 3)]) = 48 ∧ s3 (.shri mid 3 1 4) (regs [(1, 0xF0000000)]) = 0x0F000000 ∧
    s3 (.srai mid 3 1 4) (regs [(1, 0xF0000000)]) = 0xFF000000 := by decide +kernel
theorem test_lui : s3 (.lui mid 3 1) core0 = 0x2000 := by decide +kernel
theorem test_s0_stays_zero : (core (.addi mid 0 0 5) core0).seq.reg 0 = 0 ∧ (core (.addi mid 0 0 5) core0).seq.regs[0] = 0 := by decide +kernel
/-- A source that is also the destination is read before it is written. -/
theorem test_source_is_destination : s3 (.add mid 3 3 3) (regs [(3, 21)]) = 42 := by decide +kernel

/-- Core 0 with the bytes 1 to 8 at scratchpad address 64. -/
def stored : Core := { regs [(1, 64), (2, 0xDDCCBBAA), (4, 0x11223344), (5, 0x55667788)] with
                       mem := (List.range 8).map fun i => (64 + i, BitVec.ofNat 8 (i + 1)) }
theorem test_ld : s3 (.ld mid 3 1 4) stored = 0x08070605 := by decide +kernel
theorem test_ld64 : (core (.ld64 mid 6 1 0) stored).seq.reg 6 = 0x04030201 ∧ (core (.ld64 mid 6 1 0) stored).seq.reg 7 = 0x08070605 := by
  decide +kernel
theorem test_st : (core (.st mid 2 1 0x3FFC) stored).mem = [(60, 0xAA), (61, 0xBB), (62, 0xCC), (63, 0xDD)] ++ stored.mem := by decide +kernel
theorem test_st64 : (core (.st64 mid 4 1 0) stored).mem.map (·.2) = [0x44, 0x33, 0x22, 0x11, 0x88, 0x77, 0x66, 0x55] := by decide +kernel
/-- Writing what an unlisted byte reads as takes the entry away. -/
theorem test_st_zero : (core (.st mid 0 1 0) stored).mem.length = 4 := by decide +kernel
theorem test_ld_misaligned : ((core (.ld mid 3 1 2) stored).report.map fun r => (r.cause, r.aux0)) = some (2, 66) := by decide +kernel

theorem test_beq_back : (core (.beq pl 1 1 0x3FFE) { core0 with seq := { core0.seq with pc := 5 } }).seq.pc = 3 := by decide +kernel
theorem test_bne_falls : (core (.bne pl 1 1 4) core0).seq.pc = 1 := by decide +kernel
theorem test_blt_bltu : (core (.blt pl 1 2 4) (regs [(1, 0xFFFFFFFF), (2, 1)])).seq.pc = 4 ∧
    (core (.bltu pl 1 2 4) (regs [(1, 0xFFFFFFFF), (2, 1)])).seq.pc = 1 := by decide +kernel
theorem test_bge_bgeu : (core (.bge pl 1 2 4) (regs [(1, 0xFFFFFFFF), (2, 1)])).seq.pc = 1 ∧
    (core (.bgeu pl 1 2 4) (regs [(1, 0xFFFFFFFF), (2, 1)])).seq.pc = 4 := by decide +kernel
theorem test_jal_links : (core (.jal pl 3 7) { core0 with seq := { core0.seq with pc := 2 } }).seq.pc = 9 ∧
    s3 (.jal pl 3 7) { core0 with seq := { core0.seq with pc := 2 } } = 3 := by decide +kernel
theorem test_jr : (core (.jr pl 1) (regs [(1, 6)])).seq.pc = 6 := by decide +kernel
theorem test_loop_opens : (core (.loop mid 1 2) (regs [(1, 4)])).seq.loops = [⟨1, 2, 4⟩] := by decide +kernel
theorem test_loop_zero_skips : (core (.loop pl 1 2) core0).seq.pc = 3 := by decide +kernel
theorem test_csrr_coreid : s3 (.csrr mid 3 2) core0 = 0 ∧
    ((after (exec (.csrr ⟨131, false, false⟩ 3 2) { State.reset with cores := [(131, core0)] })).core 131).seq.reg 3 = 0x00030001 := by
  decide +kernel
theorem test_csrr_unknown : ((core (.csrr mid 3 8) core0).report.map (·.cause)) = some 1 := by decide +kernel
theorem test_asel : (core (.cimAsel mid 0x81) { core0 with seq := { core0.seq with maxSets := 2 } }).seq.asr = 0x81 ∧
    ((core (.cimAsel mid 0x83) { core0 with seq := { core0.seq with maxSets := 2 } }).report.map (·.cause)) = some 9 := by decide +kernel
theorem test_reserved_opcode : (core (.undefinedOpcode mid 1 0x24) core0).run = .stopped ∧
    ((core (.undefinedOpcode mid 1 0x24) core0).report.map fun r => (r.cause, r.aux0, r.slot)) = some (1, 0x24, 1) := by decide +kernel
theorem test_dispatch_enters : (core (.tmFill dp 1 2 3) (regs [(2, 5), (3, 6)])).seq.queued.map (·.op) = [.tmFill 0 0x0000000600000005 3] := by
  decide +kernel
theorem test_wait_wraps : ((after (exec (.syncWait mid 0 1) (owned (regs [(1, 0xFFFFFFFF)]) 0))).core 0).held = none ∧
    ((after (exec (.syncWait mid 0 1) (owned (regs [(1, 1)]) 0))).core 0).held = some (.syncWait 0 1) := by decide +kernel
theorem test_step_latches : (core (.step mid 1 1) (regs [(1, 77)])).seq.stepReq = 77 ∧ (core (.step mid 1 1) (regs [(1, 77)])).seq.maxSets = 2 ∧
    ((core (.step mid 1 2) core0).report.map (·.cause)) = some 9 := by decide +kernel

/-! ## The worked examples of the spec -/

/-- R12: core (77,113) lies in field 36 and power region 180. -/
theorem test_R12_example : fieldOf (coreKey 77 113) = 36 ∧ powerOf (coreKey 77 113) = 180 := by decide

/-- The neighbours of power region 174 in R501: 173 and 175, with their currents and rises in A. -/
def neighbourhood (i j k l : Nat) : State :=
  { State.reset with power := { Power.reset with regions := [(173, { PRegion.reset with state := .run, current := i * 65536, before := j * 65536 }),
      (175, { PRegion.reset with state := .run, current := k * 65536, before := l * 65536 })] } }
/-- R501: 95 A is above the threshold, so the profile is slow; rises of 87 and 58 A hold the ramp, rises of 79 and 52 A let it go. -/
theorem test_R501_example : needsSlow (neighbourhood 95 8 61 3) 174 = true ∧ loadOk (neighbourhood 95 8 61 3) 174 true = false ∧
    loadOk (neighbourhood 95 16 61 9) 174 true = true := by decide +kernel
/-- R499: the wake from DARK of R501 waits with the slow profile. -/
theorem test_R501_wake : ((darkWake (neighbourhood 95 8 61 3) 174).preg 174).wake.map (fun w => (w.slow, w.ramped)) = some (true, false) := by
  decide +kernel

/-- A link to a peer with engine id 5 that is up, on port 0; engine id 9; a follower. -/
def linked (c : Chan) : State :=
  { State.reset with od := { Od.reset with vals := [(odKey 0x7000 1, [9, 0])] }
                     fabric := { Fabric.reset with ports := [(0, { Port.reset with state := 3, peer := 5, chans := [(5, c)] })], state := 3 } }
/-- A frame from the peer, next in order. -/
def framed (type vc : Nat) (sp : BitVec 80) (b : Bytes) : FFrame :=
  { frame type 0 b with vc := vc, destEngine := 9, srcEngine := 5, seq := 1, specific := sp }
/-- R593, R594, R597: a WACK with Seq 5 and CreditLines 3 for VC2, by its bytes, and the Ethernet header around it. -/
theorem test_R594_bytes :
    let f := { framed 2 0 0 [] with seq := 5, creditVc := 2, creditLines := 3 }
    (linkBytes f).length = 40 ∧ nth (linkBytes f) 31 0 = 0x20 ∧ nth (linkBytes f) 25 0 = 0x14 ∧ slice (linkBytes f) 20 2 = [0x03, 0x80] ∧
    slice (linkWire 1 f) 0 14 = [0x02, 0x00, 0x5C, 0x00, 9, 0, 0x02, 0x00, 0x5C, 0x00, 5, 0, 0x88, 0xB6] := by decide +kernel
/-- R638: a MARK record of the central controller. -/
theorem test_R638_bytes : (SilRec.bytes ⟨0x0102, 8, 7, 0xFF12FF00, [9]⟩).take 17 =
    [2, 1, 0, 0, 0, 0, 0, 0, 8, 0, 7, 0, 0, 0xFF, 0x12, 0xFF, 9] ∧ (SilRec.bytes ⟨0x0102, 8, 7, 0xFF12FF00, [9]⟩).length = 64 := by decide +kernel
/-- R612: θ is 7 ns, which is below the step limit, so it is slewed. -/
theorem test_R612_example :
    let s := { linked Chan.reset with fabric := { (linked Chan.reset).fabric with reqOut := some (0, 8 * 5000000000) } }
    let t := after (exec (.almanacReply 0 (framed 6 0 (BitVec.ofNat 80 (2 * 2 ^ 72))
      (leBytes 8 (8 * 5000009857) ++ leBytes 8 (8 * 5000010257) ++ List.replicate 48 0)) (8 * 5000020100)) s)
    t.fabric.offset = 7000 ∧ t.fabric.slew = 56 ∧ t.almanac = 0 ∧ t.fabric.reqOut = none := by decide +kernel

/-- FIPS 180-4: the digest of the three bytes of "abc". -/
theorem test_sha256 : sha256 [0x61, 0x62, 0x63] = [0xba, 0x78, 0x16, 0xbf, 0x8f, 0x01, 0xcf, 0xea, 0x41, 0x41, 0x40, 0xde, 0x5d, 0xae, 0x22, 0x23,
    0xb0, 0x03, 0x61, 0xa3, 0x96, 0x17, 0x7a, 0x9c, 0xb4, 0x10, 0xff, 0x61, 0xf2, 0x00, 0x15, 0xad] := by decide +kernel

/-! ## Single steps of the mesh, the host link and the units -/

/-- The block with one packet in the mesh. -/
def flight (f : Flight) (s : State) : State := { s with mesh := [f] }
/-- A packet of the device between two cores. -/
def packet (op src dest : Nat) : Packet :=
  { op := op, region := 0, detour := 0, dest := dest, src := src, length := 0, count := 0, id := 0, line := 0, a := 0, cls := 0, reqLines := 0,
    tag := 0, body := 0, payload := [], soft := 0, poison := none, badHead := false, badFrom := none, svc := false, mline := none, issuer := none }
/-- The whole wafer in one region, with its power regions running. -/
def awake (k : Core) : State :=
  { owned k 0 with power := { Power.reset with regions := (List.range 24).map fun g => (g, { PRegion.reset with state := .run }) } }

/-- R225: a packet goes along its row before its column. -/
theorem test_hop_row_first : ((after (exec (.packetHop 0) (flight ⟨0, packet 3 0 (coreKey 2 3), false, 0, none⟩ (awake core0)))).mesh.map (·.loc)) = [1] := by
  decide +kernel
/-- R221: a reserved Op is discarded and counted. -/
theorem test_hop_reserved : (after (exec (.packetHop 0) (flight ⟨0, packet 13 0 5, false, 0, none⟩ (awake core0)))).mesh = [] ∧
    Tbl.get ((after (exec (.packetHop 0) (flight ⟨0, packet 13 0 5, false, 0, none⟩ (awake core0)))).core 0).ctrs 0 134 = 1 := by decide +kernel
/-- R194: a SIGNAL adds its amount. -/
theorem test_signal_adds :
    ((after (exec (.signal 0) (flight ⟨0, { packet 8 0 0 with body := BitVec.ofNat 128 (7 * 2 ^ 32) }, false, 0, none⟩
      { awake core0 with syncs := [(0, ⟨5, some 0⟩)] }))).sync 0).value = 12 := by
  decide +kernel
/-- R234: INT64 addition is modulo 2^64 and an overflow is counted. -/
theorem test_reduce_int64 : addLines 0 (leBytes 8 0x7FFFFFFFFFFFFFFF) (leBytes 8 1) = (leBytes 8 0x8000000000000000, 1) := by decide +kernel
/-- R412: a flit that does not check is answered with Nak and the last Seq accepted. -/
theorem test_flit_nak :
    let s := { State.reset with host := { HostIf.reset with sites := Vector.replicate 4 { Site.reset with
      mods := Vector.replicate 2 { Mod.reset with up := true, rxSeq := 4095 } } } }
    ((after (exec (.flit 0 0 []) s)).out.map fun o => match o with
      | .hostFlit _ _ b => ((flitHdrOf b).nak, (flitHdrOf b).ack, (flitHdrOf b).ackValid)
      | _ => (false, 0, false)) = [(true, 4095, true)] := by decide +kernel
/-- R411: the CRC is CRC-32C, by its check value; the header's fields are those of the flit's first eight bytes. -/
theorem test_R411_crc : crc32c [0x31, 0x32, 0x33, 0x34, 0x35, 0x36, 0x37, 0x38, 0x39] = 0xE3069283 ∧
    (flitBytes ⟨1, 2, 3, true, false, 4, 0, 5, 6, true⟩ []).take 8 = [6, 0x50, 0, 0, 0xE4, 0, 8, 0x40] := by decide +kernel
/-- R514: the gate level rises by one while the power is above the cap. -/
theorem test_gate_level :
    (after (exec .gateUpdate { State.reset with power := { Power.reset with measured := 20001 } })).thermal.level = 1 := by decide +kernel
/-- R103: a tick ages by 0.1 s at 55 degrees and by 0.2 s at 65. -/
theorem test_age_tick :
    let s := { State.reset with power := { Power.reset with regions := [(1, { PRegion.reset with hot := degC 65 })] } }
    ((after (exec .ageTick s)).preg 1).aged = 131072 := by decide +kernel

/-! ## States that meet the hypotheses of the statements: inside a core -/

theorem test_at0_memory (k : Core) (h : Memory.wf k.mem) : memOk (at0 k) := by
  intro c
  by_cases hc : c = 0
  · subst hc; exact h
  · simp only [State.core, at0, Tbl.get, Tbl.find]
    rw [if_neg (by omega)]
    exact ⟨List.Pairwise.nil, by simp [Core.reset]⟩

theorem test_meets_StepRunsFront : State.reset.pending = [] := rfl
theorem test_meets_ScalarResults : ready (at0 core0) pl.core ∧ pl.rsv = false ∧ mid.rsv = false := by decide +kernel
theorem test_meets_ScalarFrame : ready (at0 core0) mid.core ∧ mid.rsv = false ∧
    exec (.add mid 3 1 2) (at0 core0) = .next (after (exec (.add mid 3 1 2) (at0 core0))) := ⟨by decide +kernel, rfl, rfl⟩
theorem test_meets_Branches : ready (at0 core0) pl.core ∧ pl.rsv = false ∧ pl.last = true ∧
    (∀ l ∈ (entered (at0 core0) 0 0).seq.loops, l.last ≠ (entered (at0 core0) 0 0).seq.pc.toNat) := by decide +kernel
theorem test_meets_ControlFrame : ready (at0 core0) mid.core ∧
    exec (.csrw mid 1 5) (at0 core0) = .next (after (exec (.csrw mid 1 5) (at0 core0))) ∧
    (core (.csrw mid 1 5) core0).run = .issuing ∧ (core (.daddr mid 2 1) core0).run = .issuing := by
  exact ⟨by decide +kernel, rfl, by decide +kernel, by decide +kernel⟩
/-- A core in the last bundle of a loop of bundles 1 and 2, with two passes left. -/
def looping : Core := { core0 with seq := { core0.seq with pc := 2, loops := [⟨1, 2, 2⟩] } }
theorem test_meets_Loops :
    (ready (at0 core0) mid.core ∧ mid.rsv = false ∧ 1 ≤ (15 : BitVec 14).toInt ∧
      (entered (at0 core0) 0 0).seq.pc.toNat + (15 : BitVec 14).toInt.toNat < (entered (at0 core0) 0 0).prog.bundles ∧
      (entered (at0 core0) 0 0).seq.loops.length < 2 ∧ mid.last = false ∧ ((entered (at0 core0) 0 0).pre.reg 1).toNat = 0 ∧
      ((entered (at0 (regs [(1, 1)])) 0 0).pre.reg 1).toNat ≠ 0) ∧
    (ready (at0 looping) 0 ∧ pl.last = true ∧ ((at0 looping).core 0).bundle = none ∧
      ((at0 looping).core 0).seq.loops = ⟨1, 2, 2⟩ :: [] ∧ ((at0 looping).core 0).seq.pc.toNat = 2 ∧ 1 < 2) := by decide +kernel
/-- Register values that make a scalar address of 2, of the end of the banks, of the first and of the last word of the program window. -/
theorem test_meets_IssueChecks : ready (at0 core0) 0 ∧ ((at0 core0).core 0).active = [] ∧
    (scalarAddr (entered (at0 core0) 0 0) 1 2).toNat % 4 ≠ 0 ∧
    2621440 < (scalarAddr (entered (at0 (regs [(1, 2621440)])) 0 0) 1 0).toNat + 4 ∧
    (scalarAddr (entered (at0 (regs [(1, 0x270000)])) 0 0) 1 0).toNat = 0x270000 ∧
    (scalarAddr (entered (at0 (regs [(1, 0x280000)])) 0 0) 1 0x3FFC).toNat = 0x27FFFC := by decide +kernel
theorem test_meets_ControlRegisters : ready (at0 core0) 0 ∧ ((at0 core0).core 0).active = [] ∧ 7 < (8 : BitVec 14).toNat ∧
    (4 : BitVec 14) ≠ 5 ∧
    (let s := at0 { regs [(1, 0x81)] with seq := { (regs [(1, 0x81)]).seq with maxSets := 2 } }
     popcount (BitVec.ofNat 8 ((entered s 0 0).pre.reg 1).toNat) = (entered s 0 0).seq.maxSets ∧
     popcount (0x18 : BitVec 8) = (entered s 0 0).seq.maxSets) := by decide +kernel
theorem test_meets_DescriptorMoves : ready (at0 core0) 0 ∧ mid.rsv = false ∧ mid.last = false := by decide +kernel

/-- The first and the last address of each range: the banks up to the program window, above it, and the accumulator tiles. -/
theorem test_meets_LoadsStores :
    ready (at0 stored) 0 ∧ memOk (at0 stored) ∧
    (∀ a ∈ [0, 2621436], a % 4 = 0 ∧ a + 4 ≤ 2621440) ∧ (∀ a ∈ [0, 0x26FFFC], a % 4 = 0 ∧ a + 4 ≤ 0x270000) ∧
    (∀ a ∈ [0, 0x26FFF8], a % 8 = 0 ∧ a + 8 ≤ 0x270000) ∧ (∀ a ∈ [0, 0x26FFF0], a % 16 = 0 ∧ a + 16 ≤ 0x270000) ∧ (∀ a ∈ [0x3F0000, 0x3FFFF8], a % 8 = 0 ∧ 0x3F0000 ≤ a ∧ a + 8 ≤ 0x400000) ∧
    (2 : BitVec 5).toNat % 2 = 0 ∧ (entered (at0 stored) 0 0).badWords = [] ∧
    (let u := at0 { stored with badWords := [0x4E001] }
     (u.core 0).canIssue = true ∧ (u.core 0).bundle = none ∧ (u.core 0).active = [] ∧ 0x4E001 ∈ (u.core 0).badWords ∧
     0x4E001 / 2 = 0x27000 + (u.core 0).seq.pc.toNat) ∧ Tbl.wf (entered (at0 stored) 0 0).acc ∧
    (∀ a ∈ [0, 2621436, 0x3F0000, 0x3FFFF8], feetMeet [footAddr a 16 true] ((entered (at0 stored) 0 0).pendingFeet 0) = false) ∧
    (BitVec.ofInt 32 (((entered (at0 stored) 0 0).pre.reg 1).toInt + (0x3FFC : BitVec 14).toInt)).toNat = 60 := by
  refine ⟨by decide +kernel, test_at0_memory _ (by decide +kernel), by decide, by decide, by decide, by decide, by decide, by decide, by decide +kernel, by decide +kernel, ?_,
    by decide +kernel, by decide +kernel⟩
  exact List.Pairwise.nil
theorem test_meets_LoadStoreFrame : ready (at0 stored) 0 ∧
    exec (.st mid 2 1 0) (at0 stored) = .next (after (exec (.st mid 2 1 0) (at0 stored))) ∧ (core (.st mid 2 1 0) stored).run = .issuing ∧
    (core (.ld mid 2 1 0) stored).run = .issuing ∧ (core (.ld64 mid 2 1 0) stored).run = .issuing ∧
    (core (.dld mid 2 1 0) stored).run = .issuing ∧ (core (.st64 mid 2 1 0) stored).run = .issuing ∧
    (core (.dst mid 2 1 0) stored).run = .issuing :=
  ⟨by decide +kernel, rfl, by decide +kernel, by decide +kernel, by decide +kernel, by decide +kernel, by decide +kernel, by decide +kernel⟩

/-- An operation of engine 0 that fills one line. -/
def filling (n : Nat) : QOp :=
  { num := n, eng := 0, op := .tmFill (descOf 3 0 1 1 0 0 0 0 0) 0xAB 0, step := 0, kind := 1, req := 9, stepSeq := none, bundle := 0, slot := 1, tag := none,
    dumps := [], gov := 240, since := 0 }
/-- The core with operations queued at engine 0 and set 0 in ASR. -/
def queued (n : Nat) : Core :=
  { core0 with seq := { core0.seq with queued := (List.range n).map filling, opNum := n, asr := 1 } }
theorem test_meets_DispatchQueues :
    ready (at0 (queued 3)) 0 ∧ dp.rsv = false ∧ (entered (at0 (queued 3)) 0 1).queuedOn 0 = 3 ∧
    (8 : BitVec 4).toNat ≤ 8 ∧ (3 : BitVec 4).toNat ≤ 3 ∧ (2 : BitVec 2) ≠ 3 ∧
    (entered (at0 (queued 3)) 0 1).seq.asr.getLsbD ((3 : BitVec 5).toNat / 4) = true ∧ (1 : BitVec 2).toNat ≤ 1 ∧
    (entered (at0 (queued 4)) 0 1).queuedOn 0 = 4 ∧
    (let u := at0 { queued 3 with held := some (.queue (filling 3)) }
     (u.core 0).run = .issuing ∧ (u.core 0).held = some (.queue (filling 3)) ∧ (u.core 0).queuedOn 0 < 4) ∧
    exec (.daddr mid 1 2) (at0 (queued 3)) = .next (after (exec (.daddr mid 1 2) (at0 (queued 3)))) ∧
    (core (.daddr mid 1 2) (queued 3)).run = .issuing := by
  refine ⟨?_, ?_, ?_, ?_, ?_, ?_, ?_, ?_, ?_, ?_, rfl, ?_⟩ <;> decide +kernel
theorem test_meets_DispatchChecks :
    ready (at0 (queued 1)) 0 ∧ ((at0 (queued 1)).core 0).active = [] ∧
    (entered (at0 (queued 1)) 0 1).seq.asr.getLsbD ((4 : BitVec 5).toNat / 4) = false ∧ 8 < (9 : BitVec 4).toNat ∧ 3 < (4 : BitVec 4).toNat ∧
    1 < (2 : BitVec 2).toNat ∧
    exec (.cimAsel mid 0) (at0 (queued 1)) = .next (after (exec (.cimAsel mid 0) (at0 (queued 1)))) ∧
    (core (.cimAsel mid 0) (queued 1)).run = .issuing := by
  refine ⟨?_, ?_, ?_, ?_, ?_, ?_, rfl, ?_⟩ <;> decide +kernel
theorem test_meets_DispatchFrame : ready (at0 (queued 4)) 0 ∧
    exec (.tmCopy dp 1 2) (at0 (queued 4)) = .next (after (exec (.tmCopy dp 1 2) (at0 (queued 4)))) ∧
    (core (.tmCopy dp 1 2) (queued 4)).run = .issuing := ⟨by decide +kernel, rfl, by decide +kernel⟩

theorem test_meets_SyncSlot :
    (let s := owned (regs [(1, 0x80000001)]) 0
     ready s 0 ∧ syncCheck s 0 0 = none ∧ ownsSync s 0 0 = true ∧
     ((s.sync 0).value.toNat + 2 ^ 32 - ((entered s 0 3).pre.reg 1).toNat) % 2 ^ 32 = 2 ^ 31 - 1) ∧
    (let s := owned (regs [(1, 0x80000000)]) 0
     ((s.sync 0).value.toNat + 2 ^ 32 - ((entered s 0 3).pre.reg 1).toNat) % 2 ^ 32 = 2 ^ 31) ∧
    (let k (n : Nat) : Core := { core0 with seq := { core0.seq with sigBuf := List.replicate n ⟨0, 1, 0, (0, 3)⟩ } }
     (entered (owned (k 7) 0) 0 3).seq.sigBuf.length = 7 ∧ 8 ≤ (entered (owned (k 8) 0) 0 3).seq.sigBuf.length) ∧
    ((entered (owned core0 0) 0 3).oq 0).length + (32 : BitVec 6).toNat ≤ 32 ∧
    (0 : BitVec 6).toNat ≤ (((entered (owned core0 0) 0 3).iq 0).takeWhile (·.filled)).length ∧
    ((entered (owned core0 0) 0 3).seq.queued = [] ∧ (entered (owned core0 0) 0 3).active = [] ∧ (entered (owned core0 0) 0 3).oqs = [] ∧
      (entered (owned core0 0) 0 3).awaits = []) ∧
    (let k : Core := { core0 with seq := { core0.seq with queued := [{ filling 0 with eng := 2, op := .accClr 0 }] } }
     (4 : BitVec 8).getLsbD 2 = true ∧ 0 < (entered (at0 k) 0 3).depth 2) := by decide +kernel
theorem test_meets_StepAndTag :
    (let s := owned (regs [(1, 5)]) 0
     ready s 0 ∧ ((entered s 0 3).prog.kinds.find? fun d => d.kind = (1 : W16).toNat) = some ⟨1, 2, 5, 900⟩ ∧
     2 ≤ (s.region ((ownerOf s 0).getD 0)).setCap ∧ ((entered s 0 3).prog.kinds.find? fun d => d.kind = (2 : W16).toNat) = none ∧
     (s.core 0).active = []) ∧
    (let k := core (.tmFill dp 1 2 3) core0
     ∃ b o, (entered (at0 k) 0 3).bundle = some b ∧ b.opA = some o.num ∧ o ∈ (entered (at0 k) 0 3).seq.queued ∧ o.op.dest.isSome = true) := by
  refine ⟨by decide +kernel, _, _, rfl, rfl, List.mem_singleton.mpr rfl, rfl⟩
theorem test_meets_SyncFrame : ready (owned core0 0) 0 ∧
    exec (.step mid 1 1) (owned core0 0) = .next (after (exec (.step mid 1 1) (owned core0 0))) ∧
    ((after (exec (.step mid 1 1) (owned core0 0))).core 0).run = .issuing ∧
    ((after (exec (.syncSignal mid 0 1 true) (owned core0 0))).core 0).run = .issuing := ⟨by decide +kernel, rfl, by decide +kernel, by decide +kernel⟩

/-- The core with an operation in progress. -/
def running : Core := { core0 with active := [(0, ⟨filling 0, none⟩)], seq := { core0.seq with opNum := 1 } }
theorem test_meets_CoreProgress :
    (let s := at0 (queued 1)
     (s.core 0).ready? 0 = some (filling 0) ∧ yieldsToSlice s 0 (s.core 0) (filling 0) = false ∧ awaitsCompaction s 0 (filling 0) = false ∧
     startCheck s 0 (s.core 0) (filling 0) = none ∧ (s.core 0).held = none) ∧
    ((0 : Nat) < 5 ∧ Tbl.find ((at0 running).core 0).active 0 = some ⟨filling 0, none⟩ ∧ ((at0 running).core 0).run = .issuing ∧ ((at0 running).core 0).clockOn = true ∧
      ((at0 running).core 0).pastLimit ⟨filling 0, none⟩ = false ∧ Tbl.wf ((at0 running).core 0).active ∧ ((at0 running).core 0).held = none ∧ ((at0 running).core 0).oqs = []) ∧
    (let s := { owned { core0 with held := some (.syncWait 0 1) } 1 with power := (awake core0).power }
     s.thermal.state ≠ 1 ∧ (s.preg (powerOf 0)).state = .run ∧ (s.core 0).run = .issuing ∧ (s.core 0).held = some (.syncWait 0 1) ∧ ((s.sync 0).value.toNat + 2 ^ 32 - (1 : W32).toNat) % 2 ^ 32 < 2 ^ 31) ∧
    (let s := owned { core0 with seq := { core0.seq with sigBuf := [⟨0, 2, 0, (0, 3)⟩] } } 1
     (s.core 0).seq.sigBuf = ⟨0, 2, 0, (0, 3)⟩ :: [] ∧ (s.core 0).settled 0 = true ∧ (s.core 0).held = none ∧ (s.core 0).oqs = [] ∧
      0 / 512 = fieldOf 0 ∧ ownsSync s 0 0 = true ∧ s.silOn 1 (ownerOf s 0) = false) ∧
    (let s := { owned { core0 with held := some (.syncWait 0 1) } 0 with now := 100 }
     (s.core 0).clockOn = true ∧ 2 ^ 31 ≤ ((s.sync 0).value.toNat + 2 ^ 32 - (1 : W32).toNat) % 2 ^ 32 ∧ (s.core 0).seq.queued = [] ∧
      (s.core 0).active = [] ∧ 16 ≤ cyclesOf (s.now - max (s.core 0).waitFrom (s.core 0).idleFrom)) := by
  refine ⟨by decide +kernel, ⟨by decide, by decide +kernel, by decide +kernel, by decide +kernel, by decide +kernel, ?_, by decide +kernel, by decide +kernel⟩, by decide +kernel,
    by decide +kernel, by decide +kernel⟩
  exact List.pairwise_singleton _ _
theorem test_meets_StepLimits :
    (let s := { at0 { core0 with seq := { core0.seq with budget := 900 } } with now := 1288 }
     (s.core 0).run = .issuing ∧ (s.core 0).seq.budget ≠ 0 ∧ (s.core 0).seq.budget < stepCyc s (s.core 0)) ∧
    (let s := { at0 core0 with now := 2000002 }
     (s.core 0).seq.budget = 0 ∧ s.setting 0x2110 1 1400000 < stepCyc s (s.core 0)) ∧
    (let s := { at0 { core0 with held := some (.syncWait 0 1) } with now := 100000001 }
     2 ^ 31 ≤ ((s.sync 0).value.toNat + 2 ^ 32 - (1 : W32).toNat) % 2 ^ 32 ∧ s.setting 0x2110 2 100000 * 1000 < s.now - (s.core 0).waitFrom) ∧
    (let k : Core := { core0 with active := [(5, ⟨{ filling 0 with eng := 5 }, some ⟨[], [], 6, false, 0⟩⟩)]
                                  seq := { core0.seq with phases := 0, phaseLim := 5 } }
     let s := { at0 k with now := 100 }
     ((s.core 0).overrun?.map (·.2)) = some 100 ∧ 100 ≤ s.now) := by decide +kernel
theorem test_meets_EngineResults : Memory.wf running.mem ∧ 1247 < 1248 ∧ 31 < 32 ∧ 15 < 16 ∧
    ({ filling 0 with op := .tmFill (descOf 1247 31 1 1 0 0 0 0 0) 5 3 }).op = .tmFill (descOf 1247 31 1 1 0 0 0 0 0) 5 3 := by decide +kernel

/-! ## States that meet the hypotheses of the statements: the mesh and the faults -/

/-- A walk of one line. -/
def oneLine (row col : Nat) : Desc := descOf row col 1 1 0 0 0 0 0
/-- A packet for core 0 from core 1. -/
def toCore (op : Nat) (body : BitVec 128) : Packet := { packet op 1 0 with body := body }
/-- The block of `awake` with a packet that has come to its destination, core 0. -/
def arrived (p : Packet) (k : Core) : State := flight ⟨0, p, false, 0, none⟩ (awake k)
/-- A request that waits for one line, in queue 1 at position 2. -/
def await (write merge : Bool) : Await :=
  { req := 2, q := 1, num := 0, cls := 0, write := write, merge := merge, toWalk := !write, walk := oneLine 5 0, source := 0, lines := 1, left := 1,
    tag := 0, sig := none, status := 0, home := 1, issuer := (0, 1) }
/-- Its tag. -/
def tag12 : W32 := reqTag 1 2
/-- The core that waits for it. -/
def waiting (a : Await) : Core := { core0 with awaits := [a] }

theorem test_meets_PacketHops :
    (let p := packet 0xC 0 (coreKey 2 3)
     let s := flight ⟨0, p, false, 0, none⟩ (awake core0)
     s.mesh[0]? = some ⟨0, p, false, 0, none⟩ ∧ p.op ≠ 0 ∧ p.op ≤ 0xC ∧ p.op ≠ 4 ∧ p.op ≠ 7 ∧ p.region < 64 ∧ p.badHead = false ∧ p.badFrom = none ∧ 0 ≠ p.dest ∧
     isHole s 0 = false ∧ isHole s p.dest = false ∧ permitted s p 0 = true ∧ onForbidden s p = false ∧ nextHop s p 0 = .go 1 0 false false ∧ routersWait (s.preg (powerOf 0)) = false ∧
     routersWait (s.preg (powerOf 1)) = false) ∧
    isHole (flight ⟨0, packet 1 0 5, false, 0, none⟩ (awake { core0 with fence := some 4 })) 0 = true ∧
    ((packet 0 0 5).op = 0 ∧ 0xC < (packet 13 0 5).op ∧
     (flight ⟨0, packet 13 0 5, false, 0, none⟩ (awake core0)).mesh[0]? = some ⟨0, packet 13 0 5, false, 0, none⟩ ∧
     ((flight ⟨0, packet 13 0 5, false, 0, none⟩ (awake core0)).core 0).fence = none) := by decide +kernel
theorem test_meets_DimensionOrder :
    (let s := awake core0; let p := packet 1 0 (coreKey 2 3)
     p.detour = 0 ∧ (0 : Nat) < 19200 ∧ p.dest < 19200 ∧ coreCol 0 < coreCol p.dest ∧ permitted s p 1 = true ∧ isHole s 1 = false ∧
     coreCol 2 = coreCol p.dest ∧ coreRow 2 < coreRow p.dest ∧ permitted s p 130 = true ∧ isHole s 130 = false) ∧
    (let s := awake core0; let p := packet 1 (coreKey 2 3) 0
     coreCol p.dest < coreCol (coreKey 2 3) ∧ permitted s p (coreKey 1 3) = true ∧ isHole s (coreKey 1 3) = false ∧
     coreRow p.dest < coreRow (coreKey 0 3) ∧ permitted s p (coreKey 0 2) = true ∧ isHole s (coreKey 0 2) = false) := by decide +kernel
/-- A line of the last row that a request may write, and of the last one that it may read (R157, R165). -/
theorem test_meets_HomeRequests :
    (let s := arrived (toCore 1 (oneLine 1279 31)) core0
     s.mesh[0]? = some ⟨0, toCore 1 (oneLine 1279 31), false, 0, none⟩ ∧ landsAtOnce s ⟨0, toCore 1 (oneLine 1279 31), false, 0, none⟩ ∧ homeRefuses s 0 = false ∧
     lineFail (s.core 0) (walkOf (oneLine 1279 31)).lines = none ∧ homeOk (walkOf (oneLine 1279 31)) false = true ∧ (s.core 0).active = []) ∧
    homeRefuses (arrived (toCore 1 0) { core0 with fence := some 2 }) 0 = true ∧
    ((toCore 5 (oneLine 1247 0)).svc = false ∧ homeOk (walkOf (oneLine 1247 0)) true = true ∧ homeOk (walkOf (oneLine 1248 0)) true = false) ∧
    ((arrived (toCore 2 (oneLine 3 0)) core0).core 0).router.merge = [] ∧
    lineFail ((arrived (toCore 2 (oneLine 3 0)) core0).core 0) [(3, 0)] = none ∧
    (let s := { at0 { core0 with router := { Router.reset with merge := [⟨3, 0, 0, false, [], false⟩] } } with now := 92 }
     (s.core 0).router.merge = [⟨3, 0, 0, false, [], false⟩] ∧ 64 ≤ cyclesOf (s.now - 0)) := by decide +kernel
theorem test_meets_RepliesComplete :
    (let p := { toCore 3 0 with tag := tag12, payload := List.replicate 64 7 }
     let s := arrived p (waiting (await false false))
     s.mesh[0]? = some ⟨0, p, false, 0, none⟩ ∧ landsAtOnce s ⟨0, p, false, 0, none⟩ ∧ (s.core 0).run = .issuing ∧ (s.core 0).held = none ∧ (s.core 0).oqs = [] ∧
     (s.core 0).iqs = [] ∧ (await false false).sig = none ∧ (s.core 0).await? (tagQueue p.tag) (tagPos p.tag) = some (await false false) ∧
     (await false false).toWalk = true ∧ (await false false).lines = 1 ∧ (await false false).left = 1 ∧ p.payload.length = 64) ∧
    ((waiting (await true false)).await? (tagQueue tag12) (tagPos tag12) = some (await true false) ∧ (await true false).write = true) ∧
    (let e := mergeEntry { packet 2 0 1 with tag := tag12 }
     let p := { toCore 4 (bodyOf [e]) with payload := List.replicate 64 7 }
     bodyEntries p.body = [e] ∧ unpackByteCore (e / 65536) = 0 ∧
     (waiting (await false true)).await? (bits e 15 13) (bits e 12 8) = some (await false true) ∧ (await false true).merge = true) := by
  decide +kernel
theorem test_meets_RefusedRequests :
    let p := { toCore 3 1 with tag := tag12 }
    let a := { await false false with toWalk := false }
    let e : IqEntry := ⟨2, false, [], 0, 0, (0, 1)⟩
    let d : IqEntry := ⟨1, false, [], 0, 0, (0, 1)⟩
    let s := arrived p { waiting a with iqs := [(1, [e])] }
    let u := arrived p { waiting a with iqs := [(1, [d, e])] }
    (s.mesh[0]? = some ⟨0, p, false, 0, none⟩ ∧ landsAtOnce s ⟨0, p, false, 0, none⟩ ∧ (s.core 0).run = .issuing ∧ p.op = 3 ∧ p.body.toNat ≠ 0 ∧
      (s.core 0).await? (tagQueue p.tag) (tagPos p.tag) = some a ∧ (s.core 0).iq a.q = [] ++ e :: [] ∧ e.req = a.req ∧ e.filled = false) ∧
    ((u.core 0).iq a.q = [d] ++ e :: [] ∧ (∀ x ∈ [d], x.req ≠ a.req ∧ x.status = 0) ∧ (∃ x ∈ [d], x.filled = false) ∧ (u.core 0).held = none ∧
      (u.core 0).oqs = []) := by decide +kernel
/-- A reduction of two contributions to one line of INT64: arithmetic 0, sync object 3, row 7. -/
def reduction : W64 := BitVec.ofNat 64 (7 * 2 ^ 53 + 3 * 2 ^ 26 + 2 * 2 ^ 10)
theorem test_meets_ReductionsLand :
    let p := { toCore 7 0 with count := 1, payload := List.replicate 64 1 }
    let s := arrived p { core0 with router := { Router.reset with red := [(0, reduction)] } }
    let u := arrived p { core0 with router := { Router.reset with red := [(0, reduction)], recv := [(0, (1, 1))] } }
    let e := (Tbl.get (s.core 0).router.red 0 0).toNat
    (s.mesh[0]? = some ⟨0, p, false, 0, none⟩ ∧ landsAtOnce s ⟨0, p, false, 0, none⟩ ∧ p.op = 7 ∧ (s.core 0).fence = none ∧ draining s 0 = false ∧ bits e 25 10 = 2 ∧
      bits e 42 41 = p.a ∧ p.line ≤ bits e 47 43 ∧ (0 : W32).getLsbD p.line = false ∧ lineFail (s.core 0) [(7, 0)] = none ∧ 0 + p.count < bits e 25 10 * (bits e 47 43 + 1)) ∧
    (Tbl.get (u.core 0).router.recv (0, 0) 0 = (1, 1) ∧ bits e 25 10 * (bits e 47 43 + 1) ≤ 1 + p.count) := by decide +kernel

/-- The serving section, the image and the bound image of one core. -/
def serv0 : ServSec :=
  { vocab := 1000, startTok := 1, eosTok := 2, outWidth := 1, inWidth := 1, specHeads := 0, outFp16 := false, entryCore := 0, finalCore := 0,
    entrySync := 0, releaseSync := 0, tokenRow := 3, sampleRow := 4 }
def img0 : Image :=
  { vcores := 1, nomWidth := 1, nomHeight := 1, vsyncs := 0, stage := 0, stages := 1, version := 4, ctlBytes := 0, sections := [],
    cores := [⟨0, 0, 0, 0, 0, 0, 0⟩], tiles := [], reds := [], syncs := [], traffic := [], windows := [], shards := [], serving := some serv0,
    manifest := [], manDigest := [], ctlDigest := [] }
def bound0 : BoundImage :=
  { img := img0, ctl := [], slot := 0, stageTab := [], placed := [⟨0, [], []⟩], syncIdx := [], bound := true, active := true, version := 4, epoch := 0,
    reported := [], flushed := [], stopped := false }
/-- The block with region 0 as given. -/
def inRegion (r : Region) (s : State) : State := { s with regions := [(0, r)] }
/-- Region 0 with the image. -/
def imaged : Region := { region0 with img := some bound0 }

theorem test_meets_SignalsArrive :
    (let p := toCore 8 (BitVec.ofNat 128 0)
     let s := flight ⟨0, p, false, 0, none⟩ (awake core0)
     s.mesh[0]? = some ⟨0, p, false, 0, none⟩ ∧ landsAtOnce s ⟨0, p, false, 0, none⟩ ∧ p.op = 8 ∧ earlierSignal s 0 p = false ∧ ownsSync s p.src (bits p.body.toNat 14 0) = true) ∧
    (let p := { toCore 8 (BitVec.ofNat 128 1) with src := 0 }
     let s := flight ⟨0, p, false, 0, none⟩ (awake core0)
     earlierSignal s 0 p = false ∧ ownsSync s p.src (bits p.body.toNat 14 0) = false ∧ (s.core p.src).run = .issuing) ∧
    (let p := { toCore 9 0 with length := 2, payload := List.replicate 64 1 }
     let s := inRegion imaged (flight ⟨0, p, false, 0, none⟩ (awake core0))
     p.op = 9 ∧ (∀ g ∈ s.mesh.take 0, g.pkt.svc = false) ∧ (s.core 0).fence = none ∧ p.length = 2 ∧ servingOf s 0 = some serv0) := by
  decide +kernel
/-- Region 0 with the exit edge north and class 1 granted, and with a window on the sites of every module. -/
def granted : Region := { region0 with grant := 1, exit := 1, windows := [(2, ⟨0, 4096, 15, true, true⟩)] }
/-- The module of site 0 up. -/
def sitesUp : HostIf := { HostIf.reset with sites := Vector.replicate 4 { Site.reset with mods := Vector.replicate 2 { Mod.reset with up := true } } }
theorem test_meets_InterfacePackets :
    (let p := { packet 0xB 0 1 with cls := 1 }
     let s := inRegion { region0 with grant := 0 } (flight ⟨1, p, false, 0, none⟩ (awake core0))
     s.mesh[0]? = some ⟨1, p, false, 0, none⟩ ∧ landsAtOnce s ⟨1, p, false, 0, none⟩ ∧ p.region < 64 ∧ (s.region 0).grant.getLsbD 0 = false ∧ (s.core p.src).run = .issuing ∧ p.src ≠ 1 ∧
     earlierPart s p = false) ∧
    (let p := { packet 0xB 0 0 with cls := 1, tag := tag12, reqLines := 2, length := 2, payload := List.replicate 64 1
                                    body := BitVec.ofNat 128 (2 * 2 ^ 124 + 2 * 2 ^ 56) }
     let a := { await true false with left := 2 }
     let s := { inRegion granted (flight ⟨0, p, false, 0, none⟩ (awake (waiting a))) with host := sitesUp }
     (s.region 0).grant.getLsbD 0 = true ∧ exitRouter (s.region 0).exit p.src = some 0 ∧ bits p.body.toNat 63 56 = 2 ∧
     Tbl.find (s.region 0).windows (bits p.body.toNat 127 64 / 2 ^ 60) = some ⟨0, 4096, 15, true, true⟩ ∧
     class1Status s 0 (bits p.body.toNat 127 64) 2 p.reqLines = 0 ∧ 1 < p.reqLines ∧ earlierPart s p = false ∧
     Tbl.find s.host.writes (hubKey 0 (tagQueue p.tag) (tagPos p.tag)) = none ∧ (s.core 0).await? (tagQueue p.tag) (tagPos p.tag) = some a ∧ 1 < a.left ∧
     a.status = 0 ∧
     (let h : HubWrite := ⟨2, some ⟨0, 4096, 15, true, true⟩, false, 2⟩
      let key := hubKey 0 (tagQueue p.tag) (tagPos p.tag)
      let u := { s with cores := [], host := { s.host with writes := [(key, h)] } }
      Tbl.find u.host.writes key = some h ∧ 1 < h.left ∧ recordStatus u h.win (bits p.body.toNat 127 64 % 2 ^ 60) 2 1 = 0 ∧
      (u.core 0).await? (tagQueue p.tag) (tagPos p.tag) = none ∧ earlierPart u { p with body := BitVec.ofNat 128 (2 * 2 ^ 124 + 64 * 2 ^ 64 + 2 * 2 ^ 56) } = true)) ∧
    (let p := { packet 0xC 0 0 with cls := 1, tag := tag12 }
     let s := flight ⟨0, p, false, 0, none⟩ (awake (waiting (await true false)))
     landsAtOnce s ⟨0, p, false, 0, none⟩ ∧ p.length = 0 ∧ p.body = 0 ∧ { p with length := 2 }.length ≠ 0 ∧ earlierData s { p with cls := 2, length := 2 } = false ∧ (s.core 0).await? (tagQueue p.tag) (tagPos p.tag) = some (await true false) ∧ (s.core 0).run = .issuing ∧
     (s.core 0).held = none ∧ (s.core 0).oqs = [] ∧ (s.core 0).iqs = []) := by decide +kernel
theorem test_meets_FaultRecorded :
    let r : FaultRep := { cause := 2, bundle := 1, slot := 0, kind := 1, req := 0xFFFFFFFF, stepSeq := none, aux0 := 66, time := 0, unit := 0 }
    let s := inRegion imaged (at0 { core0 with run := .stopped, report := some r })
    (s.core 0).report = some r ∧ r.cause ≠ 15 ∧ r.req = 0xFFFFFFFF ∧ ownerOf s 0 = some 0 ∧ (s.region 0).img = some bound0 ∧ bound0.bound = true ∧
    bound0.img.stage = 0 ∧ (s.region 0).flush = none ∧ (s.region 0).vigil = none := by decide +kernel
theorem test_meets_FlushRuns :
    (let s := inRegion { imaged with flush := some ⟨0, 0, 0⟩ } (at0 core0)
     (s.region 0).flush = some ⟨0, 0, 0⟩ ∧ liveCores s 0 = [0]) ∧
    (let s := flight ⟨0, { packet 0xA 0 0 with body := BitVec.ofNat 128 (1 * 2 ^ 104) }, false, 0, none⟩ (at0 core0)
     faultFlight s 0 1 = some 0 ∧ (s.core 0).run = .issuing) ∧
    (let s := flight ⟨0, { packet 0xA 0 0 with body := BitVec.ofNat 128 (2 * 2 ^ 104) }, false, 0, none⟩ (at0 { core0 with run := .stopped })
     faultFlight s 0 2 = some 0 ∧ (s.core 0).run = .stopped ∧ (s.core 0).fence = none ∧ s.thermal.state ≠ 1) ∧
    (let s := inRegion { imaged with flush := some ⟨1, 0, 0⟩ } (at0 { core0 with fence := some 2 })
     (s.region 0).flush = some ⟨1, 0, 0⟩ ∧ (s.region 0).img = some bound0 ∧ bound0.img.stages ≤ 1 ∧ liveCores s 0 = [] ∧ s.mesh = [] ∧
     (s.region 0).relocs = [] ∧ (s.region 0).steps = [] ∧ bound0.grouped = false) ∧
    (∀ st ∈ [0, 1], let b := { bound0 with img := { img0 with stages := 2, stage := st }, flushed := [1] }
     let s := inRegion { imaged with img := some b, flush := some ⟨1, 0, 0⟩ } (at0 { core0 with run := .stopped })
     (s.region 0).img = some b ∧ liveCores s 0 = [0] ∧ (s.core 0).run = .stopped ∧ faultFlight s 0 1 = none ∧ s.mesh = [] ∧ b.grouped = true ∧
     b.img.stage = st ∧ (st = 0 → ∀ i ∈ b.others, b.flushed.contains i = true)) := by decide +kernel
theorem test_meets_CoreDeath :
    ((at0 core0).core 0).fence = none ∧ 0x0201 ≤ 0x0205 ∧ (at0 core0).regions = [] ∧
    (let s := { at0 core0 with now := 1497966 }
     (s.core 0).run = .issuing ∧ (s.core 0).held = none ∧ 2 ^ 20 ≤ cyclesOf (s.now - (s.core 0).lastIssue)) ∧
    ((awake core0).preg (powerOf 0)).state = .run ∧
    (({ State.reset with power := { Power.reset with regions := [(0, { PRegion.reset with state := .nap })] } }).preg (powerOf 0)).state = .nap := by decide +kernel

/-! ## States that meet the hypotheses of the statements: the host link, the dictionary -/

/-- A command block with some little-endian fields: offset, length, value. -/
def fields (n : Nat) (l : List (Nat × Nat × Nat)) : Bytes :=
  l.foldl (fun b x => patchAt b x.1 (leBytes x.2.1 x.2.2)) (List.replicate n 0)
/-- A command that waits behind its handle. -/
def hout (op : Nat) (l : List (Nat × Nat × Nat)) : HOut :=
  { queue := 0, index := 0, tag := 0, cmd := fields 64 ((0, 1, op) :: l), session := 0, since := 0, running := false, left := 0, tags := [], num := 0 }
def sq0 (site ring : Nat) : Sq := { site := site, ring := ring, base := 0, entries := 16, head := 0, tail := 0, reading := 0, failed := false }
def ring0 (site kind : Nat) : Ring :=
  { site := site, kind := kind, log2 := 8, vector := none, base := 0, written := 0, readIdx := 0, reserved := 0, mask := 0, drops := 0, lastIrq := none,
    irqHeld := false }
/-- The block after its start, with every site up, the admin queue of site 0, rings of each kind and queue 9 on site 0; handle 7 as given. -/
def host7 (o : HOut) : HostIf :=
  { sitesUp with sqs := [(0, sq0 0 524284), (9, sq0 0 6)], handles := [(7, ⟨0, some o⟩)]
                 rings := [(4, ring0 0 2), (5, ring0 0 3), (6, ring0 0 1), (8, ring0 0 0), (10, ring0 0 0), (524284, ring0 0 1)] }
def asked (o : HOut) : State := { at0 core0 with host := host7 o, boot := { Boot.reset with phase := .complete } }

theorem test_host_tables (o : HOut) : Tbl.wf (asked o).host.sqs ∧ Tbl.wf (asked o).host.rings ∧ Tbl.wf (asked o).host.handles := by
  simp [asked, host7, Tbl.wf]

/-- CREATE_SQ, DELETE_SQ, CREATE_RING, DELETE_RING, SET_EVENTS and NOP, with the first and the last queue and ring number. -/
theorem test_meets_QueueCommands :
    (∀ q ∈ [4, 1023], let o := hout 0x01 [(16, 2, q), (24, 8, 64), (32, 4, 65536), (20, 4, 6)]
     let s := asked o
     s.cmd? 7 = some o ∧ o.running = false ∧ o.opcode = 0x01 ∧ fieldAt o.cmd 16 2 = q ∧ s.sq? q = none ∧ s.host.sqs.length < 1024 ∧
     fieldAt o.cmd 24 8 % 64 = 0 ∧ isPow2 (fieldAt o.cmd 32 4) = true ∧ fieldAt o.cmd 32 4 = 65536 ∧
     ((s.ring? (fieldAt o.cmd 20 4)).map fun r => (r.kind, r.site)) = some (1, cmdSite s o)) ∧
    (let o := hout 0x02 [(16, 2, 9)]
     o.opcode = 0x02 ∧ 4 ≤ fieldAt o.cmd 16 2 ∧ ((asked o).sq? (fieldAt o.cmd 16 2)).isSome ∧ queueBusy (asked o) 9 = false) ∧
    (∀ n ∈ [0, 524283], let o := hout 0x03 [(16, 4, n), (20, 1, 3), (21, 1, 24), (24, 8, 4096)]
     o.opcode = 0x03 ∧ fieldAt o.cmd 16 4 = n ∧ (asked o).ring? n = none ∧ fieldAt o.cmd 20 1 ≤ 3 ∧ fieldAt o.cmd 21 1 = 24 ∧
     fieldAt o.cmd 24 8 % 4096 = 0) ∧
    (let o := hout 0x04 [(16, 4, 8)]
     o.opcode = 0x04 ∧ fieldAt o.cmd 16 4 < 524284 ∧ ((asked o).ring? 8).isSome ∧ ringNamed (asked o) 8 = false) ∧
    (let o := hout 0x05 [(16, 4, 4)]
     o.opcode = 0x05 ∧ ((asked o).ring? (fieldAt o.cmd 16 4)) = some (ring0 0 2)) ∧
    (hout 0x7F []).opcode = 0x7F := by decide +kernel
/-- A flit of the host: a numbered one with a Seq, or an idle one. -/
def flitOf (kind seq : Nat) : Bytes := flitBytes ⟨kind, seq, 0, false, false, 15, 0, 0, 0, true⟩ []
theorem test_meets_FlitsInOrder :
    let s := { State.reset with host := sitesUp }
    ((s.site 3).mod 1).up = true ∧
    (∀ k n, (flitHdrOf (flitOf k n)).crcOk = true) ∧ (flitHdrOf []).crcOk = false ∧
    ((flitHdrOf (flitOf 1 1)).kind = 1 ∧ (flitHdrOf (flitOf 2 1)).kind = 2 ∧
      (flitHdrOf (flitOf 1 1)).seq = (((s.site 3).mod 1).rxSeq + 1) % 4096) ∧ (flitHdrOf (flitOf 0 0)).kind = 0 ∧
    (flitHdrOf (flitOf 3 1)).kind > 2 ∧ (flitHdrOf (flitOf 1 0)).seq ≠ (((s.site 3).mod 1).rxSeq + 1) % 4096 := by
  refine ⟨by decide +kernel, fun k n => crcOk_flitBytes _ _, ?_⟩
  decide +kernel
/-- The block with site 2 as given. -/
def site2 (x : Site) (now : Nat) : State := { asked (hout 0 []) with host := { sitesUp with sites := sitesUp.sites.set 2 x }, now := now }
theorem test_meets_HostModules :
    (let s := site2 Site.reset 0
     (s.site 2).populated = true ∧ (s.site 2).lost = false ∧ ((s.site 2).mod 1).training = true ∧ s.boot.phase ≠ .off) ∧
    (let s := site2 ((sitesUp.sites[0])) 0
     ((s.site 2).mod 0).up = true ∧ ((s.site 2).mod 1).up = true ∧ ((s.site 2).mod 1).down = false) ∧
    (let x := { Mod.reset with up := true, flits := [⟨1, 1, 15, [], 0⟩] }
     let s := site2 { sitesUp.sites[0] with mods := sitesUp.sites[0].mods.set 0 x } 10000001
     ((s.site 2).mod 0).up = true ∧ ((s.site 2).mod 0).flits ≠ [] ∧ ((s.site 2).mod 0).heldFrom + 1000 * s.setting 0x1100 1 10000 < s.now) ∧
    (let s := site2 { sitesUp.sites[0] with mods := sitesUp.sites[0].mods.set 1 { Mod.reset with down := true } } 100000
     ((s.site 2).mod 0).up = true ∧ ((s.site 2).mod (1 - 0)).down = true ∧ (s.site 2).lost = false ∧ s.serving.ctxs = [] ∧ s.host.reads = [] ∧
     ((s.site 2).mod 0).unacked = [] ∧ s.passed ((s.site 2).mod 0).lastUse 100000 = true) ∧
    (let s := site2 Site.reset 100000000
     ((s.site 2).mod 0).training = true ∧ s.passed ((s.site 2).mod 0).downAt (1000000 * s.setting 0x1100 2 100) = true ∧
     ((s.site 2).mod (1 - 0)).down = false) ∧
    (let s := site2 { Site.reset with lost := true } 0
     entryShut s 0x1110 = false ∧ (s.site 2).populated = true ∧ (s.site 2).lost = true ∧ ((s.site 2).mod 0).up = false) := by decide +kernel
/-- The block of `asked` with reads in flight. -/
def reading (t : Tbl RdOut) : State := { asked (hout 0 []) with host := { host7 (hout 0 []) with reads := t, handles := [] } }
/-- A host message's header: Op, the length in words less one, Status, Tag, address. -/
def hdrOf (op words status tag addr : Nat) : BitVec 128 :=
  headerOf (BitVec.ofNat 64 (op * 2 ^ 56 + words * 2 ^ 40 + status * 2 ^ 32 + tag)) (BitVec.ofNat 64 addr)
theorem test_meets_HostMessages :
    (hdrTag (hdrOf 4 0 0 3 0) = 3 ∧ hdrGood 4 (hdrOf 4 0 0 3 0) = true ∧ hdrBytes (hdrOf 4 0 0 3 0) = ([1, 2, 3, 4] : Bytes).length ∧
      hdrGood 4 (hdrOf 4 0 0 3 1) = true ∧ hdrGood 4 (hdrOf 9 0 0 3 0) = false ∧
      hdrGood 5 (hdrOf 5 0 1 3 0) = true ∧ hdrStatus (hdrOf 5 0 1 3 0) = 1 ∧ hdrStatus (hdrOf 5 0 2 3 0) = 2 ∧
      (∀ a ∈ [0x08, 0x10, 0x18, 0x20], hdrGood 6 (hdrOf 6 1 0 0 a) = true ∧ hdrBytes (hdrOf 6 1 0 0 a) = 8 ∧ hdrAddr (hdrOf 6 1 0 0 a) = a) ∧
      hdrBytes (hdrOf 6 0 0 0 8) ≠ 8 ∧ hdrGood 7 (hdrOf 7 1 0 3 0x28) = true ∧ hdrBytes (hdrOf 7 1 0 3 0x28) = 8) ∧
    (((reading []).site 0).mod 0).up = true ∧ Tbl.find (reading []).host.reads 3 = none ∧ (reading []).host.handles = [] ∧
    (let r : RdOut := ⟨0, 4, .spare, none⟩
     Tbl.find (reading [(3, r)]).host.reads 3 = some r ∧ r.len = ([1, 2, 3, 4] : Bytes).length ∧ Tbl.wf (reading [(3, r)]).host.reads) ∧
    (let r : RdOut := ⟨0, 64, .commands 9 0 0, none⟩
     Tbl.find (reading [(3, r)]).host.reads 3 = some r ∧ r.data = none ∧ (reading [(3, r)]).sq? 9 = some (sq0 0 6) ∧ (sq0 0 6).reading = 0 ∧ (sq0 0 6).head = 0) ∧
    (let r : RdOut := ⟨0, 4096, .class1 0 1 2 2 0 0 1, none⟩
     Tbl.find (reading [(3, r)]).host.reads 3 = some r ∧ r.site = 0 ∧ r.len = 4096) ∧
    (((reading []).site 0).mod 0).waiting = [] ∧ (((reading []).site 0).mod 0).flits.length < 2048 ∧
    ((reading []).sq? 9 = some (sq0 0 6) ∧ (sq0 0 6).site = 0 ∧ (sq0 0 6).failed = false ∧ (15 : W64).toNat < (sq0 0 6).entries ∧
      (sq0 0 6).entries ≤ (0xF0000 : W64).toNat) ∧
    ((reading []).ring? (bits (8 : W64).toNat 18 0) = some (ring0 0 0) ∧ (reading []).serving.ctxs = [] ∧ (ring0 0 0).owed = [] ∧
      (bits (8 : W64).toNat 63 32 + 2 ^ 32 - (ring0 0 0).readIdx) % 2 ^ 32 ≤ ((ring0 0 0).written + 2 ^ 32 - (ring0 0 0).readIdx) % 2 ^ 32) ∧
    (let s := { reading [] with host := { (reading []).host with sites := sitesUp.sites.set 0 { sitesUp.sites[0] with entries := 4096, ringLog := 16 } } }
     let w := s.site 0
     w.base.toNat % 4096 = 0 ∧ w.ringBase.toNat % 4096 = 0 ∧ isPow2 w.entries.toNat = true ∧ w.entries.toNat = 4096 ∧ w.ringLog.toNat = 16 ∧
     adminBusy s 0 = false) ∧
    adminBusy (asked (hout 0 [])) 0 = true ∧
    (let x := { ring0 0 1 with irqHeld := true, vector := some 3 }
     let s := { reading [] with host := { (reading []).host with rings := [(6, x)] } }
     s.ring? 6 = some x ∧ x.irqHeld = true ∧ s.irqDue x = true ∧ x.vector = some 3) := by
  refine ⟨?_, ?_, ?_, ?_, ⟨?_, ?_, List.pairwise_singleton _ _⟩, ?_⟩ <;> decide +kernel

theorem test_meets_DictionaryCommands :
    (let o := hout 0x10 [(16, 2, 0x5010), (18, 1, 1)]
     (asked o).cmd? 7 = some o ∧ o.running = false ∧ earlierOd (asked o) o = false ∧ (asked o).boot.phase = .complete ∧ o.opcode = 0x10) ∧
    (∀ n ∈ [0, 1, 2], let o := hout 0x10 [(16, 2, 0x5010), (18, 1, 1), (24, 8, 4096), (32, 4, n)]
     fieldAt o.cmd 32 4 = n ∧ fieldAt o.cmd 24 8 % 4 = 0 ∧
     (match odReadOp (asked o) ⟨0, o.queue⟩ (adminReader (asked o) o.session) (fieldAt o.cmd 16 2) (fieldAt o.cmd 18 1) with
      | .ok v => v.length | .error _ => 0) = 2) ∧
    Tbl.wf (asked (hout 0x11 [])).od.vals ∧
    (let o := hout 0x11 [(16, 2, 0x5010), (18, 1, 1), (32, 4, 2)]
     o.opcode = 0x11 ∧ ((asked o).site (cmdSite (asked o) o)).lost = false ∧ fieldAt o.cmd 24 8 % 4 = 0 ∧ fieldAt o.cmd 16 2 = 0x5010 ∧
     fieldAt o.cmd 32 4 = 2 ∧
     ((odRow 0x5010 (fieldAt o.cmd 18 1)).map fun r => (r.acc, r.ty.size, r.lo, r.hi, r.also)) = some (.rw, some 2, 16, 255, none) ∧
     leNat [16, 0] = 16 ∧ leNat [255, 0] = 255 ∧ 255 < leNat [0, 1]) ∧
    (let o := hout 0x11 [(16, 2, 0x1000), (18, 1, 8), (32, 4, 1)]
     ((odRow (fieldAt o.cmd 16 2) (fieldAt o.cmd 18 1)).map (·.acc)) = some .ro ∧ fieldAt o.cmd 32 4 = ([1] : Bytes).length ∧
     fieldAt o.cmd 16 2 ≠ 0x4030) := by
  refine ⟨by decide +kernel, by decide +kernel, List.Pairwise.nil, by decide +kernel, by decide +kernel⟩
/-- A writer, and the block with its shadow of a group. -/
def w5 : Writer := ⟨0, 5⟩
def shadowed (g : Nat) (vals : Tbl Bytes) (now : Nat) : State :=
  { State.reset with od := { Od.reset with shadows := [⟨w5, g, vals, 0⟩] }, now := now }
theorem test_meets_DictionaryGroups :
    (∀ i ∈ [0x1020, 0x8010], entryShut (shadowed i [] 0) i = false ∧ State.reset.shadow? w5 i = none ∧ entryShut State.reset i = false) ∧
    entryShut { State.reset with boot := { Boot.reset with phase := .recovery } } 0x8010 = true ∧
    ((odRow 0x1020 2).map fun r => (r.acc, r.ty.size)) = some (.rwc, some ([7] : Bytes).length) ∧
    (let s := shadowed 0x1020 [] 60000000000
     s.shadow? w5 (groupOf 0x1020) = some ⟨w5, 0x1020, [], 0⟩ ∧ s.passed 0 (1000000000 * s.setting 0x1022 6 60) = true) ∧
    (let s := shadowed 0x1020 [(odKey 0x1020 2, [2])] 0
     s.shadow? w5 0x1020 = some ⟨w5, 0x1020, [(odKey 0x1020 2, [2])], 0⟩ ∧ candidate s w5 0x1020 1 ≤ 1 ∧ candidate s w5 0x1020 2 = 2) ∧
    candidate (shadowed 0x1020 [(odKey 0x1020 2, [0])] 0) w5 0x1020 2 = 0 ∧
    (let s := shadowed 0x8010 [] 0
     (s.shadow? w5 0x8010).isSome ∧ scopeCheck (candidate s w5 0x8010 1) (candidate s w5 0x8010 2) (candidate s w5 0x8010 3) = 0) ∧
    (let s := shadowed 0x8010 [(odKey 0x8010 3, [0, 0, 0, 0])] 0
     (s.shadow? w5 0x8010).isSome ∧ scopeCheck (candidate s w5 0x8010 1) (candidate s w5 0x8010 2) (candidate s w5 0x8010 3) = 2) := by
  decide +kernel
theorem test_meets_StoreAndActions :
    (let s := { State.reset with od := { Od.reset with pending := [(3, 0)] }, now := 100000000 }
     Tbl.find s.od.pending 3 = some 0 ∧ s.passed 0 (1000000 * s.setting 0x1F00 8 100) = true ∧ Tbl.wf s.od.pending) ∧
    ((1 : Nat) ≠ savesBlock ∧ ∀ i ∈ [0x1F00, 0x5060, 0x4010, 0x8000, 0x9300, 0x6200], entryShut State.reset i = false) ∧
    (boundRegions State.reset = [] ∧ swapsRun State.reset = false ∧ restoreSpares 0x5010 = false ∧
      ((odRow 0x5010 1).map fun r => (r.keep, r.acc)) = some (true, .rw)) ∧
    (let s := { State.reset with od := { Od.reset with select := [(w5, odKey 0x8000 1, 0xFFFF002F), (w5, odKey 0x8000 2, 32)] } }
     counterUnit (s.selection w5 (odKey 0x8000 1)) (s.selection w5 (odKey 0x8000 2)) = some (47, true)) ∧
    (State.reset.observe.sillage.length < 16384 ∧ State.reset.observe.silLost = 0 ∧
     (let s := { State.reset with observe := { State.reset.observe with silLost := 3 } }
      s.observe.sillage.length < 16383 ∧ 0 < s.observe.silLost)) ∧
    (let s := { State.reset with now := 1000000 }
     bitAt (s.setting 0x9300 1 0x80) 7 = true ∧ s.passed s.observe.markAt 1000000 = true) ∧
    ∀ r : SilRec, ∃ s : State, 16384 ≤ s.observe.sillage.length ∧ s.observe.sillage.head? = some r := by
  refine ⟨⟨by decide +kernel, by decide +kernel, List.pairwise_singleton _ _⟩, ⟨fun h => by
    have : savesBlock = 2 + Config.blockOf (odKey 0x1F00 3) % 510 := rfl
    omega, by decide +kernel⟩, by decide +kernel, by decide +kernel, by decide +kernel,
    by decide +kernel, fun r => ⟨{ State.reset with observe := { State.reset.observe with sillage := List.replicate 16384 r } }, ?_, ?_⟩⟩
  · exact Nat.le_of_eq (List.length_replicate (n := 16384) (a := r)).symm
  · simp

/-! ## States that meet the hypotheses of the statements: serving -/

/-- A request's descriptor block: 1 token asked, one prompt token, ring 8. -/
def block0 (l : List (Nat × Nat × Nat)) : Bytes := fields 192 ([(24, 4, 1), (28, 4, 4), (44, 4, 8)] ++ l)
/-- The block with region 0's image and request commands. -/
def serving0 (o : HOut) : State := inRegion imaged (asked o)
def ctx0 (st : CtxState) : Ctx := { Ctx.fresh (descriptorOf (block0 [])) 0 0 0 0 with state := st, pinned := some 4, toks := [9], done := 1 }
/-- The block with context 3. -/
def withCtx (x : Ctx) : State := { serving0 (hout 0x21 [(16, 4, 3)]) with serving := { Serving.reset with ctxs := [(3, x)] } }

theorem test_meets_Admission :
    (let o := hout 0x20 []
     (serving0 o).cmd? 7 = some o ∧ o.running = false ∧ o.opcode = 0x20) ∧
    admissible (serving0 (hout 0x20 [])) (block0 [(96, 1, 1)]) = none ∧
    (let s := serving0 (hout 0x20 [])
     let r := admissible s (block0 [])
     (r.map (·.1)) = some serv0 ∧ freeCtx s = some 0 ∧
     (r.all fun x => let d := x.2
       decide (d.promptLen ≠ 0 ∧ d.maxTokens ≠ 0 ∧ d.version = 0 ∧ d.mode ≠ 2 ∧ d.promptLen + d.maxTokens ≤ maxContext s d.region ∧
         d.vecIn = false ∧ (s.region d.region).img = some bound0 ∧ holdsAdmissions s d.region = false) &&
       (match promptBytes s d serv0 (block0 []) 0 (some [9, 0, 0, 0]) with | .ok q => decide (∀ k ∈ entries 4 q, k < serv0.vocab) | .error _ => false)) =
       true) := by decide +kernel
theorem test_meets_RequestEnds :
    (let s := withCtx (ctx0 .generate)
     let o := hout 0x21 [(16, 4, 3)]
     s.ctx? 3 = some (ctx0 .generate) ∧ ((s.ring? (ctx0 .generate).d.ring).any fun g => decide (g.owed = [] ∧ 2 ≤ g.free)) = true ∧
     (ctx0 .generate).tune = none ∧ Tbl.wf s.serving.ctxs ∧ s.cmd? 7 = some o ∧ o.opcode = 0x21 ∧
     fieldAt o.cmd 16 4 = 3 ∧ fieldAt o.cmd 20 4 = (ctx0 .generate).adm ∧ fieldAt (hout 0x21 [(16, 4, 3), (20, 4, 1)]).cmd 20 4 ≠ (ctx0 .generate).adm) ∧
    (let x := { ctx0 .generate with d := { (ctx0 .generate).d with deadline := 5 } }
     let s := { withCtx x with almanac := 5 }
     x.d.deadline ≠ 0 ∧ x.d.deadline ≤ s.almanac.toNat ∧ x.dead = false ∧ outputsInFlight s x.d.region 3 = false ∧
     outputsInFlight (inRegion { imaged with steps := [⟨0, 2, [⟨3, 1, 1, 1, false, 0⟩], 0⟩] } s) 0 3 = true) ∧
    (let s := { withCtx (ctx0 .paused) with now := 100000000 }
     (ctx0 .paused).state = .paused ∧ s.passed (ctx0 .paused).pauseFrom (1000 * s.setting (0x6100 + 0) 5 100000) = true) := by
  refine ⟨⟨by decide +kernel, by decide +kernel, by decide +kernel, List.pairwise_singleton _ _, ?_, ?_, ?_, ?_, ?_⟩, ?_⟩ <;> decide +kernel
theorem test_meets_SlotsDeliver :
    bound0.img.serving = some serv0 ∧ bound0.placed[serv0.entryCore]? = some ⟨0, [], []⟩ ∧ bound0.placed[serv0.finalCore]? = some ⟨0, [], []⟩ ∧
    slotOpen (inRegion { imaged with state := 2 } (asked (hout 0 []))) 0 = false ∧
    (let p : StepRec := ⟨0, 1, [], 0⟩
     let s := inRegion { imaged with again := [p] } (asked (hout 0 []))
     slotOpen s 0 = true ∧ (s.region 0).nextAgain false = some p ∧ (s.region 0).img = some bound0) ∧
    (let s := withCtx (ctx0 .generate)
     slotOpen s 0 = true ∧ (s.region 0).nextAgain false = none ∧ s.serving.ctxs.any (prefillable 0) = false ∧ genOrder s 0 = 3 :: [] ∧
     s.ctx? 3 = some (ctx0 .generate) ∧
     (allocFor s 0 3 ((ctx0 .generate).done + (ctx0 .generate).treeSize)).any (fun u => decide ((u.region 0).img = some bound0)) = true) := by
  decide +kernel
theorem test_meets_StepsCommit :
    (let p : StepRec := ⟨6, 2, [⟨3, 1, 1, 1, false, 0⟩], 0⟩
     let x := ctx0 .generate
     let s := inRegion { imaged with steps := [p] } (withCtx x)
     let res := fields 64 [(8, 4, 17)]
     (s.region 0).img = some bound0 ∧ bound0.img.serving = some serv0 ∧ bound0.img.stage = 0 ∧ bound0.img.stages = 1 ∧ bound0.bound = true ∧
     s.ctx? 3 = some x ∧ x.d.region = 0 ∧ x.tune = none ∧ (s.region 0).steps.find? (fun q => q.seq = 6) = some p ∧ x.dead = false ∧ x.d.mode = 0 ∧
     x.d.depth = 0 ∧ x.resultsOf 6 = [] ∧ resNode res = 0 ∧ x.d.stops.contains (resTok res) = false ∧ resTok res ≠ serv0.eosTok ∧
     x.sent + 1 < x.d.maxTokens) ∧
    (bound0.img.stage + 1 = bound0.img.stages ∧ (∀ h ∈ [(⟨3, 1, 1, 0, false, 0⟩ : Seg)], h.outs = 0)) ∧ ((ctx0 .prefill).refill = 0 ∧ (ctx0 .prefill).d.maxTokens ≠ 0 ∧ (ctx0 .prefill).dead = false) := by decide +kernel
/-- A context with one block. -/
def blocked (cb : CtxBlk) (done : Nat) : Ctx := { ctx0 .generate with blocks := [cb], toks := List.replicate 64 9, done := done }
theorem test_meets_BlocksMove :
    (let cb : CtxBlk := ⟨2, none, 0, [], true⟩
     let s := inRegion { imaged with pool := [(2, ⟨.openB, 1, []⟩)] } (withCtx (blocked cb 64))
     s.ctx? 3 = some (blocked cb 64) ∧ (blocked cb 64).blocks[0]? = some cb ∧ ((s.region 0).blk cb.blk).state = .openB ∧
     blockWritten s 0 3 0 (blocked cb 64) = true) ∧
    (let s := { inRegion { imaged with pool := [(254, ⟨.closed, 1, []⟩)] } (asked (hout 0 [])) with od := { Od.reset with vals := [(odKey 0x6280 1, [1])] } }
     ownerOf s 0 = some 0 ∧ (s.region 0).img = some bound0 ∧ vcoreAt s 0 0 = some 0 ∧ (bound0.img.cores[0]?.any fun e => e.pair?.isSome) = true ∧
     int4On s 0 = true ∧ 254 % 2 = 0 ∧ ((s.region 0).blk (254 * bound0.img.pairSize + bound0.img.pairIndex 0)).state = .closed ∧
     (s.core 0).packed.contains 254 = false ∧ usable s 0 = true ∧ (s.core 0).clockOn = true) ∧
    (let d : Bytes := [1, 2, 3]
     let cb : CtxBlk := ⟨0, some 1, 0, sha256 d, false⟩
     let x := blocked cb 64
     let s := { inRegion { imaged with windows := [(2, ⟨0, 2 ^ 40, 15, true, true⟩)] } (withCtx x) with od := { Od.reset with vals := [(odKey 0x6280 2, [2])] } }
     x.blocks = [cb] ∧ cb.frame = some 1 ∧ x.state = .generate ∧ (s.region 0).img = some bound0 ∧ framePlain s 0 x cb (some d) = some d ∧ framePlain s 0 x cb none = none ∧
     (x.blocks.zipIdx.filter fun e => e.1.frame.isSome) = [(cb, 0)] ∧
     bound0.img.pairSize ≠ 0 ∧ freeAt s 0 bound0.img.pairSize ((s.region 0).cursor % bound0.img.pairSize) = some 0 ∧ x.tune = none) ∧
    Tbl.wf (withCtx (ctx0 .generate)).serving.ctxs ∧ (63 : Nat) < 64 ∧ Tbl.find (inRegion imaged (asked (hout 0 []))).regions 0 = some imaged := by
  refine ⟨by decide +kernel, by decide +kernel, by decide +kernel, List.pairwise_singleton _ _, by decide, by decide +kernel⟩

/-! ## States that meet the hypotheses of the statements: loading, swapping and moving images -/

/-- A structure of bit fields: low bit, value (R8, R9). -/
def bitFields (n : Nat) (l : List (Nat × Nat)) : Bytes := leBytes n (l.map fun x => x.2 * 2 ^ x.1).sum
/-- A control part of one core with no program and two shards for the host: the header of R256, the sections 2, 3, 5 and 10, their tables. -/
def control0 (version : Nat) : Bytes :=
  bitFields 64 [(480, 0x4D494D47), (464, 1), (448, 4), (432, 1), (424, 1), (416, 1), (384, 1), (320, version),
    (288, 256)] ++
  bitFields 16 [(120, 2), (80, 0xFFFF), (32, 128), (0, 16)] ++ bitFields 16 [(120, 3), (80, 0xFFFF), (32, 192), (0, 0)] ++
  bitFields 16 [(120, 5), (80, 0xFFFF), (32, 192), (0, 0)] ++ bitFields 16 [(120, 10), (80, 0xFFFF), (32, 192), (0, 32)] ++
  slice (bitFields 16 [(64, 255), (32, 0xFFFF), (16, 0xFFFF)]) 0 64 ++
  slice (bitFields 16 [(112, 1), (108, 1), (64, 64), (0, 512)] ++ bitFields 16 [(112, 2), (108, 1), (64, 64), (0, 576)]) 0 64
/-- A shard of zeros, and the manifest that names two of them (R377). -/
def zeros0 : Bytes := List.replicate 64 0
def manifest0 (version : Nat) : Bytes :=
  fields 64 [(0, 4, 0x4D4E4654), (4, 2, 1), (6, 2, 2), (8, 8, version), (17, 1, 1), (20, 4, 1456), (24, 8, 256)] |>.take 32 |>.append
    (sha256 (control0 version) ++ List.replicate 64 0 ++
      (fields 16 [(0, 2, 1), (2, 1, 1), (4, 4, 64)] ++ sha256 zeros0) ++ (fields 16 [(0, 2, 2), (2, 1, 1), (4, 4, 64)] ++ sha256 zeros0) ++
      fields 1456 [(11, 1, 4), (1135, 1, 6)])
/-- The key of signer slot 0: one level, H10 and W8. -/
def signer0 : Bytes := fields 60 [(3, 1, 1), (7, 1, 6), (11, 1, 4)]
/-- The manifest's signature is accepted: the signature scheme is free in the model (R378). -/
def Signed (version : Nat) : Prop :=
  hssOk .image signer0 (manSigned (manifest0 version)) (slice (manifest0 version) 224 1456) = true

/-- A region of two cores with its window and class 0 and 1 granted. -/
def pair0 : Region :=
  { region0 with se := 0x00010000, grant := 1, windows := [(2, ⟨0, 2 ^ 20, 15, true, true⟩)] }
/-- The block with region 0 as given, its power regions running, an image signer, and a command behind handle 7. -/
def loading (r : Region) (o : HOut) : State :=
  { awake core0 with regions := [(0, r)], host := host7 o, boot := { Boot.reset with phase := .complete }
                     od := { Od.reset with vals := [(odKey 0xA010 0, signer0)] } }
def image1 (version : Nat) : Image := (imageOf (control0 version)).withManifest (manifest0 version)

theorem test_control_part (v : Nat) (h : v = 4 ∨ v = 5) : parseImage (control0 v) true = some (imageOf (control0 v)) := by
  rcases h with rfl | rfl <;> decide +kernel
theorem test_manifest (v : Nat) (h : v = 4 ∨ v = 5) : manAgrees (control0 v) (imageOf (control0 v)) (manifest0 v) = true := by
  rcases h with rfl | rfl <;> decide +kernel

/-- The checks of LOAD and SWAP pass, given the signature. -/
theorem test_named (r : Region) (o : HOut) (v : Nat) (hv : v = 4 ∨ v = 5) (hw : r.windows = pair0.windows) (hs : Signed v) :
    namedImage (loading r o) 0 2 0 none (some (control0 v)) (some (manifest0 v)) = .ok (image1 v, [], control0 v) := by
  have hp := test_control_part v hv
  have hm := test_manifest v hv
  have hsig : manSigOk (signerKey (loading r o)) (manifest0 v) = true := by
    have h1 : signerKey (loading r o) 0 = some signer0 := by
      show (match Tbl.find [(odKey 0xA010 0, signer0)] (odKey 0xA010 0) with | some k => if k.length = 60 then some k else none | none => none) = _
      decide +kernel
    have h2 : fieldAt (manifest0 v) 18 2 = 0 ∧ fieldAt (manifest0 v) 6 2 = 2 ∧ fieldAt (manifest0 v) 20 4 = 1456 := by
      rcases hv with rfl | rfl <;> decide +kernel
    unfold manSigOk
    simp only [h2.1, h2.2.1, h2.2.2]
    rw [if_pos (by decide), h1]
    exact hs
  have hr : ((loading r o).region 0) = r := rfl
  have hd : decide ((loading r o).setting 0x2010 1 1 = 1) = true := by rfl
  have hc : custodyOn (loading r o) = false := by rfl
  have hi : (imageOf (control0 v)).stages = 1 ∧ (imageOf (control0 v)).windows = [] ∧ (imageOf (control0 v)).ctlBytes = 256 ∧
      slice (control0 v) 0 256 = control0 v ∧ (control0 v).length = 256 ∧ (manifest0 v).length = 1680 := by
    rcases hv with rfl | rfl <;> decide +kernel
  have hf : Tbl.find pair0.windows 2 = some ⟨0, 2 ^ 20, 15, true, true⟩ := by decide
  unfold namedImage
  simp only [hr, hw, hf, hp, hm, hd, hc, hsig, hi.1, hi.2.1, hi.2.2.1, hi.2.2.2.1, hi.2.2.2.2.1, hi.2.2.2.2.2]
  simp [image1, alignUp]


/-- The place that the engine gives the one core. -/
def place0 : Placed := ⟨0, List.range 8, (List.range 32).map (· % 4)⟩
def load0 : HOut := hout 0x30 [(16, 1, 0), (17, 1, 2)]
/-- The image placed and bound, and a load operation on it. -/
def bound1 : BoundImage := { bound0 with img := image1 4, ctl := control0 4, slot := 2, placed := [place0] }
def op0 (ph : OpPhase) : LoadOp :=
  { handle := some 7, swap := false, phase := ph, img := image1 4, slot := 2, stageTab := [], control := control0 4, shards := [], busy := [], touched := [],
    layers := 0, since := 0, reports := [], failed := none, policy := 0, drain := 0, closed := false, moved := [], spots := [], carried := [] }

/-- What answers a value is that value. -/
theorem test_ok {α : Type} [DecidableEq α] (r : Except Nat α) (v : α)
    (h : (match r with | .ok x => decide (x = v) | .error _ => false) = true) : r = .ok v := by
  cases r with
  | error e => simp at h
  | ok x => rw [of_decide_eq_true h]
/-- LOAD of a good image, its signature accepted. -/
theorem test_meets_LoadBegins (hs : Signed 4) :
    ((loading pair0 load0).cmd? 7 = some load0 ∧ load0.running = false ∧ load0.opcode = 0x30 ∧ fieldAt load0.cmd 16 1 = 0 ∧
      fieldAt load0.cmd 17 1 = 2 ∧ fieldAt load0.cmd 18 1 = 0 ∧ ((loading pair0 load0).region 0).state = 1 ∧
      ((loading pair0 load0).region 0).grant.getLsbD 0 = true ∧ ((loading pair0 load0).region 0).img = none) ∧
    namedImage (loading pair0 load0) 0 2 0 none (some (control0 4)) (some (manifest0 4)) = .ok (image1 4, [], control0 4) ∧
    placeImage (loading pair0 load0) 0 (image1 4) = (.ok ([place0], []), 0) ∧ (image1 4).shards ≠ [] ∧
    (∀ b : BoundImage, b.img = image1 4 → b.placed = [place0] → misplaced (loading pair0 load0) b = []) ∧
    ((loading { pair0 with img := some bound1 } load0).region 0).img.isSome := by
  refine ⟨by decide +kernel, test_named _ _ 4 (.inl rfl) rfl hs, ?_, by decide +kernel, ?_, by decide +kernel⟩
  · refine Prod.ext (test_ok _ _ ?_) ?_ <;> decide +kernel
  · intro b h1 h2
    unfold misplaced
    rw [h1, h2]
    decide +kernel

/-- An image with one array tile of shard 1, and its operation while it programs the array (0, 0). -/
def tile0 : TileEnt := { vcore := 0, varray := 0, format := 2, group := 0, shard := 1, offset := 0, layer := 0, host := false, slot := 0, page := 0 }
def imageT : Image := { img0 with tiles := [tile0], shards := [⟨1, false, 131392, 512⟩], cores := [⟨0, 0, 1, 255, 0, 0xFFFF, 0xFFFF⟩] }
def boundT : BoundImage := { bound1 with img := imageT, bound := false }
def opT : LoadOp := { op0 .rewrite with img := imageT, busy := [0], shards := [(1, { ShardSt.reset with arrived := true })] }
/-- An array shard without tiles, of zeros, in a rewrite. -/
def imageZ (digest : Bytes) : Image := { img0 with shards := [⟨1, false, 64, 512⟩], manifest := [⟨1, false, 64, digest⟩] }
def opZ (digest : Bytes) : LoadOp := { op0 .rewrite with img := imageZ digest, shards := [(1, { ShardSt.reset with arrived := true })] }
theorem test_meets_ShardsProgram :
    (let s := loading { pair0 with img := some bound1, op := some (op0 .verify) } load0
     let src := opSource (s.region 0) (op0 .verify)
     let h : ShardEnt := ⟨1, true, 64, 512⟩
     (s.region 0).op = some (op0 .verify) ∧ (op0 .verify).failed = none ∧ bound1.bound = true ∧ (s.region 0).img = some bound1 ∧ (inFlightShards (s.region 0) (op0 .verify)).contains 1 = true ∧
     src.1.shards.find? (fun x => x.shard = 1) = some h ∧ goodShard s 0 (op0 .verify) h (some zeros0) = some zeros0 ∧
     shardOk src.1 1 zeros0 (othersOn src.1 (op0 .verify) 1) = true ∧
     (src.1.shards.any fun g => g.shard ≠ 1 && !((op0 .verify).shard g.shard).arrived) = true) ∧
    (let o (n : Nat) : LoadOp := { op0 .loadProgram with shards := [(1, { ShardSt.reset with failures := n })] }
     let s (n : Nat) := loading { pair0 with img := some { bound1 with bound := false }, op := some (o n) } load0
     (inFlightShards ((s 2).region 0) (o 2)).contains 1 = true ∧
     (Tbl.find ((s 2).region 0).windows (opSource ((s 2).region 0) (o 2)).2.1).isSome ∧ goodShard (s 2) 0 (o 2) ⟨1, true, 64, 512⟩ none = none ∧
     ((o 2).shard 1).failures = 2 ∧ ((o 3).shard 1).failures = 3) ∧
    (let s := loading { pair0 with img := some boundT, op := some opT } load0
     opT.failed = none ∧ s.thermal.state = 0 ∧ s.power.auxLost = none ∧ usable s 0 = true ∧ ((s.core 0).arr 0).subst = [] ∧
     ((s.core 0).arr 0).worn = [] ∧
     (s.regions.find? (fun e => match e.2.op with | some x => x.busy.contains (32 * 0 + 0) | none => false)).map (·.1) = some 0 ∧
     (wantedShards (s.region 0) opT).findSome? (fun h => ((shardTiles (opSource (s.region 0) opT).1 (opSource (s.region 0) opT).2.2 h).find? fun x =>
       x.2.2 = (0, 0)).map fun x => (h, x)) = some (1, 0, tile0, (0, 0)) ∧ ((s.core 0).arr 0).colEvents = [] ∧
     ((s.core 0).arr 0).fullWrites + 1 < 1000000) ∧
    (∀ good ∈ [true, false], let d := if good then sha256 zeros0 else []
     let s := loading { pair0 with img := some { bound1 with img := imageZ d, bound := false }, op := some (opZ d) } load0
     let src := opSource (s.region 0) (opZ d)
     (wantedShards (s.region 0) (opZ d)).contains 1 = true ∧ shardTiles src.1 src.2.2 1 = [] ∧ shardWritten s (opZ d) ((opZ d).shard 1) [] = true ∧ setsFree s [] = true ∧
     (rebuildShard (s.draw 0).2 (s.draw 0).1 64 ((opZ d).shard 1) []).1 = zeros0 ∧
     (src.1.manifest.any fun e => e.shard = 1 && e.digest = sha256 zeros0) = good ∧ ((opZ d).shard 1).failures < 3) ∧
    setsFree (loading pair0 load0) [(0, tile0, (0, 0))] = true ∧
    setsFree ({ loading pair0 load0 with cores := [(0, core0.setSet 0 { core0.set 0 with use := 4 })] } : State) [(0, tile0, (0, 0))] = false := by
  refine ⟨?_, ?_, ?_, ?_, ?_, ?_⟩ <;> decide +kernel
theorem test_meets_ImagesLeaveAndReturn :
    (let o := hout 0x31 [(16, 1, 0)]
     let s := loading { pair0 with img := some bound1 } o
     (s.region 0).img = some bound1 ∧ s.cmd? 7 = some o ∧ o.running = false ∧ o.opcode = 0x31 ∧ fieldAt o.cmd 16 1 = 0) ∧
    (let b := { bound1 with bound := false }
     let s := loading { pair0 with img := some b } load0
     b.bound = false ∧ (s.region 0).op = none ∧ s.boot.phase = .complete ∧ Tbl.find (s.region 0).windows b.slot = some ⟨0, 2 ^ 20, 15, true, true⟩ ∧
     b.img.ctlBytes ≤ 2 ^ 20 ∧ sha256 (control0 4) = b.img.ctlDigest ∧
     (bindImage (winAsk s 0 b.slot 0 b.img.ctlBytes) 0 b (control0 4) true).any (fun u => decide (∀ p ∈ b.placed, ((startCores u b).core p.core).fence = none)) = true) := by
  decide +kernel
/-- SWAP of a good image of another version, its signature accepted, and the phases of a swap. -/
theorem test_meets_SwapPhases (hs : Signed 5) :
    (let o := hout 0x32 [(16, 1, 0), (17, 1, 2)]
     let s := loading { pair0 with img := some bound1 } o
     (s.region 0).img = some bound1 ∧ s.cmd? 7 = some o ∧ o.running = false ∧ o.opcode = 0x32 ∧ fieldAt o.cmd 16 1 = 0 ∧ (s.region 0).state = 1 ∧
     (s.region 0).grant.getLsbD 0 = true ∧ fieldAt o.cmd 18 1 = 0 ∧ bound1.active = true ∧ (s.region 0).op = none ∧ (s.region 0).relocs = [] ∧
     fieldAt o.cmd 17 1 = 2 ∧ namedImage s 0 2 0 none (some (control0 5)) (some (manifest0 5)) = .ok (image1 5, [], control0 5) ∧
     swapFits bound1 (image1 5) = true ∧ (image1 5).shards ≠ []) ∧
    (let o := { op0 .drain with swap := true, closed := true }
     let s := loading { pair0 with img := some bound1, op := some o } load0
     LoadOp.later o = false ∧ o.failed = none ∧ drainShut s 0 o = true ∧ ((endSwapJobs (setOp s 0 { o with closed := true }) 0).region 0).steps = [] ∧
     ((endSwapJobs (setOp s 0 { o with closed := true }) 0).region 0).flush = none) ∧
    (let o := { op0 .drain with swap := true }
     let s := loading { pair0 with img := some bound1, op := some o, steps := [⟨0, 1, [], 0⟩] } load0
     o.closed = false ∧ drainShut s 0 o = true ∧ ((endSwapJobs (setOp s 0 { o with closed := true }) 0).region 0).steps ≠ []) ∧
    (let s := loading { pair0 with img := some bound1, split := true, state := 2 } load0
     (s.region 0).split = true ∧ (s.region 0).op = none) ∧
    (∀ st ∈ [0, 1], let o := { op0 .rewrite with swap := true, img := { image1 5 with stages := 2, stage := st } }
     let s := loading { pair0 with img := some bound1, op := some o } load0
     o.failed = none ∧ allVerified (s.region 0) o = true ∧ LoadOp.later o = (st == 1) ∧ LoadOp.lead o = (st == 0) ∧
     (bindImage (winAsk s 0 o.slot 0 o.img.ctlBytes) 0 { bound1 with img := o.img, slot := o.slot, stageTab := o.stageTab } (control0 5) false).isSome = true) ∧
    (let o := { op0 .drain with swap := true, drain := 5 }
     let s := { loading { pair0 with img := some bound1, op := some o } load0 with now := 5000000 }
     LoadOp.later o = false ∧ o.policy = 0 ∧ o.closed = false ∧ s.passed o.since (o.drain * 1000000) = true) ∧
    (let o := { op0 .rewrite with swap := true, img := image1 5 }
     let s := loading { pair0 with img := some bound1, op := some o } load0
     o.failed = none ∧ allVerified (s.region 0) o = true ∧ sha256 (control0 5) = o.img.ctlDigest ∧ LoadOp.grouped o = false ∧ s.serving.ctxs = [] ∧
     (bindImage (winAsk s 0 o.slot 0 o.img.ctlBytes) 0 { bound1 with img := o.img, slot := o.slot, stageTab := o.stageTab } (control0 5) false).isSome = true) ∧
    (let o := { op0 .verify with swap := true, img := { image1 5 with stages := 2 } }
     let s := { loading { pair0 with img := some bound1, op := some o } load0 with now := 600000000000 }
     LoadOp.grouped o = true ∧ s.passed o.since (s.setting 0x6480 7 600000 * 1000000) = true ∧ s.serving.ctxs = [] ∧
     s.setting 0x2010 1 1 ≠ 0) := by
  refine ⟨⟨?_, ?_, ?_, ?_, ?_, ?_, ?_, ?_, ?_, ?_, ?_, ?_, test_named _ _ 5 (.inr rfl) rfl hs, ?_, ?_⟩, ?_, ?_, ?_, ?_⟩ <;> decide +kernel

/-- A record, and the block where the array (0, 0) holds it (R279): the digest is that of the whole record. -/
def record0 : Bytes := slice [2] 0 (recLen [2])
def moving (r : Region) : State :=
  let s := loading r (hout 0x33 [])
  s.setCore 0 ((s.core 0).setArr 0 { Arr.reset with digest := sha256 record0 })
def boundM : BoundImage := { bound0 with img := imageT, ctl := [], slot := 2, placed := [place0] }
/-- The core that the virtual core moves to. -/
def placeM : Placed := { place0 with core := 1 }
theorem test_record (r : Region) : relocRecords (moving r) boundM [0] [some [2]] = .ok [(0, tile0, record0)] := by
  have hd : ((moving r).core 0).arr 0 = { Arr.reset with digest := sha256 record0 } := rfl
  have ht : (boundM.img.tiles.zipIdx.filter fun x => [0].contains x.1.vcore && !x.1.host) = [(tile0, 0)] := by decide
  have hp : tilePlace boundM.placed tile0 = some (0, 0) := by decide
  have hj : ([some ([2] : Bytes)][0]?).join = some [2] := rfl
  simp only [relocRecords, ht, List.zipIdx, List.mapM_cons, List.mapM_nil, hj, hp, hd]
  rw [if_pos (show sha256 (slice [2] 0 (recLen [2])) = sha256 record0 from rfl)]
  rfl
theorem test_meets_CoresMove :
    (let o := hout 0x33 [(16, 1, 0), (20, 4, 1)]
     let s := loading { pair0 with img := some boundM } o
     let es := entries 4 (slice (leBytes 4 0x00000000) 0 4)
     s.cmd? 7 = some o ∧ o.opcode = 0x33 ∧ fieldAt o.cmd 16 1 = 0 ∧ fieldAt o.cmd 20 4 = 1 ∧ (∀ e ∈ es, e / 65536 ≤ 127 ∧ e % 65536 ≤ 149 ∧
       inRect (s.region 0).nw (s.region 0).se (coreKey (e / 65536) (e % 65536)) = true) ∧ (s.region 0).state = 1 ∧ s.setting 0x2010 1 1 = 1 ∧
     ([0].filterMap fun c => holderOf s 0 c) = [0] ∧
     inRect (s.region 0).nw (s.region 0).se (coreKey 2 0) = false ∧ ¬ (128 ≤ 127)) ∧
    (let s := moving { pair0 with img := some boundM, relocs := [([0], [0], some 7)] }
     (s.region 0).relocs = ([0], [0], some 7) :: [] ∧ (s.region 0).img = some boundM ∧ (s.region 0).state = 1 ∧ (s.region 0).op = none ∧
     boundM.bound = true ∧ (s.region 0).flush = none ∧ (s.region 0).steps = [] ∧
     stillToMove s boundM [0] [0] = [0] ∧ stillToMove s boundM [0] [5] = [] ∧ sourceOpen (s.region 0) boundM = true ∧
     0 ∉ misplaced s { boundM with placed := [placeM] }) ∧
    relocPlaces (moving { pair0 with img := some boundM }) 0 boundM [0] [0] true = (some [placeM], 0) ∧ (relocPlaces (moving { pair0 with img := some boundM, se := 0 }) 0 boundM [0] [0] true).1 = none ∧
    (let o := hout 0x34 [(16, 1, 63), (17, 1, 15), (24, 8, 4096), (32, 8, 2 ^ 40 - 4096), (18, 1, 3), (19, 1, 15)]
     let s := asked o
     s.cmd? 7 = some o ∧ o.opcode = 0x34 ∧ fieldAt o.cmd 16 1 = 63 ∧ fieldAt o.cmd 17 1 = 15 ∧ slotReads s 63 15 = [] ∧
     fieldAt o.cmd 24 8 % 4096 = 0 ∧ fieldAt o.cmd 32 8 % 4096 = 0 ∧ fieldAt o.cmd 32 8 = 2 ^ 40 - 4096 ∧ fieldAt o.cmd 18 1 = 3 ∧
     fieldAt o.cmd 19 1 = 15 ∧ ∀ i < 4, bitAt 15 i = true → (s.site i).up = true) ∧
    (let o := hout 0x34 [(17, 1, 2)]
     let a := asked o
     let s := { loading pair0 o with host := { a.host with writes := [(hubKey 0 1 2, ⟨2, none, false, 1⟩)] } }
     s.cmd? 7 = some o ∧ fieldAt o.cmd 32 8 = 0 ∧ slotReads s 0 2 ≠ []) ∧
    fieldAt (hout 0x34 [(17, 1, 15)]).cmd 32 8 = 0 ∧ Tbl.wf pair0.windows := by
  refine ⟨by decide +kernel, by decide +kernel, by decide +kernel, by decide +kernel, by decide +kernel, by decide +kernel, by decide +kernel, List.pairwise_singleton _ _⟩

/-! ## States that meet the hypotheses of the statements: upkeep, keys, starts -/

/-- Core 0 with array 5 in W8, and set 1 with a calibration task and a late sample. -/
def upkept (x : ASet) : Core := { core0 with arrays := [(5, { Arr.reset with format := 5, calGroup := 6 })], sets := [(1, x)] }
def sample5 : Sample := { array := 5, trans := false, input := [], sums := [], skip := [], since := 0, group := 0 }
theorem test_meets_UpkeepWork :
    (let s := State.reset
     (s.preg 0).hot ≤ degC 55 ∧ (({ s with power := { s.power with regions := [(239, { PRegion.reset with hot := degC 65 })] } }).preg 239).hot = degC 65) ∧
    (let s := awake (upkept { ASet.reset with tasks := [⟨6, 5⟩] })
     upkeepPower s 0 = true ∧ ((s.core 0).set 1).slice = none ∧ slotOk s (s.core 0) 1 = true ∧ nextTask s 0 1 false = some ⟨6, 5⟩ ∧
     forcedTask s ((s.core 0).set 1) ⟨6, 5⟩ = false) ∧
    (let s := { awake (upkept { ASet.reset with sample := some sample5 }) with now := 20000000 }
     let x := (s.core 0).set 1
     x.sample = some sample5 ∧ s.passed sample5.since 20000000 = true ∧ upkeepPower s 0 = true ∧ x.slice = none ∧
     taskOk s 0 (s.core 0) ⟨1, 5⟩ = true ∧ forcedOk s (s.core 0) 1 ⟨1, 5⟩ = true ∧
     nextTask s 0 1 (!slotOk s (s.core 0) 1) = some ⟨1, 5⟩ ∧ forcedTask s x ⟨1, 5⟩ = true) ∧
    (let s := at0 (upkept { ASet.reset with slice := some ⟨⟨4, 5⟩, 0, false⟩, use := 5 })
     ((s.core 0).set 1).slice = some ⟨⟨4, 5⟩, 0, false⟩ ∧ (s.preg (powerOf 0)).upkeepFrom = none ∧ ((s.core 0).set 1).use = 5 ∧ ((s.core 0).arr 5).state = 0 ∧ ((s.core 0).arr 5).calGroup < 7 ∧
     ownerOf s 0 = none) ∧
    (let o (w : Nat) := hout 0x51 [(16, 4, w)]
     let s (w : Nat) := { asked (o w) with cores := [(0, upkept ASet.reset)] }
     (s 0).cmd? 7 = some (o 0) ∧ (o 0).opcode = 0x51 ∧ fieldAt (o 0).cmd 16 4 = 0 ∧ calScope 0 0 = true ∧ calScope 0xFFFFFFFF 0 = true ∧
     usable (s 0) 0 = true ∧ Tbl.find ((s 0).core 0).arrays 5 = some { Arr.reset with format := 5, calGroup := 6 } ∧
     fieldAt (o 0x800000).cmd 16 4 / 65536 = 128 ∧ fieldAt (o 150).cmd 16 4 % 65536 = 150) := by decide +kernel

/-- A firmware image of one byte of code, with the types of a vendor's key and signature (R553). -/
def firmware0 : Bytes := fields 5632 [(12, 4, 1), (23, 1, 2), (27, 1, 7), (31, 1, 3), (132, 1, 1), (140, 1, 3), (2320, 1, 7), (2804, 1, 7),
  (2808, 1, 3), (2864, 1, 3), (5044, 1, 7)]
theorem test_firmware_types : keyTypesOk .vendor (fwKey firmware0) = true ∧ sigTypesOk .vendor (fwKey firmware0) (slice firmware0 129 5396) = true := by
  decide +kernel
/-- The block with a session. -/
def session0 : Session := { admin := false, mac := [], dataKey := [], kvKey := [], source := none, counter := 0, used := 0, peer := 0, resp := [] }
def sessioned (o : HOut) (now : Nat) : State :=
  { asked o with boot := { (asked o).boot with sessions := [(1, session0)] }, now := now }
/-- The tuning parameters of R329 on region 0. -/
def tune0 : Bytes := fields 128 [(0, 2, 1), (4, 1, 8), (32, 4, 1), (36, 4, 64), (48, 1, 2), (49, 1, 2), (64, 8, 64)]
/-- Signing, opening of keys and the vendor's key are free in the model: where a statement needs one to succeed, it is assumed here. -/
theorem test_meets_KeysAndFirmware (hf : fwSigned firmware0 = true) (k : Bytes)
    (hk : unwrapKey (asked (hout 0x58 [])) (List.replicate 1644 0) = some k) :
    (let o := hout 0x50 [(40, 4, 7148)]
     let s := { asked o with boot := { (asked o).boot with signing := some (3, []) } }
     s.boot.signing = some (3, []) ∧ s.cmd? 7 = some o ∧ o.running = false ∧ o.opcode = 0x50 ∧ attestRefusal s o = none ∧ s.boot.signing.isSome ∧ s.boot.attests = []) ∧
    (let o := hout 0x50 [(40, 4, 7147)]
     (asked o).boot.leafSound = true ∧ (asked o).boot.leaf < 2 ^ 30 ∧ fieldAt o.cmd 40 4 < attestLength (asked o)) ∧
    (let o := hout 0x56 [(32, 4, 1592)]
     let b := fields 1592 [(0, 4, 1)]
     ((asked o).site (cmdSite (asked o) o)).lost = false ∧ fieldAt o.cmd 24 8 % 4 = 0 ∧ o.opcode = 0x56 ∧ b.length = 1592 ∧ fieldAt o.cmd 32 4 = 1592 ∧ fieldAt b 0 4 = 1 ∧ (asked o).boot.sessions.length < 256) ∧
    (let o := { hout 0x57 [] with session := 1 }
     o.opcode = 0x57 ∧ (sessioned o 0).session? o.session = some session0) ∧
    ((hout 0x58 []).opcode = 0x58 ∧ fieldAt (hout 0x58 [(16, 1, 63)]).cmd 16 1 < 64 ∧ (List.replicate 1644 (0 : Byte)).length = 1644 ∧
      unwrapKey (asked (hout 0x58 [])) (List.replicate 1644 0) = some k) ∧
    (let o := hout 0x54 [(32, 4, 5632)]
     o.opcode = 0x54 ∧ fieldAt o.cmd 32 4 = firmware0.length ∧ firmware0 ≠ [] ∧ firmware0.length ≤ 4194304 ∧ (asked o).boot.activeBank ≤ 1 ∧
     (asked o).boot.minSec ≤ fwSecurity firmware0) ∧
    fwSigned firmware0 = true ∧ fwSigned [1] = false ∧
    ((hout 0x55 []).opcode = 0x55 ∧ (asked (hout 0x55 [])).boot.written = false) ∧
    (let s := { loading { pair0 with img := some bound0 } (hout 0x40 []) with od := Od.reset }
     (hout 0x40 []).opcode = 0x40 ∧ tuneOk s (tuneParams tune0) = true ∧ tuneOk s (tuneParams []) = false) ∧
    (let s := asked (hout 0 [])
     s.boot.phase = .complete ∧ s.boot.treeOk = false ∧ s.boot.leafSound = true ∧ s.boot.attests = [] ∧ boundRegions s = [] ∧ s.serving.ctxs = [] ∧
     s.serving.jobs = [] ∧ entryShut s 0x2020 = false ∧ custodyOn s = false ∧ noAdminKey s = true ∧ mayTurn s ⟨1, 5⟩ = true ∧ Tbl.wf s.od.vals) ∧
    (custodyOn { sessioned (hout 0 []) 0 with od := { Od.reset with vals := [(odKey 0x2020 1, [1])] } } = true ∧ session0.admin = false) ∧
    noAdminKey { State.reset with od := { Od.reset with vals := [(odKey 0xA020 0, signer0)] } } = false ∧
    (let s := sessioned (hout 0 []) 3600000000000
     s.session? 1 = some session0 ∧ s.passed session0.used (1000000000 * s.setting 0x2020 3 3600) = true ∧ Tbl.wf s.boot.sessions) := by
  refine ⟨by decide +kernel, by decide +kernel, by decide +kernel, by decide +kernel, ⟨by decide +kernel, by decide +kernel, by decide +kernel, hk⟩,
    by decide +kernel, hf, by decide +kernel, by decide +kernel, by decide +kernel, ⟨?_, ?_, ?_, ?_, ?_, ?_, ?_, ?_, ?_, ?_, ?_, List.Pairwise.nil⟩,
    by decide +kernel, by decide +kernel, ⟨by decide +kernel, by decide +kernel, List.pairwise_singleton _ _⟩⟩ <;> decide +kernel

/-- The boot record of the factory, with a count of attempts. -/
def record (tries : Nat) : StoreCopy := .make 0 0 0 (.raw [0, 0xFF, BitVec.ofNat 8 tries])
/-- The block before a start, with a firmware bank and the boot record. -/
def banked (b : Bytes) (ph : Phase) (tries : Nat) : State :=
  { State.reset with boot := { Boot.reset with banks := Boot.reset.banks.set 0 b, phase := ph }
                     od := { Od.reset with blocks := [(0, .both (record tries))] } }
theorem test_record_loads (b : Bytes) (ph : Phase) (n : Nat) : ((banked b ph n).storeBlk 0).load 0 0 = some (record n) :=
  StoreBlk.load_both _ 0 0 (StoreCopy.sound_make _ _ _ _ _ (Nat.le_refl 0))
/-- Starts; the signatures and key roots are free in the model, and are assumed to agree. -/
theorem test_meets_Starts (u : Bytes) (b puf : Bytes) (hv : fwVerifies b 0 = true) (hr : rootKey (banked b .off 0) puf = some u)
    (hi : identityOk { banked b .off 0 with boot := { (banked b .off 0).boot with keys := some (deriveKeys u), activeBank := 0 } } = true) :
    (let s := banked b .off 0
     let d := (record 0).data.bytes
     s.boot.phase = .off ∧ max s.boot.attempts (fieldAt d 2 1) < 3 ∧ fieldAt d 1 1 = 0xFF ∧ fieldAt d 0 1 % 2 = 0 ∧
     fwVerifies (s.bank (fieldAt d 0 1 % 2)) (fieldAt d 4 4) = true ∧ rootKey s puf = some u ∧
     identityOk { s with boot := { s.boot with keys := some (deriveKeys u), activeBank := fieldAt d 0 1 % 2 } } = true) ∧
    ((banked b (.trigger 1) 3).boot.phase = .trigger 1 ∧ max (banked b (.trigger 1) 3).boot.attempts (fieldAt (record 3).data.bytes 2 1) = 3) ∧
    (let s := banked b (.trigger 2) 0
     let w := { s with boot := { s.boot with keptDigest := sha256 (fwImage (s.bank 0)) } }
     w.boot.phase = .trigger 2 ∧ sha256 (fwImage (w.bank (fieldAt (record 0).data.bytes 0 1 % 2))) = w.boot.keptDigest) ∧
    (let w := banked b (.trigger 3) 0
     w.boot.phase = .trigger 3 ∧ (w.power.enArray = true → w.power.pgArray = true)) ∧
    (let w := { banked b (.starting 1) 0 with now := 120000000000 }
     w.boot.phase = .starting 1 ∧ w.boot.inputs = none ∧ (∀ e ∈ w.regions, e.2.op = none ∧ e.2.relocs = []) ∧
     w.passed w.boot.trigAt 120000000000 = true) ∧
    ({ Boot.reset with inputs := some ⟨true, true, true, [], [], []⟩ } : Boot).inputs.isSome ∧
    (let o := hout 0x59 [(16, 1, 2)]
     (asked o).boot.phase = .complete ∧ (asked o).cmd? 7 = some o ∧ o.running = false ∧ o.opcode = 0x59 ∧ fieldAt o.cmd 16 1 = 2 ∧
     fieldAt (hout 0x59 [(16, 1, 1)]).cmd 16 1 = 1) := by
  refine ⟨⟨rfl, ?_, by decide, by decide, hv, hr, hi⟩, ⟨rfl, ?_⟩, ⟨rfl, rfl⟩, ⟨rfl, ?_⟩, ⟨rfl, rfl, ?_, ?_⟩, rfl, by decide +kernel⟩
  · exact (by decide : max 0 (fieldAt (record 0).data.bytes 2 1) < 3)
  · exact (by decide : max 0 (fieldAt (record 3).data.bytes 2 1) = 3)
  · exact fun h => absurd h (by simp [banked, State.reset, Power.reset])
  · simp [banked, State.reset]
  · exact (by decide : decide ((0 : Nat) + 120000000000 ≤ 120000000000) = true)
/-! ## States that meet the hypotheses of the statements: regions, watches, power, cooling -/

/-- The shadow of a region group: corners (0,0) and (1,1). -/
def commit0 (se : Nat) : State :=
  { awake core0 with regions := [], od := { Od.reset with shadows := [⟨w5, 0x2200, [(odKey 0x2200 1, leBytes 4 0), (odKey 0x2200 2, leBytes 4 se)], 0⟩] } }
def dump0 : Dump := { period := 10, nw := 0, se := 0, blocks := 1, number := 0, missed := 0, start := 0, last := 0 }
/-- The shadow of watch 0 on region 0, tensor 5, slot 2. -/
def watching (r : Region) : State :=
  { inRegion r (asked (hout 0 [])) with
    od := { Od.reset with shadows := [⟨w5, 0x9100, [(odKey 0x9100 2, leBytes 4 5), (odKey 0x9100 7, [2])], 0⟩] } }
def open0 : Region := { imaged with windows := [(2, ⟨0, 2 ^ 20, 15, true, true⟩)] }
def dumpReq0 : DumpReq := { core := 0, op := 3, watch := 0, walk := oneLine 3 0, req := 0, kind := 1, bundle := 0, time := 0 }
theorem test_meets_RegionsAndWatches :
    (let s := commit0 0x00010001
     entryShut s 0x2200 = false ∧ (s.shadow? w5 0x2200).isSome ∧ commitWaits (wakeFor s (candRegion s w5 0)) (candRegion s w5 0) = false ∧
     commitCheck (wakeFor s (candRegion s w5 0)) 0 (candRegion s w5 0) = 0) ∧
    (let s := { commit0 0x00010001 with power := Power.reset }
     (s.shadow? w5 0x2200).isSome ∧ commitWaits (wakeFor s (candRegion s w5 0)) (candRegion s w5 0) = true) ∧
    (∀ i ∈ [0x2200, 0x9100], State.reset.shadow? w5 i = none ∧ entryShut State.reset i = false) ∧
    (let s := commit0 0x00800000
     (s.shadow? w5 0x2200).isSome ∧ commitWaits (wakeFor s (candRegion s w5 0)) (candRegion s w5 0) = false ∧
     cornersOk (candRegion s w5 0) = false) ∧
    regionBound (inRegion region0 State.reset) 0 = false ∧ regionBound (inRegion imaged State.reset) 0 = true ∧
    (let o (p : Nat) := hout 0x53 [(16, 4, 5), (20, 4, p)]
     (asked (o 10)).cmd? 7 = some (o 10) ∧ (o 10).running = false ∧ (o 10).opcode = 0x53 ∧ (asked (o 10)).ring? (fieldAt (o 10).cmd 16 4) = some (ring0 0 3) ∧
     fieldAt (o 10).cmd 20 4 = 10 ∧ fieldAt (o 10000000).cmd 20 4 = 10000000 ∧ (asked (o 10)).observe.dumps.length < 4 ∧ fieldAt (o 0).cmd 20 4 = 0 ∧
     fieldAt (o 9).cmd 20 4 = 9) ∧ Tbl.wf (asked (hout 0x53 [])).observe.dumps ∧
    (let o := hout 0x52 [(16, 1, 0), (17, 1, 1), (18, 1, 2), (24, 8, 64), (32, 8, 4096)]
     let s := inRegion open0 (asked o)
     o.opcode = 0x52 ∧ fieldAt o.cmd 16 1 = 0 ∧ fieldAt o.cmd 17 1 = 1 ∧ fieldAt o.cmd 18 1 = 2 ∧ fieldAt o.cmd 24 8 % 64 = 0 ∧
     (s.region 0).img = some bound0 ∧ (s.region 0).vigil = none ∧ Tbl.find (s.region 0).windows 2 = some ⟨0, 2 ^ 20, 15, true, true⟩ ∧
     fieldAt o.cmd 24 8 + fieldAt o.cmd 32 8 ≤ 2 ^ 20 ∧ 4096 + (syncSection s 0).length ≤ fieldAt o.cmd 32 8 ∧
     fieldAt (hout 0x52 [(17, 1, 2)]).cmd 17 1 = 2) ∧
    (let s := { asked (hout 0 []) with observe := { Observe.reset with dumps := [(5, dump0)] }, almanac := 10000 }
     Tbl.find s.observe.dumps 5 = some dump0 ∧ s.ring? 5 = some (ring0 0 3) ∧ dump0.period ≠ 0 ∧
     dump0.last < s.almanac.toNat / (1000 * dump0.period) * (1000 * dump0.period) ∧ (snapshotRecords s dump0).length + 1 ≤ (ring0 0 3).free ∧
     ({ ring0 0 3 with written := 255 } : Ring).free < (snapshotRecords s dump0).length + 1) ∧
    (let s := watching open0
     entryShut s 0x9100 = false ∧ (s.shadow? w5 0x9100).isSome ∧ candidate s w5 0x9100 1 = 0 ∧ candidate s w5 0x9100 2 = 5 ∧ candidate s w5 0x9100 7 = 2 ∧
     candidate s w5 0x9100 8 % 64 = 0 ∧ candidate s w5 0x9100 9 % 64 = 0 ∧ (s.region 0).img = some bound0 ∧ bound0.bound = true ∧
     Tbl.find (s.region 0).windows 2 = some ⟨0, 2 ^ 20, 15, true, true⟩ ∧ custodyOn s = false ∧
     custodyOn { s with od := { s.od with vals := [(odKey 0x2020 1, [1])] } } = true) ∧
    (let s := { inRegion open0 (asked (hout 0 [])) with
                observe := { Observe.reset with dumpReqs := [dumpReq0], watches := [(0, { Watch.reset with slot := 2, size := 128 })] } }
     let y := Tbl.get s.observe.watches Watch.reset 0
     s.observe.dumpReqs.find? (fun q => q.core = 0 && q.op = 3) = some dumpReq0 ∧
     y.used + 64 * (1 + ((s.core 0).readWalk (walkOf dumpReq0.walk)).length) = y.size ∧
     class1Status s y.region (y.slot * 2 ^ 60 + (y.offset + y.used)) 2 2 = 0 ∧ (Tbl.find (s.region y.region).windows y.slot).isSome) ∧
    (let x : VigTrig := ⟨0, 1, none, none, 0⟩
     let v : VigArm := ⟨7, 2, 0, 4096, false⟩
     let s := { inRegion { open0 with flush := some ⟨3, 0, 0⟩, vigil := some v } (asked (hout 0x52 [])) with observe := { Observe.reset with vigilQ := [x] } }
     s.observe.vigilQ = x :: [] ∧ x.region = 0 ∧ (s.region 0).flush = some ⟨3, 0, 0⟩ ∧ (s.region 0).vigil = some v ∧
     Tbl.find (s.region 0).windows v.slot = some ⟨0, 2 ^ 20, 15, true, true⟩) ∧
    (let o := { hout 0x51 [] with running := true }
     let s := { asked o with now := 600000000000 }
     s.cmd? 7 = some o ∧ o.opcode = 0x51 ∧ s.thermal.state ≠ 1 ∧ s.passed o.since (1000000000 * s.setting 0x9000 1 600) = true) := by
  refine ⟨?_, ?_, ?_, ?_, ?_, ?_, ?_, List.Pairwise.nil, ?_⟩ <;> decide +kernel

/-- The block with power region 0 as given, at a time. -/
def region240 (p : PRegion) (now : Nat) : State := { State.reset with power := { Power.reset with regions := [(0, p)] }, now := now }
def wake0 (ramped : Bool) : Wake :=
  { fromDark := true, slow := false, since := 0, ramped := ramped, counted := false, lastCheck := 0, rampAt := 0, joinAt := 0 }
theorem test_meets_PowerSequences :
    (let s := region240 { PRegion.reset with state := .nap } 1000000
     (s.preg 0).state = .nap ∧ s.setting 0x3010 8 1000 ≠ 0 ∧ s.passed (s.preg 0).since (1000 * s.setting 0x3010 8 1000) = true ∧
     flitQuiet s 0 (1000 * s.setting 0x3010 8 1000) = true ∧ slicesRun s 0 = false ∧ ∀ c ∈ powerCores 0, (s.core c).clockOn = false) ∧
    (let s := region240 { PRegion.reset with state := .doze } 10000000
     s.setting 0x3010 9 1 = 1 ∧ s.passed (s.preg 0).quiet (1000 * s.setting 0x3010 0x0A 10000) = true ∧ tenanted s 0 = false ∧
     upkeepNear s 0 = false) ∧
    (∀ st ∈ [PState.doze, .dark], let s := { region240 { PRegion.reset with state := st } 0 with
                cores := [(0, { Core.reset with sets := [(0, { ASet.reset with tasks := [⟨3, 0⟩] })] })] }
     upkeepDue s 0 = true ∧ (s.preg 0).state = st) ∧
    (let s := flight ⟨1, packet 1 1 0, false, 0, none⟩ (region240 { PRegion.reset with state := .doze } 0)
     (s.preg 0).state = .doze ∧ ∃ f ∈ s.mesh, powerOf f.pkt.dest = 0) ∧
    (let s := region240 { PRegion.reset with state := .lost, retryAt := some 0 } 10000000
     s.boot.inputs = none ∧ s.od.commits = [] ∧ entryShut s 0x3100 = false ∧ (s.preg 0).retryAt.isSome ∧
     s.passed s.power.telemAt (1000000 * s.setting 0x3010 0x0C 10) = true) ∧
    (let p := { PRegion.reset with state := .waking, wake := some { wake0 true with fromDark := false } }
     let s := { region240 p 0 with cores := [(0, { core0 with run := .issuing })] }
     p.retryAt = none ∧ p.upkeepFrom = none ∧ 0 ∈ powerCores 0 ∧ (s.core 0).run = .issuing ∧ (s.core 0).hasWork = true ∧ s.thermal.state ≠ 1 ∧
     ({ p with upkeepFrom := some .doze } : PRegion).upkeepFrom.isSome ∧ ∀ c ∈ powerCores 0, ((region240 p 0).core c).hasWork = false) ∧
    (let s := region240 { PRegion.reset with state := .lost, retryAt := some 0 } 100000
     (s.preg 0).state = .lost ∧ (s.preg 0).retryAt = some 0 ∧ s.passed 0 100000 = true) ∧
    (let s := region240 { PRegion.reset with state := .waking, retryAt := some 0, wake := some (wake0 true) } 100000
     (s.preg 0).wake = some (wake0 true) ∧ (wake0 true).ramped = true ∧ s.passed (wake0 true).rampAt 2500 = true ∧ (s.preg 0).retryAt.isSome) ∧
    (let s := region240 { PRegion.reset with state := .waking, wake := some (wake0 false) } 16000
     (s.preg 0).wake = some (wake0 false) ∧ s.passed (wake0 false).lastCheck 250 = true ∧
     s.passed (wake0 false).since (1000 * s.setting 0x3010 7 16) = true) ∧
    (let s := region240 { PRegion.reset with state := .waking, wake := some (wake0 true) } 2500
     (s.preg 0).wake = some (wake0 true) ∧ s.passed (wake0 true).rampAt 2500 = true ∧ (s.preg 0).retryAt = none ∧ (s.preg 0).state ≠ .lost) ∧
    (let s := region240 { PRegion.reset with state := .lost } 0
     (s.preg 0).state = .lost ∧ (s.preg 0).retryAt = none) ∧
    ({ Power.reset with pgArray := true, pgAux := true, pgOpt := true, enOpt := true }).pgArray = true ∧
    (let s := { loading { pair0 with img := some boundT, op := some opT } load0 with power := { Power.reset with auxLost := some 0 }, now := 1000000000 }
     s.power.auxLost = some 0 ∧ s.passed 0 1000000000 = true ∧ (s.region 0).op = some opT ∧ busyShards (s.region 0) opT = [1] ∧
     (opT.shard 1).failures < 3) ∧
    Tbl.wf (loading { pair0 with img := some boundT, op := some opT } load0).regions := by
  refine ⟨?_, ?_, ?_, ?_, ?_, ?_, ?_, ?_, ?_, ?_, ?_, rfl, ?_, List.pairwise_singleton _ _⟩ <;> decide +kernel

/-- The block with a cooling state and a measured power. -/
def cooling (y : Thermal) (w now : Nat) : State := { State.reset with thermal := y, power := { Power.reset with measured := w, history := [w] }, now := now }
/-- The tray's sample of R509 with valid bits 0 to 2. -/
def tray (flow : Nat) : Bytes := fields 12 [(0, 2, 0x5448), (2, 1, 7), (8, 2, flow), (10, 2, 1)]
theorem test_meets_CoolingActs :
    (effectiveCap (cooling Thermal.reset 20001 0) < 20001) ∧
    (20000 ≤ effectiveCap (cooling Thermal.reset 20000 0) ∧ 95 * effectiveCap (cooling Thermal.reset 20000 0) < 100 * 20000) ∧
    (100 * 19000 ≤ 95 * effectiveCap (cooling { Thermal.reset with below := 9 } 19000 0)) ∧
    (cooling Thermal.reset 4000 0).power.history ≠ [] ∧
    (let y := Thermal.reset
     y.inlet - degC 5 ≤ toSixteenth (degC 20) ∧ toSixteenth (degC 99) ≤ degC 130 ∧ toSixteenth (degC 130) ≤ degC 130 ∧
     max (toSixteenth (degC 99)) (toSixteenth (degC 20)) < degC 100 ∧ degC 100 ≤ max (toSixteenth (degC 100)) (toSixteenth (degC 20)) ∧ y.state ≤ 1) ∧
    (let s := region240 { PRegion.reset with apartFrom := some 0, closeFrom := some 0 } 10000000000
     entryShut s 0x4100 = false ∧ entryShut s 0x4030 = false ∧ (s.preg 0).apartFrom = some 0 ∧ s.passed 0 1000000000 = true ∧ (s.preg 0).pair ≠ 3 ∧ (s.preg 0).closeFrom = some 0 ∧
     s.passed 0 10000000000 = true) ∧
    (State.reset.preg 0).closeFrom = none ∧
    (∀ f ∈ [640, 639], let b := tray f
     let best := ([(0, 1280)] : List (Nat × Nat)).foldl (fun m e => max m e.2) 0
     b.length = 12 ∧ fieldAt b 0 2 = 0x5448 ∧ fieldAt b 2 1 % 8 = 7 ∧ Thermal.reset.sampleN ≠ some (fieldAt b 10 2) ∧
     (640 ≤ fieldAt b 8 2 ↔ f = 640) ∧ (best ≤ 2 * fieldAt b 8 2 ↔ f = 640)) ∧
    (let s := cooling Thermal.reset 0 1000000000
     s.passed s.thermal.lastOk 100000000 = true ∧ s.passed s.thermal.lastOk 1000000000 = true ∧ s.thermal.state = 0) ∧
    (let s := cooling { Thermal.reset with state := 1, flowOk := some 0, sampleAt := some 30000000000, limit := true } 0 30000000000
     s.thermal.sampleAt = some s.now ∧ s.thermal.limit = true ∧ Thermal.reset.sampleAt ≠ some s.now ∧ Thermal.reset.limit = false ∧ s.thermal.state = 1 ∧ s.thermal.flowOk = some 0 ∧ s.passed 0 1000000000 = true ∧ s.passed s.thermal.holdAt 30000000000 = true) ∧
    (let s := cooling { Thermal.reset with sampleN := some 1, flow := 1258291, inlet := degC 40 } 0 0
     s.thermal.sampleN.isSome ∧ s.thermal.stale = false ∧ s.thermal.lostTray = false ∧ 32 * s.setting 0x4020 7 60 ≤ flow100 s ∧
     s.thermal.inlet ≤ degC 40) ∧
    flow100 State.reset < 32 * State.reset.setting 0x4020 7 60 := by decide +kernel

/-! ## States that meet the hypotheses of the statements: the segment, the link, groups, the whole machine -/

/-- A message of the segment, and its frame from peer 5 to the engine. -/
def message (type : Nat) (l : List (Nat × Nat × Nat)) (data : Bytes) : Bytes :=
  fields 64 ([(0, 2, 0x4F44), (2, 1, 1), (3, 1, type), (20, 2, data.length)] ++ l) |>.take 32 |>.append (data ++ List.replicate 32 0)
def mframe (m : Bytes) : MFrame := ⟨5, 0x020000000000, 0x88B5, false, true, m⟩
/-- The block after its start, with the management part as given. -/
def segment (m : Mgmt) : State := { asked (hout 0 []) with mgmt := m }
def peered (l : List (Nat × Bytes)) : Mgmt := { Mgmt.reset with opens := [⟨5, l, 0⟩], fws := [⟨5, l, 0⟩] }
/-- The block with PLCA on under node 3. -/
def plca (m : Mgmt) : State :=
  { segment m with od := { Od.reset with vals := [(odKey 0x1020 1, [1]), (odKey 0x1021 0, [3])] } }
theorem test_mapM (f : Nat → Option Byte) (g : Nat → Byte) (l : List Nat) (h : ∀ i ∈ l, f i = some (g i)) : l.mapM f = some (l.map g) := by
  induction l with
  | nil => rfl
  | cons a t ih => simp [h a (by simp), ih fun i hi => h i (by simp [hi])]
/-- One part that holds everything is the whole. -/
theorem test_assembled (b : Bytes) : assembled [(0, b)] b.length = some b := by
  unfold assembled
  rw [test_mapM _ (fun i => b.getD i 0)]
  · congr 1
    refine List.ext_getElem (by simp) fun i h1 h2 => ?_
    simp [List.getElem?_eq_getElem h2]
  · intro i hi
    simp only [List.mem_range] at hi
    simp [partByte, hi]
/-- A Role and 1,588 more bytes are all that a session needs. -/
theorem test_opened (c : Bytes) (hc : c.length = 1588) : ∃ b, assembled [(0, leBytes 4 1), (4, c)] 1592 = some b := by
  refine ⟨_, test_mapM _ (fun i => (partByte [(0, leBytes 4 1), (4, c)] i).getD 0) _ ?_⟩
  intro i hi
  simp only [List.mem_range] at hi
  have h : (partByte [(0, leBytes 4 1), (4, c)] i).isSome := by
    rcases Nat.lt_or_ge i 4 with h | h
    · have : i = 0 ∨ i = 1 ∨ i = 2 ∨ i = 3 := by omega
      rcases this with rfl | rfl | rfl | rfl <;> rfl
    · have h2 : i - 4 < c.length := by omega
      simp [partByte, h, h2]
  cases hp : partByte [(0, leBytes 4 1), (4, c)] i with
  | none => rw [hp] at h; cases h
  | some v => rfl
/-- The MAC address is derived from the serial by a free function (log 121), assumed here to give 0. -/
theorem test_mac (hm : Config.macOf Factory.reset.serial = 0) (s : State) (h : s.factory = Factory.reset) : s.mac = 0x020000000000 := by
  unfold State.mac
  rw [h, hm]
  decide
/-- Signatures are free in the model: the firmware's is assumed to be accepted. -/
theorem test_meets_SegmentMessages (hf : fwSigned firmware0 = true) (hm : Config.macOf Factory.reset.serial = 0) :
    (let s := segment Mgmt.reset
     let f := mframe (message 3 [] [])
     (addressed s f = true ∧ f.dst = s.mac ∧ addressed s { f with dst := 2 ^ 48 - 1 } = true ∧ 2 ^ 48 - 1 ≠ s.mac) ∧
     segmentUp s = true ∧ f.fcsOk = true ∧ messageOk s f.msg = true ∧ (takeToken s f.src).isSome ∧ s.mgmt.tx.length < 16 ∧
     mSession f.msg = 0 ∧ seqTurn s f none = .run ∧ mType f.msg = 3 ∧ { f with fcsOk := false }.fcsOk = false) ∧
    (let s := segment Mgmt.reset
     let f := mframe (message 1 [(12, 2, 0x5010), (14, 1, 1)] [])
     mType f.msg = 1 ∧ custodyOn s = false ∧ mLength f.msg = 0 ∧ mIndex f.msg = 0x5010 ∧ ((odRow 0x5010 (mSub f.msg)).map (·.acc)) = some .rw ∧
     (odReadOp s (segWriter f) true 0x5010 1).toOption = some [240, 0] ∧ mOffset f.msg = 0 ∧
     custodyOn { s with od := { s.od with vals := [(odKey 0x2020 1, [1])] } } = true ∧ odPublic 0x5010 1 = false) ∧
    (let s := segment Mgmt.reset
     let f := mframe (message 2 [(12, 2, 0x5010), (14, 1, 1)] [255, 0])
     mType f.msg = 2 ∧ s.setting 0x1022 1 1 = 1 ∧ s.boot.phase = .complete ∧ messageOk s f.msg = true ∧ mData f.msg = [255, 0] ∧
     ({ s with od := { s.od with vals := [(odKey 0x1022 1, [0])] } } : State).setting 0x1022 1 1 = 0) ∧
    (let s := segment Mgmt.reset
     let f := mframe (message 0x10 [] (leBytes 4 1))
     let ps := (mOffset f.msg, mData f.msg) :: findPart s.mgmt.opens f.src
     mType f.msg = 0x10 ∧ messageOk s f.msg = true ∧ assembled ps 4 = some (leBytes 4 1) ∧ partsEnd ps ≤ 1592 ∧ assembled ps 1592 = none ∧
     s.boot.sessions.length < 256 ∧ findPart (peered [(4, List.replicate 1588 0)]).opens f.src = [(4, List.replicate 1588 0)] ∧
     (mOffset f.msg, mData f.msg) = (0, leBytes 4 1) ∧ partsEnd [(0, leBytes 4 1), (4, List.replicate 1588 0)] = 1592) ∧
    (∃ b, assembled [(0, leBytes 4 1), (4, List.replicate 1588 0)] 1592 = some b) ∧
    (let s := { segment (peered [(0, firmware0)]) with boot := { Boot.reset with phase := .recovery } }
     let f := mframe (message 0x18 [(16, 4, 4194303)] [1])
     mType f.msg = 0x18 ∧ messageOk s f.msg = true ∧ mOffset f.msg + (mData f.msg).length = 4194304 ∧
     messageOk s (message 0x19 [] []) = true ∧
     s.boot.minSec ≤ fwSecurity firmware0 ∧ s.boot.activeBank ≤ 1) ∧ fwSigned firmware0 = true ∧ findPart (peered [(0, firmware0)]).fws 5 = [(0, firmware0)] ∧ partsEnd [(0, firmware0)] = firmware0.length ∧
    assembled [(0, firmware0)] firmware0.length = some firmware0 ∧
    (let x := { session0 with source := some 5 }
     let m := message 0x12 [(4, 4, 1), (8, 4, 1)] []
     let f := mframe (m.take 32 ++ messageTag x 0x020000000000 5 m)
     let s := { segment Mgmt.reset with boot := { Boot.reset with phase := .complete, sessions := [(1, x)] } }
     mType f.msg = 0x12 ∧ messageOk s f.msg = true ∧ (messageSession s f).toOption = some (some x) ∧ seqTurn s f (some x) = .run ∧
     s.serving.ctxs = []) ∧
    (let x : TxFrame := ⟨5, [], 0, 14⟩
     let s := { segment { Mgmt.reset with holdoff := [(3, x)], tx := [x], collTimes := [0], collFlag := true, opens := [⟨5, [], 0⟩], fws := [⟨5, [], 0⟩] } with
                now := 10000000000 }
     s.mgmt.holdoff.find? (fun e => e.2.dst = 5) = some (3, x) ∧ 3 ≤ s.now ∧ s.mgmt.tx.length < 16 ∧
     s.mgmt.opens.find? (fun a => a.mac = 5) = some ⟨5, [], 0⟩ ∧ s.passed 0 1000000000 = true ∧
     s.mgmt.fws.find? (fun a => a.mac = 5) = some ⟨5, [], 0⟩ ∧ s.passed 0 10000000000 = true ∧ s.mgmt.collTimes = 0 :: [] ∧ s.mgmt.collFlag = true ∧
     s.mgmt.tx = x :: [] ∧ plcaActive s = false ∧ x.tries < 15) ∧
    (plcaOn (plca { Mgmt.reset with plcaOk := true }) = true ∧ plcaLead (plca { Mgmt.reset with plcaOk := true }) = false ∧
      plcaActive (plca { Mgmt.reset with plcaOk := true }) = true ∧
      (let s := { plca Mgmt.reset with od := { Od.reset with vals := [(odKey 0x1020 1, [1]), (odKey 0x1021 0, [0])] } }
       plcaActive s = true ∧ plcaLead s = true)) := by
  have h := test_mac hm (segment Mgmt.reset) rfl
  refine ⟨⟨⟨?_, h.symm, ?_, ?_⟩, by decide +kernel⟩, by decide +kernel, by decide +kernel, by decide +kernel, test_opened _ List.length_replicate, by decide +kernel, hf, rfl, by decide +kernel,
    test_assembled _,
    by decide +kernel, by decide +kernel, by decide +kernel⟩
  · simp only [addressed, h]; decide +kernel
  · simp only [addressed, h]; decide +kernel
  · rw [h]; decide

/-- The link of `linked`, with region 0 as given. -/
def grouped (r : Region) (c : Chan) : State := inRegion r { linked c with cores := [(0, core0)] }
/-- Stage 0 of a group of two, on engines 9 and 5. -/
def stage0 : BoundImage := { bound0 with img := { img0 with stages := 2 }, stageTab := [9, 5] }
def dataFrame (version : Nat) : FFrame :=
  { framed 1 1 0 (slice (leBytes 16 (oneLine 3 0).toNat) 0 64 ++ List.replicate 64 7) with version := version, srcStage := 1 }
/-- The frame is sound, and accepted in its order. -/
def sound (s : State) (f : FFrame) : Bool :=
  f.crcOk && f.vc = typeVc f.type && 1 ≤ f.type && f.type ≤ 7 && (f.type = 5 || f.destEngine = engineId s % 32768) && frameReserved f &&
    typePasses s (s.port 0) f.type && f.seq = (((s.port 0).chan f.srcEngine).rxSeq + 1) % 65536 && !f.ackValid && !f.nak
def waits0 : C2Wait := ⟨0, 1, 2, 5, 1, 0⟩
theorem test_meets_FabricLink :
    (let f := dataFrame 4
     { f with crcOk := false }.crcOk = false ∧ { f with vc := 0 }.vc ≠ 1 ∧ sound (linked Chan.reset) f = true ∧
     Chan.reset.credit 0 = 0 ∧ 1 ≤ { Chan.reset with credits := Vector.replicate 3 2 }.credit 0 ∧
     typePasses (linked Chan.reset) ((linked Chan.reset).port 0) 7 = true ∧ engineId (linked Chan.reset) ≠ 0xFFFF ∧ { f with seq := 2 }.seq ≠ (((linked Chan.reset).port 0 |>.chan 5).rxSeq + 1) % 65536) ∧
    ((match dataCheck (grouped { region0 with img := some stage0 } Chan.reset) (dataFrame 4) with
      | .ok (n, b, h) => decide (n = 0 ∧ b = stage0 ∧ h = 0) | .error _ => false) = true) ∧
    ((match dataCheck (grouped { region0 with img := some stage0 } Chan.reset) (dataFrame 3) with | .ok _ => false | .error e => e = 4) = true) ∧
    (let f := framed 2 0 (BitVec.ofNat 80 (1 * 2 ^ 53 + 2 * 2 ^ 48)) []
     let s := { grouped { region0 with img := some bound0 } Chan.reset with fabric := { (linked Chan.reset).fabric with waits := [waits0] } }
     sound s f = true ∧ ownerOf s 0 = some 0 ∧ (s.region 0).img = some bound0 ∧ bound0.epoch = f.specific.toNat % 256 ∧ s.fabric.waits = [waits0] ∧
     waits0.core = 0 ∧ waits0.q = bits f.specific.toNat 55 53 ∧ waits0.req = bits f.specific.toNat 52 48 ∧ waits0.left = 1) ∧
    (let f := { framed 3 2 0 [] with srcStage := 1, version := 4 }
     let s := grouped { region0 with img := some stage0 } Chan.reset
     sound s f = true ∧ groupFor s f = some (0, stage0) ∧ bits f.specific.toNat 15 8 = stage0.epoch ∧ f.version = stage0.activeVersion ∧
     groupFor (linked Chan.reset) f = none) ∧
    (let f := { framed 7 0 0 [] with ackValid := true }
     f.crcOk = true ∧ f.vc = typeVc 7 ∧ f.destEngine = engineId (linked Chan.reset) % 32768 ∧ frameReserved f = true ∧
     typePasses (linked Chan.reset) ((linked Chan.reset).port 0) 7 = true ∧ f.nak = false) ∧
    (let f := framed 5 0 0 (helloGrant 1)
     let s := { linked Chan.reset with fabric := { (linked Chan.reset).fabric with ports := [(0, { Port.reset with state := 2, mode := 1 })] } }
     sound s f = true ∧ (s.port 0).mode ≠ 0 ∧ bits f.specific.toNat 79 48 = s.setting 0x7000 2 0 ∧ zeros f.payload 0 12 = false ∧
     ((s.port 0).chan 5).waiting = [] ∧ s.fabric.lost.contains 5 = false ∧ f.srcEngine ≠ engineId s ∧ { f with srcEngine := 9 }.srcEngine = engineId s ∧
     engineId s ≠ 0xFFFF) ∧
    (let f := framed 5 0 0 (helloGrant 0)
     let s := { linked Chan.reset with fabric := { (linked Chan.reset).fabric with ports := [(0, { Port.reset with state := 2 })] } }
     sound s f = true ∧ (s.port 0).mode = 0 ∧ Tbl.find (s.port 0).chans linkKey = none) ∧
    (let s := linked { Chan.reset with rootId := 3, rootHops := 1, credits := Vector.replicate 3 2 }
     3 ≤ (s.port 0).state ∧ (s.port 0).state = 3 ∧ ((s.port 0).chan (s.port 0).peer).waiting = [] ∧ ((s.port 0).chan (s.port 0).peer).unacked.length < 16384 ∧
     almanacBest s = some (3, 1, 0, 5) ∧ s.fabric.state = 3 ∧ 2 ≤ ((s.port 0).chan 5).credit 0 ∧
     (let f := framed 6 0 (BitVec.ofNat 80 (1 * 2 ^ 72)) (List.replicate 64 0)
      let u := (s.takeFrame 0 f).1
      sound s f = true ∧ bits f.specific.toNat 79 72 = 1 ∧ ((u.port 0).chan 5).waiting = [] ∧ 2 ≤ ((u.port 0).chan 5).credit 0 ∧
      ((u.port 0).chan 5).unacked.length < 16384)) ∧
    (let f := framed 6 0 (BitVec.ofNat 80 (2 * 2 ^ 72)) (leBytes 8 16001 ++ List.replicate 56 0)
     let s := { linked Chan.reset with fabric := { (linked Chan.reset).fabric with reqOut := some (0, 0) } }
     sound s f = true ∧ bits f.specific.toNat 79 72 = 2 ∧ s.fabric.reqOut = some (0, 0) ∧ s.fabric.state = 3 ∧
     16000 < ((fieldAt f.payload 0 8 : Int) - 0) + ((fieldAt f.payload 8 8 : Int) - 0)) ∧
    (let c := { Chan.reset with credits := Vector.replicate 3 2, owed := 1, owedAt := 0, unacked := [framed 2 0 0 []], ackAt := 0, noAck := 1 }
     let s := { linked c with now := 1000001 }
     (s.port 0).chan 5 = c ∧ 1 ≤ c.credit 0 ∧ typePasses s (s.port 0) 7 = true ∧ c.owed ≠ 0 ∧ s.passed c.owedAt 1000 = true ∧ c.unacked ≠ [] ∧
     s.passed c.ackAt (1000 * s.setting 0x7000 8 50) = true ∧ Tbl.find (s.port 0).chans 5 = some c ∧ c.noAck ≠ 0 ∧
     s.passed c.noAck (1000 * s.setting 0x7000 9 1000) = true ∧ 5 ≠ linkKey ∧ s.regions = [] ∧ s.fabric.waits = []) ∧
    Tbl.wf ((linked Chan.reset).port 0).chans ∧ Tbl.wf (linked Chan.reset).fabric.ports ∧ 2 ≤ ((linked Chan.reset).port 0).state ∧
    (let s := { State.reset with power := { Power.reset with pgAux := true, pgOpt := true }, now := 100000000 }
     s.factory.ports.contains 47 = true ∧ (s.port 47).state < 2 ∧ s.setting (0x7100 + 47) 3 1 = 1 ∧ s.passed (s.port 47).downAt 100000000 = true) := by
  refine ⟨?_, ?_, ?_, ?_, ?_, ?_, ?_, ?_, ?_, ?_, ?_, List.pairwise_singleton _ _, List.pairwise_singleton _ _, ?_, ?_⟩ <;> decide +kernel

/-- A CONTROL frame of a kind and status to a stage of the group. -/
def control (kind st dst src : Nat) : FFrame :=
  { framed 4 0 (BitVec.ofNat 80 (kind * 2 ^ 72 + st * 2 ^ 64)) (slice (leBytes 8 4 ++ stageDigest [9, 5]) 0 64) with destStage := dst, srcStage := src }
def stage1 : BoundImage := { stage0 with img := { stage0.img with stage := 1 } }
/-- It is accepted in order, and for the image. -/
def controls (r : Region) (b : BoundImage) (f : FFrame) : Bool :=
  let s := grouped { r with img := some b } Chan.reset
  let u := (s.takeFrame 0 f).1
  (s.takeFrame 0 f).2 && controlFor u f = some (0, b) && (u.region 0).img = some b && (u.region 0).op = r.op && (u.region 0).flush = r.flush
/-- A swap of the group in a phase, seen by a stage. -/
def swapG (b : BoundImage) (ph : OpPhase) : LoadOp := { op0 ph with swap := true, img := { b.img with version := 5 }, stageTab := [9, 5] }
theorem test_meets_GroupControl :
    controls region0 stage0 (control 1 0 0 1) = true ∧ controls region0 stage0 (control 1 2 0 1) = true ∧ ctlStatus (control 1 2 0 1) = 2 ∧
    controls region0 stage1 (control 2 0 1 0) = true ∧ stage1.img.stage ≠ 0 ∧ stage1.bound = true ∧ stage1.stopped = false ∧
    controls region0 stage1 (control 10 1 1 0) = true ∧ controls { region0 with flush := some ⟨4, 0, 0⟩ } stage1 (control 10 2 1 0) = true ∧
    (let u := (((grouped { region0 with img := some stage1, flush := some ⟨4, 0, 0⟩ } Chan.reset)).takeFrame 0 (control 10 2 1 0)).1
     0 ∈ liveCores u 0 ∧ (u.core 0).run ≠ .halted) ∧
    controls { region0 with flush := some ⟨1, 0, 0⟩ } stage0 (control 11 1 0 1) = true ∧ (control 11 1 0 1).srcStage ∉ stage0.flushed ∧
    controls region0 stage0 (control 9 0 0 1) = true ∧ controls region0 stage0 (control 5 3 0 1) = true ∧
    controls region0 stage1 (control 8 3 1 0) = true ∧
    (∀ ph ∈ [OpPhase.rewrite, .activate, .rollback], controls { region0 with op := some (swapG stage0 ph) } stage0 (control 9 0 0 1) = true) ∧
    (swapG stage0 .verify).failed = none ∧ (swapG stage0 .rewrite).switched = false ∧ (swapG stage0 .activate).switched = false ∧
    (linked Chan.reset).setting 0x2010 1 1 ≠ 0 ∧
    (controls { region0 with op := some (swapG stage0 .verify) } stage0 (control 3 0 0 1) = true ∧ LoadOp.lead (swapG stage0 .verify) = true) ∧
    (let o := { swapG stage0 .verify with img := { image1 5 with stages := 2 }, reports := [(1, 0)] }
     let u := grouped { region0 with img := some stage0, op := some o } Chan.reset
     ((wantedShards (u.region 0) o).all fun h => (o.shard h).arrived) = false) ∧
    (controls { region0 with op := some (swapG stage1 .drain) } stage1 (control 4 0 1 0) = true ∧ LoadOp.later (swapG stage1 .drain) = true ∧
      (swapG stage1 .drain).failed = none) ∧
    controls { region0 with op := some (swapG stage0 .rewrite) } stage0 (control 5 3 0 1) = true ∧
    controls { region0 with op := some (swapG stage1 .activate) } stage1 (control 6 0 1 0) = true ∧
    controls { region0 with op := some (swapG stage0 .activate) } stage0 (control 7 0 0 1) = true ∧
    LoadOp.allReport { swapG stage0 .activate with reports := [(1, 256)] } 256 = true ∧
    LoadOp.allReport { swapG { stage0 with img := { stage0.img with stages := 3 } } .activate with reports := [(1, 256)] } 256 = false ∧
    (∀ ph ∈ [OpPhase.verify, .drain, .rewrite, .activate, .rollback], controls { region0 with op := some (swapG stage1 ph) } stage1 (control 8 3 1 0) = true) ∧
    controls { region0 with op := some (swapG stage1 .verify) } stage1 (control 12 3 1 0) = true := by
  refine ⟨?_, ?_, ?_, ?_, ?_, ?_, ?_, ?_, ?_, ?_, ?_, ?_, ?_, ?_, ?_, ?_, ?_, ?_, ?_, ?_, ?_, ?_, ?_, ?_, ?_, ?_, ?_, ?_, ?_, ?_⟩ <;> decide +kernel

/-- The invariants hold right after reset, and the empty queue steps. -/
theorem test_reset_memory : memOk State.reset ∧ zeroOk State.reset ∧ goesOn (step State.reset) := by
  refine ⟨fun c => ⟨List.Pairwise.nil, by simp [State.core, State.reset, Tbl.get, Core.reset]⟩, fun c => ⟨rfl, ?_⟩, _, rfl⟩
  intro b h
  cases h
theorem test_reset_tables : tablesOk State.reset := by
  refine ⟨?_, ?_, ?_, ?_, ?_, ?_, ?_, ?_, ?_, ?_, ?_, ?_, ?_, ?_, ?_⟩
  all_goals first | exact List.Pairwise.nil | exact fun _ => List.Pairwise.nil | exact fun _ => ⟨List.Pairwise.nil, List.Pairwise.nil⟩

/-- Keys of the table of R553: one level is right for an administrator, H10 with W4 only for an image signer, and three levels for neither. -/
theorem test_key_types :
    keyTypesOk .admin [0, 0, 0, 1, 0, 0, 0, 7, 0, 0, 0, 4] = true ∧ keyTypesOk .admin [0, 0, 0, 2, 0, 0, 0, 6, 0, 0, 0, 3] = false ∧
    keyTypesOk .image [0, 0, 0, 2, 0, 0, 0, 6, 0, 0, 0, 3] = true ∧ keyTypesOk .image [0, 0, 0, 3, 0, 0, 0, 6, 0, 0, 0, 3] = false := by
  decide +kernel
end Sys2Proof.Tests
end

section
/-!
SUPPORT. What a slot sees after it has waited for a load (R169), and how a step fault leaves its core (R206).
-/
namespace Sys2Proof.Machine

/-! ## Registers -/

/-- What a scalar register reads depends on the register file alone. -/
theorem Seq.reg_congr {q q' : Seq} (h : q'.regs = q.regs) (r : BitVec 5) : q'.reg r = q.reg r := by
  simp only [Seq.reg, h]
theorem Seq.desc_congr {q q' : Seq} (h : q'.descs = q.descs) (d : BitVec 4) : q'.desc d = q.desc d := by
  simp only [Seq.desc, h]

theorem Seq.reg_setReg (q : Seq) (r : BitVec 5) (v : W32) : (q.setReg r v).reg r = if r = 0 then 0 else v := by
  by_cases h : r = 0
  · subst h; rfl
  · rw [Seq.reg_setReg_same q r v h, if_neg h]

@[simp] theorem Seq.loads_reg (q : Seq) (now : Nat) (rs : List (BitVec 5)) (r : BitVec 5) : (q.loads now rs).reg r = q.reg r := rfl

@[simp] theorem Core.endSlot_seq_reg (k : Core) (last : Bool) (now : Nat) (r : BitVec 5) : (k.endSlot last now).seq.reg r = k.seq.reg r :=
  Seq.reg_congr (by simp) r
@[simp] theorem Core.endSlot_seq_desc (k : Core) (last : Bool) (now : Nat) (d : BitVec 4) : (k.endSlot last now).seq.desc d = k.seq.desc d :=
  Seq.desc_congr (by simp) d
@[simp] theorem Core.endSlot_accGet (k : Core) (last : Bool) (now t e : Nat) : (k.endSlot last now).accGet t e = k.accGet t e := by
  simp only [Core.accGet, Core.endSlot_acc]

/-! ## The wait for a load (R169) -/

/-- The wait changes only which registers count as loaded, and counters. -/
theorem Core.ldWait_cases (k : Core) (now : Nat) (rs : List (BitVec 5)) :
    k.ldWait now rs = k ∨ ∃ n l l', k.ldWait now rs =
      ({ k with bundle := k.bundle.map fun b => { b with pre := { b.pre with loaded := l } }, seq := { k.seq with loaded := l' } } : Core).count 0 1 n := by
  simp only [Core.ldWait]
  split
  · by_cases hq : k.seq.loaded = k.pre.loaded ∧ k.seq.loadAt = k.pre.loadAt
    · exact .inr ⟨2 - cyclesOf (now - k.pre.loadAt), [], [], by rw [if_pos hq]⟩
    · exact .inr ⟨2 - cyclesOf (now - k.pre.loadAt), [], k.seq.loaded, by rw [if_neg hq]⟩
  · exact .inl rfl

@[simp] theorem Core.ldWait_mem (k : Core) (now : Nat) (rs : List (BitVec 5)) : (k.ldWait now rs).mem = k.mem := by
  rcases k.ldWait_cases now rs with h | ⟨n, l, l', h⟩ <;> simp [h]
@[simp] theorem Core.ldWait_acc (k : Core) (now : Nat) (rs : List (BitVec 5)) : (k.ldWait now rs).acc = k.acc := by
  rcases k.ldWait_cases now rs with h | ⟨n, l, l', h⟩ <;> simp [h]
@[simp] theorem Core.ldWait_accStat (k : Core) (now : Nat) (rs : List (BitVec 5)) : (k.ldWait now rs).accStat = k.accStat := by
  rcases k.ldWait_cases now rs with h | ⟨n, l, l', h⟩ <;> simp [h]
@[simp] theorem Core.ldWait_badWords (k : Core) (now : Nat) (rs : List (BitVec 5)) : (k.ldWait now rs).badWords = k.badWords := by
  rcases k.ldWait_cases now rs with h | ⟨n, l, l', h⟩ <;> simp [h]
@[simp] theorem Core.ldWait_seq_opNum (k : Core) (now : Nat) (rs : List (BitVec 5)) : (k.ldWait now rs).seq.opNum = k.seq.opNum := by
  rcases k.ldWait_cases now rs with h | ⟨n, l, l', h⟩ <;> simp [h]
theorem Core.ldWait_pre_regs (k : Core) (now : Nat) (rs : List (BitVec 5)) : (k.ldWait now rs).pre.regs = k.pre.regs := by
  rcases k.ldWait_cases now rs with h | ⟨n, l, l', h⟩
  · rw [h]
  · cases hb : k.bundle <;> simp [h, Core.pre, hb]
theorem Core.ldWait_pre_descs (k : Core) (now : Nat) (rs : List (BitVec 5)) : (k.ldWait now rs).pre.descs = k.pre.descs := by
  rcases k.ldWait_cases now rs with h | ⟨n, l, l', h⟩
  · rw [h]
  · cases hb : k.bundle <;> simp [h, Core.pre, hb]
@[simp] theorem Core.ldWait_pre_reg (k : Core) (now : Nat) (rs : List (BitVec 5)) (r : BitVec 5) : (k.ldWait now rs).pre.reg r = k.pre.reg r :=
  Seq.reg_congr (k.ldWait_pre_regs now rs) r
@[simp] theorem Core.ldWait_pre_desc (k : Core) (now : Nat) (rs : List (BitVec 5)) (d : BitVec 4) : (k.ldWait now rs).pre.desc d = k.pre.desc d :=
  Seq.desc_congr (k.ldWait_pre_descs now rs) d
@[simp] theorem Core.ldWait_accGet (k : Core) (now : Nat) (rs : List (BitVec 5)) (t e : Nat) : (k.ldWait now rs).accGet t e = k.accGet t e := by
  simp only [Core.accGet, Core.ldWait_acc]

@[simp] theorem Core.count_pendingFeet (k : Core) (b i n m : Nat) : (k.count b i n).pendingFeet m = k.pendingFeet m := by
  unfold Core.count; split <;> rfl
@[simp] theorem Core.ldWait_pendingFeet (k : Core) (now : Nat) (rs : List (BitVec 5)) (m : Nat) :
    (k.ldWait now rs).pendingFeet m = k.pendingFeet m := by
  rcases k.ldWait_cases now rs with h | ⟨n, l, l', h⟩
  · rw [h]
  · rw [h, Core.count_pendingFeet]; rfl
@[simp] theorem Core.ldWait_memBlocked (k : Core) (now : Nat) (rs : List (BitVec 5)) (m : MemOp) :
    (k.ldWait now rs).memBlocked m = k.memBlocked m := by
  simp [Core.memBlocked]

@[simp] theorem scalarAddr_ldWait (k : Core) (now : Nat) (rs : List (BitVec 5)) (rs1 : BitVec 5) (imm : BitVec 14) :
    scalarAddr (k.ldWait now rs) rs1 imm = scalarAddr k rs1 imm := by simp [scalarAddr]
@[simp] theorem descAddr_ldWait (k : Core) (now : Nat) (rs : List (BitVec 5)) (rs1 : BitVec 5) (imm : BitVec 15) :
    descAddr (k.ldWait now rs) rs1 imm = descAddr k rs1 imm := by simp [descAddr]

/-! ## Undoing a bundle (R206 step 1) -/

@[simp] theorem Core.undoEntry_seq (k : Core) (x : Nat × W64) : (k.undoEntry x).seq = k.seq := by
  unfold Core.undoEntry; split <;> rfl
@[simp] theorem Core.undoEntry_active (k : Core) (x : Nat × W64) : (k.undoEntry x).active = k.active := by
  unfold Core.undoEntry; split <;> rfl

/-- Putting back what stores to the window overwrote keeps each field that putting one entry back keeps. -/
theorem Core.undoEntries_keep {α : Type} (g : Core → α) (hg : ∀ k x, g (k.undoEntry x) = g k) (u : List (Nat × W64)) (k : Core) :
    g (u.foldl Core.undoEntry k) = g k := by
  induction u generalizing k with
  | nil => rfl
  | cons x u ih => rw [List.foldl_cons, ih, hg]

/-- The sequencer stands as before the bundle. -/
@[simp] theorem Core.suppress_seq (k : Core) : k.suppress.seq = k.pre := by
  cases hb : k.bundle with
  | none => simp [Core.suppress, Core.pre, hb]
  | some b => simp [Core.suppress, Core.pre, hb, Core.remark, Core.undoEntries_keep Core.seq Core.undoEntry_seq]
@[simp] theorem Core.suppress_active (k : Core) : k.suppress.active = k.active := by
  cases hb : k.bundle with
  | none => simp [Core.suppress, hb]
  | some b => simp [Core.suppress, hb, Core.remark, Core.undoEntries_keep Core.active Core.undoEntry_active]

theorem Core.enter_pre_of_none {k : Core} (h : k.bundle = none) (slot now : Nat) : (k.enter slot now).pre = k.seq := by
  simp [Core.enter, h, Core.pre]
theorem Core.enter_seq_pc_of_none {k : Core} (h : k.bundle = none) (slot now : Nat) : (k.enter slot now).seq.pc = k.seq.pc := by
  simp [Core.enter, h]

/-! ## A step fault (R205, R206) -/

@[simp] theorem State.core_sil (s : State) (type source : Nat) (payload : Bytes) (c : Nat) : (s.sil type source payload).core c = s.core c := by
  simp only [State.sil]
  split_ifs <;> rfl
@[simp] theorem State.core_powerTo (s : State) (g : Nat) (st : PState) (cause c : Nat) : (s.powerTo g st cause).core c = s.core c := by
  simp only [State.powerTo]
  split <;> simp
@[simp] theorem State.core_napIfIdle (s : State) (g c : Nat) : (s.napIfIdle g).core c = s.core c := by
  unfold State.napIfIdle; split <;> simp

@[simp] theorem Core.countHeld_seq (k : Core) (now : Nat) : (k.countHeld now).seq = k.seq := by
  unfold Core.countHeld; split <;> simp
@[simp] theorem Core.countHeld_active (k : Core) (now : Nat) : (k.countHeld now).active = k.active := by
  unfold Core.countHeld; split <;> simp
theorem stopActive_of_idle {k : Core} (h : k.active = []) (base time eng : Nat) : stopActive base time eng k = k := by
  simp [stopActive, h]
/-- A core with nothing in progress stops with its registers as they stood. -/
theorem Core.halt_seq_regs {k : Core} (h : k.active = []) (base now time eng : Nat) : (k.halt base now time eng).seq.regs = k.seq.regs := by
  simp [Core.halt, stopActive_of_idle (k := k.countHeld now) (by simp [h])]

/-- What a step fault makes of an issuing core: it undoes the bundle if the fault is found at issue, stops, and leaves the report. -/
theorem stepFaultAt_core {s : State} {c : Nat} (f : Fail) (pc slot : Nat) (atIssue : Bool) (h : (s.core c).run = .issuing) :
    let k := if atIssue then (s.core c).suppress else s.core c
    (stepFaultAt s c f pc slot atIssue).core c = k.reported f pc slot s.almanac (k.halt s.free s.now s.now 13) := by
  simp [stepFaultAt, h, State.haltCore, State.haltAt, State.draw]

/-- A fault at issue of a core with nothing in progress: it stops with the registers as they stood before the bundle and reports the
fault's cause at the bundle in issue. -/
theorem stepFault_at_issue {s : State} {c : Nat} (f : Fail) (slot : Nat) (h : (s.core c).run = .issuing) (ha : (s.core c).active = []) :
    ((stepFault s c f slot true).core c).run = .stopped ∧
    ((stepFault s c f slot true).core c).seq.regs = (s.core c).pre.regs ∧
    ∃ x, ((stepFault s c f slot true).core c).report = some x ∧ x.cause = f.cause ∧ x.aux0 = f.aux0 ∧ x.slot = slot ∧
      x.bundle = (s.core c).seq.pc.toNat := by
  have hk := stepFaultAt_core f (s.core c).seq.pc.toNat slot true h
  simp only [if_true] at hk
  rw [stepFault, hk]
  refine ⟨?_, ?_, _, rfl, rfl, rfl, rfl, rfl⟩
  · simp [Core.reported, Core.halt]
  · simp [Core.reported, Core.halt_seq_regs (k := (s.core c).suppress) (by simp [ha])]

/-- A read meets an uncorrectable word among those that it touches. -/
theorem Core.badAt_some {k : Core} {w a n : Nat} (hw : w ∈ k.badWords) (hlo : a / 8 ≤ w) (hhi : w ≤ (a + n - 1) / 8) :
    ∃ y, k.badAt a n = some y := by
  have hf : (k.badWords.find? fun x => a / 8 ≤ x && x ≤ (a + n - 1) / 8).isSome := List.find?_isSome.2 ⟨w, hw, by simp [hlo, hhi]⟩
  obtain ⟨x, hx⟩ := Option.isSome_iff_exists.1 hf
  exact ⟨_, by rw [Core.badAt, hx]; rfl⟩

/-- Bundle n stands at 0x270000 + 16n: a slot that opens it meets an uncorrectable word there (R139, R165). -/
theorem Core.fetchFail_some {k : Core} {w : Nat} (slot now : Nat) (hb : k.bundle = none) (hw : w ∈ k.badWords)
    (hpc : w / 2 = 0x27000 + k.seq.pc.toNat) : ∃ e, k.fetchFail slot now = some e ∧ e.cause = 15 := by
  have hpc' : w / 2 = 0x27000 + (k.enter slot now).seq.pc.toNat := by rw [Core.enter_seq_pc_of_none hb, hpc]
  obtain ⟨y, hy⟩ := Core.badAt_some (k := k.enter slot now) (w := w) (a := 0x270000 + 16 * (k.enter slot now).seq.pc.toNat) (n := 16)
    (by simpa using hw) (by omega) (by omega)
  exact ⟨⟨15, y.2, y.1⟩, by simp only [Core.fetchFail, hb, hy]; rfl, rfl⟩

end Sys2Proof.Machine
end

section
/-!
SUPPORT. What one scalar access does to its core: the bytes, entries and registers that it reads and writes (R8, R159, R171).
-/
namespace Sys2Proof.Machine

/-! ## Pieces of byte strings -/

/-- A piece that lies within a string needs no zeros past its end. -/
theorem slice_eq_take {b : Bytes} {off n : Nat} (h : off + n ≤ b.length) : slice b off n = (b.drop off).take n := by
  have : ((b.drop off).take n).length = n := by simp only [List.length_take, List.length_drop]; omega
  simp only [slice, this, Nat.sub_self, List.replicate_zero, List.append_nil]

/-- A piece of the bytes read is the bytes read from there on. -/
theorem slice_read (m : Memory) (a : Nat) {n off l : Nat} (h : off + l ≤ n) : slice (Memory.read m a n) off l = Memory.read m (a + off) l := by
  rw [slice_eq_take (by simpa [Memory.read] using h)]
  have hl : min l (n - off) = l := by omega
  refine List.ext_getElem (by simp [Memory.read, hl]) fun i _ _ => ?_
  simp [Memory.read, Nat.add_assoc]

/-- Piece j of pieces of one length laid end to end. -/
theorem take_drop_flatMap {α β : Type} (g : α → List β) {n : Nat} (l : List α) (hg : ∀ x, (g x).length = n) (j : Nat) (hj : j < l.length) :
    ((l.flatMap g).drop (n * j)).take n = g l[j] := by
  induction l generalizing j with
  | nil => simp at hj
  | cons x l ih =>
    cases j with
    | zero => simp [List.take_left' (hg x)]
    | succ j =>
      rw [List.flatMap_cons, Nat.mul_succ, Nat.add_comm, ← List.drop_drop, List.drop_left' (hg x)]
      exact ih j (by simpa using hj)

theorem fieldAt_words (g : Nat → W64) {j : Nat} (hj : j < 8) :
    fieldAt ((List.range 8).flatMap fun i => leBytes 8 (g i).toNat) (8 * j) 8 = (g j).toNat := by
  have hl : ((List.range 8).flatMap fun i => leBytes 8 (g i).toNat).length = 64 := by simp
  rw [fieldAt, slice_eq_take (by omega), take_drop_flatMap _ _ (by simp) j (by simpa using hj), leNat_leBytes, List.getElem_range]
  exact Nat.mod_eq_of_lt (g j).isLt

/-! ## Reading -/

@[simp] theorem Core.readSoft_mem (k : Core) (a n : Nat) : (k.readSoft a n).mem = k.mem := by simp [Core.readSoft]
@[simp] theorem Core.readSoft_seq (k : Core) (a n : Nat) : (k.readSoft a n).seq = k.seq := by simp [Core.readSoft]
@[simp] theorem Core.readSoft_read64 (k : Core) (a n b : Nat) : (k.readSoft a n).read64 b = k.read64 b := by
  simp [Core.read64, Core.readLine, Core.readSoft, Core.statGet]
@[simp] theorem Core.ldWait_read64 (k : Core) (now : Nat) (rs : List (BitVec 5)) (b : Nat) : (k.ldWait now rs).read64 b = k.read64 b := by
  simp [Core.read64, Core.readLine, Core.statGet]

/-- Eight aligned bytes of the banks. -/
theorem Core.read64_banks (k : Core) {a : Nat} (ha : a % 8 = 0) (hb : a + 8 ≤ 2621440) : k.read64 a = leNat (k.mem.read a 8) := by
  have hrow : a / 2048 < 1280 := by omega
  rw [Core.read64, Core.readLine, if_pos hrow, fieldAt, slice_read _ _ (by omega)]
  congr 2; omega

/-- Eight aligned bytes of a tile are one of its entries (R159). -/
theorem Core.read64_tile (k : Core) {a : Nat} (ha : a % 8 = 0) (hlo : 0x3F0000 ≤ a) (hhi : a + 8 ≤ 0x400000) :
    k.read64 a = (k.accGet ((a - 0x3F0000) / 4096) ((a - 0x3F0000) / 8 % 512)).toNat := by
  have hrow : ¬ a / 2048 < 1280 := by omega
  have htile : 2016 ≤ a / 2048 ∧ a / 2048 < 2048 := by omega
  have hoff : a % 64 = 8 * (a % 64 / 8) := by omega
  rw [Core.read64, Core.readLine, if_neg hrow, if_pos htile, hoff,
    fieldAt_words (fun i => Tbl.get k.acc 0 ((a / 2048 - 2016) * 256 + 8 * (a % 2048 / 64) + i)) (by omega), Core.accGet]
  congr 2; omega

/-! ## Writing -/

@[simp] theorem Core.storeBytes_mem (k : Core) (a : Nat) (b : Bytes) : (k.storeBytes a b).mem = Memory.write k.mem a b := rfl

/-- Bytes that a store has written are read back. -/
theorem Core.storeBytes_read {k : Core} (hm : Memory.wf k.mem) (a n v : Nat) : (k.storeBytes a (leBytes n v)).mem.read a n = leBytes n v := by
  simpa using Memory.read_write hm a (leBytes n v)

theorem Tbl.find_del_same {α : Type} {t : Tbl α} (h : Tbl.wf t) (i : Nat) : Tbl.find (Tbl.del t i) i = none := by
  induction t with
  | nil => rfl
  | cons e t ih =>
    obtain ⟨k, v⟩ := e
    obtain ⟨hk, ht⟩ := List.pairwise_cons.1 h
    by_cases hi : i = k
    · subst hi
      rw [Tbl.del, if_pos rfl]
      refine Option.eq_none_iff_forall_ne_some.2 fun x hx => ?_
      exact absurd (hk _ (Tbl.find_mem hx)) (lt_irrefl i)
    · rw [Tbl.del, if_neg hi, Tbl.find, if_neg hi, ih ht]

/-- An entry that is written is read back, also where the value 0 takes it off the table. -/
theorem Core.accGet_accSet_same {k : Core} (h : Tbl.wf k.acc) (t e : Nat) (v : W64) : (k.accSet t e v).accGet t e = v := by
  by_cases hv : v = 0
  · simp [Core.accGet, Core.accSet, hv, Tbl.get, Tbl.find_del_same h]
  · simp only [Core.accGet, Core.accSet, if_neg hv, Tbl.get_set_same]

theorem Core.accGet_writeWin {k : Core} (h : Tbl.wf k.acc) {a : Nat} (hlo : 0x3F0000 ≤ a) (v : W64) :
    (k.writeWin a v).accGet ((a - 0x3F0000) / 4096) ((a - 0x3F0000) / 8 % 512) = v := by
  have ht : (a - 0x3F0000) / 4096 = (a - 0x3F0000) / 8 / 512 := by omega
  rw [Core.writeWin, if_pos hlo, ht]
  exact Core.accGet_accSet_same h _ _ v

/-! ## Each access -/

theorem MemOp.run_ld_reg (now : Nat) (k : Core) (rd : BitVec 5) (a : W32) :
    (MemOp.run now k (.ld rd a)).seq.reg rd = if rd = 0 then 0 else BitVec.ofNat 32 (leNat (k.mem.read a.toNat 4)) := by
  simp [MemOp.run, Seq.reg_setReg]

/-- The low half goes to the even register of the pair, the high half to the odd one. -/
theorem MemOp.run_ld64_reg (now : Nat) (k : Core) {rd : BitVec 5} (a : W32) (hr : rd.toNat % 2 = 0) :
    (rd ≠ 0 → (MemOp.run now k (.ld64 rd a)).seq.reg rd = BitVec.ofNat 32 (k.read64 a.toNat)) ∧
    (MemOp.run now k (.ld64 rd a)).seq.reg (rd + 1) = BitVec.ofNat 32 (k.read64 a.toNat / 2 ^ 32) := by
  have hne : rd ≠ rd + 1 := by bv_omega
  have hodd : rd + 1 ≠ 0 := by bv_omega
  refine ⟨fun h0 => ?_, ?_⟩
  · simp only [MemOp.run, Seq.loads_reg, Core.readSoft_read64, Core.readSoft_seq, Seq.reg_setReg_ne _ _ hne, Seq.reg_setReg_same _ _ _ h0]
  · simp only [MemOp.run, Seq.loads_reg, Core.readSoft_read64, Seq.reg_setReg_same _ _ _ hodd]

theorem descKeep_ofNat_leNat (b : Bytes) (h : leNat b < 2 ^ 128) :
    descKeep (BitVec.ofNat 128 (leNat b)) = BitVec.ofNat 128 (leNat b / 2 ^ 51 * 2 ^ 51) := by
  rw [descKeep, BitVec.toNat_ofNat, Nat.mod_eq_of_lt h]

theorem leNat_lt (b : Bytes) : leNat b < 256 ^ b.length := by
  induction b with
  | nil => simp [leNat]
  | cons x b ih =>
    have := x.isLt
    simp only [leNat, List.length_cons, pow_succ]
    omega

theorem MemOp.run_dld_desc (now : Nat) (k : Core) (d : BitVec 4) (a : W32) :
    (MemOp.run now k (.dld d a)).seq.desc d = BitVec.ofNat 128 (leNat (k.mem.read a.toNat 16) / 2 ^ 51 * 2 ^ 51) := by
  have hlt : leNat (k.mem.read a.toNat 16) < 2 ^ 128 := by
    simpa [Memory.read] using leNat_lt (k.mem.read a.toNat 16)
  simp only [MemOp.run, Seq.desc_setDesc_same, Core.readSoft_mem, descKeep_ofNat_leNat _ hlt]

theorem MemOp.run_st64_banks (now : Nat) (k : Core) {a : W32} (v : W64) (h : a.toNat + 8 ≤ 2621440) :
    MemOp.run now k (.st64 a v) = k.storeBytes a.toNat (leBytes 8 v.toNat) := by
  simp [MemOp.run, inBanks, h]
theorem MemOp.run_st64_window (now : Nat) (k : Core) {a : W32} (v : W64) (h : 0x3F0000 ≤ a.toNat) :
    MemOp.run now k (.st64 a v) = k.writeWin a.toNat v := by
  have hb : ¬ a.toNat + 8 ≤ 2621440 := by omega
  simp [MemOp.run, inBanks, hb]

/-! ## The bounds of each access (R138, R159, R165) -/

theorem inProgram_of_clear {a n : Nat} (h : a + n ≤ 0x270000 ∨ (0x280000 ≤ a ∧ a + n ≤ 2621440)) : inBanks a n = true ∧ inProgram a n = false := by
  simp only [inBanks, inProgram, decide_eq_true_eq, Bool.and_eq_false_iff, decide_eq_false_iff_not]
  omega
theorem inWindow_of_tile {a : Nat} (hlo : 0x3F0000 ≤ a) (hhi : a + 8 ≤ 0x400000) : inWindow a 8 = true := by
  simp only [inWindow, Bool.and_eq_true, decide_eq_true_eq]
  omega

/-- A scalar access that is in bounds, that no earlier operation holds and that no uncorrectable word is in the way of, is performed. -/
theorem memSlot_go {now : Nat} {m : MemOp} {k : Core} (hf : m.fail = none) (hw : k.memBlocked m = false) (hb : k.badWords = []) :
    memSlot now m k = .go (m.run now k) := by
  have hbad : m.bad k = none := by cases m <;> simp [MemOp.bad, Core.badAt, hb]
  simp [memSlot, hf, hw, hbad]

/-! ## Addresses (R171) -/

theorem ofInt_eq_scalarAddr (k : Core) (rs1 : BitVec 5) (imm : BitVec 14) :
    BitVec.ofInt 32 ((k.pre.reg rs1).toInt + imm.toInt) = scalarAddr k rs1 imm := by
  rw [BitVec.ofInt_add, BitVec.ofInt_toInt, scalarAddr, BitVec.signExtend]
theorem ofInt_eq_descAddr (k : Core) (rs1 : BitVec 5) (imm : BitVec 15) :
    BitVec.ofInt 32 ((k.pre.reg rs1).toInt + 16 * imm.toInt) = descAddr k rs1 imm := by
  rw [BitVec.ofInt_add, BitVec.ofInt_toInt, BitVec.ofInt_mul, BitVec.mul_comm, descAddr, BitVec.signExtend]
  rfl

theorem toNat_pair (hi lo : W32) : (hi ++ lo : W64).toNat = lo.toNat + 2 ^ 32 * hi.toNat := by
  rw [BitVec.toNat_append, Nat.shiftLeft_eq, Nat.mul_comm, ← Nat.two_pow_add_eq_or_of_lt lo.isLt, Nat.add_comm]

theorem getLsbD_zero_of_even {r : BitVec 5} (h : r.toNat % 2 = 0) : r.getLsbD 0 = false := by
  simp [BitVec.getLsbD, Nat.testBit_zero, h]

end Sys2Proof.Machine
end

section
/-!
SUPPORT. The statement of the loads and stores (R138, R139, R159, R165, R171).
-/
namespace Sys2Proof.Proofs
open Sys2Proof.Machine Sys2Proof.Safety

theorem ldWait_mem_wf {s : State} (h : memOk s) (c : Nat) (rs : List (BitVec 5)) : Memory.wf ((entered s c 0).ldWait s.now rs).mem := by
  rw [Core.ldWait_mem, entered, Core.enter_mem]
  exact h c

/-- A scalar access that nothing is in the way of answers the state in which it is performed and its slot complete. -/
theorem answers_of_access {c : Instr} {s : State} {p : Place} {opcode : Nat} {rs : List (BitVec 5)} {f : Core → SlotRes} {m : MemOp}
    {P : State → Prop} (hr : ready s p.core) (hv : p.rsv = false)
    (he : exec c s = .next (issue s p.core 0 opcode p.last p.rsv (afterLoad s rs f)))
    (hm : f ((entered s p.core 0).ldWait s.now rs) = memSlot s.now m ((entered s p.core 0).ldWait s.now rs))
    (hf : m.fail = none) (hfree : (entered s p.core 0).memBlocked m = false ∧ (entered s p.core 0).badWords = [])
    (hP : P (s.setCore p.core ((m.run s.now ((entered s p.core 0).ldWait s.now rs)).endSlot p.last s.now))) : answers c s P := by
  obtain ⟨hissue, hprogram⟩ := hr
  obtain ⟨hunblocked, hsound⟩ := hfree
  have hgo := hm.trans (memSlot_go (now := s.now) hf (by simpa using hunblocked) (by simpa using hsound))
  exact ⟨_, he, by rw [hv, issue_go hissue (Core.fetchFail_none hprogram) hgo]; exact hP⟩

section
variable {s : State} {p : Place} {r rs1 : BitVec 5} {d : BitVec 4} {imm : BitVec 14} {imm15 : BitVec 15} {a : W32}
  (hr : ready s p.core) (hv : p.rsv = false)
include hr hv

theorem answers_ld (hA : scalarAddr (entered s p.core 0) rs1 imm = a) (ha : a.toNat % 4 = 0) (hb : a.toNat + 4 ≤ 2621440)
    (hfree : (entered s p.core 0).memBlocked (.ld r a) = false ∧ (entered s p.core 0).badWords = []) :
    answers (.ld p r rs1 imm) s fun t =>
      (t.core p.core).seq.reg r = if r = 0 then 0 else BitVec.ofNat 32 (leNat ((entered s p.core 0).mem.read a.toNat 4)) := by
  refine answers_of_access hr hv rfl (by rw [scalarAddr_ldWait, hA]) (by simp [MemOp.fail, inBanks, ha, hb]) hfree ?_
  rw [State.core_setCore_same, Core.endSlot_seq_reg, MemOp.run_ld_reg, Core.ldWait_mem]

theorem answers_st (hwf : memOk s) (hA : scalarAddr (entered s p.core 0) rs1 imm = a) (ha : a.toNat % 4 = 0)
    (hb : a.toNat + 4 ≤ 0x270000 ∨ (0x280000 ≤ a.toNat ∧ a.toNat + 4 ≤ 2621440))
    (hfree : (entered s p.core 0).memBlocked (.st a ((entered s p.core 0).pre.reg r)) = false ∧ (entered s p.core 0).badWords = []) :
    answers (.st p r rs1 imm) s fun t => (t.core p.core).mem.read a.toNat 4 = leBytes 4 ((entered s p.core 0).pre.reg r).toNat := by
  obtain ⟨hbank, hprog⟩ := inProgram_of_clear hb
  refine answers_of_access hr hv rfl (by rw [scalarAddr_ldWait, Core.ldWait_pre_reg, hA]) (by simp [MemOp.fail, ha, hbank, hprog]) hfree ?_
  rw [State.core_setCore_same, Core.endSlot_mem]
  exact Core.storeBytes_read (ldWait_mem_wf hwf p.core _) _ 4 _

/-- What LD64 loads is the eight bytes of the banks or the entry of a tile that stands at its address. -/
theorem answers_ld64 (hA : scalarAddr (entered s p.core 0) rs1 imm = a) (hev : r.toNat % 2 = 0) (hf : (MemOp.ld64 r a).fail = none)
    (hfree : (entered s p.core 0).memBlocked (.ld64 r a) = false ∧ (entered s p.core 0).badWords = []) :
    answers (.ld64 p r rs1 imm) s fun t =>
      (r ≠ 0 → (t.core p.core).seq.reg r = BitVec.ofNat 32 ((entered s p.core 0).read64 a.toNat)) ∧
      (t.core p.core).seq.reg (r + 1) = BitVec.ofNat 32 ((entered s p.core 0).read64 a.toNat / 2 ^ 32) := by
  refine answers_of_access hr hv rfl (by rw [getLsbD_zero_of_even hev, if_neg Bool.false_ne_true, scalarAddr_ldWait, hA]) hf hfree ?_
  rw [State.core_setCore_same, Core.endSlot_seq_reg, Core.endSlot_seq_reg]
  have hrun := MemOp.run_ld64_reg s.now ((entered s p.core 0).ldWait s.now [rs1]) a hev
  rwa [Core.ldWait_read64] at hrun

/-- ST64 performs its store of the register pair, the even register least significant. -/
theorem answers_st64 {P : State → Prop} (hA : scalarAddr (entered s p.core 0) rs1 imm = a) (hev : r.toNat % 2 = 0)
    (hf : (MemOp.st64 a ((entered s p.core 0).pre.reg (r + 1) ++ (entered s p.core 0).pre.reg r)).fail = none)
    (hfree : (entered s p.core 0).memBlocked (.st64 a ((entered s p.core 0).pre.reg (r + 1) ++ (entered s p.core 0).pre.reg r)) = false ∧
      (entered s p.core 0).badWords = [])
    (hP : P (s.setCore p.core (((MemOp.st64 a ((entered s p.core 0).pre.reg (r + 1) ++ (entered s p.core 0).pre.reg r)).run s.now
      ((entered s p.core 0).ldWait s.now [rs1, r, r + 1])).endSlot p.last s.now))) :
    answers (.st64 p r rs1 imm) s P :=
  answers_of_access hr hv rfl
    (by rw [getLsbD_zero_of_even hev, if_neg Bool.false_ne_true, scalarAddr_ldWait, Core.ldWait_pre_reg, Core.ldWait_pre_reg, hA]) hf hfree hP

theorem answers_st64_banks (hwf : memOk s) (hA : scalarAddr (entered s p.core 0) rs1 imm = a) (ha : a.toNat % 8 = 0)
    (hb : a.toNat + 8 ≤ 0x270000 ∨ (0x280000 ≤ a.toNat ∧ a.toNat + 8 ≤ 2621440)) (hev : r.toNat % 2 = 0)
    (hfree : (entered s p.core 0).memBlocked (.st64 a 0) = false ∧ (entered s p.core 0).badWords = []) :
    answers (.st64 p r rs1 imm) s fun t => (t.core p.core).mem.read a.toNat 8 =
      leBytes 8 (((entered s p.core 0).pre.reg r).toNat + 2 ^ 32 * ((entered s p.core 0).pre.reg (r + 1)).toNat) := by
  obtain ⟨hbank, hprog⟩ := inProgram_of_clear hb
  refine answers_st64 hr hv hA hev (by simp [MemOp.fail, ha, hbank, hprog]) hfree ?_
  rw [State.core_setCore_same, Core.endSlot_mem, MemOp.run_st64_banks _ _ _ (by omega), toNat_pair]
  exact Core.storeBytes_read (ldWait_mem_wf hwf p.core _) _ 8 _

theorem answers_st64_tile (hA : scalarAddr (entered s p.core 0) rs1 imm = a) (ha : a.toNat % 8 = 0) (hlo : 0x3F0000 ≤ a.toNat)
    (hhi : a.toNat + 8 ≤ 0x400000) (hev : r.toNat % 2 = 0)
    (hfree : (entered s p.core 0).memBlocked (.st64 a 0) = false ∧ (entered s p.core 0).badWords = []) :
    answers (.st64 p r rs1 imm) s fun t => Tbl.wf (entered s p.core 0).acc →
      ((t.core p.core).accGet ((a.toNat - 0x3F0000) / 4096) ((a.toNat - 0x3F0000) / 8 % 512)).toNat =
        ((entered s p.core 0).pre.reg r).toNat + 2 ^ 32 * ((entered s p.core 0).pre.reg (r + 1)).toNat := by
  refine answers_st64 hr hv hA hev (by simp [MemOp.fail, ha, inWindow_of_tile hlo hhi]) hfree fun hacc => ?_
  rw [State.core_setCore_same, Core.endSlot_accGet, MemOp.run_st64_window _ _ _ hlo,
    Core.accGet_writeWin (by rwa [Core.ldWait_acc]) hlo, toNat_pair]

theorem answers_dld (hA : descAddr (entered s p.core 0) rs1 imm15 = a) (ha : a.toNat % 16 = 0) (hb : a.toNat + 16 ≤ 2621440)
    (hfree : (entered s p.core 0).memBlocked (.dld d a) = false ∧ (entered s p.core 0).badWords = []) :
    answers (.dld p d rs1 imm15) s fun t =>
      (t.core p.core).seq.desc d = BitVec.ofNat 128 (leNat ((entered s p.core 0).mem.read a.toNat 16) / 2 ^ 51 * 2 ^ 51) := by
  refine answers_of_access hr hv rfl (by rw [descAddr_ldWait, hA]) (by simp [MemOp.fail, inBanks, ha, hb]) hfree ?_
  rw [State.core_setCore_same, Core.endSlot_seq_desc, MemOp.run_dld_desc, Core.ldWait_mem]

theorem answers_dst (hwf : memOk s) (hA : descAddr (entered s p.core 0) rs1 imm15 = a) (ha : a.toNat % 16 = 0)
    (hb : a.toNat + 16 ≤ 0x270000 ∨ (0x280000 ≤ a.toNat ∧ a.toNat + 16 ≤ 2621440))
    (hfree : (entered s p.core 0).memBlocked (.dst a ((entered s p.core 0).pre.desc d)) = false ∧ (entered s p.core 0).badWords = []) :
    answers (.dst p d rs1 imm15) s fun t => (t.core p.core).mem.read a.toNat 16 = leBytes 16 ((entered s p.core 0).pre.desc d).toNat := by
  obtain ⟨hbank, hprog⟩ := inProgram_of_clear hb
  refine answers_of_access hr hv rfl (by rw [descAddr_ldWait, Core.ldWait_pre_desc, hA]) (by simp [MemOp.fail, ha, hbank, hprog]) hfree ?_
  rw [State.core_setCore_same, Core.endSlot_mem]
  exact Core.storeBytes_read (ldWait_mem_wf hwf p.core _) _ 16 _

end

/-- A slot that opens a bundle with an uncorrectable word stops its core with cause 15, whatever the slot is; stated for LD (log 160). -/
theorem answers_fetch_fault {u : State} {p : Place} {r rs1 : BitVec 5} {imm : BitVec 14} {w : Nat} (hissue : (u.core p.core).canIssue = true)
    (hopen : (u.core p.core).bundle = none) (hidle : (u.core p.core).active = []) (hw : w ∈ (u.core p.core).badWords)
    (hpc : w / 2 = 0x27000 + (u.core p.core).seq.pc.toNat) :
    answers (.ld p r rs1 imm) u fun t => (t.core p.core).run = .stopped ∧ (t.core p.core).seq.regs = (u.core p.core).seq.regs ∧
      ∃ x, (t.core p.core).report = some x ∧ x.cause = 15 ∧ x.bundle = (u.core p.core).seq.pc.toNat := by
  obtain ⟨e, hfail, hcause⟩ := Core.fetchFail_some 0 u.now hopen hw hpc
  obtain ⟨hrun, hregs, x, hreport, hx, -, -, hbundle⟩ := stepFault_at_issue (s := u.setCore p.core ((u.core p.core).enter 0 u.now))
    (c := p.core) e 0 (by simp [Core.canIssue_run hissue]) (by simp [hidle])
  refine ⟨_, rfl, ?_⟩
  rw [issue_fetch hissue hfail]
  refine ⟨hrun, ?_, x, hreport, hx.trans hcause, ?_⟩
  · rw [hregs, State.core_setCore_same, Core.enter_pre_of_none hopen]
  · rw [hbundle, State.core_setCore_same, Core.enter_seq_pc_of_none hopen]

/-- Settles O10: each access goes through `answers_of_access`, and the law of its operation says what it read or wrote. -/
theorem loadsStores : Obligations.LoadsStores := by
  unfold Obligations.LoadsStores
  intro s p r rs1 d imm imm15 hr hv hwf
  simp only [ofInt_eq_scalarAddr, ofInt_eq_descAddr]
  refine ⟨answers_ld hr hv rfl, answers_st hr hv hwf rfl, ?ld64Banks, ?ld64Tile, answers_st64_banks hr hv hwf rfl,
    answers_st64_tile hr hv rfl, answers_dld hr hv rfl, answers_dst hr hv hwf rfl, fun u w => answers_fetch_fault⟩
  case ld64Banks =>
    intro ha hb hev hfree
    rw [← Core.read64_banks _ ha hb]
    exact answers_ld64 hr hv rfl hev (by simp [MemOp.fail, inBanks, ha, hb]) hfree
  case ld64Tile =>
    intro ha hlo hhi hev hfree
    rw [← Core.read64_tile _ ha hlo hhi]
    exact answers_ld64 hr hv rfl hev (by simp [MemOp.fail, inWindow_of_tile hlo hhi, ha]) hfree

end Sys2Proof.Proofs
end

section
/-!
SUPPORT. What the empty tables of the state after reset read as, and the invariants that hold there.
-/
namespace Sys2Proof.Proofs
open Sys2Proof.Machine Sys2Proof.Safety

theorem memOk_reset : memOk State.reset := fun _ => ⟨List.Pairwise.nil, fun _ he => absurd he List.not_mem_nil⟩

theorem zeroOk_reset : zeroOk State.reset := fun _ => ⟨rfl, fun _ hb => nomatch hb⟩

/-- No table of the state after reset has an entry. -/
theorem tablesOk_reset : tablesOk State.reset :=
  have nil {α : Type} : Tbl.wf ([] : Tbl α) := List.Pairwise.nil
  ⟨nil, nil, nil, nil, nil, nil, nil, nil, nil, nil, nil, nil, fun _ => nil, fun _ => nil, fun _ => ⟨nil, nil⟩⟩

theorem sync_reset (i : Nat) : (State.reset.sync i).value = 0 ∧ (State.reset.sync i).owner = none := ⟨rfl, rfl⟩
theorem region_reset (n : Nat) : (State.reset.region n).state = 0 ∧ (State.reset.region n).img = none := ⟨rfl, rfl⟩

/-- Every register of a core that was never written reads as zero. -/
theorem reg_reset (c : Nat) (r : BitVec 5) : (State.reset.core c).seq.reg r = 0 := by
  have hseq : (State.reset.core c).seq.regs = Vector.replicate 32 0 := rfl
  unfold Seq.reg
  split
  · rfl
  · simp [hseq]

/-- No command waits, since no handle has an entry. -/
theorem cmd?_reset (h : Nat) : State.reset.cmd? h = none := rfl

/-- No setting is stored, so each reads as its default (R250). -/
theorem setting_reset (index sub dflt : Nat) : State.reset.setting index sub dflt = dflt := rfl

/-- Settles O58: every table is empty at reset, so each unit reads as its own reset value. -/
theorem resetState : Obligations.ResetState := by
  unfold Obligations.ResetState
  refine ⟨rfl, rfl, rfl, rfl, rfl, rfl, rfl, rfl, ?cores, sync_reset, region_reset, ?dark, cmd?_reset, setting_reset,
    memOk_reset, zeroOk_reset, tablesOk_reset⟩
  case cores =>
    intro c
    exact ⟨rfl, rfl, rfl, reg_reset c, fun _ => rfl⟩
  case dark => exact fun _ => rfl

end Sys2Proof.Proofs
end

section
/-!
SUPPORT. What the laws of finite tables leave out: the empty table, a filtered one, and tables built step by step have rising keys.
-/
namespace Sys2Proof.Machine

variable {α β : Type}

theorem Tbl.wf_nil : Tbl.wf ([] : Tbl α) := List.Pairwise.nil

theorem Tbl.wf_filter {t : Tbl α} (h : Tbl.wf t) (p : Nat × α → Bool) : Tbl.wf (t.filter p) := List.Pairwise.filter p h

theorem Tbl.wf_ite {c : Prop} [Decidable c] {t u : Tbl α} (ht : Tbl.wf t) (hu : Tbl.wf u) : Tbl.wf (if c then t else u) := by
  split
  · exact ht
  · exact hu

theorem Tbl.wf_foldl {t : Tbl α} {l : List β} {f : Tbl α → β → Tbl α} (h : Tbl.wf t) (hf : ∀ t x, Tbl.wf t → Tbl.wf (f t x)) :
    Tbl.wf (l.foldl f t) := by
  induction l generalizing t with
  | nil => exact h
  | cons x l ih => exact ih (hf t x h)

/-- What an entry after a write satisfies: the entry written, or the one that stood there. -/
theorem Tbl.get_set_cases {P : α → Prop} {t : Tbl α} {d x : α} {i j : Nat} (h : P (Tbl.get t d j)) (hx : P x) :
    P (Tbl.get (Tbl.set t i x) d j) := by
  by_cases hj : j = i
  · subst hj
    rwa [Tbl.get_set_same]
  · rwa [Tbl.get_set_ne _ _ _ hj]

/-- What an entry of a mapped table satisfies, when the map keeps it and the default has it. -/
theorem Tbl.get_map_cases {P : α → Prop} {t : Tbl α} {d : α} {f : Nat → α → α} {i : Nat} (h : P (Tbl.get t d i)) (hd : P d)
    (hf : ∀ i x, P x → P (f i x)) : P (Tbl.get (Tbl.map f t) d i) := by
  rw [Tbl.get, Tbl.find_map]
  rw [Tbl.get] at h
  cases hi : Tbl.find t i with
  | none => exact hd
  | some x =>
    rw [hi] at h
    exact hf i x h

end Sys2Proof.Machine
end

section
/-!
SUPPORT. The invariant `tablesOk` with named parts, and what the updates of the state's units keep of it. Each function of the
model then has one lemma below, named after the function: `h.emit` says that what `emit` answers has rising keys when the state had (`h`).
-/
namespace Sys2Proof.Proofs
open Sys2Proof.Machine Sys2Proof.Safety

/-! ## The invariant by its parts -/

/-- The tables of a core that a removal reads. -/
structure CoreWf (k : Core) : Prop where
  acc : Tbl.wf k.acc
  active : Tbl.wf k.active

/-- The table of a tenant region that a removal reads. -/
structure RegionWf (r : Region) : Prop where
  windows : Tbl.wf r.windows

/-- The table of an optical port that a removal reads. -/
structure PortWf (p : Port) : Prop where
  chans : Tbl.wf p.chans

/-- The invariant `tablesOk`, part by part. -/
structure TablesWf (s : State) : Prop where
  regions : Tbl.wf s.regions
  ctxs : Tbl.wf s.serving.ctxs
  sqs : Tbl.wf s.host.sqs
  rings : Tbl.wf s.host.rings
  reads : Tbl.wf s.host.reads
  writes : Tbl.wf s.host.writes
  handles : Tbl.wf s.host.handles
  vals : Tbl.wf s.od.vals
  saves : Tbl.wf s.od.pending
  sessions : Tbl.wf s.boot.sessions
  dumps : Tbl.wf s.observe.dumps
  ports : Tbl.wf s.fabric.ports
  region : ∀ n, RegionWf (s.region n)
  port : ∀ p, PortWf (s.port p)
  core : ∀ c, CoreWf (s.core c)

theorem tablesOk_iff {s : State} : tablesOk s ↔ TablesWf s := by
  constructor
  · rintro ⟨regions, ctxs, sqs, rings, reads, writes, handles, vals, saves, sessions, dumps, ports, region, port, core⟩
    exact ⟨regions, ctxs, sqs, rings, reads, writes, handles, vals, saves, sessions, dumps, ports, fun n => ⟨region n⟩,
      fun p => ⟨port p⟩, fun c => ⟨(core c).1, (core c).2⟩⟩
  · intro h
    exact ⟨h.regions, h.ctxs, h.sqs, h.rings, h.reads, h.writes, h.handles, h.vals, h.saves, h.sessions, h.dumps, h.ports,
      fun n => (h.region n).windows, fun p => (h.port p).chans, fun c => ⟨(h.core c).acc, (h.core c).active⟩⟩

theorem CoreWf.reset : CoreWf Core.reset := ⟨.nil, .nil⟩

theorem RegionWf.reset : RegionWf Region.reset := ⟨.nil⟩

theorem PortWf.reset : PortWf Port.reset := ⟨.nil⟩

/-! ## Updates of one core, one region, one port -/

section
variable {s : State}

theorem TablesWf.setCore {c : Nat} {k : Core} (h : TablesWf s) (hk : CoreWf k) : TablesWf (s.setCore c k) :=
  { h with core := fun d => Tbl.get_set_cases (h.core d) hk }

theorem TablesWf.setRegion {n : Nat} {r : Region} (h : TablesWf s) (hr : RegionWf r) : TablesWf (s.setRegion n r) :=
  { h with regions := Tbl.wf_set h.regions n r, region := fun m => Tbl.get_set_cases (h.region m) hr }

theorem TablesWf.setPort {p : Nat} {x : Port} (h : TablesWf s) (hx : PortWf x) : TablesWf (s.setPort p x) :=
  { h with ports := Tbl.wf_set h.ports p x, port := fun m => Tbl.get_set_cases (h.port m) hx }

theorem TablesWf.updCore {c : Nat} {f : Core → Core} (h : TablesWf s) (hf : ∀ k, CoreWf k → CoreWf (f k)) :
    TablesWf (s.updCore c f) :=
  h.setCore (hf _ (h.core c))

theorem TablesWf.updRegion {n : Nat} {f : Region → Region} (h : TablesWf s) (hf : ∀ r, RegionWf r → RegionWf (f r)) :
    TablesWf (s.updRegion n f) :=
  h.setRegion (hf _ (h.region n))

theorem TablesWf.core_map {f : Nat → Core → Core} (h : TablesWf s) (hf : ∀ c k, CoreWf k → CoreWf (f c k)) (c : Nat) :
    CoreWf (Tbl.get (Tbl.map f s.cores) Core.reset c) :=
  Tbl.get_map_cases (h.core c) .reset hf

theorem TablesWf.region_map {f : Nat → Region → Region} (h : TablesWf s) (hf : ∀ n r, RegionWf r → RegionWf (f n r)) (n : Nat) :
    RegionWf (Tbl.get (Tbl.map f s.regions) Region.reset n) :=
  Tbl.get_map_cases (h.region n) .reset hf

end

/-! ## Updates that leave the tables -/

section
variable {k : Core} {run clockOn fence seq bundle held heldLast waitFrom idleFrom lastIssue stoppedAt fetched prog mem accStat badWords softWords
  oqs iqs awaits holds ae arrays sets router ctrs ovf clearedAt report watchN restartBy packed posts}

/-- An update of the fields of a core without such a table. -/
theorem CoreWf.frame (h : CoreWf k) :
    CoreWf { k with
      run := run, clockOn := clockOn, fence := fence, seq := seq, bundle := bundle, held := held, heldLast := heldLast,
      waitFrom := waitFrom, idleFrom := idleFrom, lastIssue := lastIssue, stoppedAt := stoppedAt, fetched := fetched, prog := prog,
      mem := mem, accStat := accStat, badWords := badWords, softWords := softWords, oqs := oqs, iqs := iqs, awaits := awaits,
      holds := holds, ae := ae, arrays := arrays, sets := sets, router := router, ctrs := ctrs, ovf := ovf, clearedAt := clearedAt,
      report := report, watchN := watchN, restartBy := restartBy, packed := packed, posts := posts } :=
  { h with }

end

section
variable {s : State} {now almanac free factory syncs mesh mgmt power thermal upkeep faults out pending}

/-- An update of the units without such a table. -/
theorem TablesWf.frame (h : TablesWf s) :
    TablesWf { s with
      now := now, almanac := almanac, free := free, factory := factory, syncs := syncs, mesh := mesh, mgmt := mgmt, power := power,
      thermal := thermal, upkeep := upkeep, faults := faults, out := out, pending := pending } :=
  { h with }

end

/-- A state whose units other than cores and regions have the tables of one that satisfies the invariant. -/
theorem TablesWf.ofUnits {s t : State} (h : TablesWf s)
    (htables : (t.serving.ctxs, t.host.sqs, t.host.rings, t.host.reads, t.host.writes, t.host.handles,
      t.od.vals, t.od.pending, t.boot.sessions, t.observe.dumps, t.fabric.ports) =
      (s.serving.ctxs, s.host.sqs, s.host.rings, s.host.reads, s.host.writes, s.host.handles,
        s.od.vals, s.od.pending, s.boot.sessions, s.observe.dumps, s.fabric.ports))
    (hcores : ∀ c, CoreWf (t.core c)) (hregions : Tbl.wf t.regions) (hregion : ∀ n, RegionWf (t.region n)) : TablesWf t := by
  simp only [Prod.mk.injEq] at htables
  obtain ⟨hctxs, hsqs, hrings, hreads, hwrites, hhandles, hvals, hsaves, hsessions, hdumps, hports⟩ := htables
  exact {
    regions := hregions
    ctxs := hctxs ▸ h.ctxs
    sqs := hsqs ▸ h.sqs
    rings := hrings ▸ h.rings
    reads := hreads ▸ h.reads
    writes := hwrites ▸ h.writes
    handles := hhandles ▸ h.handles
    vals := hvals ▸ h.vals
    saves := hsaves ▸ h.saves
    sessions := hsessions ▸ h.sessions
    dumps := hdumps ▸ h.dumps
    ports := hports ▸ h.ports
    region := hregion
    port := fun p => by
      have hp := h.port p
      simp only [State.port] at hp ⊢
      rwa [hports]
    core := hcores }

section
variable {s : State} {now almanac free factory syncs mesh mgmt power thermal upkeep faults out pending} {boot : Boot} {serving : Serving}
  {host : HostIf} {od : Od} {fabric : Fabric} {observe : Observe} {f : Nat → Core → Core} {g : Nat → Region → Region}
  (h : TablesWf s)
  (htables : (serving.ctxs, host.sqs, host.rings, host.reads, host.writes, host.handles,
      od.vals, od.pending, boot.sessions, observe.dumps, fabric.ports) =
    (s.serving.ctxs, s.host.sqs, s.host.rings, s.host.reads, s.host.writes, s.host.handles,
        s.od.vals, s.od.pending, s.boot.sessions, s.observe.dumps, s.fabric.ports))
include h htables

/-- An update of any units that leaves their tables. -/
theorem TablesWf.units :
    TablesWf ⟨now, almanac, free, factory, boot, s.cores, syncs, mesh, s.regions, serving, host, od, mgmt, power, thermal,
      upkeep, faults, fabric, observe, out, pending⟩ :=
  h.ofUnits htables h.core h.regions h.region

/-- A change of every core and of units whose tables stay. -/
theorem TablesWf.mapCores (hf : ∀ c k, CoreWf k → CoreWf (f c k)) :
    TablesWf ⟨now, almanac, free, factory, boot, Tbl.map f s.cores, syncs, mesh, s.regions, serving, host, od, mgmt, power, thermal,
      upkeep, faults, fabric, observe, out, pending⟩ :=
  h.ofUnits htables (h.core_map hf) h.regions h.region

/-- A change of every region and of units whose tables stay. -/
theorem TablesWf.mapRegions (hg : ∀ n r, RegionWf r → RegionWf (g n r)) :
    TablesWf ⟨now, almanac, free, factory, boot, s.cores, syncs, mesh, Tbl.map g s.regions, serving, host, od, mgmt, power, thermal,
      upkeep, faults, fabric, observe, out, pending⟩ :=
  h.ofUnits htables h.core (Tbl.wf_map h.regions g) (h.region_map hg)

/-- A change of every core, of every region and of units whose tables stay. -/
theorem TablesWf.mapUnits (hf : ∀ c k, CoreWf k → CoreWf (f c k)) (hg : ∀ n r, RegionWf r → RegionWf (g n r)) :
    TablesWf ⟨now, almanac, free, factory, boot, Tbl.map f s.cores, syncs, mesh, Tbl.map g s.regions, serving, host, od, mgmt,
      power, thermal, upkeep, faults, fabric, observe, out, pending⟩ :=
  h.ofUnits htables (h.core_map hf) (Tbl.wf_map h.regions g) (h.region_map hg)

end

/-! ## Folds, pairs, options and outcomes -/

theorem TablesWf.foldl {α : Type} {s : State} {l : List α} {f : State → α → State} (h : TablesWf s)
    (hf : ∀ s x, TablesWf s → TablesWf (f s x)) : TablesWf (l.foldl f s) := by
  induction l generalizing s with
  | nil => exact h
  | cons x l ih => exact ih (hf s x h)

theorem TablesWf.foldlFst {α β : Type} {a : State × β} {l : List α} {f : State × β → α → State × β} (h : TablesWf a.1)
    (hf : ∀ a x, TablesWf a.1 → TablesWf (f a x).1) : TablesWf (l.foldl f a).1 := by
  induction l generalizing a with
  | nil => exact h
  | cons x l ih => exact ih (hf a x h)

theorem CoreWf.foldl {α : Type} {k : Core} {l : List α} {f : Core → α → Core} (h : CoreWf k)
    (hf : ∀ k x, CoreWf k → CoreWf (f k x)) : CoreWf (l.foldl f k) := by
  induction l generalizing k with
  | nil => exact h
  | cons x l ih => exact ih (hf k x h)

theorem TablesWf.ofFst {α : Type} {p : State × α} {t : State} {a : α} (h : TablesWf p.1) (e : p = (t, a)) : TablesWf t := by
  subst e
  exact h

theorem TablesWf.ofSnd {α : Type} {p : α × State} {t : State} {a : α} (h : TablesWf p.2) (e : p = (a, t)) : TablesWf t := by
  subst e
  exact h

/-- What an optional state satisfies when it is there. -/
def OptWf (o : Option State) : Prop := ∀ t, o = some t → TablesWf t

theorem OptWf.ofNone : OptWf none := fun _ ht => absurd ht (Option.some_ne_none _).symm

theorem OptWf.ofSome {s : State} (h : TablesWf s) : OptWf (some s) := fun _ ht => Option.some.inj ht ▸ h

theorem OptWf.get {o : Option State} {t : State} (h : OptWf o) (e : o = some t) : TablesWf t := h t e

theorem OptWf.getFst {α : Type} {o : Option (State × α)} {t : State} {a : α} (h : OptWf (o.map (·.1))) (e : o = some (t, a)) :
    TablesWf t := by
  subst e
  exact h t rfl

theorem OptWf.getD {o : Option State} {s : State} (h : OptWf o) (hs : TablesWf s) : TablesWf (o.getD s) := by
  cases o with
  | none => exact hs
  | some t => exact h t rfl

theorem OptWf.map {α : Type} {o : Option α} {f : α → State} (hf : ∀ x, TablesWf (f x)) : OptWf (o.map f) := by
  intro t ht
  obtain ⟨x, -, rfl⟩ := Option.map_eq_some_iff.1 ht
  exact hf x

theorem OptWf.mapState {o : Option State} {f : State → State} (h : OptWf o) (hf : ∀ s, TablesWf s → TablesWf (f s)) :
    OptWf (o.map f) := by
  intro t ht
  obtain ⟨s, hs, rfl⟩ := Option.map_eq_some_iff.1 ht
  exact hf s (h s hs)

theorem OptWf.bind {o : Option State} {f : State → Option State} (h : OptWf o) (hf : ∀ s, TablesWf s → OptWf (f s)) :
    OptWf (o.bind f) := by
  intro t ht
  obtain ⟨s, hs, hst⟩ := Option.bind_eq_some_iff.1 ht
  exact hf s (h s hs) t hst

theorem OptWf.findSome? {α : Type} {l : List α} {f : α → Option State} (hf : ∀ x, OptWf (f x)) : OptWf (l.findSome? f) := by
  intro t ht
  obtain ⟨x, -, hx⟩ := List.exists_of_findSome?_eq_some ht
  exact hf x t hx

/-- What the next state of an outcome satisfies. -/
def OutWf (o : Host.Outcome State Fault Refusal) : Prop := ∀ t, o = .next t → TablesWf t

theorem OutWf.next {s : State} (h : TablesWf s) : OutWf (.next s) := by
  intro t ht
  cases ht
  exact h

/-! ## Effects of operations and results of slots -/

/-- Every effect of a list keeps the tables of a core. -/
def EffWf (l : Effects) : Prop := ∀ f ∈ l, ∀ k, CoreWf k → CoreWf (f k)

theorem EffWf.nil : EffWf [] := fun _ hf => absurd hf List.not_mem_nil

theorem EffWf.cons {f : Core → Core} {l : Effects} (hf : ∀ k, CoreWf k → CoreWf (f k)) (h : EffWf l) : EffWf (f :: l) :=
  List.forall_mem_cons.2 ⟨hf, h⟩

theorem EffWf.append {l m : Effects} (h : EffWf l) (hm : EffWf m) : EffWf (l ++ m) := List.forall_mem_append.2 ⟨h, hm⟩

theorem EffWf.map {α : Type} {l : List α} {f : α → Core → Core} (hf : ∀ x k, CoreWf k → CoreWf (f x k)) : EffWf (l.map f) :=
  List.forall_mem_map.2 fun x _ => hf x

theorem EffWf.flatMap {α : Type} {l : List α} {f : α → Effects} (hf : ∀ x, EffWf (f x)) : EffWf (l.flatMap f) := by
  intro g hg
  obtain ⟨x, -, hx⟩ := List.mem_flatMap.1 hg
  exact hf x g hx

theorem EffWf.take {l : Effects} {n : Nat} (h : EffWf l) : EffWf (l.take n) := fun f hf => h f (List.mem_of_mem_take hf)

theorem CoreWf.run {l : Effects} {k : Core} (hk : CoreWf k) (h : EffWf l) : CoreWf (l.run k) := by
  unfold Effects.run
  induction l generalizing k with
  | nil => exact hk
  | cons f l ih =>
    obtain ⟨hf, hl⟩ := List.forall_mem_cons.1 h
    exact ih (hf k hk) hl

/-- The core that a slot leaves has rising keys. -/
def SlotWf : SlotRes → Prop
  | .go k => CoreWf k
  | .bad _ => True
  | .late k _ => CoreWf k
  | .hold k _ => CoreWf k

theorem SlotWf.go {k : Core} (h : CoreWf k) : SlotWf (.go k) := h

theorem SlotWf.bad {f : Fail} : SlotWf (.bad f) := trivial

theorem SlotWf.late {k : Core} {f : Fail} (h : CoreWf k) : SlotWf (.late k f) := h

theorem SlotWf.hold {k : Core} {x : Held} (h : CoreWf k) : SlotWf (.hold k x) := h

end Sys2Proof.Proofs
end

section
/-!
SUPPORT. What the tables keep under the named operations of the state and of the host interface.
-/
namespace Sys2Proof.Proofs
open Sys2Proof.Machine Sys2Proof.Safety

/-! ## The named operations -/

theorem TablesWf.draw {s : State} {n : Nat} (h : TablesWf s) : TablesWf (s.draw n).2 := h.frame
theorem TablesWf.setSync {s : State} {i : Nat} {x : SyncObj} (h : TablesWf s) : TablesWf (s.setSync i x) := h.frame
theorem TablesWf.setPreg {s : State} {g : Nat} {x : PRegion} (h : TablesWf s) : TablesWf (s.setPreg g x) := h.frame
theorem TablesWf.updPreg {s : State} {g : Nat} {f : PRegion → PRegion} (h : TablesWf s) : TablesWf (s.updPreg g f) := h.setPreg

theorem TablesWf.setCtx {s : State} {i : Nat} {x : Ctx} (h : TablesWf s) : TablesWf (s.setCtx i x) := by
  unfold State.setCtx
  exact { h with ctxs := Tbl.wf_set h.ctxs _ _ }

theorem TablesWf.delCtx {s : State} {i : Nat} (h : TablesWf s) : TablesWf (s.delCtx i) := by
  unfold State.delCtx
  exact { h with ctxs := Tbl.wf_del h.ctxs _ }

theorem CoreWf.setArr {k : Core} {a : Nat} {x : Arr} (h : CoreWf k) : CoreWf (k.setArr a x) := by
  unfold Core.setArr
  exact { h with }

theorem CoreWf.setSet {k : Core} {i : Nat} {x : ASet} (h : CoreWf k) : CoreWf (k.setSet i x) := by
  unfold Core.setSet
  exact { h with }

theorem CoreWf.setOq {k : Core} {q : Nat} {l : List OqEntry} (h : CoreWf k) : CoreWf (k.setOq q l) := by
  unfold Core.setOq
  exact { h with }

theorem CoreWf.setIq {k : Core} {q : Nat} {l : List IqEntry} (h : CoreWf k) : CoreWf (k.setIq q l) := by
  unfold Core.setIq
  exact { h with }

theorem TablesWf.emit {s : State} {o : Out} (h : TablesWf s) : TablesWf (s.emit o) := h.frame

theorem TablesWf.silAppend {s : State} {type source : Nat} {payload : Bytes} (h : TablesWf s)
    : TablesWf (s.silAppend type source payload) := by
  unfold State.silAppend
  exact { h with }

theorem TablesWf.sil {s : State} {type source : Nat} {payload : Bytes} (h : TablesWf s) : TablesWf (s.sil type source payload) := by
  unfold State.sil
  dsimp only
  split
  · exact { h with }
  · split
    · exact h.silAppend
    · split
      · exact .units h.silAppend rfl
      · exact .silAppend (.units h.silAppend rfl)

theorem TablesWf.notice {s : State} {code source id v : Nat} (h : TablesWf s) : TablesWf (s.notice code source id v) := h.sil

theorem TablesWf.powerTo {s : State} {g : Nat} {st : PState} {cause : Nat} (h : TablesWf s) : TablesWf (s.powerTo g st cause) := by
  unfold State.powerTo
  dsimp only
  split
  · exact h
  · exact h.setPreg.sil

theorem TablesWf.odPending {s : State} {index sub : Nat} (h : TablesWf s) : TablesWf (odPending s index sub) := by
  unfold Machine.odPending
  dsimp only
  split
  · exact h
  · exact { h with saves := Tbl.wf_set h.saves _ _ }

/-! ## The host interface -/

theorem TablesWf.setSite {s : State} {i : Nat} {x : Site} (h : TablesWf s) : TablesWf (s.setSite i x) := by
  unfold State.setSite
  dsimp only
  split
  · exact { h with }
  · exact h

theorem TablesWf.setMod {s : State} {i m : Nat} {x : Machine.Mod} (h : TablesWf s) : TablesWf (s.setMod i m x) := h.setSite
theorem TablesWf.sendIdle {s : State} {i m : Nat} {nak : Bool} (h : TablesWf s) : TablesWf (s.sendIdle i m nak) := h.setMod.emit
theorem TablesWf.hostTook {s : State} {i m posted read : Nat} (h : TablesWf s) : TablesWf (s.hostTook i m posted read) := h.setMod.sendIdle
theorem TablesWf.drainMod {s : State} {i m : Nat} (h : TablesWf s) : TablesWf (s.drainMod i m) := h.setMod.frame

theorem TablesWf.hostSend {s : State} {i : Nat} {m : HMsg} (h : TablesWf s) : TablesWf (s.hostSend i m) := by
  unfold State.hostSend
  dsimp only
  split
  · exact h
  · exact h.setMod.drainMod

theorem TablesWf.writeGo {i : Nat} {s : State} {i1 i2 : Nat} {l : Bytes} (h : TablesWf s) : TablesWf (writeGo i s i1 i2 l) := by
  induction i generalizing s i1 i2 l with
  | zero => exact h
  | succ n ih =>
    rw [Machine.writeGo]
    dsimp only
    split
    · exact h
    · exact ih h.hostSend

theorem TablesWf.hostWrite {s : State} {i addr : Nat} {d : Bytes} (h : TablesWf s) : TablesWf (s.hostWrite i addr d) := by
  unfold State.hostWrite
  split
  · exact h
  · exact h.writeGo

theorem TablesWf.askGo {i : Nat} {s : State} {i1 i2 i3 : Nat} (h : TablesWf s) : TablesWf (askGo i s i1 i2 i3) := by
  induction i generalizing s i1 i2 i3 with
  | zero => exact h
  | succ n ih =>
    rw [Machine.askGo]
    dsimp only
    split
    · exact h
    · exact ih (.hostSend { h with })

theorem TablesWf.hostAsk {s : State} {i addr len : Nat} (h : TablesWf s) : TablesWf (s.hostAsk i addr len) := h.askGo

theorem TablesWf.setRing {s : State} {r : Nat} {x : Machine.Ring} (h : TablesWf s) : TablesWf (s.setRing r x) := by
  unfold State.setRing
  exact { h with rings := Tbl.wf_set h.rings _ _ }

theorem TablesWf.putRecord {s : State} {r : Nat} {b : Bytes} (h : TablesWf s) : TablesWf (s.putRecord r b) := by
  unfold State.putRecord
  dsimp only
  split
  · exact h
  · exact h.hostWrite.setRing

theorem TablesWf.ringIrq {s : State} {r : Nat} (h : TablesWf s) : TablesWf (s.ringIrq r) := by
  unfold State.ringIrq
  split
  · exact h
  · split
    · exact h
    · split
      · exact h.hostSend.setRing
      · exact h.setRing

theorem TablesWf.payOwed {s : State} {r : Nat} (h : TablesWf s) : TablesWf (s.payOwed r) := by
  unfold State.payOwed
  split
  · exact h
  · extract_lets +onlyGivenNames _ _
    split
    · exact h
    · exact .ringIrq (h.setRing.foldl fun s _ hs => hs.putRecord)

theorem TablesWf.putRecords {s : State} {r : Nat} {bs : List Bytes} (h : TablesWf s) : TablesWf (s.putRecords r bs) := by
  unfold State.putRecords
  split
  · exact h
  · exact .ringIrq (h.foldl fun s _ hs => hs.putRecord)

theorem TablesWf.postTo {s : State} {b : Bytes} {r : Nat} (h : TablesWf s) : TablesWf (s.postTo b r) := by
  unfold State.postTo
  dsimp only
  split
  · exact h
  · split
    · split
      · exact h.putRecords
      · exact h.setRing
    · split
      · exact h.setRing
      · exact h.setRing.putRecords

theorem TablesWf.postEvent {s : State} {code status result0 result1 : Nat} (h : TablesWf s)
    : TablesWf (s.postEvent code status result0 result1) :=
  .sil (h.foldl fun _ _ hs => hs.postTo)

theorem TablesWf.setHdl {s : State} {i : Nat} {x : Hdl} (h : TablesWf s) : TablesWf (s.setHdl i x) := by
  unfold State.setHdl
  exact { h with handles := Tbl.wf_set h.handles _ _ }

theorem TablesWf.setSq {s : State} {q : Nat} {x : Sq} (h : TablesWf s) : TablesWf (s.setSq q x) := by
  unfold State.setSq
  exact { h with sqs := Tbl.wf_set h.sqs _ _ }

theorem TablesWf.finish {s : State} {i status detail result0 result1 : Nat} (h : TablesWf s)
    : TablesWf (s.finish i status detail result0 result1) := by
  unfold State.finish
  dsimp only
  split
  · exact h
  · split
    · split
      · exact .sil (h.setHdl.foldl fun s _ hs => hs.postTo)
      · refine .putRecords ?_
        split
        · exact h.setHdl.setRing
        · exact h.setHdl
    · exact h.setHdl

theorem TablesWf.operand {s : State} {o : HOut} {addr len : Nat} {data : Option Bytes} (h : TablesWf s)
    : TablesWf (s.operand o addr len data).1 := by
  unfold State.operand
  dsimp only
  split
  · exact h
  · exact h.hostAsk

theorem TablesWf.keep {s : State} {i : Nat} {f : HOut → HOut} (h : TablesWf s) : TablesWf (s.keep i f) := h.setHdl

theorem TablesWf.onCmd {s : State} {i opcode : Nat} {f : HOut → State} (h : TablesWf s) (hf : ∀ (a : HOut), TablesWf (f a))
    : TablesWf (s.onCmd i opcode f) := by
  unfold State.onCmd
  split
  · split
    · exact hf _
    · exact h
  · exact h

theorem TablesWf.tagEnded {s : State} {tag : Nat} (h : TablesWf s) : TablesWf (tagEnded s tag) := by
  unfold Machine.tagEnded
  dsimp only
  refine h.foldl fun s _ hs => ?_
  split
  · exact hs
  · split
    · exact hs.keep.finish
    · exact hs.keep

theorem TablesWf.hubDone {s : State} {key : Nat} (h : TablesWf s) : TablesWf (hubDone s key) :=
  .tagEnded { h with writes := Tbl.wf_del h.writes _ }

end Sys2Proof.Proofs
end

section
/-!
SUPPORT. What the tables keep under the engines of a core: flags, lines, the effects of operations, and the issue of slots.
-/
namespace Sys2Proof.Proofs
open Sys2Proof.Machine Sys2Proof.Safety

/-! ## Flags and counters of a core -/

theorem CoreWf.count {k : Core} {b i n : Nat} (h : CoreWf k) : CoreWf (k.count b i n) := by
  unfold Core.count
  dsimp only
  split
  · exact h
  · exact { h with }

theorem TablesWf.countField {s : State} {f i n : Nat} (h : TablesWf s) : TablesWf (s.countField f i n) := h.frame

theorem CoreWf.accSet {k : Core} {t e : Nat} {v : W64} (h : CoreWf k) : CoreWf (k.accSet t e v) := by
  unfold Core.accSet
  exact { h with acc := Tbl.wf_ite (Tbl.wf_del h.acc _) (Tbl.wf_set h.acc _ _) }

theorem CoreWf.statPut {k : Core} {t : Nat} {v : W64} (h : CoreWf k) : CoreWf (k.statPut t v) := by
  unfold Core.statPut
  exact { h with }

theorem CoreWf.sat {k : Core} {t : Nat} (h : CoreWf k) : CoreWf (k.sat t) := h.statPut

theorem CoreWf.accAdd {k : Core} {t e : Nat} {v : Int} (h : CoreWf k) : CoreWf (k.accAdd t e v) := by
  unfold Core.accAdd
  dsimp only
  split
  · exact h.accSet.sat
  · exact h.accSet

theorem CoreWf.accAddAll {t i : Nat} {l : List Int} {k : Core} (h : CoreWf k) : CoreWf (accAddAll t i l k) := by
  induction l generalizing t i k with
  | nil => exact h
  | cons x l ih => exact ih h.accAdd

theorem CoreWf.accClear {k : Core} {t : Nat} (h : CoreWf k) : CoreWf (k.accClear t) := .statPut { h with acc := Tbl.wf_filter h.acc _ }
theorem CoreWf.statWrite {k : Core} {t : Nat} {v : W64} (h : CoreWf k) : CoreWf (k.statWrite t v) := h.statPut

/-! ## Operands -/

theorem CoreWf.writeAcc {i i1 : Nat} {l : Bytes} {k : Core} (h : CoreWf k) : CoreWf (writeAcc i i1 l k) := by
  induction i generalizing i1 l k with
  | zero => exact h
  | succ n ih => exact ih h.accSet

theorem CoreWf.writeStat {i i1 : Nat} {l : Bytes} {k : Core} (h : CoreWf k) : CoreWf (writeStat i i1 l k) := by
  induction i generalizing i1 l k with
  | zero => exact h
  | succ n ih =>
    rw [Machine.writeStat]
    refine ih ?_
    split
    · exact h.statWrite
    · exact h

theorem CoreWf.putBytes {k : Core} {a : Nat} {b : Bytes} (h : CoreWf k) : CoreWf (k.putBytes a b) := by
  unfold Core.putBytes
  exact { h with }

theorem CoreWf.writeLine {k : Core} {r c : Nat} {b : Bytes} (h : CoreWf k) : CoreWf (k.writeLine r c b) := by
  unfold Core.writeLine
  dsimp only
  split
  · exact h.putBytes
  · split
    · exact h.writeAcc
    · split
      · exact h.writeStat
      · exact h

theorem CoreWf.writeLines {ls : List (Int × Nat)} {bs : List Bytes} {k : Core} (h : CoreWf k) : CoreWf (writeLines ls bs k) := by
  induction ls generalizing bs k with
  | nil => exact h
  | cons l ls ih => cases bs with
    | nil => exact h
    | cons b bs => exact ih h.writeLine

theorem CoreWf.writeWalk {k : Core} {w : Walk} {bs : List Bytes} (h : CoreWf k) : CoreWf (k.writeWalk w bs) := h.writeLines
theorem CoreWf.writeElems {k : Core} {w : Walk} {vs : List Nat} (h : CoreWf k) : CoreWf (k.writeElems w vs) := h.writeLines
theorem CoreWf.readSoft {k : Core} {a n : Nat} (h : CoreWf k) : CoreWf (k.readSoft a n) := h.count

theorem CoreWf.readSoftLines {k : Core} {ls : List (Int × Nat)} (h : CoreWf k) : CoreWf (k.readSoftLines ls) := by
  unfold Core.readSoftLines
  split
  · exact h
  · exact h.count

/-! ## The vector engine, the tensor mover and the SHA engine -/

theorem EffWf.veWrite {w : Walk} {vs : List (Nat × Bool)} : EffWf (veWrite w vs) := .map (fun _ _ h => h.writeLine.count)

theorem EffWf.satLines {w : Walk} {vs : List (Nat × Bool)} : EffWf (satLines w vs) := by
  intro f hf k hk
  obtain ⟨x, hx, rfl⟩ := List.mem_map.1 hf
  have hmem : x.1.1 ∈ Machine.veWrite w vs := (List.of_mem_zip (List.fst_mem_of_mem_zipIdx hx)).1
  exact (EffWf.veWrite _ hmem k hk).foldl fun k _ hk => hk.sat

theorem EffWf.veArithEff {k : Core} {dd da db : Desc} {f : Nat} {s : W32} : EffWf (veArithEff k dd da db f s) := by
  unfold Machine.veArithEff
  dsimp only
  split
  · exact .cons (fun k1 hk => hk.count) .satLines
  · exact .cons (fun k1 hk => hk.count) .veWrite

theorem EffWf.veNormEff {k : Core} {dd da db : Desc} {f : Nat} {eps : W32} : EffWf (veNormEff k dd da db f eps) :=
  .cons (fun _ hk => hk.count.count) .veWrite

theorem EffWf.veActEff {k : Core} {dd da db : Desc} {f : Nat} : EffWf (veActEff k dd da db f) :=
  .cons (fun _ hk => hk.count.count) .veWrite

theorem EffWf.veFuncEff {k : Core} {dd da : Desc} {f : Nat} : EffWf (veFuncEff k dd da f) := .cons (fun _ hk => hk.count.count) .veWrite
theorem EffWf.veCvtEff {k : Core} {dd da : Desc} : EffWf (veCvtEff k dd da) := .cons (fun _ hk => hk.count.count) .veWrite

theorem EffWf.accOutEff {k : Core} {t : Nat} {dd : Desc} {mult : W32} {st : Bool} {ds : Desc} : EffWf (accOutEff k t dd mult st ds) := by
  unfold Machine.accOutEff
  dsimp only
  refine .cons (fun k1 hk => hk.count.count) (.append .veWrite ?_)
  split
  · exact .veWrite
  · exact .nil

theorem EffWf.accAddEff {k : Core} {t : Nat} {ds : Desc} : EffWf (accAddEff k t ds) :=
  .cons (fun _ hk => hk.count) (.map (fun _ _ hk => hk.accAdd))

theorem EffWf.tmCopyEff {k : Core} {dd ds : Desc} : EffWf (tmCopyEff k dd ds) :=
  .append (.map (fun _ _ hk => hk.writeLine)) (.cons (fun _ hk => hk.count.count.count) .nil)

theorem EffWf.tmFillEff {dd : Desc} {pat : W64} {size : Nat} : EffWf (tmFillEff dd pat size) :=
  .append (.map (fun _ _ h => h.writeLine)) (.cons (fun _ h => h.count) .nil)

theorem EffWf.shaEff {k : Core} {ds : Desc} {a : W32} {fin : Bool} : EffWf (shaEff k ds a fin) := by
  unfold Machine.shaEff
  dsimp only
  split
  · exact .cons (fun k1 hk => hk.writeLine.count.count) .nil
  · exact .cons (fun k1 hk => hk.writeLine.count) .nil

/-! ## Evaluations of the weight arrays -/

theorem EffWf.cimEff {t : Nat} {clear : Bool} {plan : EvalPlan} : EffWf (cimEff t clear plan) := by
  unfold Machine.cimEff
  refine .append ?_ (.flatMap (fun x => .map (fun x1 k h => h.accAdd)))
  split
  · exact .cons (fun k h => h.accClear) .nil
  · exact .nil

/-! ## The attention engine -/

theorem EffWf.aeQkEff {k : Core} {step : Nat} {dd da db : Desc} {t : W32} : EffWf (aeQkEff k step dd da db t) := by
  unfold Machine.aeQkEff
  dsimp only
  split
  · exact .cons (fun k1 hk => hk.count.count) (.cons (fun k1 hk => { hk with }) .nil)
  · refine .append .veWrite (.cons ?_ .nil)
    intro k1 h1
    split
    · refine .count ?_
      split
      · exact .count (.count { h1 with })
      · exact .count (.count (.count { h1 with }))
    · split
      · exact .count (.count { h1 with })
      · exact .count (.count (.count { h1 with }))

theorem EffWf.aeSmEff {k : Core} {dd da : Desc} {st : W32} : EffWf (aeSmEff k dd da st) := by
  unfold Machine.aeSmEff
  dsimp only
  split
  · exact .nil
  · refine .append ?_ (.cons (fun k1 hk => hk.count) .nil)
    refine .append .veWrite ?_
    split
    · exact .cons (fun k1 hk => hk.count) .nil
    · exact .append (.map (fun x k1 hk => hk.putBytes)) (.cons (fun k1 hk => { hk with }) .nil)

theorem EffWf.aePvEff {k : Core} {dd da db : Desc} : EffWf (aePvEff k dd da db) := by
  unfold Machine.aePvEff
  dsimp only
  split
  · exact .nil
  · exact .map (fun x k1 hk => hk.writeElems)

/-! ## The sampling processor -/

theorem EffWf.spEff {k : Core} {dd ds : Desc} {a : W32} : EffWf (spEff k dd ds a) := by
  unfold Machine.spEff
  dsimp only
  refine .append (.map (fun x k1 hk => hk.writeLine)) (.cons ?_ .nil)
  intro k1 h1
  refine .count (.count (.count ?_))
  split
  · exact .count (.count { h1 with })
  · exact .count (.count (.count (.count { h1 with })))

/-! ## Issue -/

theorem EffWf.counted {b : Nat} {e : Effects} (h : EffWf e) : EffWf (counted b e) := h.append (.cons (fun _ hk => hk.count) .nil)

theorem EffWf.opEffects {k : Core} {a : ActOp} : EffWf (opEffects k a) := by
  unfold Machine.opEffects
  dsimp only
  split
  · exact .counted .tmCopyEff
  · exact .counted .tmFillEff
  · exact .shaEff
  · exact .counted .veArithEff
  · exact .counted .veNormEff
  · exact .counted .veActEff
  · exact .counted .veFuncEff
  · exact .counted .veCvtEff
  · exact .cons (fun k1 hk => hk.accClear.count) .nil
  · exact .counted .accOutEff
  · exact .counted .accAddEff
  · exact .aeQkEff
  · exact .aeSmEff
  · exact .aePvEff
  · exact .spEff
  · split
    · exact .cimEff
    · exact .nil
  · exact .cons (fun k1 hk => .frame hk.setOq) (.cons (fun k1 hk => hk.count) .nil)
  · exact .cons (fun k1 hk => hk.setIq.count) (.map (fun x1 k1 hk => hk.writeLine))
  · exact .cons (fun k1 hk => hk.setOq.count) .nil
  · exact .cons (fun k1 hk => hk.setOq.count) .nil

theorem CoreWf.undoEntry {k : Core} {x : Nat × W64} (h : CoreWf k) : CoreWf (k.undoEntry x) := by
  unfold Core.undoEntry
  split
  · exact h.accSet
  · exact h.statPut

theorem CoreWf.remark {k : Core} {bad soft : List Nat} (h : CoreWf k) : CoreWf (k.remark bad soft) := by
  unfold Core.remark
  exact { h with }

theorem CoreWf.suppress {k : Core} (h : CoreWf k) : CoreWf k.suppress := by
  unfold Core.suppress
  split
  · exact h
  · exact .remark (.foldl { h with } fun k1 x1 hx => hx.undoEntry)

theorem TablesWf.modePin {s : State} {g : Nat} {high : Bool} (h : TablesWf s) : TablesWf (s.modePin g high) := h.updPreg.emit
theorem TablesWf.dozeWake {s : State} {g : Nat} (h : TablesWf s) : TablesWf (dozeWake s g) := h.powerTo.updPreg.modePin

theorem CoreWf.freeze {k : Core} (h : CoreWf k) : CoreWf k.freeze := by
  unfold Core.freeze
  split
  · exact { h with }
  · exact h

theorem TablesWf.napIfIdle {s : State} {g : Nat} (h : TablesWf s) : TablesWf (s.napIfIdle g) := by
  unfold State.napIfIdle
  split
  · exact h.powerTo
  · exact h

theorem CoreWf.clockRuns {k : Core} {now : Nat} (h : CoreWf k) : CoreWf (k.clockRuns now) := by
  unfold Core.clockRuns
  exact { h with }

theorem TablesWf.startClock {s : State} {c : Nat} (h : TablesWf s) : TablesWf (s.startClock c) := by
  unfold State.startClock
  split
  · exact h.updCore fun k hk => hk.freeze
  · split
    · exact h.updCore fun k hk => hk.clockRuns
    · exact .powerTo (h.updCore fun k hk => hk.clockRuns)
    · exact h.dozeWake
    · exact h

theorem TablesWf.stopClock {s : State} {c : Nat} (h : TablesWf s) : TablesWf (s.stopClock c) :=
  .napIfIdle (h.updCore fun _ hk => { hk with })

theorem CoreWf.stopActive {base time eng : Nat} {k : Core} (h : CoreWf k) : CoreWf (stopActive base time eng k) := by
  unfold Machine.stopActive
  dsimp only
  refine h.foldl fun k1 x hx => ?_
  split
  · exact hx
  · exact hx.run (.take .opEffects)

theorem CoreWf.countHeld {k : Core} {now : Nat} (h : CoreWf k) : CoreWf (k.countHeld now) := by
  unfold Core.countHeld
  split
  · exact h.count
  · exact h

theorem CoreWf.halt {base now time eng : Nat} {k : Core} (h : CoreWf k) : CoreWf (Core.halt base now time eng k) := by
  unfold Core.halt
  exact { h.countHeld.stopActive with active := Tbl.wf_nil }

theorem TablesWf.haltAt {s : State} {c time eng : Nat} {f : Core → Core} (h : TablesWf s) (hf : ∀ (k : Core), CoreWf k → CoreWf (f k))
    : TablesWf (s.haltAt c time eng f) :=
  (h.frame.setCore (hf _ ((h.core _).halt))).napIfIdle

theorem TablesWf.haltCore {s : State} {c : Nat} {f : Core → Core} (h : TablesWf s) (hf : ∀ (k : Core), CoreWf k → CoreWf (f k))
    : TablesWf (s.haltCore c f) :=
  h.haltAt hf

theorem CoreWf.reported {k : Core} {f : Fail} {pc slot : Nat} {time : W64} {k1 : Core} (hk : CoreWf k1)
    : CoreWf (k.reported f pc slot time k1) :=
  .frame hk.count

theorem TablesWf.stepFaultAt {s : State} {c : Nat} {f : Fail} {pc slot : Nat} {atIssue : Bool} (h : TablesWf s)
    : TablesWf (stepFaultAt s c f pc slot atIssue) := by
  unfold Machine.stepFaultAt
  extract_lets +onlyGivenNames _
  split
  · exact h
  · extract_lets +onlyGivenNames k2
    have hk2 : CoreWf k2 := by
      unfold k2
      split
      · exact (h.core _).suppress
      · exact h.core _
    exact (h.setCore hk2).haltCore fun a ha => .reported ha

theorem TablesWf.stepFault {s : State} {c : Nat} {f : Fail} {slot : Nat} {atIssue : Bool} (h : TablesWf s)
    : TablesWf (stepFault s c f slot atIssue) :=
  h.stepFaultAt

theorem TablesWf.stepFaultFrom {s : State} {c : Nat} {f : Fail} {issuer : Option (Nat × Nat)} (h : TablesWf s)
    : TablesWf (stepFaultFrom s c f issuer) := by
  unfold Machine.stepFaultFrom
  split
  · exact h.stepFaultAt
  · exact h.stepFault

theorem CoreWf.fetch {k : Core} {pc : Nat} (h : CoreWf k) : CoreWf (k.fetch pc) := .count (.count { h with })

theorem CoreWf.closeBundle {k : Core} {now : Nat} (h : CoreWf k) : CoreWf (k.closeBundle now) := by
  unfold Core.closeBundle
  dsimp only
  split
  · exact h
  · exact .fetch (.count { h with })

theorem CoreWf.enter {k : Core} {slot now : Nat} (h : CoreWf k) : CoreWf (k.enter slot now) := by
  unfold Core.enter
  extract_lets +onlyGivenNames k2
  have hk2 : CoreWf k2 := by
    unfold k2
    split
    · split
      · exact h
      · exact h.closeBundle
    · exact h
  split
  · exact { hk2 with }
  · exact { hk2 with }

theorem CoreWf.ldWait {k : Core} {now : Nat} {rs : List (BitVec 5)} (h : CoreWf k) : CoreWf (k.ldWait now rs) := by
  unfold Core.ldWait
  dsimp only
  split
  · exact .count { h with }
  · exact h

theorem SlotWf.afterLoad {s : State} {rs : List (BitVec 5)} {f : Core → SlotRes} {k : Core} (hk : CoreWf k)
    (hf : ∀ k, CoreWf k → SlotWf (f k)) :

    SlotWf (afterLoad s rs f k) :=
  hf _ hk.ldWait

theorem CoreWf.endSlot {k : Core} {last : Bool} {now : Nat} (h : CoreWf k) : CoreWf (k.endSlot last now) := by
  unfold Core.endSlot
  split
  · exact h.closeBundle
  · exact h

theorem TablesWf.issue {s : State} {core slot opcode : Nat} {last rsv : Bool} {f : Core → SlotRes} (h : TablesWf s)
    (hf : ∀ k, CoreWf k → SlotWf (f k)) : TablesWf (issue s core slot opcode last rsv f) := by
  unfold Machine.issue
  extract_lets k k' res
  have hk' : CoreWf k' := (h.core core).enter
  have hres : SlotWf res := by
    unfold res
    split
    · exact .bad
    · exact hf _ hk'
  clear_value res
  split
  · exact h
  · split
    · exact (h.setCore hk').stepFault
    · cases res with
      | go k => exact h.setCore (CoreWf.endSlot hres)
      | bad e => exact (h.setCore hk').stepFault
      | late k e => exact TablesWf.stepFault (h.setCore hres)
      | hold k x => exact h.setCore (CoreWf.frame hres)

theorem CoreWf.branchTo {k : Core} {t : BitVec 12} (h : CoreWf k) : CoreWf (k.branchTo t) := by
  unfold Core.branchTo
  exact { h with }

theorem CoreWf.keepEntry {k : Core} {x : Nat × W64} (h : CoreWf k) : CoreWf (k.keepEntry x) := by
  unfold Core.keepEntry
  exact { h with }

theorem CoreWf.keepMarks {k : Core} {p : Nat → Bool} (h : CoreWf k) : CoreWf (k.keepMarks p) := by
  unfold Core.keepMarks
  exact { h with }

theorem CoreWf.writeWin {k : Core} {a : Nat} {v : W64} (h : CoreWf k) : CoreWf (k.writeWin a v) := by
  unfold Core.writeWin
  dsimp only
  split
  · exact h.keepEntry.keepMarks.accSet
  · split
    · exact h.keepEntry.statWrite
    · exact h

theorem CoreWf.storeBytes {k : Core} {a : Nat} {b : Bytes} (h : CoreWf k) : CoreWf (k.storeBytes a b) := .frame h.keepMarks.putBytes

theorem CoreWf.memOp_run {now : Nat} {k : Core} {x : MemOp} (h : CoreWf k) : CoreWf (MemOp.run now k x) := by
  unfold MemOp.run
  dsimp only
  split
  · exact .frame h.readSoft
  · exact h.storeBytes
  · exact .frame h.readSoft
  · split
    · exact h.storeBytes
    · exact h.writeWin
  · exact .frame h.readSoft
  · exact h.storeBytes

theorem SlotWf.memSlot {now : Nat} {m : MemOp} {k : Core} (h : CoreWf k) : SlotWf (memSlot now m k) := by
  unfold Machine.memSlot
  split
  · exact .bad
  · split
    · exact .hold h
    · split
      · exact .bad
      · exact .go h.memOp_run

end Sys2Proof.Proofs
end

section
/-!
SUPPORT. What the tables keep under the mesh, the slots of a bundle, and what happens inside a core.
-/
namespace Sys2Proof.Proofs
open Sys2Proof.Machine Sys2Proof.Safety

/-! ## The mesh -/

theorem TablesWf.discardFault {s : State} {loc : Nat} {p : Packet} (h : TablesWf s) : TablesWf (discardFault s loc p) := by
  unfold Machine.discardFault
  dsimp only
  split
  · exact h.updCore fun k hk => hk.count
  · exact .stepFaultFrom (h.updCore fun k hk => hk.count)

theorem TablesWf.placeAt {s : State} {loc : Nat} {p : Packet} {col : Bool} (h : TablesWf s) : TablesWf (placeAt s loc p col) := by
  unfold Machine.placeAt
  dsimp only
  split
  · split
    · exact .frame (h.updCore fun k hk => hk.count)
    · exact h
  · exact h.frame

theorem TablesWf.inject {s : State} {c : Nat} {p : Packet} (h : TablesWf s) : TablesWf (inject s c p) := by
  unfold Machine.inject
  dsimp only
  split
  · exact h.placeAt
  · exact h.discardFault

theorem TablesWf.injectSvc {s : State} {c : Nat} {p : Packet} (h : TablesWf s) : TablesWf (injectSvc s c p) := h.placeAt
theorem TablesWf.injectServing {s : State} {c : Nat} {p : Packet} (h : TablesWf s) : TablesWf (injectServing s c p) := h.placeAt

theorem CoreWf.dropAwait {k : Core} {q pos : Nat} (h : CoreWf k) : CoreWf (k.dropAwait q pos) := by
  unfold Core.dropAwait
  exact { h with }

theorem CoreWf.putAwait {k : Core} {a : Await} (h : CoreWf k) : CoreWf (k.putAwait a) := by
  unfold Core.putAwait
  exact { h with }

theorem TablesWf.readyFault {s : State} {c q : Nat} (h : TablesWf s) : TablesWf (readyFault s c q) := by
  unfold Machine.readyFault
  split
  · exact h.stepFaultFrom
  · exact h

theorem TablesWf.complete {s : State} {c : Nat} {a : Await} {status : Nat} (h : TablesWf s) : TablesWf (complete s c a status) := by
  unfold Machine.complete
  extract_lets +onlyGivenNames _ _ k2 _ k3
  have hk2 : CoreWf k2 := by
    unfold k2
    split
    · exact (h.core _).dropAwait
    · exact (h.core _).dropAwait.setIq
  have hk3 : CoreWf k3 := by
    unfold k3
    split
    · split
      · exact { hk2 with }
      · exact hk2
    · exact hk2
  exact (h.setCore hk3).readyFault

theorem TablesWf.injectAll {c : Nat} {l : List Packet} {s : State} (h : TablesWf s) : TablesWf (injectAll c l s) := by
  induction l generalizing c s with
  | nil => exact h
  | cons x l ih => exact ih h.inject

theorem OptWf.sendHead {s : State} {c q : Nat} (h : TablesWf s) : OptWf (sendHead s c q) := by
  unfold Machine.sendHead
  extract_lets +onlyGivenNames _
  split
  · exact .ofNone
  · split
    · exact .ofSome ((h.setCore ((h.core _).setOq)).inject)
    · extract_lets +onlyGivenNames _ _ _ _ _ _
      split
      · exact .ofNone
      · split
        · exact .ofSome h.stepFaultFrom
        · extract_lets +onlyGivenNames _ _ _ _ _ _ k4 s1
          have hk4 : CoreWf k4 := .frame ((h.core _).readSoftLines.setOq.setIq)
          have h1 : TablesWf s1 := (h.setCore hk4).updCore fun k1 hk => hk.count
          split
          · exact .ofSome h1.inject
          · exact .ofSome h1.injectAll

theorem TablesWf.pumpQueue {i : Nat} {s : State} {i1 i2 : Nat} (h : TablesWf s) : TablesWf (pumpQueue i s i1 i2) := by
  induction i generalizing s i1 i2 with
  | zero => exact h
  | succ n ih =>
    rw [Machine.pumpQueue]
    split
    next e => exact ih ((OptWf.sendHead h).get e)
    · exact h

theorem TablesWf.pump {s : State} {c : Nat} (h : TablesWf s) : TablesWf (pump s c) := h.foldl fun _ _ hs => hs.pumpQueue

/-! ## The scalar slot -/

theorem TablesWf.aluR {p : Place} {opcode : Nat} {rd rs1 rs2 : BitVec 5} {f : W32 → W32 → W32} {s : State} (h : TablesWf s)
    : TablesWf (aluR p opcode rd rs1 rs2 f s) :=
  h.issue fun _ hk => .afterLoad hk fun _ ha => .go { ha with }

theorem TablesWf.aluI {p : Place} {opcode : Nat} {rd rs1 : BitVec 5} {imm : BitVec 14} {f : W32 → W32 → W32} {s : State}
    (h : TablesWf s)
    : TablesWf (aluI p opcode rd rs1 imm f s) :=
  h.issue fun _ hk => .afterLoad hk fun _ ha => .go { ha with }

theorem TablesWf.branch {p : Place} {opcode : Nat} {rs1 rs2 : BitVec 5} {off : BitVec 14} {f : W32 → W32 → Bool} {s : State}
    (h : TablesWf s) : TablesWf (branch p opcode rs1 rs2 off f s) := by
  unfold Machine.branch
  refine h.issue fun k hk => .afterLoad hk fun a h2 => ?_
  refine .go ?_
  split
  · exact h2.branchTo
  · exact h2

theorem OutWf.execAdd {p : Place} {rd rs1 rs2 : BitVec 5} {s : State} (h : TablesWf s) : OutWf (execAdd p rd rs1 rs2 s) := .next h.aluR
theorem OutWf.execSub {p : Place} {rd rs1 rs2 : BitVec 5} {s : State} (h : TablesWf s) : OutWf (execSub p rd rs1 rs2 s) := .next h.aluR
theorem OutWf.execAnd {p : Place} {rd rs1 rs2 : BitVec 5} {s : State} (h : TablesWf s) : OutWf (execAnd p rd rs1 rs2 s) := .next h.aluR
theorem OutWf.execOr {p : Place} {rd rs1 rs2 : BitVec 5} {s : State} (h : TablesWf s) : OutWf (execOr p rd rs1 rs2 s) := .next h.aluR
theorem OutWf.execXor {p : Place} {rd rs1 rs2 : BitVec 5} {s : State} (h : TablesWf s) : OutWf (execXor p rd rs1 rs2 s) := .next h.aluR
theorem OutWf.execShl {p : Place} {rd rs1 rs2 : BitVec 5} {s : State} (h : TablesWf s) : OutWf (execShl p rd rs1 rs2 s) := .next h.aluR
theorem OutWf.execShr {p : Place} {rd rs1 rs2 : BitVec 5} {s : State} (h : TablesWf s) : OutWf (execShr p rd rs1 rs2 s) := .next h.aluR
theorem OutWf.execSra {p : Place} {rd rs1 rs2 : BitVec 5} {s : State} (h : TablesWf s) : OutWf (execSra p rd rs1 rs2 s) := .next h.aluR
theorem OutWf.execMul {p : Place} {rd rs1 rs2 : BitVec 5} {s : State} (h : TablesWf s) : OutWf (execMul p rd rs1 rs2 s) := .next h.aluR
theorem OutWf.execSlt {p : Place} {rd rs1 rs2 : BitVec 5} {s : State} (h : TablesWf s) : OutWf (execSlt p rd rs1 rs2 s) := .next h.aluR
theorem OutWf.execSltu {p : Place} {rd rs1 rs2 : BitVec 5} {s : State} (h : TablesWf s) : OutWf (execSltu p rd rs1 rs2 s) := .next h.aluR

theorem OutWf.execAddi {p : Place} {rd rs1 : BitVec 5} {imm : BitVec 14} {s : State} (h : TablesWf s) : OutWf (execAddi p rd rs1 imm s) :=
  .next h.aluI

theorem OutWf.execAndi {p : Place} {rd rs1 : BitVec 5} {imm : BitVec 14} {s : State} (h : TablesWf s) : OutWf (execAndi p rd rs1 imm s) :=
  .next h.aluI

theorem OutWf.execOri {p : Place} {rd rs1 : BitVec 5} {imm : BitVec 14} {s : State} (h : TablesWf s) : OutWf (execOri p rd rs1 imm s) :=
  .next h.aluI

theorem OutWf.execXori {p : Place} {rd rs1 : BitVec 5} {imm : BitVec 14} {s : State} (h : TablesWf s) : OutWf (execXori p rd rs1 imm s) :=
  .next h.aluI

theorem OutWf.execShli {p : Place} {rd rs1 : BitVec 5} {imm : BitVec 14} {s : State} (h : TablesWf s) : OutWf (execShli p rd rs1 imm s) :=
  .next h.aluI

theorem OutWf.execShri {p : Place} {rd rs1 : BitVec 5} {imm : BitVec 14} {s : State} (h : TablesWf s) : OutWf (execShri p rd rs1 imm s) :=
  .next h.aluI

theorem OutWf.execSrai {p : Place} {rd rs1 : BitVec 5} {imm : BitVec 14} {s : State} (h : TablesWf s) : OutWf (execSrai p rd rs1 imm s) :=
  .next h.aluI

theorem OutWf.execLui {p : Place} {rd : BitVec 5} {imm : BitVec 19} {s : State} (h : TablesWf s) : OutWf (execLui p rd imm s) :=
  .next (h.issue fun _ hk => .go { hk with })

theorem OutWf.execLd {p : Place} {rd rs1 : BitVec 5} {imm : BitVec 14} {s : State} (h : TablesWf s) : OutWf (execLd p rd rs1 imm s) :=
  .next (h.issue fun _ hk => .afterLoad hk fun _ ha => .memSlot ha)

theorem OutWf.execSt {p : Place} {rs2 rs1 : BitVec 5} {imm : BitVec 14} {s : State} (h : TablesWf s) : OutWf (execSt p rs2 rs1 imm s) :=
  .next (h.issue fun _ hk => .afterLoad hk fun _ ha => .memSlot ha)

theorem OutWf.execLd64 {p : Place} {rd rs1 : BitVec 5} {imm : BitVec 14} {s : State} (h : TablesWf s)
    : OutWf (execLd64 p rd rs1 imm s) := by
  unfold Machine.execLd64
  refine .next (h.issue fun k hk => .afterLoad hk fun a h2 => ?_)
  split
  · exact .bad
  · exact .memSlot h2

theorem OutWf.execSt64 {p : Place} {rs2 rs1 : BitVec 5} {imm : BitVec 14} {s : State} (h : TablesWf s)
    : OutWf (execSt64 p rs2 rs1 imm s) := by
  unfold Machine.execSt64
  refine .next (h.issue fun k hk => .afterLoad hk fun a h2 => ?_)
  split
  · exact .bad
  · exact .memSlot h2

theorem OutWf.execBeq {p : Place} {rs1 rs2 : BitVec 5} {off : BitVec 14} {s : State} (h : TablesWf s) : OutWf (execBeq p rs1 rs2 off s) :=
  .next h.branch

theorem OutWf.execBne {p : Place} {rs1 rs2 : BitVec 5} {off : BitVec 14} {s : State} (h : TablesWf s) : OutWf (execBne p rs1 rs2 off s) :=
  .next h.branch

theorem OutWf.execBlt {p : Place} {rs1 rs2 : BitVec 5} {off : BitVec 14} {s : State} (h : TablesWf s) : OutWf (execBlt p rs1 rs2 off s) :=
  .next h.branch

theorem OutWf.execBge {p : Place} {rs1 rs2 : BitVec 5} {off : BitVec 14} {s : State} (h : TablesWf s) : OutWf (execBge p rs1 rs2 off s) :=
  .next h.branch

theorem OutWf.execBltu {p : Place} {rs1 rs2 : BitVec 5} {off : BitVec 14} {s : State} (h : TablesWf s) : OutWf (execBltu p rs1 rs2 off s) :=
  .next h.branch

theorem OutWf.execBgeu {p : Place} {rs1 rs2 : BitVec 5} {off : BitVec 14} {s : State} (h : TablesWf s) : OutWf (execBgeu p rs1 rs2 off s) :=
  .next h.branch

theorem OutWf.execJmp {p : Place} {rs1 rs2 : BitVec 5} {off : BitVec 14} {s : State} (h : TablesWf s)
    : OutWf (execJmp p rs1 rs2 off s) := by
  unfold Machine.execJmp
  refine .next (h.issue fun k hk => ?_)
  split
  · exact .bad
  · exact .go hk.branchTo

theorem OutWf.execJal {p : Place} {rd : BitVec 5} {off : BitVec 14} {s : State} (h : TablesWf s) : OutWf (execJal p rd off s) :=
  .next (h.issue fun _ hk => .go (.branchTo { hk with }))

theorem OutWf.execJr {p : Place} {rs1 : BitVec 5} {s : State} (h : TablesWf s) : OutWf (execJr p rs1 s) :=
  .next (h.issue fun _ hk => .afterLoad hk fun _ ha => .go ha.branchTo)

theorem OutWf.execLoop {p : Place} {rs1 : BitVec 5} {off : BitVec 14} {s : State} (h : TablesWf s) : OutWf (execLoop p rs1 off s) := by
  unfold Machine.execLoop
  dsimp only
  refine .next (h.issue fun k hk => .afterLoad hk fun a h2 => ?_)
  split
  · exact .bad
  · split
    · exact .go { h2 with }
    · exact .go { h2 with }

theorem OutWf.execDld {p : Place} {d : BitVec 4} {rs1 : BitVec 5} {imm : BitVec 15} {s : State} (h : TablesWf s)
    : OutWf (execDld p d rs1 imm s) :=
  .next (h.issue fun _ hk => .afterLoad hk fun _ ha => .memSlot ha)

theorem OutWf.execDst {p : Place} {d : BitVec 4} {rs1 : BitVec 5} {imm : BitVec 15} {s : State} (h : TablesWf s)
    : OutWf (execDst p d rs1 imm s) :=
  .next (h.issue fun _ hk => .afterLoad hk fun _ ha => .memSlot ha)

theorem OutWf.execDaddr {p : Place} {d : BitVec 4} {rs1 : BitVec 5} {s : State} (h : TablesWf s) : OutWf (execDaddr p d rs1 s) :=
  .next (h.issue fun _ hk => .afterLoad hk fun _ ha => .go { ha with })

theorem OutWf.execDaddc {p : Place} {d : BitVec 4} {rs1 : BitVec 5} {s : State} (h : TablesWf s) : OutWf (execDaddc p d rs1 s) :=
  .next (h.issue fun _ hk => .afterLoad hk fun _ ha => .go { ha with })

theorem OutWf.execCsrr {p : Place} {rd : BitVec 5} {csr : BitVec 14} {s : State} (h : TablesWf s) : OutWf (execCsrr p rd csr s) := by
  unfold Machine.execCsrr
  refine .next (h.issue fun k hk => ?_)
  split
  · exact .go { hk with }
  · exact .bad

theorem SlotWf.selectSets {k : Core} {mask : BitVec 8} (h : CoreWf k) : SlotWf (selectSets k mask) := by
  unfold Machine.selectSets
  dsimp only
  split
  · exact .bad
  · exact .go { h with }

theorem OutWf.execCsrw {p : Place} {rs1 : BitVec 5} {csr : BitVec 14} {s : State} (h : TablesWf s) : OutWf (execCsrw p rs1 csr s) := by
  unfold Machine.execCsrw
  refine .next (h.issue fun k hk => .afterLoad hk fun a h2 => ?_)
  split
  · exact .selectSets h2
  · exact .bad

theorem OutWf.execCimAsel {p : Place} {mask : BitVec 8} {s : State} (h : TablesWf s) : OutWf (execCimAsel p mask s) :=
  .next (h.issue fun _ hk => .selectSets hk)

theorem OutWf.execSlotNop {p : Place} {slot : BitVec 2} {s : State} (h : TablesWf s) : OutWf (execSlotNop p slot s) :=
  .next (h.issue fun _ hk => .go hk)

theorem OutWf.execUndefinedOpcode {p : Place} {slot : BitVec 2} {opcode : Byte} {s : State} (h : TablesWf s)
    : OutWf (execUndefinedOpcode p slot opcode s) :=
  .next (h.issue fun _ _ => .bad)

/-! ## The dispatch slots and the sync slot -/

theorem CoreWf.enqueue {k : Core} {q : QOp} (h : CoreWf k) : CoreWf (k.enqueue q) := by
  unfold Core.enqueue
  exact { h with }

theorem TablesWf.dispatch {p : DPlace} {opcode : Nat} {op : Core → DOp} {chk : Core → Option Fail} {s : State} {regs : List (BitVec 5)}
    (h : TablesWf s) : TablesWf (dispatch p opcode op chk s regs) := by
  unfold Machine.dispatch
  extract_lets +onlyGivenNames _
  refine h.issue fun k hk => .afterLoad hk fun a h2 => ?_
  split
  · exact .bad
  · extract_lets +onlyGivenNames _
    split
    · exact .hold h2
    · exact .go h2.enqueue

theorem OutWf.execTmCopy {p : DPlace} {dd ds : BitVec 4} {s : State} (h : TablesWf s) : OutWf (execTmCopy p dd ds s) := .next h.dispatch

theorem OutWf.execTmFill {p : DPlace} {dd : BitVec 4} {rs : BitVec 5} {size : BitVec 2} {s : State} (h : TablesWf s)
    : OutWf (execTmFill p dd rs size s) :=
  .next h.dispatch

theorem OutWf.execShaDigest {p : DPlace} {ds : BitVec 4} {rs : BitVec 5} {fin : Bool} {s : State} (h : TablesWf s)
    : OutWf (execShaDigest p ds rs fin s) :=
  .next h.dispatch

theorem OutWf.execVeArith {p : DPlace} {dd da db func : BitVec 4} {rs : BitVec 5} {s : State} (h : TablesWf s)
    : OutWf (execVeArith p dd da db func rs s) :=
  .next h.dispatch

theorem OutWf.execVeNorm {p : DPlace} {dd da db func : BitVec 4} {rs : BitVec 5} {s : State} (h : TablesWf s)
    : OutWf (execVeNorm p dd da db func rs s) :=
  .next h.dispatch

theorem OutWf.execVeAct {p : DPlace} {dd da db func : BitVec 4} {s : State} (h : TablesWf s) : OutWf (execVeAct p dd da db func s) :=
  .next h.dispatch

theorem OutWf.execVeFunc {p : DPlace} {dd da func : BitVec 4} {s : State} (h : TablesWf s) : OutWf (execVeFunc p dd da func s) :=
  .next h.dispatch

theorem OutWf.execVeCvt {p : DPlace} {dd da : BitVec 4} {s : State} (h : TablesWf s) : OutWf (execVeCvt p dd da s) := .next h.dispatch
theorem OutWf.execAccClr {p : DPlace} {t : BitVec 4} {s : State} (h : TablesWf s) : OutWf (execAccClr p t s) := .next h.dispatch

theorem OutWf.execAccOut {p : DPlace} {t dd : BitVec 4} {rs : BitVec 5} {stat : Bool} {dstat : BitVec 4} {s : State} (h : TablesWf s)
    : OutWf (execAccOut p t dd rs stat dstat s) :=
  .next h.dispatch

theorem OutWf.execAccAdd {p : DPlace} {t ds : BitVec 4} {s : State} (h : TablesWf s) : OutWf (execAccAdd p t ds s) := .next h.dispatch

theorem OutWf.execAeQk {p : DPlace} {dd da db : BitVec 4} {rs : BitVec 5} {s : State} (h : TablesWf s) : OutWf (execAeQk p dd da db rs s) :=
  .next h.dispatch

theorem OutWf.execAeSm {p : DPlace} {dd da : BitVec 4} {rs : BitVec 5} {s : State} (h : TablesWf s) : OutWf (execAeSm p dd da rs s) :=
  .next h.dispatch

theorem OutWf.execAePv {p : DPlace} {dd da db : BitVec 4} {s : State} (h : TablesWf s) : OutWf (execAePv p dd da db s) := .next h.dispatch

theorem OutWf.execSpSample {p : DPlace} {dd ds : BitVec 4} {rs : BitVec 5} {s : State} (h : TablesWf s)
    : OutWf (execSpSample p dd ds rs s) :=
  .next h.dispatch

theorem OutWf.execCimEval {p : DPlace} {a : BitVec 5} {d t : BitVec 4} {clear narrow : Bool} {mode : BitVec 2} {s : State} (h : TablesWf s)
    : OutWf (execCimEval p a d t clear narrow mode s) :=
  .next h.dispatch

theorem OutWf.execCimEvalt {p : DPlace} {a : BitVec 5} {d t : BitVec 4} {clear narrow : Bool} {mode : BitVec 2} {s : State} (h : TablesWf s)
    : OutWf (execCimEvalt p a d t clear narrow mode s) :=
  .next h.dispatch

theorem OutWf.execQPush {p : DPlace} {oq : BitVec 3} {rs : BitVec 5} {s : State} (h : TablesWf s) : OutWf (execQPush p oq rs s) :=
  .next h.dispatch

theorem OutWf.execQPop {p : DPlace} {iq : BitVec 3} {dd : BitVec 4} {s : State} (h : TablesWf s) : OutWf (execQPop p iq dd s) :=
  .next h.dispatch

theorem OutWf.execRmread {p : DPlace} {oq : BitVec 3} {dd ds : BitVec 4} {rs : BitVec 5} {tag : BitVec 7} {s : State} (h : TablesWf s)
    : OutWf (execRmread p oq dd ds rs tag s) :=
  .next h.dispatch

theorem OutWf.execNred {p : DPlace} {oq : BitVec 3} {ds : BitVec 4} {rs : BitVec 5} {a : BitVec 2} {id : BitVec 9} {s : State}
    (h : TablesWf s) : OutWf (execNred p oq ds rs a id s) :=
  .next h.dispatch

theorem OutWf.execSyncWait {p : Place} {idx : BitVec 15} {rs : BitVec 5} {s : State} (h : TablesWf s)
    : OutWf (execSyncWait p idx rs s) := by
  unfold Machine.execSyncWait
  dsimp only
  refine .next (h.issue fun k hk => .afterLoad hk fun a h2 => ?_)
  split
  · exact .bad
  · split
    · exact .late h2
    · split
      · exact .go h2
      · exact .hold h2

theorem OutWf.execSyncSignal {p : Place} {idx : BitVec 15} {rs : BitVec 5} {one : Bool} {s : State} (h : TablesWf s)
    : OutWf (execSyncSignal p idx rs one s) := by
  unfold Machine.execSyncSignal
  dsimp only
  refine .next (h.issue fun k hk => .afterLoad hk fun a h2 => ?_)
  split
  · exact .bad
  · split
    · exact .hold h2
    · exact .go { h2 with }

theorem OutWf.execQwait {p : Place} {outb : Bool} {q : BitVec 3} {n : BitVec 6} {s : State} (h : TablesWf s)
    : OutWf (execQwait p outb q n s) := by
  unfold Machine.execQwait
  refine .next (h.issue fun k hk => ?_)
  split
  · exact .bad
  · split
    · exact .go hk
    · exact .hold hk

theorem OutWf.execFence {p : Place} {mask : BitVec 8} {s : State} (h : TablesWf s) : OutWf (execFence p mask s) := by
  unfold Machine.execFence
  refine .next (h.issue fun k hk => ?_)
  split
  · exact .go hk
  · exact .hold hk

theorem CoreWf.countWatches {s : State} {region : Nat} {k : Core} (hk : CoreWf k) : CoreWf (countWatches s region k) := by
  unfold Machine.countWatches
  dsimp only
  refine hk.foldl fun k1 x hx => ?_
  split
  · exact { hx with }
  · exact hx

theorem CoreWf.beginStep {k : Core} {now : Nat} {kind : W16} {req : W32} {d : StepDecl} (h : CoreWf k)
    : CoreWf (beginStep k now kind req d) := by
  unfold Machine.beginStep
  exact { h with }

theorem TablesWf.silStep {s : State} {c pc : Nat} (h : TablesWf s) : TablesWf (silStep s c pc) := by
  unfold Machine.silStep
  dsimp only
  split
  · exact h.sil
  · exact h

theorem TablesWf.latchStep {s : State} {c : Nat} (h : TablesWf s) : TablesWf (latchStep s c) := by
  unfold Machine.latchStep
  dsimp only
  split
  · exact h
  · split
    · exact h
    · exact h.frame.updCore fun k hk => { hk with }

theorem OutWf.execStep {p : Place} {rs : BitVec 5} {kind : W16} {s : State} (h : TablesWf s) : OutWf (execStep p rs kind s) := by
  unfold Machine.execStep
  extract_lets +onlyGivenNames _ s1
  have h1 : TablesWf s1 := by
    unfold s1
    refine h.issue fun k hk => .afterLoad hk fun a h2 => ?_
    split
    · exact .bad
    · split
      · exact .bad
      · exact .go (.countWatches h2.beginStep)
  refine .next ?_
  split
  · exact h1
  · exact h1.silStep.latchStep

theorem CoreWf.noteDump {k : Core} {w : Nat} (h : CoreWf k) : CoreWf (k.noteDump w) := by
  unfold Core.noteDump
  exact { h with }

theorem OutWf.execTag {p : Place} {slotB : Bool} {id : BitVec 20} {s : State} (h : TablesWf s) : OutWf (execTag p slotB id s) := by
  refine .next (h.issue fun k hk => ?_)
  extract_lets num ws hit name
  have hws : CoreWf (ws.foldl Core.noteDump k) := hk.foldl fun k _ hk => hk.noteDump
  split
  · exact .go { hws with active := by dsimp only; exact Tbl.wf_map hk.active _ }
  · exact .bad

/-! ## Inside a core -/

theorem TablesWf.applySignal {s : State} {c : Nat} {region : Option Nat} {idx : Nat} {amt : W32} (h : TablesWf s)
    : TablesWf (applySignal s c region idx amt) := by
  unfold Machine.applySignal
  dsimp only
  split
  · exact h.setSync.sil
  · exact h.setSync

theorem TablesWf.signalAt {s : State} {c idx : Nat} {amt : W32} {issuer : Option (Nat × Nat)} (h : TablesWf s)
    : TablesWf (signalAt s c idx amt issuer) := by
  unfold Machine.signalAt
  split
  · exact h.applySignal
  · exact h.stepFaultFrom

theorem TablesWf.sendSignal {s : State} {c : Nat} {g : Sig} (h : TablesWf s) : TablesWf (sendSignal s c g) := by
  unfold Machine.sendSignal
  dsimp only
  split
  · exact h.signalAt
  · split
    · exact h.stepFaultFrom
    · exact h.inject

theorem CoreWf.unhold {k : Core} {now : Nat} (h : CoreWf k) : CoreWf (k.unhold now) := .endSlot { h with }

theorem TablesWf.resume {s : State} {c : Nat} (h : TablesWf s) : TablesWf (resume s c) := by
  unfold Machine.resume
  dsimp only
  split
  · exact h
  · split
    · exact h
    · split
      · exact h
      · split
        · exact h.stepFault
        · exact h.setCore ((h.core _).countHeld.memOp_run.unhold)
    · split
      · exact h
      · exact h.setCore ((h.core _).countHeld.enqueue.unhold)
    · split
      · exact h
      · exact h.setCore (.unhold (.frame ((h.core _).countHeld)))
    · split
      · exact h.setCore ((h.core _).unhold)
      · exact h
    · exact h
    · exact h

theorem TablesWf.settle {s : State} {c : Nat} (h : TablesWf s) : TablesWf (settle s c) := h.pump.resume

theorem OutWf.execWaitSatisfied {core : Nat} {s : State} (h : TablesWf s) : OutWf (execWaitSatisfied core s) := by
  unfold Machine.execWaitSatisfied
  dsimp only
  split
  · exact .next (.startClock (h.setCore (.unhold (.frame ((h.core _).countHeld)))))
  · exact .next h

theorem OutWf.execClockStop {core : Nat} {s : State} (h : TablesWf s) : OutWf (execClockStop core s) := by
  unfold Machine.execClockStop
  dsimp only
  split
  · exact .next h.stopClock
  · exact .next h

theorem OutWf.execBudgetOverrun {core : Nat} {s : State} (h : TablesWf s) : OutWf (execBudgetOverrun core s) := by
  unfold Machine.execBudgetOverrun
  extract_lets +onlyGivenNames _ _
  split
  · exact .next h.stepFault
  · exact .next h

theorem OutWf.execWaitLimit {core : Nat} {s : State} (h : TablesWf s) : OutWf (execWaitLimit core s) := by
  unfold Machine.execWaitLimit
  dsimp only
  split
  · exact .next h.stepFault
  · exact .next h

theorem OutWf.execActivityOverrun {core : Nat} {s : State} (h : TablesWf s) : OutWf (execActivityOverrun core s) := by
  unfold Machine.execActivityOverrun
  dsimp only
  split
  · split
    · exact .next h
    · exact .next (h.haltAt fun a1 ha => .reported ha)
  · exact .next h

theorem CoreWf.countEval {k : Core} {set : Nat} {turn : Bool} {o : EvalOut} (h : CoreWf k) : CoreWf (countEval k set turn o) :=
  h.count.count.count.count.count.count.count.count.count.count.count.count.count

theorem CoreWf.sampleEval {k : Core} {set array rateLog now : Nat} {v : EvalIn} {o : EvalOut} (h : CoreWf k)
    : CoreWf (sampleEval k set array rateLog now v o) := by
  unfold Machine.sampleEval
  dsimp only
  split
  · exact h
  · split
    · exact h.setSet
    · split
      · exact h.setSet.count
      · exact h.setSet.setSet

theorem TablesWf.precisionEvent {s : State} {layer c a : Nat} (h : TablesWf s) : TablesWf (s.precisionEvent layer c a) := h.postEvent

theorem TablesWf.noteFallback {s : State} {c a : Nat} (h : TablesWf s) : TablesWf (noteFallback s c a) := by
  unfold Machine.noteFallback
  dsimp only
  refine .precisionEvent ?_
  split
  · exact (h.setCore ((h.core _).setArr)).frame
  · exact h.setCore ((h.core _).setArr)

theorem OutWf.execSignalRelease {core : Nat} {s : State} (h : TablesWf s) : OutWf (execSignalRelease core s) := by
  unfold Machine.execSignalRelease
  dsimp only
  split
  · split
    · exact .next (.settle (.sendSignal (h.setCore (.frame (h.core _)))))
    · exact .next h
  · exact .next h

end Sys2Proof.Proofs
end

section
/-!
SUPPORT. What the tables keep under the shared operations of the link, the serving controller, the fault service, placement and power.
-/
namespace Sys2Proof.Proofs
open Sys2Proof.Machine Sys2Proof.Safety

/-! ## The link -/

theorem PortWf.setChan {p : Port} {peer : Nat} {c : Chan} (h : PortWf p) : PortWf (p.setChan peer c) := ⟨Tbl.wf_set h.chans _ _⟩
theorem TablesWf.sendFrame {s : State} {p : Nat} {f : FFrame} (h : TablesWf s) : TablesWf (s.sendFrame p f) := h.emit

theorem TablesWf.drainChan {s : State} {p peer : Nat} (h : TablesWf s) : TablesWf (s.drainChan p peer) :=
  (h.setPort ((h.port _).setChan)).foldl fun _ _ hs => hs.sendFrame

theorem TablesWf.putFrame {s : State} {p peer : Nat} {f : FFrame} (h : TablesWf s) : TablesWf (s.putFrame p peer f) :=
  (h.setPort ((h.port _).setChan)).drainChan

theorem TablesWf.sendAck {s : State} {p peer : Nat} {nak : Bool} (h : TablesWf s) : TablesWf (s.sendAck p peer nak) := by
  unfold State.sendAck
  dsimp only
  split
  · exact h
  · exact (h.setPort ((h.port _).setChan)).sendFrame

theorem TablesWf.replayChan {s : State} {p peer : Nat} (h : TablesWf s) : TablesWf (s.replayChan p peer) :=
  .foldl (h.setPort ⟨(h.port _).setChan.chans⟩) fun _ _ hs => hs.sendFrame

theorem TablesWf.dropFrame {s : State} (h : TablesWf s) : TablesWf s.dropFrame := by
  unfold State.dropFrame
  exact { h with }

theorem TablesWf.takeAck {s : State} {p peer : Nat} {f : FFrame} (h : TablesWf s) : TablesWf (takeAck s p peer f) := by
  unfold Machine.takeAck
  dsimp only
  refine .drainChan ?_
  split
  · exact (h.setPort ((h.port _).setChan)).replayChan
  · exact h.setPort ((h.port _).setChan)

theorem TablesWf.takeFrame {s : State} {p : Nat} {f : FFrame} (h : TablesWf s) : TablesWf (s.takeFrame p f).1 := by
  unfold State.takeFrame
  extract_lets x peer s1 c c1 c2 s2
  have hs2 : TablesWf s2 := h.takeAck.setPort (h.takeAck.port p).setChan
  split
  · exact h.sendAck
  · split
    · exact h.dropFrame
    · split
      · exact h.takeAck
      · split
        · exact h.sendAck
        · dsimp only
          split
          · exact hs2.sendAck
          · exact hs2

theorem TablesWf.sendControl {s : State} {b : BoundImage} {st kind status version : Nat} {extra : Bytes} (h : TablesWf s)
    : TablesWf (sendControl s b st kind status version extra) := by
  unfold Machine.sendControl
  dsimp only
  split
  · exact h.putFrame
  · exact h

theorem TablesWf.sendAllStages {s : State} {b : BoundImage} {kind status version : Nat} (h : TablesWf s)
    : TablesWf (sendAllStages s b kind status version) :=
  h.foldl fun _ _ hs => hs.sendControl

/-! ## The serving controller -/

theorem TablesWf.updCtx {s : State} {c : Nat} {f : Ctx → Ctx} (h : TablesWf s) : TablesWf (s.updCtx c f) := by
  unfold State.updCtx
  split
  · exact h.setCtx
  · exact h

theorem RegionWf.setBlk {r : Region} {b : Nat} {x : Blk} (h : RegionWf r) : RegionWf (r.setBlk b x) := by
  unfold Region.setBlk
  exact { h with }

theorem TablesWf.dropEntry {s : State} {n b : Nat} (h : TablesWf s) : TablesWf (dropEntry s n b) := by
  unfold Machine.dropEntry
  exact { h with }

theorem OptWf.reclaim {s : State} {n : Nat} (h : TablesWf s) : OptWf (reclaim s n) :=
  .map (fun _ => h.dropEntry.updRegion fun _ hr => hr.setBlk)

theorem TablesWf.winWriteGo {i : Nat} {s : State} {x : Window} {i1 : Nat} {l : Bytes} (h : TablesWf s)
    : TablesWf (winWriteGo i s x i1 l) := by
  induction i generalizing s x i1 l with
  | zero => exact h
  | succ n ih =>
    rw [Machine.winWriteGo]
    dsimp only
    split
    · exact h
    · refine ih ?_
      split
      · exact h.hostWrite
      · exact h

theorem TablesWf.winWrite {s : State} {w : Window} {off : Nat} {d : Bytes} (h : TablesWf s) : TablesWf (winWrite s w off d) := h.winWriteGo

theorem TablesWf.winAskGo {i : Nat} {s : State} {x : Window} {i1 i2 : Nat} (h : TablesWf s) : TablesWf (winAskGo i s x i1 i2) := by
  induction i generalizing s x i1 i2 with
  | zero => exact h
  | succ n ih =>
    rw [Machine.winAskGo]
    dsimp only
    split
    · exact h
    · refine ih ?_
      split
      · exact h.hostAsk
      · exact h

theorem TablesWf.winAsk {s : State} {n slot off len : Nat} (h : TablesWf s) : TablesWf (winAsk s n slot off len) := by
  unfold Machine.winAsk
  split
  · split
    · exact h.winAskGo
    · exact h
  · exact h

theorem TablesWf.evictBlk {s : State} {n c i : Nat} (h : TablesWf s) : TablesWf (evictBlk s n c i) := by
  unfold Machine.evictBlk
  dsimp only
  split
  · split
    · split
      · exact h
      · split
        · exact h
        · exact .setCtx (.units (h.winWrite.dropEntry.updRegion fun r hr => hr.setBlk) rfl)
    · exact h
  · exact h

theorem TablesWf.evictCtx {s : State} {n c : Nat} (h : TablesWf s) : TablesWf (evictCtx s n c) := by
  unfold Machine.evictCtx
  split
  · exact h.foldl fun s _ hs => hs.evictBlk
  · exact h

theorem OptWf.findBlock {s : State} {n nc p : Nat} (h : TablesWf s) : OptWf ((findBlock s n nc p).map (·.1)) := by
  unfold Machine.findBlock
  extract_lets t
  have ht : TablesWf t := by
    unfold t
    split
    next e => exact (OptWf.reclaim h).get e
    · split
      · exact h.evictCtx
      · exact h
  split
  · exact .ofSome h
  · rw [Option.map_map]
    exact .map fun _ => ht

theorem TablesWf.unpack {s : State} {im : BoundImage} {nc b : Nat} (h : TablesWf s) : TablesWf (unpack s im nc b) := by
  unfold Machine.unpack
  refine h.foldl fun s _ hs => ?_
  split
  · split
    · exact hs
    · exact hs.updCore fun k hk => { hk with }
  · exact hs

theorem OptWf.allocNext {s : State} {c : Nat} (h : TablesWf s) : OptWf (allocNext s c) := by
  unfold Machine.allocNext
  split
  · exact .ofNone
  · extract_lets n
    split
    · exact .ofNone
    · extract_lets nc k
      split
      · exact .ofNone
      · split
        · exact .ofNone
        next t b e =>
          have ht : TablesWf t := (OptWf.findBlock h).getFst e
          refine .ofSome (ht.unpack.updRegion fun r hr => ?_).updCtx
          refine RegionWf.setBlk ?_
          split
          · exact { hr with }
          · exact hr

theorem OptWf.allocUpto {i : Nat} {s : State} {i1 i2 : Nat} (h : TablesWf s) : OptWf (allocUpto i s i1 i2) := by
  induction i generalizing s i1 i2 with
  | zero =>
    rw [Machine.allocUpto]
    split
    · split
      · exact .ofSome h
      · exact .ofNone
    · exact .ofNone
  | succ n ih =>
    rw [Machine.allocUpto]
    split
    · exact .ofNone
    · split
      · exact .ofSome h
      · exact .bind (.allocNext h) fun s hs => ih hs

theorem TablesWf.releaseBlocks {s : State} {n : Nat} {bs : List CtxBlk} (h : TablesWf s) : TablesWf (releaseBlocks s n bs) := by
  unfold Machine.releaseBlocks
  dsimp only
  refine h.foldl fun s _ hs => ?_
  split
  · exact hs
  · refine hs.updRegion fun r hr => ?_
    split
    · exact hr.setBlk
    · exact hr.setBlk
    · exact hr.setBlk
    · exact hr

theorem TablesWf.orderRecord {s : State} {r : Nat} {b : Bytes} {kept : Nat} (h : TablesWf s) : TablesWf (s.orderRecord r b kept) := by
  unfold State.orderRecord
  split
  · exact h
  · split
    · exact h.putRecord
    · exact h.setRing

theorem TablesWf.putToken {s : State} {c : Nat} {r : TokRec} (h : TablesWf s) : TablesWf (putToken s c r) := by
  unfold Machine.putToken
  dsimp only
  split
  · exact h
  · split
    · exact h
    · split
      · exact h.setCtx.orderRecord
      · exact h.orderRecord

theorem TablesWf.putTokens {s : State} {c ring : Nat} {rs : List TokRec} (h : TablesWf s) : TablesWf (putTokens s c ring rs) := by
  unfold Machine.putTokens
  split
  · exact h
  · exact .ringIrq (h.foldl fun s _ hs => hs.putToken)

theorem TablesWf.namedCtxs {s : State} {n : Nat} {req : W32} {seq : Option Nat} (h : TablesWf s) : TablesWf (namedCtxs s n req seq).2 := by
  unfold Machine.namedCtxs
  dsimp only
  split
  · exact h
  · split
    · split
      · exact h
      · split
        · exact h.frame
        · exact h.frame
    · exact h

theorem TablesWf.bearWait {s : State} {c : Nat} {req : W32} {seq : Option Nat} {ns : Nat} {f : Ctx → Nat → Ctx} (h : TablesWf s)
    : TablesWf (bearWait s c req seq ns f) := by
  unfold Machine.bearWait
  split
  · exact h
  · split
    · exact h
    · exact h.namedCtxs.foldl fun s _ hs => hs.updCtx

theorem TablesWf.dropAgain {s : State} {n c : Nat} (h : TablesWf s) : TablesWf (dropAgain s n c) := h.updRegion fun _ hr => { hr with }

theorem TablesWf.endReq {s : State} {c status detail : Nat} (h : TablesWf s) : TablesWf (endReq s c status detail) := by
  unfold Machine.endReq
  split
  · exact h
  · split
    · exact h
    · extract_lets +onlyGivenNames _ _ _ _ _ s2 s3 _ _ _ s6
      have h2 : TablesWf s2 := by
        unfold s2
        split
        · exact h
        · split
          · exact h.hostWrite.hostWrite
          · exact h.hostWrite
      have h3 : TablesWf s3 := by
        unfold s3
        split
        · split
          · exact h2
          · exact h2.orderRecord.ringIrq
        · exact h2
      have h6 : TablesWf s6 := .units h3.releaseBlocks.dropAgain rfl
      split
      · exact h6.setCtx
      · exact h6.delCtx

theorem TablesWf.endReqs {s : State} {cs : List Nat} {status detail : Nat} (h : TablesWf s) : TablesWf (endReqs s cs status detail) :=
  h.foldl fun _ _ hs => hs.endReq

theorem TablesWf.checkCredit {s : State} {c : Nat} (h : TablesWf s) : TablesWf (checkCredit s c) := h.updCtx

theorem TablesWf.reprefill {s : State} {n c : Nat} (h : TablesWf s) : TablesWf (reprefill s n c) := by
  unfold Machine.reprefill
  dsimp only
  split
  · exact h
  · split
    · exact h
    · exact h.releaseBlocks.dropAgain.setCtx

theorem TablesWf.creditsBack {s : State} {r : Nat} (h : TablesWf s) : TablesWf (creditsBack s r) := by
  unfold Machine.creditsBack
  dsimp only
  refine h.payOwed.foldl fun s _ hs => ?_
  split
  · refine .updCtx ?_
    split
    · exact hs.reprefill
    · exact hs
  · exact hs

theorem TablesWf.afterCommit {s : State} {c : Nat} {complete : Bool} (h : TablesWf s) : TablesWf (afterCommit s c complete) := by
  unfold Machine.afterCommit
  split
  · exact h
  · split
    · exact h.endReq
    · split
      · exact h.endReq
      · exact h.checkCredit

theorem TablesWf.commitTokens {s : State} {c : Nat} {v : ServSec} {g : Seg} {gen : Bool} {res : List (Nat × Bytes)} (h : TablesWf s)
    : TablesWf (commitTokens s c v g gen res) := by
  unfold Machine.commitTokens
  dsimp only
  split
  · exact h
  · exact h.putTokens.updCtx.afterCommit

theorem TablesWf.putVector {s : State} {c : Nat} {v : ServSec} {pos : Nat} {b : Bytes} (h : TablesWf s)
    : TablesWf (putVector s c v pos b) := by
  unfold Machine.putVector
  split
  · exact h
  · extract_lets +onlyGivenNames _ _ _ _ s2 _
    have h2 : TablesWf s2 := by
      unfold s2
      split
      · exact h.hostWrite.updCtx
      · exact h.hostWrite
    exact h2.putToken.updCtx

theorem TablesWf.commitVectors {s : State} {c : Nat} {v : ServSec} {g : Seg} {res : List (Nat × Bytes)} (h : TablesWf s)
    : TablesWf (commitVectors s c v g res) := by
  unfold Machine.commitVectors
  dsimp only
  split
  · exact h
  · exact .afterCommit (.updCtx (.ringIrq (h.foldl fun s _ hs => hs.putVector)))

theorem TablesWf.stepLeft {s : State} {n : Nat} {p : StepRec} (h : TablesWf s) : TablesWf (stepLeft s n p) := by
  unfold Machine.stepLeft
  extract_lets +onlyGivenNames s1
  have h1 : TablesWf s1 := h.updRegion fun r hr => { hr with }
  refine h1.foldl fun s _ hs => ?_
  split
  · exact hs
  · extract_lets +onlyGivenNames _ _ _
    split
    · split
      · exact hs.setCtx
      · exact hs.setCtx.delCtx
    · split
      · split
        · exact hs.setCtx.setCtx.checkCredit
        · split
          · exact hs.setCtx.endReq
          · exact hs.setCtx
      · split
        · exact hs.setCtx.endReq
        · split
          · exact hs.setCtx.endReq
          · exact hs.setCtx

/-! ## Routes of a region -/

theorem TablesWf.newHole {s : State} {c : Nat} (h : TablesWf s) : TablesWf (newHole s c) := by
  unfold Machine.newHole
  refine .mapRegions h rfl fun c1 r hr => ?_
  split
  · exact { hr with }
  · exact hr

/-! ## The fault service -/

theorem TablesWf.recordErr {s : State} {r : ErrRec} (h : TablesWf s) : TablesWf (s.recordErr r) :=
  .sil (h.frame.foldl fun _ _ hs => hs.postTo)

theorem RegionWf.queueReloc {r : Region} {x : List Nat × List Nat × Option Nat} {cs : List Nat} (h : RegionWf r)
    : RegionWf (r.queueReloc x cs) := by
  unfold Region.queueReloc
  split
  · exact { h with }
  · exact { h with }

theorem TablesWf.dropJob {s : State} {i : Nat} (h : TablesWf s) : TablesWf (dropJob s i) := by
  unfold Machine.dropJob
  dsimp only
  split
  · exact h
  · split
    · exact { h with }
    · split
      · exact .setCtx (.dropAgain (.releaseBlocks { h with }))
      · exact .delCtx (.dropAgain (.releaseBlocks { h with }))

theorem TablesWf.endJob {s : State} {i status detail : Nat} (h : TablesWf s) : TablesWf (endJob s i status detail) := by
  unfold Machine.endJob
  split
  · exact h.dropJob.finish
  · exact h

theorem TablesWf.endFaulted {s : State} {c code : Nat} (h : TablesWf s) : TablesWf (endFaulted s c code) := by
  unfold Machine.endFaulted
  split
  · split
    · exact h.endJob
    · exact h.endReq
  · exact h

theorem TablesWf.endNamed {s : State} {n : Nat} {req : W32} {seq : Option Nat} {code : Nat} (h : TablesWf s)
    : TablesWf (endNamed s n req seq code).1 :=
  h.namedCtxs.foldl fun _ _ hs => hs.endFaulted

theorem TablesWf.disarmVigil {s : State} {n : Nat} (h : TablesWf s) : TablesWf (disarmVigil s n) := by
  unfold Machine.disarmVigil
  split
  · exact .finish (h.updRegion fun r hr => { hr with })
  · exact h

theorem TablesWf.startFlush {s : State} {n code : Nat} (h : TablesWf s) : TablesWf (startFlush s n code) := by
  unfold Machine.startFlush
  dsimp only
  split
  · exact h
  · split
    · exact h
    · split
      · exact .sendAllStages (h.setRegion ⟨(h.region _).windows⟩)
      · exact h.setRegion ⟨(h.region _).windows⟩

theorem TablesWf.tellFault {s : State} {n : Nat} {rec : Bytes} (h : TablesWf s) : TablesWf (tellFault s n rec) := by
  unfold Machine.tellFault
  split
  · exact h.sendControl
  · exact h

theorem TablesWf.flushFor {s : State} {n code : Nat} {rec : Bytes} (h : TablesWf s) : TablesWf (flushFor s n code rec) := by
  unfold Machine.flushFor
  split
  · exact h.tellFault
  · exact h.startFlush

theorem TablesWf.faultRegion {s : State} {n code v : Nat} (h : TablesWf s) : TablesWf (faultRegion s n code v) := by
  unfold Machine.faultRegion
  dsimp only
  refine .postEvent (.recordErr (.updRegion ?_ fun r hr => { hr with }))
  split
  · split
    · exact .finish (.foldl (h.endReqs.foldl fun s _ hs => hs.endJob) fun s _ hs => hs.finish)
    · exact .foldl (h.endReqs.foldl fun s _ hs => hs.endJob) fun s _ hs => hs.finish
  · exact .foldl (h.endReqs.foldl fun s _ hs => hs.endJob) fun s _ hs => hs.finish

theorem TablesWf.judgeDead {s : State} {c code aux0 : Nat} (h : TablesWf s) : TablesWf (judgeDead s c code aux0) := by
  unfold Machine.judgeDead
  extract_lets k req s1 s2 owner v mk
  have h1 : TablesWf s1 := .odPending (h.haltCore fun k hk => { hk with })
  have h2 : TablesWf s2 := by
    unfold s2
    split
    · exact h1.newHole
    · exact h1
  clear_value v owner s2
  split
  · exact h
  · split
    · split
      next cs s3 e =>
      extract_lets s4 s5 r
      have h5 : TablesWf s5 := (h2.namedCtxs.ofSnd e).recordErr.foldl fun s _ hs => hs.endFaulted
      clear_value s5
      split
      · exact h5
      · split
        · exact h5
        · split
          · exact h5.flushFor.faultRegion
          · exact .flushFor (h5.setRegion ⟨(h5.region _).queueReloc.windows⟩)
    · exact h2.recordErr

theorem TablesWf.loseBlocks {s : State} {n p : Nat} (h : TablesWf s) : TablesWf (loseBlocks s n p) := by
  unfold Machine.loseBlocks
  dsimp only
  split
  · exact h
  · split
    · exact h
    · exact .foldl (.updRegion { h with } fun r hr => { hr with }) fun s _ hs => hs.reprefill

theorem TablesWf.reroute {s : State} {n : Nat} (h : TablesWf s) : TablesWf (reroute s n) := by
  unfold Machine.reroute
  dsimp only
  split
  · split
    · exact h
    · split
      · exact h.faultRegion
      · split
        · exact h
        · exact h.setRegion ⟨(h.region _).windows⟩
  · exact h

theorem TablesWf.rerouteAll {s : State} {c : Nat} (h : TablesWf s) : TablesWf (rerouteAll s c) := by
  unfold Machine.rerouteAll
  refine h.foldl fun s _ hs => ?_
  split
  · exact hs.reroute
  · exact hs

theorem TablesWf.coreDies {s : State} {c code aux0 : Nat} (h : TablesWf s) : TablesWf (coreDies s c code aux0) := by
  unfold Machine.coreDies
  dsimp only
  split
  · split
    · exact .rerouteAll (.newHole (h.updCore fun k hk => { hk with }))
    · exact h
  · split
    · exact h.judgeDead.rerouteAll
    · exact h.judgeDead

/-! ## Placement -/

theorem TablesWf.countSpread {s : State} {n : Nat} (h : TablesWf s) : TablesWf (s.countSpread n) := h.frame
theorem CoreWf.startAt {k : Core} {pc now entered : Nat} (h : CoreWf k) : CoreWf (k.startAt pc now entered) := .fetch { h with }

theorem OptWf.bindCore {s : State} {n : Nat} {b : BoundImage} {ctl : Bytes} {v : Nat} (h : TablesWf s) : OptWf (bindCore s n b ctl v) := by
  unfold Machine.bindCore
  dsimp only
  split
  · split
    · refine .ofSome (h.setCore ?_)
      split
      · refine .putBytes ?_
        split
        · exact .frame ((h.core _).putBytes)
        · exact .frame (h.core _)
      · split
        · exact .frame ((h.core _).putBytes)
        · exact .frame (h.core _)
    · exact .ofNone
  · exact .ofNone

theorem OptWf.bindCores {n : Nat} {b : BoundImage} {ctl : Bytes} {l : List Nat} {s : State} (h : TablesWf s)
    : OptWf (bindCores n b ctl l s) := by
  induction l generalizing n b ctl s with
  | nil => exact .ofSome h
  | cons x l ih => exact .bind (.bindCore h) fun s hs => ih hs

theorem TablesWf.bindReds {s : State} {b : BoundImage} (h : TablesWf s) : TablesWf (bindReds s b) := by
  unfold Machine.bindReds
  dsimp only
  refine h.foldl fun s _ hs => ?_
  split
  · exact hs
  · exact hs.updCore fun k hk => { hk with }

theorem TablesWf.bindSyncs {s : State} {n : Nat} {idx : List Nat} (h : TablesWf s) : TablesWf (bindSyncs s n idx) :=
  h.foldl fun _ _ hs => hs.setSync

theorem OptWf.bindImage {s : State} {n : Nat} {b : BoundImage} {ctl : Bytes} {withSyncs : Bool} (h : TablesWf s)
    : OptWf (bindImage s n b ctl withSyncs) := by
  unfold Machine.bindImage
  dsimp only
  refine .bindCores (.bindReds ?_)
  split
  · exact h.bindSyncs
  · exact h

theorem TablesWf.startCore {s : State} {c : Nat} {bundle : Prog → Nat} (h : TablesWf s) : TablesWf (startCore s c bundle) :=
  .startClock (h.updCore fun _ hk => hk.startAt)

theorem TablesWf.startImage {s : State} {b : BoundImage} {bundle : Prog → Nat} (h : TablesWf s) : TablesWf (startImage s b bundle) := by
  unfold Machine.startImage
  refine h.foldl fun s _ hs => ?_
  split
  · exact hs
  · exact hs.startCore

theorem TablesWf.startCores {s : State} {b : BoundImage} (h : TablesWf s) : TablesWf (startCores s b) := h.startImage

theorem TablesWf.dropImage {s : State} {n : Nat} {b : BoundImage} (h : TablesWf s) : TablesWf (dropImage s n b) := by
  unfold Machine.dropImage
  dsimp only
  refine .foldl ?_ fun s _ hs => hs.haltCore fun a ha => { ha with }
  refine h.foldl fun s _ hs => ?_
  split
  · exact hs.setSync
  · exact hs

/-! ## The power sequencer -/

theorem TablesWf.pmbus {s : State} {g cmd v : Nat} (h : TablesWf s) : TablesWf (s.pmbus g cmd v) := h.emit

theorem TablesWf.pmPage {s : State} {page cmd : Nat} (h : TablesWf s) : TablesWf (s.pmPage page cmd) := by
  unfold State.pmPage
  split
  · exact h.pmbus
  · exact h.emit

theorem TablesWf.setpointOp {s : State} {g mv : Nat} (h : TablesWf s) : TablesWf (setpointOp s g mv) := h.pmbus

theorem TablesWf.readMonitors {s : State} {l : List MonRead} (h : TablesWf s) : TablesWf (readMonitors s l) := by
  unfold Machine.readMonitors
  refine h.foldl fun s _ hs => ?_
  split
  · exact hs.updPreg
  · exact hs

theorem TablesWf.rampUp {s : State} {g : Nat} {w : Wake} (h : TablesWf s) : TablesWf (rampUp s g w) := by
  unfold Machine.rampUp
  dsimp only
  refine .modePin (.updPreg ?_)
  split
  · exact h.countField
  · exact h

theorem TablesWf.darkWake {s : State} {g : Nat} (h : TablesWf s) : TablesWf (darkWake s g) := by
  unfold Machine.darkWake
  dsimp only
  split
  · exact h.powerTo.updPreg.rampUp
  · exact h.powerTo.updPreg

theorem CoreWf.darkened {k : Core} : CoreWf k.darkened := .frame .reset

theorem TablesWf.darkCores {s : State} {g : Nat} (h : TablesWf s) : TablesWf (darkCores s g) := by
  unfold Machine.darkCores
  refine .mapCores h rfl fun c k hk => ?_
  split
  · exact .darkened
  · exact hk

theorem TablesWf.goDark {s : State} {g : Nat} (h : TablesWf s) : TablesWf (goDark s g) := by
  unfold Machine.goDark
  dsimp only
  split
  · exact h
  · exact h.countField.darkCores.powerTo.updPreg.modePin

theorem TablesWf.allDark {s : State} (h : TablesWf s) : TablesWf (allDark s) := h.foldl fun _ _ hs => hs.goDark

theorem TablesWf.wakeDone {s : State} {g : Nat} {w : Wake} (h : TablesWf s) : TablesWf (wakeDone s g w) := by
  unfold Machine.wakeDone
  extract_lets s1 s2 retried s3 s4 s5
  have h1 : TablesWf s1 := by
    unfold s1
    split
    · exact h.countField
    · exact h.countField
  have h2 : TablesWf s2 := by
    unfold s2
    split
    · exact h1.darkCores
    · exact h1
  clear_value s2
  have h3 : TablesWf s3 := by
    unfold s3
    split
    · refine .odPending (h2.mapCores rfl fun c k hk => ?_)
      split
      · exact { hk with }
      · exact hk
    · exact h2
  have h5 : TablesWf s5 := by
    refine TablesWf.foldl (s := s4) h3.powerTo.updPreg fun s c hs => ?_
    split
    · exact hs.startClock
    · exact hs
  split
  · exact h5.powerTo
  · exact h5

theorem CoreWf.addTask {k : Core} {a level : Nat} (h : CoreWf k) : CoreWf (k.addTask a level) := by
  unfold Core.addTask
  dsimp only
  split
  · exact h
  · exact h.setSet

end Sys2Proof.Proofs
end

section
/-!
SUPPORT. What the tables keep under packets in the mesh, step faults, flushes and the death of a core.
-/
namespace Sys2Proof.Proofs
open Sys2Proof.Machine Sys2Proof.Safety

/-! ## Packets -/

theorem TablesWf.unmesh {s : State} {i : Nat} (h : TablesWf s) : TablesWf (s.unmesh i) := h.frame
theorem TablesWf.dropPacket {s : State} {loc : Nat} (h : TablesWf s) : TablesWf (dropPacket s loc) := h.updCore fun _ hk => hk.count
theorem TablesWf.reportDamage {s : State} {p : Packet} (h : TablesWf s) : TablesWf (reportDamage s p) := h.stepFaultFrom

theorem TablesWf.damaged {s : State} {loc : Nat} {p : Packet} (h : TablesWf s) : TablesWf (damaged s loc p) :=
  .reportDamage (h.updCore fun _ hk => hk.count)

theorem TablesWf.receiveAt {s : State} {p : Packet} (h : TablesWf s) : TablesWf (receiveAt s p).1 := by
  unfold Machine.receiveAt
  split
  · exact h.reportDamage
  · exact h

theorem TablesWf.bearWake {s : State} {who : Nat × W32 × Option Nat} {ns : Nat} (h : TablesWf s) : TablesWf (bearWake s who ns) :=
  h.bearWait

theorem TablesWf.dozeOver {s : State} {f : Flight} (h : TablesWf s) : TablesWf (dozeOver s f) := by
  unfold Machine.dozeOver
  split
  · exact h.updCore fun k hk => hk.count
  · exact h

theorem TablesWf.dozeHold {s : State} {flight : Nat} {f : Flight} {g : Nat} (h : TablesWf s) : TablesWf (dozeHold s flight f g) := by
  unfold Machine.dozeHold
  dsimp only
  split
  · exact h.frame.dozeWake
  · exact h.frame

theorem TablesWf.arrive {s : State} {i op : Nat} {f : State → Nat → Packet → State} (h : TablesWf s)
    (hf : ∀ (x : State) (n : Nat) (b : Packet), TablesWf x → TablesWf (f x n b)) : TablesWf (arrive s i op f) := by
  unfold Machine.arrive
  dsimp only
  split
  · exact h
  · split
    · exact h
    · split
      · exact h.unmesh.discardFault
      · split
        · exact h.dozeHold
        · split
          · exact h.unmesh.dozeOver.bearWake.damaged
          · split
            · exact h.unmesh.dozeOver.bearWake.receiveAt.dropPacket
            · exact hf _ _ _ h.unmesh.dozeOver.bearWake.receiveAt

theorem TablesWf.toHole {s : State} {loc : Nat} {p : Packet} (h : TablesWf s) : TablesWf (toHole s loc p) := by
  unfold Machine.toHole
  split
  · exact h.dropPacket
  · split
    · exact h.placeAt
    · split
      · exact h.placeAt
      · exact h.discardFault

theorem TablesWf.moveOn {s : State} {flight c : Nat} {p : Packet} {col : Bool} (h : TablesWf s) : TablesWf (moveOn s flight c p col) := by
  unfold Machine.moveOn
  split
  · exact h.unmesh.placeAt
  · exact h.frame

theorem OutWf.execPacketHop {flight : Nat} {s : State} (h : TablesWf s) : OutWf (execPacketHop flight s) := by
  unfold Machine.execPacketHop
  split
  · exact .next h
  · extract_lets +onlyGivenNames _
    split
    · exact .next h.unmesh.dropPacket
    · split
      · exact .next h
      · split
        · exact .next h.unmesh.discardFault
        · split
          · exact .next h.dozeHold
          · split
            · exact .next h.unmesh.discardFault
            · split
              · exact .next h.unmesh.toHole
              · split
                · exact .next h.unmesh.discardFault
                · extract_lets +onlyGivenNames _
                  split
                  · exact .next h.dozeHold
                  · extract_lets +onlyGivenNames _ s2 s3 _
                    have h2 : TablesWf s2 := h.dozeOver.bearWake.updCore fun k hk => hk.count.count
                    have h3 : TablesWf s3 := by
                      unfold s3
                      split
                      · exact h2
                      · exact h2.updCore fun k hk => { hk with }
                    split
                    · exact .next h3.updPreg.unmesh.damaged
                    · split
                      next e10 => exact .next ((h3.updPreg.receiveAt.ofFst e10).moveOn)

theorem TablesWf.homeFail {s : State} {c : Nat} {p : Packet} {f : Fail} (h : TablesWf s) : TablesWf (homeFail s c p f) := h.stepFaultFrom
theorem TablesWf.racingLines {s : State} {c : Nat} {ls : List (Int × Nat)} (h : TablesWf s) : TablesWf (racingLines s c ls).2 := h.frame

theorem OutWf.execReadReq {flight : Nat} {s : State} (h : TablesWf s) : OutWf (execReadReq flight s) := by
  unfold Machine.execReadReq
  dsimp only
  refine .next (h.arrive fun t _ _ ht => ?_)
  split
  · exact ht.placeAt
  · split
    · exact ht.homeFail
    · exact .placeAt (ht.racingLines.updCore fun k hk => hk.readSoftLines)

theorem OutWf.execRemoteWrite {flight : Nat} {s : State} (h : TablesWf s) : OutWf (execRemoteWrite flight s) := by
  unfold Machine.execRemoteWrite
  dsimp only
  refine .next (h.arrive fun t _ _ ht => ?_)
  split
  · split
    · exact ht
    · exact ht.updCore fun k hk => hk.writeWalk
  · refine .placeAt ?_
    split
    · exact ht
    · exact ht.updCore fun k hk => hk.writeWalk

theorem TablesWf.joinReply {s : State} {c key : Nat} {p : Packet} {data : Bytes} (h : TablesWf s)
    : TablesWf (joinReply s c key p data) := by
  unfold Machine.joinReply
  dsimp only
  split
  · split
    · exact h.frame
    · exact h
  · exact h.placeAt

theorem TablesWf.closeReplies {s : State} {c key : Nat} (h : TablesWf s) : TablesWf (closeReplies s c key) := h.frame

theorem OutWf.execMergeReq {flight : Nat} {s : State} (h : TablesWf s) : OutWf (execMergeReq flight s) := by
  unfold Machine.execMergeReq
  refine .next (h.arrive fun t c _ ht => ?_)
  extract_lets +onlyGivenNames w
  split
  · exact ht.placeAt
  · extract_lets +onlyGivenNames l row k key
    split
    · split
      · exact ht.placeAt
      · exact ht.joinReply
    · split
      · exact ht.homeFail
      · extract_lets +onlyGivenNames s1
        have h1 : TablesWf s1 := .closeReplies (ht.updCore fun k hk => hk.readSoftLines)
        split
        next ls s2 e =>
          have h2 : TablesWf s2 := h1.racingLines.ofSnd e
          exact .placeAt (h2.setCore (.frame (h2.core c)))

theorem OutWf.execMergeWindowClose {core row col : Nat} {s : State} (h : TablesWf s) : OutWf (execMergeWindowClose core row col s) :=
  .next (h.setCore (.frame (h.core _)))

theorem TablesWf.landLines {s : State} {c : Nat} {a : Await} {ls : List Bytes} (h : TablesWf s) : TablesWf (landLines s c a ls) := by
  unfold Machine.landLines
  extract_lets +onlyGivenNames _ _ _ k2 _ k3 _
  have hk2 : CoreWf k2 := by
    unfold k2
    split
    · exact (h.core _).foldl fun k1 x1 hx => hx.writeLine
    · exact (h.core _).setIq
  have hk3 : CoreWf k3 := by
    unfold k3
    split
    · exact hk2.setIq
    · exact hk2
  split
  · exact (h.setCore hk3.putAwait).complete
  · exact h.setCore hk3.putAwait

theorem TablesWf.nextMerge {s : State} {c : Nat} {a : Await} (h : TablesWf s) : TablesWf (nextMerge s c a) := by
  unfold Machine.nextMerge
  dsimp only
  split
  · exact h
  · exact h.inject

theorem OutWf.execReadReply {flight : Nat} {s : State} (h : TablesWf s) : OutWf (execReadReply flight s) := by
  unfold Machine.execReadReply
  refine .next (h.arrive fun t _ _ ht => ?_)
  split
  · exact ht
  · split
    · exact ht.landLines.settle
    · exact ht.complete.settle

theorem TablesWf.mergeDeliver {s : State} {c e : Nat} {data : Bytes} (h : TablesWf s) : TablesWf (mergeDeliver s c e data) := by
  unfold Machine.mergeDeliver
  split
  · exact h
  · split
    · exact h.landLines.nextMerge.settle
    · exact h

theorem TablesWf.markReplied {s : State} {loc : Nat} {p : Packet} (h : TablesWf s) : TablesWf (markReplied s loc p) :=
  h.updCore fun _ hk => { hk with }

theorem TablesWf.countCopies {s : State} {loc : Nat} {go : List Branch} (h : TablesWf s) : TablesWf (countCopies s loc go) :=
  h.updCore fun _ hk => hk.count.count

theorem OutWf.execMergeReply {flight : Nat} {s : State} (h : TablesWf s) : OutWf (execMergeReply flight s) := by
  unfold Machine.execMergeReply
  split
  · exact .next h
  · split
    · exact .next h
    · extract_lets +onlyGivenNames _
      split
      · exact .next h.unmesh.discardFault
      · split
        · exact .next h.dozeHold
        · extract_lets +onlyGivenNames _ _ _ _ _ _ _ _ _ _ _ s2 _ s3 _ s5 s6 s7
          have h2 : TablesWf s2 := by
            unfold s2
            split
            · exact h.unmesh.markReplied
            · exact h.unmesh
          have h3 : TablesWf s3 := by
            unfold s3
            split
            · exact h2
            · exact h2.dozeOver.foldl fun s _ hs => hs.bearWake
          have h5 : TablesWf s5 := h3.countCopies.foldl fun s _ hs => hs.discardFault
          have h6 : TablesWf s6 := by
            unfold s6
            refine h5.foldl fun s _ hs => ?_
            extract_lets +onlyGivenNames s9 _
            have h9 : TablesWf s9 := by
              unfold s9
              split
              · exact hs
              · exact hs.updCore fun k hk => { hk with }
            split
            · exact h9.updPreg.damaged
            · split
              next e5 => exact (h9.updPreg.receiveAt.ofFst e5).placeAt
          have h7 : TablesWf s7 := by
            unfold s7
            refine h6.foldl fun s _ hs => ?_
            extract_lets +onlyGivenNames s9 _
            have h9 : TablesWf s9 := by
              unfold s9
              split
              · exact hs.dozeWake
              · exact hs
            exact h9.frame
          split
          · exact .next h7
          · split
            · exact .next h7.frame
            · split
              · exact .next h7.damaged
              · split
                next e7 =>
                  split
                  · exact .next ((h7.receiveAt.ofFst e7).dropPacket)
                  · exact .next ((h7.receiveAt.ofFst e7).foldl fun s _ hs => hs.mergeDeliver)

theorem OutWf.execWriteAck {flight : Nat} {s : State} (h : TablesWf s) : OutWf (execWriteAck flight s) := by
  unfold Machine.execWriteAck
  refine .next (h.arrive fun t _ _ ht => ?_)
  split
  · exact ht
  · exact ht.complete.settle

theorem TablesWf.landReduce {s : State} {c : Nat} {p : Packet} (h : TablesWf s) : TablesWf (landReduce s c p) := by
  unfold Machine.landReduce
  dsimp only
  split
  · exact h.dropPacket
  · split
    · exact h.dropPacket.stepFaultFrom
    · split
      · exact .applySignal (h.setCore (.frame ((h.core _).readSoftLines.writeLine.count)))
      · exact h.setCore (.frame ((h.core _).readSoftLines.writeLine.count))

theorem OutWf.execReduce {flight : Nat} {s : State} (h : TablesWf s) : OutWf (execReduce flight s) := by
  unfold Machine.execReduce
  refine .next (h.arrive fun t _ _ ht => ?_)
  split
  · exact ht.dropPacket
  · exact ht.landReduce

theorem OutWf.execSignal {flight : Nat} {s : State} (h : TablesWf s) : OutWf (execSignal flight s) := by
  unfold Machine.execSignal
  split
  · exact .next h
  · split
    · exact .next h
    · exact .next (h.arrive fun t _ _ ht => ht.signalAt)

theorem OutWf.execStepToken {flight : Nat} {s : State} (h : TablesWf s) : OutWf (execStepToken flight s) := by
  unfold Machine.execStepToken
  split
  · exact .next h
  · split
    · exact .next h
    · refine .next (h.arrive fun t _ _ ht => ?_)
      split
      · exact ht.dropPacket
      · extract_lets +onlyGivenNames _ s1
        have h11 : TablesWf s1 := by
          unfold s1
          split
          · exact ht.updCore fun k hk => hk.writeLine
          · exact ht
        refine .applySignal ?_
        split
        · exact h11.startClock
        · exact h11

/-! ## Faults -/

theorem CoreWf.clearUnit {k : Core} {u : Nat} (h : CoreWf k) : CoreWf (k.clearUnit u) := by
  unfold Core.clearUnit
  dsimp only
  split
  · exact { h with }
  · exact { h with acc := Tbl.wf_filter h.acc _ }

theorem TablesWf.marched {s : State} {c u : Nat} {fails : Bool} {source : Option Bytes} (h : TablesWf s)
    : TablesWf (marched s c u fails source) := by
  unfold Machine.marched
  dsimp only
  split
  · exact h.coreDies
  · split
    · exact .coreDies (h.frame.odPending.updCore fun k hk => hk.clearUnit)
    · exact h.frame.odPending.updCore fun k hk => hk.clearUnit

theorem TablesWf.freezeRegion {s : State} {n : Nat} (h : TablesWf s) : TablesWf (freezeRegion s n) := by
  unfold Machine.freezeRegion
  dsimp only
  refine h.foldl fun s _ hs => ?_
  split
  · exact .napIfIdle (hs.updCore fun k hk => hk.freeze)
  · exact hs

theorem TablesWf.beginVigil {s : State} {n trigger : Nat} {core handle : Option Nat} (h : TablesWf s)
    : TablesWf (beginVigil s n trigger core handle) :=
  .sil (.units (h.startFlush.freezeRegion.updRegion fun _ hr => { hr with }) rfl)

theorem OutWf.execFault {core : Nat} {marchFails : Bool} {source : Option Bytes} {s : State} (h : TablesWf s) :
    OutWf (execFault core marchFails source s) := by
  unfold Machine.execFault
  split
  · exact .next h
  next r _ =>
    extract_lets s1 owner code
    have h1 : TablesWf s1 := h.updCore fun k hk => { hk with }
    clear_value owner
    have named : TablesWf (match owner with | some n => namedCtxs s1 n r.req r.stepSeq | none => ([], s1)).2 := by
      split
      · exact h1.namedCtxs
      · exact h1
    split
    next cs s2 e =>
    extract_lets rec_ s3 s4 s5
    have h4 : TablesWf s4 := (named.ofSnd e).recordErr.foldl fun s _ hs => hs.endFaulted
    clear_value s4
    have h5 : TablesWf s5 := by
      unfold s5
      split
      · exact h4
      · extract_lets g
        split
        · split
          · dsimp only
            split
            · exact h4.beginVigil.tellFault
            · exact h4.beginVigil
          · exact h4.flushFor
        · exact h4.flushFor
    refine .next ?_
    split
    · exact h5.marched
    · exact h5

theorem OutWf.execImageFlush {region : Nat} {s : State} (h : TablesWf s) : OutWf (execImageFlush region s) := by
  unfold Machine.execImageFlush
  dsimp only
  split
  · split
    · exact .next h
    · exact .next (.updRegion (h.foldl fun s _ hs => hs.injectSvc) fun r hr => { hr with })
  · exact .next h

theorem OutWf.execFaultActionStop {core : Nat} {s : State} (h : TablesWf s) : OutWf (execFaultActionStop core s) := by
  unfold Machine.execFaultActionStop
  dsimp only
  split
  · exact .next h
  · split
    · exact .next (h.unmesh.haltCore fun a ha => ha)
    · exact .next h.unmesh

theorem TablesWf.requeueSteps {s : State} {n : Nat} (h : TablesWf s) : TablesWf (requeueSteps s n) := by
  unfold Machine.requeueSteps
  extract_lets +onlyGivenNames _ _ _ s1 _ s2
  have h1 : TablesWf s1 := h.setRegion ⟨(h.region _).windows⟩
  have h2 : TablesWf s2 := by
    unfold s2
    refine h1.foldl fun s _ hs => ?_
    split
    · exact hs
    · exact hs.delCtx
  exact { h2 with ctxs := by dsimp only; exact Tbl.wf_map h2.ctxs _ }

theorem TablesWf.clearImage {s : State} {n : Nat} (h : TablesWf s) : TablesWf (clearImage s n) := by
  unfold Machine.clearImage
  extract_lets s1 cs s2 stale _ _ s3 s4
  have h2 : TablesWf s2 := TablesWf.foldl (s := s1) h.frame fun s _ hs => hs.updCore fun k hk => { hk with }
  have h3 : TablesWf s3 := { h2 with reads := by dsimp only [s3]; exact Tbl.wf_map h2.reads _ }
  have h4 : TablesWf s4 := h3.foldl fun s _ hs => hs.hubDone
  exact h4.updRegion fun r hr => { hr with }

theorem TablesWf.orderRestart {s : State} {n : Nat} (h : TablesWf s) : TablesWf (orderRestart s n) := by
  unfold Machine.orderRestart
  dsimp only
  split
  · exact h
  · refine .updRegion ?_ fun r hr => { hr with }
    refine h.foldl fun s _ hs => ?_
    split
    · exact hs
    · exact hs.injectSvc.updCore fun k hk => { hk with }

theorem TablesWf.tryRelease {s : State} {n : Nat} (h : TablesWf s) : TablesWf (tryRelease s n) := by
  unfold Machine.tryRelease
  dsimp only
  split
  · split
    · exact h
    · split
      · exact .sendControl (h.setRegion ⟨(h.region _).windows⟩)
      · exact h.setRegion ⟨(h.region _).windows⟩
  · exact h

theorem OutWf.execFlushDrained {region : Nat} {s : State} (h : TablesWf s) : OutWf (execFlushDrained region s) := by
  unfold Machine.execFlushDrained
  dsimp only
  split
  · split
    · exact .next h
    · split
      · exact .next (.sendControl (h.requeueSteps.clearImage.recordErr.updRegion fun r hr => { hr with }))
      · refine .next (.tryRelease (.orderRestart ?_))
        split
        · exact .sendAllStages (h.requeueSteps.clearImage.recordErr.updRegion fun r hr => { hr with })
        · exact h.requeueSteps.clearImage.recordErr
  · exact .next h

theorem OutWf.execFaultActionRestart {core : Nat} {s : State} (h : TablesWf s) : OutWf (execFaultActionRestart core s) := by
  unfold Machine.execFaultActionRestart
  dsimp only
  split
  · exact .next h
  · split
    · exact .next h.unmesh
    · refine .next ?_
      split
      · exact .tryRelease (.startClock (h.unmesh.setCore (.frame ((h.unmesh.core _).startAt))))
      · exact .startClock (h.unmesh.setCore (.frame ((h.unmesh.core _).startAt)))

theorem OutWf.execCoreDead {core code aux0 : Nat} {s : State} (h : TablesWf s) : OutWf (execCoreDead core code aux0 s) := by
  unfold Machine.execCoreDead
  split
  · exact .next h.coreDies
  · exact .next h

theorem OutWf.execSequencerWatchdog {core : Nat} {s : State} (h : TablesWf s) : OutWf (execSequencerWatchdog core s) := by
  unfold Machine.execSequencerWatchdog
  extract_lets +onlyGivenNames _ _
  split
  · exact .next h.coreDies
  · exact .next h

theorem OutWf.execHeartbeatMissing {core : Nat} {s : State} (h : TablesWf s) : OutWf (execHeartbeatMissing core s) := by
  unfold Machine.execHeartbeatMissing
  dsimp only
  split
  · exact .next h.coreDies
  · exact .next h

end Sys2Proof.Proofs
end

section
/-!
SUPPORT. What the tables keep under the configuration store, power regions, the end of everything that runs, and cooling.
-/
namespace Sys2Proof.Proofs
open Sys2Proof.Machine Sys2Proof.Safety

/-! ## Dictionary reads -/

theorem TablesWf.setSelection {s : State} {w : Writer} {key v : Nat} (h : TablesWf s) : TablesWf (s.setSelection w key v) := by
  unfold State.setSelection
  exact { h with }

theorem TablesWf.dropShadow {s : State} {w : Writer} {g : Nat} (h : TablesWf s) : TablesWf (dropShadow s w g) := by
  unfold Machine.dropShadow
  exact { h with }

theorem TablesWf.changeCount {s : State} {w : Writer} {admin : Bool} {index sub : Nat} (h : TablesWf s)
    : TablesWf (changeCount s w admin index sub).2 := by
  unfold Machine.changeCount
  dsimp only
  split
  · split
    · split
      · exact h
      · exact .units h.frame rfl
    · exact h
  · exact h

theorem TablesWf.odBump {s : State} {index sub : Nat} (h : TablesWf s) : TablesWf (odBump s index sub) := by
  unfold Machine.odBump
  exact { h with }

theorem TablesWf.odStore {s : State} {index sub : Nat} {r : OdRow} {v : Bytes} (h : TablesWf s) : TablesWf (odStore s index sub r v) := by
  unfold Machine.odStore
  extract_lets k dflt _ s1 s2
  have h1 : TablesWf s1 := { h with vals := Tbl.wf_ite (Tbl.wf_del h.vals k) (Tbl.wf_set h.vals k v) }
  split
  · exact h1.odBump.odPending
  · exact h1.odBump

/-! ## The configuration store -/

theorem OutWf.applied {s : State} {index : Nat} {e : OdEff} (h : TablesWf s) (he : TablesWf e.1) : OutWf (applied s index e) := by
  unfold Machine.applied
  refine .next ?_
  split
  · exact h
  · exact he

theorem TablesWf.commitCounted {e : OdEff} {index : Nat} (h : TablesWf e.1) : TablesWf (commitCounted e index).1 := by
  unfold Machine.commitCounted
  split
  · exact h.odBump
  · exact h

theorem RegionWf.unbind {r : Region} (h : RegionWf r) : RegionWf r.unbind := by
  unfold Region.unbind
  exact { h with }

theorem RegionWf.takeKey {r : Region} (h : RegionWf r) : RegionWf r.takeKey := by
  unfold Region.takeKey
  split
  · exact { h with }
  · exact h

theorem RegionWf.dropOp {r : Region} (h : RegionWf r) : RegionWf r.dropOp := by
  unfold Region.dropOp
  dsimp only
  split
  · exact h
  · split
    · exact h
    · split
      · exact ⟨h.takeKey.windows⟩
      · exact { h with }

theorem RegionWf.atStart {r : Region} {cold : Bool} (h : RegionWf r) : RegionWf (r.atStart cold) :=
  ⟨Tbl.wf_ite Tbl.wf_nil h.windows⟩

theorem TablesWf.writeBlock {s : State} {b lay : Nat} {d : StoreData} {aOk bOk : Bool} (h : TablesWf s)
    : TablesWf (writeBlock s b lay d aOk bOk) := by
  unfold Machine.writeBlock
  dsimp only
  split
  · split
    · exact { h with }
    · exact .odPending { h with }
  · exact { h with }

theorem TablesWf.writeNow {s : State} {b lay : Nat} {d : StoreData} (h : TablesWf s) : TablesWf (writeNow s b lay d) := h.frame.writeBlock

theorem TablesWf.saveBlock {s : State} {b : Nat} {aOk bOk : Bool} (h : TablesWf s) : TablesWf (saveBlock s b aOk bOk) :=
  .writeBlock { h with saves := Tbl.wf_del h.saves _ }

theorem TablesWf.saveNow {s : State} {b : Nat} (h : TablesWf s) : TablesWf (saveNow s b) := h.frame.saveBlock
theorem TablesWf.keepRecord {s : State} {n : Nat} (h : TablesWf s) : TablesWf (keepRecord s n) := h.saveNow

theorem TablesWf.saveAll {s : State} (h : TablesWf s) : TablesWf (saveAll s) := by
  unfold Machine.saveAll
  dsimp only
  split
  · exact .saveNow (h.foldl fun s _ hs => hs.saveNow)
  · exact h.foldl fun s _ hs => hs.saveNow

theorem OutWf.execBlockSave {block : Nat} {aOk bOk : Bool} {s : State} (h : TablesWf s) : OutWf (execBlockSave block aOk bOk s) := by
  unfold Machine.execBlockSave
  split
  · split
    · exact .next h.saveBlock
    · exact .next h
  · exact .next h

theorem TablesWf.flushOp {s : State} {v : Nat} (h : TablesWf s) : TablesWf (flushOp s v).1 := by
  unfold Machine.flushOp
  split
  · exact h.saveAll.odBump
  · exact h

theorem OutWf.execFlush {w : Writer} {value : Nat} {s : State} (h : TablesWf s) : OutWf (execFlush w value s) := .applied h h.flushOp

theorem TablesWf.keepRegion {s : State} {n : Nat} (h : TablesWf s) : TablesWf (keepRegion s n) := by
  unfold Machine.keepRegion
  extract_lets r i put s1 k
  have hput (t : State) (sub v : Nat) (ht : TablesWf t) : TablesWf (put t sub v) := by
    unfold put
    split
    · exact ht.odStore
    · exact ht
  have h1 : TablesWf s1 := hput _ _ _ (hput _ _ _ (hput _ _ _ (hput _ _ _ (hput _ _ _ h))))
  exact .odPending { h1 with vals := Tbl.wf_ite (Tbl.wf_del h1.vals k) (Tbl.wf_set h1.vals k _) }

theorem RegionWf.regionFromStore {s : State} {n : Nat} {r : Region} (hr : RegionWf r) : RegionWf (regionFromStore s n r) := by
  unfold Machine.regionFromStore
  exact { hr with }

theorem TablesWf.clearFallbackOp {s : State} {v : Nat} (h : TablesWf s) : TablesWf (clearFallbackOp s v).1 := by
  unfold Machine.clearFallbackOp
  dsimp only
  split
  · exact .odBump { h with }
  · exact h

theorem OutWf.execClearFallback {w : Writer} {value : Nat} {s : State} (h : TablesWf s) : OutWf (execClearFallback w value s) :=
  .applied h h.clearFallbackOp

theorem TablesWf.restoreKept {s : State} {vals : Tbl Bytes} {rom : Nat} (h : TablesWf s) : TablesWf (restoreKept s vals rom) := by
  unfold Machine.restoreKept
  dsimp only
  refine .foldl ?_ ?_
  · refine .foldl (.mapCores h rfl (fun c k hk => { hk with })) fun s _ hs => ?_
    split
    · exact hs
    · exact hs.updCore fun k hk => { hk with }
  · intro s1 x h1
    split
    · exact h1
    · exact h1.setPreg

theorem RegionWf.fromRecord {r : Region} {x : Option StoreRec} {cold : Bool} (h : RegionWf r) : RegionWf (r.fromRecord x cold) := by
  unfold Region.fromRecord
  dsimp only
  split
  · exact { h with }
  · exact ⟨(RegionWf.atStart { h with }).windows⟩

theorem wf_storedVals {s : State} {lay : Nat} : Tbl.wf (storedVals s lay) := by
  refine Tbl.wf_foldl Tbl.wf_nil fun t e ht => ?_
  split
  · exact Tbl.wf_foldl ht fun t v ht => Tbl.wf_set ht _ _
  · exact ht

theorem TablesWf.loadStore {s : State} {cold : Bool} {rom : Nat} (h : TablesWf s) : TablesWf (loadStore s cold rom) := by
  unfold Machine.loadStore
  extract_lets lay fell again vals recs _ s1 s2 s3 s4 s5
  have h1 : TablesWf s1 := { h with vals := Tbl.wf_filter wf_storedVals _, saves := Tbl.wf_nil }
  have h2 : TablesWf s2 := h1.foldl fun s _ hs => hs.notice
  have h4 : TablesWf s4 := by
    refine h2.restoreKept.foldl fun s n hs => ?_
    dsimp only
    split
    · exact hs
    · exact hs.updRegion fun r hr => hr.fromRecord
  have h5 : TablesWf s5 := h4.mapRegions rfl fun n r hr => hr.regionFromStore
  split
  · exact h5
  · exact h5.odPending

theorem TablesWf.saveBoot {s : State} (h : TablesWf s) : TablesWf (saveBoot s) := h.writeNow

theorem TablesWf.shadowOp {s : State} {w : Writer} {index sub : Nat} {v : Bytes} (h : TablesWf s)
    : TablesWf (shadowOp s w index sub v).1 := by
  unfold Machine.shadowOp
  dsimp only
  split
  · exact h
  · split
    · exact h
    · split
      · exact h
      · exact .units h.dropShadow rfl

theorem OutWf.execShadowWrite {w : Writer} {index sub : Nat} {value : Bytes} {s : State} (h : TablesWf s)
    : OutWf (execShadowWrite w index sub value s) :=
  .applied h h.shadowOp

theorem TablesWf.discardOp {s : State} {w : Writer} {index : Nat} (h : TablesWf s) : TablesWf (discardOp s w index) := h.dropShadow.odBump

theorem OutWf.execShadowDiscard {w : Writer} {index : Nat} {s : State} (h : TablesWf s) : OutWf (execShadowDiscard w index s) :=
  .applied h h.discardOp

theorem OutWf.execShadowTimeout {w : Writer} {index : Nat} {s : State} (h : TablesWf s) : OutWf (execShadowTimeout w index s) := by
  unfold Machine.execShadowTimeout
  split
  · split
    · exact .next h.dropShadow
    · exact .next h
  · exact .next h

theorem TablesWf.segmentOp {s : State} {w : Writer} (h : TablesWf s) : TablesWf (segmentOp s w).1 := by
  unfold Machine.segmentOp
  split
  · exact h
  · extract_lets v code _ s1 put s2
    have h1 : TablesWf s1 := .odBump h.frame
    have hput (t : State) (i sub : Nat) (ht : TablesWf t) : TablesWf (put t i sub) := by
      unfold put
      split
      · exact ht.odStore
      · exact ht
    clear_value put
    have h2 : TablesWf s2 := hput _ _ _ (hput _ _ _ (hput _ _ _ (hput _ _ _ (hput _ _ _ (hput _ _ _ h1)))))
    split
    · exact h1
    · exact h2.dropShadow

theorem OutWf.execSegmentCommit {w : Writer} {s : State} (h : TablesWf s) : OutWf (execSegmentCommit w s) :=
  .applied h h.segmentOp.commitCounted

/-! ## Power regions -/

theorem OutWf.execDozeEntry {g : Nat} {s : State} (h : TablesWf s) : OutWf (execDozeEntry g s) := by
  unfold Machine.execDozeEntry
  dsimp only
  split
  · exact .next h.countField.powerTo.updPreg.modePin
  · exact .next h

theorem OutWf.execDarkEntry {g : Nat} {s : State} (h : TablesWf s) : OutWf (execDarkEntry g s) := by
  unfold Machine.execDarkEntry
  dsimp only
  split
  · exact .next h.goDark
  · exact .next h

theorem TablesWf.wakeForUpkeep {s : State} {g : Nat} (h : TablesWf s) : TablesWf (wakeForUpkeep s g) := by
  unfold Machine.wakeForUpkeep
  extract_lets p soon
  have hsoon (k : Core) (e : Nat × Arr) (hk : CoreWf k) : CoreWf (soon k e) := by
    unfold soon
    split
    · exact hk.addTask
    · exact hk
  refine TablesWf.mapCores (s := s) h rfl fun c k hk => ?_
  split
  · exact hk.foldl hsoon
  · exact hk

theorem TablesWf.wakeRegion {s : State} {g : Nat} {retry : Bool} (h : TablesWf s) : TablesWf (wakeRegion s g retry) := by
  unfold Machine.wakeRegion
  split
  · exact h.dozeWake
  · exact h.darkWake
  · split
    · exact h.darkWake
    · exact h
  · exact h

theorem OutWf.execNeighbourRecheck {look : WakeLook} {s : State} (h : TablesWf s) : OutWf (execNeighbourRecheck look s) := by
  unfold Machine.execNeighbourRecheck
  dsimp only
  split
  · split
    · exact .next h
    · refine .next ?_
      split
      · exact h.readMonitors.countField.updPreg.rampUp
      · exact h.readMonitors.countField.updPreg
  · exact .next h

theorem OutWf.execWakeWaitLimit {g : Nat} {s : State} (h : TablesWf s) : OutWf (execWakeWaitLimit g s) := by
  unfold Machine.execWakeWaitLimit
  dsimp only
  split
  · split
    · exact .next h
    · exact .next h.countField.updPreg.notice
  · exact .next h

theorem TablesWf.loseRegion {s : State} {g cause status : Nat} (h : TablesWf s) : TablesWf (loseRegion s g cause status) := by
  unfold Machine.loseRegion
  split
  · exact h
  · extract_lets +onlyGivenNames s1 s2 s3 held s4 s5
    have h4 : TablesWf s4 := h.countField.powerTo.updPreg.odPending.modePin.frame
    have h5 : TablesWf s5 := h4.foldl fun s _ hs => hs.discardFault
    split
    next dead others _ =>
      extract_lets +onlyGivenNames s6 s7 s8
      have h6 : TablesWf s6 := h5.foldl fun s _ hs => hs.newHole
      have h7 : TablesWf s7 := h6.foldl fun s _ hs => hs.coreDies
      have h8 : TablesWf s8 := by
        refine h7.mapCores rfl fun c k hk => ?_
        split
        · exact .frame .darkened
        · exact hk
      exact h8.pmbus.pmbus

theorem TablesWf.retryFailed {s : State} {g : Nat} (h : TablesWf s) : TablesWf (retryFailed s g) := h.frame.updPreg.odPending.pmbus

theorem TablesWf.wakeFails {s : State} {g : Nat} (h : TablesWf s) : TablesWf (wakeFails s g) := by
  unfold Machine.wakeFails
  split
  · exact h.powerTo.modePin.pmbus.retryFailed
  · exact h.frame.loseRegion

theorem TablesWf.beginRetry {s : State} {g : Nat} (h : TablesWf s) : TablesWf (beginRetry s g) := h.pmbus.pmbus.updPreg

theorem TablesWf.retryOp {s : State} {g v : Nat} (h : TablesWf s) : TablesWf (retryOp s g v).1 := by
  unfold Machine.retryOp
  dsimp only
  split
  · exact h
  · split
    · exact h
    · exact h.beginRetry.odBump

theorem OutWf.execRetry {w : Writer} {g value : Nat} {s : State} (h : TablesWf s) : OutWf (execRetry w g value s) := by
  unfold Machine.execRetry
  split
  · exact .applied h h.retryOp
  · exact .next h

theorem OutWf.execTelemetry {pages : List PageRead} {s : State} (h : TablesWf s) : OutWf (execTelemetry pages s) := by
  unfold Machine.execTelemetry
  dsimp only
  split
  · exact .next h
  · refine .next (.foldl (h.frame.foldl fun s _ hs => hs.pmPage.pmPage) fun s _ hs => ?_)
    split
    · exact hs.updPreg
    · exact hs.frame

theorem OutWf.execPowerUpdate {samples : List MonRead} {s : State} (h : TablesWf s) : OutWf (execPowerUpdate samples s) :=
  .next h.readMonitors.frame

/-! ## The end of everything that runs -/

theorem TablesWf.dropEnables {s : State} (h : TablesWf s) : TablesWf (dropEnables s) := h.emit.emit.emit.frame

theorem TablesWf.endEverything {s : State} {code : Nat} (h : TablesWf s) : TablesWf (endEverything s code).1 := by
  unfold Machine.endEverything
  extract_lets s1 cs s2 _ s3
  have h1 : TablesWf s1 := h.mapRegions rfl fun n r hr => { hr with }
  have h2 : TablesWf s2 := h1.endReqs
  have h2' : TablesWf { s2 with serving := { s2.serving with ctxs := [], index := [] } } := { h2 with ctxs := Tbl.wf_nil }
  exact h2'.mapRegions rfl fun n r hr => { hr with }

theorem TablesWf.dropOps {s : State} (h : TablesWf s) : TablesWf (dropOps s) := .mapRegions h rfl (fun _ _ hr => hr.dropOp)

theorem TablesWf.endHandles {s : State} {status detail : Nat} (h : TablesWf s) : TablesWf (endHandles s status detail) :=
  .units (h.foldl fun _ _ hs => hs.finish) rfl

theorem CoreWf.atStart {k : Core} {now : Nat} : CoreWf (k.atStart now) := .frame .darkened

theorem TablesWf.clearBoth {s : State} {cold : Bool} (h : TablesWf s) : TablesWf (clearBoth s cold) :=
  have h' : TablesWf
      { s with host := { s.host with writes := [] }, observe := { s.observe with dumps := [] },
               boot := { s.boot with sessions := [] } } :=
    { h with writes := Tbl.wf_nil, dumps := Tbl.wf_nil, sessions := Tbl.wf_nil }
  h'.mapUnits rfl (fun _ _ _ => .atStart) fun _ _ hr => hr.atStart

theorem TablesWf.clearCold {s : State} (h : TablesWf s) : TablesWf (clearCold s) := by
  unfold Machine.clearCold
  extract_lets +onlyGivenNames s1
  have h1 : TablesWf s1 := h.clearBoth
  exact { h1 with ctxs := Tbl.wf_nil, sqs := Tbl.wf_nil, rings := Tbl.wf_nil, reads := Tbl.wf_nil, writes := Tbl.wf_nil,
                  handles := Tbl.wf_nil, dumps := Tbl.wf_nil, ports := Tbl.wf_nil, port := fun _ => .reset }

theorem TablesWf.disarmAll {s : State} (h : TablesWf s) : TablesWf (disarmAll s) := h.foldl fun _ _ hs => hs.disarmVigil

theorem TablesWf.endService {s : State} {code aux0 : Nat} (h : TablesWf s) : TablesWf (endService s code aux0) :=
  h.disarmAll.endEverything.recordErr.endHandles.dropOps

theorem TablesWf.shutDown {s : State} {cause : Nat} (h : TablesWf s) : TablesWf (shutDown s cause) := by
  unfold Machine.shutDown
  extract_lets +onlyGivenNames _ _ _ _ s4 s5
  have h4 : TablesWf s4 := h.endService.postEvent.frame.odPending.saveAll
  have h5 : TablesWf s5 := by
    unfold s5
    split
    · exact h4
    · exact h4.allDark.dropEnables
  exact .mapRegions h5 rfl (fun c r hr => hr.unbind)

theorem TablesWf.trigger {s : State} {kind n : Nat} (h : TablesWf s) : TablesWf (trigger s kind n) :=
  .mapRegions h rfl (fun _ _ hr => { hr with })

theorem TablesWf.orderedStart {s : State} {kind : Nat} (h : TablesWf s) : TablesWf (orderedStart s kind) := h.endService.saveAll.trigger

theorem TablesWf.suddenWarm {s : State} (h : TablesWf s) : TablesWf (suddenWarm s) :=
  .trigger (.dropOps (.units h.disarmAll.endEverything.recordErr rfl))

/-! ## Cooling -/

theorem TablesWf.setFlag {s : State} {bit region : Nat} (h : TablesWf s) : TablesWf (setFlag s bit region) := by
  unfold Machine.setFlag
  dsimp only
  split
  · exact h
  · split
    · exact h.frame.postEvent
    · exact h.frame

theorem TablesWf.clearFlagsOp {s : State} {mask : W32} (h : TablesWf s) : TablesWf (clearFlagsOp s mask).1 := h.frame.odBump

theorem OutWf.execClearFlags {w : Writer} {mask : W32} {s : State} (h : TablesWf s) : OutWf (execClearFlags w mask s) :=
  .applied h h.frame.odBump

theorem TablesWf.beginHold {s : State} (h : TablesWf s) : TablesWf (beginHold s) := by
  unfold Machine.beginHold
  dsimp only
  split
  · exact h
  · refine .postEvent (.foldl (.mapCores h rfl (fun c k hk => hk.freeze)) fun s _ hs => ?_)
    split
    · exact hs.powerTo
    · exact hs

theorem CoreWf.thaw {k : Core} {now d : Nat} (h : CoreWf k) : CoreWf (k.thaw now d) := by
  unfold Core.thaw
  exact { h with }

theorem OutWf.execTrayRead {sample : Option Bytes} {s : State} (h : TablesWf s) : OutWf (execTrayRead sample s) := by
  unfold Machine.execTrayRead
  split
  · exact .next h
  · extract_lets +onlyGivenNames count
    split
    · exact .next h
    · extract_lets raw recent best back _ s1 s2 s3
      have h1 : TablesWf s1 := h.frame
      have h2 : TablesWf s2 := by
        unfold s2
        split
        · exact h1.setFlag
        · exact h1
      have h3 : TablesWf s3 := by
        unfold s3
        split
        · exact h2.setFlag
        · exact h2
      split
      · exact .next h3.beginHold
      · exact .next h3

theorem OutWf.execTrayStale {s : State} (h : TablesWf s) : OutWf (execTrayStale s) := by
  unfold Machine.execTrayStale
  dsimp only
  split
  · exact .next h.frame.setFlag
  · exact .next h

theorem OutWf.execTrayLost {s : State} (h : TablesWf s) : OutWf (execTrayLost s) := by
  unfold Machine.execTrayLost
  dsimp only
  split
  · exact .next h.frame.setFlag.beginHold
  · exact .next h

theorem TablesWf.faultPair {s : State} {g : Nat} (h : TablesWf s) : TablesWf (faultPair s g) := by
  unfold Machine.faultPair
  dsimp only
  split
  · exact h.setFlag
  · exact h.setPreg.odPending.odPending.setFlag

theorem TablesWf.voteDiodes {s : State} {d : Diodes} (h : TablesWf s) : TablesWf (voteDiodes s d) := by
  unfold Machine.voteDiodes
  extract_lets +onlyGivenNames _ _ _ _ _ _ _ _ _ _ _ _ _ _ _ s2 s3 s4
  have h2 : TablesWf s2 := by
    unfold s2
    split
    · exact h.setPreg
    · exact h.setPreg.odPending
  have h3 : TablesWf s3 := by
    unfold s3
    split
    · exact h2.setFlag
    · exact h2
  have h4 : TablesWf s4 := by
    unfold s4
    split
    · exact h3.setFlag
    · exact h3
  split
  · exact h4.faultPair
  · split
    · exact h4.setFlag
    · exact h4

theorem TablesWf.tempTasks {s : State} {g : Nat} (h : TablesWf s) : TablesWf (tempTasks s g) := by
  unfold Machine.tempTasks
  extract_lets +onlyGivenNames _ _ _ _ s1
  have h1 : TablesWf s1 := by
    unfold s1
    refine .mapCores h rfl fun c k hk => ?_
    split
    · refine hk.foldl fun k1 x1 hx => ?_
      extract_lets +onlyGivenNames _
      split
      · exact hx.addTask
      · exact hx
    · exact hk
  split
  · exact h1.updPreg
  · exact h1

theorem TablesWf.takeSample {s : State} {readings : List Diodes} (h : TablesWf s) : TablesWf (takeSample s readings).1 :=
  .frame (.foldl (h.foldl fun _ _ hs => hs.voteDiodes) fun _ _ hs => hs.tempTasks)

theorem OutWf.execDiodeSample {readings : List Diodes} {s : State} (h : TablesWf s) : OutWf (execDiodeSample readings s) := by
  unfold Machine.execDiodeSample
  dsimp only
  split
  · exact .next h.takeSample.shutDown
  · split
    · exact .next h.takeSample.shutDown
    · exact .next h.takeSample

theorem OutWf.execHoldLimit {s : State} (h : TablesWf s) : OutWf (execHoldLimit s) := by
  unfold Machine.execHoldLimit
  dsimp only
  split
  · refine .next ?_
    split
    · exact h.shutDown
    · exact h.frame
  · exact .next h

theorem OutWf.execPairFault {g : Nat} {s : State} (h : TablesWf s) : OutWf (execPairFault g s) := by
  unfold Machine.execPairFault
  split
  · split
    · exact .next h.faultPair
    · exact .next h
  · exact .next h

theorem TablesWf.settleGates {s : State} (h : TablesWf s) : TablesWf (settleGates s) := by
  unfold Machine.settleGates
  refine .mapRegions h rfl fun c r hr => ?_
  split
  · exact { hr with }
  · exact hr

theorem TablesWf.clearPairOp {s : State} {g v : Nat} (h : TablesWf s) : TablesWf (clearPairOp s g v).1 := by
  unfold Machine.clearPairOp
  dsimp only
  split
  · exact h
  · split
    · split
      · exact h.setPreg.odPending.settleGates.odBump
      · exact h
    · exact h

theorem OutWf.execClearPairFault {w : Writer} {g value : Nat} {s : State} (h : TablesWf s) : OutWf (execClearPairFault w g value s) := by
  unfold Machine.execClearPairFault
  split
  · exact .applied h h.clearPairOp
  · exact .next h

theorem OutWf.execThermalCapUpdate {s : State} (h : TablesWf s) : OutWf (execThermalCapUpdate s) := by
  unfold Machine.execThermalCapUpdate
  extract_lets +onlyGivenNames sum n g t tmax fresh num den law cap q off since s1 s2
  have h1 : TablesWf s1 := h.frame
  have h2 : TablesWf s2 := by
    unfold s2
    split
    · exact h1.setFlag
    · exact h1
  clear_value since
  split
  · split
    · exact .next h2.setFlag
    · exact .next h2
  · exact .next h2

theorem OutWf.execGateUpdate {s : State} (h : TablesWf s) : OutWf (execGateUpdate s) :=
  .next (TablesWf.mapRegions (s := s) h rfl fun _ _ hr => { hr with })

theorem OutWf.execGateWindow {s : State} (h : TablesWf s) : OutWf (execGateWindow s) :=
  .next (.mapRegions h rfl (fun _ _ hr => { hr with }))

theorem OutWf.execHardwareTrip {g : Nat} {s : State} (h : TablesWf s) : OutWf (execHardwareTrip g s) := by
  unfold Machine.execHardwareTrip
  dsimp only
  split
  · exact .next h
  · split
    · exact .next h.allDark.dropEnables.frame
    · exact .next h.allDark.dropEnables.shutDown

theorem TablesWf.coldStartOp {s : State} {v : Nat} (h : TablesWf s) : TablesWf (coldStartOp s v).1 := by
  unfold Machine.coldStartOp
  dsimp only
  split
  · exact h
  · split
    · exact h
    · exact h.odBump.orderedStart

theorem OutWf.execColdStartRequest {w : Writer} {value : Nat} {s : State} (h : TablesWf s) : OutWf (execColdStartRequest w value s) :=
  .applied h h.coldStartOp

end Sys2Proof.Proofs
end

section
/-!
SUPPORT. What the tables keep under admission, region commits, the host links, interface packets and wear.
-/
namespace Sys2Proof.Proofs
open Sys2Proof.Machine Sys2Proof.Safety

/-! ## Admission -/

theorem TablesWf.matchBlock {s : State} {n c : Nat} {e : PfxEnt} (h : TablesWf s) : TablesWf (matchBlock s n c e) :=
  .updCtx (.updRegion { h with } fun _ hr => hr.setBlk)

theorem TablesWf.lookupGo {n c adapter session : Nat} {l : List Bytes} {s : State} (h : TablesWf s)
    : TablesWf (lookupGo n c adapter session l s) := by
  induction l generalizing n c adapter session s with
  | nil => exact h
  | cons x l ih =>
    rw [Machine.lookupGo]
    dsimp only
    split
    · exact ih h.matchBlock
    · exact { h with }

theorem TablesWf.lookupPrefix {s : State} {c version : Nat} (h : TablesWf s) : TablesWf (lookupPrefix s c version) := by
  unfold Machine.lookupPrefix
  split
  · exact h
  · split
    · exact h
    · exact h.lookupGo

theorem TablesWf.admitTail {s : State} {c : Nat} (h : TablesWf s) : TablesWf (admitTail s c) := by
  unfold Machine.admitTail
  split
  · exact h
  · split
    · exact h
    · split
      · exact h.endReq
      · extract_lets +onlyGivenNames _ _ _
        split
        · exact h.endReq
        · split
          · exact h.endReq
          · split
            · exact h.endReq
            · split
              · exact h.endReq
              · extract_lets +onlyGivenNames _
                split
                · split
                  · exact h.setCtx.lookupPrefix.endReq
                  · exact h.setCtx.lookupPrefix
                · exact h.setCtx.lookupPrefix

theorem TablesWf.admitWaiting {s : State} {n : Nat} (h : TablesWf s) : TablesWf (admitWaiting s n) := by
  unfold Machine.admitWaiting
  dsimp only
  split
  · exact h
  · exact h.foldl fun s _ hs => hs.admitTail

/-! ## Region commits -/

theorem RegionWf.candRegion {s : State} {w : Writer} {n : Nat} (h : TablesWf s) : RegionWf (candRegion s w n) := ⟨(h.region _).windows⟩
theorem TablesWf.wakeFor {s : State} {r : Region} (h : TablesWf s) : TablesWf (wakeFor s r) := h.foldl fun _ _ hs => hs.wakeRegion

theorem TablesWf.setResult {s : State} {n code : Nat} (h : TablesWf s) : TablesWf (setResult s n code) :=
  .odBump (h.updRegion fun _ hr => { hr with })

theorem TablesWf.regionCommitOp {s : State} {w : Writer} {n : Nat} (h : TablesWf s) : TablesWf (regionCommitOp s w n).1 := by
  unfold Machine.regionCommitOp
  split
  · exact h
  · extract_lets r s1
    have hr : RegionWf r := .candRegion h
    have h1 : TablesWf s1 := h.wakeFor
    split
    · exact h1
    · split
      · exact h1.setResult
      · exact .dropShadow (.odBump (.keepRegion (.setResult (h1.setRegion { hr with }))))

theorem TablesWf.holdCommit {s : State} {w : Writer} {n : Nat} {via : CommitVia} (h : TablesWf s) : TablesWf (holdCommit s w n via) := by
  unfold Machine.holdCommit
  exact { h with }

theorem OutWf.execRegionCommit {w : Writer} {region : Nat} {s : State} (h : TablesWf s) : OutWf (execRegionCommit w region s) := by
  unfold Machine.execRegionCommit
  split
  · exact .next h
  · refine .next ?_
    split
    · exact h.regionCommitOp.commitCounted.holdCommit
    · exact h.regionCommitOp.commitCounted

theorem TablesWf.regionReleaseOp {s : State} {n : Nat} (h : TablesWf s) : TablesWf (regionReleaseOp s n).1 := by
  unfold Machine.regionReleaseOp
  dsimp only
  split
  · exact h.setResult
  · exact .odBump (.keepRegion (.setResult (.units (h.disarmVigil.updRegion fun r hr => ⟨Tbl.wf_nil⟩) rfl)))

theorem OutWf.execRegionRelease {w : Writer} {region : Nat} {s : State} (h : TablesWf s) : OutWf (execRegionRelease w region s) := by
  unfold Machine.execRegionRelease
  split
  · exact .applied h h.regionReleaseOp.commitCounted
  · exact .next h

/-! ## The host links -/

theorem TablesWf.hostRead {s : State} {i addr len : Nat} {use : ReadUse} (h : TablesWf s) : TablesWf (s.hostRead i addr len use) :=
  .hostSend { h with reads := Tbl.wf_set h.reads _ _ }

theorem TablesWf.dropRead {s : State} {tag : Nat} (h : TablesWf s) : TablesWf (s.dropRead tag) := by
  unfold State.dropRead
  exact { h with reads := Tbl.wf_del h.reads _ }

theorem TablesWf.readCommands {s : State} (h : TablesWf s) : TablesWf (readCommands s) := by
  unfold Machine.readCommands
  dsimp only
  split
  · exact h
  · split
    · exact h
    · exact .hostRead (.units h.setSq rfl)

theorem TablesWf.custodyCheck {s : State} {op : Nat} {cmd : Bytes} (h : TablesWf s) : TablesWf (custodyCheck s op cmd).2 := by
  unfold Machine.custodyCheck
  dsimp only
  split
  · exact h
  · split
    · exact h
    · split
      · exact h
      · split
        · exact { h with }
        · split
          · exact h
          · exact { h with sessions := Tbl.wf_set h.sessions _ _ }

theorem TablesWf.acceptCmd {s : State} {q idx : Nat} {cmd : Bytes} (h : TablesWf s) : TablesWf (acceptCmd s q idx cmd) := by
  unfold Machine.acceptCmd
  split
  · exact h
  · extract_lets +onlyGivenNames _ _ _ _
    split
    · exact h.putRecords
    · split
      next e2 =>
        split
        · exact (h.custodyCheck.ofSnd e2).putRecords
        · extract_lets +onlyGivenNames _
          split
          · exact (h.custodyCheck.ofSnd e2).putRecords
          · extract_lets +onlyGivenNames _ _ _ _ s3 _
            have h3 : TablesWf s3 := .units ((h.custodyCheck.ofSnd e2).setHdl) rfl
            split
            · exact h3.putRecords.setRing
            · exact h3.putRecords

theorem TablesWf.acceptGo {i : Nat} {s : State} {i1 : Nat} {l : Bytes} (h : TablesWf s) : TablesWf (acceptGo i s i1 l) := by
  induction i generalizing s i1 l with
  | zero => exact h
  | succ n ih =>
    rw [Machine.acceptGo]
    dsimp only
    split
    · exact h
    · split
      · exact h
      · exact ih h.setSq.acceptCmd

theorem TablesWf.failQueue {s : State} {q tail : Nat} (h : TablesWf s) : TablesWf (failQueue s q tail) := by
  unfold Machine.failQueue
  split
  · exact h.setSq.postEvent
  · exact h

theorem TablesWf.ifaceIn {s : State} {c q pos cls status : Nat} {data : List Bytes} (h : TablesWf s)
    : TablesWf (ifaceIn s c q pos cls status data) :=
  h.placeAt

theorem TablesWf.class1Fail {s : State} {c q req status : Nat} (h : TablesWf s) : TablesWf (class1Fail s c q req status) :=
  .ifaceIn { h with reads := by dsimp only; exact Tbl.wf_map h.reads _ }

theorem TablesWf.deliverPage {s : State} {c q req : Nat} {b : Bytes} (h : TablesWf s) : TablesWf (deliverPage s c q req b) :=
  h.foldl fun _ _ hs => hs.ifaceIn

theorem TablesWf.deliverGo {i : Nat} {s : State} {i1 i2 i3 : Nat} (h : TablesWf s) : TablesWf (deliverGo i s i1 i2 i3) := by
  induction i generalizing s i1 i2 i3 with
  | zero => exact h
  | succ n ih =>
    rw [Machine.deliverGo]
    split
    · exact ih h.deliverPage.dropRead.tagEnded
    · exact h

theorem TablesWf.loseSite {s : State} {i : Nat} (h : TablesWf s) : TablesWf (loseSite s i) := by
  unfold Machine.loseSite
  extract_lets +onlyGivenNames t
  split
  · exact h
  · extract_lets +onlyGivenNames _ _ t s1 cmds _ s2 onSite cs s3 gone s4
    have h1 : TablesWf s1 := h.setSite
    have h2 : TablesWf s2 :=
      { h1 with sqs := by dsimp only [s2]; exact Tbl.wf_map h1.sqs _, reads := Tbl.wf_filter h1.reads _ }
    have h3 : TablesWf s3 := h2.endReqs
    have h4 : TablesWf s4 := by
      refine h3.foldl fun s e hs => .tagEnded (.dropRead ?_)
      split
      · exact hs.class1Fail
      · exact hs
    exact h4.postEvent

theorem TablesWf.modDown {s : State} {i m : Nat} (h : TablesWf s) : TablesWf (modDown s i m) := by
  unfold Machine.modDown
  dsimp only
  split
  · exact h.setSite.loseSite
  · split
    · exact h.setSite.drainMod
    · exact h.setSite

theorem TablesWf.protocolError {s : State} {i m : Nat} (h : TablesWf s) : TablesWf (protocolError s i m) := by
  unfold Machine.protocolError
  dsimp only
  split
  · exact h.setSite.drainMod
  · exact h.setSite

theorem TablesWf.replayMod {s : State} {i m : Nat} (h : TablesWf s) : TablesWf (replayMod s i m) := h.setSite.frame

theorem TablesWf.takeFlit {s : State} {i m : Nat} {x : FlitHdr} (h : TablesWf s) : TablesWf (takeFlit s i m x) := by
  unfold Machine.takeFlit
  dsimp only
  refine .drainMod ?_
  split
  · exact h.setMod.replayMod
  · exact h.setMod

theorem OutWf.execFlit {site module : Nat} {flit : Bytes} {s : State} (h : TablesWf s) : OutWf (execFlit site module flit s) := by
  unfold Machine.execFlit
  dsimp only
  split
  · exact .next h
  · split
    · exact .next h.takeFlit
    · split
      · exact .next h.setMod.takeFlit.sendIdle
      · exact .next h.setSite.sendIdle

theorem TablesWf.modUp {s : State} {i m rate width posted read : Nat} (h : TablesWf s) : TablesWf (modUp s i m rate width posted read) :=
  h.setSite.emit.drainMod.readCommands

theorem OutWf.execLinkTrained {site module rate width posted read : Nat} {s : State} (h : TablesWf s)
    : OutWf (execLinkTrained site module rate width posted read s) := by
  unfold Machine.execLinkTrained
  dsimp only
  split
  · exact .next h
  · exact .next h.modUp

theorem OutWf.execModuleDown {port : HostPort} {reported : Bool} {s : State} (h : TablesWf s) : OutWf (execModuleDown port reported s) := by
  unfold Machine.execModuleDown
  dsimp only
  split
  · exact .next h.modDown
  · exact .next h

theorem OutWf.execRetrainTimeout {site module : Nat} {s : State} (h : TablesWf s) : OutWf (execRetrainTimeout site module s) := by
  unfold Machine.execRetrainTimeout
  dsimp only
  split
  · refine .next ?_
    split
    · exact h.setMod.postEvent.loseSite
    · exact h.setMod.postEvent
  · exact .next h

theorem OutWf.execLinkL1Entry {site module : Nat} {s : State} (h : TablesWf s) : OutWf (execLinkL1Entry site module s) := by
  unfold Machine.execLinkL1Entry
  dsimp only
  split
  · exact .next h.setMod
  · exact .next h

theorem TablesWf.pageCome {s : State} {tag : Nat} {r : RdOut} {b : Bytes} (h : TablesWf s) : TablesWf (s.pageCome tag r b) := by
  unfold State.pageCome
  exact { h with reads := Tbl.wf_set h.reads _ _ }

theorem OutWf.execMrdCpl {site module : Nat} {hdr : BitVec 128} {data : Bytes} {s : State} (h : TablesWf s)
    : OutWf (execMrdCpl site module hdr data s) := by
  unfold Machine.execMrdCpl
  dsimp only
  split
  · exact .next h
  · split
    · exact .next h.protocolError
    · split
      · exact .next h.protocolError
      · split
        · exact .next h.dropRead.tagEnded
        · split
          · refine .next (.readCommands ?_)
            split
            · exact h.dropRead.acceptGo
            · exact h.dropRead
          · exact .next h.dropRead.readCommands
        · exact .next h.pageCome.deliverGo

theorem OutWf.execMrdErr {site module : Nat} {head addr : W64} {s : State} (h : TablesWf s)
    : OutWf (execMrdErr site module head addr s) := by
  unfold Machine.execMrdErr
  dsimp only
  split
  · exact .next h
  · split
    · exact .next h.protocolError
    · split
      · exact .next h.protocolError
      · split
        · exact .next h.dropRead.tagEnded
        · exact .next h.dropRead.failQueue.readCommands
        · exact .next h.dropRead.class1Fail.tagEnded

theorem OutWf.execEwr {site module : Nat} {hdr : BitVec 128} {value : W64} {s : State} (h : TablesWf s)
    : OutWf (execEwr site module hdr value s) := by
  unfold Machine.execEwr
  dsimp only
  split
  · exact .next h
  · split
    · exact .next h.protocolError
    · split
      · exact .next h.hostTook.setSite
      · exact .next h.hostTook.setSite
      · exact .next h.hostTook.setSite
      · exact .next h.hostTook.setSite
      · exact .next h.hostTook

theorem OutWf.execErd {site module : Nat} {head addr : W64} {s : State} (h : TablesWf s) : OutWf (execErd site module head addr s) := by
  unfold Machine.execErd
  dsimp only
  split
  · exact .next h
  · split
    · exact .next h.protocolError
    · exact .next h.hostTook.setMod.drainMod

theorem OutWf.execSqDoorbell {port : HostPort} {queue : Nat} {value : W64} {s : State} (h : TablesWf s)
    : OutWf (execSqDoorbell port queue value s) := by
  unfold Machine.execSqDoorbell
  dsimp only
  split
  · exact .next h
  · split
    · exact .next h.hostTook
    · split
      · exact .next h.hostTook
      · split
        · exact .next h.hostTook.failQueue
        · exact .next h.hostTook.setSq.readCommands

theorem OutWf.execRingDoorbell {port : HostPort} {value : W64} {s : State} (h : TablesWf s) : OutWf (execRingDoorbell port value s) := by
  unfold Machine.execRingDoorbell
  dsimp only
  split
  · exact .next h
  · split
    · exact .next (.units h.hostTook rfl)
    · split
      · exact .next h.hostTook.postEvent
      · exact .next h.hostTook.setRing.creditsBack.readCommands

theorem OutWf.execAdminCommit {port : HostPort} {s : State} (h : TablesWf s) : OutWf (execAdminCommit port s) := by
  unfold Machine.execAdminCommit
  dsimp only
  split
  · exact .next h
  · split
    · exact .next h.hostTook.setSite
    · split
      · exact .next h.hostTook.setSite
      · exact .next h.hostTook.setSite.setRing.setSq

theorem OutWf.execAdminRelease {port : HostPort} {s : State} (h : TablesWf s) : OutWf (execAdminRelease port s) := by
  unfold Machine.execAdminRelease
  dsimp only
  split
  · exact .next h
  · split
    · exact .next h.hostTook.setSite
    · exact .next { h.hostTook.setSite with sqs := Tbl.wf_del h.hostTook.setSite.sqs _, rings := Tbl.wf_del h.hostTook.setSite.rings _ }

theorem TablesWf.restoreSiteOp {s : State} {i v : Nat} (h : TablesWf s) : TablesWf (restoreSiteOp s i v).1 := by
  unfold Machine.restoreSiteOp
  dsimp only
  split
  · exact h
  · refine .odBump ?_
    split
    · exact h.setSite
    · exact h

theorem OutWf.execRestore {w : Writer} {site value : Nat} {s : State} (h : TablesWf s) : OutWf (execRestore w site value s) := by
  unfold Machine.execRestore
  split
  · exact .applied h h.restoreSiteOp
  · exact .next h

theorem OutWf.execIrqIntervalExpiry {ring : Nat} {s : State} (h : TablesWf s) : OutWf (execIrqIntervalExpiry ring s) := by
  unfold Machine.execIrqIntervalExpiry
  split
  · split
    · split
      · exact .next h.hostSend.setRing
      · exact .next h
    · exact .next h
  · exact .next h

/-! ## Interface packets -/

theorem TablesWf.class1Written {s : State} {c q req lines status : Nat} (h : TablesWf s)
    : TablesWf (class1Written s c q req lines status) := by
  unfold Machine.class1Written
  dsimp only
  split
  · exact h
  · split
    · exact .ifaceIn (h.updCore fun k hk => hk.putAwait)
    · exact h.updCore fun k hk => hk.putAwait

theorem TablesWf.class1Part {s : State} {p : Packet} (h : TablesWf s) : TablesWf (class1Part s p) := by
  unfold Machine.class1Part
  extract_lets +onlyGivenNames _ _ _ _ _ _ _ _ _ _ s1 _
  have h1 : TablesWf s1 := by
    unfold s1
    split
    · split
      · exact h.winWrite
      · exact h
    · exact h
  split
  · exact h1.class1Written.hubDone
  · exact { h1.class1Written with writes := Tbl.wf_set h1.class1Written.writes _ _ }

theorem TablesWf.class1Out {s : State} {p : Packet} (h : TablesWf s) : TablesWf (class1Out s p) := by
  unfold Machine.class1Out
  dsimp only
  split
  · exact h.class1Part
  · split
    · exact h.class1Fail
    · split
      · exact h.class1Fail
      · refine h.foldl fun s _ hs => ?_
        split
        · exact hs.hostRead
        · exact hs

theorem TablesWf.class2Done {s : State} {c q req status : Nat} (h : TablesWf s) : TablesWf (class2Done s c q req status) := by
  unfold Machine.class2Done
  dsimp only
  split
  · exact h
  · split
    · exact .ifaceIn { h with }
    · exact { h with }

theorem TablesWf.class2Out {s : State} {p : Packet} (h : TablesWf s) : TablesWf (class2Out s p) := by
  unfold Machine.class2Out
  dsimp only
  split
  · refine .putFrame ?_
    split
    · exact h
    · exact { h with }
  · refine .class2Done ?_
    split
    · exact h
    · exact { h with }

theorem OutWf.execIfaceOut {flight : Nat} {s : State} (h : TablesWf s) : OutWf (execIfaceOut flight s) := by
  unfold Machine.execIfaceOut
  split
  · exact .next h
  · split
    · exact .next h
    · refine .next (h.arrive fun t _ _ ht => ?_)
      extract_lets +onlyGivenNames _ _
      split
      · exact ht.discardFault
      · split
        · exact ht.class2Out
        · exact ht.class1Out

theorem TablesWf.wackFor {s : State} {port peer version dstStage srcStage specific status lines : Nat} (h : TablesWf s)
    : TablesWf (wackFor s port peer version dstStage srcStage specific status lines) :=
  h.putFrame

theorem TablesWf.landData {s : State} {c : Nat} {p : Packet} (h : TablesWf s) : TablesWf (landData s c p) := by
  unfold Machine.landData
  dsimp only
  split
  · split
    · exact h
    · exact h.updCore fun k hk => hk.foldl fun k1 x1 hx => hx.writeLine
  · refine .wackFor ?_
    split
    · split
      · exact h
      · exact h.updCore fun k hk => hk.foldl fun k1 x1 hx => hx.writeLine
    · refine .applySignal ?_
      split
      · exact h
      · exact h.updCore fun k hk => hk.foldl fun k1 x1 hx => hx.writeLine

theorem OutWf.execIfaceIn {flight : Nat} {s : State} (h : TablesWf s) : OutWf (execIfaceIn flight s) := by
  unfold Machine.execIfaceIn
  split
  · exact .next h
  · split
    · exact .next h
    · refine .next (h.arrive fun t _ _ ht => ?_)
      split
      · exact ht.landData
      · split
        · exact ht
        · split
          · exact ht.complete.settle
          · exact ht.landLines.settle

/-! ## Wear -/

theorem TablesWf.stopImage {s : State} {n c a : Nat} (h : TablesWf s) : TablesWf (stopImage s n c a) :=
  .postEvent (.foldl (.endReqs (h.updRegion fun _ hr => { hr with })) fun _ _ hs => hs.endJob)

theorem TablesWf.retireArray {s : State} {c a cause : Nat} (h : TablesWf s) : TablesWf (retireArray s c a cause) := by
  unfold Machine.retireArray
  extract_lets +onlyGivenNames owner s1 _ s2
  have h1 : TablesWf s1 := h.updCore fun k hk => hk.setArr.setSet
  have h2 : TablesWf s2 := h1.frame
  clear_value owner s2
  split
  · exact h2
  · extract_lets +onlyGivenNames r
    split
    · exact h2
    · extract_lets +onlyGivenNames inSwap s3
      have h3 : TablesWf s3 := by
        unfold s3
        split
        · exact h2.updRegion fun r hr => { hr with }
        · exact h2
      split
      · exact h3
      · split
        · split
          · exact h3
          · exact h3.stopImage
        · exact h3.updRegion fun r hr => hr.queueReloc

theorem TablesWf.wornColumn {s : State} {c a j : Nat} {lv : Nat → List Nat} (h : TablesWf s) : TablesWf (wornColumn s c a j lv) := by
  unfold Machine.wornColumn
  dsimp only
  split
  · exact h
  · split
    · split
      · exact h.setCore ((h.core _).setArr.addTask)
      · exact h.setCore ((h.core _).setArr.addTask)
    · split
      · exact h.setCore ((h.core _).setArr)
      · exact h.retireArray

theorem TablesWf.readRecord {s : State} {c a base : Nat} (h : TablesWf s) : TablesWf (s.readRecord c a base).2 := by
  unfold State.readRecord
  dsimp only
  exact h.updCore fun k hk => hk.count

theorem CoreWf.makeRoom {k : Core} {a new : Nat} (h : CoreWf k) : CoreWf (k.makeRoom a new) := by
  unfold Core.makeRoom
  dsimp only
  split
  · exact h
  · exact .setSet (h.foldl fun k1 x hx => hx.setArr)

theorem TablesWf.programArray {s : State} {c a : Nat} {b : Bytes} {tile : Nat × Nat × Nat} {failed : List Nat} (h : TablesWf s)
    : TablesWf (programArray s c a b tile failed) :=
  .foldl (h.frame.updCore fun _ hk => hk.makeRoom.setArr.setSet) fun _ _ hs => hs.wornColumn

end Sys2Proof.Proofs
end

section
/-!
SUPPORT. What the tables keep under loads, swaps, relocations and rebindings.
-/
namespace Sys2Proof.Proofs
open Sys2Proof.Machine Sys2Proof.Safety

/-! ## Loads -/

theorem TablesWf.setOp {s : State} {n : Nat} {o : LoadOp} (h : TablesWf s) : TablesWf (setOp s n o) := h.updRegion fun _ hr => { hr with }

theorem TablesWf.opProgress {s : State} {n : Nat} (h : TablesWf s) : TablesWf (opProgress s n) := by
  unfold Machine.opProgress
  split
  · split
    · exact h.keep
    · exact h
  · exact h

theorem TablesWf.beginProgram {s : State} {n : Nat} {p : Nat × Nat} (h : TablesWf s) : TablesWf (beginProgram s n p) := by
  unfold Machine.beginProgram
  dsimp only
  split
  · exact h
  · split
    · exact h
    · exact (h.setCore ((h.core _).setArr.setSet)).setOp

theorem TablesWf.startPrograms {s : State} {n : Nat} (h : TablesWf s) : TablesWf (startPrograms s n) := by
  unfold Machine.startPrograms
  split
  · exact h
  · split
    · exact h
    · exact h.foldl fun s _ hs => hs.beginProgram

theorem TablesWf.stopBusy {s : State} {busy : List Nat} (h : TablesWf s) : TablesWf (stopBusy s busy) := by
  refine h.foldl fun s b hs => hs.updCore fun k hk => .setSet ?_
  split
  · exact hk.setArr
  · exact hk

theorem TablesWf.opControl {s : State} {n st kind status : Nat} (h : TablesWf s) : TablesWf (opControl s n st kind status) := by
  unfold Machine.opControl
  split
  · exact h.sendControl
  · exact h

theorem TablesWf.opControlAll {s : State} {n kind status : Nat} (h : TablesWf s) : TablesWf (opControlAll s n kind status) := by
  unfold Machine.opControlAll
  split
  · exact h.foldl fun s _ hs => hs.opControl
  · exact h

theorem TablesWf.finishOp {s : State} {x : Option Nat} {status detail r1 : Nat} (h : TablesWf s)
    : TablesWf (finishOp s x status detail r1) := by
  unfold Machine.finishOp
  split
  · exact h.finish
  · exact h

theorem TablesWf.tryActivate {s : State} {n : Nat} (h : TablesWf s) : TablesWf (tryActivate s n) := by
  unfold Machine.tryActivate
  dsimp only
  split
  · exact h
  · split
    · exact .sendAllStages (h.setRegion ⟨(h.region _).windows⟩)
    · exact h

theorem TablesWf.failLoad {s : State} {n : Nat} {o : LoadOp} {st det r1 : Nat} (h : TablesWf s) : TablesWf (failLoad s n o st det r1) := by
  unfold Machine.failLoad
  dsimp only
  refine .foldl ?_ fun s _ hs => hs.finish
  refine .finishOp (.updRegion ?_ fun r hr => { hr with })
  split
  · exact h.stopBusy.dropImage
  · exact h.stopBusy

theorem TablesWf.finishLoad {s : State} {n : Nat} {o : LoadOp} (h : TablesWf s) : TablesWf (finishLoad s n o) := by
  unfold Machine.finishLoad
  split
  · exact h
  · split
    · exact h.failLoad
    · extract_lets +onlyGivenNames b
      split
      · exact h.failLoad
      next s1 e =>
        extract_lets +onlyGivenNames s2 s3 s4 s5
        have h2 : TablesWf s2 := ((OptWf.bindImage h).get e).startCores
        have h3 : TablesWf s3 := h2.updRegion fun r hr => ⟨hr.takeKey.windows⟩
        have h4 : TablesWf s4 := h3.keepRecord.finishOp
        have h5 : TablesWf s5 := by
          unfold s5
          split
          · exact h4.sendControl
          · exact h4
        exact h5.tryActivate

theorem TablesWf.dropIndex {s : State} {n : Nat} (h : TablesWf s) : TablesWf (dropIndex s n) := by
  unfold Machine.dropIndex
  extract_lets _ s1
  have h1 : TablesWf s1 := { h with }
  exact h1.updRegion fun r hr => { hr with }

theorem TablesWf.restartCores {s : State} {b : BoundImage} (h : TablesWf s) : TablesWf (restartCores s b) := h.startImage

theorem TablesWf.endJobs {s : State} {n : Nat} {p : Tune → Bool} (h : TablesWf s) : TablesWf (endJobs s n p) :=
  h.foldl fun _ _ hs => hs.endJob

theorem TablesWf.endSwapJobs {s : State} {n : Nat} (h : TablesWf s) : TablesWf (endSwapJobs s n) := h.endJobs

theorem TablesWf.freeEnded {s : State} {n : Nat} (h : TablesWf s) : TablesWf (freeEnded s n) := by
  unfold Machine.freeEnded
  exact { h with ctxs := Tbl.wf_filter h.ctxs _ }

theorem TablesWf.repin {s : State} {c version : Nat} {again : Bool} (h : TablesWf s) : TablesWf (repin s c version again) := by
  unfold Machine.repin
  dsimp only
  split
  · exact h
  · split
    · exact h
    · split
      · exact h.setCtx.reprefill
      · exact h.setCtx

theorem TablesWf.stopIfGone {s : State} {n : Nat} (h : TablesWf s) : TablesWf (stopIfGone s n) := by
  unfold Machine.stopIfGone
  dsimp only
  split
  · split
    · split
      · exact h.stopImage
      · exact h
    · exact h
  · exact h

theorem TablesWf.finishSwap {s : State} {n : Nat} (h : TablesWf s) : TablesWf (finishSwap s n) := by
  unfold Machine.finishSwap
  extract_lets +onlyGivenNames r
  split
  · extract_lets +onlyGivenNames v b _ s1 s2 cs s3
    have h1 : TablesWf s1 := h.setRegion ⟨(h.region n).takeKey.windows⟩
    have h2 : TablesWf s2 := h1.dropIndex
    have h3 : TablesWf s3 := .admitWaiting (h2.foldl fun s _ hs => hs.repin)
    exact h3.keepRecord.finishOp.stopIfGone
  · exact h

theorem TablesWf.endSwapEarly {s : State} {n st det r1 : Nat} (h : TablesWf s) : TablesWf (endSwapEarly s n st det r1) := by
  unfold Machine.endSwapEarly
  split
  · exact .stopIfGone (.admitWaiting (.finishOp (h.updRegion fun r hr => { hr with })))
  · exact h

theorem TablesWf.endRollback {s : State} {n : Nat} (h : TablesWf s) : TablesWf (endRollback s n) := by
  unfold Machine.endRollback
  extract_lets +onlyGivenNames r
  split
  next o b _ _ =>
    split
    extract_lets +onlyGivenNames s1 s2 s3 s4
    have h1 : TablesWf s1 := .keepRecord (.stopBusy (.setRegion h { h.region n with }))
    have h2 : TablesWf s2 := by
      unfold s2
      split
      · exact ((OptWf.bindImage h1).getD h1).restartCores
      · exact h1
    clear_value s2
    have h3 : TablesWf s3 := by
      unfold s3
      split
      · split
        · exact .startFlush (h2.updRegion fun r hr => { hr with })
        · exact h2
      · exact h2
    have h4 : TablesWf s4 := h3.admitWaiting.stopIfGone
    split
    · exact h4.finish
    · split
      · exact h4
      · exact h4.postEvent
  · exact h

theorem TablesWf.toSplit {s : State} {n : Nat} (h : TablesWf s) : TablesWf (toSplit s n) :=
  .postEvent (.keepRecord (h.endReqs.updRegion fun _ hr => { hr with }))

theorem TablesWf.tellSplit {s : State} {n : Nat} (h : TablesWf s) : TablesWf (tellSplit s n) := by
  unfold Machine.tellSplit
  split
  · split
    · exact h
    · split
      · exact h.sendAllStages
      · exact h.sendControl
  · exact h

theorem TablesWf.splitSwap {s : State} {n : Nat} {tell : Bool} (h : TablesWf s) : TablesWf (splitSwap s n tell) := by
  unfold Machine.splitSwap
  dsimp only
  split
  · exact h
  · split
    · refine .finish (.toSplit (.stopBusy ?_))
      split
      · exact h.tellSplit
      · exact h
    · refine .postEvent (.toSplit (.stopBusy ?_))
      split
      · exact h.tellSplit
      · exact h

theorem TablesWf.beginRollback {s : State} {n : Nat} {tell : Bool} (h : TablesWf s) : TablesWf (beginRollback s n tell) := by
  unfold Machine.beginRollback
  dsimp only
  split
  · exact h
  · refine .keepRecord (.setOp (.stopBusy ?_))
    split
    · exact h
    · split
      · exact h.opControl
      · split
        · exact h.opControlAll
        · exact h

theorem TablesWf.beginDrain {s : State} {n : Nat} (h : TablesWf s) : TablesWf (beginDrain s n) := by
  unfold Machine.beginDrain
  dsimp only
  split
  · exact h
  · split
    · exact h.setOp.endSwapJobs
    · exact h.setOp

theorem TablesWf.verifyDone {s : State} {n : Nat} (h : TablesWf s) : TablesWf (verifyDone s n) := by
  unfold Machine.verifyDone
  split
  · exact h
  · split
    · exact h.setOp.opControl
    · split
      · exact h
      · exact h.beginDrain

theorem TablesWf.relocFail {s : State} {n : Nat} (h : TablesWf s) : TablesWf (relocFail s n) := by
  unfold Machine.relocFail
  dsimp only
  split
  next h1 _ _ _ _ =>
    split
    · exact .tryRelease (.finish (h.stopBusy.updRegion fun r hr => { hr with }))
    · split
      · split
        · exact .tryRelease (.faultRegion (h.stopBusy.updRegion fun r hr => { hr with }))
        · split
          · exact .stopImage (.updRegion (h.stopBusy.updRegion fun r hr => { hr with }) fun r hr => { hr with })
          · exact .tryRelease (.faultRegion (h.stopBusy.updRegion fun r hr => { hr with }))
      · split
        · exact .tryRelease (.faultRegion (h.stopBusy.updRegion fun r hr => { hr with }))
        · split
          · exact .stopImage (.updRegion (h.stopBusy.updRegion fun r hr => { hr with }) fun r hr => { hr with })
          · exact .tryRelease (.faultRegion (h.stopBusy.updRegion fun r hr => { hr with }))
  · exact h

theorem TablesWf.moveRows {s : State} {n : Nat} {m : Image} {v c0 c1 : Nat} (h : TablesWf s) : TablesWf (moveRows s n m v c0 c1) := by
  unfold Machine.moveRows
  dsimp only
  split
  · exact h
  · split
    · exact h.updCore fun k hk => { hk with }
    · split
      · exact h.loseBlocks
      · exact h

theorem CoreWf.vacate {k : Core} (h : CoreWf k) : CoreWf k.vacate := by
  unfold Core.vacate
  exact { h with }

theorem TablesWf.finishReloc {s : State} {n : Nat} {o : LoadOp} (h : TablesWf s) : TablesWf (finishReloc s n o) := by
  unfold Machine.finishReloc
  split
  · exact h
  · extract_lets +onlyGivenNames _ _ s1 s2 s3 _ _ _
    have h1 : TablesWf s1 := h.foldl fun s _ hs => hs.moveRows
    have h2 : TablesWf s2 := by
      unfold s2
      refine h1.foldl fun s _ hs => ?_
      split
      · exact hs.updCore fun k hk => hk.setArr
      · exact hs
    have h3 : TablesWf s3 := by
      unfold s3
      refine h2.foldl fun s _ hs => ?_
      split
      · exact hs.updCore fun k hk => { hk with }
      · split
        · exact hs
        · exact hs.haltCore fun a ha => ha.vacate
    split
    · exact h3.bindReds.relocFail
    next e1 =>
      extract_lets +onlyGivenNames _ s6 s7 _ _ _
      have h6 : TablesWf s6 := ((OptWf.bindCores h3.bindReds).get e1).foldl fun s _ hs => hs.startCore.updCore fun k hk => { hk with }
      have h7 : TablesWf s7 := h6.updRegion fun r hr => { hr with }
      exact h7.frame.odPending.keepRecord.finishOp.tryRelease

theorem TablesWf.refitLoad {s : State} {n : Nat} {o : LoadOp} {b : BoundImage} {vs : List Nat} (h : TablesWf s)
    : TablesWf (refitLoad s n o b vs) := by
  unfold Machine.refitLoad
  dsimp only
  split
  · exact h.failLoad
  · split
    · exact h.countSpread.failLoad
    · exact h.stopBusy.countSpread.updRegion fun r hr => { hr with }

theorem TablesWf.opFail {s : State} {n st det r1 : Nat} (h : TablesWf s) : TablesWf (opFail s n st det r1) := by
  unfold Machine.opFail
  split
  · exact h
  · split
    · exact h.failLoad
    · refine .endSwapEarly ?_
      split
      · exact h.opControl
      · split
        · exact h.opControlAll
        · exact h
    · refine .endSwapEarly ?_
      split
      · exact h.opControlAll
      · exact h
    · exact h.setOp.beginRollback
    · exact h.setOp.beginRollback
    · exact h.splitSwap
    · exact h.relocFail

theorem OptWf.failedSwap {s : State} {n : Nat} {o : LoadOp} (h : TablesWf s) : OptWf (failedSwap s n o) := by
  unfold Machine.failedSwap
  split
  · split
    · exact .ofNone
    · exact .ofSome h.opFail
  · exact .ofNone

theorem TablesWf.advanceOne {s : State} {n : Nat} (h : TablesWf s) : TablesWf (advanceOne s n) := by
  unfold Machine.advanceOne
  extract_lets r
  split
  next o b _ _ =>
    split
    · extract_lets vs
      split
      · exact h.refitLoad
      · split
        · exact h.finishLoad
        · exact h.startPrograms
    · refine (OptWf.failedSwap h).getD ?_
      split
      · exact h.verifyDone
      · exact h
    · exact (OptWf.failedSwap h).getD h
    · split
      · exact h.beginRollback
      · exact h.startPrograms
    · split
      · split
        · split
          · exact h
          · exact h.beginRollback
        · split
          · exact h.setOp.opControl
          · exact h
      · exact h
    · split
      · exact h.endRollback
      · exact h.startPrograms
    · split
      · exact h.stopBusy.updRegion fun r hr => { hr with }
      · split
        · exact h.finishReloc
        · exact h.startPrograms
  · exact h

theorem TablesWf.advance {s : State} {n : Nat} (h : TablesWf s) : TablesWf (advance s n) := h.advanceOne.advanceOne.advanceOne

theorem TablesWf.takeShard {s : State} {n : Nat} {o : LoadOp} {x : ShardEnt} {p : Bytes} (h : TablesWf s)
    : TablesWf (takeShard s n o x p) :=
  h.setOp

theorem TablesWf.shardRead {s : State} {n : Nat} {o : LoadOp} {x : ShardEnt} {data : Option Bytes} (h : TablesWf s)
    : TablesWf (shardRead s n o x data) := by
  unfold Machine.shardRead
  dsimp only
  split
  · exact h.winAsk.failLoad
  · split
    · split
      · exact h.winAsk.opFail
      · split
        · exact h.winAsk.opFail.advance
        · exact h.winAsk.takeShard.opProgress.advance
    · split
      · exact h.winAsk.opFail
      · exact h.winAsk.setOp

theorem TablesWf.repairRead {s : State} {n shard : Nat} {data : Option Bytes} (h : TablesWf s) : TablesWf (repairRead s n shard data) := by
  unfold Machine.repairRead
  split
  · extract_lets +onlyGivenNames s1 _ _ _
    have h1 : TablesWf s1 := by
      unfold s1
      split
      · exact h.winAsk
      · exact h
    split
    · exact h1.updCore fun k hk => hk.setArr.addTask
    · split
      · exact h1.stopImage
      · exact h1.updCore fun k hk => hk.setArr
  · exact h

theorem OutWf.execShardArrival {region shard : Nat} {data : Option Bytes} {s : State} (h : TablesWf s)
    : OutWf (execShardArrival region shard data s) := by
  unfold Machine.execShardArrival
  extract_lets +onlyGivenNames _
  split
  · exact .next h.repairRead
  · split
    · extract_lets +onlyGivenNames _
      split
      · split
        · exact .next h.shardRead
        · exact .next h
      · exact .next h.repairRead

theorem OutWf.execArrayProgrammed {core array : Nat} {failed : List Nat} {s : State} (h : TablesWf s)
    : OutWf (execArrayProgrammed core array failed s) := by
  unfold Machine.execArrayProgrammed
  dsimp only
  split
  · exact .next h
  · split
    · exact .next h
    · split
      · exact .next h
      · split
        · exact .next h.setOp.advance
        · split
          · exact .next h
          · exact .next h.setOp.opProgress.programArray.advance

theorem OutWf.execShardReadback {region shard : Nat} {s : State} (h : TablesWf s) : OutWf (execShardReadback region shard s) := by
  unfold Machine.execShardReadback
  extract_lets +onlyGivenNames r
  split
  · exact .next h
  next o _ =>
    split
    extract_lets +onlyGivenNames st ts
    split
    · exact .next h
    · split
      next base s1 e =>
        extract_lets +onlyGivenNames size
        split
        next whole recs _ =>
          extract_lets +onlyGivenNames s2 good clear
          have h2 : TablesWf s2 := by
            refine TablesWf.foldl (h.draw.ofSnd e) fun s x hs => ?_
            split
            · exact hs
            · exact hs.readRecord
          have hclear (s : State) (hs : TablesWf s) : TablesWf (clear s) := hs.foldl fun s x hs => hs.updCore fun k hk => hk.setArr
          clear_value s2
          split
          · extract_lets +onlyGivenNames s3
            have h3 : TablesWf s3 := by
              refine h2.foldl fun s x hs => ?_
              split
              · exact hs
              · exact hs.updCore fun k hk => hk.setArr
            clear_value s3
            exact .next h3.setOp.opProgress.keepRecord.advance
          · split
            · exact .next (hclear _ h2).opFail
            · exact .next (hclear _ h2).setOp

/-! ## Swaps and relocations -/

theorem OutWf.execSwapBarrierClosed {region : Nat} {s : State} (h : TablesWf s) : OutWf (execSwapBarrierClosed region s) := by
  unfold Machine.execSwapBarrierClosed
  dsimp only
  split
  · split
    · exact .next h
    · split
      · exact .next h.advance
      · split
        · exact .next h.setOp.endSwapJobs
        · refine .next (.advance ?_)
          split
          · exact h.setOp.endSwapJobs.setOp.keepRecord.opControlAll
          · exact h.setOp.endSwapJobs.setOp.keepRecord
  · exact .next h

theorem OutWf.execDrainDeadline {region : Nat} {s : State} (h : TablesWf s) : OutWf (execDrainDeadline region s) := by
  unfold Machine.execDrainDeadline
  split
  · split
    · exact .next h.setOp.endSwapJobs
    · exact .next h
  · exact .next h

theorem TablesWf.orderSwitch {s : State} {n : Nat} (h : TablesWf s) : TablesWf (orderSwitch s n) := by
  unfold Machine.orderSwitch
  split
  · split
    · exact h.advance
    · split
      · exact h.keepRecord.opControlAll
      · exact h
  · exact h

theorem OutWf.execSwapActivate {region : Nat} {control : Option Bytes} {s : State} (h : TablesWf s) :
    OutWf (execSwapActivate region control s) := by
  unfold Machine.execSwapActivate
  extract_lets r
  split
  next o b _ _ =>
    split
    · extract_lets s1 new whole
      have h1 : TablesWf s1 := h.winAsk
      split
      · exact .next h1.opFail.advance
      next s2 e =>
        have h2 : TablesWf s2 := by
          split at e
          · exact (OptWf.bindImage h1).get e
          · cases e
        extract_lets s3 s4
        have h3 : TablesWf s3 := h2.restartCores
        split
        · exact .next h3.finishSwap
        · refine .next ?_
          split
          · exact h3.setOp.opControl
          · exact h3.setOp.orderSwitch
    · split
      · exact .next h.advance
      · exact .next h
  · exact .next h

theorem OutWf.execSwapGroupTimeout {region : Nat} {s : State} (h : TablesWf s) : OutWf (execSwapGroupTimeout region s) := by
  unfold Machine.execSwapGroupTimeout
  dsimp only
  split
  · split
    · refine .next (.endSwapEarly ?_)
      split
      · exact h.opControl
      · exact h.opControlAll
    · exact .next h
  · exact .next h

theorem OutWf.execRelocation {region : Nat} {control : Option Bytes} {tiles : List (Option Bytes)} {s : State} (h : TablesWf s) :
    OutWf (execRelocation region control tiles s) := by
  unfold Machine.execRelocation
  extract_lets +onlyGivenNames r
  split
  next vs olds i _ b _ _ =>
    extract_lets +onlyGivenNames drained vs'
    split
    · exact .next h
    · split
      · exact .next (.tryRelease (.finishOp (h.updRegion fun r hr => { hr with })))
      · split
        · exact .next h.countSpread.relocFail
        · extract_lets +onlyGivenNames moved s1 open_ ctlOk recs
          have h1 : TablesWf s1 := h.countSpread.winAsk.foldl fun s _ hs => hs.winAsk
          clear_value recs
          split
          · exact .next h1.recordErr.relocFail
          · exact .next h1.setOp.advance
  · exact .next h

theorem TablesWf.checkArrays {s : State} {b : BoundImage} (h : TablesWf s) : TablesWf (checkArrays s b) := by
  unfold Machine.checkArrays
  dsimp only
  refine h.foldl fun s _ hs => ?_
  split
  · exact hs
  · split
    · exact hs
    · split
      · exact hs
      · split
        · exact hs.frame.readRecord
        · exact hs.frame.readRecord.updCore fun k hk => hk.setArr

theorem TablesWf.reportBound {s : State} {n : Nat} (h : TablesWf s) : TablesWf (reportBound s n) := by
  unfold Machine.reportBound
  split
  · split
    · exact h
    · split
      · exact h.sendControl
      · exact h.tryActivate
  · exact h

theorem OutWf.execRebind {region : Nat} {control : Option Bytes} {s : State} (h : TablesWf s) : OutWf (execRebind region control s) := by
  unfold Machine.execRebind
  extract_lets +onlyGivenNames r
  split
  · extract_lets +onlyGivenNames open_
    split
    · exact .next h
    · split
      · exact .next h
      next s1 e =>
        extract_lets +onlyGivenNames s2 b' s3 s4 dead
        have h2 : TablesWf s2 := ((OptWf.bindImage h.winAsk).get e).startCores
        have h3 : TablesWf s3 := h2.updRegion fun r hr => { hr with }
        have h4 : TablesWf s4 := by
          unfold s4
          split
          · exact h3.checkArrays
          · exact h3
        clear_value dead
        split
        · exact .next h4.reportBound
        · split
          · exact .next h4.faultRegion
          · exact .next (.reportBound (h4.updRegion fun r hr => { hr with }))
  · exact .next h

theorem TablesWf.askImage {s : State} {o : HOut} {stages control manifest : Option Bytes} (h : TablesWf s)
    : TablesWf (askImage s o stages control manifest).1 :=
  h.operand.winAsk.winAsk

theorem OutWf.execLoad {i : Nat} {stages control manifest : Option Bytes} {s : State} (h : TablesWf s)
    : OutWf (execLoad i stages control manifest s) := by
  unfold Machine.execLoad
  dsimp only
  refine .next (h.onCmd fun _ => ?_)
  split
  · exact h.askImage.finish
  · split
    · exact h.askImage.finish
    · split
      · exact h.askImage.finish
      · split
        · exact h.askImage.finish
        · split
          · exact h.askImage.countSpread.finish
          · exact .advance (.keep (h.askImage.bindSyncs.countSpread.updRegion fun r hr => { hr with }))

theorem OutWf.execSwap {i : Nat} {stages control manifest : Option Bytes} {s : State} (h : TablesWf s)
    : OutWf (execSwap i stages control manifest s) := by
  unfold Machine.execSwap
  dsimp only
  refine .next (h.onCmd fun _ => ?_)
  split
  · exact h.askImage.finish
  · split
    · exact h.askImage.finish
    · split
      · exact h.askImage.finish
      · split
        · exact h.askImage.finish
        · split
          · exact h.askImage.finish
          · split
            · exact h.askImage.finish
            · exact h.askImage.setOp.keep.advance

theorem TablesWf.disarmRegion {s : State} {n : Nat} (h : TablesWf s) : TablesWf (disarmRegion s n) := by
  unfold Machine.disarmRegion
  exact { h with }

theorem OutWf.execUnload {i : Nat} {s : State} (h : TablesWf s) : OutWf (execUnload i s) := by
  unfold Machine.execUnload
  refine .next (h.onCmd fun _ => ?_)
  extract_lets +onlyGivenNames _ _
  split
  · exact h.finish
  · extract_lets +onlyGivenNames s1 s2 s3 _ s5 s6 s7
    have h1 : TablesWf s1 := by
      unfold s1
      split
      · exact h.sendControl
      · exact h
    have h2 : TablesWf s2 := by
      unfold s2
      split
      · exact h1.stopBusy.finishOp
      · exact h1
    have h3 : TablesWf s3 := h2.foldl fun s _ hs => hs.finish
    have h5 : TablesWf s5 := h3.endReqs.endJobs.freeEnded.dropImage.dropIndex.disarmRegion.disarmVigil
    have h6 : TablesWf s6 := h5.updRegion fun r1 hr => { hr with }
    have h7 : TablesWf s7 := by
      unfold s7
      split
      · exact h6.updRegion fun r1 hr => { hr with }
      · exact h6
    exact h7.keepRecord.finish

theorem OutWf.execRelocate {i : Nat} {list : Option Bytes} {s : State} (h : TablesWf s) : OutWf (execRelocate i list s) := by
  unfold Machine.execRelocate
  dsimp only
  refine .next (h.onCmd fun _ => ?_)
  split
  · exact h.finish
  · split
    · exact h.finish
    · split
      · exact h.operand.finish
      · split
        · exact h.operand.finish
        next region _ =>
          split
          · exact h.operand.finish
          · split
            · exact h.operand.finish
            · split
              · exact h.operand.finish
              · exact (h.operand.setRegion ((h.region _).queueReloc)).keep

theorem OutWf.execWindow {i : Nat} {s : State} (h : TablesWf s) : OutWf (execWindow i s) := by
  refine .next (h.onCmd fun o => ?_)
  extract_lets n slot access sites base size named fits w tags s1
  have h1 : TablesWf s1 := h.updRegion fun r hr => ⟨Tbl.wf_ite (Tbl.wf_del hr.windows _) (Tbl.wf_set hr.windows _ _)⟩
  split
  · exact h.finish
  · split
    · exact h1.finish
    · exact h1.keep

end Sys2Proof.Proofs
end

section
/-!
SUPPORT. What the tables keep under the Waloskuno link and the engine-wide rails.
-/
namespace Sys2Proof.Proofs
open Sys2Proof.Machine Sys2Proof.Safety

/-! ## The Waloskuno rows -/

theorem TablesWf.setAlmanac {s : State} {st root hops : Nat} (h : TablesWf s) : TablesWf (setAlmanac s st root hops) := by
  unfold Machine.setAlmanac
  dsimp only
  split
  · exact { h with }
  · exact .postEvent { h with }

theorem TablesWf.chooseRoot {s : State} (h : TablesWf s) : TablesWf (chooseRoot s) := by
  unfold Machine.chooseRoot
  dsimp only
  split
  · split
    · exact h.setAlmanac
    · split
      · exact h.setAlmanac
      · exact .setAlmanac { h with }
  · split
    · exact h.setAlmanac
    · exact h.setAlmanac

theorem TablesWf.sendHello {s : State} {p : Nat} {grant : Bytes} (h : TablesWf s) : TablesWf (sendHello s p grant) := by
  unfold Machine.sendHello
  dsimp only
  split
  · exact h.putFrame
  · exact h.sendFrame

theorem TablesWf.namePeer {s : State} {p peer : Nat} (h : TablesWf s) : TablesWf (namePeer s p peer) := by
  unfold Machine.namePeer
  dsimp only
  split
  · split
    · exact h.setPort ⟨Tbl.wf_set (Tbl.wf_del (h.port _).chans _) _ _⟩
    · exact h
  · exact h

theorem TablesWf.heardAgain {s : State} {peer : Nat} (h : TablesWf s) : TablesWf (heardAgain s peer) := by
  unfold Machine.heardAgain
  dsimp only
  split
  · exact h
  · refine .foldl { h with } fun s _ hs => ?_
    split
    · split
      · exact hs.reportBound
      · exact hs
    · exact hs

theorem TablesWf.takeHello {s : State} {p : Nat} {f : FFrame} (h : TablesWf s) : TablesWf (takeHello s p f) := by
  unfold Machine.takeHello
  dsimp only
  split
  · split
    · exact .postEvent (h.setPort ⟨(h.port _).chans⟩)
    · exact h.setPort ⟨(h.port _).chans⟩
  · refine .chooseRoot (.heardAgain (.drainChan ?_))
    split
    · exact .sendFrame (h.setPort ⟨(h.port _).setChan.chans⟩)
    · exact h.setPort ⟨(h.port _).setChan.chans⟩

theorem OutWf.execHello {port : Nat} {f : FFrame} {s : State} (h : TablesWf s) : OutWf (execHello port f s) := by
  unfold Machine.execHello
  split
  · exact .next h
  · split
    · split
      next s1 ok e =>
        have h1 : TablesWf s1 := h.namePeer.takeFrame.ofFst e
        refine .next ?_
        split
        · exact h1.takeHello
        · exact h1
    · split
      · exact .next h
      · split
        · exact .next h.dropFrame
        · exact .next h.takeHello

theorem OutWf.execHelloPeriod {s : State} (h : TablesWf s) : OutWf (execHelloPeriod s) :=
  .next (h.chooseRoot.foldl fun _ _ hs => hs.sendHello)

theorem OutWf.execAlmanacExchange {s : State} (h : TablesWf s) : OutWf (execAlmanacExchange s) := by
  unfold Machine.execAlmanacExchange
  dsimp only
  split
  · split
    · exact .next (.putFrame { h with })
    · exact .next h
  · exact .next h

theorem OutWf.execAlmanacRequest {port : Nat} {f : FFrame} {s : State} (h : TablesWf s) : OutWf (execAlmanacRequest port f s) := by
  unfold Machine.execAlmanacRequest
  dsimp only
  split
  · exact .next h
  · split
    · exact .next h.takeFrame.putFrame
    · exact .next h.takeFrame

theorem TablesWf.takeOffset {s : State} {d : Int} (h : TablesWf s) : TablesWf (takeOffset s d) := by
  unfold Machine.takeOffset
  extract_lets +onlyGivenNames _ s1 _ _ s2 _ _ _ s3
  have h1 : TablesWf s1 := { h with }
  have h2 : TablesWf s2 := by
    unfold s2
    split
    · split
      · exact { h1 with }
      · exact h1
    · exact { h1 with }
  have h3 : TablesWf s3 := { h2 with }
  split
  · exact .setAlmanac { h3 with }
  · split
    · exact .setAlmanac { h3 with }
    · exact h3

theorem OutWf.execAlmanacReply {port : Nat} {f : FFrame} {t4 : Nat} {s : State} (h : TablesWf s)
    : OutWf (execAlmanacReply port f t4 s) := by
  unfold Machine.execAlmanacReply
  dsimp only
  split
  · exact .next h
  · split
    · split
      · exact .next h.takeFrame
      · exact .next (.takeOffset (.units h.takeFrame rfl))
    · exact .next h.takeFrame

theorem OutWf.execAck {port : Nat} {f : FFrame} {s : State} (h : TablesWf s) : OutWf (execAck port f s) := by
  unfold Machine.execAck
  split
  · exact .next h.takeFrame
  · exact .next h

theorem OutWf.execAckDelay {port peer : Nat} {s : State} (h : TablesWf s) : OutWf (execAckDelay port peer s) := by
  unfold Machine.execAckDelay
  dsimp only
  split
  · exact .next h.sendAck
  · exact .next h

theorem OutWf.execReplayTimeout {port peer : Nat} {s : State} (h : TablesWf s) : OutWf (execReplayTimeout port peer s) := by
  unfold Machine.execReplayTimeout
  dsimp only
  split
  · exact .next h.replayChan
  · exact .next h

theorem TablesWf.dropData {s : State} {fs : List FFrame} (h : TablesWf s) : TablesWf (dropData s fs) :=
  h.foldl fun _ _ hs => .class2Done { hs with }

theorem TablesWf.dropSteps {s : State} {n code : Nat} (h : TablesWf s) : TablesWf (dropSteps s n code).1 :=
  .foldl (.updRegion (h.foldl fun _ _ hs => hs.endFaulted) fun _ hr => { hr with }) fun _ _ hs => hs.delCtx

theorem TablesWf.peerLost {s : State} {port peer : Nat} (h : TablesWf s) : TablesWf (peerLost s port peer) := by
  unfold Machine.peerLost
  dsimp only
  refine .foldl { h with } fun s _ hs => ?_
  split
  · exact hs
  · split
    · exact hs
    · split
      · split
        · exact hs.updRegion fun r hr => { hr with }
        · exact hs
      · split
        · exact hs
        · exact .postEvent (.recordErr (.dropSteps (hs.updRegion fun r hr => { hr with })))

theorem TablesWf.dropChan {s : State} {p peer : Nat} (h : TablesWf s) : TablesWf (dropChan s p peer) := by
  unfold Machine.dropChan
  extract_lets +onlyGivenNames _
  split
  · exact h
  · extract_lets +onlyGivenNames s1 _ _
    have h1 : TablesWf s1 := h.setPort ⟨Tbl.wf_del (h.port _).chans _⟩
    split
    · exact (h1.setPort ((h1.port _).setChan)).drainChan
    · split
      · exact h1
      · exact h1.dropData.peerLost

theorem TablesWf.portGoesDown {s : State} {p : Nat} (h : TablesWf s) : TablesWf (portGoesDown s p) :=
  .chooseRoot (.setPort (.foldl (h.setPort ⟨(h.port _).chans⟩) fun _ _ hs => hs.dropChan) ⟨Tbl.wf_nil⟩)

theorem TablesWf.portsDown {s : State} (h : TablesWf s) : TablesWf (portsDown s) := h.foldl fun _ _ hs => hs.portGoesDown

theorem OutWf.execPortDown {port reason : Nat} {s : State} (h : TablesWf s) : OutWf (execPortDown port reason s) := by
  unfold Machine.execPortDown
  extract_lets +onlyGivenNames _ _ _
  split
  · exact .next h.portGoesDown
  · exact .next h

theorem TablesWf.trainPort {s : State} {p : Nat} (h : TablesWf s) : TablesWf (trainPort s p) := .sendHello (h.setPort ⟨Tbl.wf_nil⟩)

theorem OutWf.execPortRetrain {port : Nat} {trained : Bool} {s : State} (h : TablesWf s) : OutWf (execPortRetrain port trained s) := by
  unfold Machine.execPortRetrain
  dsimp only
  split
  · exact .next h
  · split
    · exact .next h.trainPort
    · exact .next (h.setPort ⟨(h.port _).chans⟩)

theorem OutWf.execPeerUnreachable {peer : Nat} {s : State} (h : TablesWf s) : OutWf (execPeerUnreachable peer s) :=
  .next (h.foldl fun _ _ hs => hs.dropChan.chooseRoot)

theorem TablesWf.countRefusal {s : State} (h : TablesWf s) : TablesWf (countRefusal s) := by
  unfold Machine.countRefusal
  exact { h with }

theorem OutWf.execData {port : Nat} {f : FFrame} {s : State} (h : TablesWf s) : OutWf (execData port f s) := by
  unfold Machine.execData
  dsimp only
  split
  · exact .next h
  · split
    · exact .next h.takeFrame
    · split
      · refine .next (.wackFor ?_)
        split
        · exact h.takeFrame.countRefusal
        · exact h.takeFrame
      · exact .next h.takeFrame.placeAt

theorem OutWf.execWack {port : Nat} {f : FFrame} {s : State} (h : TablesWf s) : OutWf (execWack port f s) := by
  unfold Machine.execWack
  split
  · exact .next h
  · split
    next e1 =>
      extract_lets +onlyGivenNames _ _ _
      refine .next ?_
      split
      · exact (h.takeFrame.ofFst e1).class2Done
      · exact h.takeFrame.ofFst e1

theorem TablesWf.rejectControl {s : State} {port : Nat} {f : FFrame} {kind : Nat} (h : TablesWf s)
    : TablesWf (rejectControl s port f kind) :=
  h.putFrame

theorem OutWf.onControl {s : State} {port : Nat} {f : FFrame} {kind : Nat} {act : State → Nat → BoundImage → State} (h : TablesWf s)
    (hf : ∀ (x : State) (n : Nat) (b : BoundImage), TablesWf x → TablesWf (act x n b)) : OutWf (onControl s port f kind act) := by
  unfold Machine.onControl
  dsimp only
  split
  · exact .next h
  · split
    · exact .next h.takeFrame
    · split
      · exact .next (hf _ _ _ h.takeFrame)
      · split
        · exact .next h.takeFrame.rejectControl.opControlAll.endSwapEarly
        · exact .next h.takeFrame.rejectControl

theorem OutWf.execBound {port : Nat} {f : FFrame} {s : State} (h : TablesWf s) : OutWf (execBound port f s) := by
  unfold Machine.execBound
  dsimp only
  refine .onControl h fun t _ _ ht => ?_
  split
  · exact ht
  · split
    · exact ht.updRegion fun r hr => { hr with }
    · split
      · exact .sendControl (ht.updRegion fun r hr => { hr with })
      · exact .tryActivate (ht.updRegion fun r hr => { hr with })

theorem OutWf.execActivate {port : Nat} {f : FFrame} {s : State} (h : TablesWf s) : OutWf (execActivate port f s) := by
  unfold Machine.execActivate
  refine .onControl h fun t _ _ ht => ?_
  split
  · exact ht
  · exact ht.updRegion fun r hr => { hr with }

theorem TablesWf.onSwap {s : State} {n : Nat} {f : LoadOp → State} (h : TablesWf s) (hf : ∀ (a : LoadOp), TablesWf (f a))
    : TablesWf (onSwap s n f) := by
  unfold Machine.onSwap
  split
  · split
    · exact hf _
    · exact h
  · exact h

theorem OutWf.execSwapVerified {port : Nat} {f : FFrame} {s : State} (h : TablesWf s) : OutWf (execSwapVerified port f s) := by
  unfold Machine.execSwapVerified
  dsimp only
  refine .onControl h fun a a_1 a_2 h1 => (h1.onSwap fun a1 => ?_)
  split
  · exact h1
  · split
    · exact h1.opControlAll.endSwapEarly
    · exact h1.setOp.advance

theorem OutWf.execSwapRewrite {port : Nat} {f : FFrame} {s : State} (h : TablesWf s) : OutWf (execSwapRewrite port f s) := by
  unfold Machine.execSwapRewrite
  dsimp only
  refine .onControl h fun a a_1 a_2 h1 => (h1.onSwap fun a1 => ?_)
  split
  · exact h1
  · exact h1.setOp.keepRecord.endSwapJobs.advance

theorem TablesWf.splitLate {s : State} {n : Nat} {b : BoundImage} {f : FFrame} (h : TablesWf s) : TablesWf (splitLate s n b f) := by
  unfold Machine.splitLate
  split
  · exact h
  · refine .toSplit ?_
    split
    · exact h.tellSplit
    · exact h

theorem OutWf.execSwapRewritten {port : Nat} {f : FFrame} {s : State} (h : TablesWf s) : OutWf (execSwapRewritten port f s) := by
  unfold Machine.execSwapRewritten
  dsimp only
  refine .onControl h fun t _ _ ht => ?_
  split
  · exact ht.splitLate
  · refine ht.onSwap fun _ => ?_
    split
    · exact ht
    · split
      · exact ht.splitSwap
      · split
        · exact ht
        · split
          · exact ht.setOp.beginRollback.advance
          · exact ht.setOp.orderSwitch

theorem OutWf.execSwapSwitch {port : Nat} {f : FFrame} {s : State} (h : TablesWf s) : OutWf (execSwapSwitch port f s) := by
  unfold Machine.execSwapSwitch
  dsimp only
  refine .onControl h fun a a_1 a_2 h1 => (h1.onSwap fun a1 => ?_)
  split
  · exact h1
  · split
    · exact h1.finishSwap.sendControl
    · exact h1.finishSwap

theorem OutWf.execSwapSwitched {port : Nat} {f : FFrame} {s : State} (h : TablesWf s) : OutWf (execSwapSwitched port f s) := by
  unfold Machine.execSwapSwitched
  dsimp only
  refine .onControl h fun a a_1 a_2 h1 => (h1.onSwap fun a1 => ?_)
  split
  · exact h1
  · split
    · exact h1.setOp.finishSwap
    · exact h1.setOp

theorem OutWf.execSwapRollback {port : Nat} {f : FFrame} {s : State} (h : TablesWf s) : OutWf (execSwapRollback port f s) := by
  unfold Machine.execSwapRollback
  dsimp only
  refine .onControl h fun t _ _ ht => ?_
  split
  · split
    · exact ht
    · exact ht.splitLate
  · refine ht.onSwap fun _ => ?_
    split
    · exact ht
    · split
      · exact ht.endSwapEarly
      · exact ht.endSwapEarly
      · split
        · exact ht.splitSwap
        · exact ht.setOp.beginRollback.advance
      · split
        · exact ht.splitSwap
        · exact ht.setOp.beginRollback.advance
      · split
        · exact ht.splitSwap
        · exact ht
      · exact ht

theorem OutWf.execControlFault {port : Nat} {f : FFrame} {s : State} (h : TablesWf s) : OutWf (execControlFault port f s) := by
  refine .onControl h fun s n b hs => ?_
  split
  · exact hs
  · extract_lets rec_ code
    split
    next s1 _ e =>
      have h1 : TablesWf s1 := hs.endNamed.ofFst e
      split
      · split
        · extract_lets s2
          have h2 : TablesWf s2 := by
            unfold s2
            split
            · exact h1
            · exact h1.updRegion fun r hr => { hr with }
          split
          · exact h2
          · exact h2.beginRollback.advance
        · exact h1.startFlush
      · exact h1.startFlush

theorem OutWf.execFlushStop {port : Nat} {f : FFrame} {s : State} (h : TablesWf s) : OutWf (execFlushStop port f s) := by
  unfold Machine.execFlushStop
  dsimp only
  split
  · exact .next h
  · refine .onControl h fun t _ _ ht => ?_
    split
    · exact ht
    · exact ht.updRegion fun r hr => { hr with }

theorem OutWf.execFlushRestart {port : Nat} {f : FFrame} {s : State} (h : TablesWf s) : OutWf (execFlushRestart port f s) := by
  unfold Machine.execFlushRestart
  split
  · exact .next h
  · refine .onControl h fun t _ _ ht => ?_
    split
    · split
      · exact ht.orderRestart.tryRelease
      · exact ht
    · exact ht

theorem OutWf.execFlushed {port : Nat} {f : FFrame} {s : State} (h : TablesWf s) : OutWf (execFlushed port f s) := by
  unfold Machine.execFlushed
  refine .onControl h fun t _ _ ht => ?_
  split
  · extract_lets +onlyGivenNames _
    split
    · exact .tryRelease (ht.updRegion fun r hr => { hr with })
    · exact ht
  · exact ht

theorem OutWf.execRejected {port : Nat} {f : FFrame} {s : State} (h : TablesWf s) : OutWf (execRejected port f s) := by
  unfold Machine.execRejected
  split
  · exact .next h
  · split
    next s1 ok e =>
      have h1 : TablesWf s1 := h.takeFrame.ofFst e
      split
      · refine .next (h1.onSwap fun o => ?_)
        split
        · exact h1.endSwapEarly
        · exact h1
      · exact .next h1

/-! ## The rails -/

theorem OutWf.execArrayRailLost {s : State} (h : TablesWf s) : OutWf (execArrayRailLost s) := by
  unfold Machine.execArrayRailLost
  split
  · exact .next h
  · extract_lets s1 _ s2
    have h1 : TablesWf s1 := h.pmPage.endService
    clear_value s1
    have h2 : TablesWf s2 := .allDark { h1 with }
    clear_value s2
    exact .next (h2.mapRegions rfl fun n r hr => hr.unbind)

theorem OutWf.execAuxRailLost {s : State} (h : TablesWf s) : OutWf (execAuxRailLost s) := by
  unfold Machine.execAuxRailLost
  dsimp only
  split
  · exact .next h
  · exact .next h.pmPage.frame.portsDown

theorem TablesWf.failBusy {s : State} {n : Nat} (h : TablesWf s) : TablesWf (failBusy s n) := by
  unfold Machine.failBusy
  dsimp only
  split
  · exact h
  · split
    · exact h
    · split
      · exact h.stopBusy.opFail.advance
      · exact h.stopBusy.setOp

theorem OutWf.execAuxHoldLimit {s : State} (h : TablesWf s) : OutWf (execAuxHoldLimit s) := by
  unfold Machine.execAuxHoldLimit
  split
  · split
    · exact .next (h.foldl fun s _ hs => hs.failBusy)
    · exact .next h
  · exact .next h

theorem OutWf.execAuxRailReturn {s : State} (h : TablesWf s) : OutWf (execAuxRailReturn s) := by
  unfold Machine.execAuxRailReturn
  dsimp only
  split
  · exact .next (h.frame.foldl fun s _ hs => hs.advance)
  · exact .next h

theorem OutWf.execOptRailLost {s : State} (h : TablesWf s) : OutWf (execOptRailLost s) := by
  unfold Machine.execOptRailLost
  dsimp only
  split
  · exact .next h
  · exact .next h.pmPage.frame.portsDown

theorem OutWf.execOptRailReturn {s : State} (h : TablesWf s) : OutWf (execOptRailReturn s) := by
  unfold Machine.execOptRailReturn
  dsimp only
  split
  · exact .next h.frame
  · exact .next h

theorem OutWf.execAonRailLost {s : State} (h : TablesWf s) : OutWf (execAonRailLost s) := .next (.units h.dropOps.clearCold rfl)

end Sys2Proof.Proofs
end

section
/-!
SUPPORT. What the tables keep under requests, the pipeline slot, results of steps and key-value blocks.
-/
namespace Sys2Proof.Proofs
open Sys2Proof.Machine Sys2Proof.Safety

/-! ## Requests -/

theorem OutWf.execSubmit {i : Nat} {descriptor prompt : Option Bytes} {s : State} (h : TablesWf s)
    : OutWf (execSubmit i descriptor prompt s) := by
  unfold Machine.execSubmit
  refine .next (h.onCmd fun _ => ?_)
  split
  · split
    next e1 => exact (h.operand.ofFst e1).finish
    next e1 =>
      extract_lets +onlyGivenNames _
      split
      · exact (h.operand.ofFst e1).finish
      · split
        · exact (h.operand.ofFst e1).finish
        · extract_lets +onlyGivenNames _ _ _ _ _
          split
          next e3 =>
            extract_lets +onlyGivenNames _ s3 _ s4
            have h3 : TablesWf s3 := (((h.operand.ofFst e1).operand.ofFst e3).setCtx).finish
            have h4 : TablesWf s4 := { h3 with }
            split
            · exact h4
            · exact h4.admitTail

theorem OutWf.execCancel {i : Nat} {s : State} (h : TablesWf s) : OutWf (execCancel i s) := by
  unfold Machine.execCancel
  dsimp only
  refine .next (h.onCmd fun _ => ?_)
  split
  · split
    · exact h.endReq.finish
    · exact h.finish
  · exact h.finish

theorem OutWf.execDeadlinePassed {ctx : Nat} {s : State} (h : TablesWf s) : OutWf (execDeadlinePassed ctx s) := by
  unfold Machine.execDeadlinePassed
  split
  · exact .next h
  · split
    · exact .next h
    · split
      · exact .next h.setCtx
      · exact .next h.endReq

theorem OutWf.execPark {ctx : Nat} {s : State} (h : TablesWf s) : OutWf (execPark ctx s) := by
  unfold Machine.execPark
  split
  · exact .next h
  · split
    · exact .next h.setCtx
    · exact .next h

theorem TablesWf.startJobs {s : State} {n : Nat} (h : TablesWf s) : TablesWf (startJobs s n) := by
  unfold Machine.startJobs
  dsimp only
  refine h.foldl fun s _ hs => ?_
  split
  · split
    · exact hs
    · exact .units hs.setCtx rfl
  · exact hs

theorem OutWf.execTune {i : Nat} {params : Option Bytes} {s : State} (h : TablesWf s) : OutWf (execTune i params s) := by
  unfold Machine.execTune
  dsimp only
  refine .next (h.onCmd fun _ => ?_)
  split
  · exact h.operand.finish
  · split
    · exact h.operand.finish
    · exact .startJobs (.units h.operand.keep rfl)

/-! ## The pipeline slot -/

theorem TablesWf.svcWrite {s : State} {c row col : Nat} {ls : List Bytes} (h : TablesWf s) : TablesWf (svcWrite s c row col ls) :=
  h.injectServing

theorem TablesWf.svcGo {i : Nat} {s : State} {i1 i2 i3 : Nat} {l : List Bytes} (h : TablesWf s) : TablesWf (svcGo i s i1 i2 i3 l) := by
  induction i generalizing s i1 i2 i3 l with
  | zero => exact h
  | succ n ih =>
    rw [Machine.svcGo]
    dsimp only
    split
    · exact h
    · exact ih h.svcWrite

theorem TablesWf.svcBytes {s : State} {c row off : Nat} {b : Bytes} (h : TablesWf s) : TablesWf (svcBytes s c row off b) := h.svcGo

theorem TablesWf.writeTables {s : State} {n seq : Nat} {b : BoundImage} {segs : List Seg} {ps : List StepPos} (h : TablesWf s)
    : TablesWf (writeTables s n seq b segs ps) := by
  unfold Machine.writeTables
  dsimp only
  refine h.foldl fun s _ hs => (hs.foldl fun s _ hs => ?_)
  split
  · exact hs.svcBytes.svcBytes.svcBytes.svcBytes
  · exact hs

theorem TablesWf.deliver {s : State} {n kind : Nat} {segs : List Seg} (h : TablesWf s) : TablesWf (deliver s n kind segs) := by
  unfold Machine.deliver
  dsimp only
  split
  · exact h
  · split
    · refine .updRegion ?_ fun r hr => { hr with }
      refine .injectServing (.writeTables (.foldl ?_ ?_))
      · split
        · exact h.svcBytes.svcBytes.svcBytes
        · exact h.svcBytes.svcBytes
      · intro s1 x4 h1
        split
        · exact h1.svcWrite
        · exact h1
    · exact h

theorem OptWf.allocFor {s : State} {n c m : Nat} (h : TablesWf s) : OptWf (allocFor s n c m) := by
  unfold Machine.allocFor
  split
  · split
    · exact .ofSome h
    · exact .allocUpto h
  · exact .ofNone

theorem OptWf.tryGen {s : State} {n : Nat} (h : TablesWf s) : OptWf (tryGen s n) := by
  refine OptWf.findSome? fun c => ?_
  split
  · exact .ofNone
  · exact OptWf.mapState (OptWf.allocFor h) fun s hs => hs.deliver.updCtx

theorem TablesWf.promote {s : State} {n : Nat} (h : TablesWf s) : TablesWf (promote s n) := by
  unfold Machine.promote
  exact { h with ctxs := by dsimp only; exact Tbl.wf_map h.ctxs _ }

theorem TablesWf.relookup {s : State} {c : Nat} (h : TablesWf s) : TablesWf (relookup s c) := by
  unfold Machine.relookup
  split
  · split
    · split
      · exact h.lookupPrefix
      · exact h
    · exact h
  · exact h

theorem TablesWf.addSeg {n room : Nat} {acc : State × List Seg} {c : Nat} (h : TablesWf acc.1) : TablesWf (addSeg n room acc c).1 := by
  unfold Machine.addSeg
  dsimp only
  split
  · exact h.relookup
  · split
    · exact h.relookup
    · split
      · exact h.relookup.setCtx
      · split
        · exact h.relookup
        next e3 =>
          split
          · exact (OptWf.allocFor h.relookup).get e3
          · exact h.relookup

theorem TablesWf.tryChunk {s : State} {n : Nat} {order : List Nat} (h : TablesWf s) : TablesWf (tryChunk s n order).1 := by
  unfold Machine.tryChunk
  split
  next s1 segs e =>
    have h1 : TablesWf s1 := TablesWf.ofFst (TablesWf.foldlFst h fun a c ha => ha.addSeg) e
    split
    · exact h1
    · exact h1.deliver.foldl fun s g hs => hs.updCtx

theorem TablesWf.tryPrefill {s : State} {n : Nat} (h : TablesWf s) : TablesWf (tryPrefill s n).1 := by
  unfold Machine.tryPrefill
  extract_lets s1 cs from_ firsts try_ acc b0
  have htry (a : State × Bool) (l : List Nat) (ha : TablesWf a.1) : TablesWf (try_ a l).1 := by
    unfold try_
    split
    · exact ha
    · exact ha.tryChunk
  have hacc : TablesWf acc.1 := TablesWf.foldlFst h.promote htry
  split
  · exact hacc
  · refine TablesWf.foldlFst hacc fun a k ha => ?_
    split
    next t ok e =>
      have ht : TablesWf t := (htry _ _ ha).ofFst e
      split
      · dsimp only
        exact ht.updRegion fun r hr => { hr with }
      · exact ht

theorem OptWf.tryTune {s : State} {n : Nat} (h : TablesWf s) : OptWf (tryTune s n) := by
  refine OptWf.findSome? fun j => ?_
  split
  · exact .ofNone
  · split
    · exact .ofNone
    · extract_lets base k s1
      have h1 : TablesWf s1 := by
        unfold s1
        split
        · exact h.releaseBlocks.setCtx
        · exact h
      split
      · exact .ofNone
      · exact OptWf.mapState (OptWf.allocFor h1) fun s hs => hs.updCtx.deliver.updCtx

theorem TablesWf.countSlot {s : State} {n : Nat} {gen waits : Bool} (h : TablesWf s) : TablesWf (countSlot s n gen waits) :=
  h.updRegion fun _ hr => { hr with }

theorem TablesWf.deliverAgain {s : State} {n : Nat} {p : StepRec} {waits : Bool} (h : TablesWf s) : TablesWf (deliverAgain s n p waits) :=
  .countSlot (h.deliver.updRegion fun _ hr => { hr with })

theorem TablesWf.fillSlot {s : State} {n : Nat} (h : TablesWf s) : TablesWf (fillSlot s n) := by
  unfold Machine.fillSlot
  extract_lets waits k turn gen
  have hgen (s : State) (hs : TablesWf s) : OptWf (gen s) := OptWf.mapState (OptWf.tryGen hs) fun s hs => hs.countSlot
  have hfirst : OptWf (if turn then none else gen s) := by
    split
    · exact .ofNone
    · exact hgen s h
  split
  · exact h.deliverAgain
  · split
    next e => exact hfirst.get e
    · split
      next t ok e =>
        have ht : TablesWf t := h.tryPrefill.ofFst e
        have hlast : OptWf (if turn then gen t else none) := by
          split
          · exact hgen t ht
          · exact .ofNone
        split
        · exact ht.countSlot
        · split
          next e => exact hlast.get e
          · split
            · exact ht.deliverAgain
            · extract_lets t1
              split
              next e => exact ((OptWf.tryTune ht.startJobs).get e).countSlot
              · exact ht.startJobs

theorem OutWf.execPipelineSlot {region : Nat} {s : State} (h : TablesWf s) : OutWf (execPipelineSlot region s) := by
  unfold Machine.execPipelineSlot
  refine .next ?_
  split
  · exact h.fillSlot
  · exact h

/-! ## Results -/

theorem TablesWf.commitStep {s : State} {n c : Nat} {p : StepRec} {g : Seg} (h : TablesWf s) : TablesWf (commitStep s n c p g) := by
  unfold Machine.commitStep
  extract_lets +onlyGivenNames s1
  have h1 : TablesWf s1 := by
    unfold s1
    split
    · exact h.updCtx
    · exact h
  split
  · split
    · exact h1
    · split
      · exact h1.endReq
      · split
        · exact h1.commitVectors
        · exact h1.commitTokens
  · exact h1

theorem TablesWf.takeResult {s : State} {n c seq : Nat} {b : Bytes} (h : TablesWf s) : TablesWf (takeResult s n c seq b) := by
  unfold Machine.takeResult
  dsimp only
  split
  · exact h
  · split
    · split
      · exact h
      · split
        · split
          · exact h.setCtx.commitStep.stepLeft
          · exact h.setCtx.commitStep
        · split
          · exact h.setCtx.stepLeft
          · exact h.setCtx
    · exact h

theorem TablesWf.forwardResult {s : State} {b : BoundImage} {c seq : Nat} {res : Bytes} (h : TablesWf s)
    : TablesWf (forwardResult s b c seq res) := by
  unfold Machine.forwardResult
  dsimp only
  split
  · exact h.putFrame
  · exact h

theorem TablesWf.arrivePost {s : State} {b : BoundImage} {c : Nat} {res : Bytes} (h : TablesWf s) : TablesWf (arrivePost s b c res) := by
  unfold Machine.arrivePost
  split
  · split
    · exact h.updCore fun k hk => { hk with }
    · exact h
  · exact h

theorem OutWf.execSpResult {region ctx sequence : Nat} {result : Bytes} {s : State} (h : TablesWf s)
    : OutWf (execSpResult region ctx sequence result s) := by
  unfold Machine.execSpResult
  dsimp only
  split
  · exact .next h
  · split
    · exact .next h
    · split
      · exact .next h.arrivePost.takeResult
      · exact .next h.arrivePost.forwardResult

theorem TablesWf.refuseResult {s : State} {n c seq : Nat} {b : Bytes} (h : TablesWf s) : TablesWf (refuseResult s n c seq b) := by
  unfold Machine.refuseResult
  dsimp only
  split
  · exact h
  · exact .takeResult (h.foldl fun s _ hs => hs.endFaulted)

theorem OutWf.execResult {port : Nat} {f : FFrame} {s : State} (h : TablesWf s) : OutWf (execResult port f s) := by
  unfold Machine.execResult
  dsimp only
  split
  · exact .next h
  · split
    · exact .next h.takeFrame
    · split
      · exact .next h.takeFrame.countRefusal
      · split
        · exact .next h.takeFrame.countRefusal
        · split
          · exact .next h.takeFrame.countRefusal.refuseResult
          · exact .next h.takeFrame.takeResult

theorem TablesWf.tuneLeft {s : State} {n : Nat} {p : StepRec} (h : TablesWf s) : TablesWf (tuneLeft s n p) := by
  unfold Machine.tuneLeft
  refine h.foldl fun s _ hs => ?_
  split
  · exact hs
  · split
    · exact hs
    · extract_lets +onlyGivenNames _ _ _ _ _ s3
      have h3 : TablesWf s3 := .units hs.keep rfl
      split
      · exact h3
      · extract_lets +onlyGivenNames _
        split
        next e3 =>
          extract_lets +onlyGivenNames _ _ _ s5 _ s6
          have h5 : TablesWf s5 := by
            unfold s5
            split
            · split
              · exact (h3.frame.ofSnd e3).winWrite
              · exact h3.frame.ofSnd e3
            · exact h3.frame.ofSnd e3
          have h6 : TablesWf s6 := { h5 with }
          exact h6.endJob

theorem OutWf.execStepLeavesImage {region sequence : Nat} {s : State} (h : TablesWf s) : OutWf (execStepLeavesImage region sequence s) := by
  unfold Machine.execStepLeavesImage
  split
  · exact .next h
  · refine .next ?_
    split
    · exact h
    · exact h.stepLeft.tuneLeft

/-! ## Key-value blocks -/

theorem OptWf.indexRoom {s : State} (h : TablesWf s) : OptWf (indexRoom s) := by
  unfold Machine.indexRoom
  split
  · exact .ofSome h
  · exact .map (fun x => h.dropEntry.updRegion fun r hr => hr.setBlk)

theorem TablesWf.publish {s : State} {n : Nat} {x : Ctx} {b : Nat} {l : Bytes} (h : TablesWf s) : TablesWf (publish s n x b l) := by
  unfold Machine.publish
  dsimp only
  split
  · exact h
  · split
    · exact h
    next e1 => exact .updRegion (.units ((OptWf.indexRoom h).get e1) rfl) fun r hr => hr.setBlk

theorem OutWf.execBlockClose {ctx block : Nat} {s : State} (h : TablesWf s) : OutWf (execBlockClose ctx block s) := by
  unfold Machine.execBlockClose
  dsimp only
  split
  · exact .next h
  · split
    · exact .next h
    · split
      · exact .next h
      · exact .next (.publish (.updCtx (h.updRegion fun r hr => hr.setBlk)))

theorem CoreWf.compact {k : Core} {slot : Nat} (h : CoreWf k) : CoreWf (k.compact slot) := .count (.frame h.putBytes.putBytes.putBytes)

theorem TablesWf.compactNow {s : State} {c slot : Nat} (h : TablesWf s) : TablesWf (compactNow s c slot) := by
  unfold Machine.compactNow
  extract_lets +onlyGivenNames _ s1
  have h1 : TablesWf s1 := by
    unfold s1
    split
    · exact h
    · exact h.startClock
  split
  · exact h1
  · extract_lets +onlyGivenNames s2
    have h2 : TablesWf s2 := h1.updCore fun k1 hk => hk.compact
    split
    · exact h2
    · exact h2.stopClock

theorem OutWf.execInt4Compaction {core slot : Nat} {s : State} (h : TablesWf s) : OutWf (execInt4Compaction core slot s) := by
  unfold Machine.execInt4Compaction
  split
  · exact .next h
  · split
    · extract_lets +onlyGivenNames _ _ _
      split
      · exact .next h.compactNow
      · exact .next h
    · exact .next h

theorem CoreWf.putSlot {k : Core} {int4 opn : Bool} {slot : Nat} {b : Bytes} (h : CoreWf k) : CoreWf (putSlot k int4 opn slot b).1 := by
  unfold Machine.putSlot
  dsimp only
  split
  · exact h.putBytes
  · split
    · exact h.putBytes
    · exact .frame h.putBytes.putBytes

theorem TablesWf.putFrameBytes {s : State} {n : Nat} {im : BoundImage} {b : Nat} {opn : Bool} {frame : Bytes} (h : TablesWf s) :
    TablesWf (putFrameBytes s n im b opn frame) := by
  unfold Machine.putFrameBytes
  extract_lets nc int4 raw
  refine TablesWf.foldlFst h fun a v ha => ?_
  split
  next p _ => exact ha.setCore (CoreWf.putSlot (ha.core p.core))
  · exact ha

theorem OptWf.returnBlk {s : State} {n c i : Nat} {plain : Bytes} (h : TablesWf s) : OptWf (returnBlk s n c i plain) := by
  unfold Machine.returnBlk
  split
  next x im _ _ =>
    split
    · exact .ofNone
    next cb _ =>
      extract_lets nc p
      split
      · exact .ofNone
      · intro t ht
        obtain ⟨⟨t, b⟩, e, rfl⟩ := Option.map_eq_some_iff.1 ht
        have h1 : TablesWf t := (OptWf.findBlock h).getFst e
        refine TablesWf.updCtx (.putFrameBytes (.unpack (h1.updRegion fun r hr => .setBlk ?_)))
        split
        · exact { hr with }
        · exact hr
  · exact .ofNone

theorem OptWf.returnGo {n c : Nat} {l : List (Nat × Bytes)} {s : State} (h : TablesWf s) : OptWf (returnGo n c l s) := by
  induction l generalizing n c s with
  | nil => exact .ofSome h
  | cons x l ih => exact .bind (.returnBlk h) fun s hs => ih hs

theorem OutWf.execFrameReturn {ctx : Nat} {frames : List (Option Bytes)} {s : State} (h : TablesWf s) :
    OutWf (execFrameReturn ctx frames s) := by
  unfold Machine.execFrameReturn
  split
  · exact .next h
  · extract_lets n gone slot s1 got
    have h1 : TablesWf s1 := h.foldl fun s e hs => hs.winAsk
    split
    · exact .next h
    · split
      · exact .next h1.endReq
      · exact .next ((OptWf.mapState (OptWf.returnGo h1) fun t ht => ht.updCtx).getD h1)

theorem TablesWf.flushPrefixOp {s : State} {n : Nat} (h : TablesWf s) : TablesWf (flushPrefixOp s n).1 := by
  unfold Machine.flushPrefixOp
  split
  · exact h.dropIndex.odBump
  · exact h

theorem OutWf.execFlushPrefix {w : Writer} {region : Nat} {s : State} (h : TablesWf s) : OutWf (execFlushPrefix w region s) :=
  .applied h h.flushPrefixOp

end Sys2Proof.Proofs
end

section
/-!
SUPPORT. What the tables keep under upkeep, starts and custody.
-/
namespace Sys2Proof.Proofs
open Sys2Proof.Machine Sys2Proof.Safety

/-! ## Upkeep -/

theorem CoreWf.dueTasks {p : PRegion} {s : State} {k : Core} {e : Nat × Arr} (hk : CoreWf k) : CoreWf (dueTasks p s k e) := by
  unfold Machine.dueTasks
  dsimp only
  split
  · exact hk
  · split
    · split
      · exact hk
      · exact hk.setSet
    · split
      · exact hk.addTask
      · exact hk

theorem OutWf.execAgeTick {s : State} (h : TablesWf s) : OutWf (execAgeTick s) := by
  unfold Machine.execAgeTick
  dsimp only
  refine .next (.mapCores (h.foldl fun s _ hs => hs.updPreg) rfl fun c k hk => ?_)
  split
  · exact hk.foldl fun k1 x hx => .dueTasks hx
  · exact hk

theorem TablesWf.startSlice {s : State} {c set : Nat} {t : Machine.Task} {forced : Bool} (h : TablesWf s)
    : TablesWf (startSlice s c set t forced) := by
  unfold Machine.startSlice
  dsimp only
  split
  · exact .notice (.frame (h.updCore fun k hk => hk.setSet))
  · exact h.updCore fun k hk => hk.setSet

theorem TablesWf.upkeepReturn {s : State} {g : Nat} (h : TablesWf s) : TablesWf (upkeepReturn s g) := by
  unfold Machine.upkeepReturn
  dsimp only
  split
  · exact h
  · split
    · exact h
    · split
      · exact h.updPreg
      · split
        · exact h.updPreg.powerTo
        · split
          · exact h.updPreg.goDark
          · exact h.updPreg.countField.powerTo.modePin

theorem OutWf.execIntercalarySlot {core set : Nat} {s : State} (h : TablesWf s) : OutWf (execIntercalarySlot core set s) := by
  unfold Machine.execIntercalarySlot
  dsimp only
  split
  · exact .next h
  · split
    · exact .next h.upkeepReturn
    · split
      · exact .next h.startSlice
      · split
        · exact .next h.startSlice
        · exact .next h

theorem OutWf.execSentinelForce {core set : Nat} {s : State} (h : TablesWf s) : OutWf (execSentinelForce core set s) := by
  unfold Machine.execSentinelForce
  dsimp only
  split
  · exact .next h
  · split
    · exact .next h.startSlice
    · exact .next h

theorem TablesWf.sentinelAlarm {s : State} {c set a : Nat} (h : TablesWf s) : TablesWf (sentinelAlarm s c set a) := by
  unfold Machine.sentinelAlarm
  dsimp only
  split
  · refine .updCore (.precisionEvent (.frame (h.updCore fun k hk => hk.count.setArr))) fun k hk => (hk.foldl fun k1 x hx => ?_)
    split
    · exact hx.addTask
    · exact hx
  · split
    · exact .coreDies (.frame (.retireArray (.precisionEvent (.frame (h.updCore fun k hk => hk.count.setArr)))))
    · exact .frame (.retireArray (.precisionEvent (.frame (h.updCore fun k hk => hk.count.setArr))))

theorem TablesWf.sentinelSlice {s : State} {c set : Nat} (h : TablesWf s) : TablesWf (sentinelSlice s c set) := by
  unfold Machine.sentinelSlice
  dsimp only
  split
  · exact h
  · split
    · exact h.setCore ((h.core _).setSet)
    · split
      · exact (h.frame.setCore ((h.core _).setSet.count.count)).sentinelAlarm
      · exact h.frame.setCore ((h.core _).setSet.count.count)

theorem TablesWf.calHandles {s : State} (h : TablesWf s) : TablesWf (calHandles s) := by
  unfold Machine.calHandles
  refine h.foldl fun s _ hs => ?_
  split
  · split
    · exact hs
    · split
      · exact hs.keep
      · exact hs.finish
  · exact hs

theorem TablesWf.calDone {s : State} {c a : Nat} (h : TablesWf s) : TablesWf (calDone s c a) :=
  .calHandles (h.updCore fun _ hk => hk.setArr.setSet)

theorem TablesWf.fitSlices {s : State} {c set : Nat} {slices : List Nat} (h : TablesWf s) : TablesWf (s.fitSlices c set slices) :=
  h.frame.updCore fun _ hk => hk.setSet

theorem TablesWf.calSlice {s : State} {c a : Nat} (h : TablesWf s) : TablesWf (calSlice s c a) := by
  unfold Machine.calSlice
  dsimp only
  split
  · exact h.fitSlices.updCore fun k hk => hk.setArr
  · exact h.fitSlices.calDone

theorem TablesWf.calPass {s : State} {c a : Nat} (h : TablesWf s) : TablesWf (calPass s c a) := h.fitSlices.calDone

theorem OutWf.execCalibrate {i : Nat} {s : State} (h : TablesWf s) : OutWf (execCalibrate i s) := by
  unfold Machine.execCalibrate
  dsimp only
  refine .next (h.onCmd fun _ => ?_)
  split
  · exact h.finish
  · refine .calHandles (.keep (.mapCores h rfl fun c k hk => ?_))
    split
    · refine hk.foldl fun k1 x hx => ?_
      split
      · exact hx.addTask
      · exact hx
    · exact hk

theorem TablesWf.passDigest {s : State} {c a : Nat} (h : TablesWf s) : TablesWf (passDigest s c a) := h.setCore ((h.core _).setArr)

theorem TablesWf.refreshDone {s : State} {c a : Nat} (h : TablesWf s) : TablesWf (refreshDone s c a) :=
  h.passDigest.updCore fun _ hk => hk.setArr.setSet.addTask

theorem TablesWf.refreshSlice {s : State} {c a : Nat} (h : TablesWf s) : TablesWf (refreshSlice s c a) := by
  unfold Machine.refreshSlice
  split
  next e =>
    extract_lets +onlyGivenNames _ _ _ _ _ _ _ _ s2 s3 _ _ _
    have h2 : TablesWf s2 := (h.frame.ofSnd e).updCore fun k hk => hk.setArr.count
    have h3 : TablesWf s3 := by
      unfold s3
      split
      · exact h2
      · exact h2.refreshDone
    exact h3.foldl fun s _ hs => hs.wornColumn

theorem TablesWf.repairDone {s : State} {c a : Nat} (h : TablesWf s) : TablesWf (repairDone s c a) := by
  unfold Machine.repairDone
  split
  next e =>
    extract_lets +onlyGivenNames _ _ _ _ s2
    have h2 : TablesWf s2 := (h.frame.ofSnd e).updCore fun k hk => hk.setArr
    split
    next e1 =>
      extract_lets +onlyGivenNames _ _ s4 _ _ s5
      have h4 : TablesWf s4 := (h2.calPass.readRecord.ofSnd e1).foldl fun s _ hs => hs.wornColumn
      have h5 : TablesWf s5 := by
        unfold s5
        split
        · exact h4.updCore fun k hk => hk.setArr
        · exact h4
      split
      · exact h5
      · split
        · split
          · split
            · exact h5.stopImage
            · exact h5.updCore fun k hk => hk.setArr
          · exact h5
        · extract_lets +onlyGivenNames _ _ _
          split
          · exact h5.frame.odPending.precisionEvent.reportBound
          · exact h5.frame.odPending.precisionEvent

theorem TablesWf.settleTask {s : State} {c a level : Nat} (h : TablesWf s) : TablesWf (settleTask s c a level) := by
  unfold Machine.settleTask
  dsimp only
  refine h.updCore fun k hk => ?_
  split
  · refine .setArr ?_
    split
    · exact hk
    · exact hk.setSet
  · split
    · exact hk
    · exact hk.setSet

theorem TablesWf.fixSlice {s : State} {c a level : Nat} (h : TablesWf s) : TablesWf (fixSlice s c a level) := by
  unfold Machine.fixSlice
  dsimp only
  refine .settleTask ?_
  split
  · exact h.frame.updCore fun k hk => hk.setArr
  · split
    · exact .repairDone (h.frame.updCore fun k hk => hk.setArr)
    · exact .updCore (h.frame.updCore fun k hk => hk.setArr) fun k hk => hk.setArr

theorem TablesWf.bearSlice {s : State} {c set : Nat} {before : Core} {x : Slice} (h : TablesWf s)
    : TablesWf (bearSlice s c set before x) := by
  unfold Machine.bearSlice
  extract_lets k named s'
  have h' : TablesWf s' := h.foldl fun s q hs => hs.bearWait
  exact h'.updCore fun k hk => { hk with }

theorem TablesWf.sliceWork {s : State} {core set : Nat} {t : Machine.Task} (h : TablesWf s) : TablesWf (sliceWork s core set t) := by
  unfold Machine.sliceWork
  split
  · exact h.fixSlice
  · exact h.sentinelSlice
  · exact h.refreshSlice
  · exact h.refreshSlice
  · exact h.fixSlice
  · exact h.calSlice

theorem OutWf.execUpkeepSliceEnd {core set : Nat} {s : State} (h : TablesWf s) : OutWf (execUpkeepSliceEnd core set s) := by
  unfold Machine.execUpkeepSliceEnd
  extract_lets +onlyGivenNames _
  split
  · exact .next h
  · extract_lets +onlyGivenNames _ _ _
    split
    · exact .next (((h.setCore ((h.core _).setSet)).bearSlice).upkeepReturn)
    · extract_lets +onlyGivenNames s2
      have h2 : TablesWf s2 := (((h.setCore ((h.core _).setSet)).sliceWork).bearSlice).upkeepReturn
      refine .next ?_
      split
      · exact h2.advance
      · exact h2

theorem TablesWf.clearWarningsOp {s : State} {mask : W32} (h : TablesWf s) : TablesWf (clearWarningsOp s mask).1 := h.frame.odBump

theorem OutWf.execClearWarnings {w : Writer} {mask : W32} {s : State} (h : TablesWf s) : OutWf (execClearWarnings w mask s) :=
  .applied h h.frame.odBump

/-! ## Starts -/

theorem TablesWf.runBank {s : State} {i : Nat} {prev : Option Nat} (h : TablesWf s) : TablesWf (runBank s i prev) := by
  unfold Machine.runBank
  dsimp only
  split
  · exact { h with }
  · exact .saveBoot { h with }

theorem TablesWf.selectBank {s : State} (h : TablesWf s) : TablesWf (selectBank s).1 := by
  unfold Machine.selectBank
  dsimp only
  split
  · split
    · exact .runBank (.saveBoot { h with })
    · split
      · exact .runBank (.saveBoot { h with })
      · split
        · exact .runBank (.saveBoot { h with })
        · exact .saveBoot { h with }
  · split
    · exact h.runBank
    · split
      · exact h.runBank
      · exact h

theorem TablesWf.selectWarm {s : State} (h : TablesWf s) : TablesWf (selectWarm s).1 := by
  unfold Machine.selectWarm
  split
  · exact h.runBank
  · exact h.selectBank

theorem TablesWf.readBootRecord {s : State} (h : TablesWf s) : TablesWf (readBootRecord s) := by
  unfold Machine.readBootRecord
  extract_lets _ b
  have hb : b.sessions = s.boot.sessions := by
    unfold b
    split
    · rfl
    · rfl
  exact .saveBoot (h.units (by dsimp only; rw [hb]))

theorem TablesWf.startFails {s : State} {step : Nat} (h : TablesWf s) : TablesWf (startFails s step) := .saveBoot (.units h.clearCold rfl)

theorem TablesWf.loadLeaf {s : State} (h : TablesWf s) : TablesWf (loadLeaf s) := by
  unfold Machine.loadLeaf
  dsimp only
  split
  · exact { h with }
  · exact { h with }

theorem TablesWf.raise {s : State} {i : Nat} {pg : Bool} (h : TablesWf s) : TablesWf (raise s i pg) := h.emit.frame

theorem TablesWf.wakeNext {i : Nat} {s : State} (h : TablesWf s) : TablesWf (wakeNext i s) := by
  induction i generalizing s with
  | zero => exact h
  | succ n ih =>
    rw [Machine.wakeNext]
    dsimp only
    split
    · exact h
    · split
      · exact h
      · refine ih ?_
        split
        · exact h.frame.beginRetry
        · exact h.frame.wakeRegion

theorem TablesWf.trainModules {s : State} {ups : List LinkUp} {warm : Bool} (h : TablesWf s) : TablesWf (trainModules s ups warm) := by
  unfold Machine.trainModules
  dsimp only
  refine .foldl (h.foldl fun s _ hs => hs.setSite) fun s _ hs => ?_
  split
  · exact hs
  · exact hs.modUp

theorem TablesWf.trainPorts {s : State} {ps : List Nat} (h : TablesWf s) : TablesWf (trainPorts s ps) := by
  unfold Machine.trainPorts
  refine h.foldl fun s _ hs => ?_
  split
  · exact hs.trainPort
  · exact hs

theorem TablesWf.setPhase {s : State} {p : Phase} (h : TablesWf s) : TablesWf (setPhase s p) := by
  unfold Machine.setPhase
  exact { h with }

theorem TablesWf.wakesGoOn {s : State} (h : TablesWf s) : TablesWf (wakesGoOn s) := by
  unfold Machine.wakesGoOn
  dsimp only
  split
  · exact h
  · split
    · exact .trainPorts (.trainModules (.units h.wakeNext rfl))
    · exact h.wakeNext

theorem TablesWf.wakeAll {s : State} {kind : Nat} {i : StartInputs} (h : TablesWf s) : TablesWf (wakeAll s kind i) := by
  unfold Machine.wakeAll
  extract_lets +onlyGivenNames _ s1 _
  have h1 : TablesWf s1 := by
    unfold s1
    split
    · exact h.frame.allDark
    · exact h
  exact .wakesGoOn { h1 with }

theorem TablesWf.loadSettings {s : State} {cold : Bool} {rom : Nat} (h : TablesWf s) : TablesWf (loadSettings s cold rom) := by
  unfold Machine.loadSettings
  dsimp only
  refine h.loadStore.foldl fun s _ hs => ?_
  split
  · exact hs
  · exact hs.setpointOp

theorem TablesWf.coldFrom4 {s : State} {i : StartInputs} {rom : Nat} (h : TablesWf s) : TablesWf (coldFrom4 s i rom) := by
  unfold Machine.coldFrom4
  dsimp only
  split
  · exact h.startFails
  · split
    · exact .startFails { h with }
    · split
      · exact .startFails (.raise (.loadLeaf (.loadSettings { h with })))
      · split
        · exact .startFails (.raise (.raise (.loadLeaf (.loadSettings { h with }))))
        · exact .wakeAll (.raise (.raise (.loadLeaf (.loadSettings { h with }))))

theorem TablesWf.startTray {s : State} (h : TablesWf s) : TablesWf (startTray s) := h.emit.emit

theorem OutWf.execColdStart {i : StartInputs} {s : State} (h : TablesWf s) : OutWf (execColdStart i s) := by
  unfold Machine.execColdStart
  split
  · extract_lets +onlyGivenNames _ _ s2 _
    have h2 : TablesWf s2 := .units h.clearCold rfl
    split
    · exact .next h2.startTray.raise.startFails
    · extract_lets +onlyGivenNames _ _
      split
      · exact .next h2.startTray.raise.readBootRecord.setPhase
      · split
        next e3 =>
          split
          · exact .next ((h2.startTray.raise.readBootRecord.selectBank.ofFst e3).setPhase)
          · exact .next ((h2.startTray.raise.readBootRecord.selectBank.ofFst e3).coldFrom4)
  · exact .next h

theorem TablesWf.forgetReads {s : State} (h : TablesWf s) : TablesWf (forgetReads s) := by
  unfold Machine.forgetReads
  exact { h with sqs := by dsimp only; exact Tbl.wf_map h.sqs _, reads := by dsimp only; exact Tbl.wf_map h.reads _ }

theorem OutWf.execWarmStart {i : StartInputs} {s : State} (h : TablesWf s) : OutWf (execWarmStart i s) := by
  unfold Machine.execWarmStart
  split
  · extract_lets +onlyGivenNames s1 _ _ s2 saves s3
    have h1 : TablesWf s1 := h.clearBoth
    clear_value s1
    have h2 : TablesWf s2 := { h1 with ctxs := Tbl.wf_nil }
    have h3 : TablesWf s3 := h2.forgetReads.readBootRecord
    split
    · exact .next h3.setPhase
    · split
      next s4 ok e =>
        have h4 : TablesWf s4 := h3.selectWarm.ofFst e
        split
        · exact .next h4.setPhase
        · exact .next h4.loadSettings.loadLeaf.wakeAll
  · exact .next h

theorem OutWf.execRecoveryStart {i : StartInputs} {s : State} (h : TablesWf s) : OutWf (execRecoveryStart i s) := by
  unfold Machine.execRecoveryStart
  split
  · extract_lets s1 _ s2 s3 s4
    have h1 : TablesWf s1 := h.allDark.clearCold
    clear_value s1
    have h1' : TablesWf
        { s1 with od := { s1.od with vals := (storedVals s1 65535).filter fun e => e.1 = odKey 0x2020 1, pending := [] } } :=
      { h1 with vals := Tbl.wf_filter wf_storedVals _, saves := Tbl.wf_nil }
    have h2 : TablesWf s2 := h1'.mapRegions rfl fun n r hr => hr.fromRecord
    have h3 : TablesWf s3 := by
      unfold s3
      split
      · exact h2
      · exact h2.raise
    split
    · exact .next h3.startFails
    · split
      · exact .next h3.raise.startFails
      · exact .next (.setPhase (.trainModules { h3.raise with }))
  · exact .next h

theorem CoreWf.coldCal {k : Core} (h : CoreWf k) : CoreWf k.coldCal := by
  unfold Core.coldCal
  exact { h with }

theorem TablesWf.coldCalibrate {s : State} (h : TablesWf s) : TablesWf (coldCalibrate s) := by
  unfold Machine.coldCalibrate
  dsimp only
  refine .mapCores (h.frame.foldl fun s _ hs => hs.updPreg) rfl fun c k hk => ?_
  split
  · exact hk
  · exact hk.coldCal

theorem TablesWf.warmCalibrate {s : State} (h : TablesWf s) : TablesWf (warmCalibrate s) := by
  unfold Machine.warmCalibrate
  refine h.frame.foldl fun s _ hs => ?_
  split
  · exact hs
  · refine hs.foldl fun s _ hs => ?_
    split
    · exact hs.foldl fun s _ hs => hs.calPass
    · exact hs

theorem TablesWf.writeLate {s : State} (h : TablesWf s) : TablesWf (writeLate s) := .units (h.foldl fun _ _ hs => hs.finish) rfl

theorem TablesWf.started {s : State} {kind : Nat} (h : TablesWf s) : TablesWf (started s kind) := by
  unfold Machine.started
  extract_lets +onlyGivenNames s1 _ _ s2
  have h1 : TablesWf s1 := by
    unfold s1
    split
    · exact h.coldCalibrate
    · exact h.warmCalibrate
  have h2 : TablesWf s2 := .saveBoot { h1 with }
  split
  · exact h2.writeLate.postEvent
  · exact h2

theorem OutWf.execStartComplete {s : State} (h : TablesWf s) : OutWf (execStartComplete s) := by
  unfold Machine.execStartComplete
  dsimp only
  split
  · split
    · exact .next h
    · exact .next (.readCommands (h.started.foldl fun s _ hs => hs.advance))
  · exact .next h

theorem OutWf.execStartFailed {step : Nat} {s : State} (h : TablesWf s) : OutWf (execStartFailed step s) := by
  unfold Machine.execStartFailed
  extract_lets +onlyGivenNames _
  split
  · exact .next h.startFails
  · exact .next h

theorem OutWf.execManagementWatchdog {s : State} (h : TablesWf s) : OutWf (execManagementWatchdog s) := by
  unfold Machine.execManagementWatchdog
  dsimp only
  split
  · exact .next (.saveBoot (.units h.suddenWarm rfl))
  · exact .next h.startFails
  · exact .next h.startFails
  · exact .next (.saveBoot { h with })
  · exact .next h

theorem OutWf.execManagementMemoryError {s : State} (h : TablesWf s) : OutWf (execManagementMemoryError s) := by
  unfold Machine.execManagementMemoryError
  split
  · exact .next h.suddenWarm
  · exact .next h.trigger
  · exact .next h

theorem TablesWf.restartCmd {s : State} {i kind : Nat} (h : TablesWf s) : TablesWf (restartCmd s i kind) := by
  refine h.onCmd fun o => ?_
  extract_lets k rec_ s1
  have h1 : TablesWf s1 := h.finish.orderedStart
  clear_value s1
  split
  · split
    · exact .saveBoot { h1 with }
    · exact h1
  · split
    · exact h
    · exact h.finish

theorem OutWf.execRestartWarm {i : Nat} {s : State} (h : TablesWf s) : OutWf (execRestartWarm i s) := .next h.restartCmd
theorem OutWf.execRestartCold {i : Nat} {s : State} (h : TablesWf s) : OutWf (execRestartCold i s) := .next h.restartCmd

theorem TablesWf.writeBank {s : State} {b : Bytes} (h : TablesWf s) : TablesWf (writeBank s b).1 := by
  unfold Machine.writeBank
  dsimp only
  split
  · exact h
  · split
    · exact h
    · exact { h with }

theorem OutWf.execFwWrite {i : Nat} {image : Option Bytes} {s : State} (h : TablesWf s) : OutWf (execFwWrite i image s) := by
  unfold Machine.execFwWrite
  dsimp only
  refine .next (h.onCmd fun _ => ?_)
  split
  · exact h.finish
  · split
    · exact h.operand.finish
    · split
      · exact h.operand
      · exact h.operand.writeBank.finish

theorem OutWf.execFwActivate {i : Nat} {s : State} (h : TablesWf s) : OutWf (execFwActivate i s) := by
  unfold Machine.execFwActivate
  dsimp only
  refine .next (h.onCmd fun _ => ?_)
  split
  · exact h.finish
  · exact .orderedStart (.saveBoot (.units h.finish rfl))

theorem OutWf.execNop {i : Nat} {s : State} (h : TablesWf s) : OutWf (execNop i s) := .next (h.onCmd fun _ => h.finish)

/-! ## Custody -/

theorem TablesWf.signGo {i : Nat} {s : State} (h : TablesWf s) : TablesWf (signGo i s) := by
  induction i generalizing s with
  | zero => exact h
  | succ n ih =>
    rw [Machine.signGo]
    dsimp only
    split
    · exact h
    · split
      · exact h
      · split
        · exact ih { h with }
        · split
          · exact ih (.finish { h with })
          · split
            · exact ih (.finish (.writeBlock (.units (.frame { h with }) rfl)))
            · exact .units (.keep (.writeBlock (.units (.frame { h with }) rfl))) rfl

theorem TablesWf.startSigning {s : State} (h : TablesWf s) : TablesWf (startSigning s) := h.signGo

theorem OutWf.execAttest {i : Nat} {nonce : Option Bytes} {s : State} (h : TablesWf s) : OutWf (execAttest i nonce s) := by
  unfold Machine.execAttest
  dsimp only
  refine .next (h.onCmd fun _ => ?_)
  split
  · exact h.operand.finish
  · split
    · exact h.operand.finish
    · exact .startSigning (.units h.operand.keep rfl)

theorem OutWf.execAttestSigned {s : State} (h : TablesWf s) : OutWf (execAttestSigned s) := by
  unfold Machine.execAttestSigned
  split
  · exact .next h
  · extract_lets +onlyGivenNames _ _ s1 _ _
    have h11 : TablesWf s1 := by
      unfold s1
      split
      · exact h.hostWrite.finish
      · exact h
    exact .next (.startSigning { h11 with })

theorem OutWf.execLowerTreeBuilt {s : State} (h : TablesWf s) : OutWf (execLowerTreeBuilt s) := by
  unfold Machine.execLowerTreeBuilt
  dsimp only
  split
  · exact .next h
  · exact .next (.startSigning { h with })

theorem TablesWf.storeValue {s : State} {index sub : Nat} {v : Bytes} (h : TablesWf s) : TablesWf (storeValue s index sub v) := by
  unfold Machine.storeValue
  split
  · exact h.odStore
  · exact h

theorem TablesWf.custodyOp {s : State} {v : Nat} (h : TablesWf s) : TablesWf (custodyOp s v).1 := by
  unfold Machine.custodyOp
  split
  · exact h
  · split
    · exact h
    · dsimp only
      exact h.storeValue

theorem OutWf.execCustodyEnable {w : Writer} {value : Nat} {s : State} (h : TablesWf s) : OutWf (execCustodyEnable w value s) := by
  unfold Machine.execCustodyEnable
  split
  · exact .applied h h.custodyOp
  · exact .next h

theorem TablesWf.openSession {s : State} {b : Bytes} {source : Option Nat} (h : TablesWf s) : TablesWf (openSession s b source).1 := by
  unfold Machine.openSession
  extract_lets role admin lengthOk signed k salt
  split
  · exact h
  · split
    · exact h
    · split
      next i s1 e =>
        have h1 : TablesWf s1 := h.draw.ofSnd e
        exact { h1 with sessions := Tbl.wf_set h1.sessions _ _ }

theorem OutWf.execSessionOpen {i : Nat} {block : Option Bytes} {s : State} (h : TablesWf s) : OutWf (execSessionOpen i block s) := by
  unfold Machine.execSessionOpen
  dsimp only
  refine .next (h.onCmd fun _ => ?_)
  split
  · exact h.finish
  · split
    · exact h.operand.finish
    · split
      · exact h.operand
      · split
        · exact h.operand.openSession.finish
        · exact h.operand.openSession.hostWrite.finish

theorem TablesWf.dropSessionIndex {s : State} {id : Nat} (h : TablesWf s) : TablesWf (dropSessionIndex s id) := by
  unfold Machine.dropSessionIndex
  dsimp only
  refine .foldl { h with } fun s _ hs => (hs.updRegion fun r hr => ?_)
  split
  · exact hr
  · exact { hr with }

theorem TablesWf.endSession {s : State} {id : Nat} (h : TablesWf s) : TablesWf (endSession s id) := by
  unfold Machine.endSession
  dsimp only
  split
  · exact h
  · exact { h.endReqs.dropSessionIndex with sessions := Tbl.wf_del h.endReqs.dropSessionIndex.sessions _ }

theorem OutWf.execSessionClose {i : Nat} {s : State} (h : TablesWf s) : OutWf (execSessionClose i s) := by
  unfold Machine.execSessionClose
  refine .next (h.onCmd fun _ => ?_)
  split
  · exact h.finish
  · exact h.endSession.finish

theorem OutWf.execSessionIdle {session : Nat} {s : State} (h : TablesWf s) : OutWf (execSessionIdle session s) := by
  unfold Machine.execSessionIdle
  split
  · split
    · exact .next h.endSession
    · exact .next h
  · exact .next h

theorem OutWf.execKeyload {i : Nat} {blob : Option Bytes} {s : State} (h : TablesWf s) : OutWf (execKeyload i blob s) := by
  unfold Machine.execKeyload
  dsimp only
  refine .next (h.onCmd fun _ => ?_)
  split
  · exact h.operand.finish
  · split
    · exact h.operand.finish
    · split
      · exact h.operand
      · split
        · exact h.operand.finish
        · exact .finish (h.operand.updRegion fun r hr => { hr with })

end Sys2Proof.Proofs
end

section
/-!
SUPPORT. What the tables keep under observation, dictionary writes, commands, operations, the management segment and wakes.
-/
namespace Sys2Proof.Proofs
open Sys2Proof.Machine Sys2Proof.Safety

/-! ## Observation -/

theorem TablesWf.clearOverflowOp {s : State} {w : Writer} {v : Nat} (h : TablesWf s) : TablesWf (clearOverflowOp s w v).1 := by
  unfold Machine.clearOverflowOp
  dsimp only
  split
  · exact h
  · split
    · exact h
    · refine .odBump ?_
      split
      · exact h.frame
      · split
        · exact h
        · exact h.updCore fun k hk => { hk with }

theorem OutWf.execClearOverflow {w : Writer} {value : Nat} {s : State} (h : TablesWf s) : OutWf (execClearOverflow w value s) :=
  .applied h h.clearOverflowOp

theorem TablesWf.scopeOp {s : State} {w : Writer} (h : TablesWf s) : TablesWf (scopeOp s w).1 := by
  unfold Machine.scopeOp
  dsimp only
  split
  · exact h
  · split
    · exact .odBump { h with }
    · exact .dropShadow (.storeValue (.storeValue (.storeValue (.odBump { h with }))))

theorem OutWf.execScopeCommit {w : Writer} {s : State} (h : TablesWf s) : OutWf (execScopeCommit w s) := .applied h h.scopeOp.commitCounted

theorem OutWf.execCounterDump {i : Nat} {s : State} (h : TablesWf s) : OutWf (execCounterDump i s) := by
  unfold Machine.execCounterDump
  refine .next (h.onCmd fun _ => ?_)
  extract_lets +onlyGivenNames _ _ _
  split
  · exact h.finish
  · split
    · exact .finish { h with dumps := Tbl.wf_del h.dumps _ }
    · extract_lets +onlyGivenNames _
      split
      · exact h.finish
      · extract_lets +onlyGivenNames _
        exact .finish { h with dumps := Tbl.wf_set h.dumps _ _ }

theorem OutWf.execSnapshot {ring : Nat} {s : State} (h : TablesWf s) : OutWf (execSnapshot ring s) := by
  unfold Machine.execSnapshot
  split
  · extract_lets +onlyGivenNames p b
    split
    · exact .next h
    · extract_lets +onlyGivenNames skipped recs
      split
      · exact .next { h with dumps := Tbl.wf_set h.dumps _ _ }
      · extract_lets +onlyGivenNames head s1
        have h1 : TablesWf s1 := h.putRecords
        clear_value s1
        exact .next { h1 with dumps := Tbl.wf_set h1.dumps _ _ }
  · exact .next h

theorem TablesWf.watchArmOp {s : State} {w : Writer} {n : Nat} (h : TablesWf s) : TablesWf (watchArmOp s w n).1 := by
  unfold Machine.watchArmOp
  dsimp only
  split
  · exact h
  · split
    · exact .units h.odBump rfl
    · split
      · exact .units h.odBump rfl
      · split
        · exact .units h.odBump rfl
        · exact .dropShadow (.foldl (.mapCores h.odBump rfl (fun c k hk => { hk with })) fun s _ hs => hs.odBump)

theorem OutWf.execWatchArm {w : Writer} {watch : Nat} {s : State} (h : TablesWf s) : OutWf (execWatchArm w watch s) := by
  unfold Machine.execWatchArm
  split
  · exact .applied h h.watchArmOp.commitCounted
  · exact .next h

theorem TablesWf.watchDisarmOp {s : State} {n : Nat} (h : TablesWf s) : TablesWf (watchDisarmOp s n).1 := by
  unfold Machine.watchDisarmOp
  exact { h with }

theorem OutWf.execWatchDisarm {w : Writer} {watch : Nat} {s : State} (h : TablesWf s) : OutWf (execWatchDisarm w watch s) := by
  unfold Machine.execWatchDisarm
  split
  · exact .applied h (.odBump { h with })
  · exact .next h

theorem OutWf.execWatchDump {core op : Nat} {s : State} (h : TablesWf s) : OutWf (execWatchDump core op s) := by
  unfold Machine.execWatchDump
  split
  · exact .next h
  · extract_lets +onlyGivenNames _ _ _ _ _ _ _ s1 s2 _
    have h1 : TablesWf s1 := { h with }
    have h2 : TablesWf s2 := by
      unfold s2
      split
      · exact h1
      · exact h1.updCore fun k1 hk => { hk with }
    split
    · exact .next (.notice (.units h2.winWrite rfl))
    · exact .next (.settle { h2 with })

theorem TablesWf.armVigil {s : State} {i : Nat} {o : HOut} (h : TablesWf s) : TablesWf (armVigil s i o) := by
  unfold Machine.armVigil
  extract_lets +onlyGivenNames _ _ _ _ _ _ _
  split
  · exact h.finish
  · exact .keep (h.updRegion fun r1 hr => { hr with })

theorem OutWf.execVigilArm {i : Nat} {s : State} (h : TablesWf s) : OutWf (execVigilArm i s) := by
  unfold Machine.execVigilArm
  refine .next (h.onCmd fun _ => ?_)
  split
  · exact h.armVigil
  · exact h
  · exact h.finish

theorem OutWf.execVigilDisarm {i : Nat} {s : State} (h : TablesWf s) : OutWf (execVigilDisarm i s) := by
  unfold Machine.execVigilDisarm
  dsimp only
  refine .next (h.onCmd fun _ => ?_)
  split
  · split
    · exact h.finish
    · split
      · exact h.finish
      · exact h.disarmVigil.finish
  · exact h
  · exact h.finish

theorem TablesWf.countVigil {s : State} (h : TablesWf s) :
    TablesWf { s with observe := { s.observe with vigils := (s.observe.vigils + 1) % 2 ^ 32 } } := .units h rfl

theorem TablesWf.writeVigil {s : State} {n : Nat} {t : VigTrig} {v : VigArm} (h : TablesWf s) : TablesWf (writeVigil s n t v) := by
  unfold Machine.writeVigil
  extract_lets s'
  have h' : TablesWf s' := h.updRegion fun r hr => { hr with }
  split
  · split
    · exact h'.finish
    · split
      next base s1 e =>
        extract_lets +onlyGivenNames b core s2 _ s3 s4
        have h1 : TablesWf s1 := (TablesWf.draw h).ofSnd e
        have h2 : TablesWf s2 := .winWrite (h1.updRegion fun r hr => { hr with })
        clear_value s2
        have h3 : TablesWf s3 := .odPending (TablesWf.countVigil h2)
        exact h3.notice.finish
  · exact h'.finish

theorem OutWf.execVigilDump {region : Nat} {s : State} (h : TablesWf s) : OutWf (execVigilDump region s) := by
  unfold Machine.execVigilDump
  dsimp only
  split
  · exact .next h
  · split
    · exact .next h
    · split
      · split
        · exact .next { h with }
        · refine .next (.updRegion ?_ fun r hr => { hr with })
          refine .foldl ?_ ?_
          · split
            · refine .finish ?_
              split
              · exact .writeVigil { h with }
              · exact { h with }
            · split
              · exact .writeVigil { h with }
              · exact { h with }
          · intro s1 x2 h1
            split
            · exact h1.haltCore fun a ha => ha
            · exact h1
      · exact .next { h with }

theorem TablesWf.abandon {s : State} {i : Nat} {o : HOut} {now : Bool} (h : TablesWf s) : TablesWf (abandon s i o now) := by
  unfold Machine.abandon
  extract_lets +onlyGivenNames n done
  have hdone (s : State) (hs : TablesWf s) : TablesWf (done s) := by
    unfold done
    split
    · exact hs.finish
    · exact hs
  split
  · exact h.opFail
  · refine .opFail ?_
    split
    · exact h
    · exact h.updRegion fun r hr => { hr with }
  · extract_lets r first s1
    have h1 : TablesWf s1 := by
      unfold s1
      split
      · split
        · exact h.stopBusy.updRegion fun r hr => { hr with }
        · exact h
      · exact h
    exact .tryRelease (hdone _ (h1.updRegion fun r hr => { hr with }))
  · exact hdone _ h.dropJob
  · extract_lets _ s1
    have h1 : TablesWf s1 := { h with }
    exact h1.finish.startSigning
  · extract_lets w others s1
    refine TablesWf.finish ?_
    unfold s1
    split
    · exact h
    · refine h.mapCores rfl fun c k hk => ?_
      split
      · exact { hk with }
      · exact hk

theorem OutWf.execHandleProgressTimeout {i : Nat} {s : State} (h : TablesWf s) : OutWf (execHandleProgressTimeout i s) := by
  unfold Machine.execHandleProgressTimeout
  dsimp only
  split
  · exact .next h
  · split
    · exact .next h
    · split
      · exact .next h.abandon
      · exact .next h.abandon.keep.beginVigil

theorem TablesWf.sillageMarkOp {s : State} {v : Nat} (h : TablesWf s) : TablesWf (sillageMarkOp s v).1 := h.sil.odBump

theorem OutWf.execSillageMark {w : Writer} {value : W32} {s : State} (h : TablesWf s) : OutWf (execSillageMark w value s) :=
  .applied h h.sil.odBump

theorem OutWf.execPeriodicMark {s : State} (h : TablesWf s) : OutWf (execPeriodicMark s) := by
  unfold Machine.execPeriodicMark
  dsimp only
  split
  · exact .next (.sil { h with })
  · exact .next h

/-! ## Dictionary writes -/

theorem TablesWf.afterWrite {s : State} {index sub v : Nat} (h : TablesWf s) : TablesWf (afterWrite s index sub v) := by
  unfold Machine.afterWrite
  dsimp only
  split
  · exact h.setpointOp
  · split
    · exact h.chooseRoot
    · split
      · split
        · exact h.portGoesDown
        · split
          · exact h.setPort ⟨(h.port _).chans⟩
          · exact h
      · exact h

theorem TablesWf.restoreOp {s : State} {key : Nat} (h : TablesWf s) : TablesWf (restoreOp s key).1 := by
  unfold Machine.restoreOp
  split
  · exact h
  · split
    · exact h
    · extract_lets +onlyGivenNames gone old _ s1 s2 s3
      have h1 : TablesWf s1 := { h with vals := Tbl.wf_filter h.vals _ }
      have h2 : TablesWf s2 := h1.mapRegions rfl fun n r hr => { hr with }
      have h3 : TablesWf s3 := h2.foldl fun s k hs => hs.odBump.odPending.afterWrite
      exact h3.saveAll.odBump

theorem OutWf.execRestoreDefaults {w : Writer} {key : W32} {s : State} (h : TablesWf s) : OutWf (execRestoreDefaults w key s) :=
  .applied h h.restoreOp

theorem TablesWf.commitWrite {s : State} {w : Writer} {index v : Nat} (h : TablesWf s) : TablesWf (commitWrite s w index v).1 := by
  unfold Machine.commitWrite
  split
  · exact h.discardOp
  · refine .commitCounted ?_
    split
    · split
      · exact h.segmentOp
      · exact h
    · split
      · split
        · exact h.scopeOp
        · exact h
      · split
        · split
          · exact h.regionCommitOp
          · split
            · exact h.regionReleaseOp
            · exact h
        · split
          · exact h.watchArmOp
          · split
            · exact { h with }
            · exact h

theorem TablesWf.writeOnly {s : State} {w : Writer} {index sub v : Nat} (h : TablesWf s) : TablesWf (writeOnly s w index sub v).1 := by
  unfold Machine.writeOnly
  split
  · exact h.commitWrite
  · split
    · exact h.restoreSiteOp
    · split
      · split
        · exact h.flushOp
        · split
          · exact h.restoreOp
          · exact h.clearFallbackOp
      · split
        · exact h.retryOp
        · split
          · exact h.frame.odBump
          · split
            · exact h.coldStartOp
            · split
              · exact h.clearPairOp
              · split
                · exact h.frame.odBump
                · split
                  · exact h.flushPrefixOp
                  · split
                    · exact h.clearOverflowOp
                    · exact h.sil.odBump

theorem TablesWf.writeSetting {s : State} {w : Writer} {index sub : Nat} {r : OdRow} {v : Bytes} (h : TablesWf s)
    : TablesWf (writeSetting s w index sub r v).1 := by
  unfold Machine.writeSetting
  dsimp only
  split
  · split
    · exact h
    · exact h.setSelection.odBump
  · split
    · exact h.custodyOp
    · split
      · exact h
      · exact h.odStore.afterWrite

theorem TablesWf.writeKey {s : State} {index sub : Nat} {r : OdRow} {v : Bytes} (h : TablesWf s)
    : TablesWf (writeKey s index sub r v).1 := by
  unfold Machine.writeKey
  dsimp only
  split
  · exact h
  · split
    · split
      · exact h
      · split
        · exact h
        · exact h.odStore
    · split
      · exact h
      · split
        · exact h
        · exact h.odStore

theorem TablesWf.odWriteOp {s : State} {w : Writer} {index sub : Nat} {v : Bytes} (h : TablesWf s)
    : TablesWf (odWriteOp s w index sub v).1 := by
  unfold Machine.odWriteOp
  split
  · exact h
  · split
    · exact h
    · split
      · exact h
      · exact h
      · exact h.shadowOp
      · split
        · exact h
        · exact h.writeOnly
      · split
        · exact h.writeKey
        · split
          · exact h
          · exact h.writeSetting

theorem TablesWf.odReadCmd {s : State} {i : Nat} {o : HOut} (h : TablesWf s) : TablesWf (odReadCmd s i o) := by
  unfold Machine.odReadCmd
  dsimp only
  split
  · exact h
  · split
    · exact h.finish
    · split
      · exact h.finish
      · split
        · exact h.finish
        · split
          · exact h.finish
          · exact h.hostWrite.finish

theorem TablesWf.odWriteCmd {s : State} {i : Nat} {o : HOut} {data : Option Bytes} (h : TablesWf s) : TablesWf (odWriteCmd s i o data) := by
  unfold Machine.odWriteCmd
  dsimp only
  split
  · exact h
  · split
    · exact h.operand.finish
    · split
      · exact h.operand
      · split
        · exact h.operand.odWriteOp.keep.holdCommit
        · split
          · exact h.operand.finish.odWriteOp
          · exact h.operand.odWriteOp.finish

theorem OutWf.execOdRead {i : Nat} {s : State} (h : TablesWf s) : OutWf (execOdRead i s) := .next (h.onCmd fun _ => h.odReadCmd)

theorem OutWf.execOdWrite {i : Nat} {data : Option Bytes} {s : State} (h : TablesWf s) : OutWf (execOdWrite i data s) :=
  .next (h.onCmd fun _ => h.odWriteCmd)

/-! ## Host commands -/

theorem OutWf.execCreateSq {i : Nat} {s : State} (h : TablesWf s) : OutWf (execCreateSq i s) := by
  unfold Machine.execCreateSq
  refine .next (h.onCmd fun _ => ?_)
  extract_lets +onlyGivenNames _ _ _ _ _
  split
  · exact h.finish
  · split
    · exact h.finish
    · exact h.setSq.finish

theorem OutWf.execDeleteSq {i : Nat} {s : State} (h : TablesWf s) : OutWf (execDeleteSq i s) := by
  unfold Machine.execDeleteSq
  dsimp only
  refine .next (h.onCmd fun _ => ?_)
  split
  · exact h.finish
  · exact .finish { h with sqs := Tbl.wf_del h.sqs _ }

theorem OutWf.execCreateRing {i : Nat} {s : State} (h : TablesWf s) : OutWf (execCreateRing i s) := by
  unfold Machine.execCreateRing
  refine .next (h.onCmd fun _ => ?_)
  extract_lets +onlyGivenNames _ _ _ _ _ _
  split
  · exact h.finish
  · split
    · exact h.finish
    · split
      · exact h.finish
      · extract_lets +onlyGivenNames _
        exact h.setRing.finish

theorem OutWf.execDeleteRing {i : Nat} {s : State} (h : TablesWf s) : OutWf (execDeleteRing i s) := by
  unfold Machine.execDeleteRing
  dsimp only
  refine .next (h.onCmd fun _ => ?_)
  split
  · exact h.finish
  · exact .finish { h with rings := Tbl.wf_del h.rings _ }

theorem OutWf.execSetEvents {i : Nat} {s : State} (h : TablesWf s) : OutWf (execSetEvents i s) := by
  unfold Machine.execSetEvents
  dsimp only
  refine .next (h.onCmd fun _ => ?_)
  split
  · split
    · exact h.finish
    · exact h.setRing.finish
  · exact h.finish

/-! ## Operations -/

theorem TablesWf.startEval {s : State} {c : Nat} {q : QOp} {tr : Bool} {a : Nat} {d : Desc} {nar : Bool} {m : Nat} (h : TablesWf s)
    : TablesWf (startEval s c q tr a d nar m) := by
  unfold Machine.startEval
  split
  next e =>
    extract_lets +onlyGivenNames _ _ _ _ _ _ _ _ k2 _ _ _ k5 _
    have hk2 : CoreWf k2 := { (h.frame.ofSnd e).core _ with active := Tbl.wf_set ((h.frame.ofSnd e).core _).active _ _ }
    have hk5 : CoreWf k5 := by
      unfold k5
      split
      · exact hk2.countEval.sampleEval
      · exact hk2.countEval.sampleEval.setSet
    split
    · exact (h.frame.ofSnd e).setCore hk5
    · exact ((h.frame.ofSnd e).setCore hk5).noteFallback

theorem OutWf.execOperationStart {core eng : Nat} {s : State} (h : TablesWf s) : OutWf (execOperationStart core eng s) := by
  unfold Machine.execOperationStart
  dsimp only
  split
  · exact .next h
  · split
    · exact .next h
    · split
      · exact .next h.stepFaultAt
      · refine .next (.resume ?_)
        split
        · exact h.startEval
        · exact h.setCore { h.core _ with active := Tbl.wf_set (h.core _).active _ _ }

theorem TablesWf.tagDumps {s : State} {c : Nat} {q : QOp} (h : TablesWf s) : TablesWf (tagDumps s c q) := by
  unfold Machine.tagDumps
  dsimp only
  split
  · exact h
  · split
    · exact { h with }
    · exact .updCore { h with } fun k hk => { hk with }

theorem CoreWf.opDone {k : Core} {eng : Nat} {a : ActOp} {now : Nat} (h : CoreWf k) : CoreWf (k.opDone eng a now) := by
  unfold Core.opDone
  dsimp only
  split
  · exact { h with active := Tbl.wf_del h.active _ }
  · exact .setSet { h with active := Tbl.wf_del h.active _ }

theorem TablesWf.bearTuning {s : State} {c : Nat} {a : ActOp} (h : TablesWf s) : TablesWf (bearTuning s c a) := by
  unfold Machine.bearTuning
  dsimp only
  split
  · exact h
  · split
    · exact h
    · refine h.foldl fun s _ hs => ?_
      split
      · exact hs
      · exact hs.bearWait

theorem OutWf.execOperationTakesEffect {core eng : Nat} {s : State} (h : TablesWf s) : OutWf (execOperationTakesEffect core eng s) := by
  unfold Machine.execOperationTakesEffect
  extract_lets +onlyGivenNames _
  split
  · exact .next h
  · split
    · exact .next h
    · extract_lets +onlyGivenNames k2 s1
      have hk2 : CoreWf k2 := .opDone ((h.core _).readSoftLines.run .opEffects)
      have h1 : TablesWf s1 := (h.setCore hk2).bearTuning.tagDumps.settle
      refine .next ?_
      split
      · split
        · exact h1.advance
        · exact h1
      · exact h1

/-! ## The management segment -/

theorem TablesWf.countSeg {s : State} {sub : Nat} (h : TablesWf s) : TablesWf (countSeg s sub) := h.frame

theorem OptWf.takeToken {s : State} {mac : Nat} (h : TablesWf s) : OptWf (takeToken s mac) := by
  unfold Machine.takeToken
  extract_lets +onlyGivenNames _ _ _ _ _ _ _ _
  split
  · exact .ofSome h.frame
  · exact .ofNone

theorem TablesWf.queueTx {s : State} {dst : Nat} {msg : Bytes} (h : TablesWf s) : TablesWf (queueTx s dst msg) := by
  unfold Machine.queueTx
  dsimp only
  split
  · exact h.countSeg
  · exact h.frame

theorem TablesWf.keepTurn {s : State} {f : MFrame} {sid : Nat} {resp : Bytes} (h : TablesWf s) : TablesWf (keepTurn s f sid resp) := by
  unfold Machine.keepTurn
  dsimp only
  split
  · exact h.frame
  · split
    · exact { h with sessions := Tbl.wf_set h.sessions _ _ }
    · exact h

theorem TablesWf.lateResponse {s : State} {dst sid seq : Nat} {r : Bytes} (h : TablesWf s) : TablesWf (lateResponse s dst sid seq r) := by
  unfold Machine.lateResponse
  dsimp only
  refine .queueTx ?_
  split
  · split
    · exact { h with sessions := Tbl.wf_set h.sessions _ _ }
    · exact h
  · exact h.frame

theorem TablesWf.lateAnswer {s : State} {f : MFrame} {a : Answer} (h : TablesWf s) : TablesWf (lateAnswer s f a) := h.lateResponse

theorem TablesWf.touchPeer {s : State} {f : MFrame} {x : Option Session} (h : TablesWf s) : TablesWf (touchPeer s f x) := by
  unfold Machine.touchPeer
  dsimp only
  split
  · exact { h with sessions := Tbl.wf_set h.sessions _ _ }
  · split
    · exact h.frame
    · exact h

theorem TablesWf.receive {s : State} {f : MFrame} {type : Nat} {act : State → Option Session → State × Option Answer} (h : TablesWf s)
    (hact : ∀ s x, TablesWf s → TablesWf (act s x).1) : TablesWf (receive s f type act) := by
  unfold Machine.receive
  split
  · exact h
  · split
    · exact h.countSeg
    · split
      · exact h.countSeg.countSeg
      · split
        · exact h.countSeg.countSeg
        · split
          · exact h
          · extract_lets s1
            have h1 : TablesWf s1 := h.countSeg
            split
            · exact h1.countSeg
            next s2 e =>
              have h2 : TablesWf s2 := (OptWf.takeToken h1).get e
              split
              · extract_lets s3
                have h3 : TablesWf s3 := h2.countSeg
                split
                · exact { h3 with }
                · exact h3
              · split
                · exact h2.countSeg
                · extract_lets s3
                  have h3 : TablesWf s3 := h2.countSeg.touchPeer
                  split
                  · exact h3
                  · exact h3.queueTx
                · split
                  next s3 a e =>
                    have h3 : TablesWf s3 := (hact _ _ h2).ofFst e
                    split
                    · exact h3.keepTurn
                    · exact h3.keepTurn.queueTx

theorem TablesWf.answerFor {s : State} {f : MFrame} {x : Option Session} {type status : Nat} (h : TablesWf s)
    : TablesWf (answerFor s f x type status).1 :=
  h.changeCount

theorem TablesWf.readSeg {s : State} {f : MFrame} {x : Option Session} (h : TablesWf s) : TablesWf (readSeg s f x).1 := by
  unfold Machine.readSeg
  extract_lets m
  split
  next t a e =>
    have ht : TablesWf t := h.answerFor.ofFst e
    split
    · exact ht
    · split
      · exact ht
      · split
        · exact ht
        · split
          · exact ht
          · exact ht

theorem OutWf.execRead {f : MFrame} {s : State} (h : TablesWf s) : OutWf (execRead f s) := .next (h.receive fun _ _ hs => hs.readSeg)

theorem TablesWf.writeSeg {s : State} {f : MFrame} {x : Option Session} (h : TablesWf s) : TablesWf (writeSeg s f x).1 := by
  unfold Machine.writeSeg
  extract_lets m told
  have htold (s : State) (c : Nat) (hs : TablesWf s) : TablesWf (told s c).1 :=
    TablesWf.answerFor (f := f) (x := x) (type := 0x82) (status := c) hs
  split
  · exact htold _ _ h
  · split
    · exact htold _ _ h
    · split
      next s1 c e =>
        have h1 : TablesWf s1 := h.odWriteOp.ofFst e
        split
        · exact h1.holdCommit
        · exact htold _ _ h1

theorem OutWf.execWrite {f : MFrame} {s : State} (h : TablesWf s) : OutWf (execWrite f s) := .next (h.receive fun _ _ hs => hs.writeSeg)

theorem OutWf.execIdent {f : MFrame} {s : State} (h : TablesWf s) : OutWf (execIdent f s) := by
  unfold Machine.execIdent
  dsimp only
  split
  · exact .next (h.receive fun s _ hs => hs)
  · exact .next (h.receive fun s _ hs => hs.frame.frame)

theorem OutWf.execIdentHoldoff {peer : Nat} {s : State} (h : TablesWf s) : OutWf (execIdentHoldoff peer s) := by
  unfold Machine.execIdentHoldoff
  dsimp only
  split
  · split
    · exact .next h.frame.lateResponse
    · exact .next h
  · exact .next h

theorem TablesWf.openPartSeg {s : State} {f : MFrame} (h : TablesWf s) : TablesWf (openPartSeg s f).1 := by
  unfold Machine.openPartSeg
  extract_lets +onlyGivenNames ps rest _ wait gone
  have hwait : TablesWf wait := h.frame
  have hgone : TablesWf gone := h.frame
  split
  · split
    · exact hgone
    · exact hwait
  · extract_lets +onlyGivenNames n
    split
    · exact hgone
    · split
      · exact hwait
      · split
        next s1 st id rsp e =>
          have h1 : TablesWf s1 := hgone.openSession.ofFst e
          split
          · exact h1
          · exact h1

theorem OutWf.execOpenPart {f : MFrame} {s : State} (h : TablesWf s) : OutWf (execOpenPart f s) :=
  .next (h.receive fun _ _ hs => hs.openPartSeg)

theorem OutWf.execOpenPartTimeout {peer : Nat} {s : State} (h : TablesWf s) : OutWf (execOpenPartTimeout peer s) := by
  unfold Machine.execOpenPartTimeout
  dsimp only
  split
  · split
    · exact .next h.frame
    · exact .next h
  · exact .next h

theorem OutWf.execClose {f : MFrame} {s : State} (h : TablesWf s) : OutWf (execClose f s) := by
  unfold Machine.execClose
  refine .next (h.receive fun s _ hs => ?_)
  split
  · exact hs.endSession
  · exact hs

theorem TablesWf.fwPartSeg {s : State} {f : MFrame} (h : TablesWf s) : TablesWf (fwPartSeg s f).1 := by
  unfold Machine.fwPartSeg
  dsimp only
  split
  · exact h
  · exact h.frame

theorem OutWf.execFwPart {f : MFrame} {s : State} (h : TablesWf s) : OutWf (execFwPart f s) := .next (h.receive fun _ _ hs => hs.fwPartSeg)

theorem TablesWf.fwCommitSeg {s : State} {f : MFrame} (h : TablesWf s) : TablesWf (fwCommitSeg s f).1 := by
  unfold Machine.fwCommitSeg
  dsimp only
  split
  · exact h.frame
  · exact h.frame.writeBank

theorem OutWf.execFwCommit {f : MFrame} {s : State} (h : TablesWf s) : OutWf (execFwCommit f s) :=
  .next (h.receive fun _ _ hs => hs.fwCommitSeg)

theorem OutWf.execFwTransferTimeout {peer : Nat} {s : State} (h : TablesWf s) : OutWf (execFwTransferTimeout peer s) := by
  unfold Machine.execFwTransferTimeout
  dsimp only
  split
  · split
    · exact .next h.frame
    · exact .next h
  · exact .next h

theorem TablesWf.sendFrames {s : State} {n : Nat} (h : TablesWf s) : TablesWf (sendFrames s n) := h.frame.foldl fun _ _ hs => hs.emit
theorem TablesWf.plcaCollision {s : State} (h : TablesWf s) : TablesWf (plcaCollision s) := h.frame.countSeg

theorem TablesWf.csmaCollision {s : State} (h : TablesWf s) : TablesWf (csmaCollision s) := by
  unfold Machine.csmaCollision
  dsimp only
  split
  · exact h
  · split
    · exact h.countSeg.frame.countSeg
    · exact h.countSeg.frame

theorem OutWf.execTransmitOpportunity {collided : Bool} {s : State} (h : TablesWf s) : OutWf (execTransmitOpportunity collided s) := by
  unfold Machine.execTransmitOpportunity
  dsimp only
  split
  · exact .next h
  · split
    · split
      · split
        · exact .next h.emit.plcaCollision
        · exact .next h.emit.sendFrames
      · split
        · exact .next h.plcaCollision
        · exact .next h.sendFrames
    · split
      · exact .next h.csmaCollision
      · exact .next h.sendFrames

theorem OutWf.execTxAbandon {s : State} (h : TablesWf s) : OutWf (execTxAbandon s) := .next (h.frame.foldl fun _ _ hs => hs.countSeg)

theorem OutWf.execPlcaFallback {beacon : Bool} {s : State} (h : TablesWf s) : OutWf (execPlcaFallback beacon s) := by
  unfold Machine.execPlcaFallback
  dsimp only
  split
  · exact .next h
  · split
    · exact .next h.frame
    · split
      · exact .next h.frame.countSeg
      · exact .next h

theorem OutWf.execPlcaCollisionQuiet {s : State} (h : TablesWf s) : OutWf (execPlcaCollisionQuiet s) := by
  unfold Machine.execPlcaCollisionQuiet
  dsimp only
  split
  · split
    · exact .next h.frame
    · exact .next h
  · exact .next h

/-! ## Wakes -/

theorem TablesWf.resumeCommit {s : State} {x : HeldCommit} (h : TablesWf s) : TablesWf (resumeCommit s x) := by
  unfold Machine.resumeCommit
  split
  next s1 c e =>
    have h1 : TablesWf s1 := h.regionCommitOp.commitCounted.ofFst e
    split
    · exact h1.holdCommit
    · split
      · exact h1
      · exact h1.onCmd fun o => h1.finish
      · dsimp only
        exact .lateAnswer h1.answerFor

theorem TablesWf.resumeCommits {s : State} (h : TablesWf s) : TablesWf (resumeCommits s) := by
  unfold Machine.resumeCommits
  dsimp only
  refine .foldl { h with } fun s _ hs => ?_
  split
  · exact hs.holdCommit
  · exact hs.resumeCommit

theorem TablesWf.wakeOver {s : State} (h : TablesWf s) : TablesWf (wakeOver s) := h.wakesGoOn.resumeCommits

theorem OutWf.execWakeRequest {look : WakeLook} {reason : Nat} {s : State} (h : TablesWf s) : OutWf (execWakeRequest look reason s) := by
  unfold Machine.execWakeRequest
  extract_lets +onlyGivenNames _ _ _
  split
  · exact .next h
  · extract_lets +onlyGivenNames s1
    have h1 : TablesWf s1 := by
      unfold s1
      split
      · exact h.wakeForUpkeep
      · exact h
    exact .next h1.readMonitors.wakeRegion

theorem OutWf.execRegionWake {g : Nat} {s : State} (h : TablesWf s) : OutWf (execRegionWake g s) := by
  unfold Machine.execRegionWake
  split
  · split
    · exact .next h.wakeDone.wakeOver
    · exact .next h
  · exact .next h

theorem OutWf.execWakePgTimeout {g : Nat} {s : State} (h : TablesWf s) : OutWf (execWakePgTimeout g s) := by
  unfold Machine.execWakePgTimeout
  split
  · split
    · exact .next h.wakeFails.wakeOver
    · exact .next h
  · exact .next h

theorem OutWf.execRegionLost {g cause status : Nat} {s : State} (h : TablesWf s) : OutWf (execRegionLost g cause status s) := by
  unfold Machine.execRegionLost
  split
  · exact .next h.loseRegion.wakeOver
  · exact .next h

theorem OutWf.execRetryPgTimeout {g : Nat} {s : State} (h : TablesWf s) : OutWf (execRetryPgTimeout g s) := by
  unfold Machine.execRetryPgTimeout
  dsimp only
  split
  · split
    · exact .next h.retryFailed.wakeOver
    · exact .next h
  · exact .next h

theorem OutWf.execHoldEnd {s : State} (h : TablesWf s) : OutWf (execHoldEnd s) := by
  unfold Machine.execHoldEnd
  split
  · split
    · exact .next h
    · extract_lets d woken _ _ s1 s2 s3
      have h' : TablesWf { s with host := { s.host with handles := Tbl.map (fun _ h => h.shift s.now d) s.host.handles } } :=
        { h with handles := by dsimp only; exact Tbl.wf_map h.handles _ }
      have h1 : TablesWf s1 := by
        refine h'.mapCores rfl fun c k hk => ?_
        split
        · exact hk.thaw
        · exact hk
      have h2 : TablesWf s2 := by
        refine h1.foldl fun s c hs => ?_
        split
        · exact hs.startClock
        · exact hs
      have h3 : TablesWf s3 := h2.foldl fun s n hs => hs.advance
      exact .next h3.postEvent
  · exact .next h

end Sys2Proof.Proofs
end

section
/-!
SUPPORT. Every command, the tick of the idle machine, and with them every step keep the tables.
-/
namespace Sys2Proof.Proofs
open Sys2Proof.Machine Sys2Proof.Safety

theorem TablesWf.sendSillage {s : State} (h : TablesWf s) : TablesWf (sendSillage s) := by
  unfold Machine.sendSillage
  dsimp only
  split
  · split
    · exact .emit { h with }
    · exact h
  · exact h

theorem TablesWf.idleTick {s : State} (h : TablesWf s) : TablesWf (idleTick s) := .units h.sendSillage rfl

/-- The one dispatch: each command by the lemma about its meaning. -/
theorem OutWf.exec {s : State} (h : TablesWf s) (i : Instr) : OutWf (exec i s) := by
  cases i with
  | add => exact .execAdd h
  | sub => exact .execSub h
  | and => exact .execAnd h
  | or => exact .execOr h
  | xor => exact .execXor h
  | shl => exact .execShl h
  | shr => exact .execShr h
  | sra => exact .execSra h
  | mul => exact .execMul h
  | slt => exact .execSlt h
  | sltu => exact .execSltu h
  | addi => exact .execAddi h
  | andi => exact .execAndi h
  | ori => exact .execOri h
  | xori => exact .execXori h
  | shli => exact .execShli h
  | shri => exact .execShri h
  | srai => exact .execSrai h
  | lui => exact .execLui h
  | ld => exact .execLd h
  | st => exact .execSt h
  | ld64 => exact .execLd64 h
  | st64 => exact .execSt64 h
  | beq => exact .execBeq h
  | bne => exact .execBne h
  | blt => exact .execBlt h
  | bge => exact .execBge h
  | bltu => exact .execBltu h
  | bgeu => exact .execBgeu h
  | jmp => exact .execJmp h
  | jal => exact .execJal h
  | jr => exact .execJr h
  | loop => exact .execLoop h
  | dld => exact .execDld h
  | dst => exact .execDst h
  | daddr => exact .execDaddr h
  | daddc => exact .execDaddc h
  | csrr => exact .execCsrr h
  | csrw => exact .execCsrw h
  | cimAsel => exact .execCimAsel h
  | slotNop => exact .execSlotNop h
  | tmCopy => exact .execTmCopy h
  | tmFill => exact .execTmFill h
  | shaDigest => exact .execShaDigest h
  | veArith => exact .execVeArith h
  | veNorm => exact .execVeNorm h
  | veAct => exact .execVeAct h
  | veFunc => exact .execVeFunc h
  | veCvt => exact .execVeCvt h
  | accClr => exact .execAccClr h
  | accOut => exact .execAccOut h
  | accAdd => exact .execAccAdd h
  | aeQk => exact .execAeQk h
  | aeSm => exact .execAeSm h
  | aePv => exact .execAePv h
  | spSample => exact .execSpSample h
  | cimEval => exact .execCimEval h
  | cimEvalt => exact .execCimEvalt h
  | qPush => exact .execQPush h
  | qPop => exact .execQPop h
  | rmread => exact .execRmread h
  | nred => exact .execNred h
  | syncWait => exact .execSyncWait h
  | syncSignal => exact .execSyncSignal h
  | qwait => exact .execQwait h
  | fence => exact .execFence h
  | step => exact .execStep h
  | tag => exact .execTag h
  | operationStart => exact .execOperationStart h
  | waitSatisfied => exact .execWaitSatisfied h
  | signalRelease => exact .execSignalRelease h
  | clockStop => exact .execClockStop h
  | budgetOverrun => exact .execBudgetOverrun h
  | waitLimit => exact .execWaitLimit h
  | activityOverrun => exact .execActivityOverrun h
  | readReq => exact .execReadReq h
  | mergeReq => exact .execMergeReq h
  | mergeWindowClose => exact .execMergeWindowClose h
  | readReply => exact .execReadReply h
  | mergeReply => exact .execMergeReply h
  | remoteWrite => exact .execRemoteWrite h
  | writeAck => exact .execWriteAck h
  | reduce => exact .execReduce h
  | signal => exact .execSignal h
  | stepToken => exact .execStepToken h
  | packetHop => exact .execPacketHop h
  | ifaceOut => exact .execIfaceOut h
  | ifaceIn => exact .execIfaceIn h
  | fault => exact .execFault h
  | imageFlush => exact .execImageFlush h
  | flushDrained => exact .execFlushDrained h
  | faultActionStop => exact .execFaultActionStop h
  | faultActionRestart => exact .execFaultActionRestart h
  | coreDead => exact .execCoreDead h
  | sequencerWatchdog => exact .execSequencerWatchdog h
  | heartbeatMissing => exact .execHeartbeatMissing h
  | relocation => exact .execRelocation h
  | createSq => exact .execCreateSq h
  | deleteSq => exact .execDeleteSq h
  | createRing => exact .execCreateRing h
  | deleteRing => exact .execDeleteRing h
  | setEvents => exact .execSetEvents h
  | odRead => exact .execOdRead h
  | odWrite => exact .execOdWrite h
  | submit => exact .execSubmit h
  | cancel => exact .execCancel h
  | load => exact .execLoad h
  | unload => exact .execUnload h
  | swap => exact .execSwap h
  | relocate => exact .execRelocate h
  | window => exact .execWindow h
  | tune => exact .execTune h
  | attest => exact .execAttest h
  | calibrate => exact .execCalibrate h
  | vigilArm => exact .execVigilArm h
  | vigilDisarm => exact .execVigilDisarm h
  | counterDump => exact .execCounterDump h
  | fwWrite => exact .execFwWrite h
  | fwActivate => exact .execFwActivate h
  | sessionOpen => exact .execSessionOpen h
  | sessionClose => exact .execSessionClose h
  | keyload => exact .execKeyload h
  | restartWarm => exact .execRestartWarm h
  | restartCold => exact .execRestartCold h
  | nop => exact .execNop h
  | flit => exact .execFlit h
  | linkTrained => exact .execLinkTrained h
  | moduleDown => exact .execModuleDown h
  | retrainTimeout => exact .execRetrainTimeout h
  | mrdCpl => exact .execMrdCpl h
  | mrdErr => exact .execMrdErr h
  | ewr => exact .execEwr h
  | erd => exact .execErd h
  | sqDoorbell => exact .execSqDoorbell h
  | ringDoorbell => exact .execRingDoorbell h
  | adminCommit => exact .execAdminCommit h
  | adminRelease => exact .execAdminRelease h
  | pipelineSlot => exact .execPipelineSlot h
  | frameReturn => exact .execFrameReturn h
  | spResult => exact .execSpResult h
  | blockClose => exact .execBlockClose h
  | int4Compaction => exact .execInt4Compaction h
  | park => exact .execPark h
  | deadlinePassed => exact .execDeadlinePassed h
  | shardArrival => exact .execShardArrival h
  | shardReadback => exact .execShardReadback h
  | swapBarrierClosed => exact .execSwapBarrierClosed h
  | drainDeadline => exact .execDrainDeadline h
  | swapActivate => exact .execSwapActivate h
  | swapGroupTimeout => exact .execSwapGroupTimeout h
  | rebind => exact .execRebind h
  | ageTick => exact .execAgeTick h
  | sentinelForce => exact .execSentinelForce h
  | intercalarySlot => exact .execIntercalarySlot h
  | upkeepSliceEnd => exact .execUpkeepSliceEnd h
  | dozeEntry => exact .execDozeEntry h
  | darkEntry => exact .execDarkEntry h
  | wakeRequest => exact .execWakeRequest h
  | neighbourRecheck => exact .execNeighbourRecheck h
  | wakeWaitLimit => exact .execWakeWaitLimit h
  | regionWake => exact .execRegionWake h
  | wakePgTimeout => exact .execWakePgTimeout h
  | regionLost => exact .execRegionLost h
  | retry w _ _ => exact .execRetry (w := w) h
  | retryPgTimeout => exact .execRetryPgTimeout h
  | arrayRailLost => exact .execArrayRailLost h
  | auxRailLost => exact .execAuxRailLost h
  | auxHoldLimit => exact .execAuxHoldLimit h
  | auxRailReturn => exact .execAuxRailReturn h
  | optRailLost => exact .execOptRailLost h
  | optRailReturn => exact .execOptRailReturn h
  | telemetry => exact .execTelemetry h
  | powerUpdate => exact .execPowerUpdate h
  | gateUpdate => exact .execGateUpdate h
  | thermalCapUpdate => exact .execThermalCapUpdate h
  | diodeSample => exact .execDiodeSample h
  | pairFault => exact .execPairFault h
  | trayRead => exact .execTrayRead h
  | trayStale => exact .execTrayStale h
  | trayLost => exact .execTrayLost h
  | holdEnd => exact .execHoldEnd h
  | holdLimit => exact .execHoldLimit h
  | hardwareTrip => exact .execHardwareTrip h
  | coldStartRequest w _ => exact .execColdStartRequest (w := w) h
  | coldStart => exact .execColdStart h
  | warmStart => exact .execWarmStart h
  | recoveryStart => exact .execRecoveryStart h
  | startComplete => exact .execStartComplete h
  | startFailed => exact .execStartFailed h
  | managementWatchdog => exact .execManagementWatchdog h
  | lowerTreeBuilt => exact .execLowerTreeBuilt h
  | blockSave => exact .execBlockSave h
  | shadowWrite => exact .execShadowWrite h
  | shadowDiscard => exact .execShadowDiscard h
  | shadowTimeout => exact .execShadowTimeout h
  | regionCommit => exact .execRegionCommit h
  | regionRelease w _ => exact .execRegionRelease (w := w) h
  | segmentCommit => exact .execSegmentCommit h
  | scopeCommit => exact .execScopeCommit h
  | watchArm => exact .execWatchArm h
  | watchDisarm w _ => exact .execWatchDisarm (w := w) h
  | clearWarnings w _ => exact .execClearWarnings (w := w) h
  | flush w _ => exact .execFlush (w := w) h
  | restoreDefaults w _ => exact .execRestoreDefaults (w := w) h
  | clearFallback w _ => exact .execClearFallback (w := w) h
  | flushPrefix w _ => exact .execFlushPrefix (w := w) h
  | clearPairFault w _ _ => exact .execClearPairFault (w := w) h
  | clearFlags w _ => exact .execClearFlags (w := w) h
  | clearOverflow => exact .execClearOverflow h
  | sillageMark w _ => exact .execSillageMark (w := w) h
  | restore w _ _ => exact .execRestore (w := w) h
  | custodyEnable => exact .execCustodyEnable h
  | read => exact .execRead h
  | write => exact .execWrite h
  | ident => exact .execIdent h
  | identHoldoff => exact .execIdentHoldoff h
  | openPart => exact .execOpenPart h
  | openPartTimeout => exact .execOpenPartTimeout h
  | close => exact .execClose h
  | fwPart => exact .execFwPart h
  | fwCommit => exact .execFwCommit h
  | fwTransferTimeout => exact .execFwTransferTimeout h
  | txAbandon => exact .execTxAbandon h
  | plcaFallback => exact .execPlcaFallback h
  | sessionIdle => exact .execSessionIdle h
  | data => exact .execData h
  | wack => exact .execWack h
  | result => exact .execResult h
  | ack => exact .execAck h
  | hello => exact .execHello h
  | helloPeriod => exact .execHelloPeriod h
  | almanacExchange => exact .execAlmanacExchange h
  | almanacRequest => exact .execAlmanacRequest h
  | almanacReply => exact .execAlmanacReply h
  | bound => exact .execBound h
  | activate => exact .execActivate h
  | swapVerified => exact .execSwapVerified h
  | swapRewrite => exact .execSwapRewrite h
  | swapRewritten => exact .execSwapRewritten h
  | swapSwitch => exact .execSwapSwitch h
  | swapSwitched => exact .execSwapSwitched h
  | swapRollback => exact .execSwapRollback h
  | controlFault => exact .execControlFault h
  | flushStop => exact .execFlushStop h
  | flushRestart => exact .execFlushRestart h
  | flushed => exact .execFlushed h
  | rejected => exact .execRejected h
  | replayTimeout => exact .execReplayTimeout h
  | peerUnreachable => exact .execPeerUnreachable h
  | portDown => exact .execPortDown h
  | portRetrain => exact .execPortRetrain h
  | snapshot => exact .execSnapshot h
  | watchDump => exact .execWatchDump h
  | handleProgressTimeout => exact .execHandleProgressTimeout h
  | vigilDump => exact .execVigilDump h
  | periodicMark => exact .execPeriodicMark h
  | operationTakesEffect => exact .execOperationTakesEffect h
  | undefinedOpcode => exact .execUndefinedOpcode h
  | stepLeavesImage => exact .execStepLeavesImage h
  | arrayProgrammed => exact .execArrayProgrammed h
  | aonRailLost => exact .execAonRailLost h
  | managementMemoryError => exact .execManagementMemoryError h
  | gateWindow => exact .execGateWindow h
  | ackDelay => exact .execAckDelay h
  | transmitOpportunity => exact .execTransmitOpportunity h
  | plcaCollisionQuiet => exact .execPlcaCollisionQuiet h
  | irqIntervalExpiry => exact .execIrqIntervalExpiry h
  | linkL1Entry => exact .execLinkL1Entry h
  | attestSigned => exact .execAttestSigned h

/-- A step is the command at the front of the queue, or a tick when none waits. -/
theorem OutWf.step {s : State} (h : TablesWf s) : OutWf (step s) := by
  unfold Machine.step
  split
  · exact .next h.idleTick
  · exact .exec h.frame _

/-- Settles O60: the invariant by its parts (`tablesOk_iff`), kept by every command and by the idle tick (`OutWf.step`). -/
theorem stepsKeepTables : Obligations.StepsKeepTables := by
  unfold Obligations.StepsKeepTables
  intro s t hs hstep
  exact tablesOk_iff.2 (OutWf.step (tablesOk_iff.1 hs) t hstep)

end Sys2Proof.Proofs
end

section
/-!
SUPPORT. What the movers and the accumulator operations write when they take effect (R78 to R80, R152 to R155).
-/
namespace Sys2Proof.Machine

/-! ## Walks of one line (R152, R176) -/

/-- A descriptor of one line reads back as that line. -/
theorem walkOf_descOf_line {r c : Nat} (hr : r < 2048) (hc : c < 32) :
    walkOf (descOf r c 1 1 0 0 0 0 0) = { row := r, col := c, nin := 1, nout := 1, dri := 0, dci := 0, dro := 0, dco := 0, fmt := 0 } := by
  have hv : (descOf r c 1 1 0 0 0 0 0).toNat = r * 2 ^ 117 + c * 2 ^ 112 := by
    simp only [descOf, BitVec.toNat_ofNat, Nat.mod_eq_of_lt hr, Nat.mod_eq_of_lt hc]
    omega
  have hrow : bits (descOf r c 1 1 0 0 0 0 0).toNat 127 117 = r := by rw [hv, bits]; omega
  have hcol : bits (descOf r c 1 1 0 0 0 0 0).toNat 116 112 = c := by rw [hv, bits]; omega
  have hlow {hi lo : Nat} (h : hi < 112) (hl : lo ≤ hi) : bits (descOf r c 1 1 0 0 0 0 0).toNat hi lo = 0 := by
    have hpow : 2 ^ lo * (2 ^ (hi - lo + 1) * 2 ^ (111 - hi)) = 2 ^ 112 := by
      rw [← pow_add, ← pow_add]; congr 1; omega
    have hsplit : r * 2 ^ 117 + c * 2 ^ 112 = 2 ^ lo * (2 ^ (hi - lo + 1) * (2 ^ (111 - hi) * (r * 32 + c))) := by
      rw [← Nat.mul_assoc (2 ^ (hi - lo + 1)), ← Nat.mul_assoc, hpow]; omega
    rw [hv, bits, hsplit, Nat.mul_div_cancel_left _ (by positivity), Nat.mul_mod_right]
  have hzero (n : Nat) : signedOf n 0 = 0 := by simp [signedOf, bitAt]
  simp [walkOf, hrow, hcol, hlow, hzero]

theorem Walk.lines_line (r c : Nat) (hc : c < 32) (f : Nat) : Walk.lines ⟨r, c, 1, 1, 0, 0, 0, 0, f⟩ = [((r : Int), c)] := by
  simp [Walk.lines]; omega

/-- The one line of a descriptor of one line. -/
theorem lines_descOf_line {r c : Nat} (hr : r < 2048) (hc : c < 32) :
    (walkOf (descOf r c 1 1 0 0 0 0 0)).lines = [((r : Int), c)] := by
  rw [walkOf_descOf_line hr hc, Walk.lines_line r c hc]

/-- A copy of one line writes that line alone, whether or not it is the source line (R155). -/
theorem copyOrder_line {wd ws : Walk} {l m : Int × Nat} (hd : wd.lines = [l]) (hs : ws.lines = [m]) :
    copyOrder wd ws = [(0, l)] := by
  simp only [copyOrder, hd, hs]
  split_ifs
  · rfl
  · have hw : copyWindow [m] 0 l = 1 := by
      by_cases h : m = l <;> simp [copyWindow, h]
    simp [hw, List.range_succ_eq_map]

/-! ## Lines of the banks -/

/-- A line of the banks reads as it was written. -/
theorem Core.writeLine_read {k : Core} (hm : Memory.wf k.mem) {r : Nat} (hr : r < 1280) (c : Nat) (b : Bytes) :
    (k.writeLine r c b).mem.read (2048 * r + 64 * c) 64 = slice b 0 64 := by
  simpa [Core.writeLine, hr, Core.putBytes] using Memory.read_write hm (2048 * r + 64 * c) (slice b 0 64)

theorem slice_all {b : Bytes} {n : Nat} (h : b.length = n) : slice b 0 n = b := by
  subst h; rw [slice_eq_take (by omega)]; simp

@[simp] theorem Memory.length_read (m : Memory) (a n : Nat) : (m.read a n).length = n := by simp [Memory.read]

/-- A line of a pattern of 8 bytes is the pattern eight times (R153). -/
theorem fillLine_words (pat : W64) : fillLine pat 3 = (List.replicate 8 (leBytes 8 pat.toNat)).flatten := by
  rfl

/-! ## Accumulator tiles -/

theorem Tbl.find_filter_key {α : Type} (p : Nat → Bool) (t : Tbl α) (i : Nat) :
    Tbl.find (t.filter fun e => p e.1) i = if p i then Tbl.find t i else none := by
  induction t with
  | nil => simp
  | cons e t ih =>
    obtain ⟨j, v⟩ := e
    by_cases hj : p j <;> by_cases hi : i = j <;> simp_all [Tbl.find]

@[simp] theorem Core.statPut_acc (k : Core) (t : Nat) (v : W64) : (k.statPut t v).acc = k.acc := rfl

theorem Core.accClear_accGet (k : Core) (t u : Nat) {e : Nat} (he : e < 512) :
    (k.accClear t).accGet u e = if u = t then 0 else k.accGet u e := by
  have hu : (512 * u + e) / 512 = u := by omega
  simp only [Core.accClear, Core.accGet, Core.statPut_acc, Tbl.get, Tbl.find_filter_key (fun i => decide (i / 512 ≠ t)), hu]
  by_cases h : u = t <;> simp [h]

@[simp] theorem Core.count_accGet (k : Core) (b i n t e : Nat) : (k.count b i n).accGet t e = k.accGet t e := by
  simp only [Core.accGet, Core.count_acc]

end Sys2Proof.Machine
end

section
/-!
SUPPORT. The statement of the results of the movers and the accumulator operations (R78 to R80, R152 to R155).
-/
namespace Sys2Proof.Proofs
open Sys2Proof.Machine

theorem run_tmFill_line {k : Core} {a : ActOp} {r c : Nat} {pat : W64} (hm : Memory.wf k.mem) (hr : r < 1248) (hc : c < 32)
    (ha : a.q.op = .tmFill (descOf r c 1 1 0 0 0 0 0) pat 3) :
    (Effects.run (opEffects k a) k).mem.read (2048 * r + 64 * c) 64 = (List.replicate 8 (leBytes 8 pat.toNat)).flatten := by
  simp only [opEffects, ha, counted, tmFillEff, lines_descOf_line (show r < 2048 by omega) hc, Effects.run, List.map_cons, List.map_nil,
    List.cons_append, List.nil_append, List.foldl_cons, List.foldl_nil, Core.count_mem, Int.toNat_natCast]
  rw [Core.writeLine_read hm (by omega), slice_all (by simp [fillLine]), fillLine_words]

theorem run_tmCopy_line {k : Core} {a : ActOp} {r c r' c' : Nat} (hm : Memory.wf k.mem) (hr : r < 1248) (hc : c < 32) (hr' : r' < 1248)
    (hc' : c' < 32) (ha : a.q.op = .tmCopy (descOf r c 1 1 0 0 0 0 0) (descOf r' c' 1 1 0 0 0 0 0)) :
    (Effects.run (opEffects k a) k).mem.read (2048 * r + 64 * c) 64 = k.mem.read (2048 * r' + 64 * c') 64 := by
  have hd := lines_descOf_line (show r < 2048 by omega) hc
  have hs := lines_descOf_line (show r' < 2048 by omega) hc'
  have hsrc : k.readLine r' c' = k.mem.read (2048 * r' + 64 * c') 64 := by rw [Core.readLine, if_pos (by omega)]
  simp only [opEffects, ha, counted, tmCopyEff, copyOrder_line hd hs, Core.readWalk, hs, Effects.run, List.map_cons, List.map_nil,
    List.cons_append, List.nil_append, List.foldl_cons, List.foldl_nil, Core.count_mem, Int.toNat_natCast, nth, List.getD_cons_zero, hsrc]
  rw [Core.writeLine_read hm (by omega), slice_all (Memory.length_read _ _ _)]

theorem run_accClr {k : Core} {a : ActOp} {t : Nat} (ha : a.q.op = .accClr t) (u : Nat) {e : Nat} (he : e < 512) :
    (Effects.run (opEffects k a) k).accGet u e = if u = t then 0 else k.accGet u e := by
  simp only [opEffects, ha, Effects.run, List.foldl_cons, List.foldl_nil, Core.count_accGet]
  exact k.accClear_accGet t u he

/-- Settles O20: a walk of one line names one line, whose write is read back; a cleared tile keeps no entry. -/
theorem engineResults : Obligations.EngineResults := by
  unfold Obligations.EngineResults
  intro k a r c r' c' t pat hm hr hc hr' hc' _
  refine ⟨run_tmFill_line hm hr hc, run_tmCopy_line hm hr hc hr' hc', fun ha e he => ?cleared, fun ha u e hu he => ?others⟩
  case cleared => rw [run_accClr ha t he, if_pos rfl]
  case others => rw [run_accClr ha u he, if_neg hu]

end Sys2Proof.Proofs
end

section
/-!
SUPPORT. What a completed command and its records change of the state: the host interface, the Sillage stream and the messages sent,
and of the handles the command's own alone (R425 to R434).
-/
namespace Sys2Proof.Machine

/-! ## Entries of finite tables -/

/-- With rising keys each entry is the one found under its key. -/
theorem Tbl.find_of_mem {α : Type} {t : Tbl α} (h : Tbl.wf t) {i : Nat} {x : α} (hm : (i, x) ∈ t) : Tbl.find t i = some x := by
  induction t with
  | nil => cases hm
  | cons e t ih =>
    obtain ⟨j, y⟩ := e
    obtain ⟨hlt, ht⟩ := List.pairwise_cons.1 h
    rcases List.mem_cons.1 hm with he | hm
    · cases he; simp [Tbl.find]
    · have : j < i := hlt _ hm
      rw [Tbl.find, if_neg (by omega), ih ht hm]

/-! ## Records and messages -/

/-- A state after records and messages have gone out: only the host interface, the observation unit and the messages differ, and every
handle is as it was. -/
structure Posted (s t : State) : Prop where
  rest : t = { s with host := t.host, observe := t.observe, out := t.out }
  handles : t.host.handles = s.host.handles

theorem Posted.refl (s : State) : Posted s s := ⟨rfl, rfl⟩

theorem Posted.trans {s t u : State} (h : Posted s t) (h' : Posted t u) : Posted s u where
  rest := by
    calc u = { t with host := u.host, observe := u.observe, out := u.out } := h'.rest
      _ = { s with host := u.host, observe := u.observe, out := u.out } := by rw [h.rest]
  handles := h'.handles.trans h.handles

theorem Posted.cores {s t : State} (h : Posted s t) : t.cores = s.cores := by rw [h.rest]
theorem Posted.factory {s t : State} (h : Posted s t) : t.factory = s.factory := by rw [h.rest]
theorem Posted.regions {s t : State} (h : Posted s t) : t.regions = s.regions := by rw [h.rest]
theorem Posted.cmd? {s t : State} (h : Posted s t) (i : Nat) : t.cmd? i = s.cmd? i := by
  simp only [State.cmd?, State.hdl, h.handles]

theorem Posted.foldl {α : Type} {f : State → α → State} (hf : ∀ s x, Posted s (f s x)) (l : List α) (s : State) :
    Posted s (l.foldl f s) := by
  induction l generalizing s with
  | nil => exact .refl s
  | cons x l ih => exact (hf s x).trans (ih (f s x))

theorem posted_sil (s : State) (type source : Nat) (payload : Bytes) : Posted s (s.sil type source payload) := by
  simp only [State.sil]
  split_ifs <;> exact ⟨rfl, rfl⟩

theorem posted_setSite (s : State) (i : Nat) (x : Site) : Posted s (s.setSite i x) := by
  unfold State.setSite
  split <;> exact ⟨rfl, rfl⟩

theorem posted_drainMod (s : State) (i m : Nat) : Posted s (s.drainMod i m) :=
  (posted_setSite s i _).trans ⟨rfl, rfl⟩

theorem posted_hostSend (s : State) (i : Nat) (m : HMsg) : Posted s (s.hostSend i m) := by
  simp only [State.hostSend]
  split
  · exact .refl s
  · exact (posted_setSite s i _).trans (posted_drainMod _ i _)

theorem posted_writeGo (n : Nat) (s : State) (i addr : Nat) (d : Bytes) : Posted s (writeGo n s i addr d) := by
  induction n generalizing s addr d with
  | zero => exact .refl s
  | succ n ih =>
    rw [writeGo]
    split
    · exact .refl s
    · exact (posted_hostSend s i _).trans (ih _ _ _)

theorem posted_hostWrite (s : State) (i addr : Nat) (d : Bytes) : Posted s (s.hostWrite i addr d) := by
  unfold State.hostWrite
  split
  · exact .refl s
  · exact posted_writeGo _ s i addr _

theorem posted_setRing (s : State) (r : Nat) (x : Ring) : Posted s (s.setRing r x) := ⟨rfl, rfl⟩

theorem posted_putRecord (s : State) (r : Nat) (b : Bytes) : Posted s (s.putRecord r b) := by
  unfold State.putRecord
  split
  · exact .refl s
  · exact (posted_hostWrite s _ _ _).trans (posted_setRing _ r _)

theorem posted_ringIrq (s : State) (r : Nat) : Posted s (s.ringIrq r) := by
  unfold State.ringIrq
  split
  · exact .refl s
  · split
    · exact .refl s
    · split
      · exact (posted_hostSend s _ _).trans (posted_setRing _ r _)
      · exact posted_setRing s r _

theorem posted_putRecords (s : State) (r : Nat) (bs : List Bytes) : Posted s (s.putRecords r bs) := by
  unfold State.putRecords
  split
  · exact .refl s
  · exact (Posted.foldl (fun s b => posted_putRecord s r b) bs s).trans (posted_ringIrq _ r)

theorem posted_postTo (s : State) (b : Bytes) (r : Nat) : Posted s (s.postTo b r) := by
  unfold State.postTo
  dsimp only
  split
  · exact .refl s
  · split
    · split
      · exact posted_putRecords s r _
      · exact posted_setRing s r _
    · split
      · exact posted_setRing s r _
      · exact (posted_setRing s r _).trans (posted_putRecords _ r _)

/-! ## The end of a command -/

theorem finish_of_none {s : State} {h : Nat} (ho : s.cmd? h = none) (status detail r0 r1 : Nat) : s.finish h status detail r0 r1 = s := by
  rw [State.cmd?] at ho
  simp only [State.finish, ho]

/-- A command that ends leaves its handle, and its record goes out. -/
theorem posted_finish {s : State} {h : Nat} {o : HOut} (ho : s.cmd? h = some o) (status detail r0 r1 : Nat) :
    Posted (s.setHdl h { s.hdl h with out := none }) (s.finish h status detail r0 r1) := by
  rw [State.cmd?] at ho
  simp only [State.finish, ho]
  split
  · split
    · exact (Posted.foldl (fun s r => posted_postTo s _ r) _ _).trans (posted_sil _ _ _ _)
    · refine Posted.trans ?_ (posted_putRecords _ _ _)
      split
      · exact posted_setRing _ _ _
      · exact .refl _
  · exact .refl _

@[simp] theorem finish_cores (s : State) (h status detail r0 r1 : Nat) : (s.finish h status detail r0 r1).cores = s.cores := by
  cases ho : s.cmd? h with
  | none => rw [finish_of_none ho]
  | some o => exact (posted_finish ho status detail r0 r1).cores
@[simp] theorem finish_factory (s : State) (h status detail r0 r1 : Nat) : (s.finish h status detail r0 r1).factory = s.factory := by
  cases ho : s.cmd? h with
  | none => rw [finish_of_none ho]
  | some o => exact (posted_finish ho status detail r0 r1).factory

@[simp] theorem State.cmd?_setHdl_same (s : State) (h : Nat) (x : Hdl) : (s.setHdl h x).cmd? h = x.out := by
  simp [State.cmd?, State.hdl, State.setHdl]
theorem State.cmd?_setHdl_ne (s : State) {h i : Nat} (x : Hdl) (hi : i ≠ h) : (s.setHdl h x).cmd? i = s.cmd? i := by
  simp [State.cmd?, State.hdl, State.setHdl, Tbl.get_set_ne _ _ _ hi]

@[simp] theorem cmd?_finish_same (s : State) (h status detail r0 r1 : Nat) : (s.finish h status detail r0 r1).cmd? h = none := by
  cases ho : s.cmd? h with
  | none => rw [finish_of_none ho, ho]
  | some o => rw [(posted_finish ho status detail r0 r1).cmd?, State.cmd?_setHdl_same]
theorem cmd?_finish_ne (s : State) {h i : Nat} (hi : i ≠ h) (status detail r0 r1 : Nat) :
    (s.finish h status detail r0 r1).cmd? i = s.cmd? i := by
  cases ho : s.cmd? h with
  | none => rw [finish_of_none ho]
  | some o => rw [(posted_finish ho status detail r0 r1).cmd?, State.cmd?_setHdl_ne _ _ hi]

/-! ## A command that goes on -/

@[simp] theorem keep_cores (s : State) (h : Nat) (f : HOut → HOut) : (s.keep h f).cores = s.cores := rfl

@[simp] theorem cmd?_keep_same (s : State) (h : Nat) (f : HOut → HOut) : (s.keep h f).cmd? h = (s.cmd? h).map f := by
  rw [State.keep, State.cmd?_setHdl_same, State.cmd?]
theorem cmd?_keep_ne (s : State) {h i : Nat} (f : HOut → HOut) (hi : i ≠ h) : (s.keep h f).cmd? i = s.cmd? i := by
  rw [State.keep, State.cmd?_setHdl_ne _ _ hi]

/-- A command of an opcode that waits is begun. -/
theorem onCmd_of_waiting {s : State} {h opcode : Nat} {o : HOut} (ho : s.cmd? h = some o) (hw : o.running = false) (hc : o.opcode = opcode)
    (f : HOut → State) : s.onCmd h opcode f = f o := by
  simp [State.onCmd, ho, hw, hc]

end Sys2Proof.Machine
end

section
/-!
SUPPORT. What upkeep does to its core: refresh ages, the choice and the start of a slice, its end, and calibration (R102 to R118, R434).
-/
namespace Sys2Proof.Machine

/-! ## Sets and arrays of a core -/

@[simp] theorem Core.set_setSet_same (k : Core) (i : Nat) (x : ASet) : (k.setSet i x).set i = x := Tbl.get_set_same _ _ _ _
theorem Core.set_setSet_ne (k : Core) {i j : Nat} (x : ASet) (h : j ≠ i) : (k.setSet i x).set j = k.set j := Tbl.get_set_ne _ _ _ h
@[simp] theorem Core.set_setArr (k : Core) (a : Nat) (x : Arr) (i : Nat) : (k.setArr a x).set i = k.set i := rfl
@[simp] theorem Core.arr_setArr_same (k : Core) (a : Nat) (x : Arr) : (k.setArr a x).arr a = x := Tbl.get_set_same _ _ _ _
@[simp] theorem Core.arr_setSet (k : Core) (i : Nat) (x : ASet) (a : Nat) : (k.setSet i x).arr a = k.arr a := rfl
@[simp] theorem Core.mem_setArr (k : Core) (a : Nat) (x : Arr) : (k.setArr a x).mem = k.mem := rfl
@[simp] theorem Core.mem_setSet (k : Core) (i : Nat) (x : ASet) : (k.setSet i x).mem = k.mem := rfl

@[simp] theorem State.core_updCore_same (s : State) (c : Nat) (f : Core → Core) : (s.updCore c f).core c = f (s.core c) :=
  State.core_setCore_same s c _
theorem State.core_updCore_ne (s : State) {c d : Nat} (f : Core → Core) (h : d ≠ c) : (s.updCore c f).core d = s.core d :=
  State.core_setCore_ne s _ h

/-! ## Refresh ages (R110) -/

/-- A change of the first n power regions changes each of them, and the power unit alone. -/
theorem preg_foldl_updPreg (f : PRegion → PRegion) (s : State) (n g : Nat) :
    ((List.range n).foldl (fun s g => s.updPreg g f) s).preg g = if g < n then f (s.preg g) else s.preg g := by
  induction n with
  | zero => rfl
  | succ n ih =>
    rw [List.range_succ, List.foldl_append, List.foldl_cons, List.foldl_nil, State.updPreg]
    by_cases h : g = n
    · subst h
      simp [ih]
    · have hlt : g < n + 1 ↔ g < n := by omega
      rw [State.preg_setPreg_ne _ _ h, ih, if_congr hlt rfl rfl]

theorem foldl_updPreg_frame (f : PRegion → PRegion) (l : List Nat) (s : State) :
    (l.foldl (fun s g => s.updPreg g f) s).regions = s.regions ∧ (l.foldl (fun s g => s.updPreg g f) s).host = s.host := by
  induction l generalizing s with
  | nil => exact ⟨rfl, rfl⟩
  | cons g l ih => exact ih (s.updPreg g f)

/-- A whole power of two has no fraction to multiply in. -/
theorem pow2Frac_zero (k root acc : Nat) : pow2Frac k 0 root acc = acc := by
  induction k generalizing root acc with
  | zero => rfl
  | succ k ih => simp [pow2Frac, ih]

theorem ageStep_65 : ageStep (degC 65) = 131072 := by
  have hn : (degC 65 - degC 55).toNat = 655360 := by decide
  simp [ageStep, hn, pow2Frac_zero]

/-- One tick of the refresh ages of a power region. -/
def ageRegion (p : PRegion) : PRegion := { p with aged := p.aged + if p.hot ≤ degC 55 then 65536 else ageStep p.hot }

theorem ageRegion_cool {p : PRegion} (h : p.hot ≤ degC 55) : (ageRegion p).aged = p.aged + 65536 := by
  rw [ageRegion, if_pos h]

/-- Ten degrees above 55 an age grows twice as fast. -/
theorem ageRegion_65 {p : PRegion} (h : p.hot = degC 65) : (ageRegion p).aged = p.aged + 131072 := by
  have h55 : ¬ degC 65 ≤ degC 55 := by decide
  rw [ageRegion, h, if_neg h55, ageStep_65]

/-- AGE_TICK over the power regions of a list: ages grow, then due work is scheduled. -/
def ageTickOver (l : List Nat) (s : State) : State :=
  let s := l.foldl (fun s g => s.updPreg g ageRegion) s
  { s with cores := Tbl.map (fun c k => if usable s c then k.arrays.foldl (dueTasks (s.preg (powerOf c)) s) k else k) s.cores }

theorem execAgeTick_eq (s : State) : execAgeTick s = .next (ageTickOver (List.range 240) s) := rfl

theorem preg_ageTickOver (s : State) (n g : Nat) :
    (ageTickOver (List.range n) s).preg g = if g < n then ageRegion (s.preg g) else s.preg g :=
  preg_foldl_updPreg ageRegion s n g

theorem ageTickOver_frame (l : List Nat) (s : State) : (ageTickOver l s).regions = s.regions ∧ (ageTickOver l s).host = s.host :=
  foldl_updPreg_frame ageRegion l s

/-! ## The next slice of a set (R115) -/

/-- A fold that takes an element or keeps what it has, whichever has the lower level, ends with the lowest level. -/
theorem foldl_level_le {f : Option Task → Task → Option Task}
    (hf : ∀ b t, ∃ x, f b t = some x ∧ x.level ≤ t.level ∧ ∀ u, b = some u → x.level ≤ u.level) {l : List Task} {b : Option Task} {k : Task}
    (h : l.foldl f b = some k) : (∀ u ∈ l, k.level ≤ u.level) ∧ ∀ u, b = some u → k.level ≤ u.level := by
  induction l generalizing b with
  | nil => exact ⟨by simp, fun u hu => by rw [show b = some k from h] at hu; cases hu; exact le_rfl⟩
  | cons t l ih =>
    obtain ⟨x, hx, hxt, hxb⟩ := hf b t
    obtain ⟨hl, hb⟩ := ih h
    have hkx := hb x hx
    exact ⟨List.forall_mem_cons.2 ⟨hkx.trans hxt, hl⟩, fun u hu => hkx.trans (hxb u hu)⟩

/-- No task that can run has a lower level than the next one. -/
theorem nextTask_level_le {s : State} {c set : Nat} {k u : Task} (h : nextTask s c set false = some k) (hu : u ∈ setTasks s c set)
    (hok : taskOk s c (s.core c) u = true) : k.level ≤ u.level := by
  unfold nextTask at h
  refine (foldl_level_le (fun b t => ?_) h).1 u (List.mem_filter.2 ⟨hu, by simp [hok]⟩)
  cases b with
  | none => exact ⟨t, rfl, le_rfl, by simp⟩
  | some u =>
    dsimp only
    split
    · exact ⟨t, rfl, le_rfl, fun v hv => by cases hv; omega⟩
    · exact ⟨u, rfl, by omega, fun v hv => by cases hv; exact le_rfl⟩

/-! ## The start of a slice (R114, R118) -/

theorem core_startSlice (s : State) (c set : Nat) (t : Task) (forced : Bool) (d : Nat) :
    (startSlice s c set t forced).core d = (s.updCore c fun k =>
      k.setSet set { k.set set with
        use := 5, slice := some ⟨t, s.now, forced⟩, lastForced := if forced ∧ t.level ≠ 0 then some s.now else (k.set set).lastForced }).core d := by
  cases forced with
  | false => rfl
  | true => simp only [startSlice, State.notice, if_true, State.core_sil]; rfl

/-- A slice that starts holds its set from now on; no other core changes. -/
theorem startSlice_begins (s : State) (c set : Nat) (t : Task) (forced : Bool) :
    (((startSlice s c set t forced).core c).set set).slice = some ⟨t, s.now, forced⟩ ∧
    (((startSlice s c set t forced).core c).set set).use = 5 ∧ ∀ d, d ≠ c → (startSlice s c set t forced).core d = s.core d := by
  refine ⟨?_, ?_, fun d hd => ?_⟩
  · rw [core_startSlice, State.core_updCore_same, Core.set_setSet_same]
  · rw [core_startSlice, State.core_updCore_same, Core.set_setSet_same]
  · rw [core_startSlice, State.core_updCore_ne _ _ hd]

theorem upkeep_startSlice (s : State) (c set : Nat) (t : Task) : (startSlice s c set t false).upkeep = s.upkeep := rfl
/-- A forced slice sets its warning. -/
theorem warnings_startSlice (s : State) (c set : Nat) (t : Task) :
    (startSlice s c set t true).upkeep.warnings = s.upkeep.warnings ||| 4 := by
  simp only [startSlice, State.notice, if_true]
  rw [(posted_sil _ _ _ _).rest]
  rfl

/-- An idle set with upkeep power that has a task starts it: unforced as it is, forced when a forced slice may start. -/
theorem execIntercalarySlot_start {s : State} {c set : Nat} {k : Task} (hset : set < 8) (hp : upkeepPower s c = true)
    (hidle : ((s.core c).set set).slice = none) (hk : nextTask s c set (!slotOk s (s.core c) set) = some k)
    (hf : forcedTask s ((s.core c).set set) k = true → forcedOk s (s.core c) set k = true) :
    execIntercalarySlot c set s = .next (startSlice s c set k (forcedTask s ((s.core c).set set) k)) := by
  have hgo : ¬ (8 ≤ set ∨ (!upkeepPower s c) = true ∨ ((s.core c).set set).slice.isSome = true) := by simp [hp, hidle]; omega
  simp only [execIntercalarySlot, if_neg hgo, hk]
  cases hb : forcedTask s ((s.core c).set set) k with
  | false => simp
  | true => simp [hf hb]

theorem execSentinelForce_start {s : State} {c set : Nat} {m : Sample} (hset : set < 8) (hm : ((s.core c).set set).sample = some m)
    (hlate : s.passed m.since 20000000 = true) (hp : upkeepPower s c = true) (hidle : ((s.core c).set set).slice = none)
    (hok : taskOk s c (s.core c) ⟨1, m.array⟩ = true) (hf : forcedOk s (s.core c) set ⟨1, m.array⟩ = true) :
    execSentinelForce c set s = .next (startSlice s c set ⟨1, m.array⟩ true) := by
  simp [execSentinelForce, hm, sampleLate, hset, hlate, hp, hidle, hok, hf]

/-! ## The end of a slice (R116, R117, R488) -/

theorem bearWait_of_unowned {s : State} {c : Nat} (h : ownerOf s c = none) (req : W32) (seq : Option Nat) (ns : Nat)
    (f : Ctx → Nat → Ctx) : bearWait s c req seq ns f = s := by
  simp only [bearWait, h]

/-- On a core that no region owns, the end of a slice records no wait of a request: only the core's sequencer changes. -/
theorem bearSlice_of_unowned {s : State} {c : Nat} (h : ownerOf s c = none) (set : Nat) (before : Core) (x : Slice) :
    ∃ q : Seq, bearSlice s c set before x = s.setCore c { s.core c with seq := q } := by
  refine ⟨((bearSlice s c set before x).core c).seq, ?_⟩
  simp only [bearSlice]
  rw [List.foldl_fixed' (a := s), State.core_updCore_same]
  · rfl
  · exact fun q => bearWait_of_unowned h _ _ _ _

theorem upkeepReturn_of_awake {s : State} {g : Nat} (h : (s.preg g).upkeepFrom = none) : upkeepReturn s g = s := by
  simp only [upkeepReturn, h]

/-- The core's set is freed at the end of its slice. -/
def sliceFreed (s : State) (c set : Nat) : State :=
  s.setCore c ((s.core c).setSet set { (s.core c).set set with
    slice := none, use := if ((s.core c).set set).use = 5 then 0 else ((s.core c).set set).use, fixAfter := (s.core c).seq.opNum })

/-- The state after the work of a slice, its waits recorded and its power region returned to the state that upkeep found it in. -/
def sliceDone (s : State) (c set : Nat) (y : Slice) : State :=
  upkeepReturn (bearSlice (sliceWork (sliceFreed s c set) c set y.task) c set (s.core c) y) (powerOf c)

/-- A slice on an array in service or held does its work, and its region goes on. -/
theorem execUpkeepSliceEnd_works {s : State} {c set : Nat} {y : Slice} (hy : ((s.core c).set set).slice = some y)
    (hst : ((s.core c).arr y.task.array).state = 0 ∨ ((s.core c).arr y.task.array).state = 4)
    (hp : ¬ (y.task.pulses = true ∧ s.power.auxLost.isSome = true)) :
    execUpkeepSliceEnd c set s =
      .next (match ownerOf (sliceDone s c set y) c with | some n => advance (sliceDone s c set y) n | none => sliceDone s c set y) := by
  have hgo : ¬ (((s.core c).arr y.task.array).state = 1 ∨ ((s.core c).arr y.task.array).state = 2 ∨
      ((s.core c).arr y.task.array).state = 3 ∨ ((s.core c).arr y.task.array).state = 5 ∨
      (y.task.pulses = true ∧ s.power.auxLost.isSome = true)) := by
    rcases hst with h | h <;> simpa [h] using hp
  simp only [execUpkeepSliceEnd, hy]
  exact if_neg hgo

/-- A slice whose array has left service, or that pulses without VDD_AUX, ends without its work. -/
theorem execUpkeepSliceEnd_halts {s : State} {c set : Nat} {y : Slice} (hy : ((s.core c).set set).slice = some y)
    (hst : ((s.core c).arr y.task.array).state = 1 ∨ ((s.core c).arr y.task.array).state = 2 ∨
      ((s.core c).arr y.task.array).state = 3 ∨ ((s.core c).arr y.task.array).state = 5 ∨
      (y.task.pulses = true ∧ s.power.auxLost.isSome = true)) :
    execUpkeepSliceEnd c set s = .next (upkeepReturn (bearSlice (sliceFreed s c set) c set (s.core c) y) (powerOf c)) := by
  simp only [execUpkeepSliceEnd, hy]
  exact if_pos hst

/-- On a core that no region owns, in a power region that was not woken for it, what follows a slice's work leaves the core's sets, arrays
and memory. -/
theorem sliceDone_of_unowned {s u : State} {c set : Nat} {y : Slice} (hu : sliceWork (sliceFreed s c set) c set y.task = u)
    (hown : ownerOf u c = none) (hawake : (u.preg (powerOf c)).upkeepFrom = none) :
    ownerOf (sliceDone s c set y) c = none ∧ (∀ i, ((sliceDone s c set y).core c).set i = (u.core c).set i) ∧
    (∀ a, ((sliceDone s c set y).core c).arr a = (u.core c).arr a) ∧ ((sliceDone s c set y).core c).mem = (u.core c).mem := by
  obtain ⟨q, hq⟩ := bearSlice_of_unowned hown set (s.core c) y
  have hdone : sliceDone s c set y = u.setCore c { u.core c with seq := q } := by
    rw [sliceDone, hu, hq, upkeepReturn_of_awake]
    exact hawake
  rw [hdone, State.core_setCore_same]
  exact ⟨hown, fun _ => rfl, fun _ => rfl, rfl⟩

/-! ## A calibration slice (R106) -/

/-- New trims leave the slice and the use of every set. -/
theorem Core.set_putTrims (k : Core) (i j base : Nat) (l : List Nat) :
    ((k.setSet i ((k.set i).putTrims base l)).set j).slice = (k.set j).slice ∧
    ((k.setSet i ((k.set i).putTrims base l)).set j).use = (k.set j).use := by
  by_cases h : j = i
  · subst h
    rw [Core.set_setSet_same]
    exact ⟨rfl, rfl⟩
  · rw [Core.set_setSet_ne _ _ h]
    exact ⟨rfl, rfl⟩

/-- A slice of a row group before the last one counts it and fits trims of its array's set. -/
theorem calSlice_of_lt {s : State} {c a : Nat} (h : ((s.core c).arr a).calGroup < 7) :
    (calSlice s c a).core c =
      ((s.core c).setSet (a / 4) (((s.core c).set (a / 4)).putTrims s.free (calSlices ((s.core c).arr a).calGroup))).setArr a
        { (s.core c).arr a with calGroup := ((s.core c).arr a).calGroup + 1 } ∧
    (calSlice s c a).regions = s.regions ∧ (calSlice s c a).power = s.power := by
  simp only [calSlice, if_pos h, State.fitSlices, State.draw, State.core_updCore_same]
  exact ⟨rfl, rfl, rfl⟩

/-! ## CALIBRATE (R434) -/

/-- A core has a task of a level on an array. -/
def Core.hasTask (k : Core) (a level : Nat) : Prop := ∃ t ∈ (k.set (a / 4)).tasks, t.array = a ∧ t.level = level

theorem Core.hasTask_addTask_same (k : Core) (a level : Nat) : (k.addTask a level).hasTask a level := by
  simp only [Core.addTask, Core.hasTask]
  split
  next h => simpa using h
  next => exact ⟨⟨level, a⟩, by simp, rfl, rfl⟩

theorem Core.hasTask_addTask {k : Core} {a level : Nat} (h : k.hasTask a level) (b l : Nat) : (k.addTask b l).hasTask a level := by
  obtain ⟨t, ht, hta, htl⟩ := h
  refine ⟨t, ?_, hta, htl⟩
  simp only [Core.addTask]
  split
  · exact ht
  · by_cases hs : a / 4 = b / 4
    · rw [hs] at ht ⊢
      simp [ht]
    · rwa [Core.set_setSet_ne _ _ hs]

@[simp] theorem Core.addTask_fence (k : Core) (a level : Nat) : (k.addTask a level).fence = k.fence := by
  simp only [Core.addTask]
  split <;> rfl

/-- What a CALIBRATE schedules on an array: a pass, if it holds weights and is in service or held. -/
def calTask (k : Core) (e : Nat × Arr) : Core := if e.2.format ≠ 0 ∧ (e.2.state = 0 ∨ e.2.state = 4) then k.addTask e.1 6 else k

/-- What a CALIBRATE schedules on the arrays of a list. -/
def calTasks (l : Tbl Arr) (k : Core) : Core := l.foldl calTask k

theorem Core.hasTask_calTask {k : Core} {a : Nat} (h : k.hasTask a 6) (e : Nat × Arr) : (calTask k e).hasTask a 6 := by
  unfold calTask
  split
  · exact Core.hasTask_addTask h _ _
  · exact h

theorem calTask_fence (k : Core) (e : Nat × Arr) : (calTask k e).fence = k.fence := by
  unfold calTask
  split
  · exact Core.addTask_fence k _ _
  · rfl

theorem calTasks_fence (l : Tbl Arr) (k : Core) : (calTasks l k).fence = k.fence := by
  induction l generalizing k with
  | nil => rfl
  | cons e l ih => exact (ih (calTask k e)).trans (calTask_fence k e)

theorem Core.hasTask_calTasks {k : Core} {a : Nat} (h : k.hasTask a 6) (l : Tbl Arr) : (calTasks l k).hasTask a 6 := by
  induction l generalizing k with
  | nil => exact h
  | cons e l ih => exact ih (Core.hasTask_calTask h e)

/-- Each array of the list that holds weights and is in service or held has its pass. -/
theorem calTasks_hasTask {l : Tbl Arr} {a : Nat} {y : Arr} (hm : (a, y) ∈ l) (hf : y.format ≠ 0) (hs : y.state = 0 ∨ y.state = 4)
    (k : Core) : (calTasks l k).hasTask a 6 := by
  induction l generalizing k with
  | nil => cases hm
  | cons e l ih =>
    rcases List.mem_cons.1 hm with rfl | hm
    · have hstep : (calTask k (a, y)).hasTask a 6 := by
        rw [calTask, if_pos ⟨hf, hs⟩]
        exact Core.hasTask_addTask_same k a 6
      exact Core.hasTask_calTasks hstep l
    · exact ih hm (calTask k e)

theorem calWaits_congr {s t : State} (hc : t.cores = s.cores) (hf : t.factory = s.factory) (word : Nat) :
    calWaits t word = calWaits s word := by
  simp only [calWaits, usable, State.core, hc, hf]

/-- A CALIBRATE waits while a core that it names has a pass to come. -/
theorem calWaits_of_task {s : State} {c a word : Nat} {k : Core} (hk : Tbl.find s.cores c = some k) (hs : calScope word c = true)
    (hu : usable s c = true) (ht : k.hasTask a 6) : calWaits s word = true := by
  obtain ⟨t, ht, -, hl⟩ := ht
  have hset : ∃ x, Tbl.find k.sets (a / 4) = some x ∧ t ∈ x.tasks := by
    rw [Core.set, Tbl.get] at ht
    cases hx : Tbl.find k.sets (a / 4) with
    | none => rw [hx] at ht; cases ht
    | some x => exact ⟨x, rfl, by rwa [hx] at ht⟩
  obtain ⟨x, hx, htx⟩ := hset
  have htask : x.tasks.any (fun x => x.level = 6) = true := List.any_eq_true.2 ⟨t, htx, by simp [hl]⟩
  have hsets : k.sets.any (fun t => t.2.tasks.any fun x => x.level = 6) = true := List.any_eq_true.2 ⟨_, Tbl.find_mem hx, htask⟩
  exact List.any_eq_true.2 ⟨_, Tbl.find_mem hk, by simp only [hs, hu, hsets, Bool.and_self]⟩

/-- A running CALIBRATE whose passes are still to come stays running, and no core changes. -/
theorem calHandles_waits {s : State} {h : Nat} {o : HOut} (hwf : Tbl.wf s.host.handles) (ho : s.cmd? h = some o) (hr : o.running = true)
    (hw : calWaits s (fieldAt o.cmd 16 4) = true) :
    (calHandles s).cores = s.cores ∧ ∃ q, (calHandles s).cmd? h = some q ∧ q.running = true := by
  have hinv : (calHandles s).cores = s.cores ∧ (calHandles s).factory = s.factory ∧ ∃ q, (calHandles s).cmd? h = some q ∧ q.running = true := by
    refine List.foldlRecOn (motive := fun t : State => t.cores = s.cores ∧ t.factory = s.factory ∧ ∃ q, t.cmd? h = some q ∧ q.running = true)
      s.host.handles _ ⟨rfl, rfl, o, ho, hr⟩ ?_
    rintro t ⟨hcores, hfactory, q, hq, hqr⟩ ⟨i, x⟩ hmem
    cases hx : x.out with
    | none => exact ⟨hcores, hfactory, q, hq, hqr⟩
    | some p =>
      dsimp only
      rw [calWaits_congr hcores hfactory]
      split_ifs with hcal hwait
      · exact ⟨hcores, hfactory, q, hq, hqr⟩
      · refine ⟨hcores, hfactory, ?_⟩
        by_cases hi : h = i
        · subst hi
          exact ⟨{ q with since := t.now }, by rw [cmd?_keep_same, hq]; rfl, hqr⟩
        · exact ⟨q, by rw [cmd?_keep_ne _ _ hi, hq], hqr⟩
      · have hi : h ≠ i := by
          rintro rfl
          have hxo : x.out = some o := by
            rw [← ho, State.cmd?, State.hdl, Tbl.get, Tbl.find_of_mem hwf hmem]; rfl
          rw [hxo] at hx
          cases hx
          exact hwait hw
        exact ⟨by rw [finish_cores, hcores], by rw [finish_factory, hfactory], q, by rw [cmd?_finish_ne _ hi, hq], hqr⟩
  exact ⟨hinv.1, hinv.2.2⟩

end Sys2Proof.Machine
end

section
/-!
SUPPORT. The statement of upkeep (R102, R106, R110, R113 to R115, R118, R434, R488).
-/
namespace Sys2Proof.Proofs
open Sys2Proof.Machine Sys2Proof.Safety

theorem answers_ageTick (s : State) : answers .ageTick s fun t =>
    (∀ g < 240, ((s.preg g).hot ≤ degC 55 → (t.preg g).aged = (s.preg g).aged + 65536) ∧
      ((s.preg g).hot = degC 65 → (t.preg g).aged = (s.preg g).aged + 131072)) ∧ t.regions = s.regions ∧ t.host = s.host := by
  refine ⟨ageTickOver (List.range 240) s, execAgeTick_eq s, fun g hg => ?_, ageTickOver_frame _ s⟩
  rw [preg_ageTickOver, if_pos hg]
  exact ⟨ageRegion_cool, ageRegion_65⟩

/-- The end of a calibration slice before the last one of its pass, on a core that no region owns. -/
theorem answers_calSlice {s : State} {c set a from_ : Nat} {forced : Bool} (hy : ((s.core c).set set).slice = some ⟨⟨4, a⟩, from_, forced⟩)
    (huse : ((s.core c).set set).use = 5) (hst : ((s.core c).arr a).state = 0) (hg : ((s.core c).arr a).calGroup < 7)
    (hawake : (s.preg (powerOf c)).upkeepFrom = none) (hown : ownerOf s c = none) : answers (.upkeepSliceEnd c set) s fun t =>
      ((t.core c).set set).slice = none ∧ ((t.core c).set set).use = 0 ∧
        ((t.core c).arr a).calGroup = ((s.core c).arr a).calGroup + 1 ∧ (t.core c).mem = (s.core c).mem := by
  have hcore : (sliceFreed s c set).core c = _ := State.core_setCore_same s c _
  have harr : ((sliceFreed s c set).core c).arr a = (s.core c).arr a := by rw [hcore, Core.arr_setSet]
  obtain ⟨hcal, hregions, hpower⟩ := calSlice_of_lt (s := sliceFreed s c set) (c := c) (a := a) (by rwa [harr])
  obtain ⟨hslice, hsetUse⟩ := Core.set_putTrims ((sliceFreed s c set).core c) (a / 4) set (sliceFreed s c set).free
    (calSlices (((sliceFreed s c set).core c).arr a).calGroup)
  obtain ⟨hnobody, hsets, harrays, hmem⟩ := sliceDone_of_unowned (s := s) (set := set) (y := ⟨⟨4, a⟩, from_, forced⟩)
    (u := calSlice (sliceFreed s c set) c a) rfl (by rw [ownerOf, hregions]; exact hown) (by rw [State.preg, hpower]; exact hawake)
  refine ⟨sliceDone s c set ⟨⟨4, a⟩, from_, forced⟩, ?_, ?_, ?_, ?_, ?_⟩
  · refine (execUpkeepSliceEnd_works hy (.inl hst) (by simp [Task.pulses])).trans ?_
    rw [hnobody]
  · rw [hsets, hcal, Core.set_setArr, hslice, hcore, Core.set_setSet_same]
  · rw [hsets, hcal, Core.set_setArr, hsetUse, hcore, Core.set_setSet_same, if_pos huse]
  · rw [harrays, hcal, Core.arr_setArr_same, harr]
  · rw [hmem, hcal, Core.mem_setArr, Core.mem_setSet, hcore, Core.mem_setSet]

/-- What a CALIBRATE schedules: its passes on every usable core that it names. -/
def calScheduled (s : State) (w : Nat) : State :=
  { s with cores := Tbl.map (fun c k => if calScope w c ∧ usable s c then calTasks k.arrays k else k) s.cores }

section
variable {s : State} {h : Nat} {o : HOut} (ho : s.cmd? h = some o) (hr : o.running = false) (hop : o.opcode = 0x51)
include ho hr hop

theorem exec_calibrate_off_wafer (hw : fieldAt o.cmd 16 4 ≠ 0xFFFFFFFF)
    (hoff : 127 < fieldAt o.cmd 16 4 / 65536 ∨ 149 < fieldAt o.cmd 16 4 % 65536) :
    exec (.calibrate h) s = .next (s.finish h 5 0 0 0) := by
  show execCalibrate h s = _
  rw [execCalibrate, onCmd_of_waiting ho hr hop]
  exact congrArg _ (if_pos ⟨hw, hoff⟩)

theorem exec_calibrate_on_wafer
    (hw : fieldAt o.cmd 16 4 = 0xFFFFFFFF ∨ (fieldAt o.cmd 16 4 / 65536 ≤ 127 ∧ fieldAt o.cmd 16 4 % 65536 ≤ 149)) :
    exec (.calibrate h) s = .next (calHandles ((calScheduled s (fieldAt o.cmd 16 4)).keep h fun x => { x with running := true, since := s.now })) := by
  show execCalibrate h s = _
  rw [execCalibrate, onCmd_of_waiting ho hr hop]
  exact congrArg _ (if_neg (by omega))

/-- CALIBRATE goes on running with a pass on each array in service that it names. -/
theorem answers_calibrate {c a : Nat} {y : Arr}
    (hw : fieldAt o.cmd 16 4 = 0xFFFFFFFF ∨ (fieldAt o.cmd 16 4 / 65536 ≤ 127 ∧ fieldAt o.cmd 16 4 % 65536 ≤ 149))
    (hscope : calScope (fieldAt o.cmd 16 4) c = true) (hu : usable s c = true) (hwf : Tbl.wf s.host.handles)
    (hy : Tbl.find (s.core c).arrays a = some y) (hf : y.format ≠ 0) (hst : y.state = 0) : answers (.calibrate h) s fun t =>
      (∃ k ∈ ((t.core c).set (a / 4)).tasks, k.array = a ∧ k.level = 6) ∧ ∃ q, t.cmd? h = some q ∧ q.running = true := by
  obtain ⟨k, hk⟩ : ∃ k, Tbl.find s.cores c = some k := by
    cases hk : Tbl.find s.cores c with
    | none => rw [State.core, Tbl.get, hk] at hy; cases hy
    | some k => exact ⟨k, rfl⟩
  have hcore : s.core c = k := by rw [State.core, Tbl.get, hk]; rfl
  have hk' : Tbl.find (calScheduled s (fieldAt o.cmd 16 4)).cores c = some (calTasks k.arrays k) := by
    rw [calScheduled, Tbl.find_map, hk]
    exact congrArg some (if_pos ⟨hscope, hu⟩)
  have htask : (calTasks k.arrays k).hasTask a 6 := calTasks_hasTask (Tbl.find_mem (hcore ▸ hy)) hf (.inl hst) k
  have hu' : usable (calScheduled s (fieldAt o.cmd 16 4)) c = true := by
    rw [usable, State.core, Tbl.get, hk', Option.getD_some, calTasks_fence, ← hcore]
    exact hu
  obtain ⟨hcores, q, hq, hqr⟩ := calHandles_waits
    (s := (calScheduled s (fieldAt o.cmd 16 4)).keep h fun x => { x with running := true, since := s.now }) (h := h)
    (o := { o with running := true, since := s.now }) (Tbl.wf_set hwf _ _)
    (by rw [cmd?_keep_same]; exact congrArg _ ho) rfl (calWaits_of_task hk' hscope hu' htask)
  refine ⟨_, exec_calibrate_on_wafer ho hr hop hw, ?_, q, hq, hqr⟩
  rw [State.core, Tbl.get, hcores, keep_cores, hk', Option.getD_some]
  exact htask

end

/-- Settles O49: each command by the law of its own function, the refused and the accepted CALIBRATE apart. -/
theorem upkeepWork : Obligations.UpkeepWork := by
  unfold Obligations.UpkeepWork
  intro s c set
  refine ⟨answers_ageTick s, fun k hset hp hidle hslot hk hf => ?slot, fun k hset hp hidle hk hf hok => ?forced,
    fun m hset hm hlate hp hidle hok hfok => ?sentinel, fun y hy => ⟨execUpkeepSliceEnd_works hy, execUpkeepSliceEnd_halts hy⟩,
    fun a from_ forced => answers_calSlice, fun h o ho hr hop => ⟨fun hw hoff => ?refused, fun a y => answers_calibrate ho hr hop⟩⟩
  case slot =>
    have hrun := execIntercalarySlot_start (s := s) (c := c) hset hp hidle (by rw [hslot]; exact hk) (by simp [hf])
    rw [hf] at hrun
    exact ⟨_, hrun, startSlice_begins s c set k false, upkeep_startSlice s c set k, fun u hu hok => nextTask_level_le hk hu hok⟩
  case forced =>
    have hrun := execIntercalarySlot_start (s := s) (c := c) hset hp hidle hk fun _ => hok
    rw [hf] at hrun
    exact ⟨_, hrun, startSlice_begins s c set k true, warnings_startSlice s c set k⟩
  case sentinel =>
    exact ⟨_, execSentinelForce_start hset hm hlate hp hidle hok hfok, startSlice_begins s c set _ true, warnings_startSlice s c set _⟩
  case refused =>
    exact ⟨_, exec_calibrate_off_wafer ho hr hop hw hoff, cmd?_finish_same s h 5 0 0 0, finish_cores s h 5 0 0 0⟩

end Sys2Proof.Proofs
end

section
/-!
SUPPORT. Scratchpads that are filtered, or joined from two, are in canonical form (R140).
-/
namespace Sys2Proof.Machine

theorem Memory.wf_filter {m : Memory} (h : Memory.wf m) (p : Host.Cell → Bool) : Memory.wf (m.filter p) :=
  ⟨List.Pairwise.filter p h.1, fun e he => h.2 e (List.mem_of_mem_filter he)⟩

/-- The bytes below an address of one scratchpad, and the bytes from there on of another. -/
theorem Memory.wf_join {m m' : Memory} (h : Memory.wf m) (h' : Memory.wf m') (n : Nat) :
    Memory.wf (m.filter (fun x => decide (x.1 < n)) ++ m'.filter fun x => !decide (x.1 < n)) := by
  refine ⟨List.pairwise_append.2 ⟨(wf_filter h _).1, (wf_filter h' _).1, fun a ha b hb => ?_⟩, fun e he => ?_⟩
  · have hlo := (List.mem_filter.1 ha).2
    have hhi := (List.mem_filter.1 hb).2
    simp only [decide_eq_true_eq, Bool.not_eq_true', decide_eq_false_iff_not] at hlo hhi
    omega
  · rcases List.mem_append.1 he with he | he
    · exact (wf_filter h _).2 e he
    · exact (wf_filter h' _).2 e he

end Sys2Proof.Machine
end

section
/-!
SUPPORT. The invariants `memOk` and `zeroOk` as one fact about each core, and what the updates of the state's units keep of it. Each
function of the model then has one lemma below, named after the function: `h.issue` says that what `issue` answers has its cores in order
when the state had (`h`). A function that leaves the cores needs none where `h.frame` says so.
-/
namespace Sys2Proof.Proofs
open Sys2Proof.Machine Sys2Proof.Safety

/-! ## The invariant by its parts -/

/-- Scalar register s0 holds zero. -/
def SeqOk (q : Seq) : Prop := q.regs[0] = 0

/-- The registers as they stood before the bundle in issue, if there is one, have s0 at zero. -/
def BundleOk (o : Option Bundle) : Prop := ∀ b, o = some b → SeqOk b.pre

/-- A core in order: its scratchpad is canonical (R140), and s0 holds zero, before the bundle in issue too (R162). -/
structure CoreOk (k : Core) : Prop where
  mem : Memory.wf k.mem
  zero : SeqOk k.seq
  pre : BundleOk k.bundle

/-- Every core is in order. -/
structure CoresOk (s : State) : Prop where
  core : ∀ c, CoreOk (s.core c)

theorem coresOk_iff {s : State} : CoresOk s ↔ memOk s ∧ zeroOk s :=
  ⟨fun h => ⟨fun c => (h.core c).mem, fun c => ⟨(h.core c).zero, (h.core c).pre⟩⟩,
    fun ⟨hmem, hzero⟩ => ⟨fun c => ⟨hmem c, (hzero c).1, (hzero c).2⟩⟩⟩

theorem SeqOk.setReg {q : Seq} {r : BitVec 5} {v : W32} (h : SeqOk q) : SeqOk (q.setReg r v) := (Seq.setReg_file_zero q r v).trans h

theorem SeqOk.addPhases {q : Seq} {step n : Nat} (h : SeqOk q) : SeqOk (q.addPhases step n) := by
  unfold Seq.addPhases
  split
  · exact h
  · exact h

theorem BundleOk.none : BundleOk none := nofun

theorem BundleOk.some {b : Bundle} (h : SeqOk b.pre) : BundleOk (some b) := fun _ hb => Option.some.inj hb ▸ h

theorem BundleOk.map {o : Option Bundle} {f : Bundle → Bundle} (h : BundleOk o) (hf : ∀ b, SeqOk b.pre → SeqOk (f b).pre) :
    BundleOk (o.map f) := by
  intro b hb
  obtain ⟨b', hb', rfl⟩ := Option.map_eq_some_iff.1 hb
  exact hf b' (h b' hb')

theorem CoreOk.reset : CoreOk Core.reset := ⟨Memory.wf_nil, rfl, .none⟩

/-! ## Updates that leave the cores -/

section
variable {k : Core} {run clockOn fence held heldLast waitFrom idleFrom lastIssue stoppedAt fetched prog acc accStat badWords softWords
  oqs iqs awaits holds active ae arrays sets router ctrs ovf clearedAt report watchN restartBy packed posts}
  {pc next descs asr loops entered stepKind stepReq stepSeq stepFrom stepAcc stepNum maxSets budget phaseLim phases older opNum queued
  sigBuf loaded loadAt}

/-- An update of a core that leaves its scratchpad, its scalar registers and the bundle in issue. -/
theorem CoreOk.frame (h : CoreOk k) : CoreOk { k with
      run := run, clockOn := clockOn, fence := fence, held := held, heldLast := heldLast, waitFrom := waitFrom, idleFrom := idleFrom,
      lastIssue := lastIssue, stoppedAt := stoppedAt, fetched := fetched, prog := prog, acc := acc, accStat := accStat,
      badWords := badWords, softWords := softWords, oqs := oqs, iqs := iqs, awaits := awaits, holds := holds, active := active,
      ae := ae, arrays := arrays, sets := sets, router := router, ctrs := ctrs, ovf := ovf, clearedAt := clearedAt,
      report := report, watchN := watchN, restartBy := restartBy, packed := packed, posts := posts
      seq := { k.seq with
        pc := pc, next := next, descs := descs, asr := asr, loops := loops, entered := entered, stepKind := stepKind,
        stepReq := stepReq, stepSeq := stepSeq, stepFrom := stepFrom, stepAcc := stepAcc, stepNum := stepNum, maxSets := maxSets,
        budget := budget, phaseLim := phaseLim, phases := phases, older := older, opNum := opNum, queued := queued,
        sigBuf := sigBuf, loaded := loaded, loadAt := loadAt } } :=
  ⟨h.mem, h.zero, h.pre⟩

end

section
variable {s : State} {now almanac free factory boot syncs mesh regions serving host od mgmt power thermal upkeep faults fabric observe
  out pending} {f : Nat → Core → Core}

/-- An update of any units but the cores. -/
theorem CoresOk.frame (h : CoresOk s) :
    CoresOk ⟨now, almanac, free, factory, boot, s.cores, syncs, mesh, regions, serving, host, od, mgmt, power, thermal, upkeep,
      faults, fabric, observe, out, pending⟩ :=
  ⟨h.core⟩

/-- A change of every core, and of any other units. -/
theorem CoresOk.mapCores (h : CoresOk s) (hf : ∀ c k, CoreOk k → CoreOk (f c k)) :
    CoresOk ⟨now, almanac, free, factory, boot, Tbl.map f s.cores, syncs, mesh, regions, serving, host, od, mgmt, power, thermal,
      upkeep, faults, fabric, observe, out, pending⟩ :=
  ⟨fun c => Tbl.get_map_cases (h.core c) .reset hf⟩

end

section
variable {s : State}

theorem CoresOk.setCore {c : Nat} {k : Core} (h : CoresOk s) (hk : CoreOk k) : CoresOk (s.setCore c k) :=
  ⟨fun d => Tbl.get_set_cases (h.core d) hk⟩

theorem CoresOk.updCore {c : Nat} {f : Core → Core} (h : CoresOk s) (hf : ∀ k, CoreOk k → CoreOk (f k)) : CoresOk (s.updCore c f) :=
  h.setCore (hf _ (h.core c))

theorem CoresOk.setRegion {n : Nat} {r : Region} (h : CoresOk s) : CoresOk (s.setRegion n r) := h.frame
theorem CoresOk.updRegion {n : Nat} {f : Region → Region} (h : CoresOk s) : CoresOk (s.updRegion n f) := h.frame
theorem CoresOk.setPort {p : Nat} {x : Port} (h : CoresOk s) : CoresOk (s.setPort p x) := h.frame

end

/-! ## Folds, pairs, options and outcomes -/

theorem CoresOk.foldl {α : Type} {s : State} {l : List α} {f : State → α → State} (h : CoresOk s)
    (hf : ∀ s x, CoresOk s → CoresOk (f s x)) : CoresOk (l.foldl f s) := by
  induction l generalizing s with
  | nil => exact h
  | cons x l ih => exact ih (hf s x h)

theorem CoresOk.foldlFst {α β : Type} {a : State × β} {l : List α} {f : State × β → α → State × β} (h : CoresOk a.1)
    (hf : ∀ a x, CoresOk a.1 → CoresOk (f a x).1) : CoresOk (l.foldl f a).1 := by
  induction l generalizing a with
  | nil => exact h
  | cons x l ih => exact ih (hf a x h)

theorem CoreOk.foldl {α : Type} {k : Core} {l : List α} {f : Core → α → Core} (h : CoreOk k)
    (hf : ∀ k x, CoreOk k → CoreOk (f k x)) : CoreOk (l.foldl f k) := by
  induction l generalizing k with
  | nil => exact h
  | cons x l ih => exact ih (hf k x h)

theorem CoresOk.ofFst {α : Type} {p : State × α} {t : State} {a : α} (h : CoresOk p.1) (e : p = (t, a)) : CoresOk t := by
  subst e
  exact h

theorem CoresOk.ofSnd {α : Type} {p : α × State} {t : State} {a : α} (h : CoresOk p.2) (e : p = (a, t)) : CoresOk t := by
  subst e
  exact h

/-- What an optional state satisfies when it is there. -/
def OptOk (o : Option State) : Prop := ∀ t, o = some t → CoresOk t

theorem OptOk.ofNone : OptOk none := fun _ ht => absurd ht (Option.some_ne_none _).symm

theorem OptOk.ofSome {s : State} (h : CoresOk s) : OptOk (some s) := fun _ ht => Option.some.inj ht ▸ h

theorem OptOk.get {o : Option State} {t : State} (h : OptOk o) (e : o = some t) : CoresOk t := h t e

theorem OptOk.getFst {α : Type} {o : Option (State × α)} {t : State} {a : α} (h : OptOk (o.map (·.1))) (e : o = some (t, a)) :
    CoresOk t := by
  subst e
  exact h t rfl

theorem OptOk.getD {o : Option State} {s : State} (h : OptOk o) (hs : CoresOk s) : CoresOk (o.getD s) := by
  cases o with
  | none => exact hs
  | some t => exact h t rfl

theorem OptOk.map {α : Type} {o : Option α} {f : α → State} (hf : ∀ x, CoresOk (f x)) : OptOk (o.map f) := by
  intro t ht
  obtain ⟨x, -, rfl⟩ := Option.map_eq_some_iff.1 ht
  exact hf x

theorem OptOk.mapState {o : Option State} {f : State → State} (h : OptOk o) (hf : ∀ s, CoresOk s → CoresOk (f s)) :
    OptOk (o.map f) := by
  intro t ht
  obtain ⟨s, hs, rfl⟩ := Option.map_eq_some_iff.1 ht
  exact hf s (h s hs)

theorem OptOk.bind {o : Option State} {f : State → Option State} (h : OptOk o) (hf : ∀ s, CoresOk s → OptOk (f s)) :
    OptOk (o.bind f) := by
  intro t ht
  obtain ⟨s, hs, hst⟩ := Option.bind_eq_some_iff.1 ht
  exact hf s (h s hs) t hst

theorem OptOk.findSome? {α : Type} {l : List α} {f : α → Option State} (hf : ∀ x, OptOk (f x)) : OptOk (l.findSome? f) := by
  intro t ht
  obtain ⟨x, -, hx⟩ := List.exists_of_findSome?_eq_some ht
  exact hf x t hx

/-- A command in a state goes on, and to cores in order where they were. -/
def Runs (s : State) (o : Host.Outcome State Fault Refusal) : Prop := ∃ t, o = .next t ∧ (CoresOk s → CoresOk t)

theorem Runs.next {s t : State} (h : CoresOk s → CoresOk t) : Runs s (.next t) := ⟨t, rfl, h⟩

/-! ## Effects of operations and results of slots -/

/-- Every effect of a list keeps a core in order. -/
def EffOk (l : Effects) : Prop := ∀ f ∈ l, ∀ k, CoreOk k → CoreOk (f k)

theorem EffOk.nil : EffOk [] := fun _ hf => absurd hf List.not_mem_nil

theorem EffOk.cons {f : Core → Core} {l : Effects} (hf : ∀ k, CoreOk k → CoreOk (f k)) (h : EffOk l) : EffOk (f :: l) :=
  List.forall_mem_cons.2 ⟨hf, h⟩

theorem EffOk.append {l m : Effects} (h : EffOk l) (hm : EffOk m) : EffOk (l ++ m) := List.forall_mem_append.2 ⟨h, hm⟩

theorem EffOk.map {α : Type} {l : List α} {f : α → Core → Core} (hf : ∀ x k, CoreOk k → CoreOk (f x k)) : EffOk (l.map f) :=
  List.forall_mem_map.2 fun x _ => hf x

theorem EffOk.flatMap {α : Type} {l : List α} {f : α → Effects} (hf : ∀ x, EffOk (f x)) : EffOk (l.flatMap f) := by
  intro g hg
  obtain ⟨x, -, hx⟩ := List.mem_flatMap.1 hg
  exact hf x g hx

theorem EffOk.take {l : Effects} {n : Nat} (h : EffOk l) : EffOk (l.take n) := fun f hf => h f (List.mem_of_mem_take hf)

theorem CoreOk.run {l : Effects} {k : Core} (hk : CoreOk k) (h : EffOk l) : CoreOk (l.run k) := by
  unfold Effects.run
  induction l generalizing k with
  | nil => exact hk
  | cons f l ih =>
    obtain ⟨hf, hl⟩ := List.forall_mem_cons.1 h
    exact ih (hf k hk) hl

/-- The core that a slot leaves is in order. -/
def SlotOk : SlotRes → Prop
  | .go k => CoreOk k
  | .bad _ => True
  | .late k _ => CoreOk k
  | .hold k _ => CoreOk k

theorem SlotOk.go {k : Core} (h : CoreOk k) : SlotOk (.go k) := h

theorem SlotOk.bad {f : Fail} : SlotOk (.bad f) := trivial

theorem SlotOk.late {k : Core} {f : Fail} (h : CoreOk k) : SlotOk (.late k f) := h

theorem SlotOk.hold {k : Core} {x : Held} (h : CoreOk k) : SlotOk (.hold k x) := h

end Sys2Proof.Proofs
end

section
/-!
SUPPORT. How the cores stay in order under the named operations of the state and of the host interface.
-/
namespace Sys2Proof.Proofs
open Sys2Proof.Machine Sys2Proof.Safety

/-! ## The named operations -/

theorem CoresOk.draw {s : State} {n : Nat} (h : CoresOk s) : CoresOk (s.draw n).2 := h.frame
theorem CoresOk.setSync {s : State} {i : Nat} {x : SyncObj} (h : CoresOk s) : CoresOk (s.setSync i x) := h.frame
theorem CoresOk.setPreg {s : State} {g : Nat} {x : PRegion} (h : CoresOk s) : CoresOk (s.setPreg g x) := h.frame
theorem CoresOk.updPreg {s : State} {g : Nat} {f : PRegion → PRegion} (h : CoresOk s) : CoresOk (s.updPreg g f) := h.setPreg

theorem CoresOk.setCtx {s : State} {i : Nat} {x : Ctx} (h : CoresOk s) : CoresOk (s.setCtx i x) := by
  unfold State.setCtx
  exact h.frame

theorem CoresOk.delCtx {s : State} {i : Nat} (h : CoresOk s) : CoresOk (s.delCtx i) := by
  unfold State.delCtx
  exact h.frame

theorem CoreOk.setArr {k : Core} {a : Nat} {x : Arr} (h : CoreOk k) : CoreOk (k.setArr a x) := by
  unfold Core.setArr
  exact h.frame

theorem CoreOk.setSet {k : Core} {i : Nat} {x : ASet} (h : CoreOk k) : CoreOk (k.setSet i x) := by
  unfold Core.setSet
  exact h.frame

theorem CoreOk.setOq {k : Core} {q : Nat} {l : List OqEntry} (h : CoreOk k) : CoreOk (k.setOq q l) := by
  unfold Core.setOq
  exact h.frame

theorem CoreOk.setIq {k : Core} {q : Nat} {l : List IqEntry} (h : CoreOk k) : CoreOk (k.setIq q l) := by
  unfold Core.setIq
  exact h.frame

theorem CoresOk.emit {s : State} {o : Out} (h : CoresOk s) : CoresOk (s.emit o) := h.frame

theorem CoresOk.silAppend {s : State} {type source : Nat} {payload : Bytes} (h : CoresOk s) :
    CoresOk (s.silAppend type source payload) := by
  unfold State.silAppend
  exact h.frame

theorem CoresOk.sil {s : State} {type source : Nat} {payload : Bytes} (h : CoresOk s) : CoresOk (s.sil type source payload) := by
  unfold State.sil
  dsimp only
  split
  · exact h.frame
  · split
    · exact h.silAppend
    · split
      · exact .frame h.silAppend
      · exact .silAppend (.frame h.silAppend)

theorem CoresOk.notice {s : State} {code source id v : Nat} (h : CoresOk s) : CoresOk (s.notice code source id v) := h.sil

theorem CoresOk.powerTo {s : State} {g : Nat} {st : PState} {cause : Nat} (h : CoresOk s) : CoresOk (s.powerTo g st cause) := by
  unfold State.powerTo
  dsimp only
  split
  · exact h
  · exact h.setPreg.sil

theorem CoresOk.odPending {s : State} {index sub : Nat} (h : CoresOk s) : CoresOk (odPending s index sub) := by
  unfold Machine.odPending
  dsimp only
  split
  · exact h
  · exact h.frame

/-! ## The host interface -/

theorem CoresOk.setSite {s : State} {i : Nat} {x : Site} (h : CoresOk s) : CoresOk (s.setSite i x) := by
  unfold State.setSite
  dsimp only
  split
  · exact h.frame
  · exact h

theorem CoresOk.setMod {s : State} {i m : Nat} {x : Machine.Mod} (h : CoresOk s) : CoresOk (s.setMod i m x) := h.setSite
theorem CoresOk.sendIdle {s : State} {i m : Nat} {nak : Bool} (h : CoresOk s) : CoresOk (s.sendIdle i m nak) := h.setMod.emit
theorem CoresOk.hostTook {s : State} {i m posted read : Nat} (h : CoresOk s) : CoresOk (s.hostTook i m posted read) := h.setMod.sendIdle
theorem CoresOk.drainMod {s : State} {i m : Nat} (h : CoresOk s) : CoresOk (s.drainMod i m) := h.setMod.frame

theorem CoresOk.hostSend {s : State} {i : Nat} {m : HMsg} (h : CoresOk s) : CoresOk (s.hostSend i m) := by
  unfold State.hostSend
  dsimp only
  split
  · exact h
  · exact h.setMod.drainMod

theorem CoresOk.writeGo {i : Nat} {s : State} {i1 i2 : Nat} {l : Bytes} (h : CoresOk s) : CoresOk (writeGo i s i1 i2 l) := by
  induction i generalizing s i1 i2 l with
  | zero => exact h
  | succ n ih =>
    rw [Machine.writeGo]
    dsimp only
    split
    · exact h
    · exact ih h.hostSend

theorem CoresOk.hostWrite {s : State} {i addr : Nat} {d : Bytes} (h : CoresOk s) : CoresOk (s.hostWrite i addr d) := by
  unfold State.hostWrite
  split
  · exact h
  · exact h.writeGo

theorem CoresOk.askGo {i : Nat} {s : State} {i1 i2 i3 : Nat} (h : CoresOk s) : CoresOk (askGo i s i1 i2 i3) := by
  induction i generalizing s i1 i2 i3 with
  | zero => exact h
  | succ n ih =>
    rw [Machine.askGo]
    dsimp only
    split
    · exact h
    · exact ih (.hostSend h.frame)

theorem CoresOk.hostAsk {s : State} {i addr len : Nat} (h : CoresOk s) : CoresOk (s.hostAsk i addr len) := h.askGo

theorem CoresOk.setRing {s : State} {r : Nat} {x : Machine.Ring} (h : CoresOk s) : CoresOk (s.setRing r x) := by
  unfold State.setRing
  exact h.frame

theorem CoresOk.putRecord {s : State} {r : Nat} {b : Bytes} (h : CoresOk s) : CoresOk (s.putRecord r b) := by
  unfold State.putRecord
  dsimp only
  split
  · exact h
  · exact h.hostWrite.setRing

theorem CoresOk.ringIrq {s : State} {r : Nat} (h : CoresOk s) : CoresOk (s.ringIrq r) := by
  unfold State.ringIrq
  split
  · exact h
  · split
    · exact h
    · split
      · exact h.hostSend.setRing
      · exact h.setRing

theorem CoresOk.payOwed {s : State} {r : Nat} (h : CoresOk s) : CoresOk (s.payOwed r) := by
  unfold State.payOwed
  split
  · exact h
  · extract_lets +onlyGivenNames _ _
    split
    · exact h
    · exact .ringIrq (h.setRing.foldl fun s _ hs => hs.putRecord)

theorem CoresOk.putRecords {s : State} {r : Nat} {bs : List Bytes} (h : CoresOk s) : CoresOk (s.putRecords r bs) := by
  unfold State.putRecords
  split
  · exact h
  · exact .ringIrq (h.foldl fun s _ hs => hs.putRecord)

theorem CoresOk.postTo {s : State} {b : Bytes} {r : Nat} (h : CoresOk s) : CoresOk (s.postTo b r) := by
  unfold State.postTo
  dsimp only
  split
  · exact h
  · split
    · split
      · exact h.putRecords
      · exact h.setRing
    · split
      · exact h.setRing
      · exact h.setRing.putRecords

theorem CoresOk.postEvent {s : State} {code status result0 result1 : Nat} (h : CoresOk s) :
    CoresOk (s.postEvent code status result0 result1) :=
  .sil (h.foldl fun _ _ hs => hs.postTo)

theorem CoresOk.setHdl {s : State} {i : Nat} {x : Hdl} (h : CoresOk s) : CoresOk (s.setHdl i x) := by
  unfold State.setHdl
  exact h.frame

theorem CoresOk.setSq {s : State} {q : Nat} {x : Sq} (h : CoresOk s) : CoresOk (s.setSq q x) := by
  unfold State.setSq
  exact h.frame

theorem CoresOk.finish {s : State} {i status detail result0 result1 : Nat} (h : CoresOk s) :
    CoresOk (s.finish i status detail result0 result1) := by
  unfold State.finish
  dsimp only
  split
  · exact h
  · split
    · split
      · exact .sil (h.setHdl.foldl fun s _ hs => hs.postTo)
      · refine .putRecords ?_
        split
        · exact h.setHdl.setRing
        · exact h.setHdl
    · exact h.setHdl

theorem CoresOk.operand {s : State} {o : HOut} {addr len : Nat} {data : Option Bytes} (h : CoresOk s) :
    CoresOk (s.operand o addr len data).1 := by
  unfold State.operand
  dsimp only
  split
  · exact h
  · exact h.hostAsk

theorem CoresOk.keep {s : State} {i : Nat} {f : HOut → HOut} (h : CoresOk s) : CoresOk (s.keep i f) := h.setHdl

theorem CoresOk.onCmd {s : State} {i opcode : Nat} {f : HOut → State} (h : CoresOk s) (hf : ∀ (a : HOut), CoresOk (f a)) :
    CoresOk (s.onCmd i opcode f) := by
  unfold State.onCmd
  split
  · split
    · exact hf _
    · exact h
  · exact h

theorem CoresOk.tagEnded {s : State} {tag : Nat} (h : CoresOk s) : CoresOk (tagEnded s tag) := by
  unfold Machine.tagEnded
  dsimp only
  refine h.foldl fun s _ hs => ?_
  split
  · exact hs
  · split
    · exact hs.keep.finish
    · exact hs.keep

theorem CoresOk.hubDone {s : State} {key : Nat} (h : CoresOk s) : CoresOk (hubDone s key) :=
  .tagEnded h.frame

end Sys2Proof.Proofs
end

section
/-!
SUPPORT. How the cores stay in order under the engines of a core: flags, lines, the effects of operations, and the issue of slots.
-/
namespace Sys2Proof.Proofs
open Sys2Proof.Machine Sys2Proof.Safety

/-! ## Flags and counters of a core -/

theorem CoreOk.count {k : Core} {b i n : Nat} (h : CoreOk k) : CoreOk (k.count b i n) := by
  unfold Core.count
  dsimp only
  split
  · exact h
  · exact h.frame

theorem CoresOk.countField {s : State} {f i n : Nat} (h : CoresOk s) : CoresOk (s.countField f i n) := h.frame

theorem CoreOk.accSet {k : Core} {t e : Nat} {v : W64} (h : CoreOk k) : CoreOk (k.accSet t e v) := by
  unfold Core.accSet
  exact h.frame

theorem CoreOk.statPut {k : Core} {t : Nat} {v : W64} (h : CoreOk k) : CoreOk (k.statPut t v) := by
  unfold Core.statPut
  exact h.frame

theorem CoreOk.sat {k : Core} {t : Nat} (h : CoreOk k) : CoreOk (k.sat t) := h.statPut

theorem CoreOk.accAdd {k : Core} {t e : Nat} {v : Int} (h : CoreOk k) : CoreOk (k.accAdd t e v) := by
  unfold Core.accAdd
  dsimp only
  split
  · exact h.accSet.sat
  · exact h.accSet

theorem CoreOk.accAddAll {t i : Nat} {l : List Int} {k : Core} (h : CoreOk k) : CoreOk (accAddAll t i l k) := by
  induction l generalizing t i k with
  | nil => exact h
  | cons x l ih => exact ih h.accAdd

theorem CoreOk.accClear {k : Core} {t : Nat} (h : CoreOk k) : CoreOk (k.accClear t) := .statPut h.frame
theorem CoreOk.statWrite {k : Core} {t : Nat} {v : W64} (h : CoreOk k) : CoreOk (k.statWrite t v) := h.statPut

/-! ## Operands -/

theorem CoreOk.writeAcc {i i1 : Nat} {l : Bytes} {k : Core} (h : CoreOk k) : CoreOk (writeAcc i i1 l k) := by
  induction i generalizing i1 l k with
  | zero => exact h
  | succ n ih => exact ih h.accSet

theorem CoreOk.writeStat {i i1 : Nat} {l : Bytes} {k : Core} (h : CoreOk k) : CoreOk (writeStat i i1 l k) := by
  induction i generalizing i1 l k with
  | zero => exact h
  | succ n ih =>
    rw [Machine.writeStat]
    refine ih ?_
    split
    · exact h.statWrite
    · exact h

theorem CoreOk.putBytes {k : Core} {a : Nat} {b : Bytes} (h : CoreOk k) : CoreOk (k.putBytes a b) :=
  { h with mem := Memory.wf_write h.mem a b }

theorem CoreOk.writeLine {k : Core} {r c : Nat} {b : Bytes} (h : CoreOk k) : CoreOk (k.writeLine r c b) := by
  unfold Core.writeLine
  dsimp only
  split
  · exact h.putBytes
  · split
    · exact h.writeAcc
    · split
      · exact h.writeStat
      · exact h

theorem CoreOk.writeLines {ls : List (Int × Nat)} {bs : List Bytes} {k : Core} (h : CoreOk k) : CoreOk (writeLines ls bs k) := by
  induction ls generalizing bs k with
  | nil => exact h
  | cons l ls ih => cases bs with
    | nil => exact h
    | cons b bs => exact ih h.writeLine

theorem CoreOk.writeWalk {k : Core} {w : Walk} {bs : List Bytes} (h : CoreOk k) : CoreOk (k.writeWalk w bs) := h.writeLines
theorem CoreOk.writeElems {k : Core} {w : Walk} {vs : List Nat} (h : CoreOk k) : CoreOk (k.writeElems w vs) := h.writeLines
theorem CoreOk.readSoft {k : Core} {a n : Nat} (h : CoreOk k) : CoreOk (k.readSoft a n) := h.count

theorem CoreOk.readSoftLines {k : Core} {ls : List (Int × Nat)} (h : CoreOk k) : CoreOk (k.readSoftLines ls) := by
  unfold Core.readSoftLines
  split
  · exact h
  · exact h.count

/-! ## The vector engine, the tensor mover and the SHA engine -/

theorem EffOk.veWrite {w : Walk} {vs : List (Nat × Bool)} : EffOk (veWrite w vs) := .map (fun _ _ h => h.writeLine.count)

theorem EffOk.satLines {w : Walk} {vs : List (Nat × Bool)} : EffOk (satLines w vs) := by
  intro f hf k hk
  obtain ⟨x, hx, rfl⟩ := List.mem_map.1 hf
  have hmem : x.1.1 ∈ Machine.veWrite w vs := (List.of_mem_zip (List.fst_mem_of_mem_zipIdx hx)).1
  exact (EffOk.veWrite _ hmem k hk).foldl fun k _ hk => hk.sat

theorem EffOk.veArithEff {k : Core} {dd da db : Desc} {f : Nat} {s : W32} : EffOk (veArithEff k dd da db f s) := by
  unfold Machine.veArithEff
  dsimp only
  split
  · exact .cons (fun k1 hk => hk.count) .satLines
  · exact .cons (fun k1 hk => hk.count) .veWrite

theorem EffOk.veNormEff {k : Core} {dd da db : Desc} {f : Nat} {eps : W32} : EffOk (veNormEff k dd da db f eps) :=
  .cons (fun _ hk => hk.count.count) .veWrite

theorem EffOk.veActEff {k : Core} {dd da db : Desc} {f : Nat} : EffOk (veActEff k dd da db f) :=
  .cons (fun _ hk => hk.count.count) .veWrite

theorem EffOk.veFuncEff {k : Core} {dd da : Desc} {f : Nat} : EffOk (veFuncEff k dd da f) := .cons (fun _ hk => hk.count.count) .veWrite
theorem EffOk.veCvtEff {k : Core} {dd da : Desc} : EffOk (veCvtEff k dd da) := .cons (fun _ hk => hk.count.count) .veWrite

theorem EffOk.accOutEff {k : Core} {t : Nat} {dd : Desc} {mult : W32} {st : Bool} {ds : Desc} : EffOk (accOutEff k t dd mult st ds) := by
  unfold Machine.accOutEff
  dsimp only
  refine .cons (fun k1 hk => hk.count.count) (.append .veWrite ?_)
  split
  · exact .veWrite
  · exact .nil

theorem EffOk.accAddEff {k : Core} {t : Nat} {ds : Desc} : EffOk (accAddEff k t ds) :=
  .cons (fun _ hk => hk.count) (.map (fun _ _ hk => hk.accAdd))

theorem EffOk.tmCopyEff {k : Core} {dd ds : Desc} : EffOk (tmCopyEff k dd ds) :=
  .append (.map (fun _ _ hk => hk.writeLine)) (.cons (fun _ hk => hk.count.count.count) .nil)

theorem EffOk.tmFillEff {dd : Desc} {pat : W64} {size : Nat} : EffOk (tmFillEff dd pat size) :=
  .append (.map (fun _ _ h => h.writeLine)) (.cons (fun _ h => h.count) .nil)

theorem EffOk.shaEff {k : Core} {ds : Desc} {a : W32} {fin : Bool} : EffOk (shaEff k ds a fin) := by
  unfold Machine.shaEff
  dsimp only
  split
  · exact .cons (fun k1 hk => hk.writeLine.count.count) .nil
  · exact .cons (fun k1 hk => hk.writeLine.count) .nil

/-! ## Evaluations of the weight arrays -/

theorem EffOk.cimEff {t : Nat} {clear : Bool} {plan : EvalPlan} : EffOk (cimEff t clear plan) := by
  unfold Machine.cimEff
  refine .append ?_ (.flatMap (fun x => .map (fun x1 k h => h.accAdd)))
  split
  · exact .cons (fun k h => h.accClear) .nil
  · exact .nil

/-! ## The attention engine -/

theorem EffOk.aeQkEff {k : Core} {step : Nat} {dd da db : Desc} {t : W32} : EffOk (aeQkEff k step dd da db t) := by
  unfold Machine.aeQkEff
  dsimp only
  split
  · exact .cons (fun k1 hk => hk.count.count) (.cons (fun k1 hk => hk.frame) .nil)
  · refine .append .veWrite (.cons ?_ .nil)
    intro k1 h1
    split
    · refine .count ?_
      split
      · exact .count (.count h1.frame)
      · exact .count (.count (.count h1.frame))
    · split
      · exact .count (.count h1.frame)
      · exact .count (.count (.count h1.frame))

theorem EffOk.aeSmEff {k : Core} {dd da : Desc} {st : W32} : EffOk (aeSmEff k dd da st) := by
  unfold Machine.aeSmEff
  dsimp only
  split
  · exact .nil
  · refine .append ?_ (.cons (fun k1 hk => hk.count) .nil)
    refine .append .veWrite ?_
    split
    · exact .cons (fun k1 hk => hk.count) .nil
    · exact .append (.map (fun x k1 hk => hk.putBytes)) (.cons (fun k1 hk => hk.frame) .nil)

theorem EffOk.aePvEff {k : Core} {dd da db : Desc} : EffOk (aePvEff k dd da db) := by
  unfold Machine.aePvEff
  dsimp only
  split
  · exact .nil
  · exact .map (fun x k1 hk => hk.writeElems)

/-! ## The sampling processor -/

theorem EffOk.spEff {k : Core} {dd ds : Desc} {a : W32} : EffOk (spEff k dd ds a) := by
  unfold Machine.spEff
  dsimp only
  refine .append (.map (fun x k1 hk => hk.writeLine)) (.cons ?_ .nil)
  intro k1 h1
  refine .count (.count (.count ?_))
  split
  · exact .count (.count h1.frame)
  · exact .count (.count (.count (.count h1.frame)))

/-! ## Issue -/

theorem EffOk.counted {b : Nat} {e : Effects} (h : EffOk e) : EffOk (counted b e) := h.append (.cons (fun _ hk => hk.count) .nil)

theorem EffOk.opEffects {k : Core} {a : ActOp} : EffOk (opEffects k a) := by
  unfold Machine.opEffects
  dsimp only
  split
  · exact .counted .tmCopyEff
  · exact .counted .tmFillEff
  · exact .shaEff
  · exact .counted .veArithEff
  · exact .counted .veNormEff
  · exact .counted .veActEff
  · exact .counted .veFuncEff
  · exact .counted .veCvtEff
  · exact .cons (fun k1 hk => hk.accClear.count) .nil
  · exact .counted .accOutEff
  · exact .counted .accAddEff
  · exact .aeQkEff
  · exact .aeSmEff
  · exact .aePvEff
  · exact .spEff
  · split
    · exact .cimEff
    · exact .nil
  · exact .cons (fun k1 hk => hk.frame) (.cons (fun k1 hk => hk.count) .nil)
  · exact .cons (fun k1 hk => hk.setIq.count) (.map (fun x1 k1 hk => hk.writeLine))
  · exact .cons (fun k1 hk => hk.setOq.count) .nil
  · exact .cons (fun k1 hk => hk.setOq.count) .nil

theorem CoreOk.undoEntry {k : Core} {x : Nat × W64} (h : CoreOk k) : CoreOk (k.undoEntry x) := by
  unfold Core.undoEntry
  split
  · exact h.accSet
  · exact h.statPut

theorem CoreOk.remark {k : Core} {bad soft : List Nat} (h : CoreOk k) : CoreOk (k.remark bad soft) := by
  unfold Core.remark
  exact h.frame

theorem CoreOk.suppress {k : Core} (h : CoreOk k) : CoreOk k.suppress := by
  unfold Core.suppress
  split
  · exact h
  next b hb => exact .remark (.foldl ⟨Memory.wf_restore h.mem b.undo, h.pre b hb, .none⟩ fun k1 x1 hx => hx.undoEntry)

theorem CoresOk.modePin {s : State} {g : Nat} {high : Bool} (h : CoresOk s) : CoresOk (s.modePin g high) := h.updPreg.emit
theorem CoresOk.dozeWake {s : State} {g : Nat} (h : CoresOk s) : CoresOk (dozeWake s g) := h.powerTo.updPreg.modePin

theorem CoreOk.freeze {k : Core} (h : CoreOk k) : CoreOk k.freeze := by
  unfold Core.freeze
  split
  · exact h.frame
  · exact h

theorem CoresOk.napIfIdle {s : State} {g : Nat} (h : CoresOk s) : CoresOk (s.napIfIdle g) := by
  unfold State.napIfIdle
  split
  · exact h.powerTo
  · exact h

theorem CoreOk.clockRuns {k : Core} {now : Nat} (h : CoreOk k) : CoreOk (k.clockRuns now) := by
  unfold Core.clockRuns
  exact h.frame

theorem CoresOk.startClock {s : State} {c : Nat} (h : CoresOk s) : CoresOk (s.startClock c) := by
  unfold State.startClock
  split
  · exact h.updCore fun k hk => hk.freeze
  · split
    · exact h.updCore fun k hk => hk.clockRuns
    · exact .powerTo (h.updCore fun k hk => hk.clockRuns)
    · exact h.dozeWake
    · exact h

theorem CoresOk.stopClock {s : State} {c : Nat} (h : CoresOk s) : CoresOk (s.stopClock c) :=
  .napIfIdle (h.updCore fun _ hk => hk.frame)

theorem CoreOk.stopActive {base time eng : Nat} {k : Core} (h : CoreOk k) : CoreOk (stopActive base time eng k) := by
  unfold Machine.stopActive
  dsimp only
  refine h.foldl fun k1 x hx => ?_
  split
  · exact hx
  · exact hx.run (.take .opEffects)

theorem CoreOk.countHeld {k : Core} {now : Nat} (h : CoreOk k) : CoreOk (k.countHeld now) := by
  unfold Core.countHeld
  split
  · exact h.count
  · exact h

theorem CoreOk.halt {base now time eng : Nat} {k : Core} (h : CoreOk k) : CoreOk (Core.halt base now time eng k) := by
  unfold Core.halt
  exact ⟨h.countHeld.stopActive.mem, h.countHeld.stopActive.zero, .none⟩

theorem CoresOk.haltAt {s : State} {c time eng : Nat} {f : Core → Core} (h : CoresOk s) (hf : ∀ k, CoreOk k → CoreOk (f k)) :
    CoresOk (s.haltAt c time eng f) :=
  (h.frame.setCore (hf _ (h.core _).halt)).napIfIdle

theorem CoresOk.haltCore {s : State} {c : Nat} {f : Core → Core} (h : CoresOk s) (hf : ∀ k, CoreOk k → CoreOk (f k)) :
    CoresOk (s.haltCore c f) :=
  h.haltAt hf

theorem CoreOk.reported {k : Core} {f : Fail} {pc slot : Nat} {time : W64} {k1 : Core} (hk : CoreOk k1) :
    CoreOk (k.reported f pc slot time k1) :=
  .frame hk.count

theorem CoresOk.stepFaultAt {s : State} {c : Nat} {f : Fail} {pc slot : Nat} {atIssue : Bool} (h : CoresOk s) :
    CoresOk (stepFaultAt s c f pc slot atIssue) := by
  unfold Machine.stepFaultAt
  extract_lets +onlyGivenNames _
  split
  · exact h
  · extract_lets +onlyGivenNames k2
    have hk2 : CoreOk k2 := by
      unfold k2
      split
      · exact (h.core _).suppress
      · exact h.core _
    exact (h.setCore hk2).haltCore fun a ha => .reported ha

theorem CoresOk.stepFault {s : State} {c : Nat} {f : Fail} {slot : Nat} {atIssue : Bool} (h : CoresOk s) :
    CoresOk (stepFault s c f slot atIssue) :=
  h.stepFaultAt

theorem CoresOk.stepFaultFrom {s : State} {c : Nat} {f : Fail} {issuer : Option (Nat × Nat)} (h : CoresOk s) :
    CoresOk (stepFaultFrom s c f issuer) := by
  unfold Machine.stepFaultFrom
  split
  · exact h.stepFaultAt
  · exact h.stepFault

theorem CoreOk.fetch {k : Core} {pc : Nat} (h : CoreOk k) : CoreOk (k.fetch pc) := .count (.count h.frame)

theorem CoreOk.closeBundle {k : Core} {now : Nat} (h : CoreOk k) : CoreOk (k.closeBundle now) := by
  unfold Core.closeBundle
  dsimp only
  split
  · exact h
  · exact .fetch (.count ⟨h.mem, h.zero, .none⟩)

theorem CoreOk.enter {k : Core} {slot now : Nat} (h : CoreOk k) : CoreOk (k.enter slot now) := by
  unfold Core.enter
  extract_lets +onlyGivenNames k2
  have hk2 : CoreOk k2 := by
    unfold k2
    split
    · split
      · exact h
      · exact h.closeBundle
    · exact h
  split
  next b hb => exact { hk2 with pre := .some (hk2.pre b hb) }
  · exact ⟨hk2.mem, hk2.zero, .some hk2.zero⟩

theorem CoreOk.ldWait {k : Core} {now : Nat} {rs : List (BitVec 5)} (h : CoreOk k) : CoreOk (k.ldWait now rs) := by
  unfold Core.ldWait
  dsimp only
  split
  · refine .count { h with zero := ?_, pre := h.pre.map fun _ hb => hb }
    split
    · exact h.zero
    · exact h.zero
  · exact h

theorem SlotOk.afterLoad {s : State} {rs : List (BitVec 5)} {f : Core → SlotRes} {k : Core} (hk : CoreOk k)
    (hf : ∀ k, CoreOk k → SlotOk (f k)) :
    SlotOk (afterLoad s rs f k) :=
  hf _ hk.ldWait

theorem CoreOk.endSlot {k : Core} {last : Bool} {now : Nat} (h : CoreOk k) : CoreOk (k.endSlot last now) := by
  unfold Core.endSlot
  split
  · exact h.closeBundle
  · exact h

theorem CoresOk.issue {s : State} {core slot opcode : Nat} {last rsv : Bool} {f : Core → SlotRes} (h : CoresOk s)
    (hf : ∀ k, CoreOk k → SlotOk (f k)) : CoresOk (issue s core slot opcode last rsv f) := by
  unfold Machine.issue
  extract_lets k k' res
  have hk' : CoreOk k' := (h.core core).enter
  have hres : SlotOk res := by
    unfold res
    split
    · exact .bad
    · exact hf _ hk'
  clear_value res
  split
  · exact h
  · split
    · exact (h.setCore hk').stepFault
    · cases res with
      | go k => exact h.setCore (CoreOk.endSlot hres)
      | bad e => exact (h.setCore hk').stepFault
      | late k e => exact CoresOk.stepFault (h.setCore hres)
      | hold k x => exact h.setCore (CoreOk.frame hres)

theorem CoreOk.branchTo {k : Core} {t : BitVec 12} (h : CoreOk k) : CoreOk (k.branchTo t) :=
  { h with pre := h.pre.map fun _ hb => hb }

theorem CoreOk.keepEntry {k : Core} {x : Nat × W64} (h : CoreOk k) : CoreOk (k.keepEntry x) :=
  { h with pre := h.pre.map fun _ hb => hb }

theorem CoreOk.keepMarks {k : Core} {p : Nat → Bool} (h : CoreOk k) : CoreOk (k.keepMarks p) :=
  { h with pre := h.pre.map fun _ hb => hb }

theorem CoreOk.writeWin {k : Core} {a : Nat} {v : W64} (h : CoreOk k) : CoreOk (k.writeWin a v) := by
  unfold Core.writeWin
  dsimp only
  split
  · exact h.keepEntry.keepMarks.accSet
  · split
    · exact h.keepEntry.statWrite
    · exact h

theorem CoreOk.storeBytes {k : Core} {a : Nat} {b : Bytes} (h : CoreOk k) : CoreOk (k.storeBytes a b) :=
  { h.keepMarks.putBytes with pre := h.keepMarks.putBytes.pre.map fun _ hb => hb }

theorem CoreOk.memOp_run {now : Nat} {k : Core} {x : MemOp} (h : CoreOk k) : CoreOk (MemOp.run now k x) := by
  unfold MemOp.run
  dsimp only
  split
  · exact { h.readSoft with zero := h.readSoft.zero.setReg }
  · exact h.storeBytes
  · exact { h.readSoft with zero := h.readSoft.zero.setReg.setReg }
  · split
    · exact h.storeBytes
    · exact h.writeWin
  · exact h.readSoft.frame
  · exact h.storeBytes

theorem SlotOk.memSlot {now : Nat} {m : MemOp} {k : Core} (h : CoreOk k) : SlotOk (memSlot now m k) := by
  unfold Machine.memSlot
  split
  · exact .bad
  · split
    · exact .hold h
    · split
      · exact .bad
      · exact .go h.memOp_run

end Sys2Proof.Proofs
end

section
/-!
SUPPORT. How the cores stay in order under the mesh, the slots of a bundle, and what happens inside a core.
-/
namespace Sys2Proof.Proofs
open Sys2Proof.Machine Sys2Proof.Safety

/-! ## The mesh -/

theorem CoresOk.discardFault {s : State} {loc : Nat} {p : Packet} (h : CoresOk s) : CoresOk (discardFault s loc p) := by
  unfold Machine.discardFault
  dsimp only
  split
  · exact h.updCore fun k hk => hk.count
  · exact .stepFaultFrom (h.updCore fun k hk => hk.count)

theorem CoresOk.placeAt {s : State} {loc : Nat} {p : Packet} {col : Bool} (h : CoresOk s) : CoresOk (placeAt s loc p col) := by
  unfold Machine.placeAt
  dsimp only
  split
  · split
    · exact .frame (h.updCore fun k hk => hk.count)
    · exact h
  · exact h.frame

theorem CoresOk.inject {s : State} {c : Nat} {p : Packet} (h : CoresOk s) : CoresOk (inject s c p) := by
  unfold Machine.inject
  dsimp only
  split
  · exact h.placeAt
  · exact h.discardFault

theorem CoresOk.injectSvc {s : State} {c : Nat} {p : Packet} (h : CoresOk s) : CoresOk (injectSvc s c p) := h.placeAt
theorem CoresOk.injectServing {s : State} {c : Nat} {p : Packet} (h : CoresOk s) : CoresOk (injectServing s c p) := h.placeAt

theorem CoreOk.dropAwait {k : Core} {q pos : Nat} (h : CoreOk k) : CoreOk (k.dropAwait q pos) := by
  unfold Core.dropAwait
  exact h.frame

theorem CoreOk.putAwait {k : Core} {a : Await} (h : CoreOk k) : CoreOk (k.putAwait a) := by
  unfold Core.putAwait
  exact h.frame

theorem CoresOk.readyFault {s : State} {c q : Nat} (h : CoresOk s) : CoresOk (readyFault s c q) := by
  unfold Machine.readyFault
  split
  · exact h.stepFaultFrom
  · exact h

theorem CoresOk.complete {s : State} {c : Nat} {a : Await} {status : Nat} (h : CoresOk s) : CoresOk (complete s c a status) := by
  unfold Machine.complete
  extract_lets +onlyGivenNames _ _ k2 _ k3
  have hk2 : CoreOk k2 := by
    unfold k2
    split
    · exact (h.core _).dropAwait
    · exact (h.core _).dropAwait.setIq
  have hk3 : CoreOk k3 := by
    unfold k3
    split
    · split
      · exact hk2.frame
      · exact hk2
    · exact hk2
  exact (h.setCore hk3).readyFault

theorem CoresOk.injectAll {c : Nat} {l : List Packet} {s : State} (h : CoresOk s) : CoresOk (injectAll c l s) := by
  induction l generalizing c s with
  | nil => exact h
  | cons x l ih => exact ih h.inject

theorem OptOk.sendHead {s : State} {c q : Nat} (h : CoresOk s) : OptOk (sendHead s c q) := by
  unfold Machine.sendHead
  extract_lets +onlyGivenNames _
  split
  · exact .ofNone
  · split
    · exact .ofSome ((h.setCore (h.core _).setOq).inject)
    · extract_lets +onlyGivenNames _ _ _ _ _ _
      split
      · exact .ofNone
      · split
        · exact .ofSome h.stepFaultFrom
        · extract_lets +onlyGivenNames _ _ _ _ _ _ k4 s1
          have hk4 : CoreOk k4 := .frame (h.core _).readSoftLines
          have h1 : CoresOk s1 := (h.setCore hk4).updCore fun k1 hk => hk.count
          split
          · exact .ofSome h1.inject
          · exact .ofSome h1.injectAll

theorem CoresOk.pumpQueue {i : Nat} {s : State} {i1 i2 : Nat} (h : CoresOk s) : CoresOk (pumpQueue i s i1 i2) := by
  induction i generalizing s i1 i2 with
  | zero => exact h
  | succ n ih =>
    rw [Machine.pumpQueue]
    split
    next e => exact ih ((OptOk.sendHead h).get e)
    · exact h

theorem CoresOk.pump {s : State} {c : Nat} (h : CoresOk s) : CoresOk (pump s c) := h.foldl fun _ _ hs => hs.pumpQueue

/-! ## The scalar slot -/

theorem CoresOk.aluR {p : Place} {opcode : Nat} {rd rs1 rs2 : BitVec 5} {f : W32 → W32 → W32} {s : State} (h : CoresOk s) :
    CoresOk (aluR p opcode rd rs1 rs2 f s) :=
  h.issue fun _ hk => .afterLoad hk fun _ ha => .go { ha with zero := ha.zero.setReg }

theorem CoresOk.aluI {p : Place} {opcode : Nat} {rd rs1 : BitVec 5} {imm : BitVec 14} {f : W32 → W32 → W32} {s : State}
    (h : CoresOk s) :
    CoresOk (aluI p opcode rd rs1 imm f s) :=
  h.issue fun _ hk => .afterLoad hk fun _ ha => .go { ha with zero := ha.zero.setReg }

theorem CoresOk.branch {p : Place} {opcode : Nat} {rs1 rs2 : BitVec 5} {off : BitVec 14} {f : W32 → W32 → Bool} {s : State}
    (h : CoresOk s) : CoresOk (branch p opcode rs1 rs2 off f s) := by
  unfold Machine.branch
  refine h.issue fun k hk => .afterLoad hk fun a h2 => ?_
  refine .go ?_
  split
  · exact h2.branchTo
  · exact h2

theorem Runs.execAdd {p : Place} {rd rs1 rs2 : BitVec 5} {s : State} : Runs s (execAdd p rd rs1 rs2 s) := .next fun h => h.aluR
theorem Runs.execSub {p : Place} {rd rs1 rs2 : BitVec 5} {s : State} : Runs s (execSub p rd rs1 rs2 s) := .next fun h => h.aluR
theorem Runs.execAnd {p : Place} {rd rs1 rs2 : BitVec 5} {s : State} : Runs s (execAnd p rd rs1 rs2 s) := .next fun h => h.aluR
theorem Runs.execOr {p : Place} {rd rs1 rs2 : BitVec 5} {s : State} : Runs s (execOr p rd rs1 rs2 s) := .next fun h => h.aluR
theorem Runs.execXor {p : Place} {rd rs1 rs2 : BitVec 5} {s : State} : Runs s (execXor p rd rs1 rs2 s) := .next fun h => h.aluR
theorem Runs.execShl {p : Place} {rd rs1 rs2 : BitVec 5} {s : State} : Runs s (execShl p rd rs1 rs2 s) := .next fun h => h.aluR
theorem Runs.execShr {p : Place} {rd rs1 rs2 : BitVec 5} {s : State} : Runs s (execShr p rd rs1 rs2 s) := .next fun h => h.aluR
theorem Runs.execSra {p : Place} {rd rs1 rs2 : BitVec 5} {s : State} : Runs s (execSra p rd rs1 rs2 s) := .next fun h => h.aluR
theorem Runs.execMul {p : Place} {rd rs1 rs2 : BitVec 5} {s : State} : Runs s (execMul p rd rs1 rs2 s) := .next fun h => h.aluR
theorem Runs.execSlt {p : Place} {rd rs1 rs2 : BitVec 5} {s : State} : Runs s (execSlt p rd rs1 rs2 s) := .next fun h => h.aluR
theorem Runs.execSltu {p : Place} {rd rs1 rs2 : BitVec 5} {s : State} : Runs s (execSltu p rd rs1 rs2 s) := .next fun h => h.aluR

theorem Runs.execAddi {p : Place} {rd rs1 : BitVec 5} {imm : BitVec 14} {s : State} : Runs s (execAddi p rd rs1 imm s) :=
  .next fun h => h.aluI

theorem Runs.execAndi {p : Place} {rd rs1 : BitVec 5} {imm : BitVec 14} {s : State} : Runs s (execAndi p rd rs1 imm s) :=
  .next fun h => h.aluI

theorem Runs.execOri {p : Place} {rd rs1 : BitVec 5} {imm : BitVec 14} {s : State} : Runs s (execOri p rd rs1 imm s) :=
  .next fun h => h.aluI

theorem Runs.execXori {p : Place} {rd rs1 : BitVec 5} {imm : BitVec 14} {s : State} : Runs s (execXori p rd rs1 imm s) :=
  .next fun h => h.aluI

theorem Runs.execShli {p : Place} {rd rs1 : BitVec 5} {imm : BitVec 14} {s : State} : Runs s (execShli p rd rs1 imm s) :=
  .next fun h => h.aluI

theorem Runs.execShri {p : Place} {rd rs1 : BitVec 5} {imm : BitVec 14} {s : State} : Runs s (execShri p rd rs1 imm s) :=
  .next fun h => h.aluI

theorem Runs.execSrai {p : Place} {rd rs1 : BitVec 5} {imm : BitVec 14} {s : State} : Runs s (execSrai p rd rs1 imm s) :=
  .next fun h => h.aluI

theorem Runs.execLui {p : Place} {rd : BitVec 5} {imm : BitVec 19} {s : State} : Runs s (execLui p rd imm s) :=
  .next fun h => h.issue fun _ hk => .go { hk with zero := hk.zero.setReg }

theorem Runs.execLd {p : Place} {rd rs1 : BitVec 5} {imm : BitVec 14} {s : State} : Runs s (execLd p rd rs1 imm s) :=
  .next fun h => h.issue fun _ hk => .afterLoad hk fun _ ha => .memSlot ha

theorem Runs.execSt {p : Place} {rs2 rs1 : BitVec 5} {imm : BitVec 14} {s : State} : Runs s (execSt p rs2 rs1 imm s) :=
  .next fun h => h.issue fun _ hk => .afterLoad hk fun _ ha => .memSlot ha

theorem Runs.execLd64 {p : Place} {rd rs1 : BitVec 5} {imm : BitVec 14} {s : State}
    : Runs s (execLd64 p rd rs1 imm s) := by
  unfold Machine.execLd64
  refine .next fun h => h.issue fun k hk => .afterLoad hk fun a h2 => ?_
  split
  · exact .bad
  · exact .memSlot h2

theorem Runs.execSt64 {p : Place} {rs2 rs1 : BitVec 5} {imm : BitVec 14} {s : State}
    : Runs s (execSt64 p rs2 rs1 imm s) := by
  unfold Machine.execSt64
  refine .next fun h => h.issue fun k hk => .afterLoad hk fun a h2 => ?_
  split
  · exact .bad
  · exact .memSlot h2

theorem Runs.execBeq {p : Place} {rs1 rs2 : BitVec 5} {off : BitVec 14} {s : State} : Runs s (execBeq p rs1 rs2 off s) :=
  .next fun h => h.branch

theorem Runs.execBne {p : Place} {rs1 rs2 : BitVec 5} {off : BitVec 14} {s : State} : Runs s (execBne p rs1 rs2 off s) :=
  .next fun h => h.branch

theorem Runs.execBlt {p : Place} {rs1 rs2 : BitVec 5} {off : BitVec 14} {s : State} : Runs s (execBlt p rs1 rs2 off s) :=
  .next fun h => h.branch

theorem Runs.execBge {p : Place} {rs1 rs2 : BitVec 5} {off : BitVec 14} {s : State} : Runs s (execBge p rs1 rs2 off s) :=
  .next fun h => h.branch

theorem Runs.execBltu {p : Place} {rs1 rs2 : BitVec 5} {off : BitVec 14} {s : State} : Runs s (execBltu p rs1 rs2 off s) :=
  .next fun h => h.branch

theorem Runs.execBgeu {p : Place} {rs1 rs2 : BitVec 5} {off : BitVec 14} {s : State} : Runs s (execBgeu p rs1 rs2 off s) :=
  .next fun h => h.branch

theorem Runs.execJmp {p : Place} {rs1 rs2 : BitVec 5} {off : BitVec 14} {s : State}
    : Runs s (execJmp p rs1 rs2 off s) := by
  unfold Machine.execJmp
  refine .next fun h => h.issue fun k hk => ?_
  split
  · exact .bad
  · exact .go hk.branchTo

theorem Runs.execJal {p : Place} {rd : BitVec 5} {off : BitVec 14} {s : State} : Runs s (execJal p rd off s) :=
  .next fun h => h.issue fun _ hk => .go (.branchTo { hk with zero := hk.zero.setReg })

theorem Runs.execJr {p : Place} {rs1 : BitVec 5} {s : State} : Runs s (execJr p rs1 s) :=
  .next fun h => h.issue fun _ hk => .afterLoad hk fun _ ha => .go ha.branchTo

theorem Runs.execLoop {p : Place} {rs1 : BitVec 5} {off : BitVec 14} {s : State} : Runs s (execLoop p rs1 off s) := by
  unfold Machine.execLoop
  dsimp only
  refine .next fun h => h.issue fun k hk => .afterLoad hk fun a h2 => ?_
  split
  · exact .bad
  · split
    · exact .go h2.frame
    · exact .go h2.frame

theorem Runs.execDld {p : Place} {d : BitVec 4} {rs1 : BitVec 5} {imm : BitVec 15} {s : State}
    : Runs s (execDld p d rs1 imm s) :=
  .next fun h => h.issue fun _ hk => .afterLoad hk fun _ ha => .memSlot ha

theorem Runs.execDst {p : Place} {d : BitVec 4} {rs1 : BitVec 5} {imm : BitVec 15} {s : State}
    : Runs s (execDst p d rs1 imm s) :=
  .next fun h => h.issue fun _ hk => .afterLoad hk fun _ ha => .memSlot ha

theorem Runs.execDaddr {p : Place} {d : BitVec 4} {rs1 : BitVec 5} {s : State} : Runs s (execDaddr p d rs1 s) :=
  .next fun h => h.issue fun _ hk => .afterLoad hk fun _ ha => .go ha.frame

theorem Runs.execDaddc {p : Place} {d : BitVec 4} {rs1 : BitVec 5} {s : State} : Runs s (execDaddc p d rs1 s) :=
  .next fun h => h.issue fun _ hk => .afterLoad hk fun _ ha => .go ha.frame

theorem Runs.execCsrr {p : Place} {rd : BitVec 5} {csr : BitVec 14} {s : State} : Runs s (execCsrr p rd csr s) := by
  unfold Machine.execCsrr
  refine .next fun h => h.issue fun k hk => ?_
  split
  · exact .go { hk with zero := hk.zero.setReg }
  · exact .bad

theorem SlotOk.selectSets {k : Core} {mask : BitVec 8} (h : CoreOk k) : SlotOk (selectSets k mask) := by
  unfold Machine.selectSets
  dsimp only
  split
  · exact .bad
  · exact .go h.frame

theorem Runs.execCsrw {p : Place} {rs1 : BitVec 5} {csr : BitVec 14} {s : State} : Runs s (execCsrw p rs1 csr s) := by
  unfold Machine.execCsrw
  refine .next fun h => h.issue fun k hk => .afterLoad hk fun a h2 => ?_
  split
  · exact .selectSets h2
  · exact .bad

theorem Runs.execCimAsel {p : Place} {mask : BitVec 8} {s : State} : Runs s (execCimAsel p mask s) :=
  .next fun h => h.issue fun _ hk => .selectSets hk

theorem Runs.execSlotNop {p : Place} {slot : BitVec 2} {s : State} : Runs s (execSlotNop p slot s) :=
  .next fun h => h.issue fun _ hk => .go hk

theorem Runs.execUndefinedOpcode {p : Place} {slot : BitVec 2} {opcode : Byte} {s : State}
    : Runs s (execUndefinedOpcode p slot opcode s) :=
  .next fun h => h.issue fun _ _ => .bad

/-! ## The dispatch slots and the sync slot -/

theorem CoreOk.enqueue {k : Core} {q : QOp} (h : CoreOk k) : CoreOk (k.enqueue q) := by
  refine ⟨h.mem, h.zero, h.pre.map fun b hb => ?_⟩
  split
  · exact hb
  · exact hb

theorem CoresOk.dispatch {p : DPlace} {opcode : Nat} {op : Core → DOp} {chk : Core → Option Fail} {s : State} {regs : List (BitVec 5)}
    (h : CoresOk s) : CoresOk (dispatch p opcode op chk s regs) := by
  unfold Machine.dispatch
  extract_lets +onlyGivenNames _
  refine h.issue fun k hk => .afterLoad hk fun a h2 => ?_
  split
  · exact .bad
  · extract_lets +onlyGivenNames _
    split
    · exact .hold h2
    · exact .go h2.enqueue

theorem Runs.execTmCopy {p : DPlace} {dd ds : BitVec 4} {s : State} : Runs s (execTmCopy p dd ds s) := .next fun h => h.dispatch

theorem Runs.execTmFill {p : DPlace} {dd : BitVec 4} {rs : BitVec 5} {size : BitVec 2} {s : State}
    : Runs s (execTmFill p dd rs size s) :=
  .next fun h => h.dispatch

theorem Runs.execShaDigest {p : DPlace} {ds : BitVec 4} {rs : BitVec 5} {fin : Bool} {s : State}
    : Runs s (execShaDigest p ds rs fin s) :=
  .next fun h => h.dispatch

theorem Runs.execVeArith {p : DPlace} {dd da db func : BitVec 4} {rs : BitVec 5} {s : State}
    : Runs s (execVeArith p dd da db func rs s) :=
  .next fun h => h.dispatch

theorem Runs.execVeNorm {p : DPlace} {dd da db func : BitVec 4} {rs : BitVec 5} {s : State}
    : Runs s (execVeNorm p dd da db func rs s) :=
  .next fun h => h.dispatch

theorem Runs.execVeAct {p : DPlace} {dd da db func : BitVec 4} {s : State} : Runs s (execVeAct p dd da db func s) :=
  .next fun h => h.dispatch

theorem Runs.execVeFunc {p : DPlace} {dd da func : BitVec 4} {s : State} : Runs s (execVeFunc p dd da func s) :=
  .next fun h => h.dispatch

theorem Runs.execVeCvt {p : DPlace} {dd da : BitVec 4} {s : State} : Runs s (execVeCvt p dd da s) := .next fun h => h.dispatch
theorem Runs.execAccClr {p : DPlace} {t : BitVec 4} {s : State} : Runs s (execAccClr p t s) := .next fun h => h.dispatch

theorem Runs.execAccOut {p : DPlace} {t dd : BitVec 4} {rs : BitVec 5} {stat : Bool} {dstat : BitVec 4} {s : State}
    : Runs s (execAccOut p t dd rs stat dstat s) :=
  .next fun h => h.dispatch

theorem Runs.execAccAdd {p : DPlace} {t ds : BitVec 4} {s : State} : Runs s (execAccAdd p t ds s) := .next fun h => h.dispatch

theorem Runs.execAeQk {p : DPlace} {dd da db : BitVec 4} {rs : BitVec 5} {s : State} : Runs s (execAeQk p dd da db rs s) :=
  .next fun h => h.dispatch

theorem Runs.execAeSm {p : DPlace} {dd da : BitVec 4} {rs : BitVec 5} {s : State} : Runs s (execAeSm p dd da rs s) :=
  .next fun h => h.dispatch

theorem Runs.execAePv {p : DPlace} {dd da db : BitVec 4} {s : State} : Runs s (execAePv p dd da db s) := .next fun h => h.dispatch

theorem Runs.execSpSample {p : DPlace} {dd ds : BitVec 4} {rs : BitVec 5} {s : State}
    : Runs s (execSpSample p dd ds rs s) :=
  .next fun h => h.dispatch

theorem Runs.execCimEval {p : DPlace} {a : BitVec 5} {d t : BitVec 4} {clear narrow : Bool} {mode : BitVec 2} {s : State}
    : Runs s (execCimEval p a d t clear narrow mode s) :=
  .next fun h => h.dispatch

theorem Runs.execCimEvalt {p : DPlace} {a : BitVec 5} {d t : BitVec 4} {clear narrow : Bool} {mode : BitVec 2} {s : State}
    : Runs s (execCimEvalt p a d t clear narrow mode s) :=
  .next fun h => h.dispatch

theorem Runs.execQPush {p : DPlace} {oq : BitVec 3} {rs : BitVec 5} {s : State} : Runs s (execQPush p oq rs s) :=
  .next fun h => h.dispatch

theorem Runs.execQPop {p : DPlace} {iq : BitVec 3} {dd : BitVec 4} {s : State} : Runs s (execQPop p iq dd s) :=
  .next fun h => h.dispatch

theorem Runs.execRmread {p : DPlace} {oq : BitVec 3} {dd ds : BitVec 4} {rs : BitVec 5} {tag : BitVec 7} {s : State}
    : Runs s (execRmread p oq dd ds rs tag s) :=
  .next fun h => h.dispatch

theorem Runs.execNred {p : DPlace} {oq : BitVec 3} {ds : BitVec 4} {rs : BitVec 5} {a : BitVec 2} {id : BitVec 9} {s : State} :
    Runs s (execNred p oq ds rs a id s) :=
  .next fun h => h.dispatch

theorem Runs.execSyncWait {p : Place} {idx : BitVec 15} {rs : BitVec 5} {s : State}
    : Runs s (execSyncWait p idx rs s) := by
  unfold Machine.execSyncWait
  dsimp only
  refine .next fun h => h.issue fun k hk => .afterLoad hk fun a h2 => ?_
  split
  · exact .bad
  · split
    · exact .late h2
    · split
      · exact .go h2
      · exact .hold h2

theorem Runs.execSyncSignal {p : Place} {idx : BitVec 15} {rs : BitVec 5} {one : Bool} {s : State}
    : Runs s (execSyncSignal p idx rs one s) := by
  unfold Machine.execSyncSignal
  dsimp only
  refine .next fun h => h.issue fun k hk => .afterLoad hk fun a h2 => ?_
  split
  · exact .bad
  · split
    · exact .hold h2
    · exact .go h2.frame

theorem Runs.execQwait {p : Place} {outb : Bool} {q : BitVec 3} {n : BitVec 6} {s : State}
    : Runs s (execQwait p outb q n s) := by
  unfold Machine.execQwait
  refine .next fun h => h.issue fun k hk => ?_
  split
  · exact .bad
  · split
    · exact .go hk
    · exact .hold hk

theorem Runs.execFence {p : Place} {mask : BitVec 8} {s : State} : Runs s (execFence p mask s) := by
  unfold Machine.execFence
  refine .next fun h => h.issue fun k hk => ?_
  split
  · exact .go hk
  · exact .hold hk

theorem CoreOk.countWatches {s : State} {region : Nat} {k : Core} (hk : CoreOk k) : CoreOk (countWatches s region k) := by
  unfold Machine.countWatches
  dsimp only
  refine hk.foldl fun k1 x hx => ?_
  split
  · exact hx.frame
  · exact hx

theorem CoreOk.beginStep {k : Core} {now : Nat} {kind : W16} {req : W32} {d : StepDecl} (h : CoreOk k) :
    CoreOk (beginStep k now kind req d) := by
  unfold Machine.beginStep
  exact h.frame

theorem CoresOk.silStep {s : State} {c pc : Nat} (h : CoresOk s) : CoresOk (silStep s c pc) := by
  unfold Machine.silStep
  dsimp only
  split
  · exact h.sil
  · exact h

theorem CoresOk.latchStep {s : State} {c : Nat} (h : CoresOk s) : CoresOk (latchStep s c) := by
  unfold Machine.latchStep
  dsimp only
  split
  · exact h
  · split
    · exact h
    · exact h.frame.updCore fun k hk => hk.frame

theorem Runs.execStep {p : Place} {rs : BitVec 5} {kind : W16} {s : State} : Runs s (execStep p rs kind s) := by
  unfold Machine.execStep
  extract_lets +onlyGivenNames _ s1
  have h1 (h : CoresOk s) : CoresOk s1 := by
    unfold s1
    refine h.issue fun k hk => .afterLoad hk fun a h2 => ?_
    split
    · exact .bad
    · split
      · exact .bad
      · exact .go (.countWatches h2.beginStep)
  refine .next fun h => ?_
  split
  · exact h1 h
  · exact (h1 h).silStep.latchStep

theorem CoreOk.noteDump {k : Core} {w : Nat} (h : CoreOk k) : CoreOk (k.noteDump w) := by
  unfold Core.noteDump
  exact h.frame

theorem Runs.execTag {p : Place} {slotB : Bool} {id : BitVec 20} {s : State} : Runs s (execTag p slotB id s) := by
  refine .next fun h => h.issue fun k hk => ?_
  extract_lets num ws hit name
  have hws : CoreOk (ws.foldl Core.noteDump k) := hk.foldl fun k _ hk => hk.noteDump
  split
  · exact .go ⟨hws.mem, hk.zero, hws.pre⟩
  · exact .bad

/-! ## Inside a core -/

theorem CoresOk.applySignal {s : State} {c : Nat} {region : Option Nat} {idx : Nat} {amt : W32} (h : CoresOk s) :
    CoresOk (applySignal s c region idx amt) := by
  unfold Machine.applySignal
  dsimp only
  split
  · exact h.setSync.sil
  · exact h.setSync

theorem CoresOk.signalAt {s : State} {c idx : Nat} {amt : W32} {issuer : Option (Nat × Nat)} (h : CoresOk s) :
    CoresOk (signalAt s c idx amt issuer) := by
  unfold Machine.signalAt
  split
  · exact h.applySignal
  · exact h.stepFaultFrom

theorem CoresOk.sendSignal {s : State} {c : Nat} {g : Sig} (h : CoresOk s) : CoresOk (sendSignal s c g) := by
  unfold Machine.sendSignal
  dsimp only
  split
  · exact h.signalAt
  · split
    · exact h.stepFaultFrom
    · exact h.inject

theorem CoreOk.unhold {k : Core} {now : Nat} (h : CoreOk k) : CoreOk (k.unhold now) := .endSlot h.frame

theorem CoresOk.resume {s : State} {c : Nat} (h : CoresOk s) : CoresOk (resume s c) := by
  unfold Machine.resume
  dsimp only
  split
  · exact h
  · split
    · exact h
    · split
      · exact h
      · split
        · exact h.stepFault
        · exact h.setCore (h.core _).countHeld.memOp_run.unhold
    · split
      · exact h
      · exact h.setCore (h.core _).countHeld.enqueue.unhold
    · split
      · exact h
      · exact h.setCore (.unhold (.frame (h.core _).countHeld))
    · split
      · exact h.setCore (h.core _).unhold
      · exact h
    · exact h
    · exact h

theorem CoresOk.settle {s : State} {c : Nat} (h : CoresOk s) : CoresOk (settle s c) := h.pump.resume

theorem Runs.execWaitSatisfied {core : Nat} {s : State} : Runs s (execWaitSatisfied core s) := by
  unfold Machine.execWaitSatisfied
  dsimp only
  split
  · exact .next fun h => .startClock (h.setCore (.unhold (.frame (h.core _).countHeld)))
  · exact .next fun h => h

theorem Runs.execClockStop {core : Nat} {s : State} : Runs s (execClockStop core s) := by
  unfold Machine.execClockStop
  dsimp only
  split
  · exact .next fun h => h.stopClock
  · exact .next fun h => h

theorem Runs.execBudgetOverrun {core : Nat} {s : State} : Runs s (execBudgetOverrun core s) := by
  unfold Machine.execBudgetOverrun
  extract_lets +onlyGivenNames _ _
  split
  · exact .next fun h => h.stepFault
  · exact .next fun h => h

theorem Runs.execWaitLimit {core : Nat} {s : State} : Runs s (execWaitLimit core s) := by
  unfold Machine.execWaitLimit
  dsimp only
  split
  · exact .next fun h => h.stepFault
  · exact .next fun h => h

theorem Runs.execActivityOverrun {core : Nat} {s : State} : Runs s (execActivityOverrun core s) := by
  unfold Machine.execActivityOverrun
  dsimp only
  split
  · split
    · exact .next fun h => h
    · exact .next fun h => h.haltAt fun a1 ha => .reported ha
  · exact .next fun h => h

theorem CoreOk.countEval {k : Core} {set : Nat} {turn : Bool} {o : EvalOut} (h : CoreOk k) : CoreOk (countEval k set turn o) :=
  h.count.count.count.count.count.count.count.count.count.count.count.count.count

theorem CoreOk.sampleEval {k : Core} {set array rateLog now : Nat} {v : EvalIn} {o : EvalOut} (h : CoreOk k) :
    CoreOk (sampleEval k set array rateLog now v o) := by
  unfold Machine.sampleEval
  dsimp only
  split
  · exact h
  · split
    · exact h.setSet
    · split
      · exact h.setSet.count
      · exact h.setSet.setSet

theorem CoresOk.precisionEvent {s : State} {layer c a : Nat} (h : CoresOk s) : CoresOk (s.precisionEvent layer c a) := h.postEvent

theorem CoresOk.noteFallback {s : State} {c a : Nat} (h : CoresOk s) : CoresOk (noteFallback s c a) := by
  unfold Machine.noteFallback
  dsimp only
  refine .precisionEvent ?_
  split
  · exact (h.setCore (h.core _).setArr).frame
  · exact h.setCore (h.core _).setArr

theorem Runs.execSignalRelease {core : Nat} {s : State} : Runs s (execSignalRelease core s) := by
  unfold Machine.execSignalRelease
  dsimp only
  split
  · split
    · exact .next fun h => .settle (.sendSignal (h.setCore (.frame (h.core _))))
    · exact .next fun h => h
  · exact .next fun h => h

end Sys2Proof.Proofs
end

section
/-!
SUPPORT. How the cores stay in order under the shared operations of the link, the serving controller, the fault service, placement and
power.
-/
namespace Sys2Proof.Proofs
open Sys2Proof.Machine Sys2Proof.Safety

/-! ## The link -/

theorem CoresOk.sendFrame {s : State} {p : Nat} {f : FFrame} (h : CoresOk s) : CoresOk (s.sendFrame p f) := h.emit

theorem CoresOk.drainChan {s : State} {p peer : Nat} (h : CoresOk s) : CoresOk (s.drainChan p peer) :=
  h.setPort.foldl fun _ _ hs => hs.sendFrame

theorem CoresOk.putFrame {s : State} {p peer : Nat} {f : FFrame} (h : CoresOk s) : CoresOk (s.putFrame p peer f) :=
  h.setPort.drainChan

theorem CoresOk.sendAck {s : State} {p peer : Nat} {nak : Bool} (h : CoresOk s) : CoresOk (s.sendAck p peer nak) := by
  unfold State.sendAck
  dsimp only
  split
  · exact h
  · exact h.setPort.sendFrame

theorem CoresOk.replayChan {s : State} {p peer : Nat} (h : CoresOk s) : CoresOk (s.replayChan p peer) :=
  .foldl h.setPort fun _ _ hs => hs.sendFrame

theorem CoresOk.dropFrame {s : State} (h : CoresOk s) : CoresOk s.dropFrame := by
  unfold State.dropFrame
  exact h.frame

theorem CoresOk.takeAck {s : State} {p peer : Nat} {f : FFrame} (h : CoresOk s) : CoresOk (takeAck s p peer f) := by
  unfold Machine.takeAck
  dsimp only
  refine .drainChan ?_
  split
  · exact h.setPort.replayChan
  · exact h.setPort

theorem CoresOk.takeFrame {s : State} {p : Nat} {f : FFrame} (h : CoresOk s) : CoresOk (s.takeFrame p f).1 := by
  unfold State.takeFrame
  extract_lets x peer s1 c c1 c2 s2
  have hs2 : CoresOk s2 := h.takeAck.setPort
  split
  · exact h.sendAck
  · split
    · exact h.dropFrame
    · split
      · exact h.takeAck
      · split
        · exact h.sendAck
        · dsimp only
          split
          · exact hs2.sendAck
          · exact hs2

theorem CoresOk.sendControl {s : State} {b : BoundImage} {st kind status version : Nat} {extra : Bytes} (h : CoresOk s) :
    CoresOk (sendControl s b st kind status version extra) := by
  unfold Machine.sendControl
  dsimp only
  split
  · exact h.putFrame
  · exact h

theorem CoresOk.sendAllStages {s : State} {b : BoundImage} {kind status version : Nat} (h : CoresOk s) :
    CoresOk (sendAllStages s b kind status version) :=
  h.foldl fun _ _ hs => hs.sendControl

/-! ## The serving controller -/

theorem CoresOk.updCtx {s : State} {c : Nat} {f : Ctx → Ctx} (h : CoresOk s) : CoresOk (s.updCtx c f) := by
  unfold State.updCtx
  split
  · exact h.setCtx
  · exact h

theorem CoresOk.dropEntry {s : State} {n b : Nat} (h : CoresOk s) : CoresOk (dropEntry s n b) := by
  unfold Machine.dropEntry
  exact h.frame

theorem OptOk.reclaim {s : State} {n : Nat} (h : CoresOk s) : OptOk (reclaim s n) :=
  .map (fun _ => h.dropEntry.updRegion)

theorem CoresOk.winWriteGo {i : Nat} {s : State} {x : Window} {i1 : Nat} {l : Bytes} (h : CoresOk s) :
    CoresOk (winWriteGo i s x i1 l) := by
  induction i generalizing s x i1 l with
  | zero => exact h
  | succ n ih =>
    rw [Machine.winWriteGo]
    dsimp only
    split
    · exact h
    · refine ih ?_
      split
      · exact h.hostWrite
      · exact h

theorem CoresOk.winWrite {s : State} {w : Window} {off : Nat} {d : Bytes} (h : CoresOk s) : CoresOk (winWrite s w off d) := h.winWriteGo

theorem CoresOk.winAskGo {i : Nat} {s : State} {x : Window} {i1 i2 : Nat} (h : CoresOk s) : CoresOk (winAskGo i s x i1 i2) := by
  induction i generalizing s x i1 i2 with
  | zero => exact h
  | succ n ih =>
    rw [Machine.winAskGo]
    dsimp only
    split
    · exact h
    · refine ih ?_
      split
      · exact h.hostAsk
      · exact h

theorem CoresOk.winAsk {s : State} {n slot off len : Nat} (h : CoresOk s) : CoresOk (winAsk s n slot off len) := by
  unfold Machine.winAsk
  split
  · split
    · exact h.winAskGo
    · exact h
  · exact h

theorem CoresOk.evictBlk {s : State} {n c i : Nat} (h : CoresOk s) : CoresOk (evictBlk s n c i) := by
  unfold Machine.evictBlk
  dsimp only
  split
  · split
    · split
      · exact h
      · split
        · exact h
        · exact .setCtx (.frame h.winWrite.dropEntry.updRegion)
    · exact h
  · exact h

theorem CoresOk.evictCtx {s : State} {n c : Nat} (h : CoresOk s) : CoresOk (evictCtx s n c) := by
  unfold Machine.evictCtx
  split
  · exact h.foldl fun s _ hs => hs.evictBlk
  · exact h

theorem OptOk.findBlock {s : State} {n nc p : Nat} (h : CoresOk s) : OptOk ((findBlock s n nc p).map (·.1)) := by
  unfold Machine.findBlock
  extract_lets t
  have ht : CoresOk t := by
    unfold t
    split
    next e => exact (OptOk.reclaim h).get e
    · split
      · exact h.evictCtx
      · exact h
  split
  · exact .ofSome h
  · rw [Option.map_map]
    exact .map fun _ => ht

theorem CoresOk.unpack {s : State} {im : BoundImage} {nc b : Nat} (h : CoresOk s) : CoresOk (unpack s im nc b) := by
  unfold Machine.unpack
  refine h.foldl fun s _ hs => ?_
  split
  · split
    · exact hs
    · exact hs.updCore fun k hk => hk.frame
  · exact hs

theorem OptOk.allocNext {s : State} {c : Nat} (h : CoresOk s) : OptOk (allocNext s c) := by
  unfold Machine.allocNext
  split
  · exact .ofNone
  · extract_lets n
    split
    · exact .ofNone
    · extract_lets nc k
      split
      · exact .ofNone
      · split
        · exact .ofNone
        next t b e =>
          have ht : CoresOk t := (OptOk.findBlock h).getFst e
          exact .ofSome ht.unpack.updRegion.updCtx

theorem OptOk.allocUpto {i : Nat} {s : State} {i1 i2 : Nat} (h : CoresOk s) : OptOk (allocUpto i s i1 i2) := by
  induction i generalizing s i1 i2 with
  | zero =>
    rw [Machine.allocUpto]
    split
    · split
      · exact .ofSome h
      · exact .ofNone
    · exact .ofNone
  | succ n ih =>
    rw [Machine.allocUpto]
    split
    · exact .ofNone
    · split
      · exact .ofSome h
      · exact .bind (.allocNext h) fun s hs => ih hs

theorem CoresOk.releaseBlocks {s : State} {n : Nat} {bs : List CtxBlk} (h : CoresOk s) : CoresOk (releaseBlocks s n bs) := by
  unfold Machine.releaseBlocks
  dsimp only
  refine h.foldl fun s _ hs => ?_
  split
  · exact hs
  · exact hs.updRegion

theorem CoresOk.orderRecord {s : State} {r : Nat} {b : Bytes} {kept : Nat} (h : CoresOk s) : CoresOk (s.orderRecord r b kept) := by
  unfold State.orderRecord
  split
  · exact h
  · split
    · exact h.putRecord
    · exact h.setRing

theorem CoresOk.putToken {s : State} {c : Nat} {r : TokRec} (h : CoresOk s) : CoresOk (putToken s c r) := by
  unfold Machine.putToken
  dsimp only
  split
  · exact h
  · split
    · exact h
    · split
      · exact h.setCtx.orderRecord
      · exact h.orderRecord

theorem CoresOk.putTokens {s : State} {c ring : Nat} {rs : List TokRec} (h : CoresOk s) : CoresOk (putTokens s c ring rs) := by
  unfold Machine.putTokens
  split
  · exact h
  · exact .ringIrq (h.foldl fun s _ hs => hs.putToken)

theorem CoresOk.namedCtxs {s : State} {n : Nat} {req : W32} {seq : Option Nat} (h : CoresOk s) : CoresOk (namedCtxs s n req seq).2 := by
  unfold Machine.namedCtxs
  dsimp only
  split
  · exact h
  · split
    · split
      · exact h
      · split
        · exact h.frame
        · exact h.frame
    · exact h

theorem CoresOk.bearWait {s : State} {c : Nat} {req : W32} {seq : Option Nat} {ns : Nat} {f : Ctx → Nat → Ctx} (h : CoresOk s) :
    CoresOk (bearWait s c req seq ns f) := by
  unfold Machine.bearWait
  split
  · exact h
  · split
    · exact h
    · exact h.namedCtxs.foldl fun s _ hs => hs.updCtx

theorem CoresOk.dropAgain {s : State} {n c : Nat} (h : CoresOk s) : CoresOk (dropAgain s n c) := h.updRegion

theorem CoresOk.endReq {s : State} {c status detail : Nat} (h : CoresOk s) : CoresOk (endReq s c status detail) := by
  unfold Machine.endReq
  split
  · exact h
  · split
    · exact h
    · extract_lets +onlyGivenNames _ _ _ _ _ s2 s3 _ _ _ s6
      have h2 : CoresOk s2 := by
        unfold s2
        split
        · exact h
        · split
          · exact h.hostWrite.hostWrite
          · exact h.hostWrite
      have h3 : CoresOk s3 := by
        unfold s3
        split
        · split
          · exact h2
          · exact h2.orderRecord.ringIrq
        · exact h2
      have h6 : CoresOk s6 := .frame h3.releaseBlocks.dropAgain
      split
      · exact h6.setCtx
      · exact h6.delCtx

theorem CoresOk.endReqs {s : State} {cs : List Nat} {status detail : Nat} (h : CoresOk s) : CoresOk (endReqs s cs status detail) :=
  h.foldl fun _ _ hs => hs.endReq

theorem CoresOk.checkCredit {s : State} {c : Nat} (h : CoresOk s) : CoresOk (checkCredit s c) := h.updCtx

theorem CoresOk.reprefill {s : State} {n c : Nat} (h : CoresOk s) : CoresOk (reprefill s n c) := by
  unfold Machine.reprefill
  dsimp only
  split
  · exact h
  · split
    · exact h
    · exact h.releaseBlocks.dropAgain.setCtx

theorem CoresOk.creditsBack {s : State} {r : Nat} (h : CoresOk s) : CoresOk (creditsBack s r) := by
  unfold Machine.creditsBack
  dsimp only
  refine h.payOwed.foldl fun s _ hs => ?_
  split
  · refine .updCtx ?_
    split
    · exact hs.reprefill
    · exact hs
  · exact hs

theorem CoresOk.afterCommit {s : State} {c : Nat} {complete : Bool} (h : CoresOk s) : CoresOk (afterCommit s c complete) := by
  unfold Machine.afterCommit
  split
  · exact h
  · split
    · exact h.endReq
    · split
      · exact h.endReq
      · exact h.checkCredit

theorem CoresOk.commitTokens {s : State} {c : Nat} {v : ServSec} {g : Seg} {gen : Bool} {res : List (Nat × Bytes)} (h : CoresOk s) :
    CoresOk (commitTokens s c v g gen res) := by
  unfold Machine.commitTokens
  dsimp only
  split
  · exact h
  · exact h.putTokens.updCtx.afterCommit

theorem CoresOk.putVector {s : State} {c : Nat} {v : ServSec} {pos : Nat} {b : Bytes} (h : CoresOk s) :
    CoresOk (putVector s c v pos b) := by
  unfold Machine.putVector
  split
  · exact h
  · extract_lets +onlyGivenNames _ _ _ _ s2 _
    have h2 : CoresOk s2 := by
      unfold s2
      split
      · exact h.hostWrite.updCtx
      · exact h.hostWrite
    exact h2.putToken.updCtx

theorem CoresOk.commitVectors {s : State} {c : Nat} {v : ServSec} {g : Seg} {res : List (Nat × Bytes)} (h : CoresOk s) :
    CoresOk (commitVectors s c v g res) := by
  unfold Machine.commitVectors
  dsimp only
  split
  · exact h
  · exact .afterCommit (.updCtx (.ringIrq (h.foldl fun s _ hs => hs.putVector)))

theorem CoresOk.stepLeft {s : State} {n : Nat} {p : StepRec} (h : CoresOk s) : CoresOk (stepLeft s n p) := by
  unfold Machine.stepLeft
  extract_lets +onlyGivenNames s1
  have h1 : CoresOk s1 := h.updRegion
  refine h1.foldl fun s _ hs => ?_
  split
  · exact hs
  · extract_lets +onlyGivenNames _ _ _
    split
    · split
      · exact hs.setCtx
      · exact hs.setCtx.delCtx
    · split
      · split
        · exact hs.setCtx.setCtx.checkCredit
        · split
          · exact hs.setCtx.endReq
          · exact hs.setCtx
      · split
        · exact hs.setCtx.endReq
        · split
          · exact hs.setCtx.endReq
          · exact hs.setCtx

/-! ## Routes of a region -/

theorem CoresOk.newHole {s : State} {c : Nat} (h : CoresOk s) : CoresOk (newHole s c) := h.frame

/-! ## The fault service -/

theorem CoresOk.recordErr {s : State} {r : ErrRec} (h : CoresOk s) : CoresOk (s.recordErr r) :=
  .sil (h.frame.foldl fun _ _ hs => hs.postTo)

theorem CoresOk.dropJob {s : State} {i : Nat} (h : CoresOk s) : CoresOk (dropJob s i) := by
  unfold Machine.dropJob
  dsimp only
  split
  · exact h
  · split
    · exact h.frame
    · split
      · exact .setCtx (.dropAgain (.releaseBlocks h.frame))
      · exact .delCtx (.dropAgain (.releaseBlocks h.frame))

theorem CoresOk.endJob {s : State} {i status detail : Nat} (h : CoresOk s) : CoresOk (endJob s i status detail) := by
  unfold Machine.endJob
  split
  · exact h.dropJob.finish
  · exact h

theorem CoresOk.endFaulted {s : State} {c code : Nat} (h : CoresOk s) : CoresOk (endFaulted s c code) := by
  unfold Machine.endFaulted
  split
  · split
    · exact h.endJob
    · exact h.endReq
  · exact h

theorem CoresOk.endNamed {s : State} {n : Nat} {req : W32} {seq : Option Nat} {code : Nat} (h : CoresOk s) :
    CoresOk (endNamed s n req seq code).1 :=
  h.namedCtxs.foldl fun _ _ hs => hs.endFaulted

theorem CoresOk.disarmVigil {s : State} {n : Nat} (h : CoresOk s) : CoresOk (disarmVigil s n) := by
  unfold Machine.disarmVigil
  split
  · exact .finish h.updRegion
  · exact h

theorem CoresOk.startFlush {s : State} {n code : Nat} (h : CoresOk s) : CoresOk (startFlush s n code) := by
  unfold Machine.startFlush
  dsimp only
  split
  · exact h
  · split
    · exact h
    · split
      · exact .sendAllStages h.setRegion
      · exact h.setRegion

theorem CoresOk.tellFault {s : State} {n : Nat} {rec : Bytes} (h : CoresOk s) : CoresOk (tellFault s n rec) := by
  unfold Machine.tellFault
  split
  · exact h.sendControl
  · exact h

theorem CoresOk.flushFor {s : State} {n code : Nat} {rec : Bytes} (h : CoresOk s) : CoresOk (flushFor s n code rec) := by
  unfold Machine.flushFor
  split
  · exact h.tellFault
  · exact h.startFlush

theorem CoresOk.faultRegion {s : State} {n code v : Nat} (h : CoresOk s) : CoresOk (faultRegion s n code v) := by
  unfold Machine.faultRegion
  dsimp only
  refine .postEvent (.recordErr (.updRegion ?_))
  split
  · split
    · exact .finish (.foldl (h.endReqs.foldl fun s _ hs => hs.endJob) fun s _ hs => hs.finish)
    · exact .foldl (h.endReqs.foldl fun s _ hs => hs.endJob) fun s _ hs => hs.finish
  · exact .foldl (h.endReqs.foldl fun s _ hs => hs.endJob) fun s _ hs => hs.finish

theorem CoresOk.judgeDead {s : State} {c code aux0 : Nat} (h : CoresOk s) : CoresOk (judgeDead s c code aux0) := by
  unfold Machine.judgeDead
  extract_lets k req s1 s2 owner v mk
  have h1 : CoresOk s1 := .odPending (h.haltCore fun k hk => hk.frame)
  have h2 : CoresOk s2 := by
    unfold s2
    split
    · exact h1.newHole
    · exact h1
  clear_value v owner s2
  split
  · exact h
  · split
    · split
      next cs s3 e =>
      extract_lets s4 s5 r
      have h5 : CoresOk s5 := (h2.namedCtxs.ofSnd e).recordErr.foldl fun s _ hs => hs.endFaulted
      clear_value s5
      split
      · exact h5
      · split
        · exact h5
        · split
          · exact h5.flushFor.faultRegion
          · exact .flushFor h5.setRegion
    · exact h2.recordErr

theorem CoresOk.loseBlocks {s : State} {n p : Nat} (h : CoresOk s) : CoresOk (loseBlocks s n p) := by
  unfold Machine.loseBlocks
  dsimp only
  split
  · exact h
  · split
    · exact h
    · exact .foldl (.updRegion h.frame) fun s _ hs => hs.reprefill

theorem CoresOk.reroute {s : State} {n : Nat} (h : CoresOk s) : CoresOk (reroute s n) := by
  unfold Machine.reroute
  dsimp only
  split
  · split
    · exact h
    · split
      · exact h.faultRegion
      · split
        · exact h
        · exact h.setRegion
  · exact h

theorem CoresOk.rerouteAll {s : State} {c : Nat} (h : CoresOk s) : CoresOk (rerouteAll s c) := by
  unfold Machine.rerouteAll
  refine h.foldl fun s _ hs => ?_
  split
  · exact hs.reroute
  · exact hs

theorem CoresOk.coreDies {s : State} {c code aux0 : Nat} (h : CoresOk s) : CoresOk (coreDies s c code aux0) := by
  unfold Machine.coreDies
  dsimp only
  split
  · split
    · exact .rerouteAll (.newHole (h.updCore fun k hk => hk.frame))
    · exact h
  · split
    · exact h.judgeDead.rerouteAll
    · exact h.judgeDead

/-! ## Placement -/

theorem CoresOk.countSpread {s : State} {n : Nat} (h : CoresOk s) : CoresOk (s.countSpread n) := h.frame
theorem CoreOk.startAt {k : Core} {pc now entered : Nat} (h : CoreOk k) : CoreOk (k.startAt pc now entered) :=
  .fetch ⟨h.mem, rfl, .none⟩

theorem OptOk.bindCore {s : State} {n : Nat} {b : BoundImage} {ctl : Bytes} {v : Nat} (h : CoresOk s) : OptOk (bindCore s n b ctl v) := by
  unfold Machine.bindCore
  dsimp only
  split
  · split
    · refine .ofSome (h.setCore ?_)
      split
      · refine .putBytes ?_
        split
        · exact .frame (h.core _).putBytes
        · exact .frame (h.core _)
      · split
        · exact .frame (h.core _).putBytes
        · exact .frame (h.core _)
    · exact .ofNone
  · exact .ofNone

theorem OptOk.bindCores {n : Nat} {b : BoundImage} {ctl : Bytes} {l : List Nat} {s : State} (h : CoresOk s) :
    OptOk (bindCores n b ctl l s) := by
  induction l generalizing n b ctl s with
  | nil => exact .ofSome h
  | cons x l ih => exact .bind (.bindCore h) fun s hs => ih hs

theorem CoresOk.bindReds {s : State} {b : BoundImage} (h : CoresOk s) : CoresOk (bindReds s b) := by
  unfold Machine.bindReds
  dsimp only
  refine h.foldl fun s _ hs => ?_
  split
  · exact hs
  · exact hs.updCore fun k hk => hk.frame

theorem CoresOk.bindSyncs {s : State} {n : Nat} {idx : List Nat} (h : CoresOk s) : CoresOk (bindSyncs s n idx) :=
  h.foldl fun _ _ hs => hs.setSync

theorem OptOk.bindImage {s : State} {n : Nat} {b : BoundImage} {ctl : Bytes} {withSyncs : Bool} (h : CoresOk s) :
    OptOk (bindImage s n b ctl withSyncs) := by
  unfold Machine.bindImage
  dsimp only
  refine .bindCores (.bindReds ?_)
  split
  · exact h.bindSyncs
  · exact h

theorem CoresOk.startCore {s : State} {c : Nat} {bundle : Prog → Nat} (h : CoresOk s) : CoresOk (startCore s c bundle) :=
  .startClock (h.updCore fun _ hk => hk.startAt)

theorem CoresOk.startImage {s : State} {b : BoundImage} {bundle : Prog → Nat} (h : CoresOk s) : CoresOk (startImage s b bundle) := by
  unfold Machine.startImage
  refine h.foldl fun s _ hs => ?_
  split
  · exact hs
  · exact hs.startCore

theorem CoresOk.startCores {s : State} {b : BoundImage} (h : CoresOk s) : CoresOk (startCores s b) := h.startImage

theorem CoresOk.dropImage {s : State} {n : Nat} {b : BoundImage} (h : CoresOk s) : CoresOk (dropImage s n b) := by
  unfold Machine.dropImage
  dsimp only
  refine .foldl ?_ fun s _ hs => hs.haltCore fun a ha => ha.frame
  refine h.foldl fun s _ hs => ?_
  split
  · exact hs.setSync
  · exact hs

/-! ## The power sequencer -/

theorem CoresOk.pmbus {s : State} {g cmd v : Nat} (h : CoresOk s) : CoresOk (s.pmbus g cmd v) := h.emit

theorem CoresOk.pmPage {s : State} {page cmd : Nat} (h : CoresOk s) : CoresOk (s.pmPage page cmd) := by
  unfold State.pmPage
  split
  · exact h.pmbus
  · exact h.emit

theorem CoresOk.setpointOp {s : State} {g mv : Nat} (h : CoresOk s) : CoresOk (setpointOp s g mv) := h.pmbus

theorem CoresOk.readMonitors {s : State} {l : List MonRead} (h : CoresOk s) : CoresOk (readMonitors s l) := by
  unfold Machine.readMonitors
  refine h.foldl fun s _ hs => ?_
  split
  · exact hs.updPreg
  · exact hs

theorem CoresOk.rampUp {s : State} {g : Nat} {w : Wake} (h : CoresOk s) : CoresOk (rampUp s g w) := by
  unfold Machine.rampUp
  dsimp only
  refine .modePin (.updPreg ?_)
  split
  · exact h.countField
  · exact h

theorem CoresOk.darkWake {s : State} {g : Nat} (h : CoresOk s) : CoresOk (darkWake s g) := by
  unfold Machine.darkWake
  dsimp only
  split
  · exact h.powerTo.updPreg.rampUp
  · exact h.powerTo.updPreg

theorem CoreOk.darkened {k : Core} : CoreOk k.darkened := .frame .reset

theorem CoresOk.darkCores {s : State} {g : Nat} (h : CoresOk s) : CoresOk (darkCores s g) := by
  unfold Machine.darkCores
  refine .mapCores h fun c k hk => ?_
  split
  · exact .darkened
  · exact hk

theorem CoresOk.goDark {s : State} {g : Nat} (h : CoresOk s) : CoresOk (goDark s g) := by
  unfold Machine.goDark
  dsimp only
  split
  · exact h
  · exact h.countField.darkCores.powerTo.updPreg.modePin

theorem CoresOk.allDark {s : State} (h : CoresOk s) : CoresOk (allDark s) := h.foldl fun _ _ hs => hs.goDark

theorem CoresOk.wakeDone {s : State} {g : Nat} {w : Wake} (h : CoresOk s) : CoresOk (wakeDone s g w) := by
  unfold Machine.wakeDone
  extract_lets s1 s2 retried s3 s4 s5
  have h1 : CoresOk s1 := by
    unfold s1
    split
    · exact h.countField
    · exact h.countField
  have h2 : CoresOk s2 := by
    unfold s2
    split
    · exact h1.darkCores
    · exact h1
  clear_value s2
  have h3 : CoresOk s3 := by
    unfold s3
    split
    · refine .odPending (h2.mapCores fun c k hk => ?_)
      split
      · exact hk.frame
      · exact hk
    · exact h2
  have h5 : CoresOk s5 := by
    refine CoresOk.foldl (s := s4) h3.powerTo.updPreg fun s c hs => ?_
    split
    · exact hs.startClock
    · exact hs
  split
  · exact h5.powerTo
  · exact h5

theorem CoreOk.addTask {k : Core} {a level : Nat} (h : CoreOk k) : CoreOk (k.addTask a level) := by
  unfold Core.addTask
  dsimp only
  split
  · exact h
  · exact h.setSet

end Sys2Proof.Proofs
end

section
/-!
SUPPORT. How the cores stay in order under packets in the mesh, step faults, flushes and the death of a core.
-/
namespace Sys2Proof.Proofs
open Sys2Proof.Machine Sys2Proof.Safety

/-! ## Packets -/

theorem CoresOk.unmesh {s : State} {i : Nat} (h : CoresOk s) : CoresOk (s.unmesh i) := h.frame
theorem CoresOk.dropPacket {s : State} {loc : Nat} (h : CoresOk s) : CoresOk (dropPacket s loc) := h.updCore fun _ hk => hk.count
theorem CoresOk.reportDamage {s : State} {p : Packet} (h : CoresOk s) : CoresOk (reportDamage s p) := h.stepFaultFrom

theorem CoresOk.damaged {s : State} {loc : Nat} {p : Packet} (h : CoresOk s) : CoresOk (damaged s loc p) :=
  .reportDamage (h.updCore fun _ hk => hk.count)

theorem CoresOk.receiveAt {s : State} {p : Packet} (h : CoresOk s) : CoresOk (receiveAt s p).1 := by
  unfold Machine.receiveAt
  split
  · exact h.reportDamage
  · exact h

theorem CoresOk.bearWake {s : State} {who : Nat × W32 × Option Nat} {ns : Nat} (h : CoresOk s) : CoresOk (bearWake s who ns) :=
  h.bearWait

theorem CoresOk.dozeOver {s : State} {f : Flight} (h : CoresOk s) : CoresOk (dozeOver s f) := by
  unfold Machine.dozeOver
  split
  · exact h.updCore fun k hk => hk.count
  · exact h

theorem CoresOk.dozeHold {s : State} {flight : Nat} {f : Flight} {g : Nat} (h : CoresOk s) : CoresOk (dozeHold s flight f g) := by
  unfold Machine.dozeHold
  dsimp only
  split
  · exact h.frame.dozeWake
  · exact h.frame

theorem CoresOk.arrive {s : State} {i op : Nat} {f : State → Nat → Packet → State} (h : CoresOk s)
    (hf : ∀ (x : State) (n : Nat) (b : Packet), CoresOk x → CoresOk (f x n b)) : CoresOk (arrive s i op f) := by
  unfold Machine.arrive
  dsimp only
  split
  · exact h
  · split
    · exact h
    · split
      · exact h.unmesh.discardFault
      · split
        · exact h.dozeHold
        · split
          · exact h.unmesh.dozeOver.bearWake.damaged
          · split
            · exact h.unmesh.dozeOver.bearWake.receiveAt.dropPacket
            · exact hf _ _ _ h.unmesh.dozeOver.bearWake.receiveAt

theorem CoresOk.toHole {s : State} {loc : Nat} {p : Packet} (h : CoresOk s) : CoresOk (toHole s loc p) := by
  unfold Machine.toHole
  split
  · exact h.dropPacket
  · split
    · exact h.placeAt
    · split
      · exact h.placeAt
      · exact h.discardFault

theorem CoresOk.moveOn {s : State} {flight c : Nat} {p : Packet} {col : Bool} (h : CoresOk s) : CoresOk (moveOn s flight c p col) := by
  unfold Machine.moveOn
  split
  · exact h.unmesh.placeAt
  · exact h.frame

theorem Runs.execPacketHop {flight : Nat} {s : State} : Runs s (execPacketHop flight s) := by
  unfold Machine.execPacketHop
  split
  · exact .next fun h => h
  · extract_lets +onlyGivenNames _
    split
    · exact .next fun h => h.unmesh.dropPacket
    · split
      · exact .next fun h => h
      · split
        · exact .next fun h => h.unmesh.discardFault
        · split
          · exact .next fun h => h.dozeHold
          · split
            · exact .next fun h => h.unmesh.discardFault
            · split
              · exact .next fun h => h.unmesh.toHole
              · split
                · exact .next fun h => h.unmesh.discardFault
                · extract_lets +onlyGivenNames _
                  split
                  · exact .next fun h => h.dozeHold
                  · extract_lets +onlyGivenNames _ s2 s3 _
                    have h2 (h : CoresOk s) : CoresOk s2 := h.dozeOver.bearWake.updCore fun k hk => hk.count.count
                    have h3 (h : CoresOk s) : CoresOk s3 := by
                      unfold s3
                      split
                      · exact h2 h
                      · exact (h2 h).updCore fun k hk => hk.frame
                    split
                    · exact .next fun h => (h3 h).updPreg.unmesh.damaged
                    · split
                      next e10 => exact .next fun h => ((h3 h).updPreg.receiveAt.ofFst e10).moveOn

theorem CoresOk.homeFail {s : State} {c : Nat} {p : Packet} {f : Fail} (h : CoresOk s) : CoresOk (homeFail s c p f) := h.stepFaultFrom
theorem CoresOk.racingLines {s : State} {c : Nat} {ls : List (Int × Nat)} (h : CoresOk s) : CoresOk (racingLines s c ls).2 := h.frame

theorem Runs.execReadReq {flight : Nat} {s : State} : Runs s (execReadReq flight s) := by
  unfold Machine.execReadReq
  dsimp only
  refine .next fun h => h.arrive fun t _ _ ht => ?_
  split
  · exact ht.placeAt
  · split
    · exact ht.homeFail
    · exact .placeAt (ht.racingLines.updCore fun k hk => hk.readSoftLines)

theorem Runs.execRemoteWrite {flight : Nat} {s : State} : Runs s (execRemoteWrite flight s) := by
  unfold Machine.execRemoteWrite
  dsimp only
  refine .next fun h => h.arrive fun t _ _ ht => ?_
  split
  · split
    · exact ht
    · exact ht.updCore fun k hk => hk.writeWalk
  · refine .placeAt ?_
    split
    · exact ht
    · exact ht.updCore fun k hk => hk.writeWalk

theorem CoresOk.joinReply {s : State} {c key : Nat} {p : Packet} {data : Bytes} (h : CoresOk s) : CoresOk (joinReply s c key p data) := by
  unfold Machine.joinReply
  dsimp only
  split
  · split
    · exact h.frame
    · exact h
  · exact h.placeAt

theorem CoresOk.closeReplies {s : State} {c key : Nat} (h : CoresOk s) : CoresOk (closeReplies s c key) := h.frame

theorem Runs.execMergeReq {flight : Nat} {s : State} : Runs s (execMergeReq flight s) := by
  unfold Machine.execMergeReq
  refine .next fun h => h.arrive fun t c _ ht => ?_
  extract_lets +onlyGivenNames w
  split
  · exact ht.placeAt
  · extract_lets +onlyGivenNames l row k key
    split
    · split
      · exact ht.placeAt
      · exact ht.joinReply
    · split
      · exact ht.homeFail
      · extract_lets +onlyGivenNames s1
        have h1 : CoresOk s1 := .closeReplies (ht.updCore fun k hk => hk.readSoftLines)
        split
        next ls s2 e =>
          have h2 : CoresOk s2 := h1.racingLines.ofSnd e
          exact .placeAt (h2.setCore (.frame (h2.core c)))

theorem Runs.execMergeWindowClose {core row col : Nat} {s : State} : Runs s (execMergeWindowClose core row col s) :=
  .next fun h => h.setCore (.frame (h.core _))

theorem CoresOk.landLines {s : State} {c : Nat} {a : Await} {ls : List Bytes} (h : CoresOk s) : CoresOk (landLines s c a ls) := by
  unfold Machine.landLines
  extract_lets +onlyGivenNames _ _ _ k2 _ k3 _
  have hk2 : CoreOk k2 := by
    unfold k2
    split
    · exact (h.core _).foldl fun k1 x1 hx => hx.writeLine
    · exact (h.core _).setIq
  have hk3 : CoreOk k3 := by
    unfold k3
    split
    · exact hk2.setIq
    · exact hk2
  split
  · exact (h.setCore hk3.putAwait).complete
  · exact h.setCore hk3.putAwait

theorem CoresOk.nextMerge {s : State} {c : Nat} {a : Await} (h : CoresOk s) : CoresOk (nextMerge s c a) := by
  unfold Machine.nextMerge
  dsimp only
  split
  · exact h
  · exact h.inject

theorem Runs.execReadReply {flight : Nat} {s : State} : Runs s (execReadReply flight s) := by
  unfold Machine.execReadReply
  refine .next fun h => h.arrive fun t _ _ ht => ?_
  split
  · exact ht
  · split
    · exact ht.landLines.settle
    · exact ht.complete.settle

theorem CoresOk.mergeDeliver {s : State} {c e : Nat} {data : Bytes} (h : CoresOk s) : CoresOk (mergeDeliver s c e data) := by
  unfold Machine.mergeDeliver
  split
  · exact h
  · split
    · exact h.landLines.nextMerge.settle
    · exact h

theorem CoresOk.markReplied {s : State} {loc : Nat} {p : Packet} (h : CoresOk s) : CoresOk (markReplied s loc p) :=
  h.updCore fun _ hk => hk.frame

theorem CoresOk.countCopies {s : State} {loc : Nat} {go : List Branch} (h : CoresOk s) : CoresOk (countCopies s loc go) :=
  h.updCore fun _ hk => hk.count.count

theorem Runs.execMergeReply {flight : Nat} {s : State} : Runs s (execMergeReply flight s) := by
  unfold Machine.execMergeReply
  split
  · exact .next fun h => h
  · split
    · exact .next fun h => h
    · extract_lets +onlyGivenNames _
      split
      · exact .next fun h => h.unmesh.discardFault
      · split
        · exact .next fun h => h.dozeHold
        · extract_lets +onlyGivenNames _ _ _ _ _ _ _ _ _ _ _ s2 _ s3 _ s5 s6 s7
          have h2 (h : CoresOk s) : CoresOk s2 := by
            unfold s2
            split
            · exact h.unmesh.markReplied
            · exact h.unmesh
          have h3 (h : CoresOk s) : CoresOk s3 := by
            unfold s3
            split
            · exact h2 h
            · exact (h2 h).dozeOver.foldl fun s _ hs => hs.bearWake
          have h5 (h : CoresOk s) : CoresOk s5 := (h3 h).countCopies.foldl fun s _ hs => hs.discardFault
          have h6 (h : CoresOk s) : CoresOk s6 := by
            unfold s6
            refine (h5 h).foldl fun s _ hs => ?_
            extract_lets +onlyGivenNames s9 _
            have h9 : CoresOk s9 := by
              unfold s9
              split
              · exact hs
              · exact hs.updCore fun k hk => hk.frame
            split
            · exact h9.updPreg.damaged
            · split
              next e5 => exact (h9.updPreg.receiveAt.ofFst e5).placeAt
          have h7 (h : CoresOk s) : CoresOk s7 := by
            unfold s7
            refine (h6 h).foldl fun s _ hs => ?_
            extract_lets +onlyGivenNames s9 _
            have h9 : CoresOk s9 := by
              unfold s9
              split
              · exact hs.dozeWake
              · exact hs
            exact h9.frame
          split
          · exact .next h7
          · split
            · exact .next fun h => (h7 h).frame
            · split
              · exact .next fun h => (h7 h).damaged
              · split
                next e7 =>
                  split
                  · exact .next fun h => ((h7 h).receiveAt.ofFst e7).dropPacket
                  · exact .next fun h => ((h7 h).receiveAt.ofFst e7).foldl fun s _ hs => hs.mergeDeliver

theorem Runs.execWriteAck {flight : Nat} {s : State} : Runs s (execWriteAck flight s) := by
  unfold Machine.execWriteAck
  refine .next fun h => h.arrive fun t _ _ ht => ?_
  split
  · exact ht
  · exact ht.complete.settle

theorem CoresOk.landReduce {s : State} {c : Nat} {p : Packet} (h : CoresOk s) : CoresOk (landReduce s c p) := by
  unfold Machine.landReduce
  dsimp only
  split
  · exact h.dropPacket
  · split
    · exact h.dropPacket.stepFaultFrom
    · split
      · exact .applySignal (h.setCore (.frame (h.core _).readSoftLines.writeLine.count))
      · exact h.setCore (.frame (h.core _).readSoftLines.writeLine.count)

theorem Runs.execReduce {flight : Nat} {s : State} : Runs s (execReduce flight s) := by
  unfold Machine.execReduce
  refine .next fun h => h.arrive fun t _ _ ht => ?_
  split
  · exact ht.dropPacket
  · exact ht.landReduce

theorem Runs.execSignal {flight : Nat} {s : State} : Runs s (execSignal flight s) := by
  unfold Machine.execSignal
  split
  · exact .next fun h => h
  · split
    · exact .next fun h => h
    · exact .next fun h => h.arrive fun t _ _ ht => ht.signalAt

theorem Runs.execStepToken {flight : Nat} {s : State} : Runs s (execStepToken flight s) := by
  unfold Machine.execStepToken
  split
  · exact .next fun h => h
  · split
    · exact .next fun h => h
    · refine .next fun h => h.arrive fun t _ _ ht => ?_
      split
      · exact ht.dropPacket
      · extract_lets +onlyGivenNames _ s1
        have h11 : CoresOk s1 := by
          unfold s1
          split
          · exact ht.updCore fun k hk => hk.writeLine
          · exact ht
        refine .applySignal ?_
        split
        · exact h11.startClock
        · exact h11

/-! ## Faults -/

theorem CoreOk.clearUnit {k : Core} {u : Nat} (h : CoreOk k) : CoreOk (k.clearUnit u) := by
  unfold Core.clearUnit
  dsimp only
  split
  · exact { h with mem := Memory.wf_filter h.mem _ }
  · exact h.frame

theorem CoresOk.marched {s : State} {c u : Nat} {fails : Bool} {source : Option Bytes} (h : CoresOk s) :
    CoresOk (marched s c u fails source) := by
  unfold Machine.marched
  dsimp only
  split
  · exact h.coreDies
  · split
    · exact .coreDies (h.frame.odPending.updCore fun k hk => hk.clearUnit)
    · exact h.frame.odPending.updCore fun k hk => hk.clearUnit

theorem CoresOk.freezeRegion {s : State} {n : Nat} (h : CoresOk s) : CoresOk (freezeRegion s n) := by
  unfold Machine.freezeRegion
  dsimp only
  refine h.foldl fun s _ hs => ?_
  split
  · exact .napIfIdle (hs.updCore fun k hk => hk.freeze)
  · exact hs

theorem CoresOk.beginVigil {s : State} {n trigger : Nat} {core handle : Option Nat} (h : CoresOk s) :
    CoresOk (beginVigil s n trigger core handle) :=
  .sil (.frame h.startFlush.freezeRegion.updRegion)

theorem Runs.execFault {core : Nat} {marchFails : Bool} {source : Option Bytes} {s : State} :
    Runs s (execFault core marchFails source s) := by
  unfold Machine.execFault
  split
  · exact .next fun h => h
  next r _ =>
    extract_lets s1 owner code
    have h1 (h : CoresOk s) : CoresOk s1 := h.updCore fun k hk => hk.frame
    clear_value owner
    have named (h : CoresOk s) : CoresOk (match owner with | some n => namedCtxs s1 n r.req r.stepSeq | none => ([], s1)).2 := by
      split
      · exact (h1 h).namedCtxs
      · exact h1 h
    split
    next cs s2 e =>
    extract_lets rec_ s3 s4 s5
    have h4 (h : CoresOk s) : CoresOk s4 := ((named h).ofSnd e).recordErr.foldl fun s _ hs => hs.endFaulted
    clear_value s4
    have h5 (h : CoresOk s) : CoresOk s5 := by
      unfold s5
      split
      · exact h4 h
      · extract_lets g
        split
        · split
          · dsimp only
            split
            · exact (h4 h).beginVigil.tellFault
            · exact (h4 h).beginVigil
          · exact (h4 h).flushFor
        · exact (h4 h).flushFor
    refine .next fun h => ?_
    split
    · exact (h5 h).marched
    · exact h5 h

theorem Runs.execImageFlush {region : Nat} {s : State} : Runs s (execImageFlush region s) := by
  unfold Machine.execImageFlush
  dsimp only
  split
  · split
    · exact .next fun h => h
    · exact .next fun h => .updRegion (h.foldl fun s _ hs => hs.injectSvc)
  · exact .next fun h => h

theorem Runs.execFaultActionStop {core : Nat} {s : State} : Runs s (execFaultActionStop core s) := by
  unfold Machine.execFaultActionStop
  dsimp only
  split
  · exact .next fun h => h
  · split
    · exact .next fun h => h.unmesh.haltCore fun a ha => ha
    · exact .next fun h => h.unmesh

theorem CoresOk.requeueSteps {s : State} {n : Nat} (h : CoresOk s) : CoresOk (requeueSteps s n) := by
  unfold Machine.requeueSteps
  extract_lets +onlyGivenNames _ _ _ s1 _ s2
  have h1 : CoresOk s1 := h.setRegion
  have h2 : CoresOk s2 := by
    unfold s2
    refine h1.foldl fun s _ hs => ?_
    split
    · exact hs
    · exact hs.delCtx
  exact h2.frame

theorem CoresOk.clearImage {s : State} {n : Nat} (h : CoresOk s) : CoresOk (clearImage s n) := by
  unfold Machine.clearImage
  extract_lets s1 cs s2 stale _ _ s3 s4
  have h2 : CoresOk s2 := CoresOk.foldl (s := s1) h.frame fun s _ hs => hs.updCore fun k hk => hk.frame
  have h3 : CoresOk s3 := h2.frame
  have h4 : CoresOk s4 := h3.foldl fun s _ hs => hs.hubDone
  exact h4.updRegion

theorem CoresOk.orderRestart {s : State} {n : Nat} (h : CoresOk s) : CoresOk (orderRestart s n) := by
  unfold Machine.orderRestart
  dsimp only
  split
  · exact h
  · refine .updRegion ?_
    refine h.foldl fun s _ hs => ?_
    split
    · exact hs
    · exact hs.injectSvc.updCore fun k hk => hk.frame

theorem CoresOk.tryRelease {s : State} {n : Nat} (h : CoresOk s) : CoresOk (tryRelease s n) := by
  unfold Machine.tryRelease
  dsimp only
  split
  · split
    · exact h
    · split
      · exact .sendControl h.setRegion
      · exact h.setRegion
  · exact h

theorem Runs.execFlushDrained {region : Nat} {s : State} : Runs s (execFlushDrained region s) := by
  unfold Machine.execFlushDrained
  dsimp only
  split
  · split
    · exact .next fun h => h
    · split
      · exact .next fun h => .sendControl h.requeueSteps.clearImage.recordErr.updRegion
      · refine .next fun h => .tryRelease (.orderRestart ?_)
        split
        · exact .sendAllStages h.requeueSteps.clearImage.recordErr.updRegion
        · exact h.requeueSteps.clearImage.recordErr
  · exact .next fun h => h

theorem Runs.execFaultActionRestart {core : Nat} {s : State} : Runs s (execFaultActionRestart core s) := by
  unfold Machine.execFaultActionRestart
  dsimp only
  split
  · exact .next fun h => h
  · split
    · exact .next fun h => h.unmesh
    · refine .next fun h => ?_
      split
      · exact .tryRelease (.startClock (h.unmesh.setCore (.frame (h.unmesh.core _).startAt)))
      · exact .startClock (h.unmesh.setCore (.frame (h.unmesh.core _).startAt))

theorem Runs.execCoreDead {core code aux0 : Nat} {s : State} : Runs s (execCoreDead core code aux0 s) := by
  unfold Machine.execCoreDead
  split
  · exact .next fun h => h.coreDies
  · exact .next fun h => h

theorem Runs.execSequencerWatchdog {core : Nat} {s : State} : Runs s (execSequencerWatchdog core s) := by
  unfold Machine.execSequencerWatchdog
  extract_lets +onlyGivenNames _ _
  split
  · exact .next fun h => h.coreDies
  · exact .next fun h => h

theorem Runs.execHeartbeatMissing {core : Nat} {s : State} : Runs s (execHeartbeatMissing core s) := by
  unfold Machine.execHeartbeatMissing
  dsimp only
  split
  · exact .next fun h => h.coreDies
  · exact .next fun h => h

end Sys2Proof.Proofs
end

section
/-!
SUPPORT. How the cores stay in order under the configuration store, power regions, the end of everything that runs, and cooling.
-/
namespace Sys2Proof.Proofs
open Sys2Proof.Machine Sys2Proof.Safety

/-! ## Dictionary reads -/

theorem CoresOk.setSelection {s : State} {w : Writer} {key v : Nat} (h : CoresOk s) : CoresOk (s.setSelection w key v) := by
  unfold State.setSelection
  exact h.frame

theorem CoresOk.dropShadow {s : State} {w : Writer} {g : Nat} (h : CoresOk s) : CoresOk (dropShadow s w g) := by
  unfold Machine.dropShadow
  exact h.frame

theorem CoresOk.changeCount {s : State} {w : Writer} {admin : Bool} {index sub : Nat} (h : CoresOk s) :
    CoresOk (changeCount s w admin index sub).2 := by
  unfold Machine.changeCount
  dsimp only
  split
  · split
    · split
      · exact h
      · exact .frame h.frame
    · exact h
  · exact h

theorem CoresOk.odBump {s : State} {index sub : Nat} (h : CoresOk s) : CoresOk (odBump s index sub) := by
  unfold Machine.odBump
  exact h.frame

theorem CoresOk.odStore {s : State} {index sub : Nat} {r : OdRow} {v : Bytes} (h : CoresOk s) : CoresOk (odStore s index sub r v) := by
  unfold Machine.odStore
  extract_lets k dflt _ s1 s2
  have h1 : CoresOk s1 := h.frame
  split
  · exact h1.odBump.odPending
  · exact h1.odBump

/-! ## The configuration store -/

theorem Runs.applied {s : State} {index : Nat} {e : OdEff} (he : CoresOk s → CoresOk e.1) : Runs s (applied s index e) := by
  unfold Machine.applied
  refine .next fun h => ?_
  split
  · exact h
  · exact he h

theorem CoresOk.commitCounted {e : OdEff} {index : Nat} (h : CoresOk e.1) : CoresOk (commitCounted e index).1 := by
  unfold Machine.commitCounted
  split
  · exact h.odBump
  · exact h

theorem CoresOk.writeBlock {s : State} {b lay : Nat} {d : StoreData} {aOk bOk : Bool} (h : CoresOk s) :
    CoresOk (writeBlock s b lay d aOk bOk) := by
  unfold Machine.writeBlock
  dsimp only
  split
  · split
    · exact h.frame
    · exact .odPending h.frame
  · exact h.frame

theorem CoresOk.writeNow {s : State} {b lay : Nat} {d : StoreData} (h : CoresOk s) : CoresOk (writeNow s b lay d) := h.frame.writeBlock

theorem CoresOk.saveBlock {s : State} {b : Nat} {aOk bOk : Bool} (h : CoresOk s) : CoresOk (saveBlock s b aOk bOk) :=
  .writeBlock h.frame

theorem CoresOk.saveNow {s : State} {b : Nat} (h : CoresOk s) : CoresOk (saveNow s b) := h.frame.saveBlock
theorem CoresOk.keepRecord {s : State} {n : Nat} (h : CoresOk s) : CoresOk (keepRecord s n) := h.saveNow

theorem CoresOk.saveAll {s : State} (h : CoresOk s) : CoresOk (saveAll s) := by
  unfold Machine.saveAll
  dsimp only
  split
  · exact .saveNow (h.foldl fun s _ hs => hs.saveNow)
  · exact h.foldl fun s _ hs => hs.saveNow

theorem Runs.execBlockSave {block : Nat} {aOk bOk : Bool} {s : State} : Runs s (execBlockSave block aOk bOk s) := by
  unfold Machine.execBlockSave
  split
  · split
    · exact .next fun h => h.saveBlock
    · exact .next fun h => h
  · exact .next fun h => h

theorem CoresOk.flushOp {s : State} {v : Nat} (h : CoresOk s) : CoresOk (flushOp s v).1 := by
  unfold Machine.flushOp
  split
  · exact h.saveAll.odBump
  · exact h

theorem Runs.execFlush {w : Writer} {value : Nat} {s : State} : Runs s (execFlush w value s) := .applied fun h => h.flushOp

theorem CoresOk.keepRegion {s : State} {n : Nat} (h : CoresOk s) : CoresOk (keepRegion s n) := by
  unfold Machine.keepRegion
  extract_lets r i put s1 k
  have hput (t : State) (sub v : Nat) (ht : CoresOk t) : CoresOk (put t sub v) := by
    unfold put
    split
    · exact ht.odStore
    · exact ht
  have h1 : CoresOk s1 := hput _ _ _ (hput _ _ _ (hput _ _ _ (hput _ _ _ (hput _ _ _ h))))
  exact .odPending h1.frame

theorem CoresOk.clearFallbackOp {s : State} {v : Nat} (h : CoresOk s) : CoresOk (clearFallbackOp s v).1 := by
  unfold Machine.clearFallbackOp
  dsimp only
  split
  · exact .odBump h.frame
  · exact h

theorem Runs.execClearFallback {w : Writer} {value : Nat} {s : State} : Runs s (execClearFallback w value s) :=
  .applied fun h => h.clearFallbackOp

theorem CoresOk.restoreKept {s : State} {vals : Tbl Bytes} {rom : Nat} (h : CoresOk s) : CoresOk (restoreKept s vals rom) := by
  unfold Machine.restoreKept
  dsimp only
  refine .foldl ?_ ?_
  · refine .foldl (.mapCores h (fun c k hk => hk.frame)) fun s _ hs => ?_
    split
    · exact hs
    · exact hs.updCore fun k hk => hk.frame
  · intro s1 x h1
    split
    · exact h1
    · exact h1.setPreg

theorem CoresOk.loadStore {s : State} {cold : Bool} {rom : Nat} (h : CoresOk s) : CoresOk (loadStore s cold rom) := by
  unfold Machine.loadStore
  extract_lets lay fell again vals recs _ s1 s2 s3 s4 s5
  have h1 : CoresOk s1 := h.frame
  have h2 : CoresOk s2 := h1.foldl fun s _ hs => hs.notice
  have h4 : CoresOk s4 := by
    refine h2.restoreKept.foldl fun s n hs => ?_
    dsimp only
    split
    · exact hs
    · exact hs.updRegion
  have h5 : CoresOk s5 := h4.frame
  split
  · exact h5
  · exact h5.odPending

theorem CoresOk.saveBoot {s : State} (h : CoresOk s) : CoresOk (saveBoot s) := h.writeNow

theorem CoresOk.shadowOp {s : State} {w : Writer} {index sub : Nat} {v : Bytes} (h : CoresOk s) :
    CoresOk (shadowOp s w index sub v).1 := by
  unfold Machine.shadowOp
  dsimp only
  split
  · exact h
  · split
    · exact h
    · split
      · exact h
      · exact .frame h.dropShadow

theorem Runs.execShadowWrite {w : Writer} {index sub : Nat} {value : Bytes} {s : State}
    : Runs s (execShadowWrite w index sub value s) :=
  .applied fun h => h.shadowOp

theorem CoresOk.discardOp {s : State} {w : Writer} {index : Nat} (h : CoresOk s) : CoresOk (discardOp s w index) := h.dropShadow.odBump

theorem Runs.execShadowDiscard {w : Writer} {index : Nat} {s : State} : Runs s (execShadowDiscard w index s) :=
  .applied fun h => h.discardOp

theorem Runs.execShadowTimeout {w : Writer} {index : Nat} {s : State} : Runs s (execShadowTimeout w index s) := by
  unfold Machine.execShadowTimeout
  split
  · split
    · exact .next fun h => h.dropShadow
    · exact .next fun h => h
  · exact .next fun h => h

theorem CoresOk.segmentOp {s : State} {w : Writer} (h : CoresOk s) : CoresOk (segmentOp s w).1 := by
  unfold Machine.segmentOp
  split
  · exact h
  · extract_lets v code _ s1 put s2
    have h1 : CoresOk s1 := .odBump h.frame
    have hput (t : State) (i sub : Nat) (ht : CoresOk t) : CoresOk (put t i sub) := by
      unfold put
      split
      · exact ht.odStore
      · exact ht
    clear_value put
    have h2 : CoresOk s2 := hput _ _ _ (hput _ _ _ (hput _ _ _ (hput _ _ _ (hput _ _ _ (hput _ _ _ h1)))))
    split
    · exact h1
    · exact h2.dropShadow

theorem Runs.execSegmentCommit {w : Writer} {s : State} : Runs s (execSegmentCommit w s) :=
  .applied fun h => h.segmentOp.commitCounted

/-! ## Power regions -/

theorem Runs.execDozeEntry {g : Nat} {s : State} : Runs s (execDozeEntry g s) := by
  unfold Machine.execDozeEntry
  dsimp only
  split
  · exact .next fun h => h.countField.powerTo.updPreg.modePin
  · exact .next fun h => h

theorem Runs.execDarkEntry {g : Nat} {s : State} : Runs s (execDarkEntry g s) := by
  unfold Machine.execDarkEntry
  dsimp only
  split
  · exact .next fun h => h.goDark
  · exact .next fun h => h

theorem CoresOk.wakeForUpkeep {s : State} {g : Nat} (h : CoresOk s) : CoresOk (wakeForUpkeep s g) := by
  unfold Machine.wakeForUpkeep
  extract_lets p soon
  have hsoon (k : Core) (e : Nat × Arr) (hk : CoreOk k) : CoreOk (soon k e) := by
    unfold soon
    split
    · exact hk.addTask
    · exact hk
  refine CoresOk.mapCores (s := s) h fun c k hk => ?_
  split
  · exact hk.foldl hsoon
  · exact hk

theorem CoresOk.wakeRegion {s : State} {g : Nat} {retry : Bool} (h : CoresOk s) : CoresOk (wakeRegion s g retry) := by
  unfold Machine.wakeRegion
  split
  · exact h.dozeWake
  · exact h.darkWake
  · split
    · exact h.darkWake
    · exact h
  · exact h

theorem Runs.execNeighbourRecheck {look : WakeLook} {s : State} : Runs s (execNeighbourRecheck look s) := by
  unfold Machine.execNeighbourRecheck
  dsimp only
  split
  · split
    · exact .next fun h => h
    · refine .next fun h => ?_
      split
      · exact h.readMonitors.countField.updPreg.rampUp
      · exact h.readMonitors.countField.updPreg
  · exact .next fun h => h

theorem Runs.execWakeWaitLimit {g : Nat} {s : State} : Runs s (execWakeWaitLimit g s) := by
  unfold Machine.execWakeWaitLimit
  dsimp only
  split
  · split
    · exact .next fun h => h
    · exact .next fun h => h.countField.updPreg.notice
  · exact .next fun h => h

theorem CoresOk.loseRegion {s : State} {g cause status : Nat} (h : CoresOk s) : CoresOk (loseRegion s g cause status) := by
  unfold Machine.loseRegion
  split
  · exact h
  · extract_lets +onlyGivenNames s1 s2 s3 held s4 s5
    have h4 : CoresOk s4 := h.countField.powerTo.updPreg.odPending.modePin.frame
    have h5 : CoresOk s5 := h4.foldl fun s _ hs => hs.discardFault
    split
    next dead others _ =>
      extract_lets +onlyGivenNames s6 s7 s8
      have h6 : CoresOk s6 := h5.foldl fun s _ hs => hs.newHole
      have h7 : CoresOk s7 := h6.foldl fun s _ hs => hs.coreDies
      have h8 : CoresOk s8 := by
        refine h7.mapCores fun c k hk => ?_
        split
        · exact .frame .darkened
        · exact hk
      exact h8.pmbus.pmbus

theorem CoresOk.retryFailed {s : State} {g : Nat} (h : CoresOk s) : CoresOk (retryFailed s g) := h.frame.updPreg.odPending.pmbus

theorem CoresOk.wakeFails {s : State} {g : Nat} (h : CoresOk s) : CoresOk (wakeFails s g) := by
  unfold Machine.wakeFails
  split
  · exact h.powerTo.modePin.pmbus.retryFailed
  · exact h.frame.loseRegion

theorem CoresOk.beginRetry {s : State} {g : Nat} (h : CoresOk s) : CoresOk (beginRetry s g) := h.pmbus.pmbus.updPreg

theorem CoresOk.retryOp {s : State} {g v : Nat} (h : CoresOk s) : CoresOk (retryOp s g v).1 := by
  unfold Machine.retryOp
  dsimp only
  split
  · exact h
  · split
    · exact h
    · exact h.beginRetry.odBump

theorem Runs.execRetry {w : Writer} {g value : Nat} {s : State} : Runs s (execRetry w g value s) := by
  unfold Machine.execRetry
  split
  · exact .applied fun h => h.retryOp
  · exact .next fun h => h

theorem Runs.execTelemetry {pages : List PageRead} {s : State} : Runs s (execTelemetry pages s) := by
  unfold Machine.execTelemetry
  dsimp only
  split
  · exact .next fun h => h
  · refine .next fun h => .foldl (h.frame.foldl fun s _ hs => hs.pmPage.pmPage) fun s _ hs => ?_
    split
    · exact hs.updPreg
    · exact hs.frame

theorem Runs.execPowerUpdate {samples : List MonRead} {s : State} : Runs s (execPowerUpdate samples s) :=
  .next fun h => h.readMonitors.frame

/-! ## The end of everything that runs -/

theorem CoresOk.dropEnables {s : State} (h : CoresOk s) : CoresOk (dropEnables s) := h.emit.emit.emit.frame

theorem CoresOk.endEverything {s : State} {code : Nat} (h : CoresOk s) : CoresOk (endEverything s code).1 := by
  unfold Machine.endEverything
  extract_lets s1 cs s2 _ s3
  have h1 : CoresOk s1 := h.frame
  have h2 : CoresOk s2 := h1.endReqs
  exact h2.frame

theorem CoresOk.dropOps {s : State} (h : CoresOk s) : CoresOk (dropOps s) := .frame h

theorem CoresOk.endHandles {s : State} {status detail : Nat} (h : CoresOk s) : CoresOk (endHandles s status detail) :=
  .frame (h.foldl fun _ _ hs => hs.finish)

theorem CoreOk.atStart {k : Core} {now : Nat} : CoreOk (k.atStart now) := .frame .darkened

theorem CoresOk.clearBoth {s : State} {cold : Bool} (h : CoresOk s) : CoresOk (clearBoth s cold) :=
  h.mapCores fun _ _ _ => .atStart

theorem CoresOk.clearCold {s : State} (h : CoresOk s) : CoresOk (clearCold s) := by
  unfold Machine.clearCold
  extract_lets +onlyGivenNames s1
  have h1 : CoresOk s1 := h.clearBoth
  exact h1.frame

theorem CoresOk.disarmAll {s : State} (h : CoresOk s) : CoresOk (disarmAll s) := h.foldl fun _ _ hs => hs.disarmVigil

theorem CoresOk.endService {s : State} {code aux0 : Nat} (h : CoresOk s) : CoresOk (endService s code aux0) :=
  h.disarmAll.endEverything.recordErr.endHandles.dropOps

theorem CoresOk.shutDown {s : State} {cause : Nat} (h : CoresOk s) : CoresOk (shutDown s cause) := by
  unfold Machine.shutDown
  extract_lets +onlyGivenNames _ _ _ _ s4 s5
  have h4 : CoresOk s4 := h.endService.postEvent.frame.odPending.saveAll
  have h5 : CoresOk s5 := by
    unfold s5
    split
    · exact h4
    · exact h4.allDark.dropEnables
  exact .frame h5

theorem CoresOk.trigger {s : State} {kind n : Nat} (h : CoresOk s) : CoresOk (trigger s kind n) :=
  .frame h

theorem CoresOk.orderedStart {s : State} {kind : Nat} (h : CoresOk s) : CoresOk (orderedStart s kind) := h.endService.saveAll.trigger

theorem CoresOk.suddenWarm {s : State} (h : CoresOk s) : CoresOk (suddenWarm s) :=
  .trigger (.dropOps (.frame h.disarmAll.endEverything.recordErr))

/-! ## Cooling -/

theorem CoresOk.setFlag {s : State} {bit region : Nat} (h : CoresOk s) : CoresOk (setFlag s bit region) := by
  unfold Machine.setFlag
  dsimp only
  split
  · exact h
  · split
    · exact h.frame.postEvent
    · exact h.frame

theorem CoresOk.clearFlagsOp {s : State} {mask : W32} (h : CoresOk s) : CoresOk (clearFlagsOp s mask).1 := h.frame.odBump

theorem Runs.execClearFlags {w : Writer} {mask : W32} {s : State} : Runs s (execClearFlags w mask s) :=
  .applied fun h => h.frame.odBump

theorem CoresOk.beginHold {s : State} (h : CoresOk s) : CoresOk (beginHold s) := by
  unfold Machine.beginHold
  dsimp only
  split
  · exact h
  · refine .postEvent (.foldl (.mapCores h (fun c k hk => hk.freeze)) fun s _ hs => ?_)
    split
    · exact hs.powerTo
    · exact hs

theorem CoreOk.thaw {k : Core} {now d : Nat} (h : CoreOk k) : CoreOk (k.thaw now d) := by
  unfold Core.thaw
  exact h.frame

theorem Runs.execTrayRead {sample : Option Bytes} {s : State} : Runs s (execTrayRead sample s) := by
  unfold Machine.execTrayRead
  split
  · exact .next fun h => h
  · extract_lets +onlyGivenNames count
    split
    · exact .next fun h => h
    · extract_lets raw recent best back _ s1 s2 s3
      have h1 (h : CoresOk s) : CoresOk s1 := h.frame
      have h2 (h : CoresOk s) : CoresOk s2 := by
        unfold s2
        split
        · exact (h1 h).setFlag
        · exact h1 h
      have h3 (h : CoresOk s) : CoresOk s3 := by
        unfold s3
        split
        · exact (h2 h).setFlag
        · exact h2 h
      split
      · exact .next fun h => (h3 h).beginHold
      · exact .next h3

theorem Runs.execTrayStale {s : State} : Runs s (execTrayStale s) := by
  unfold Machine.execTrayStale
  dsimp only
  split
  · exact .next fun h => h.frame.setFlag
  · exact .next fun h => h

theorem Runs.execTrayLost {s : State} : Runs s (execTrayLost s) := by
  unfold Machine.execTrayLost
  dsimp only
  split
  · exact .next fun h => h.frame.setFlag.beginHold
  · exact .next fun h => h

theorem CoresOk.faultPair {s : State} {g : Nat} (h : CoresOk s) : CoresOk (faultPair s g) := by
  unfold Machine.faultPair
  dsimp only
  split
  · exact h.setFlag
  · exact h.setPreg.odPending.odPending.setFlag

theorem CoresOk.voteDiodes {s : State} {d : Diodes} (h : CoresOk s) : CoresOk (voteDiodes s d) := by
  unfold Machine.voteDiodes
  extract_lets +onlyGivenNames _ _ _ _ _ _ _ _ _ _ _ _ _ _ _ s2 s3 s4
  have h2 : CoresOk s2 := by
    unfold s2
    split
    · exact h.setPreg
    · exact h.setPreg.odPending
  have h3 : CoresOk s3 := by
    unfold s3
    split
    · exact h2.setFlag
    · exact h2
  have h4 : CoresOk s4 := by
    unfold s4
    split
    · exact h3.setFlag
    · exact h3
  split
  · exact h4.faultPair
  · split
    · exact h4.setFlag
    · exact h4

theorem CoresOk.tempTasks {s : State} {g : Nat} (h : CoresOk s) : CoresOk (tempTasks s g) := by
  unfold Machine.tempTasks
  extract_lets +onlyGivenNames _ _ _ _ s1
  have h1 : CoresOk s1 := by
    unfold s1
    refine .mapCores h fun c k hk => ?_
    split
    · refine hk.foldl fun k1 x1 hx => ?_
      extract_lets +onlyGivenNames _
      split
      · exact hx.addTask
      · exact hx
    · exact hk
  split
  · exact h1.updPreg
  · exact h1

theorem CoresOk.takeSample {s : State} {readings : List Diodes} (h : CoresOk s) : CoresOk (takeSample s readings).1 :=
  .frame (.foldl (h.foldl fun _ _ hs => hs.voteDiodes) fun _ _ hs => hs.tempTasks)

theorem Runs.execDiodeSample {readings : List Diodes} {s : State} : Runs s (execDiodeSample readings s) := by
  unfold Machine.execDiodeSample
  dsimp only
  split
  · exact .next fun h => h.takeSample.shutDown
  · split
    · exact .next fun h => h.takeSample.shutDown
    · exact .next fun h => h.takeSample

theorem Runs.execHoldLimit {s : State} : Runs s (execHoldLimit s) := by
  unfold Machine.execHoldLimit
  dsimp only
  split
  · refine .next fun h => ?_
    split
    · exact h.shutDown
    · exact h.frame
  · exact .next fun h => h

theorem Runs.execPairFault {g : Nat} {s : State} : Runs s (execPairFault g s) := by
  unfold Machine.execPairFault
  split
  · split
    · exact .next fun h => h.faultPair
    · exact .next fun h => h
  · exact .next fun h => h

theorem CoresOk.settleGates {s : State} (h : CoresOk s) : CoresOk (settleGates s) := h.frame

theorem CoresOk.clearPairOp {s : State} {g v : Nat} (h : CoresOk s) : CoresOk (clearPairOp s g v).1 := by
  unfold Machine.clearPairOp
  dsimp only
  split
  · exact h
  · split
    · split
      · exact h.setPreg.odPending.settleGates.odBump
      · exact h
    · exact h

theorem Runs.execClearPairFault {w : Writer} {g value : Nat} {s : State} : Runs s (execClearPairFault w g value s) := by
  unfold Machine.execClearPairFault
  split
  · exact .applied fun h => h.clearPairOp
  · exact .next fun h => h

theorem Runs.execThermalCapUpdate {s : State} : Runs s (execThermalCapUpdate s) := by
  unfold Machine.execThermalCapUpdate
  extract_lets +onlyGivenNames sum n g t tmax fresh num den law cap q off since s1 s2
  have h1 (h : CoresOk s) : CoresOk s1 := h.frame
  have h2 (h : CoresOk s) : CoresOk s2 := by
    unfold s2
    split
    · exact (h1 h).setFlag
    · exact h1 h
  clear_value since
  split
  · split
    · exact .next fun h => (h2 h).setFlag
    · exact .next h2
  · exact .next h2

theorem Runs.execGateUpdate {s : State} : Runs s (execGateUpdate s) :=
  .next fun h => h.frame

theorem Runs.execGateWindow {s : State} : Runs s (execGateWindow s) :=
  .next fun h => .frame h

theorem Runs.execHardwareTrip {g : Nat} {s : State} : Runs s (execHardwareTrip g s) := by
  unfold Machine.execHardwareTrip
  dsimp only
  split
  · exact .next fun h => h
  · split
    · exact .next fun h => h.allDark.dropEnables.frame
    · exact .next fun h => h.allDark.dropEnables.shutDown

theorem CoresOk.coldStartOp {s : State} {v : Nat} (h : CoresOk s) : CoresOk (coldStartOp s v).1 := by
  unfold Machine.coldStartOp
  dsimp only
  split
  · exact h
  · split
    · exact h
    · exact h.odBump.orderedStart

theorem Runs.execColdStartRequest {w : Writer} {value : Nat} {s : State} : Runs s (execColdStartRequest w value s) :=
  .applied fun h => h.coldStartOp

end Sys2Proof.Proofs
end

section
/-!
SUPPORT. How the cores stay in order under admission, region commits, the host links, interface packets and wear.
-/
namespace Sys2Proof.Proofs
open Sys2Proof.Machine Sys2Proof.Safety

/-! ## Admission -/

theorem CoresOk.matchBlock {s : State} {n c : Nat} {e : PfxEnt} (h : CoresOk s) : CoresOk (matchBlock s n c e) :=
  .updCtx (.updRegion h.frame)

theorem CoresOk.lookupGo {n c adapter session : Nat} {l : List Bytes} {s : State} (h : CoresOk s) :
    CoresOk (lookupGo n c adapter session l s) := by
  induction l generalizing n c adapter session s with
  | nil => exact h
  | cons x l ih =>
    rw [Machine.lookupGo]
    dsimp only
    split
    · exact ih h.matchBlock
    · exact h.frame

theorem CoresOk.lookupPrefix {s : State} {c version : Nat} (h : CoresOk s) : CoresOk (lookupPrefix s c version) := by
  unfold Machine.lookupPrefix
  split
  · exact h
  · split
    · exact h
    · exact h.lookupGo

theorem CoresOk.admitTail {s : State} {c : Nat} (h : CoresOk s) : CoresOk (admitTail s c) := by
  unfold Machine.admitTail
  split
  · exact h
  · split
    · exact h
    · split
      · exact h.endReq
      · extract_lets +onlyGivenNames _ _ _
        split
        · exact h.endReq
        · split
          · exact h.endReq
          · split
            · exact h.endReq
            · split
              · exact h.endReq
              · extract_lets +onlyGivenNames _
                split
                · split
                  · exact h.setCtx.lookupPrefix.endReq
                  · exact h.setCtx.lookupPrefix
                · exact h.setCtx.lookupPrefix

theorem CoresOk.admitWaiting {s : State} {n : Nat} (h : CoresOk s) : CoresOk (admitWaiting s n) := by
  unfold Machine.admitWaiting
  dsimp only
  split
  · exact h
  · exact h.foldl fun s _ hs => hs.admitTail

/-! ## Region commits -/

theorem CoresOk.wakeFor {s : State} {r : Region} (h : CoresOk s) : CoresOk (wakeFor s r) := h.foldl fun _ _ hs => hs.wakeRegion

theorem CoresOk.setResult {s : State} {n code : Nat} (h : CoresOk s) : CoresOk (setResult s n code) :=
  .odBump h.updRegion

theorem CoresOk.regionCommitOp {s : State} {w : Writer} {n : Nat} (h : CoresOk s) : CoresOk (regionCommitOp s w n).1 := by
  unfold Machine.regionCommitOp
  split
  · exact h
  · extract_lets r s1
    have h1 : CoresOk s1 := h.wakeFor
    split
    · exact h1
    · split
      · exact h1.setResult
      · exact .dropShadow (.odBump (.keepRegion (.setResult h1.setRegion)))

theorem CoresOk.holdCommit {s : State} {w : Writer} {n : Nat} {via : CommitVia} (h : CoresOk s) : CoresOk (holdCommit s w n via) := by
  unfold Machine.holdCommit
  exact h.frame

theorem Runs.execRegionCommit {w : Writer} {region : Nat} {s : State} : Runs s (execRegionCommit w region s) := by
  unfold Machine.execRegionCommit
  split
  · exact .next fun h => h
  · refine .next fun h => ?_
    split
    · exact h.regionCommitOp.commitCounted.holdCommit
    · exact h.regionCommitOp.commitCounted

theorem CoresOk.regionReleaseOp {s : State} {n : Nat} (h : CoresOk s) : CoresOk (regionReleaseOp s n).1 := by
  unfold Machine.regionReleaseOp
  dsimp only
  split
  · exact h.setResult
  · exact .odBump (.keepRegion (.setResult (.frame h.disarmVigil.updRegion)))

theorem Runs.execRegionRelease {w : Writer} {region : Nat} {s : State} : Runs s (execRegionRelease w region s) := by
  unfold Machine.execRegionRelease
  split
  · exact .applied fun h => h.regionReleaseOp.commitCounted
  · exact .next fun h => h

/-! ## The host links -/

theorem CoresOk.hostRead {s : State} {i addr len : Nat} {use : ReadUse} (h : CoresOk s) : CoresOk (s.hostRead i addr len use) :=
  .hostSend h.frame

theorem CoresOk.dropRead {s : State} {tag : Nat} (h : CoresOk s) : CoresOk (s.dropRead tag) := by
  unfold State.dropRead
  exact h.frame

theorem CoresOk.readCommands {s : State} (h : CoresOk s) : CoresOk (readCommands s) := by
  unfold Machine.readCommands
  dsimp only
  split
  · exact h
  · split
    · exact h
    · exact .hostRead (.frame h.setSq)

theorem CoresOk.custodyCheck {s : State} {op : Nat} {cmd : Bytes} (h : CoresOk s) : CoresOk (custodyCheck s op cmd).2 := by
  unfold Machine.custodyCheck
  dsimp only
  split
  · exact h
  · split
    · exact h
    · split
      · exact h
      · split
        · exact h.frame
        · split
          · exact h
          · exact h.frame

theorem CoresOk.acceptCmd {s : State} {q idx : Nat} {cmd : Bytes} (h : CoresOk s) : CoresOk (acceptCmd s q idx cmd) := by
  unfold Machine.acceptCmd
  split
  · exact h
  · extract_lets +onlyGivenNames _ _ _ _
    split
    · exact h.putRecords
    · split
      next e2 =>
        split
        · exact (h.custodyCheck.ofSnd e2).putRecords
        · extract_lets +onlyGivenNames _
          split
          · exact (h.custodyCheck.ofSnd e2).putRecords
          · extract_lets +onlyGivenNames _ _ _ _ s3 _
            have h3 : CoresOk s3 := .frame ((h.custodyCheck.ofSnd e2).setHdl)
            split
            · exact h3.putRecords.setRing
            · exact h3.putRecords

theorem CoresOk.acceptGo {i : Nat} {s : State} {i1 : Nat} {l : Bytes} (h : CoresOk s) : CoresOk (acceptGo i s i1 l) := by
  induction i generalizing s i1 l with
  | zero => exact h
  | succ n ih =>
    rw [Machine.acceptGo]
    dsimp only
    split
    · exact h
    · split
      · exact h
      · exact ih h.setSq.acceptCmd

theorem CoresOk.failQueue {s : State} {q tail : Nat} (h : CoresOk s) : CoresOk (failQueue s q tail) := by
  unfold Machine.failQueue
  split
  · exact h.setSq.postEvent
  · exact h

theorem CoresOk.ifaceIn {s : State} {c q pos cls status : Nat} {data : List Bytes} (h : CoresOk s) :
    CoresOk (ifaceIn s c q pos cls status data) :=
  h.placeAt

theorem CoresOk.class1Fail {s : State} {c q req status : Nat} (h : CoresOk s) : CoresOk (class1Fail s c q req status) :=
  .ifaceIn h.frame

theorem CoresOk.deliverPage {s : State} {c q req : Nat} {b : Bytes} (h : CoresOk s) : CoresOk (deliverPage s c q req b) :=
  h.foldl fun _ _ hs => hs.ifaceIn

theorem CoresOk.deliverGo {i : Nat} {s : State} {i1 i2 i3 : Nat} (h : CoresOk s) : CoresOk (deliverGo i s i1 i2 i3) := by
  induction i generalizing s i1 i2 i3 with
  | zero => exact h
  | succ n ih =>
    rw [Machine.deliverGo]
    split
    · exact ih h.deliverPage.dropRead.tagEnded
    · exact h

theorem CoresOk.loseSite {s : State} {i : Nat} (h : CoresOk s) : CoresOk (loseSite s i) := by
  unfold Machine.loseSite
  extract_lets +onlyGivenNames t
  split
  · exact h
  · extract_lets +onlyGivenNames _ _ t s1 cmds _ s2 onSite cs s3 gone s4
    have h1 : CoresOk s1 := h.setSite
    have h2 : CoresOk s2 :=
      h1.frame
    have h3 : CoresOk s3 := h2.endReqs
    have h4 : CoresOk s4 := by
      refine h3.foldl fun s e hs => .tagEnded (.dropRead ?_)
      split
      · exact hs.class1Fail
      · exact hs
    exact h4.postEvent

theorem CoresOk.modDown {s : State} {i m : Nat} (h : CoresOk s) : CoresOk (modDown s i m) := by
  unfold Machine.modDown
  dsimp only
  split
  · exact h.setSite.loseSite
  · split
    · exact h.setSite.drainMod
    · exact h.setSite

theorem CoresOk.protocolError {s : State} {i m : Nat} (h : CoresOk s) : CoresOk (protocolError s i m) := by
  unfold Machine.protocolError
  dsimp only
  split
  · exact h.setSite.drainMod
  · exact h.setSite

theorem CoresOk.replayMod {s : State} {i m : Nat} (h : CoresOk s) : CoresOk (replayMod s i m) := h.setSite.frame

theorem CoresOk.takeFlit {s : State} {i m : Nat} {x : FlitHdr} (h : CoresOk s) : CoresOk (takeFlit s i m x) := by
  unfold Machine.takeFlit
  dsimp only
  refine .drainMod ?_
  split
  · exact h.setMod.replayMod
  · exact h.setMod

theorem Runs.execFlit {site module : Nat} {flit : Bytes} {s : State} : Runs s (execFlit site module flit s) := by
  unfold Machine.execFlit
  dsimp only
  split
  · exact .next fun h => h
  · split
    · exact .next fun h => h.takeFlit
    · split
      · exact .next fun h => h.setMod.takeFlit.sendIdle
      · exact .next fun h => h.setSite.sendIdle

theorem CoresOk.modUp {s : State} {i m rate width posted read : Nat} (h : CoresOk s) : CoresOk (modUp s i m rate width posted read) :=
  h.setSite.emit.drainMod.readCommands

theorem Runs.execLinkTrained {site module rate width posted read : Nat} {s : State}
    : Runs s (execLinkTrained site module rate width posted read s) := by
  unfold Machine.execLinkTrained
  dsimp only
  split
  · exact .next fun h => h
  · exact .next fun h => h.modUp

theorem Runs.execModuleDown {port : HostPort} {reported : Bool} {s : State} : Runs s (execModuleDown port reported s) := by
  unfold Machine.execModuleDown
  dsimp only
  split
  · exact .next fun h => h.modDown
  · exact .next fun h => h

theorem Runs.execRetrainTimeout {site module : Nat} {s : State} : Runs s (execRetrainTimeout site module s) := by
  unfold Machine.execRetrainTimeout
  dsimp only
  split
  · refine .next fun h => ?_
    split
    · exact h.setMod.postEvent.loseSite
    · exact h.setMod.postEvent
  · exact .next fun h => h

theorem Runs.execLinkL1Entry {site module : Nat} {s : State} : Runs s (execLinkL1Entry site module s) := by
  unfold Machine.execLinkL1Entry
  dsimp only
  split
  · exact .next fun h => h.setMod
  · exact .next fun h => h

theorem CoresOk.pageCome {s : State} {tag : Nat} {r : RdOut} {b : Bytes} (h : CoresOk s) : CoresOk (s.pageCome tag r b) := by
  unfold State.pageCome
  exact h.frame

theorem Runs.execMrdCpl {site module : Nat} {hdr : BitVec 128} {data : Bytes} {s : State}
    : Runs s (execMrdCpl site module hdr data s) := by
  unfold Machine.execMrdCpl
  dsimp only
  split
  · exact .next fun h => h
  · split
    · exact .next fun h => h.protocolError
    · split
      · exact .next fun h => h.protocolError
      · split
        · exact .next fun h => h.dropRead.tagEnded
        · split
          · refine .next fun h => .readCommands ?_
            split
            · exact h.dropRead.acceptGo
            · exact h.dropRead
          · exact .next fun h => h.dropRead.readCommands
        · exact .next fun h => h.pageCome.deliverGo

theorem Runs.execMrdErr {site module : Nat} {head addr : W64} {s : State}
    : Runs s (execMrdErr site module head addr s) := by
  unfold Machine.execMrdErr
  dsimp only
  split
  · exact .next fun h => h
  · split
    · exact .next fun h => h.protocolError
    · split
      · exact .next fun h => h.protocolError
      · split
        · exact .next fun h => h.dropRead.tagEnded
        · exact .next fun h => h.dropRead.failQueue.readCommands
        · exact .next fun h => h.dropRead.class1Fail.tagEnded

theorem Runs.execEwr {site module : Nat} {hdr : BitVec 128} {value : W64} {s : State}
    : Runs s (execEwr site module hdr value s) := by
  unfold Machine.execEwr
  dsimp only
  split
  · exact .next fun h => h
  · split
    · exact .next fun h => h.protocolError
    · split
      · exact .next fun h => h.hostTook.setSite
      · exact .next fun h => h.hostTook.setSite
      · exact .next fun h => h.hostTook.setSite
      · exact .next fun h => h.hostTook.setSite
      · exact .next fun h => h.hostTook

theorem Runs.execErd {site module : Nat} {head addr : W64} {s : State} : Runs s (execErd site module head addr s) := by
  unfold Machine.execErd
  dsimp only
  split
  · exact .next fun h => h
  · split
    · exact .next fun h => h.protocolError
    · exact .next fun h => h.hostTook.setMod.drainMod

theorem Runs.execSqDoorbell {port : HostPort} {queue : Nat} {value : W64} {s : State}
    : Runs s (execSqDoorbell port queue value s) := by
  unfold Machine.execSqDoorbell
  dsimp only
  split
  · exact .next fun h => h
  · split
    · exact .next fun h => h.hostTook
    · split
      · exact .next fun h => h.hostTook
      · split
        · exact .next fun h => h.hostTook.failQueue
        · exact .next fun h => h.hostTook.setSq.readCommands

theorem Runs.execRingDoorbell {port : HostPort} {value : W64} {s : State} : Runs s (execRingDoorbell port value s) := by
  unfold Machine.execRingDoorbell
  dsimp only
  split
  · exact .next fun h => h
  · split
    · exact .next fun h => .frame h.hostTook
    · split
      · exact .next fun h => h.hostTook.postEvent
      · exact .next fun h => h.hostTook.setRing.creditsBack.readCommands

theorem Runs.execAdminCommit {port : HostPort} {s : State} : Runs s (execAdminCommit port s) := by
  unfold Machine.execAdminCommit
  dsimp only
  split
  · exact .next fun h => h
  · split
    · exact .next fun h => h.hostTook.setSite
    · split
      · exact .next fun h => h.hostTook.setSite
      · exact .next fun h => h.hostTook.setSite.setRing.setSq

theorem Runs.execAdminRelease {port : HostPort} {s : State} : Runs s (execAdminRelease port s) := by
  unfold Machine.execAdminRelease
  dsimp only
  split
  · exact .next fun h => h
  · split
    · exact .next fun h => h.hostTook.setSite
    · exact .next fun h => h.hostTook.setSite.frame

theorem CoresOk.restoreSiteOp {s : State} {i v : Nat} (h : CoresOk s) : CoresOk (restoreSiteOp s i v).1 := by
  unfold Machine.restoreSiteOp
  dsimp only
  split
  · exact h
  · refine .odBump ?_
    split
    · exact h.setSite
    · exact h

theorem Runs.execRestore {w : Writer} {site value : Nat} {s : State} : Runs s (execRestore w site value s) := by
  unfold Machine.execRestore
  split
  · exact .applied fun h => h.restoreSiteOp
  · exact .next fun h => h

theorem Runs.execIrqIntervalExpiry {ring : Nat} {s : State} : Runs s (execIrqIntervalExpiry ring s) := by
  unfold Machine.execIrqIntervalExpiry
  split
  · split
    · split
      · exact .next fun h => h.hostSend.setRing
      · exact .next fun h => h
    · exact .next fun h => h
  · exact .next fun h => h

/-! ## Interface packets -/

theorem CoresOk.class1Written {s : State} {c q req lines status : Nat} (h : CoresOk s) :
    CoresOk (class1Written s c q req lines status) := by
  unfold Machine.class1Written
  dsimp only
  split
  · exact h
  · split
    · exact .ifaceIn (h.updCore fun k hk => hk.putAwait)
    · exact h.updCore fun k hk => hk.putAwait

theorem CoresOk.class1Part {s : State} {p : Packet} (h : CoresOk s) : CoresOk (class1Part s p) := by
  unfold Machine.class1Part
  extract_lets +onlyGivenNames _ _ _ _ _ _ _ _ _ _ s1 _
  have h1 : CoresOk s1 := by
    unfold s1
    split
    · split
      · exact h.winWrite
      · exact h
    · exact h
  split
  · exact h1.class1Written.hubDone
  · exact h1.class1Written.frame

theorem CoresOk.class1Out {s : State} {p : Packet} (h : CoresOk s) : CoresOk (class1Out s p) := by
  unfold Machine.class1Out
  dsimp only
  split
  · exact h.class1Part
  · split
    · exact h.class1Fail
    · split
      · exact h.class1Fail
      · refine h.foldl fun s _ hs => ?_
        split
        · exact hs.hostRead
        · exact hs

theorem CoresOk.class2Done {s : State} {c q req status : Nat} (h : CoresOk s) : CoresOk (class2Done s c q req status) := by
  unfold Machine.class2Done
  dsimp only
  split
  · exact h
  · split
    · exact .ifaceIn h.frame
    · exact h.frame

theorem CoresOk.class2Out {s : State} {p : Packet} (h : CoresOk s) : CoresOk (class2Out s p) := by
  unfold Machine.class2Out
  dsimp only
  split
  · refine .putFrame ?_
    split
    · exact h
    · exact h.frame
  · refine .class2Done ?_
    split
    · exact h
    · exact h.frame

theorem Runs.execIfaceOut {flight : Nat} {s : State} : Runs s (execIfaceOut flight s) := by
  unfold Machine.execIfaceOut
  split
  · exact .next fun h => h
  · split
    · exact .next fun h => h
    · refine .next fun h => h.arrive fun t _ _ ht => ?_
      extract_lets +onlyGivenNames _ _
      split
      · exact ht.discardFault
      · split
        · exact ht.class2Out
        · exact ht.class1Out

theorem CoresOk.wackFor {s : State} {port peer version dstStage srcStage specific status lines : Nat} (h : CoresOk s) :
    CoresOk (wackFor s port peer version dstStage srcStage specific status lines) :=
  h.putFrame

theorem CoresOk.landData {s : State} {c : Nat} {p : Packet} (h : CoresOk s) : CoresOk (landData s c p) := by
  unfold Machine.landData
  dsimp only
  split
  · split
    · exact h
    · exact h.updCore fun k hk => hk.foldl fun k1 x1 hx => hx.writeLine
  · refine .wackFor ?_
    split
    · split
      · exact h
      · exact h.updCore fun k hk => hk.foldl fun k1 x1 hx => hx.writeLine
    · refine .applySignal ?_
      split
      · exact h
      · exact h.updCore fun k hk => hk.foldl fun k1 x1 hx => hx.writeLine

theorem Runs.execIfaceIn {flight : Nat} {s : State} : Runs s (execIfaceIn flight s) := by
  unfold Machine.execIfaceIn
  split
  · exact .next fun h => h
  · split
    · exact .next fun h => h
    · refine .next fun h => h.arrive fun t _ _ ht => ?_
      split
      · exact ht.landData
      · split
        · exact ht
        · split
          · exact ht.complete.settle
          · exact ht.landLines.settle

/-! ## Wear -/

theorem CoresOk.stopImage {s : State} {n c a : Nat} (h : CoresOk s) : CoresOk (stopImage s n c a) :=
  .postEvent (.foldl (.endReqs h.updRegion) fun _ _ hs => hs.endJob)

theorem CoresOk.retireArray {s : State} {c a cause : Nat} (h : CoresOk s) : CoresOk (retireArray s c a cause) := by
  unfold Machine.retireArray
  extract_lets +onlyGivenNames owner s1 _ s2
  have h1 : CoresOk s1 := h.updCore fun k hk => hk.setArr.setSet
  have h2 : CoresOk s2 := h1.frame
  clear_value owner s2
  split
  · exact h2
  · extract_lets +onlyGivenNames r
    split
    · exact h2
    · extract_lets +onlyGivenNames inSwap s3
      have h3 : CoresOk s3 := by
        unfold s3
        split
        · exact h2.updRegion
        · exact h2
      split
      · exact h3
      · split
        · split
          · exact h3
          · exact h3.stopImage
        · exact h3.updRegion

theorem CoresOk.wornColumn {s : State} {c a j : Nat} {lv : Nat → List Nat} (h : CoresOk s) : CoresOk (wornColumn s c a j lv) := by
  unfold Machine.wornColumn
  dsimp only
  split
  · exact h
  · split
    · split
      · exact h.setCore (h.core _).setArr.addTask
      · exact h.setCore (h.core _).setArr.addTask
    · split
      · exact h.setCore (h.core _).setArr
      · exact h.retireArray

theorem CoresOk.readRecord {s : State} {c a base : Nat} (h : CoresOk s) : CoresOk (s.readRecord c a base).2 := by
  unfold State.readRecord
  dsimp only
  exact h.updCore fun k hk => hk.count

theorem CoreOk.makeRoom {k : Core} {a new : Nat} (h : CoreOk k) : CoreOk (k.makeRoom a new) := by
  unfold Core.makeRoom
  dsimp only
  split
  · exact h
  · exact .setSet (h.foldl fun k1 x hx => hx.setArr)

theorem CoresOk.programArray {s : State} {c a : Nat} {b : Bytes} {tile : Nat × Nat × Nat} {failed : List Nat} (h : CoresOk s) :
    CoresOk (programArray s c a b tile failed) :=
  .foldl (h.frame.updCore fun _ hk => hk.makeRoom.setArr.setSet) fun _ _ hs => hs.wornColumn

end Sys2Proof.Proofs
end

section
/-!
SUPPORT. How the cores stay in order under loads, swaps, relocations and rebindings.
-/
namespace Sys2Proof.Proofs
open Sys2Proof.Machine Sys2Proof.Safety

/-! ## Loads -/

theorem CoresOk.setOp {s : State} {n : Nat} {o : LoadOp} (h : CoresOk s) : CoresOk (setOp s n o) := h.updRegion

theorem CoresOk.opProgress {s : State} {n : Nat} (h : CoresOk s) : CoresOk (opProgress s n) := by
  unfold Machine.opProgress
  split
  · split
    · exact h.keep
    · exact h
  · exact h

theorem CoresOk.beginProgram {s : State} {n : Nat} {p : Nat × Nat} (h : CoresOk s) : CoresOk (beginProgram s n p) := by
  unfold Machine.beginProgram
  dsimp only
  split
  · exact h
  · split
    · exact h
    · exact (h.setCore (h.core _).setArr.setSet).setOp

theorem CoresOk.startPrograms {s : State} {n : Nat} (h : CoresOk s) : CoresOk (startPrograms s n) := by
  unfold Machine.startPrograms
  split
  · exact h
  · split
    · exact h
    · exact h.foldl fun s _ hs => hs.beginProgram

theorem CoresOk.stopBusy {s : State} {busy : List Nat} (h : CoresOk s) : CoresOk (stopBusy s busy) := by
  refine h.foldl fun s b hs => hs.updCore fun k hk => .setSet ?_
  split
  · exact hk.setArr
  · exact hk

theorem CoresOk.opControl {s : State} {n st kind status : Nat} (h : CoresOk s) : CoresOk (opControl s n st kind status) := by
  unfold Machine.opControl
  split
  · exact h.sendControl
  · exact h

theorem CoresOk.opControlAll {s : State} {n kind status : Nat} (h : CoresOk s) : CoresOk (opControlAll s n kind status) := by
  unfold Machine.opControlAll
  split
  · exact h.foldl fun s _ hs => hs.opControl
  · exact h

theorem CoresOk.finishOp {s : State} {x : Option Nat} {status detail r1 : Nat} (h : CoresOk s) :
    CoresOk (finishOp s x status detail r1) := by
  unfold Machine.finishOp
  split
  · exact h.finish
  · exact h

theorem CoresOk.tryActivate {s : State} {n : Nat} (h : CoresOk s) : CoresOk (tryActivate s n) := by
  unfold Machine.tryActivate
  dsimp only
  split
  · exact h
  · split
    · exact .sendAllStages h.setRegion
    · exact h

theorem CoresOk.failLoad {s : State} {n : Nat} {o : LoadOp} {st det r1 : Nat} (h : CoresOk s) : CoresOk (failLoad s n o st det r1) := by
  unfold Machine.failLoad
  dsimp only
  refine .foldl ?_ fun s _ hs => hs.finish
  refine .finishOp (.updRegion ?_)
  split
  · exact h.stopBusy.dropImage
  · exact h.stopBusy

theorem CoresOk.finishLoad {s : State} {n : Nat} {o : LoadOp} (h : CoresOk s) : CoresOk (finishLoad s n o) := by
  unfold Machine.finishLoad
  split
  · exact h
  · split
    · exact h.failLoad
    · extract_lets +onlyGivenNames b
      split
      · exact h.failLoad
      next s1 e =>
        extract_lets +onlyGivenNames s2 s3 s4 s5
        have h2 : CoresOk s2 := ((OptOk.bindImage h).get e).startCores
        have h3 : CoresOk s3 := h2.updRegion
        have h4 : CoresOk s4 := h3.keepRecord.finishOp
        have h5 : CoresOk s5 := by
          unfold s5
          split
          · exact h4.sendControl
          · exact h4
        exact h5.tryActivate

theorem CoresOk.dropIndex {s : State} {n : Nat} (h : CoresOk s) : CoresOk (dropIndex s n) := by
  unfold Machine.dropIndex
  extract_lets _ s1
  have h1 : CoresOk s1 := h.frame
  exact h1.updRegion

theorem CoresOk.restartCores {s : State} {b : BoundImage} (h : CoresOk s) : CoresOk (restartCores s b) := h.startImage

theorem CoresOk.endJobs {s : State} {n : Nat} {p : Tune → Bool} (h : CoresOk s) : CoresOk (endJobs s n p) :=
  h.foldl fun _ _ hs => hs.endJob

theorem CoresOk.endSwapJobs {s : State} {n : Nat} (h : CoresOk s) : CoresOk (endSwapJobs s n) := h.endJobs

theorem CoresOk.freeEnded {s : State} {n : Nat} (h : CoresOk s) : CoresOk (freeEnded s n) := by
  unfold Machine.freeEnded
  exact h.frame

theorem CoresOk.repin {s : State} {c version : Nat} {again : Bool} (h : CoresOk s) : CoresOk (repin s c version again) := by
  unfold Machine.repin
  dsimp only
  split
  · exact h
  · split
    · exact h
    · split
      · exact h.setCtx.reprefill
      · exact h.setCtx

theorem CoresOk.stopIfGone {s : State} {n : Nat} (h : CoresOk s) : CoresOk (stopIfGone s n) := by
  unfold Machine.stopIfGone
  dsimp only
  split
  · split
    · split
      · exact h.stopImage
      · exact h
    · exact h
  · exact h

theorem CoresOk.finishSwap {s : State} {n : Nat} (h : CoresOk s) : CoresOk (finishSwap s n) := by
  unfold Machine.finishSwap
  extract_lets +onlyGivenNames r
  split
  · extract_lets +onlyGivenNames v b _ s1 s2 cs s3
    have h1 : CoresOk s1 := h.setRegion
    have h2 : CoresOk s2 := h1.dropIndex
    have h3 : CoresOk s3 := .admitWaiting (h2.foldl fun s _ hs => hs.repin)
    exact h3.keepRecord.finishOp.stopIfGone
  · exact h

theorem CoresOk.endSwapEarly {s : State} {n st det r1 : Nat} (h : CoresOk s) : CoresOk (endSwapEarly s n st det r1) := by
  unfold Machine.endSwapEarly
  split
  · exact .stopIfGone (.admitWaiting (.finishOp h.updRegion))
  · exact h

theorem CoresOk.endRollback {s : State} {n : Nat} (h : CoresOk s) : CoresOk (endRollback s n) := by
  unfold Machine.endRollback
  extract_lets +onlyGivenNames r
  split
  next o b _ _ =>
    split
    extract_lets +onlyGivenNames s1 s2 s3 s4
    have h1 : CoresOk s1 := .keepRecord (.stopBusy (.setRegion h))
    have h2 : CoresOk s2 := by
      unfold s2
      split
      · exact ((OptOk.bindImage h1).getD h1).restartCores
      · exact h1
    clear_value s2
    have h3 : CoresOk s3 := by
      unfold s3
      split
      · split
        · exact .startFlush h2.updRegion
        · exact h2
      · exact h2
    have h4 : CoresOk s4 := h3.admitWaiting.stopIfGone
    split
    · exact h4.finish
    · split
      · exact h4
      · exact h4.postEvent
  · exact h

theorem CoresOk.toSplit {s : State} {n : Nat} (h : CoresOk s) : CoresOk (toSplit s n) :=
  .postEvent (.keepRecord h.endReqs.updRegion)

theorem CoresOk.tellSplit {s : State} {n : Nat} (h : CoresOk s) : CoresOk (tellSplit s n) := by
  unfold Machine.tellSplit
  split
  · split
    · exact h
    · split
      · exact h.sendAllStages
      · exact h.sendControl
  · exact h

theorem CoresOk.splitSwap {s : State} {n : Nat} {tell : Bool} (h : CoresOk s) : CoresOk (splitSwap s n tell) := by
  unfold Machine.splitSwap
  dsimp only
  split
  · exact h
  · split
    · refine .finish (.toSplit (.stopBusy ?_))
      split
      · exact h.tellSplit
      · exact h
    · refine .postEvent (.toSplit (.stopBusy ?_))
      split
      · exact h.tellSplit
      · exact h

theorem CoresOk.beginRollback {s : State} {n : Nat} {tell : Bool} (h : CoresOk s) : CoresOk (beginRollback s n tell) := by
  unfold Machine.beginRollback
  dsimp only
  split
  · exact h
  · refine .keepRecord (.setOp (.stopBusy ?_))
    split
    · exact h
    · split
      · exact h.opControl
      · split
        · exact h.opControlAll
        · exact h

theorem CoresOk.beginDrain {s : State} {n : Nat} (h : CoresOk s) : CoresOk (beginDrain s n) := by
  unfold Machine.beginDrain
  dsimp only
  split
  · exact h
  · split
    · exact h.setOp.endSwapJobs
    · exact h.setOp

theorem CoresOk.verifyDone {s : State} {n : Nat} (h : CoresOk s) : CoresOk (verifyDone s n) := by
  unfold Machine.verifyDone
  split
  · exact h
  · split
    · exact h.setOp.opControl
    · split
      · exact h
      · exact h.beginDrain

theorem CoresOk.relocFail {s : State} {n : Nat} (h : CoresOk s) : CoresOk (relocFail s n) := by
  unfold Machine.relocFail
  dsimp only
  split
  next h1 _ _ _ _ =>
    split
    · exact .tryRelease (.finish h.stopBusy.updRegion)
    · split
      · split
        · exact .tryRelease (.faultRegion h.stopBusy.updRegion)
        · split
          · exact .stopImage (.updRegion h.stopBusy.updRegion)
          · exact .tryRelease (.faultRegion h.stopBusy.updRegion)
      · split
        · exact .tryRelease (.faultRegion h.stopBusy.updRegion)
        · split
          · exact .stopImage (.updRegion h.stopBusy.updRegion)
          · exact .tryRelease (.faultRegion h.stopBusy.updRegion)
  · exact h

theorem CoresOk.moveRows {s : State} {n : Nat} {m : Image} {v c0 c1 : Nat} (h : CoresOk s) : CoresOk (moveRows s n m v c0 c1) := by
  unfold Machine.moveRows
  dsimp only
  split
  · exact h
  · split
    · exact h.updCore fun k hk => { hk with mem := Memory.wf_join (h.core c0).mem hk.mem _ }
    · split
      · exact h.loseBlocks
      · exact h

theorem CoreOk.vacate {k : Core} (h : CoreOk k) : CoreOk k.vacate := by
  unfold Core.vacate
  exact h.frame

theorem CoresOk.finishReloc {s : State} {n : Nat} {o : LoadOp} (h : CoresOk s) : CoresOk (finishReloc s n o) := by
  unfold Machine.finishReloc
  split
  · exact h
  · extract_lets +onlyGivenNames _ _ s1 s2 s3 _ _ _
    have h1 : CoresOk s1 := h.foldl fun s _ hs => hs.moveRows
    have h2 : CoresOk s2 := by
      unfold s2
      refine h1.foldl fun s _ hs => ?_
      split
      · exact hs.updCore fun k hk => hk.setArr
      · exact hs
    have h3 : CoresOk s3 := by
      unfold s3
      refine h2.foldl fun s _ hs => ?_
      split
      · exact hs.updCore fun k hk => hk.frame
      · split
        · exact hs
        · exact hs.haltCore fun a ha => ha.vacate
    split
    · exact h3.bindReds.relocFail
    next e1 =>
      extract_lets +onlyGivenNames _ s6 s7 _ _ _
      have h6 : CoresOk s6 := ((OptOk.bindCores h3.bindReds).get e1).foldl fun s _ hs => hs.startCore.updCore fun k hk => hk.frame
      have h7 : CoresOk s7 := h6.updRegion
      exact h7.frame.odPending.keepRecord.finishOp.tryRelease

theorem CoresOk.refitLoad {s : State} {n : Nat} {o : LoadOp} {b : BoundImage} {vs : List Nat} (h : CoresOk s) :
    CoresOk (refitLoad s n o b vs) := by
  unfold Machine.refitLoad
  dsimp only
  split
  · exact h.failLoad
  · split
    · exact h.countSpread.failLoad
    · exact h.stopBusy.countSpread.updRegion

theorem CoresOk.opFail {s : State} {n st det r1 : Nat} (h : CoresOk s) : CoresOk (opFail s n st det r1) := by
  unfold Machine.opFail
  split
  · exact h
  · split
    · exact h.failLoad
    · refine .endSwapEarly ?_
      split
      · exact h.opControl
      · split
        · exact h.opControlAll
        · exact h
    · refine .endSwapEarly ?_
      split
      · exact h.opControlAll
      · exact h
    · exact h.setOp.beginRollback
    · exact h.setOp.beginRollback
    · exact h.splitSwap
    · exact h.relocFail

theorem OptOk.failedSwap {s : State} {n : Nat} {o : LoadOp} (h : CoresOk s) : OptOk (failedSwap s n o) := by
  unfold Machine.failedSwap
  split
  · split
    · exact .ofNone
    · exact .ofSome h.opFail
  · exact .ofNone

theorem CoresOk.advanceOne {s : State} {n : Nat} (h : CoresOk s) : CoresOk (advanceOne s n) := by
  unfold Machine.advanceOne
  extract_lets r
  split
  next o b _ _ =>
    split
    · extract_lets vs
      split
      · exact h.refitLoad
      · split
        · exact h.finishLoad
        · exact h.startPrograms
    · refine (OptOk.failedSwap h).getD ?_
      split
      · exact h.verifyDone
      · exact h
    · exact (OptOk.failedSwap h).getD h
    · split
      · exact h.beginRollback
      · exact h.startPrograms
    · split
      · split
        · split
          · exact h
          · exact h.beginRollback
        · split
          · exact h.setOp.opControl
          · exact h
      · exact h
    · split
      · exact h.endRollback
      · exact h.startPrograms
    · split
      · exact h.stopBusy.updRegion
      · split
        · exact h.finishReloc
        · exact h.startPrograms
  · exact h

theorem CoresOk.advance {s : State} {n : Nat} (h : CoresOk s) : CoresOk (advance s n) := h.advanceOne.advanceOne.advanceOne

theorem CoresOk.takeShard {s : State} {n : Nat} {o : LoadOp} {x : ShardEnt} {p : Bytes} (h : CoresOk s) : CoresOk (takeShard s n o x p) :=
  h.setOp

theorem CoresOk.shardRead {s : State} {n : Nat} {o : LoadOp} {x : ShardEnt} {data : Option Bytes} (h : CoresOk s) :
    CoresOk (shardRead s n o x data) := by
  unfold Machine.shardRead
  dsimp only
  split
  · exact h.winAsk.failLoad
  · split
    · split
      · exact h.winAsk.opFail
      · split
        · exact h.winAsk.opFail.advance
        · exact h.winAsk.takeShard.opProgress.advance
    · split
      · exact h.winAsk.opFail
      · exact h.winAsk.setOp

theorem CoresOk.repairRead {s : State} {n shard : Nat} {data : Option Bytes} (h : CoresOk s) : CoresOk (repairRead s n shard data) := by
  unfold Machine.repairRead
  split
  · extract_lets +onlyGivenNames s1 _ _ _
    have h1 : CoresOk s1 := by
      unfold s1
      split
      · exact h.winAsk
      · exact h
    split
    · exact h1.updCore fun k hk => hk.setArr.addTask
    · split
      · exact h1.stopImage
      · exact h1.updCore fun k hk => hk.setArr
  · exact h

theorem Runs.execShardArrival {region shard : Nat} {data : Option Bytes} {s : State}
    : Runs s (execShardArrival region shard data s) := by
  unfold Machine.execShardArrival
  extract_lets +onlyGivenNames _
  split
  · exact .next fun h => h.repairRead
  · split
    · extract_lets +onlyGivenNames _
      split
      · split
        · exact .next fun h => h.shardRead
        · exact .next fun h => h
      · exact .next fun h => h.repairRead

theorem Runs.execArrayProgrammed {core array : Nat} {failed : List Nat} {s : State}
    : Runs s (execArrayProgrammed core array failed s) := by
  unfold Machine.execArrayProgrammed
  dsimp only
  split
  · exact .next fun h => h
  · split
    · exact .next fun h => h
    · split
      · exact .next fun h => h
      · split
        · exact .next fun h => h.setOp.advance
        · split
          · exact .next fun h => h
          · exact .next fun h => h.setOp.opProgress.programArray.advance

theorem Runs.execShardReadback {region shard : Nat} {s : State} : Runs s (execShardReadback region shard s) := by
  unfold Machine.execShardReadback
  extract_lets +onlyGivenNames r
  split
  · exact .next fun h => h
  next o _ =>
    split
    extract_lets +onlyGivenNames st ts
    split
    · exact .next fun h => h
    · split
      next base s1 e =>
        extract_lets +onlyGivenNames size
        split
        next whole recs _ =>
          extract_lets +onlyGivenNames s2 good clear
          have h2 (h : CoresOk s) : CoresOk s2 := by
            refine CoresOk.foldl (h.draw.ofSnd e) fun s x hs => ?_
            split
            · exact hs
            · exact hs.readRecord
          have hclear (s : State) (hs : CoresOk s) : CoresOk (clear s) := hs.foldl fun s x hs => hs.updCore fun k hk => hk.setArr
          clear_value s2
          split
          · extract_lets +onlyGivenNames s3
            have h3 (h : CoresOk s) : CoresOk s3 := by
              refine (h2 h).foldl fun s x hs => ?_
              split
              · exact hs
              · exact hs.updCore fun k hk => hk.setArr
            clear_value s3
            exact .next fun h => (h3 h).setOp.opProgress.keepRecord.advance
          · split
            · exact .next fun h => (hclear _ (h2 h)).opFail
            · exact .next fun h => (hclear _ (h2 h)).setOp

/-! ## Swaps and relocations -/

theorem Runs.execSwapBarrierClosed {region : Nat} {s : State} : Runs s (execSwapBarrierClosed region s) := by
  unfold Machine.execSwapBarrierClosed
  dsimp only
  split
  · split
    · exact .next fun h => h
    · split
      · exact .next fun h => h.advance
      · split
        · exact .next fun h => h.setOp.endSwapJobs
        · refine .next fun h => .advance ?_
          split
          · exact h.setOp.endSwapJobs.setOp.keepRecord.opControlAll
          · exact h.setOp.endSwapJobs.setOp.keepRecord
  · exact .next fun h => h

theorem Runs.execDrainDeadline {region : Nat} {s : State} : Runs s (execDrainDeadline region s) := by
  unfold Machine.execDrainDeadline
  split
  · split
    · exact .next fun h => h.setOp.endSwapJobs
    · exact .next fun h => h
  · exact .next fun h => h

theorem CoresOk.orderSwitch {s : State} {n : Nat} (h : CoresOk s) : CoresOk (orderSwitch s n) := by
  unfold Machine.orderSwitch
  split
  · split
    · exact h.advance
    · split
      · exact h.keepRecord.opControlAll
      · exact h
  · exact h

theorem Runs.execSwapActivate {region : Nat} {control : Option Bytes} {s : State} : Runs s (execSwapActivate region control s) := by
  unfold Machine.execSwapActivate
  extract_lets r
  split
  next o b _ _ =>
    split
    · extract_lets s1 new whole
      have h1 (h : CoresOk s) : CoresOk s1 := h.winAsk
      split
      · exact .next fun h => (h1 h).opFail.advance
      next s2 e =>
        have h2 (h : CoresOk s) : CoresOk s2 := by
          split at e
          · exact (OptOk.bindImage (h1 h)).get e
          · cases e
        extract_lets s3 s4
        have h3 (h : CoresOk s) : CoresOk s3 := (h2 h).restartCores
        split
        · exact .next fun h => (h3 h).finishSwap
        · refine .next fun h => ?_
          split
          · exact (h3 h).setOp.opControl
          · exact (h3 h).setOp.orderSwitch
    · split
      · exact .next fun h => h.advance
      · exact .next fun h => h
  · exact .next fun h => h

theorem Runs.execSwapGroupTimeout {region : Nat} {s : State} : Runs s (execSwapGroupTimeout region s) := by
  unfold Machine.execSwapGroupTimeout
  dsimp only
  split
  · split
    · refine .next fun h => .endSwapEarly ?_
      split
      · exact h.opControl
      · exact h.opControlAll
    · exact .next fun h => h
  · exact .next fun h => h

theorem Runs.execRelocation {region : Nat} {control : Option Bytes} {tiles : List (Option Bytes)} {s : State} :
    Runs s (execRelocation region control tiles s) := by
  unfold Machine.execRelocation
  extract_lets +onlyGivenNames r
  split
  next vs olds i _ b _ _ =>
    extract_lets +onlyGivenNames drained vs'
    split
    · exact .next fun h => h
    · split
      · exact .next fun h => .tryRelease (.finishOp h.updRegion)
      · split
        · exact .next fun h => h.countSpread.relocFail
        · extract_lets +onlyGivenNames moved s1 open_ ctlOk recs
          have h1 (h : CoresOk s) : CoresOk s1 := h.countSpread.winAsk.foldl fun s _ hs => hs.winAsk
          clear_value recs
          split
          · exact .next fun h => (h1 h).recordErr.relocFail
          · exact .next fun h => (h1 h).setOp.advance
  · exact .next fun h => h

theorem CoresOk.checkArrays {s : State} {b : BoundImage} (h : CoresOk s) : CoresOk (checkArrays s b) := by
  unfold Machine.checkArrays
  dsimp only
  refine h.foldl fun s _ hs => ?_
  split
  · exact hs
  · split
    · exact hs
    · split
      · exact hs
      · split
        · exact hs.frame.readRecord
        · exact hs.frame.readRecord.updCore fun k hk => hk.setArr

theorem CoresOk.reportBound {s : State} {n : Nat} (h : CoresOk s) : CoresOk (reportBound s n) := by
  unfold Machine.reportBound
  split
  · split
    · exact h
    · split
      · exact h.sendControl
      · exact h.tryActivate
  · exact h

theorem Runs.execRebind {region : Nat} {control : Option Bytes} {s : State} : Runs s (execRebind region control s) := by
  unfold Machine.execRebind
  extract_lets +onlyGivenNames r
  split
  · extract_lets +onlyGivenNames open_
    split
    · exact .next fun h => h
    · split
      · exact .next fun h => h
      next s1 e =>
        extract_lets +onlyGivenNames s2 b' s3 s4 dead
        have h2 (h : CoresOk s) : CoresOk s2 := ((OptOk.bindImage h.winAsk).get e).startCores
        have h3 (h : CoresOk s) : CoresOk s3 := (h2 h).updRegion
        have h4 (h : CoresOk s) : CoresOk s4 := by
          unfold s4
          split
          · exact (h3 h).checkArrays
          · exact h3 h
        clear_value dead
        split
        · exact .next fun h => (h4 h).reportBound
        · split
          · exact .next fun h => (h4 h).faultRegion
          · exact .next fun h => .reportBound ((h4 h).updRegion)
  · exact .next fun h => h

theorem CoresOk.askImage {s : State} {o : HOut} {stages control manifest : Option Bytes} (h : CoresOk s) :
    CoresOk (askImage s o stages control manifest).1 :=
  h.operand.winAsk.winAsk

theorem Runs.execLoad {i : Nat} {stages control manifest : Option Bytes} {s : State}
    : Runs s (execLoad i stages control manifest s) := by
  unfold Machine.execLoad
  dsimp only
  refine .next fun h => h.onCmd fun _ => ?_
  split
  · exact h.askImage.finish
  · split
    · exact h.askImage.finish
    · split
      · exact h.askImage.finish
      · split
        · exact h.askImage.finish
        · split
          · exact h.askImage.countSpread.finish
          · exact .advance (.keep h.askImage.bindSyncs.countSpread.updRegion)

theorem Runs.execSwap {i : Nat} {stages control manifest : Option Bytes} {s : State}
    : Runs s (execSwap i stages control manifest s) := by
  unfold Machine.execSwap
  dsimp only
  refine .next fun h => h.onCmd fun _ => ?_
  split
  · exact h.askImage.finish
  · split
    · exact h.askImage.finish
    · split
      · exact h.askImage.finish
      · split
        · exact h.askImage.finish
        · split
          · exact h.askImage.finish
          · split
            · exact h.askImage.finish
            · exact h.askImage.setOp.keep.advance

theorem CoresOk.disarmRegion {s : State} {n : Nat} (h : CoresOk s) : CoresOk (disarmRegion s n) := by
  unfold Machine.disarmRegion
  exact h.frame

theorem Runs.execUnload {i : Nat} {s : State} : Runs s (execUnload i s) := by
  unfold Machine.execUnload
  refine .next fun h => h.onCmd fun _ => ?_
  extract_lets +onlyGivenNames _ _
  split
  · exact h.finish
  · extract_lets +onlyGivenNames s1 s2 s3 _ s5 s6 s7
    have h1 : CoresOk s1 := by
      unfold s1
      split
      · exact h.sendControl
      · exact h
    have h2 : CoresOk s2 := by
      unfold s2
      split
      · exact h1.stopBusy.finishOp
      · exact h1
    have h3 : CoresOk s3 := h2.foldl fun s _ hs => hs.finish
    have h5 : CoresOk s5 := h3.endReqs.endJobs.freeEnded.dropImage.dropIndex.disarmRegion.disarmVigil
    have h6 : CoresOk s6 := h5.updRegion
    have h7 : CoresOk s7 := by
      unfold s7
      split
      · exact h6.updRegion
      · exact h6
    exact h7.keepRecord.finish

theorem Runs.execRelocate {i : Nat} {list : Option Bytes} {s : State} : Runs s (execRelocate i list s) := by
  unfold Machine.execRelocate
  dsimp only
  refine .next fun h => h.onCmd fun _ => ?_
  split
  · exact h.finish
  · split
    · exact h.finish
    · split
      · exact h.operand.finish
      · split
        · exact h.operand.finish
        next region _ =>
          split
          · exact h.operand.finish
          · split
            · exact h.operand.finish
            · split
              · exact h.operand.finish
              · exact h.operand.setRegion.keep

theorem Runs.execWindow {i : Nat} {s : State} : Runs s (execWindow i s) := by
  refine .next fun h => h.onCmd fun o => ?_
  extract_lets n slot access sites base size named fits w tags s1
  have h1 : CoresOk s1 := h.updRegion
  split
  · exact h.finish
  · split
    · exact h1.finish
    · exact h1.keep

end Sys2Proof.Proofs
end

section
/-!
SUPPORT. How the cores stay in order under the Waloskuno link and the engine-wide rails.
-/
namespace Sys2Proof.Proofs
open Sys2Proof.Machine Sys2Proof.Safety

/-! ## The Waloskuno rows -/

theorem CoresOk.setAlmanac {s : State} {st root hops : Nat} (h : CoresOk s) : CoresOk (setAlmanac s st root hops) := by
  unfold Machine.setAlmanac
  dsimp only
  split
  · exact h.frame
  · exact .postEvent h.frame

theorem CoresOk.chooseRoot {s : State} (h : CoresOk s) : CoresOk (chooseRoot s) := by
  unfold Machine.chooseRoot
  dsimp only
  split
  · split
    · exact h.setAlmanac
    · split
      · exact h.setAlmanac
      · exact .setAlmanac h.frame
  · split
    · exact h.setAlmanac
    · exact h.setAlmanac

theorem CoresOk.sendHello {s : State} {p : Nat} {grant : Bytes} (h : CoresOk s) : CoresOk (sendHello s p grant) := by
  unfold Machine.sendHello
  dsimp only
  split
  · exact h.putFrame
  · exact h.sendFrame

theorem CoresOk.namePeer {s : State} {p peer : Nat} (h : CoresOk s) : CoresOk (namePeer s p peer) := by
  unfold Machine.namePeer
  dsimp only
  split
  · split
    · exact h.setPort
    · exact h
  · exact h

theorem CoresOk.heardAgain {s : State} {peer : Nat} (h : CoresOk s) : CoresOk (heardAgain s peer) := by
  unfold Machine.heardAgain
  dsimp only
  split
  · exact h
  · refine .foldl h.frame fun s _ hs => ?_
    split
    · split
      · exact hs.reportBound
      · exact hs
    · exact hs

theorem CoresOk.takeHello {s : State} {p : Nat} {f : FFrame} (h : CoresOk s) : CoresOk (takeHello s p f) := by
  unfold Machine.takeHello
  dsimp only
  split
  · split
    · exact .postEvent h.setPort
    · exact h.setPort
  · refine .chooseRoot (.heardAgain (.drainChan ?_))
    split
    · exact .sendFrame h.setPort
    · exact h.setPort

theorem Runs.execHello {port : Nat} {f : FFrame} {s : State} : Runs s (execHello port f s) := by
  unfold Machine.execHello
  split
  · exact .next fun h => h
  · split
    · split
      next s1 ok e =>
        have h1 (h : CoresOk s) : CoresOk s1 := h.namePeer.takeFrame.ofFst e
        refine .next fun h => ?_
        split
        · exact (h1 h).takeHello
        · exact h1 h
    · split
      · exact .next fun h => h
      · split
        · exact .next fun h => h.dropFrame
        · exact .next fun h => h.takeHello

theorem Runs.execHelloPeriod {s : State} : Runs s (execHelloPeriod s) :=
  .next fun h => h.chooseRoot.foldl fun _ _ hs => hs.sendHello

theorem Runs.execAlmanacExchange {s : State} : Runs s (execAlmanacExchange s) := by
  unfold Machine.execAlmanacExchange
  dsimp only
  split
  · split
    · exact .next fun h => .putFrame h.frame
    · exact .next fun h => h
  · exact .next fun h => h

theorem Runs.execAlmanacRequest {port : Nat} {f : FFrame} {s : State} : Runs s (execAlmanacRequest port f s) := by
  unfold Machine.execAlmanacRequest
  dsimp only
  split
  · exact .next fun h => h
  · split
    · exact .next fun h => h.takeFrame.putFrame
    · exact .next fun h => h.takeFrame

theorem CoresOk.takeOffset {s : State} {d : Int} (h : CoresOk s) : CoresOk (takeOffset s d) := by
  unfold Machine.takeOffset
  extract_lets +onlyGivenNames _ s1 _ _ s2 _ _ _ s3
  have h1 : CoresOk s1 := h.frame
  have h2 : CoresOk s2 := by
    unfold s2
    split
    · split
      · exact h1.frame
      · exact h1
    · exact h1.frame
  have h3 : CoresOk s3 := h2.frame
  split
  · exact .setAlmanac h3.frame
  · split
    · exact .setAlmanac h3.frame
    · exact h3

theorem Runs.execAlmanacReply {port : Nat} {f : FFrame} {t4 : Nat} {s : State}
    : Runs s (execAlmanacReply port f t4 s) := by
  unfold Machine.execAlmanacReply
  dsimp only
  split
  · exact .next fun h => h
  · split
    · split
      · exact .next fun h => h.takeFrame
      · exact .next fun h => .takeOffset (.frame h.takeFrame)
    · exact .next fun h => h.takeFrame

theorem Runs.execAck {port : Nat} {f : FFrame} {s : State} : Runs s (execAck port f s) := by
  unfold Machine.execAck
  split
  · exact .next fun h => h.takeFrame
  · exact .next fun h => h

theorem Runs.execAckDelay {port peer : Nat} {s : State} : Runs s (execAckDelay port peer s) := by
  unfold Machine.execAckDelay
  dsimp only
  split
  · exact .next fun h => h.sendAck
  · exact .next fun h => h

theorem Runs.execReplayTimeout {port peer : Nat} {s : State} : Runs s (execReplayTimeout port peer s) := by
  unfold Machine.execReplayTimeout
  dsimp only
  split
  · exact .next fun h => h.replayChan
  · exact .next fun h => h

theorem CoresOk.dropData {s : State} {fs : List FFrame} (h : CoresOk s) : CoresOk (dropData s fs) :=
  h.foldl fun _ _ hs => .class2Done hs.frame

theorem CoresOk.dropSteps {s : State} {n code : Nat} (h : CoresOk s) : CoresOk (dropSteps s n code).1 :=
  .foldl (.updRegion (h.foldl fun _ _ hs => hs.endFaulted)) fun _ _ hs => hs.delCtx

theorem CoresOk.peerLost {s : State} {port peer : Nat} (h : CoresOk s) : CoresOk (peerLost s port peer) := by
  unfold Machine.peerLost
  dsimp only
  refine .foldl h.frame fun s _ hs => ?_
  split
  · exact hs
  · split
    · exact hs
    · split
      · split
        · exact hs.updRegion
        · exact hs
      · split
        · exact hs
        · exact .postEvent (.recordErr (.dropSteps hs.updRegion))

theorem CoresOk.dropChan {s : State} {p peer : Nat} (h : CoresOk s) : CoresOk (dropChan s p peer) := by
  unfold Machine.dropChan
  extract_lets +onlyGivenNames _
  split
  · exact h
  · extract_lets +onlyGivenNames s1 _ _
    have h1 : CoresOk s1 := h.setPort
    split
    · exact h1.setPort.drainChan
    · split
      · exact h1
      · exact h1.dropData.peerLost

theorem CoresOk.portGoesDown {s : State} {p : Nat} (h : CoresOk s) : CoresOk (portGoesDown s p) :=
  .chooseRoot (.setPort (.foldl h.setPort fun _ _ hs => hs.dropChan))

theorem CoresOk.portsDown {s : State} (h : CoresOk s) : CoresOk (portsDown s) := h.foldl fun _ _ hs => hs.portGoesDown

theorem Runs.execPortDown {port reason : Nat} {s : State} : Runs s (execPortDown port reason s) := by
  unfold Machine.execPortDown
  extract_lets +onlyGivenNames _ _ _
  split
  · exact .next fun h => h.portGoesDown
  · exact .next fun h => h

theorem CoresOk.trainPort {s : State} {p : Nat} (h : CoresOk s) : CoresOk (trainPort s p) := .sendHello h.setPort

theorem Runs.execPortRetrain {port : Nat} {trained : Bool} {s : State} : Runs s (execPortRetrain port trained s) := by
  unfold Machine.execPortRetrain
  dsimp only
  split
  · exact .next fun h => h
  · split
    · exact .next fun h => h.trainPort
    · exact .next fun h => h.setPort

theorem Runs.execPeerUnreachable {peer : Nat} {s : State} : Runs s (execPeerUnreachable peer s) :=
  .next fun h => h.foldl fun _ _ hs => hs.dropChan.chooseRoot

theorem CoresOk.countRefusal {s : State} (h : CoresOk s) : CoresOk (countRefusal s) := by
  unfold Machine.countRefusal
  exact h.frame

theorem Runs.execData {port : Nat} {f : FFrame} {s : State} : Runs s (execData port f s) := by
  unfold Machine.execData
  dsimp only
  split
  · exact .next fun h => h
  · split
    · exact .next fun h => h.takeFrame
    · split
      · refine .next fun h => .wackFor ?_
        split
        · exact h.takeFrame.countRefusal
        · exact h.takeFrame
      · exact .next fun h => h.takeFrame.placeAt

theorem Runs.execWack {port : Nat} {f : FFrame} {s : State} : Runs s (execWack port f s) := by
  unfold Machine.execWack
  split
  · exact .next fun h => h
  · split
    next e1 =>
      extract_lets +onlyGivenNames _ _ _
      refine .next fun h => ?_
      split
      · exact (h.takeFrame.ofFst e1).class2Done
      · exact h.takeFrame.ofFst e1

theorem CoresOk.rejectControl {s : State} {port : Nat} {f : FFrame} {kind : Nat} (h : CoresOk s) : CoresOk (rejectControl s port f kind) :=
  h.putFrame

theorem Runs.onControl {s : State} {port : Nat} {f : FFrame} {kind : Nat} {act : State → Nat → BoundImage → State}
    (hf : ∀ (x : State) (n : Nat) (b : BoundImage), CoresOk x → CoresOk (act x n b)) : Runs s (onControl s port f kind act) := by
  unfold Machine.onControl
  dsimp only
  split
  · exact .next fun h => h
  · split
    · exact .next fun h => h.takeFrame
    · split
      · exact .next fun h => hf _ _ _ h.takeFrame
      · split
        · exact .next fun h => h.takeFrame.rejectControl.opControlAll.endSwapEarly
        · exact .next fun h => h.takeFrame.rejectControl

theorem Runs.execBound {port : Nat} {f : FFrame} {s : State} : Runs s (execBound port f s) := by
  unfold Machine.execBound
  dsimp only
  refine .onControl fun t _ _ ht => ?_
  split
  · exact ht
  · split
    · exact ht.updRegion
    · split
      · exact .sendControl ht.updRegion
      · exact .tryActivate ht.updRegion

theorem Runs.execActivate {port : Nat} {f : FFrame} {s : State} : Runs s (execActivate port f s) := by
  unfold Machine.execActivate
  refine .onControl fun t _ _ ht => ?_
  split
  · exact ht
  · exact ht.updRegion

theorem CoresOk.onSwap {s : State} {n : Nat} {f : LoadOp → State} (h : CoresOk s) (hf : ∀ (a : LoadOp), CoresOk (f a)) :
    CoresOk (onSwap s n f) := by
  unfold Machine.onSwap
  split
  · split
    · exact hf _
    · exact h
  · exact h

theorem Runs.execSwapVerified {port : Nat} {f : FFrame} {s : State} : Runs s (execSwapVerified port f s) := by
  unfold Machine.execSwapVerified
  dsimp only
  refine .onControl fun a a_1 a_2 h1 => (h1.onSwap fun a1 => ?_)
  split
  · exact h1
  · split
    · exact h1.opControlAll.endSwapEarly
    · exact h1.setOp.advance

theorem Runs.execSwapRewrite {port : Nat} {f : FFrame} {s : State} : Runs s (execSwapRewrite port f s) := by
  unfold Machine.execSwapRewrite
  dsimp only
  refine .onControl fun a a_1 a_2 h1 => (h1.onSwap fun a1 => ?_)
  split
  · exact h1
  · exact h1.setOp.keepRecord.endSwapJobs.advance

theorem CoresOk.splitLate {s : State} {n : Nat} {b : BoundImage} {f : FFrame} (h : CoresOk s) : CoresOk (splitLate s n b f) := by
  unfold Machine.splitLate
  split
  · exact h
  · refine .toSplit ?_
    split
    · exact h.tellSplit
    · exact h

theorem Runs.execSwapRewritten {port : Nat} {f : FFrame} {s : State} : Runs s (execSwapRewritten port f s) := by
  unfold Machine.execSwapRewritten
  dsimp only
  refine .onControl fun t _ _ ht => ?_
  split
  · exact ht.splitLate
  · refine ht.onSwap fun _ => ?_
    split
    · exact ht
    · split
      · exact ht.splitSwap
      · split
        · exact ht
        · split
          · exact ht.setOp.beginRollback.advance
          · exact ht.setOp.orderSwitch

theorem Runs.execSwapSwitch {port : Nat} {f : FFrame} {s : State} : Runs s (execSwapSwitch port f s) := by
  unfold Machine.execSwapSwitch
  dsimp only
  refine .onControl fun a a_1 a_2 h1 => (h1.onSwap fun a1 => ?_)
  split
  · exact h1
  · split
    · exact h1.finishSwap.sendControl
    · exact h1.finishSwap

theorem Runs.execSwapSwitched {port : Nat} {f : FFrame} {s : State} : Runs s (execSwapSwitched port f s) := by
  unfold Machine.execSwapSwitched
  dsimp only
  refine .onControl fun a a_1 a_2 h1 => (h1.onSwap fun a1 => ?_)
  split
  · exact h1
  · split
    · exact h1.setOp.finishSwap
    · exact h1.setOp

theorem Runs.execSwapRollback {port : Nat} {f : FFrame} {s : State} : Runs s (execSwapRollback port f s) := by
  unfold Machine.execSwapRollback
  dsimp only
  refine .onControl fun t _ _ ht => ?_
  split
  · split
    · exact ht
    · exact ht.splitLate
  · refine ht.onSwap fun _ => ?_
    split
    · exact ht
    · split
      · exact ht.endSwapEarly
      · exact ht.endSwapEarly
      · split
        · exact ht.splitSwap
        · exact ht.setOp.beginRollback.advance
      · split
        · exact ht.splitSwap
        · exact ht.setOp.beginRollback.advance
      · split
        · exact ht.splitSwap
        · exact ht
      · exact ht

theorem Runs.execControlFault {port : Nat} {f : FFrame} {s : State} : Runs s (execControlFault port f s) := by
  refine .onControl fun s n b hs => ?_
  split
  · exact hs
  · extract_lets rec_ code
    split
    next s1 _ e =>
      have h1 : CoresOk s1 := hs.endNamed.ofFst e
      split
      · split
        · extract_lets s2
          have h2 : CoresOk s2 := by
            unfold s2
            split
            · exact h1
            · exact h1.updRegion
          split
          · exact h2
          · exact h2.beginRollback.advance
        · exact h1.startFlush
      · exact h1.startFlush

theorem Runs.execFlushStop {port : Nat} {f : FFrame} {s : State} : Runs s (execFlushStop port f s) := by
  unfold Machine.execFlushStop
  dsimp only
  split
  · exact .next fun h => h
  · refine .onControl fun t _ _ ht => ?_
    split
    · exact ht
    · exact ht.updRegion

theorem Runs.execFlushRestart {port : Nat} {f : FFrame} {s : State} : Runs s (execFlushRestart port f s) := by
  unfold Machine.execFlushRestart
  split
  · exact .next fun h => h
  · refine .onControl fun t _ _ ht => ?_
    split
    · split
      · exact ht.orderRestart.tryRelease
      · exact ht
    · exact ht

theorem Runs.execFlushed {port : Nat} {f : FFrame} {s : State} : Runs s (execFlushed port f s) := by
  unfold Machine.execFlushed
  refine .onControl fun t _ _ ht => ?_
  split
  · extract_lets +onlyGivenNames _
    split
    · exact .tryRelease ht.updRegion
    · exact ht
  · exact ht

theorem Runs.execRejected {port : Nat} {f : FFrame} {s : State} : Runs s (execRejected port f s) := by
  unfold Machine.execRejected
  split
  · exact .next fun h => h
  · split
    next s1 ok e =>
      have h1 (h : CoresOk s) : CoresOk s1 := h.takeFrame.ofFst e
      split
      · refine .next fun h => (h1 h).onSwap fun o => ?_
        split
        · exact (h1 h).endSwapEarly
        · exact h1 h
      · exact .next h1

/-! ## The rails -/

theorem Runs.execArrayRailLost {s : State} : Runs s (execArrayRailLost s) := by
  unfold Machine.execArrayRailLost
  split
  · exact .next fun h => h
  · extract_lets s1 _ s2
    have h1 (h : CoresOk s) : CoresOk s1 := h.pmPage.endService
    clear_value s1
    have h2 (h : CoresOk s) : CoresOk s2 := .allDark (h1 h).frame
    clear_value s2
    exact .next fun h => (h2 h).frame

theorem Runs.execAuxRailLost {s : State} : Runs s (execAuxRailLost s) := by
  unfold Machine.execAuxRailLost
  dsimp only
  split
  · exact .next fun h => h
  · exact .next fun h => h.pmPage.frame.portsDown

theorem CoresOk.failBusy {s : State} {n : Nat} (h : CoresOk s) : CoresOk (failBusy s n) := by
  unfold Machine.failBusy
  dsimp only
  split
  · exact h
  · split
    · exact h
    · split
      · exact h.stopBusy.opFail.advance
      · exact h.stopBusy.setOp

theorem Runs.execAuxHoldLimit {s : State} : Runs s (execAuxHoldLimit s) := by
  unfold Machine.execAuxHoldLimit
  split
  · split
    · exact .next fun h => h.foldl fun s _ hs => hs.failBusy
    · exact .next fun h => h
  · exact .next fun h => h

theorem Runs.execAuxRailReturn {s : State} : Runs s (execAuxRailReturn s) := by
  unfold Machine.execAuxRailReturn
  dsimp only
  split
  · exact .next fun h => h.frame.foldl fun s _ hs => hs.advance
  · exact .next fun h => h

theorem Runs.execOptRailLost {s : State} : Runs s (execOptRailLost s) := by
  unfold Machine.execOptRailLost
  dsimp only
  split
  · exact .next fun h => h
  · exact .next fun h => h.pmPage.frame.portsDown

theorem Runs.execOptRailReturn {s : State} : Runs s (execOptRailReturn s) := by
  unfold Machine.execOptRailReturn
  dsimp only
  split
  · exact .next fun h => h.frame
  · exact .next fun h => h

theorem Runs.execAonRailLost {s : State} : Runs s (execAonRailLost s) := .next fun h => .frame h.dropOps.clearCold

end Sys2Proof.Proofs
end

section
/-!
SUPPORT. How the cores stay in order under requests, the pipeline slot, results of steps and key-value blocks.
-/
namespace Sys2Proof.Proofs
open Sys2Proof.Machine Sys2Proof.Safety

/-! ## Requests -/

theorem Runs.execSubmit {i : Nat} {descriptor prompt : Option Bytes} {s : State}
    : Runs s (execSubmit i descriptor prompt s) := by
  unfold Machine.execSubmit
  refine .next fun h => h.onCmd fun _ => ?_
  split
  · split
    next e1 => exact (h.operand.ofFst e1).finish
    next e1 =>
      extract_lets +onlyGivenNames _
      split
      · exact (h.operand.ofFst e1).finish
      · split
        · exact (h.operand.ofFst e1).finish
        · extract_lets +onlyGivenNames _ _ _ _ _
          split
          next e3 =>
            extract_lets +onlyGivenNames _ s3 _ s4
            have h3 : CoresOk s3 := (((h.operand.ofFst e1).operand.ofFst e3).setCtx).finish
            have h4 : CoresOk s4 := h3.frame
            split
            · exact h4
            · exact h4.admitTail

theorem Runs.execCancel {i : Nat} {s : State} : Runs s (execCancel i s) := by
  unfold Machine.execCancel
  dsimp only
  refine .next fun h => h.onCmd fun _ => ?_
  split
  · split
    · exact h.endReq.finish
    · exact h.finish
  · exact h.finish

theorem Runs.execDeadlinePassed {ctx : Nat} {s : State} : Runs s (execDeadlinePassed ctx s) := by
  unfold Machine.execDeadlinePassed
  split
  · exact .next fun h => h
  · split
    · exact .next fun h => h
    · split
      · exact .next fun h => h.setCtx
      · exact .next fun h => h.endReq

theorem Runs.execPark {ctx : Nat} {s : State} : Runs s (execPark ctx s) := by
  unfold Machine.execPark
  split
  · exact .next fun h => h
  · split
    · exact .next fun h => h.setCtx
    · exact .next fun h => h

theorem CoresOk.startJobs {s : State} {n : Nat} (h : CoresOk s) : CoresOk (startJobs s n) := by
  unfold Machine.startJobs
  dsimp only
  refine h.foldl fun s _ hs => ?_
  split
  · split
    · exact hs
    · exact .frame hs.setCtx
  · exact hs

theorem Runs.execTune {i : Nat} {params : Option Bytes} {s : State} : Runs s (execTune i params s) := by
  unfold Machine.execTune
  dsimp only
  refine .next fun h => h.onCmd fun _ => ?_
  split
  · exact h.operand.finish
  · split
    · exact h.operand.finish
    · exact .startJobs (.frame h.operand.keep)

/-! ## The pipeline slot -/

theorem CoresOk.svcWrite {s : State} {c row col : Nat} {ls : List Bytes} (h : CoresOk s) : CoresOk (svcWrite s c row col ls) :=
  h.injectServing

theorem CoresOk.svcGo {i : Nat} {s : State} {i1 i2 i3 : Nat} {l : List Bytes} (h : CoresOk s) : CoresOk (svcGo i s i1 i2 i3 l) := by
  induction i generalizing s i1 i2 i3 l with
  | zero => exact h
  | succ n ih =>
    rw [Machine.svcGo]
    dsimp only
    split
    · exact h
    · exact ih h.svcWrite

theorem CoresOk.svcBytes {s : State} {c row off : Nat} {b : Bytes} (h : CoresOk s) : CoresOk (svcBytes s c row off b) := h.svcGo

theorem CoresOk.writeTables {s : State} {n seq : Nat} {b : BoundImage} {segs : List Seg} {ps : List StepPos} (h : CoresOk s) :
    CoresOk (writeTables s n seq b segs ps) := by
  unfold Machine.writeTables
  dsimp only
  refine h.foldl fun s _ hs => (hs.foldl fun s _ hs => ?_)
  split
  · exact hs.svcBytes.svcBytes.svcBytes.svcBytes
  · exact hs

theorem CoresOk.deliver {s : State} {n kind : Nat} {segs : List Seg} (h : CoresOk s) : CoresOk (deliver s n kind segs) := by
  unfold Machine.deliver
  dsimp only
  split
  · exact h
  · split
    · refine .updRegion ?_
      refine .injectServing (.writeTables (.foldl ?_ ?_))
      · split
        · exact h.svcBytes.svcBytes.svcBytes
        · exact h.svcBytes.svcBytes
      · intro s1 x4 h1
        split
        · exact h1.svcWrite
        · exact h1
    · exact h

theorem OptOk.allocFor {s : State} {n c m : Nat} (h : CoresOk s) : OptOk (allocFor s n c m) := by
  unfold Machine.allocFor
  split
  · split
    · exact .ofSome h
    · exact .allocUpto h
  · exact .ofNone

theorem OptOk.tryGen {s : State} {n : Nat} (h : CoresOk s) : OptOk (tryGen s n) := by
  refine OptOk.findSome? fun c => ?_
  split
  · exact .ofNone
  · exact OptOk.mapState (OptOk.allocFor h) fun s hs => hs.deliver.updCtx

theorem CoresOk.promote {s : State} {n : Nat} (h : CoresOk s) : CoresOk (promote s n) := by
  unfold Machine.promote
  exact h.frame

theorem CoresOk.relookup {s : State} {c : Nat} (h : CoresOk s) : CoresOk (relookup s c) := by
  unfold Machine.relookup
  split
  · split
    · split
      · exact h.lookupPrefix
      · exact h
    · exact h
  · exact h

theorem CoresOk.addSeg {n room : Nat} {acc : State × List Seg} {c : Nat} (h : CoresOk acc.1) : CoresOk (addSeg n room acc c).1 := by
  unfold Machine.addSeg
  dsimp only
  split
  · exact h.relookup
  · split
    · exact h.relookup
    · split
      · exact h.relookup.setCtx
      · split
        · exact h.relookup
        next e3 =>
          split
          · exact (OptOk.allocFor h.relookup).get e3
          · exact h.relookup

theorem CoresOk.tryChunk {s : State} {n : Nat} {order : List Nat} (h : CoresOk s) : CoresOk (tryChunk s n order).1 := by
  unfold Machine.tryChunk
  split
  next s1 segs e =>
    have h1 : CoresOk s1 := CoresOk.ofFst (CoresOk.foldlFst h fun a c ha => ha.addSeg) e
    split
    · exact h1
    · exact h1.deliver.foldl fun s g hs => hs.updCtx

theorem CoresOk.tryPrefill {s : State} {n : Nat} (h : CoresOk s) : CoresOk (tryPrefill s n).1 := by
  unfold Machine.tryPrefill
  extract_lets s1 cs from_ firsts try_ acc b0
  have htry (a : State × Bool) (l : List Nat) (ha : CoresOk a.1) : CoresOk (try_ a l).1 := by
    unfold try_
    split
    · exact ha
    · exact ha.tryChunk
  have hacc : CoresOk acc.1 := CoresOk.foldlFst h.promote htry
  split
  · exact hacc
  · refine CoresOk.foldlFst hacc fun a k ha => ?_
    split
    next t ok e =>
      have ht : CoresOk t := (htry _ _ ha).ofFst e
      split
      · dsimp only
        exact ht.updRegion
      · exact ht

theorem OptOk.tryTune {s : State} {n : Nat} (h : CoresOk s) : OptOk (tryTune s n) := by
  refine OptOk.findSome? fun j => ?_
  split
  · exact .ofNone
  · split
    · exact .ofNone
    · extract_lets base k s1
      have h1 : CoresOk s1 := by
        unfold s1
        split
        · exact h.releaseBlocks.setCtx
        · exact h
      split
      · exact .ofNone
      · exact OptOk.mapState (OptOk.allocFor h1) fun s hs => hs.updCtx.deliver.updCtx

theorem CoresOk.countSlot {s : State} {n : Nat} {gen waits : Bool} (h : CoresOk s) : CoresOk (countSlot s n gen waits) :=
  h.updRegion

theorem CoresOk.deliverAgain {s : State} {n : Nat} {p : StepRec} {waits : Bool} (h : CoresOk s) : CoresOk (deliverAgain s n p waits) :=
  .countSlot h.deliver.updRegion

theorem CoresOk.fillSlot {s : State} {n : Nat} (h : CoresOk s) : CoresOk (fillSlot s n) := by
  unfold Machine.fillSlot
  extract_lets waits k turn gen
  have hgen (s : State) (hs : CoresOk s) : OptOk (gen s) := OptOk.mapState (OptOk.tryGen hs) fun s hs => hs.countSlot
  have hfirst : OptOk (if turn then none else gen s) := by
    split
    · exact .ofNone
    · exact hgen s h
  split
  · exact h.deliverAgain
  · split
    next e => exact hfirst.get e
    · split
      next t ok e =>
        have ht : CoresOk t := h.tryPrefill.ofFst e
        have hlast : OptOk (if turn then gen t else none) := by
          split
          · exact hgen t ht
          · exact .ofNone
        split
        · exact ht.countSlot
        · split
          next e => exact hlast.get e
          · split
            · exact ht.deliverAgain
            · extract_lets t1
              split
              next e => exact ((OptOk.tryTune ht.startJobs).get e).countSlot
              · exact ht.startJobs

theorem Runs.execPipelineSlot {region : Nat} {s : State} : Runs s (execPipelineSlot region s) := by
  unfold Machine.execPipelineSlot
  refine .next fun h => ?_
  split
  · exact h.fillSlot
  · exact h

/-! ## Results -/

theorem CoresOk.commitStep {s : State} {n c : Nat} {p : StepRec} {g : Seg} (h : CoresOk s) : CoresOk (commitStep s n c p g) := by
  unfold Machine.commitStep
  extract_lets +onlyGivenNames s1
  have h1 : CoresOk s1 := by
    unfold s1
    split
    · exact h.updCtx
    · exact h
  split
  · split
    · exact h1
    · split
      · exact h1.endReq
      · split
        · exact h1.commitVectors
        · exact h1.commitTokens
  · exact h1

theorem CoresOk.takeResult {s : State} {n c seq : Nat} {b : Bytes} (h : CoresOk s) : CoresOk (takeResult s n c seq b) := by
  unfold Machine.takeResult
  dsimp only
  split
  · exact h
  · split
    · split
      · exact h
      · split
        · split
          · exact h.setCtx.commitStep.stepLeft
          · exact h.setCtx.commitStep
        · split
          · exact h.setCtx.stepLeft
          · exact h.setCtx
    · exact h

theorem CoresOk.forwardResult {s : State} {b : BoundImage} {c seq : Nat} {res : Bytes} (h : CoresOk s) :
    CoresOk (forwardResult s b c seq res) := by
  unfold Machine.forwardResult
  dsimp only
  split
  · exact h.putFrame
  · exact h

theorem CoresOk.arrivePost {s : State} {b : BoundImage} {c : Nat} {res : Bytes} (h : CoresOk s) : CoresOk (arrivePost s b c res) := by
  unfold Machine.arrivePost
  split
  · split
    · exact h.updCore fun k hk => hk.frame
    · exact h
  · exact h

theorem Runs.execSpResult {region ctx sequence : Nat} {result : Bytes} {s : State}
    : Runs s (execSpResult region ctx sequence result s) := by
  unfold Machine.execSpResult
  dsimp only
  split
  · exact .next fun h => h
  · split
    · exact .next fun h => h
    · split
      · exact .next fun h => h.arrivePost.takeResult
      · exact .next fun h => h.arrivePost.forwardResult

theorem CoresOk.refuseResult {s : State} {n c seq : Nat} {b : Bytes} (h : CoresOk s) : CoresOk (refuseResult s n c seq b) := by
  unfold Machine.refuseResult
  dsimp only
  split
  · exact h
  · exact .takeResult (h.foldl fun s _ hs => hs.endFaulted)

theorem Runs.execResult {port : Nat} {f : FFrame} {s : State} : Runs s (execResult port f s) := by
  unfold Machine.execResult
  dsimp only
  split
  · exact .next fun h => h
  · split
    · exact .next fun h => h.takeFrame
    · split
      · exact .next fun h => h.takeFrame.countRefusal
      · split
        · exact .next fun h => h.takeFrame.countRefusal
        · split
          · exact .next fun h => h.takeFrame.countRefusal.refuseResult
          · exact .next fun h => h.takeFrame.takeResult

theorem CoresOk.tuneLeft {s : State} {n : Nat} {p : StepRec} (h : CoresOk s) : CoresOk (tuneLeft s n p) := by
  unfold Machine.tuneLeft
  refine h.foldl fun s _ hs => ?_
  split
  · exact hs
  · split
    · exact hs
    · extract_lets +onlyGivenNames _ _ _ _ _ s3
      have h3 : CoresOk s3 := .frame hs.keep
      split
      · exact h3
      · extract_lets +onlyGivenNames _
        split
        next e3 =>
          extract_lets +onlyGivenNames _ _ _ s5 _ s6
          have h5 : CoresOk s5 := by
            unfold s5
            split
            · split
              · exact (h3.frame.ofSnd e3).winWrite
              · exact h3.frame.ofSnd e3
            · exact h3.frame.ofSnd e3
          have h6 : CoresOk s6 := h5.frame
          exact h6.endJob

theorem Runs.execStepLeavesImage {region sequence : Nat} {s : State} : Runs s (execStepLeavesImage region sequence s) := by
  unfold Machine.execStepLeavesImage
  split
  · exact .next fun h => h
  · refine .next fun h => ?_
    split
    · exact h
    · exact h.stepLeft.tuneLeft

/-! ## Key-value blocks -/

theorem OptOk.indexRoom {s : State} (h : CoresOk s) : OptOk (indexRoom s) := by
  unfold Machine.indexRoom
  split
  · exact .ofSome h
  · exact .map (fun x => h.dropEntry.updRegion)

theorem CoresOk.publish {s : State} {n : Nat} {x : Ctx} {b : Nat} {l : Bytes} (h : CoresOk s) : CoresOk (publish s n x b l) := by
  unfold Machine.publish
  dsimp only
  split
  · exact h
  · split
    · exact h
    next e1 => exact .updRegion (.frame ((OptOk.indexRoom h).get e1))

theorem Runs.execBlockClose {ctx block : Nat} {s : State} : Runs s (execBlockClose ctx block s) := by
  unfold Machine.execBlockClose
  dsimp only
  split
  · exact .next fun h => h
  · split
    · exact .next fun h => h
    · split
      · exact .next fun h => h
      · exact .next fun h => .publish (.updCtx h.updRegion)

theorem CoreOk.compact {k : Core} {slot : Nat} (h : CoreOk k) : CoreOk (k.compact slot) := by
  unfold Core.compact
  extract_lets u half
  split
  split
  exact .count h.putBytes.putBytes.putBytes.frame

theorem CoresOk.compactNow {s : State} {c slot : Nat} (h : CoresOk s) : CoresOk (compactNow s c slot) := by
  unfold Machine.compactNow
  extract_lets +onlyGivenNames _ s1
  have h1 : CoresOk s1 := by
    unfold s1
    split
    · exact h
    · exact h.startClock
  split
  · exact h1
  · extract_lets +onlyGivenNames s2
    have h2 : CoresOk s2 := h1.updCore fun k1 hk => hk.compact
    split
    · exact h2
    · exact h2.stopClock

theorem Runs.execInt4Compaction {core slot : Nat} {s : State} : Runs s (execInt4Compaction core slot s) := by
  unfold Machine.execInt4Compaction
  split
  · exact .next fun h => h
  · split
    · extract_lets +onlyGivenNames _ _ _
      split
      · exact .next fun h => h.compactNow
      · exact .next fun h => h
    · exact .next fun h => h

theorem CoreOk.putSlot {k : Core} {int4 opn : Bool} {slot : Nat} {b : Bytes} (h : CoreOk k) : CoreOk (putSlot k int4 opn slot b).1 := by
  unfold Machine.putSlot
  dsimp only
  split
  · exact h.putBytes
  · split
    · exact h.putBytes
    · exact .frame h.putBytes.putBytes

theorem CoresOk.putFrameBytes {s : State} {n : Nat} {im : BoundImage} {b : Nat} {opn : Bool} {frame : Bytes} (h : CoresOk s) :
    CoresOk (putFrameBytes s n im b opn frame) := by
  unfold Machine.putFrameBytes
  extract_lets nc int4 raw
  refine CoresOk.foldlFst h fun a v ha => ?_
  split
  next p _ => exact ha.setCore (CoreOk.putSlot (ha.core p.core))
  · exact ha

theorem OptOk.returnBlk {s : State} {n c i : Nat} {plain : Bytes} (h : CoresOk s) : OptOk (returnBlk s n c i plain) := by
  unfold Machine.returnBlk
  split
  next x im _ _ =>
    split
    · exact .ofNone
    next cb _ =>
      extract_lets nc p
      split
      · exact .ofNone
      · intro t ht
        obtain ⟨⟨t, b⟩, e, rfl⟩ := Option.map_eq_some_iff.1 ht
        have h1 : CoresOk t := (OptOk.findBlock h).getFst e
        exact CoresOk.updCtx (.putFrameBytes (.unpack h1.updRegion))
  · exact .ofNone

theorem OptOk.returnGo {n c : Nat} {l : List (Nat × Bytes)} {s : State} (h : CoresOk s) : OptOk (returnGo n c l s) := by
  induction l generalizing n c s with
  | nil => exact .ofSome h
  | cons x l ih => exact .bind (.returnBlk h) fun s hs => ih hs

theorem Runs.execFrameReturn {ctx : Nat} {frames : List (Option Bytes)} {s : State} : Runs s (execFrameReturn ctx frames s) := by
  unfold Machine.execFrameReturn
  split
  · exact .next fun h => h
  · extract_lets n gone slot s1 got
    have h1 (h : CoresOk s) : CoresOk s1 := h.foldl fun s e hs => hs.winAsk
    split
    · exact .next fun h => h
    · split
      · exact .next fun h => (h1 h).endReq
      · exact .next fun h => (OptOk.mapState (OptOk.returnGo (h1 h)) fun t ht => ht.updCtx).getD (h1 h)

theorem CoresOk.flushPrefixOp {s : State} {n : Nat} (h : CoresOk s) : CoresOk (flushPrefixOp s n).1 := by
  unfold Machine.flushPrefixOp
  split
  · exact h.dropIndex.odBump
  · exact h

theorem Runs.execFlushPrefix {w : Writer} {region : Nat} {s : State} : Runs s (execFlushPrefix w region s) :=
  .applied fun h => h.flushPrefixOp

end Sys2Proof.Proofs
end

section
/-!
SUPPORT. How the cores stay in order under upkeep, starts and custody.
-/
namespace Sys2Proof.Proofs
open Sys2Proof.Machine Sys2Proof.Safety

/-! ## Upkeep -/

theorem CoreOk.dueTasks {p : PRegion} {s : State} {k : Core} {e : Nat × Arr} (hk : CoreOk k) : CoreOk (dueTasks p s k e) := by
  unfold Machine.dueTasks
  dsimp only
  split
  · exact hk
  · split
    · split
      · exact hk
      · exact hk.setSet
    · split
      · exact hk.addTask
      · exact hk

theorem Runs.execAgeTick {s : State} : Runs s (execAgeTick s) := by
  unfold Machine.execAgeTick
  dsimp only
  refine .next fun h => .mapCores (h.foldl fun s _ hs => hs.updPreg) fun c k hk => ?_
  split
  · exact hk.foldl fun k1 x hx => .dueTasks hx
  · exact hk

theorem CoresOk.startSlice {s : State} {c set : Nat} {t : Machine.Task} {forced : Bool} (h : CoresOk s) :
    CoresOk (startSlice s c set t forced) := by
  unfold Machine.startSlice
  dsimp only
  split
  · exact .notice (.frame (h.updCore fun k hk => hk.setSet))
  · exact h.updCore fun k hk => hk.setSet

theorem CoresOk.upkeepReturn {s : State} {g : Nat} (h : CoresOk s) : CoresOk (upkeepReturn s g) := by
  unfold Machine.upkeepReturn
  dsimp only
  split
  · exact h
  · split
    · exact h
    · split
      · exact h.updPreg
      · split
        · exact h.updPreg.powerTo
        · split
          · exact h.updPreg.goDark
          · exact h.updPreg.countField.powerTo.modePin

theorem Runs.execIntercalarySlot {core set : Nat} {s : State} : Runs s (execIntercalarySlot core set s) := by
  unfold Machine.execIntercalarySlot
  dsimp only
  split
  · exact .next fun h => h
  · split
    · exact .next fun h => h.upkeepReturn
    · split
      · exact .next fun h => h.startSlice
      · split
        · exact .next fun h => h.startSlice
        · exact .next fun h => h

theorem Runs.execSentinelForce {core set : Nat} {s : State} : Runs s (execSentinelForce core set s) := by
  unfold Machine.execSentinelForce
  dsimp only
  split
  · exact .next fun h => h
  · split
    · exact .next fun h => h.startSlice
    · exact .next fun h => h

theorem CoresOk.sentinelAlarm {s : State} {c set a : Nat} (h : CoresOk s) : CoresOk (sentinelAlarm s c set a) := by
  unfold Machine.sentinelAlarm
  dsimp only
  split
  · refine .updCore (.precisionEvent (.frame (h.updCore fun k hk => hk.count.setArr))) fun k hk => (hk.foldl fun k1 x hx => ?_)
    split
    · exact hx.addTask
    · exact hx
  · split
    · exact .coreDies (.frame (.retireArray (.precisionEvent (.frame (h.updCore fun k hk => hk.count.setArr)))))
    · exact .frame (.retireArray (.precisionEvent (.frame (h.updCore fun k hk => hk.count.setArr))))

theorem CoresOk.sentinelSlice {s : State} {c set : Nat} (h : CoresOk s) : CoresOk (sentinelSlice s c set) := by
  unfold Machine.sentinelSlice
  dsimp only
  split
  · exact h
  · split
    · exact h.setCore (h.core _).setSet
    · split
      · exact (h.frame.setCore (h.core _).setSet.count.count).sentinelAlarm
      · exact h.frame.setCore (h.core _).setSet.count.count

theorem CoresOk.calHandles {s : State} (h : CoresOk s) : CoresOk (calHandles s) := by
  unfold Machine.calHandles
  refine h.foldl fun s _ hs => ?_
  split
  · split
    · exact hs
    · split
      · exact hs.keep
      · exact hs.finish
  · exact hs

theorem CoresOk.calDone {s : State} {c a : Nat} (h : CoresOk s) : CoresOk (calDone s c a) :=
  .calHandles (h.updCore fun _ hk => hk.setArr.setSet)

theorem CoresOk.fitSlices {s : State} {c set : Nat} {slices : List Nat} (h : CoresOk s) : CoresOk (s.fitSlices c set slices) :=
  h.frame.updCore fun _ hk => hk.setSet

theorem CoresOk.calSlice {s : State} {c a : Nat} (h : CoresOk s) : CoresOk (calSlice s c a) := by
  unfold Machine.calSlice
  dsimp only
  split
  · exact h.fitSlices.updCore fun k hk => hk.setArr
  · exact h.fitSlices.calDone

theorem CoresOk.calPass {s : State} {c a : Nat} (h : CoresOk s) : CoresOk (calPass s c a) := h.fitSlices.calDone

theorem Runs.execCalibrate {i : Nat} {s : State} : Runs s (execCalibrate i s) := by
  unfold Machine.execCalibrate
  dsimp only
  refine .next fun h => h.onCmd fun _ => ?_
  split
  · exact h.finish
  · refine .calHandles (.keep (.mapCores h fun c k hk => ?_))
    split
    · refine hk.foldl fun k1 x hx => ?_
      split
      · exact hx.addTask
      · exact hx
    · exact hk

theorem CoresOk.passDigest {s : State} {c a : Nat} (h : CoresOk s) : CoresOk (passDigest s c a) := h.setCore (h.core _).setArr

theorem CoresOk.refreshDone {s : State} {c a : Nat} (h : CoresOk s) : CoresOk (refreshDone s c a) :=
  h.passDigest.updCore fun _ hk => hk.setArr.setSet.addTask

theorem CoresOk.refreshSlice {s : State} {c a : Nat} (h : CoresOk s) : CoresOk (refreshSlice s c a) := by
  unfold Machine.refreshSlice
  split
  next e =>
    extract_lets +onlyGivenNames _ _ _ _ _ _ _ _ s2 s3 _ _ _
    have h2 : CoresOk s2 := (h.frame.ofSnd e).updCore fun k hk => hk.setArr.count
    have h3 : CoresOk s3 := by
      unfold s3
      split
      · exact h2
      · exact h2.refreshDone
    exact h3.foldl fun s _ hs => hs.wornColumn

theorem CoresOk.repairDone {s : State} {c a : Nat} (h : CoresOk s) : CoresOk (repairDone s c a) := by
  unfold Machine.repairDone
  split
  next e =>
    extract_lets +onlyGivenNames _ _ _ _ s2
    have h2 : CoresOk s2 := (h.frame.ofSnd e).updCore fun k hk => hk.setArr
    split
    next e1 =>
      extract_lets +onlyGivenNames _ _ s4 _ _ s5
      have h4 : CoresOk s4 := (h2.calPass.readRecord.ofSnd e1).foldl fun s _ hs => hs.wornColumn
      have h5 : CoresOk s5 := by
        unfold s5
        split
        · exact h4.updCore fun k hk => hk.setArr
        · exact h4
      split
      · exact h5
      · split
        · split
          · split
            · exact h5.stopImage
            · exact h5.updCore fun k hk => hk.setArr
          · exact h5
        · extract_lets +onlyGivenNames _ _ _
          split
          · exact h5.frame.odPending.precisionEvent.reportBound
          · exact h5.frame.odPending.precisionEvent

theorem CoresOk.settleTask {s : State} {c a level : Nat} (h : CoresOk s) : CoresOk (settleTask s c a level) := by
  unfold Machine.settleTask
  dsimp only
  refine h.updCore fun k hk => ?_
  split
  · refine .setArr ?_
    split
    · exact hk
    · exact hk.setSet
  · split
    · exact hk
    · exact hk.setSet

theorem CoresOk.fixSlice {s : State} {c a level : Nat} (h : CoresOk s) : CoresOk (fixSlice s c a level) := by
  unfold Machine.fixSlice
  dsimp only
  refine .settleTask ?_
  split
  · exact h.frame.updCore fun k hk => hk.setArr
  · split
    · exact .repairDone (h.frame.updCore fun k hk => hk.setArr)
    · exact .updCore (h.frame.updCore fun k hk => hk.setArr) fun k hk => hk.setArr

theorem CoresOk.bearSlice {s : State} {c set : Nat} {before : Core} {x : Slice} (h : CoresOk s) :
    CoresOk (bearSlice s c set before x) := by
  unfold Machine.bearSlice
  extract_lets k named s'
  have h' : CoresOk s' := h.foldl fun s q hs => hs.bearWait
  exact h'.updCore fun k hk => hk.frame

theorem CoresOk.sliceWork {s : State} {core set : Nat} {t : Machine.Task} (h : CoresOk s) : CoresOk (sliceWork s core set t) := by
  unfold Machine.sliceWork
  split
  · exact h.fixSlice
  · exact h.sentinelSlice
  · exact h.refreshSlice
  · exact h.refreshSlice
  · exact h.fixSlice
  · exact h.calSlice

theorem Runs.execUpkeepSliceEnd {core set : Nat} {s : State} : Runs s (execUpkeepSliceEnd core set s) := by
  unfold Machine.execUpkeepSliceEnd
  extract_lets +onlyGivenNames _
  split
  · exact .next fun h => h
  · extract_lets +onlyGivenNames _ _ _
    split
    · exact .next fun h => ((h.setCore (h.core _).setSet).bearSlice).upkeepReturn
    · extract_lets +onlyGivenNames s2
      have h2 (h : CoresOk s) : CoresOk s2 := (((h.setCore (h.core _).setSet).sliceWork).bearSlice).upkeepReturn
      refine .next fun h => ?_
      split
      · exact (h2 h).advance
      · exact h2 h

theorem CoresOk.clearWarningsOp {s : State} {mask : W32} (h : CoresOk s) : CoresOk (clearWarningsOp s mask).1 := h.frame.odBump

theorem Runs.execClearWarnings {w : Writer} {mask : W32} {s : State} : Runs s (execClearWarnings w mask s) :=
  .applied fun h => h.frame.odBump

/-! ## Starts -/

theorem CoresOk.runBank {s : State} {i : Nat} {prev : Option Nat} (h : CoresOk s) : CoresOk (runBank s i prev) := by
  unfold Machine.runBank
  dsimp only
  split
  · exact h.frame
  · exact .saveBoot h.frame

theorem CoresOk.selectBank {s : State} (h : CoresOk s) : CoresOk (selectBank s).1 := by
  unfold Machine.selectBank
  dsimp only
  split
  · split
    · exact .runBank (.saveBoot h.frame)
    · split
      · exact .runBank (.saveBoot h.frame)
      · split
        · exact .runBank (.saveBoot h.frame)
        · exact .saveBoot h.frame
  · split
    · exact h.runBank
    · split
      · exact h.runBank
      · exact h

theorem CoresOk.selectWarm {s : State} (h : CoresOk s) : CoresOk (selectWarm s).1 := by
  unfold Machine.selectWarm
  split
  · exact h.runBank
  · exact h.selectBank

theorem CoresOk.readBootRecord {s : State} (h : CoresOk s) : CoresOk (readBootRecord s) := by
  unfold Machine.readBootRecord
  extract_lets _ b
  have hb : b.sessions = s.boot.sessions := by
    unfold b
    split
    · rfl
    · rfl
  exact .saveBoot h.frame

theorem CoresOk.startFails {s : State} {step : Nat} (h : CoresOk s) : CoresOk (startFails s step) := .saveBoot (.frame h.clearCold)

theorem CoresOk.loadLeaf {s : State} (h : CoresOk s) : CoresOk (loadLeaf s) := by
  unfold Machine.loadLeaf
  dsimp only
  split
  · exact h.frame
  · exact h.frame

theorem CoresOk.raise {s : State} {i : Nat} {pg : Bool} (h : CoresOk s) : CoresOk (raise s i pg) := h.emit.frame

theorem CoresOk.wakeNext {i : Nat} {s : State} (h : CoresOk s) : CoresOk (wakeNext i s) := by
  induction i generalizing s with
  | zero => exact h
  | succ n ih =>
    rw [Machine.wakeNext]
    dsimp only
    split
    · exact h
    · split
      · exact h
      · refine ih ?_
        split
        · exact h.frame.beginRetry
        · exact h.frame.wakeRegion

theorem CoresOk.trainModules {s : State} {ups : List LinkUp} {warm : Bool} (h : CoresOk s) : CoresOk (trainModules s ups warm) := by
  unfold Machine.trainModules
  dsimp only
  refine .foldl (h.foldl fun s _ hs => hs.setSite) fun s _ hs => ?_
  split
  · exact hs
  · exact hs.modUp

theorem CoresOk.trainPorts {s : State} {ps : List Nat} (h : CoresOk s) : CoresOk (trainPorts s ps) := by
  unfold Machine.trainPorts
  refine h.foldl fun s _ hs => ?_
  split
  · exact hs.trainPort
  · exact hs

theorem CoresOk.setPhase {s : State} {p : Phase} (h : CoresOk s) : CoresOk (setPhase s p) := by
  unfold Machine.setPhase
  exact h.frame

theorem CoresOk.wakesGoOn {s : State} (h : CoresOk s) : CoresOk (wakesGoOn s) := by
  unfold Machine.wakesGoOn
  dsimp only
  split
  · exact h
  · split
    · exact .trainPorts (.trainModules (.frame h.wakeNext))
    · exact h.wakeNext

theorem CoresOk.wakeAll {s : State} {kind : Nat} {i : StartInputs} (h : CoresOk s) : CoresOk (wakeAll s kind i) := by
  unfold Machine.wakeAll
  extract_lets +onlyGivenNames _ s1 _
  have h1 : CoresOk s1 := by
    unfold s1
    split
    · exact h.frame.allDark
    · exact h
  exact .wakesGoOn h1.frame

theorem CoresOk.loadSettings {s : State} {cold : Bool} {rom : Nat} (h : CoresOk s) : CoresOk (loadSettings s cold rom) := by
  unfold Machine.loadSettings
  dsimp only
  refine h.loadStore.foldl fun s _ hs => ?_
  split
  · exact hs
  · exact hs.setpointOp

theorem CoresOk.coldFrom4 {s : State} {i : StartInputs} {rom : Nat} (h : CoresOk s) : CoresOk (coldFrom4 s i rom) := by
  unfold Machine.coldFrom4
  dsimp only
  split
  · exact h.startFails
  · split
    · exact .startFails h.frame
    · split
      · exact .startFails (.raise (.loadLeaf (.loadSettings h.frame)))
      · split
        · exact .startFails (.raise (.raise (.loadLeaf (.loadSettings h.frame))))
        · exact .wakeAll (.raise (.raise (.loadLeaf (.loadSettings h.frame))))

theorem CoresOk.startTray {s : State} (h : CoresOk s) : CoresOk (startTray s) := h.emit.emit

theorem Runs.execColdStart {i : StartInputs} {s : State} : Runs s (execColdStart i s) := by
  unfold Machine.execColdStart
  split
  · extract_lets +onlyGivenNames _ _ s2 _
    have h2 (h : CoresOk s) : CoresOk s2 := .frame h.clearCold
    split
    · exact .next fun h => (h2 h).startTray.raise.startFails
    · extract_lets +onlyGivenNames _ _
      split
      · exact .next fun h => (h2 h).startTray.raise.readBootRecord.setPhase
      · split
        next e3 =>
          split
          · exact .next fun h => ((h2 h).startTray.raise.readBootRecord.selectBank.ofFst e3).setPhase
          · exact .next fun h => ((h2 h).startTray.raise.readBootRecord.selectBank.ofFst e3).coldFrom4
  · exact .next fun h => h

theorem CoresOk.forgetReads {s : State} (h : CoresOk s) : CoresOk (forgetReads s) := by
  unfold Machine.forgetReads
  exact h.frame

theorem Runs.execWarmStart {i : StartInputs} {s : State} : Runs s (execWarmStart i s) := by
  unfold Machine.execWarmStart
  split
  · extract_lets +onlyGivenNames s1 _ _ s2 saves s3
    have h1 (h : CoresOk s) : CoresOk s1 := h.clearBoth
    clear_value s1
    have h2 (h : CoresOk s) : CoresOk s2 := (h1 h).frame
    have h3 (h : CoresOk s) : CoresOk s3 := (h2 h).forgetReads.readBootRecord
    split
    · exact .next fun h => (h3 h).setPhase
    · split
      next s4 ok e =>
        have h4 (h : CoresOk s) : CoresOk s4 := (h3 h).selectWarm.ofFst e
        split
        · exact .next fun h => (h4 h).setPhase
        · exact .next fun h => (h4 h).loadSettings.loadLeaf.wakeAll
  · exact .next fun h => h

theorem Runs.execRecoveryStart {i : StartInputs} {s : State} : Runs s (execRecoveryStart i s) := by
  unfold Machine.execRecoveryStart
  split
  · extract_lets s1 _ s2 s3 s4
    have h1 (h : CoresOk s) : CoresOk s1 := h.allDark.clearCold
    clear_value s1
    have h2 (h : CoresOk s) : CoresOk s2 := (h1 h).frame
    have h3 (h : CoresOk s) : CoresOk s3 := by
      unfold s3
      split
      · exact h2 h
      · exact (h2 h).raise
    split
    · exact .next fun h => (h3 h).startFails
    · split
      · exact .next fun h => (h3 h).raise.startFails
      · exact .next fun h => .setPhase (.trainModules (h3 h).raise.frame)
  · exact .next fun h => h

theorem CoreOk.coldCal {k : Core} (h : CoreOk k) : CoreOk k.coldCal := by
  unfold Core.coldCal
  exact h.frame

theorem CoresOk.coldCalibrate {s : State} (h : CoresOk s) : CoresOk (coldCalibrate s) := by
  unfold Machine.coldCalibrate
  dsimp only
  refine .mapCores (h.frame.foldl fun s _ hs => hs.updPreg) fun c k hk => ?_
  split
  · exact hk
  · exact hk.coldCal

theorem CoresOk.warmCalibrate {s : State} (h : CoresOk s) : CoresOk (warmCalibrate s) := by
  unfold Machine.warmCalibrate
  refine h.frame.foldl fun s _ hs => ?_
  split
  · exact hs
  · refine hs.foldl fun s _ hs => ?_
    split
    · exact hs.foldl fun s _ hs => hs.calPass
    · exact hs

theorem CoresOk.writeLate {s : State} (h : CoresOk s) : CoresOk (writeLate s) := .frame (h.foldl fun _ _ hs => hs.finish)

theorem CoresOk.started {s : State} {kind : Nat} (h : CoresOk s) : CoresOk (started s kind) := by
  unfold Machine.started
  extract_lets +onlyGivenNames s1 _ _ s2
  have h1 : CoresOk s1 := by
    unfold s1
    split
    · exact h.coldCalibrate
    · exact h.warmCalibrate
  have h2 : CoresOk s2 := .saveBoot h1.frame
  split
  · exact h2.writeLate.postEvent
  · exact h2

theorem Runs.execStartComplete {s : State} : Runs s (execStartComplete s) := by
  unfold Machine.execStartComplete
  dsimp only
  split
  · split
    · exact .next fun h => h
    · exact .next fun h => .readCommands (h.started.foldl fun s _ hs => hs.advance)
  · exact .next fun h => h

theorem Runs.execStartFailed {step : Nat} {s : State} : Runs s (execStartFailed step s) := by
  unfold Machine.execStartFailed
  extract_lets +onlyGivenNames _
  split
  · exact .next fun h => h.startFails
  · exact .next fun h => h

theorem Runs.execManagementWatchdog {s : State} : Runs s (execManagementWatchdog s) := by
  unfold Machine.execManagementWatchdog
  dsimp only
  split
  · exact .next fun h => .saveBoot (.frame h.suddenWarm)
  · exact .next fun h => h.startFails
  · exact .next fun h => h.startFails
  · exact .next fun h => .saveBoot h.frame
  · exact .next fun h => h

theorem Runs.execManagementMemoryError {s : State} : Runs s (execManagementMemoryError s) := by
  unfold Machine.execManagementMemoryError
  split
  · exact .next fun h => h.suddenWarm
  · exact .next fun h => h.trigger
  · exact .next fun h => h

theorem CoresOk.restartCmd {s : State} {i kind : Nat} (h : CoresOk s) : CoresOk (restartCmd s i kind) := by
  refine h.onCmd fun o => ?_
  extract_lets k rec_ s1
  have h1 : CoresOk s1 := h.finish.orderedStart
  clear_value s1
  split
  · split
    · exact .saveBoot h1.frame
    · exact h1
  · split
    · exact h
    · exact h.finish

theorem Runs.execRestartWarm {i : Nat} {s : State} : Runs s (execRestartWarm i s) := .next fun h => h.restartCmd
theorem Runs.execRestartCold {i : Nat} {s : State} : Runs s (execRestartCold i s) := .next fun h => h.restartCmd

theorem CoresOk.writeBank {s : State} {b : Bytes} (h : CoresOk s) : CoresOk (writeBank s b).1 := by
  unfold Machine.writeBank
  dsimp only
  split
  · exact h
  · split
    · exact h
    · exact h.frame

theorem Runs.execFwWrite {i : Nat} {image : Option Bytes} {s : State} : Runs s (execFwWrite i image s) := by
  unfold Machine.execFwWrite
  dsimp only
  refine .next fun h => h.onCmd fun _ => ?_
  split
  · exact h.finish
  · split
    · exact h.operand.finish
    · split
      · exact h.operand
      · exact h.operand.writeBank.finish

theorem Runs.execFwActivate {i : Nat} {s : State} : Runs s (execFwActivate i s) := by
  unfold Machine.execFwActivate
  dsimp only
  refine .next fun h => h.onCmd fun _ => ?_
  split
  · exact h.finish
  · exact .orderedStart (.saveBoot (.frame h.finish))

theorem Runs.execNop {i : Nat} {s : State} : Runs s (execNop i s) := .next fun h => h.onCmd fun _ => h.finish

/-! ## Custody -/

theorem CoresOk.signGo {i : Nat} {s : State} (h : CoresOk s) : CoresOk (signGo i s) := by
  induction i generalizing s with
  | zero => exact h
  | succ n ih =>
    rw [Machine.signGo]
    dsimp only
    split
    · exact h
    · split
      · exact h
      · split
        · exact ih h.frame
        · split
          · exact ih (.finish h.frame)
          · split
            · exact ih (.finish (.writeBlock h.frame))
            · exact .frame (.keep (.writeBlock h.frame))

theorem CoresOk.startSigning {s : State} (h : CoresOk s) : CoresOk (startSigning s) := h.signGo

theorem Runs.execAttest {i : Nat} {nonce : Option Bytes} {s : State} : Runs s (execAttest i nonce s) := by
  unfold Machine.execAttest
  dsimp only
  refine .next fun h => h.onCmd fun _ => ?_
  split
  · exact h.operand.finish
  · split
    · exact h.operand.finish
    · exact .startSigning (.frame h.operand.keep)

theorem Runs.execAttestSigned {s : State} : Runs s (execAttestSigned s) := by
  unfold Machine.execAttestSigned
  split
  · exact .next fun h => h
  · extract_lets +onlyGivenNames _ _ s1 _ _
    have h11 (h : CoresOk s) : CoresOk s1 := by
      unfold s1
      split
      · exact h.hostWrite.finish
      · exact h
    exact .next fun h => .startSigning (h11 h).frame

theorem Runs.execLowerTreeBuilt {s : State} : Runs s (execLowerTreeBuilt s) := by
  unfold Machine.execLowerTreeBuilt
  dsimp only
  split
  · exact .next fun h => h
  · exact .next fun h => .startSigning h.frame

theorem CoresOk.storeValue {s : State} {index sub : Nat} {v : Bytes} (h : CoresOk s) : CoresOk (storeValue s index sub v) := by
  unfold Machine.storeValue
  split
  · exact h.odStore
  · exact h

theorem CoresOk.custodyOp {s : State} {v : Nat} (h : CoresOk s) : CoresOk (custodyOp s v).1 := by
  unfold Machine.custodyOp
  split
  · exact h
  · split
    · exact h
    · dsimp only
      exact h.storeValue

theorem Runs.execCustodyEnable {w : Writer} {value : Nat} {s : State} : Runs s (execCustodyEnable w value s) := by
  unfold Machine.execCustodyEnable
  split
  · exact .applied fun h => h.custodyOp
  · exact .next fun h => h

theorem CoresOk.openSession {s : State} {b : Bytes} {source : Option Nat} (h : CoresOk s) : CoresOk (openSession s b source).1 := by
  unfold Machine.openSession
  extract_lets role admin lengthOk signed k salt
  split
  · exact h
  · split
    · exact h
    · split
      next i s1 e =>
        have h1 : CoresOk s1 := h.draw.ofSnd e
        exact h1.frame

theorem Runs.execSessionOpen {i : Nat} {block : Option Bytes} {s : State} : Runs s (execSessionOpen i block s) := by
  unfold Machine.execSessionOpen
  dsimp only
  refine .next fun h => h.onCmd fun _ => ?_
  split
  · exact h.finish
  · split
    · exact h.operand.finish
    · split
      · exact h.operand
      · split
        · exact h.operand.openSession.finish
        · exact h.operand.openSession.hostWrite.finish

theorem CoresOk.dropSessionIndex {s : State} {id : Nat} (h : CoresOk s) : CoresOk (dropSessionIndex s id) := by
  unfold Machine.dropSessionIndex
  dsimp only
  exact .foldl h.frame fun s _ hs => hs.updRegion

theorem CoresOk.endSession {s : State} {id : Nat} (h : CoresOk s) : CoresOk (endSession s id) := by
  unfold Machine.endSession
  dsimp only
  split
  · exact h
  · exact h.endReqs.dropSessionIndex.frame

theorem Runs.execSessionClose {i : Nat} {s : State} : Runs s (execSessionClose i s) := by
  unfold Machine.execSessionClose
  refine .next fun h => h.onCmd fun _ => ?_
  split
  · exact h.finish
  · exact h.endSession.finish

theorem Runs.execSessionIdle {session : Nat} {s : State} : Runs s (execSessionIdle session s) := by
  unfold Machine.execSessionIdle
  split
  · split
    · exact .next fun h => h.endSession
    · exact .next fun h => h
  · exact .next fun h => h

theorem Runs.execKeyload {i : Nat} {blob : Option Bytes} {s : State} : Runs s (execKeyload i blob s) := by
  unfold Machine.execKeyload
  dsimp only
  refine .next fun h => h.onCmd fun _ => ?_
  split
  · exact h.operand.finish
  · split
    · exact h.operand.finish
    · split
      · exact h.operand
      · split
        · exact h.operand.finish
        · exact .finish h.operand.updRegion

end Sys2Proof.Proofs
end

section
/-!
SUPPORT. How the cores stay in order under observation, dictionary writes, commands, operations, the management segment and wakes.
-/
namespace Sys2Proof.Proofs
open Sys2Proof.Machine Sys2Proof.Safety

/-! ## Observation -/

theorem CoresOk.clearOverflowOp {s : State} {w : Writer} {v : Nat} (h : CoresOk s) : CoresOk (clearOverflowOp s w v).1 := by
  unfold Machine.clearOverflowOp
  dsimp only
  split
  · exact h
  · split
    · exact h
    · refine .odBump ?_
      split
      · exact h.frame
      · split
        · exact h
        · exact h.updCore fun k hk => hk.frame

theorem Runs.execClearOverflow {w : Writer} {value : Nat} {s : State} : Runs s (execClearOverflow w value s) :=
  .applied fun h => h.clearOverflowOp

theorem CoresOk.scopeOp {s : State} {w : Writer} (h : CoresOk s) : CoresOk (scopeOp s w).1 := by
  unfold Machine.scopeOp
  dsimp only
  split
  · exact h
  · split
    · exact .odBump h.frame
    · exact .dropShadow (.storeValue (.storeValue (.storeValue (.odBump h.frame))))

theorem Runs.execScopeCommit {w : Writer} {s : State} : Runs s (execScopeCommit w s) := .applied fun h => h.scopeOp.commitCounted

theorem Runs.execCounterDump {i : Nat} {s : State} : Runs s (execCounterDump i s) := by
  unfold Machine.execCounterDump
  refine .next fun h => h.onCmd fun _ => ?_
  extract_lets +onlyGivenNames _ _ _
  split
  · exact h.finish
  · split
    · exact .finish h.frame
    · extract_lets +onlyGivenNames _
      split
      · exact h.finish
      · extract_lets +onlyGivenNames _
        exact .finish h.frame

theorem Runs.execSnapshot {ring : Nat} {s : State} : Runs s (execSnapshot ring s) := by
  unfold Machine.execSnapshot
  split
  · extract_lets +onlyGivenNames p b
    split
    · exact .next fun h => h
    · extract_lets +onlyGivenNames skipped recs
      split
      · exact .next fun h => h.frame
      · extract_lets +onlyGivenNames head s1
        have h1 (h : CoresOk s) : CoresOk s1 := h.putRecords
        clear_value s1
        exact .next fun h => (h1 h).frame
  · exact .next fun h => h

theorem CoresOk.watchArmOp {s : State} {w : Writer} {n : Nat} (h : CoresOk s) : CoresOk (watchArmOp s w n).1 := by
  unfold Machine.watchArmOp
  dsimp only
  split
  · exact h
  · split
    · exact .frame h.odBump
    · split
      · exact .frame h.odBump
      · split
        · exact .frame h.odBump
        · exact .dropShadow (.foldl (.mapCores h.odBump (fun c k hk => hk.frame)) fun s _ hs => hs.odBump)

theorem Runs.execWatchArm {w : Writer} {watch : Nat} {s : State} : Runs s (execWatchArm w watch s) := by
  unfold Machine.execWatchArm
  split
  · exact .applied fun h => h.watchArmOp.commitCounted
  · exact .next fun h => h

theorem CoresOk.watchDisarmOp {s : State} {n : Nat} (h : CoresOk s) : CoresOk (watchDisarmOp s n).1 := by
  unfold Machine.watchDisarmOp
  exact h.frame

theorem Runs.execWatchDisarm {w : Writer} {watch : Nat} {s : State} : Runs s (execWatchDisarm w watch s) := by
  unfold Machine.execWatchDisarm
  split
  · exact .applied fun h => .odBump h.frame
  · exact .next fun h => h

theorem Runs.execWatchDump {core op : Nat} {s : State} : Runs s (execWatchDump core op s) := by
  unfold Machine.execWatchDump
  split
  · exact .next fun h => h
  · extract_lets +onlyGivenNames _ _ _ _ _ _ _ s1 s2 _
    have h1 (h : CoresOk s) : CoresOk s1 := h.frame
    have h2 (h : CoresOk s) : CoresOk s2 := by
      unfold s2
      split
      · exact h1 h
      · exact (h1 h).updCore fun k1 hk => hk.frame
    split
    · exact .next fun h => .notice (.frame (h2 h).winWrite)
    · exact .next fun h => .settle (h2 h).frame

theorem CoresOk.armVigil {s : State} {i : Nat} {o : HOut} (h : CoresOk s) : CoresOk (armVigil s i o) := by
  unfold Machine.armVigil
  extract_lets +onlyGivenNames _ _ _ _ _ _ _
  split
  · exact h.finish
  · exact .keep h.updRegion

theorem Runs.execVigilArm {i : Nat} {s : State} : Runs s (execVigilArm i s) := by
  unfold Machine.execVigilArm
  refine .next fun h => h.onCmd fun _ => ?_
  split
  · exact h.armVigil
  · exact h
  · exact h.finish

theorem Runs.execVigilDisarm {i : Nat} {s : State} : Runs s (execVigilDisarm i s) := by
  unfold Machine.execVigilDisarm
  dsimp only
  refine .next fun h => h.onCmd fun _ => ?_
  split
  · split
    · exact h.finish
    · split
      · exact h.finish
      · exact h.disarmVigil.finish
  · exact h
  · exact h.finish

theorem CoresOk.countVigil {s : State} (h : CoresOk s) :
    CoresOk { s with observe := { s.observe with vigils := (s.observe.vigils + 1) % 2 ^ 32 } } := .frame h

theorem CoresOk.writeVigil {s : State} {n : Nat} {t : VigTrig} {v : VigArm} (h : CoresOk s) : CoresOk (writeVigil s n t v) := by
  unfold Machine.writeVigil
  extract_lets s'
  have h' : CoresOk s' := h.updRegion
  split
  · split
    · exact h'.finish
    · split
      next base s1 e =>
        extract_lets +onlyGivenNames b core s2 _ s3 s4
        have h1 : CoresOk s1 := (CoresOk.draw h).ofSnd e
        have h2 : CoresOk s2 := .winWrite h1.updRegion
        clear_value s2
        have h3 : CoresOk s3 := .odPending (CoresOk.countVigil h2)
        exact h3.notice.finish
  · exact h'.finish

theorem Runs.execVigilDump {region : Nat} {s : State} : Runs s (execVigilDump region s) := by
  unfold Machine.execVigilDump
  dsimp only
  split
  · exact .next fun h => h
  · split
    · exact .next fun h => h
    · split
      · split
        · exact .next fun h => h.frame
        · refine .next fun h => .updRegion ?_
          refine .foldl ?_ ?_
          · split
            · refine .finish ?_
              split
              · exact .writeVigil h.frame
              · exact h.frame
            · split
              · exact .writeVigil h.frame
              · exact h.frame
          · intro s1 x2 h1
            split
            · exact h1.haltCore fun a ha => ha
            · exact h1
      · exact .next fun h => h.frame

theorem CoresOk.abandon {s : State} {i : Nat} {o : HOut} {now : Bool} (h : CoresOk s) : CoresOk (abandon s i o now) := by
  unfold Machine.abandon
  extract_lets +onlyGivenNames n done
  have hdone (s : State) (hs : CoresOk s) : CoresOk (done s) := by
    unfold done
    split
    · exact hs.finish
    · exact hs
  split
  · exact h.opFail
  · refine .opFail ?_
    split
    · exact h
    · exact h.updRegion
  · extract_lets r first s1
    have h1 : CoresOk s1 := by
      unfold s1
      split
      · split
        · exact h.stopBusy.updRegion
        · exact h
      · exact h
    exact .tryRelease (hdone _ h1.updRegion)
  · exact hdone _ h.dropJob
  · extract_lets _ s1
    have h1 : CoresOk s1 := h.frame
    exact h1.finish.startSigning
  · extract_lets w others s1
    refine CoresOk.finish ?_
    unfold s1
    split
    · exact h
    · refine h.mapCores fun c k hk => ?_
      split
      · exact hk.frame
      · exact hk

theorem Runs.execHandleProgressTimeout {i : Nat} {s : State} : Runs s (execHandleProgressTimeout i s) := by
  unfold Machine.execHandleProgressTimeout
  dsimp only
  split
  · exact .next fun h => h
  · split
    · exact .next fun h => h
    · split
      · exact .next fun h => h.abandon
      · exact .next fun h => h.abandon.keep.beginVigil

theorem CoresOk.sillageMarkOp {s : State} {v : Nat} (h : CoresOk s) : CoresOk (sillageMarkOp s v).1 := h.sil.odBump

theorem Runs.execSillageMark {w : Writer} {value : W32} {s : State} : Runs s (execSillageMark w value s) :=
  .applied fun h => h.sil.odBump

theorem Runs.execPeriodicMark {s : State} : Runs s (execPeriodicMark s) := by
  unfold Machine.execPeriodicMark
  dsimp only
  split
  · exact .next fun h => .sil h.frame
  · exact .next fun h => h

/-! ## Dictionary writes -/

theorem CoresOk.afterWrite {s : State} {index sub v : Nat} (h : CoresOk s) : CoresOk (afterWrite s index sub v) := by
  unfold Machine.afterWrite
  dsimp only
  split
  · exact h.setpointOp
  · split
    · exact h.chooseRoot
    · split
      · split
        · exact h.portGoesDown
        · split
          · exact h.setPort
          · exact h
      · exact h

theorem CoresOk.restoreOp {s : State} {key : Nat} (h : CoresOk s) : CoresOk (restoreOp s key).1 := by
  unfold Machine.restoreOp
  split
  · exact h
  · split
    · exact h
    · extract_lets +onlyGivenNames gone old _ s1 s2 s3
      have h1 : CoresOk s1 := h.frame
      have h2 : CoresOk s2 := h1.frame
      have h3 : CoresOk s3 := h2.foldl fun s k hs => hs.odBump.odPending.afterWrite
      exact h3.saveAll.odBump

theorem Runs.execRestoreDefaults {w : Writer} {key : W32} {s : State} : Runs s (execRestoreDefaults w key s) :=
  .applied fun h => h.restoreOp

theorem CoresOk.commitWrite {s : State} {w : Writer} {index v : Nat} (h : CoresOk s) : CoresOk (commitWrite s w index v).1 := by
  unfold Machine.commitWrite
  split
  · exact h.discardOp
  · refine .commitCounted ?_
    split
    · split
      · exact h.segmentOp
      · exact h
    · split
      · split
        · exact h.scopeOp
        · exact h
      · split
        · split
          · exact h.regionCommitOp
          · split
            · exact h.regionReleaseOp
            · exact h
        · split
          · exact h.watchArmOp
          · split
            · exact h.frame
            · exact h

theorem CoresOk.writeOnly {s : State} {w : Writer} {index sub v : Nat} (h : CoresOk s) : CoresOk (writeOnly s w index sub v).1 := by
  unfold Machine.writeOnly
  split
  · exact h.commitWrite
  · split
    · exact h.restoreSiteOp
    · split
      · split
        · exact h.flushOp
        · split
          · exact h.restoreOp
          · exact h.clearFallbackOp
      · split
        · exact h.retryOp
        · split
          · exact h.frame.odBump
          · split
            · exact h.coldStartOp
            · split
              · exact h.clearPairOp
              · split
                · exact h.frame.odBump
                · split
                  · exact h.flushPrefixOp
                  · split
                    · exact h.clearOverflowOp
                    · exact h.sil.odBump

theorem CoresOk.writeSetting {s : State} {w : Writer} {index sub : Nat} {r : OdRow} {v : Bytes} (h : CoresOk s) :
    CoresOk (writeSetting s w index sub r v).1 := by
  unfold Machine.writeSetting
  dsimp only
  split
  · split
    · exact h
    · exact h.setSelection.odBump
  · split
    · exact h.custodyOp
    · split
      · exact h
      · exact h.odStore.afterWrite

theorem CoresOk.writeKey {s : State} {index sub : Nat} {r : OdRow} {v : Bytes} (h : CoresOk s) : CoresOk (writeKey s index sub r v).1 := by
  unfold Machine.writeKey
  dsimp only
  split
  · exact h
  · split
    · split
      · exact h
      · split
        · exact h
        · exact h.odStore
    · split
      · exact h
      · split
        · exact h
        · exact h.odStore

theorem CoresOk.odWriteOp {s : State} {w : Writer} {index sub : Nat} {v : Bytes} (h : CoresOk s) :
    CoresOk (odWriteOp s w index sub v).1 := by
  unfold Machine.odWriteOp
  split
  · exact h
  · split
    · exact h
    · split
      · exact h
      · exact h
      · exact h.shadowOp
      · split
        · exact h
        · exact h.writeOnly
      · split
        · exact h.writeKey
        · split
          · exact h
          · exact h.writeSetting

theorem CoresOk.odReadCmd {s : State} {i : Nat} {o : HOut} (h : CoresOk s) : CoresOk (odReadCmd s i o) := by
  unfold Machine.odReadCmd
  dsimp only
  split
  · exact h
  · split
    · exact h.finish
    · split
      · exact h.finish
      · split
        · exact h.finish
        · split
          · exact h.finish
          · exact h.hostWrite.finish

theorem CoresOk.odWriteCmd {s : State} {i : Nat} {o : HOut} {data : Option Bytes} (h : CoresOk s) : CoresOk (odWriteCmd s i o data) := by
  unfold Machine.odWriteCmd
  dsimp only
  split
  · exact h
  · split
    · exact h.operand.finish
    · split
      · exact h.operand
      · split
        · exact h.operand.odWriteOp.keep.holdCommit
        · split
          · exact h.operand.finish.odWriteOp
          · exact h.operand.odWriteOp.finish

theorem Runs.execOdRead {i : Nat} {s : State} : Runs s (execOdRead i s) := .next fun h => h.onCmd fun _ => h.odReadCmd

theorem Runs.execOdWrite {i : Nat} {data : Option Bytes} {s : State} : Runs s (execOdWrite i data s) :=
  .next fun h => h.onCmd fun _ => h.odWriteCmd

/-! ## Host commands -/

theorem Runs.execCreateSq {i : Nat} {s : State} : Runs s (execCreateSq i s) := by
  unfold Machine.execCreateSq
  refine .next fun h => h.onCmd fun _ => ?_
  extract_lets +onlyGivenNames _ _ _ _ _
  split
  · exact h.finish
  · split
    · exact h.finish
    · exact h.setSq.finish

theorem Runs.execDeleteSq {i : Nat} {s : State} : Runs s (execDeleteSq i s) := by
  unfold Machine.execDeleteSq
  dsimp only
  refine .next fun h => h.onCmd fun _ => ?_
  split
  · exact h.finish
  · exact .finish h.frame

theorem Runs.execCreateRing {i : Nat} {s : State} : Runs s (execCreateRing i s) := by
  unfold Machine.execCreateRing
  refine .next fun h => h.onCmd fun _ => ?_
  extract_lets +onlyGivenNames _ _ _ _ _ _
  split
  · exact h.finish
  · split
    · exact h.finish
    · split
      · exact h.finish
      · extract_lets +onlyGivenNames _
        exact h.setRing.finish

theorem Runs.execDeleteRing {i : Nat} {s : State} : Runs s (execDeleteRing i s) := by
  unfold Machine.execDeleteRing
  dsimp only
  refine .next fun h => h.onCmd fun _ => ?_
  split
  · exact h.finish
  · exact .finish h.frame

theorem Runs.execSetEvents {i : Nat} {s : State} : Runs s (execSetEvents i s) := by
  unfold Machine.execSetEvents
  dsimp only
  refine .next fun h => h.onCmd fun _ => ?_
  split
  · split
    · exact h.finish
    · exact h.setRing.finish
  · exact h.finish

/-! ## Operations -/

theorem CoresOk.startEval {s : State} {c : Nat} {q : QOp} {tr : Bool} {a : Nat} {d : Desc} {nar : Bool} {m : Nat} (h : CoresOk s) :
    CoresOk (startEval s c q tr a d nar m) := by
  unfold Machine.startEval
  split
  next e =>
    extract_lets +onlyGivenNames _ _ _ _ _ _ _ _ k2 _ _ _ k5 _
    have hk2 : CoreOk k2 := ((h.frame.ofSnd e).core _).frame
    have hk5 : CoreOk k5 := by
      unfold k5
      split
      · exact hk2.countEval.sampleEval
      · exact hk2.countEval.sampleEval.setSet
    split
    · exact (h.frame.ofSnd e).setCore hk5
    · exact ((h.frame.ofSnd e).setCore hk5).noteFallback

theorem Runs.execOperationStart {core eng : Nat} {s : State} : Runs s (execOperationStart core eng s) := by
  unfold Machine.execOperationStart
  dsimp only
  split
  · exact .next fun h => h
  · split
    · exact .next fun h => h
    · split
      · exact .next fun h => h.stepFaultAt
      · refine .next fun h => .resume ?_
        split
        · exact h.startEval
        · exact h.setCore (h.core _).frame

theorem CoresOk.tagDumps {s : State} {c : Nat} {q : QOp} (h : CoresOk s) : CoresOk (tagDumps s c q) := by
  unfold Machine.tagDumps
  dsimp only
  split
  · exact h
  · split
    · exact h.frame
    · exact .updCore h.frame fun k hk => hk.frame

theorem CoreOk.opDone {k : Core} {eng : Nat} {a : ActOp} {now : Nat} (h : CoreOk k) : CoreOk (k.opDone eng a now) := by
  unfold Core.opDone
  dsimp only
  split
  · exact { h with zero := h.zero.addPhases }
  · exact .setSet { h with zero := h.zero.addPhases }

theorem CoresOk.bearTuning {s : State} {c : Nat} {a : ActOp} (h : CoresOk s) : CoresOk (bearTuning s c a) := by
  unfold Machine.bearTuning
  dsimp only
  split
  · exact h
  · split
    · exact h
    · refine h.foldl fun s _ hs => ?_
      split
      · exact hs
      · exact hs.bearWait

theorem Runs.execOperationTakesEffect {core eng : Nat} {s : State} : Runs s (execOperationTakesEffect core eng s) := by
  unfold Machine.execOperationTakesEffect
  extract_lets +onlyGivenNames _
  split
  · exact .next fun h => h
  · split
    · exact .next fun h => h
    · extract_lets +onlyGivenNames k2 s1
      have hk2 (h : CoresOk s) : CoreOk k2 := .opDone ((h.core _).readSoftLines.run .opEffects)
      have h1 (h : CoresOk s) : CoresOk s1 := (h.setCore (hk2 h)).bearTuning.tagDumps.settle
      refine .next fun h => ?_
      split
      · split
        · exact (h1 h).advance
        · exact h1 h
      · exact h1 h

/-! ## The management segment -/

theorem CoresOk.countSeg {s : State} {sub : Nat} (h : CoresOk s) : CoresOk (countSeg s sub) := h.frame

theorem OptOk.takeToken {s : State} {mac : Nat} (h : CoresOk s) : OptOk (takeToken s mac) := by
  unfold Machine.takeToken
  extract_lets +onlyGivenNames _ _ _ _ _ _ _ _
  split
  · exact .ofSome h.frame
  · exact .ofNone

theorem CoresOk.queueTx {s : State} {dst : Nat} {msg : Bytes} (h : CoresOk s) : CoresOk (queueTx s dst msg) := by
  unfold Machine.queueTx
  dsimp only
  split
  · exact h.countSeg
  · exact h.frame

theorem CoresOk.keepTurn {s : State} {f : MFrame} {sid : Nat} {resp : Bytes} (h : CoresOk s) : CoresOk (keepTurn s f sid resp) := by
  unfold Machine.keepTurn
  dsimp only
  split
  · exact h.frame
  · split
    · exact h.frame
    · exact h

theorem CoresOk.lateResponse {s : State} {dst sid seq : Nat} {r : Bytes} (h : CoresOk s) : CoresOk (lateResponse s dst sid seq r) := by
  unfold Machine.lateResponse
  dsimp only
  refine .queueTx ?_
  split
  · split
    · exact h.frame
    · exact h
  · exact h.frame

theorem CoresOk.lateAnswer {s : State} {f : MFrame} {a : Answer} (h : CoresOk s) : CoresOk (lateAnswer s f a) := h.lateResponse

theorem CoresOk.touchPeer {s : State} {f : MFrame} {x : Option Session} (h : CoresOk s) : CoresOk (touchPeer s f x) := by
  unfold Machine.touchPeer
  dsimp only
  split
  · exact h.frame
  · split
    · exact h.frame
    · exact h

theorem CoresOk.receive {s : State} {f : MFrame} {type : Nat} {act : State → Option Session → State × Option Answer} (h : CoresOk s)
    (hact : ∀ s x, CoresOk s → CoresOk (act s x).1) : CoresOk (receive s f type act) := by
  unfold Machine.receive
  split
  · exact h
  · split
    · exact h.countSeg
    · split
      · exact h.countSeg.countSeg
      · split
        · exact h.countSeg.countSeg
        · split
          · exact h
          · extract_lets s1
            have h1 : CoresOk s1 := h.countSeg
            split
            · exact h1.countSeg
            next s2 e =>
              have h2 : CoresOk s2 := (OptOk.takeToken h1).get e
              split
              · extract_lets s3
                have h3 : CoresOk s3 := h2.countSeg
                split
                · exact h3.frame
                · exact h3
              · split
                · exact h2.countSeg
                · extract_lets s3
                  have h3 : CoresOk s3 := h2.countSeg.touchPeer
                  split
                  · exact h3
                  · exact h3.queueTx
                · split
                  next s3 a e =>
                    have h3 : CoresOk s3 := (hact _ _ h2).ofFst e
                    split
                    · exact h3.keepTurn
                    · exact h3.keepTurn.queueTx

theorem CoresOk.answerFor {s : State} {f : MFrame} {x : Option Session} {type status : Nat} (h : CoresOk s) :
    CoresOk (answerFor s f x type status).1 :=
  h.changeCount

theorem CoresOk.readSeg {s : State} {f : MFrame} {x : Option Session} (h : CoresOk s) : CoresOk (readSeg s f x).1 := by
  unfold Machine.readSeg
  extract_lets m
  split
  next t a e =>
    have ht : CoresOk t := h.answerFor.ofFst e
    split
    · exact ht
    · split
      · exact ht
      · split
        · exact ht
        · split
          · exact ht
          · exact ht

theorem Runs.execRead {f : MFrame} {s : State} : Runs s (execRead f s) := .next fun h => h.receive fun _ _ hs => hs.readSeg

theorem CoresOk.writeSeg {s : State} {f : MFrame} {x : Option Session} (h : CoresOk s) : CoresOk (writeSeg s f x).1 := by
  unfold Machine.writeSeg
  extract_lets m told
  have htold (s : State) (c : Nat) (hs : CoresOk s) : CoresOk (told s c).1 :=
    CoresOk.answerFor (f := f) (x := x) (type := 0x82) (status := c) hs
  split
  · exact htold _ _ h
  · split
    · exact htold _ _ h
    · split
      next s1 c e =>
        have h1 : CoresOk s1 := h.odWriteOp.ofFst e
        split
        · exact h1.holdCommit
        · exact htold _ _ h1

theorem Runs.execWrite {f : MFrame} {s : State} : Runs s (execWrite f s) := .next fun h => h.receive fun _ _ hs => hs.writeSeg

theorem Runs.execIdent {f : MFrame} {s : State} : Runs s (execIdent f s) := by
  unfold Machine.execIdent
  dsimp only
  split
  · exact .next fun h => h.receive fun s _ hs => hs
  · exact .next fun h => h.receive fun s _ hs => hs.frame.frame

theorem Runs.execIdentHoldoff {peer : Nat} {s : State} : Runs s (execIdentHoldoff peer s) := by
  unfold Machine.execIdentHoldoff
  dsimp only
  split
  · split
    · exact .next fun h => h.frame.lateResponse
    · exact .next fun h => h
  · exact .next fun h => h

theorem CoresOk.openPartSeg {s : State} {f : MFrame} (h : CoresOk s) : CoresOk (openPartSeg s f).1 := by
  unfold Machine.openPartSeg
  extract_lets +onlyGivenNames ps rest _ wait gone
  have hwait : CoresOk wait := h.frame
  have hgone : CoresOk gone := h.frame
  split
  · split
    · exact hgone
    · exact hwait
  · extract_lets +onlyGivenNames n
    split
    · exact hgone
    · split
      · exact hwait
      · split
        next s1 st id rsp e =>
          have h1 : CoresOk s1 := hgone.openSession.ofFst e
          split
          · exact h1
          · exact h1

theorem Runs.execOpenPart {f : MFrame} {s : State} : Runs s (execOpenPart f s) :=
  .next fun h => h.receive fun _ _ hs => hs.openPartSeg

theorem Runs.execOpenPartTimeout {peer : Nat} {s : State} : Runs s (execOpenPartTimeout peer s) := by
  unfold Machine.execOpenPartTimeout
  dsimp only
  split
  · split
    · exact .next fun h => h.frame
    · exact .next fun h => h
  · exact .next fun h => h

theorem Runs.execClose {f : MFrame} {s : State} : Runs s (execClose f s) := by
  unfold Machine.execClose
  refine .next fun h => h.receive fun s _ hs => ?_
  split
  · exact hs.endSession
  · exact hs

theorem CoresOk.fwPartSeg {s : State} {f : MFrame} (h : CoresOk s) : CoresOk (fwPartSeg s f).1 := by
  unfold Machine.fwPartSeg
  dsimp only
  split
  · exact h
  · exact h.frame

theorem Runs.execFwPart {f : MFrame} {s : State} : Runs s (execFwPart f s) := .next fun h => h.receive fun _ _ hs => hs.fwPartSeg

theorem CoresOk.fwCommitSeg {s : State} {f : MFrame} (h : CoresOk s) : CoresOk (fwCommitSeg s f).1 := by
  unfold Machine.fwCommitSeg
  dsimp only
  split
  · exact h.frame
  · exact h.frame.writeBank

theorem Runs.execFwCommit {f : MFrame} {s : State} : Runs s (execFwCommit f s) :=
  .next fun h => h.receive fun _ _ hs => hs.fwCommitSeg

theorem Runs.execFwTransferTimeout {peer : Nat} {s : State} : Runs s (execFwTransferTimeout peer s) := by
  unfold Machine.execFwTransferTimeout
  dsimp only
  split
  · split
    · exact .next fun h => h.frame
    · exact .next fun h => h
  · exact .next fun h => h

theorem CoresOk.sendFrames {s : State} {n : Nat} (h : CoresOk s) : CoresOk (sendFrames s n) := h.frame.foldl fun _ _ hs => hs.emit
theorem CoresOk.plcaCollision {s : State} (h : CoresOk s) : CoresOk (plcaCollision s) := h.frame.countSeg

theorem CoresOk.csmaCollision {s : State} (h : CoresOk s) : CoresOk (csmaCollision s) := by
  unfold Machine.csmaCollision
  dsimp only
  split
  · exact h
  · split
    · exact h.countSeg.frame.countSeg
    · exact h.countSeg.frame

theorem Runs.execTransmitOpportunity {collided : Bool} {s : State} : Runs s (execTransmitOpportunity collided s) := by
  unfold Machine.execTransmitOpportunity
  dsimp only
  split
  · exact .next fun h => h
  · split
    · split
      · split
        · exact .next fun h => h.emit.plcaCollision
        · exact .next fun h => h.emit.sendFrames
      · split
        · exact .next fun h => h.plcaCollision
        · exact .next fun h => h.sendFrames
    · split
      · exact .next fun h => h.csmaCollision
      · exact .next fun h => h.sendFrames

theorem Runs.execTxAbandon {s : State} : Runs s (execTxAbandon s) := .next fun h => h.frame.foldl fun _ _ hs => hs.countSeg

theorem Runs.execPlcaFallback {beacon : Bool} {s : State} : Runs s (execPlcaFallback beacon s) := by
  unfold Machine.execPlcaFallback
  dsimp only
  split
  · exact .next fun h => h
  · split
    · exact .next fun h => h.frame
    · split
      · exact .next fun h => h.frame.countSeg
      · exact .next fun h => h

theorem Runs.execPlcaCollisionQuiet {s : State} : Runs s (execPlcaCollisionQuiet s) := by
  unfold Machine.execPlcaCollisionQuiet
  dsimp only
  split
  · split
    · exact .next fun h => h.frame
    · exact .next fun h => h
  · exact .next fun h => h

/-! ## Wakes -/

theorem CoresOk.resumeCommit {s : State} {x : HeldCommit} (h : CoresOk s) : CoresOk (resumeCommit s x) := by
  unfold Machine.resumeCommit
  split
  next s1 c e =>
    have h1 : CoresOk s1 := h.regionCommitOp.commitCounted.ofFst e
    split
    · exact h1.holdCommit
    · split
      · exact h1
      · exact h1.onCmd fun o => h1.finish
      · dsimp only
        exact .lateAnswer h1.answerFor

theorem CoresOk.resumeCommits {s : State} (h : CoresOk s) : CoresOk (resumeCommits s) := by
  unfold Machine.resumeCommits
  dsimp only
  refine .foldl h.frame fun s _ hs => ?_
  split
  · exact hs.holdCommit
  · exact hs.resumeCommit

theorem CoresOk.wakeOver {s : State} (h : CoresOk s) : CoresOk (wakeOver s) := h.wakesGoOn.resumeCommits

theorem Runs.execWakeRequest {look : WakeLook} {reason : Nat} {s : State} : Runs s (execWakeRequest look reason s) := by
  unfold Machine.execWakeRequest
  extract_lets +onlyGivenNames _ _ _
  split
  · exact .next fun h => h
  · extract_lets +onlyGivenNames s1
    have h1 (h : CoresOk s) : CoresOk s1 := by
      unfold s1
      split
      · exact h.wakeForUpkeep
      · exact h
    exact .next fun h => (h1 h).readMonitors.wakeRegion

theorem Runs.execRegionWake {g : Nat} {s : State} : Runs s (execRegionWake g s) := by
  unfold Machine.execRegionWake
  split
  · split
    · exact .next fun h => h.wakeDone.wakeOver
    · exact .next fun h => h
  · exact .next fun h => h

theorem Runs.execWakePgTimeout {g : Nat} {s : State} : Runs s (execWakePgTimeout g s) := by
  unfold Machine.execWakePgTimeout
  split
  · split
    · exact .next fun h => h.wakeFails.wakeOver
    · exact .next fun h => h
  · exact .next fun h => h

theorem Runs.execRegionLost {g cause status : Nat} {s : State} : Runs s (execRegionLost g cause status s) := by
  unfold Machine.execRegionLost
  split
  · exact .next fun h => h.loseRegion.wakeOver
  · exact .next fun h => h

theorem Runs.execRetryPgTimeout {g : Nat} {s : State} : Runs s (execRetryPgTimeout g s) := by
  unfold Machine.execRetryPgTimeout
  dsimp only
  split
  · split
    · exact .next fun h => h.retryFailed.wakeOver
    · exact .next fun h => h
  · exact .next fun h => h

theorem Runs.execHoldEnd {s : State} : Runs s (execHoldEnd s) := by
  unfold Machine.execHoldEnd
  split
  · split
    · exact .next fun h => h
    · extract_lets d woken _ _ s1 s2 s3
      have h1 (h : CoresOk s) : CoresOk s1 := by
        refine h.mapCores fun c k hk => ?_
        split
        · exact hk.thaw
        · exact hk
      have h2 (h : CoresOk s) : CoresOk s2 := by
        refine (h1 h).foldl fun s c hs => ?_
        split
        · exact hs.startClock
        · exact hs
      have h3 (h : CoresOk s) : CoresOk s3 := (h2 h).foldl fun s n hs => hs.advance
      exact .next fun h => (h3 h).postEvent
  · exact .next fun h => h

end Sys2Proof.Proofs
end

section
/-!
SUPPORT. Every command, the tick of the idle machine, and with them every step keep the cores in order.
-/
namespace Sys2Proof.Proofs
open Sys2Proof.Machine Sys2Proof.Safety

theorem CoresOk.sendSillage {s : State} (h : CoresOk s) : CoresOk (sendSillage s) := by
  unfold Machine.sendSillage
  dsimp only
  split
  · split
    · exact .emit h.frame
    · exact h
  · exact h

theorem CoresOk.idleTick {s : State} (h : CoresOk s) : CoresOk (idleTick s) := .frame h.sendSillage

/-- The one dispatch: each command by the lemma about its meaning. -/
theorem Runs.exec {s : State} (i : Instr) : Runs s (exec i s) := by
  cases i with
  | add => exact .execAdd
  | sub => exact .execSub
  | and => exact .execAnd
  | or => exact .execOr
  | xor => exact .execXor
  | shl => exact .execShl
  | shr => exact .execShr
  | sra => exact .execSra
  | mul => exact .execMul
  | slt => exact .execSlt
  | sltu => exact .execSltu
  | addi => exact .execAddi
  | andi => exact .execAndi
  | ori => exact .execOri
  | xori => exact .execXori
  | shli => exact .execShli
  | shri => exact .execShri
  | srai => exact .execSrai
  | lui => exact .execLui
  | ld => exact .execLd
  | st => exact .execSt
  | ld64 => exact .execLd64
  | st64 => exact .execSt64
  | beq => exact .execBeq
  | bne => exact .execBne
  | blt => exact .execBlt
  | bge => exact .execBge
  | bltu => exact .execBltu
  | bgeu => exact .execBgeu
  | jmp => exact .execJmp
  | jal => exact .execJal
  | jr => exact .execJr
  | loop => exact .execLoop
  | dld => exact .execDld
  | dst => exact .execDst
  | daddr => exact .execDaddr
  | daddc => exact .execDaddc
  | csrr => exact .execCsrr
  | csrw => exact .execCsrw
  | cimAsel => exact .execCimAsel
  | slotNop => exact .execSlotNop
  | tmCopy => exact .execTmCopy
  | tmFill => exact .execTmFill
  | shaDigest => exact .execShaDigest
  | veArith => exact .execVeArith
  | veNorm => exact .execVeNorm
  | veAct => exact .execVeAct
  | veFunc => exact .execVeFunc
  | veCvt => exact .execVeCvt
  | accClr => exact .execAccClr
  | accOut => exact .execAccOut
  | accAdd => exact .execAccAdd
  | aeQk => exact .execAeQk
  | aeSm => exact .execAeSm
  | aePv => exact .execAePv
  | spSample => exact .execSpSample
  | cimEval => exact .execCimEval
  | cimEvalt => exact .execCimEvalt
  | qPush => exact .execQPush
  | qPop => exact .execQPop
  | rmread => exact .execRmread
  | nred => exact .execNred
  | syncWait => exact .execSyncWait
  | syncSignal => exact .execSyncSignal
  | qwait => exact .execQwait
  | fence => exact .execFence
  | step => exact .execStep
  | tag => exact .execTag
  | operationStart => exact .execOperationStart
  | waitSatisfied => exact .execWaitSatisfied
  | signalRelease => exact .execSignalRelease
  | clockStop => exact .execClockStop
  | budgetOverrun => exact .execBudgetOverrun
  | waitLimit => exact .execWaitLimit
  | activityOverrun => exact .execActivityOverrun
  | readReq => exact .execReadReq
  | mergeReq => exact .execMergeReq
  | mergeWindowClose => exact .execMergeWindowClose
  | readReply => exact .execReadReply
  | mergeReply => exact .execMergeReply
  | remoteWrite => exact .execRemoteWrite
  | writeAck => exact .execWriteAck
  | reduce => exact .execReduce
  | signal => exact .execSignal
  | stepToken => exact .execStepToken
  | packetHop => exact .execPacketHop
  | ifaceOut => exact .execIfaceOut
  | ifaceIn => exact .execIfaceIn
  | fault => exact .execFault
  | imageFlush => exact .execImageFlush
  | flushDrained => exact .execFlushDrained
  | faultActionStop => exact .execFaultActionStop
  | faultActionRestart => exact .execFaultActionRestart
  | coreDead => exact .execCoreDead
  | sequencerWatchdog => exact .execSequencerWatchdog
  | heartbeatMissing => exact .execHeartbeatMissing
  | relocation => exact .execRelocation
  | createSq => exact .execCreateSq
  | deleteSq => exact .execDeleteSq
  | createRing => exact .execCreateRing
  | deleteRing => exact .execDeleteRing
  | setEvents => exact .execSetEvents
  | odRead => exact .execOdRead
  | odWrite => exact .execOdWrite
  | submit => exact .execSubmit
  | cancel => exact .execCancel
  | load => exact .execLoad
  | unload => exact .execUnload
  | swap => exact .execSwap
  | relocate => exact .execRelocate
  | window => exact .execWindow
  | tune => exact .execTune
  | attest => exact .execAttest
  | calibrate => exact .execCalibrate
  | vigilArm => exact .execVigilArm
  | vigilDisarm => exact .execVigilDisarm
  | counterDump => exact .execCounterDump
  | fwWrite => exact .execFwWrite
  | fwActivate => exact .execFwActivate
  | sessionOpen => exact .execSessionOpen
  | sessionClose => exact .execSessionClose
  | keyload => exact .execKeyload
  | restartWarm => exact .execRestartWarm
  | restartCold => exact .execRestartCold
  | nop => exact .execNop
  | flit => exact .execFlit
  | linkTrained => exact .execLinkTrained
  | moduleDown => exact .execModuleDown
  | retrainTimeout => exact .execRetrainTimeout
  | mrdCpl => exact .execMrdCpl
  | mrdErr => exact .execMrdErr
  | ewr => exact .execEwr
  | erd => exact .execErd
  | sqDoorbell => exact .execSqDoorbell
  | ringDoorbell => exact .execRingDoorbell
  | adminCommit => exact .execAdminCommit
  | adminRelease => exact .execAdminRelease
  | pipelineSlot => exact .execPipelineSlot
  | frameReturn => exact .execFrameReturn
  | spResult => exact .execSpResult
  | blockClose => exact .execBlockClose
  | int4Compaction => exact .execInt4Compaction
  | park => exact .execPark
  | deadlinePassed => exact .execDeadlinePassed
  | shardArrival => exact .execShardArrival
  | shardReadback => exact .execShardReadback
  | swapBarrierClosed => exact .execSwapBarrierClosed
  | drainDeadline => exact .execDrainDeadline
  | swapActivate => exact .execSwapActivate
  | swapGroupTimeout => exact .execSwapGroupTimeout
  | rebind => exact .execRebind
  | ageTick => exact .execAgeTick
  | sentinelForce => exact .execSentinelForce
  | intercalarySlot => exact .execIntercalarySlot
  | upkeepSliceEnd => exact .execUpkeepSliceEnd
  | dozeEntry => exact .execDozeEntry
  | darkEntry => exact .execDarkEntry
  | wakeRequest => exact .execWakeRequest
  | neighbourRecheck => exact .execNeighbourRecheck
  | wakeWaitLimit => exact .execWakeWaitLimit
  | regionWake => exact .execRegionWake
  | wakePgTimeout => exact .execWakePgTimeout
  | regionLost => exact .execRegionLost
  | retry w _ _ => exact .execRetry (w := w)
  | retryPgTimeout => exact .execRetryPgTimeout
  | arrayRailLost => exact .execArrayRailLost
  | auxRailLost => exact .execAuxRailLost
  | auxHoldLimit => exact .execAuxHoldLimit
  | auxRailReturn => exact .execAuxRailReturn
  | optRailLost => exact .execOptRailLost
  | optRailReturn => exact .execOptRailReturn
  | telemetry => exact .execTelemetry
  | powerUpdate => exact .execPowerUpdate
  | gateUpdate => exact .execGateUpdate
  | thermalCapUpdate => exact .execThermalCapUpdate
  | diodeSample => exact .execDiodeSample
  | pairFault => exact .execPairFault
  | trayRead => exact .execTrayRead
  | trayStale => exact .execTrayStale
  | trayLost => exact .execTrayLost
  | holdEnd => exact .execHoldEnd
  | holdLimit => exact .execHoldLimit
  | hardwareTrip => exact .execHardwareTrip
  | coldStartRequest w _ => exact .execColdStartRequest (w := w)
  | coldStart => exact .execColdStart
  | warmStart => exact .execWarmStart
  | recoveryStart => exact .execRecoveryStart
  | startComplete => exact .execStartComplete
  | startFailed => exact .execStartFailed
  | managementWatchdog => exact .execManagementWatchdog
  | lowerTreeBuilt => exact .execLowerTreeBuilt
  | blockSave => exact .execBlockSave
  | shadowWrite => exact .execShadowWrite
  | shadowDiscard => exact .execShadowDiscard
  | shadowTimeout => exact .execShadowTimeout
  | regionCommit => exact .execRegionCommit
  | regionRelease w _ => exact .execRegionRelease (w := w)
  | segmentCommit => exact .execSegmentCommit
  | scopeCommit => exact .execScopeCommit
  | watchArm => exact .execWatchArm
  | watchDisarm w _ => exact .execWatchDisarm (w := w)
  | clearWarnings w _ => exact .execClearWarnings (w := w)
  | flush w _ => exact .execFlush (w := w)
  | restoreDefaults w _ => exact .execRestoreDefaults (w := w)
  | clearFallback w _ => exact .execClearFallback (w := w)
  | flushPrefix w _ => exact .execFlushPrefix (w := w)
  | clearPairFault w _ _ => exact .execClearPairFault (w := w)
  | clearFlags w _ => exact .execClearFlags (w := w)
  | clearOverflow => exact .execClearOverflow
  | sillageMark w _ => exact .execSillageMark (w := w)
  | restore w _ _ => exact .execRestore (w := w)
  | custodyEnable => exact .execCustodyEnable
  | read => exact .execRead
  | write => exact .execWrite
  | ident => exact .execIdent
  | identHoldoff => exact .execIdentHoldoff
  | openPart => exact .execOpenPart
  | openPartTimeout => exact .execOpenPartTimeout
  | close => exact .execClose
  | fwPart => exact .execFwPart
  | fwCommit => exact .execFwCommit
  | fwTransferTimeout => exact .execFwTransferTimeout
  | txAbandon => exact .execTxAbandon
  | plcaFallback => exact .execPlcaFallback
  | sessionIdle => exact .execSessionIdle
  | data => exact .execData
  | wack => exact .execWack
  | result => exact .execResult
  | ack => exact .execAck
  | hello => exact .execHello
  | helloPeriod => exact .execHelloPeriod
  | almanacExchange => exact .execAlmanacExchange
  | almanacRequest => exact .execAlmanacRequest
  | almanacReply => exact .execAlmanacReply
  | bound => exact .execBound
  | activate => exact .execActivate
  | swapVerified => exact .execSwapVerified
  | swapRewrite => exact .execSwapRewrite
  | swapRewritten => exact .execSwapRewritten
  | swapSwitch => exact .execSwapSwitch
  | swapSwitched => exact .execSwapSwitched
  | swapRollback => exact .execSwapRollback
  | controlFault => exact .execControlFault
  | flushStop => exact .execFlushStop
  | flushRestart => exact .execFlushRestart
  | flushed => exact .execFlushed
  | rejected => exact .execRejected
  | replayTimeout => exact .execReplayTimeout
  | peerUnreachable => exact .execPeerUnreachable
  | portDown => exact .execPortDown
  | portRetrain => exact .execPortRetrain
  | snapshot => exact .execSnapshot
  | watchDump => exact .execWatchDump
  | handleProgressTimeout => exact .execHandleProgressTimeout
  | vigilDump => exact .execVigilDump
  | periodicMark => exact .execPeriodicMark
  | operationTakesEffect => exact .execOperationTakesEffect
  | undefinedOpcode => exact .execUndefinedOpcode
  | stepLeavesImage => exact .execStepLeavesImage
  | arrayProgrammed => exact .execArrayProgrammed
  | aonRailLost => exact .execAonRailLost
  | managementMemoryError => exact .execManagementMemoryError
  | gateWindow => exact .execGateWindow
  | ackDelay => exact .execAckDelay
  | transmitOpportunity => exact .execTransmitOpportunity
  | plcaCollisionQuiet => exact .execPlcaCollisionQuiet
  | irqIntervalExpiry => exact .execIrqIntervalExpiry
  | linkL1Entry => exact .execLinkL1Entry
  | attestSigned => exact .execAttestSigned

/-- A step is the command at the front of the queue, or a tick when none waits. -/
theorem Runs.step (s : State) : Runs s (step s) := by
  unfold Machine.step
  split
  · exact .next fun h => h.idleTick
  next c l _ =>
    obtain ⟨t, ht, hok⟩ := Runs.exec (s := { s with pending := l }) c
    exact ⟨t, ht, fun h => hok h.frame⟩

/-- Settles O59: both invariants by one fact about each core (`coresOk_iff`), kept by every command (`Runs.exec`) and by the tick of the
idle machine (`Runs.step`). -/
theorem stepsKeepMemory : Obligations.StepsKeepMemory := by
  unfold Obligations.StepsKeepMemory
  have runs {s : State} {o : Host.Outcome State Fault Refusal} (h : Runs s o) :
      ∃ t, o = .next t ∧ (memOk s → zeroOk s → memOk t ∧ zeroOk t) := by
    obtain ⟨t, ht, hok⟩ := h
    exact ⟨t, ht, fun hm hz => coresOk_iff.1 (hok (coresOk_iff.2 ⟨hm, hz⟩))⟩
  exact ⟨fun i s => runs (.exec i), fun s => runs (.step s)⟩

end Sys2Proof.Proofs
end

section
/-!
SUPPORT. What a slot with one scalar access leaves of its core, whether the access is performed or held (R137, R169, R171).
-/
namespace Sys2Proof.Machine
open Sys2Proof.Safety

/-! ## What an access writes -/

/-- The scalar registers that an access loads. -/
def MemOp.loadsReg : MemOp → BitVec 5 → Prop
  | .ld r _, i => i = r
  | .ld64 r _, i => i = r ∨ i = r + 1
  | _, _ => False

/-- The descriptor register that an access loads. -/
def MemOp.loadsDesc : MemOp → BitVec 4 → Prop
  | .dld d _, e => e = d
  | _, _ => False

/-- The bytes that an access stores, from an address to before another. -/
def MemOp.stored : MemOp → Nat × Nat
  | .st a _ => (a.toNat, a.toNat + 4)
  | .st64 a _ => (a.toNat, a.toNat + 8)
  | .dst a _ => (a.toNat, a.toNat + 16)
  | _ => (0, 0)

/-- A core that differs from another in no more than an access writes, in the bundle in issue, and in what the sequencer knows of its
bundles and of the loads before. -/
structure MemOp.Leaves (m : MemOp) (k k' : Core) : Prop where
  step : sameStep k.seq k'.seq
  queues : sameQueues k.seq k'.seq
  asr : k'.seq.asr = k.seq.asr
  active : k'.active = k.active
  reg : ∀ i, ¬ m.loadsReg i → k'.seq.reg i = k.seq.reg i
  desc : ∀ e, ¬ m.loadsDesc e → k'.seq.desc e = k.seq.desc e
  mem : ∀ a, a < m.stored.1 ∨ m.stored.2 ≤ a → Memory.get k'.mem a = Memory.get k.mem a

theorem sameStep_refl (q : Seq) : sameStep q q := ⟨rfl, rfl, rfl, rfl, rfl, rfl, rfl, rfl, rfl, rfl, rfl⟩
theorem sameQueues_refl (q : Seq) : sameQueues q q := ⟨rfl, rfl, rfl⟩

theorem MemOp.Leaves.trans {m : MemOp} {k k' k'' : Core} (h : m.Leaves k k') (h' : m.Leaves k' k'') : m.Leaves k k'' := by
  obtain ⟨hs, hq, hasr, hact, hreg, hdesc, hmem⟩ := h
  obtain ⟨hs', hq', hasr', hact', hreg', hdesc', hmem'⟩ := h'
  refine ⟨?_, ?_, hasr'.trans hasr, hact'.trans hact, fun i hi => (hreg' i hi).trans (hreg i hi),
    fun e he => (hdesc' e he).trans (hdesc e he), fun a ha => (hmem' a ha).trans (hmem a ha)⟩
  · simp_all [sameStep]
  · simp_all [sameQueues]

/-- A change of the sequencer and the bundle that writes no register and no byte. -/
theorem MemOp.Leaves.of_same {m : MemOp} {k k' : Core} (hstep : sameStep k.seq k'.seq) (hqueues : sameQueues k.seq k'.seq)
    (hasr : k'.seq.asr = k.seq.asr) (hactive : k'.active = k.active) (hregs : k'.seq.regs = k.seq.regs)
    (hdescs : k'.seq.descs = k.seq.descs) (hmem : k'.mem = k.mem) : m.Leaves k k' :=
  ⟨hstep, hqueues, hasr, hactive, fun i _ => by simp only [Seq.reg, hregs], fun e _ => by simp only [Seq.desc, hdescs],
    fun a _ => by rw [hmem]⟩

theorem MemOp.leaves_enter (m : MemOp) (k : Core) (slot now : Nat) : m.Leaves k (k.enter slot now) :=
  .of_same (by simp [sameStep]) (by simp [sameQueues]) (by simp) (by simp) (by simp) (by simp) (by simp)

theorem MemOp.leaves_endSlot (m : MemOp) (k : Core) (last : Bool) (now : Nat) : m.Leaves k (k.endSlot last now) :=
  .of_same (by simp [sameStep]) (by simp [sameQueues]) (by simp) (by simp) (by simp) (by simp) (by simp)

theorem MemOp.leaves_ldWait (m : MemOp) (k : Core) (now : Nat) (rs : List (BitVec 5)) : m.Leaves k (k.ldWait now rs) := by
  rcases k.ldWait_cases now rs with h | ⟨n, l, l', h⟩
  · rw [h]
    exact .of_same (sameStep_refl _) (sameQueues_refl _) rfl rfl rfl rfl rfl
  · rw [h]
    exact .of_same (by simp [sameStep]) (by simp [sameQueues]) (by simp) (by simp) (by simp) (by simp) (by simp)

/-- A hold leaves all of it. -/
theorem MemOp.leaves_hold (m : MemOp) (k : Core) (w : Option Held) (last : Bool) (now : Nat) :
    m.Leaves k { k with held := w, heldLast := last, waitFrom := now } :=
  .of_same (sameStep_refl _) (sameQueues_refl _) rfl rfl rfl rfl rfl

/-! ## Each access -/

/-- An access that leaves the sequencer and writes no byte outside those that it stores. -/
theorem MemOp.Leaves.of_seq {m : MemOp} {k k' : Core} (hseq : k'.seq = k.seq) (hactive : k'.active = k.active)
    (hmem : ∀ a, a < m.stored.1 ∨ m.stored.2 ≤ a → Memory.get k'.mem a = Memory.get k.mem a) : m.Leaves k k' :=
  ⟨hseq ▸ sameStep_refl _, hseq ▸ sameQueues_refl _, by rw [hseq], hactive, fun _ _ => by rw [hseq], fun _ _ => by rw [hseq], hmem⟩

theorem MemOp.leaves_storeBytes {m : MemOp} {a n : Nat} (hm : m.stored = (a, a + n)) (k : Core) {b : Bytes} (hb : b.length = n) :
    m.Leaves k (k.storeBytes a b) := by
  refine .of_seq rfl rfl fun x hx => ?_
  rw [hm, ← hb] at hx
  rw [Core.storeBytes_mem, Memory.get_write_out _ _ _ _ hx]

theorem MemOp.leaves_writeWin (m : MemOp) (k : Core) (a : Nat) (v : W64) : m.Leaves k (k.writeWin a v) := by
  unfold Core.writeWin
  dsimp only
  split
  · exact .of_seq rfl rfl fun _ _ => rfl
  · split
    · exact .of_seq rfl rfl fun _ _ => rfl
    · exact .of_seq rfl rfl fun _ _ => rfl

theorem MemOp.leaves_run (m : MemOp) (k : Core) (now : Nat) : m.Leaves k (m.run now k) := by
  cases m with
  | ld r a =>
    exact ⟨by simp [run, sameStep, Seq.loads], by simp [run, sameQueues, Seq.loads], by simp [run, Seq.loads],
      by simp [run, Core.readSoft], fun i hi => by simp [run, Seq.reg_setReg_ne _ _ hi],
      fun _ _ => by simp [run, Seq.desc, Seq.loads], fun _ _ => by simp [run]⟩
  | ld64 r a =>
    exact ⟨by simp [run, sameStep, Seq.loads], by simp [run, sameQueues, Seq.loads], by simp [run, Seq.loads],
      by simp [run, Core.readSoft],
      fun i hi => by
        obtain ⟨hlo, hhi⟩ := not_or.1 hi
        simp only [run, Seq.loads_reg, Core.readSoft_seq, Seq.reg_setReg_ne _ _ hlo, Seq.reg_setReg_ne _ _ hhi],
      fun _ _ => by simp [run, Seq.desc, Seq.loads], fun _ _ => by simp [run]⟩
  | dld d a =>
    exact ⟨by simp [run, sameStep], by simp [run, sameQueues], by simp [run], by simp [run, Core.readSoft],
      fun _ _ => by simp [run, Seq.reg], fun e he => by simp [run, Seq.desc_setDesc_ne _ _ he], fun _ _ => by simp [run]⟩
  | st a v => exact leaves_storeBytes rfl k (by simp)
  | dst a v => exact leaves_storeBytes rfl k (by simp)
  | st64 a v =>
    simp only [MemOp.run]
    split
    · exact leaves_storeBytes rfl k (by simp)
    · exact leaves_writeWin _ k _ _

/-! ## A slot with an access -/

/-- A fault of an issuing core stops it. -/
theorem stepFault_run {s : State} {c : Nat} (f : Fail) (slot : Nat) (atIssue : Bool) (h : (s.core c).run = .issuing) :
    ((stepFault s c f slot atIssue).core c).run = .stopped := by
  rw [stepFault, stepFaultAt_core f _ slot atIssue h]
  simp [Core.reported, Core.halt]

theorem memSlot_cases (now : Nat) (m : MemOp) (k : Core) :
    (∃ e, memSlot now m k = .bad e) ∨ memSlot now m k = .hold k (.mem m) ∨ memSlot now m k = .go (m.run now k) := by
  unfold memSlot
  split
  · exact .inl ⟨_, rfl⟩
  · split
    · exact .inr (.inl rfl)
    · split
      · exact .inl ⟨_, rfl⟩
      · exact .inr (.inr rfl)

end Sys2Proof.Machine
end

section
/-!
SUPPORT. The statement of what loads and stores leave unchanged (R137, R169, R171).
-/
namespace Sys2Proof.Proofs
open Sys2Proof.Machine Sys2Proof.Safety

/-- A load or store whose core goes on issuing is performed or held: it changes that core alone, and there no more than the access writes. -/
theorem access_leaves {s : State} {c opcode : Nat} {last rsv : Bool} {rs : List (BitVec 5)} {f : Core → SlotRes} {m : MemOp}
    (hr : ready s c) (hf : (∃ e, f ((entered s c 0).ldWait s.now rs) = .bad e) ∨
      f ((entered s c 0).ldWait s.now rs) = memSlot s.now m ((entered s c 0).ldWait s.now rs))
    (hrun : ((issue s c 0 opcode last rsv (afterLoad s rs f)).core c).run = .issuing) :
    ∃ k, issue s c 0 opcode last rsv (afterLoad s rs f) = s.setCore c k ∧ m.Leaves (s.core c) k := by
  obtain ⟨hissue, hprogram⟩ := hr
  have hfetch := Core.fetchFail_none (slot := 0) (now := s.now) hprogram
  have hstart : m.Leaves (s.core c) ((entered s c 0).ldWait s.now rs) := (m.leaves_enter _ _ _).trans (m.leaves_ldWait _ _ _)
  have hfails {e : Fail} (h : issue s c 0 opcode last rsv (afterLoad s rs f) =
      stepFault (s.setCore c ((s.core c).enter 0 s.now)) c e 0 true) : False := by
    rw [h, stepFault_run _ _ _ (by simp [Core.canIssue_run hissue])] at hrun
    cases hrun
  cases rsv with
  | true => exact (hfails (issue_reserved hissue hfetch)).elim
  | false =>
    have hcases := memSlot_cases s.now m ((entered s c 0).ldWait s.now rs)
    rcases hf with ⟨e, he⟩ | hf
    · exact (hfails (issue_bad hissue hfetch he)).elim
    · rw [← hf] at hcases
      rcases hcases with ⟨e, he⟩ | hhold | hgo
      · exact (hfails (issue_bad hissue hfetch he)).elim
      · exact ⟨_, issue_hold hissue hfetch hhold, hstart.trans (m.leaves_hold _ _ _ _)⟩
      · exact ⟨_, issue_go hissue hfetch hgo, (hstart.trans (m.leaves_run _ _)).trans (m.leaves_endSlot _ _ _)⟩

/-- An encoding check, or the access. -/
theorem ite_bad_or {b : Prop} [Decidable b] {e : Fail} {r : SlotRes} :
    (∃ e', (if b then SlotRes.bad e else r) = .bad e') ∨ (if b then SlotRes.bad e else r) = r := by
  split
  · exact .inl ⟨_, rfl⟩
  · exact .inr rfl

/-- Settles O11: each access by `access_leaves`. -/
theorem loadStoreFrame : Obligations.LoadStoreFrame := by
  unfold Obligations.LoadStoreFrame
  intro s p r rs1 d imm imm15 hr k kept a b
  have frame {c : Instr} {opcode : Nat} {rs : List (BitVec 5)} {f : Core → SlotRes} (m : MemOp)
      (he : exec c s = .next (issue s p.core 0 opcode p.last p.rsv (afterLoad s rs f)))
      (hf : (∃ e, f (k.ldWait s.now rs) = .bad e) ∨ f (k.ldWait s.now rs) = memSlot s.now m (k.ldWait s.now rs)) :
      kept c m.loadsReg m.loadsDesc m.stored.1 m.stored.2 := by
    intro t ht hrun
    obtain rfl := Host.Outcome.next.inj (he.symm.trans ht)
    obtain ⟨k', hk, hleaves⟩ := access_leaves hr hf hrun
    obtain ⟨hstep, hqueues, hasr, hactive, hreg, hdesc, hmem⟩ := hleaves
    rw [hk, State.core_setCore_same]
    exact ⟨⟨k', rfl⟩, hstep, hqueues, hasr, hactive, hreg, hdesc, hmem⟩
  refine ⟨frame (.ld r (scalarAddr k rs1 imm)) rfl (.inr ?_), frame (.ld64 r (scalarAddr k rs1 imm)) rfl ?_,
    frame (.dld d (descAddr k rs1 imm15)) rfl (.inr ?_), frame (.st (scalarAddr k rs1 imm) (k.pre.reg r)) rfl (.inr ?_),
    frame (.st64 (scalarAddr k rs1 imm) (k.pre.reg (r + 1) ++ k.pre.reg r)) rfl ?_,
    frame (.dst (descAddr k rs1 imm15) (k.pre.desc d)) rfl (.inr ?_)⟩
  · rw [scalarAddr_ldWait]
  · rw [scalarAddr_ldWait]
    exact ite_bad_or
  · rw [descAddr_ldWait]
  · rw [scalarAddr_ldWait, Core.ldWait_pre_reg]
  · rw [scalarAddr_ldWait, Core.ldWait_pre_reg, Core.ldWait_pre_reg]
    exact ite_bad_or
  · rw [descAddr_ldWait, Core.ldWait_pre_desc]

end Sys2Proof.Proofs
end

section
/-!
SUPPORT. A packet that lands at once (R219, R240), and a packet that a router takes in.
-/
namespace Sys2Proof.Machine
open Sys2Proof.Safety

@[simp] theorem State.unmesh_core (s : State) (i c : Nat) : (s.unmesh i).core c = s.core c := rfl
@[simp] theorem State.unmesh_cores (s : State) (i : Nat) : (s.unmesh i).cores = s.cores := rfl
@[simp] theorem State.unmesh_now (s : State) (i : Nat) : (s.unmesh i).now = s.now := rfl
@[simp] theorem State.core_draw (s : State) (n c : Nat) : (s.draw n).2.core c = s.core c := rfl
@[simp] theorem State.now_draw (s : State) (n : Nat) : (s.draw n).2.now = s.now := rfl

/-- A wait of no time is borne by no step. -/
theorem bearWake_zero (s : State) (who : Nat × W32 × Option Nat) : bearWake s who 0 = s := by
  unfold bearWake bearWait
  split <;> rfl

/-- A packet of its kind that lands at once is handed to what the kind does at its destination. -/
theorem arrive_lands {s : State} {i op : Nat} {x : Flight} (hx : s.mesh[i]? = some x) (hl : landsAtOnce s x) (hop : x.pkt.op = op)
    (f : State → Nat → Packet → State) : arrive s i op f = f (s.unmesh i) x.pkt.dest x.pkt := by
  obtain ⟨hloc, hhole, hwaits, hdoze, hhead, hbad, hpoison⟩ := hl
  rw [hloc] at hhole hwaits
  have hns : x.dozed s.now = 0 := by rw [Flight.dozed, hdoze]
  simp [arrive, hx, hop, hloc, hhole, hwaits, hhead, dozeOver, hdoze, hns, bearWake_zero, receiveAt, hbad, hpoison]

/-- A packet that no reduction waits for joins the flights. -/
theorem placeAt_alone {s : State} {loc : Nat} {p : Packet} (hop : p.op ≠ 7) (col : Bool) :
    placeAt s loc p col = { s with mesh := s.mesh ++ [{ loc := loc, pkt := p, colMove := col, since := s.now }] } := by
  have hnone : (if loc = p.dest then none
      else s.mesh.findIdx? fun f => f.loc = loc && sameKey f.pkt p && outPort s f.pkt loc = outPort s p loc) = none := by
    split
    · rfl
    · simp [sameKey, hop]
  rw [placeAt, hnone]

@[simp] theorem placeAt_alone_cores {s : State} {loc : Nat} {p : Packet} (hop : p.op ≠ 7) (col : Bool) :
    (placeAt s loc p col).cores = s.cores := by
  rw [placeAt_alone hop]

theorem placeAt_alone_core {s : State} {loc : Nat} {p : Packet} (hop : p.op ≠ 7) (col : Bool) (c : Nat) :
    (placeAt s loc p col).core c = s.core c := by
  rw [placeAt_alone hop]; rfl

theorem placeAt_alone_mem {s : State} {loc : Nat} {p : Packet} (hop : p.op ≠ 7) (col : Bool) :
    ⟨loc, p, col, s.now, none⟩ ∈ (placeAt s loc p col).mesh := by
  rw [placeAt_alone hop]; simp

end Sys2Proof.Machine
end

section
/-!
SUPPORT. The home core's work on reads, writes and merged reads (R156 to R158, R574).
-/
namespace Sys2Proof.Proofs
open Sys2Proof.Machine Sys2Proof.Safety

/-! ## Lines of a home core -/

@[simp] theorem readSoftLines_router (k : Core) (ls : List (Int × Nat)) : (k.readSoftLines ls).router = k.router := by
  unfold Core.readSoftLines; split <;> simp
@[simp] theorem readSoftLines_mem (k : Core) (ls : List (Int × Nat)) : (k.readSoftLines ls).mem = k.mem := by
  unfold Core.readSoftLines; split <;> simp
@[simp] theorem readSoftLines_active (k : Core) (ls : List (Int × Nat)) : (k.readSoftLines ls).active = k.active := by
  unfold Core.readSoftLines; split <;> simp

theorem readSoftLines_readLine (k : Core) (ls : List (Int × Nat)) (r c : Nat) : (k.readSoftLines ls).readLine r c = k.readLine r c := by
  unfold Core.readSoftLines
  split
  · rfl
  · simp [Core.readLine, Core.statGet]

/-- With nothing in progress, a read of lines races with nothing (R151). -/
theorem racingLines_of_idle {s : State} {c : Nat} (h : (s.core c).active = []) (ls : List (Int × Nat)) :
    racingLines s c ls = (ls.map fun l => (s.core c).readLine l.1.toNat l.2, (s.draw ls.length).2) := by
  have hmap (f : Int × Nat → Bytes) : ls.zipIdx.map (fun x => f x.1) = ls.map f := by
    conv_rhs => rw [← List.zipIdx_map_fst 0 ls, List.map_map]
    rfl
  simp only [racingLines, h, List.foldl_nil, ite_self]
  rw [hmap fun l => (s.core c).readLine l.1.toNat l.2]

/-! ## Replies -/

/-- A flight at a core that carries a reply of it to the sender of a packet. -/
def repliesTo (p : Packet) (t : State) (op : Nat) (body : BitVec 128) (data : Bytes) : Prop :=
  ∃ r ∈ t.mesh, r.loc = p.dest ∧ r.pkt.op = op ∧ r.pkt.src = p.dest ∧ r.pkt.dest = p.src ∧ r.pkt.body = body ∧ r.pkt.payload = data

theorem repliesTo_placeAt {s : State} {op : Nat} {p q : Packet} (hop : op ≠ 7) (hq : q.op = op) (hsrc : q.src = p.dest)
    (hdest : q.dest = p.src) : repliesTo p (placeAt s p.dest q false) op q.body q.payload :=
  ⟨_, placeAt_alone_mem (hq ▸ hop) false, rfl, hq, hsrc, hdest, rfl, rfl⟩

theorem replyPacket_alone {op : Nat} {p : Packet} {st : Nat} {d : List Bytes} (hop : op ≠ 7) : (replyPacket op p st d).op ≠ 7 := hop

theorem mergeReplyPacket_alone {c : Nat} {p : Packet} {key : Option Nat} {d : Bytes} : (mergeReplyPacket c p key d).op ≠ 7 :=
  show (4 : Nat) ≠ 7 by decide

/-- What stands at the home core once a reply has joined its flights is what stood there before. -/
theorem placeAt_reply {s : State} {p : Packet} {op st : Nat} {d : List Bytes} (hop : op ≠ 7) :
    repliesTo p (placeAt s p.dest (replyPacket op p st d) false) op (BitVec.ofNat 128 st) d.flatten ∧
      (placeAt s p.dest (replyPacket op p st d) false).cores = s.cores :=
  ⟨repliesTo_placeAt hop rfl rfl rfl, placeAt_alone_cores (replyPacket_alone hop) false⟩

/-- So with a reply that follows a change of the home core: every other core stays. -/
theorem placeAt_updCore_reply {s : State} {p : Packet} {op st : Nat} {d : List Bytes} (g : Core → Core) (hop : op ≠ 7) :
    let t := placeAt (s.updCore p.dest g) p.dest (replyPacket op p st d) false
    repliesTo p t op (BitVec.ofNat 128 st) d.flatten ∧ t.core p.dest = g (s.core p.dest) ∧ ∀ e, e ≠ p.dest → t.core e = s.core e := by
  refine ⟨repliesTo_placeAt hop rfl rfl rfl, ?_, fun e he => ?_⟩
  · rw [placeAt_alone_core (replyPacket_alone hop)]
    exact State.core_setCore_same _ _ _
  · rw [placeAt_alone_core (replyPacket_alone hop)]
    exact State.core_setCore_ne _ _ he

section
variable {s : State} {i : Nat} {f : Flight} (hx : s.mesh[i]? = some f) (hl : landsAtOnce s f)
include hx hl

/-- A remote read of a home core with nothing in progress is answered with its lines. -/
theorem answers_readReq (hop : f.pkt.op = 1) (hhome : homeRefuses s f.pkt.dest = false) (hw : homeOk (walkOf f.pkt.body) false = true)
    (hsound : lineFail (s.core f.pkt.dest) (walkOf f.pkt.body).lines = none) (hidle : (s.core f.pkt.dest).active = []) :
    answers (.readReq i) s fun t =>
      repliesTo f.pkt t 3 0 ((s.core f.pkt.dest).readWalk (walkOf f.pkt.body)).flatten ∧
      t.core f.pkt.dest = (s.core f.pkt.dest).readSoftLines (walkOf f.pkt.body).lines ∧ ∀ d, d ≠ f.pkt.dest → t.core d = s.core d := by
  refine ⟨_, rfl, ?_⟩
  have hhome' : homeRefuses (s.unmesh i) f.pkt.dest = false := hhome
  simp only [arrive_lands hx hl hop, hhome', hw, State.unmesh_core, hsound, racingLines_of_idle (s := s.unmesh i) hidle,
    Bool.false_eq_true, Bool.not_true, or_self, if_false]
  exact placeAt_updCore_reply _ (by decide)

/-- A remote read of a home core that refuses requests is answered with Status 1. -/
theorem answers_readReq_refused (hop : f.pkt.op = 1) (hhome : homeRefuses s f.pkt.dest = true) :
    answers (.readReq i) s fun t => repliesTo f.pkt t 3 1 [] ∧ t.cores = s.cores := by
  refine ⟨_, rfl, ?_⟩
  have hhome' : homeRefuses (s.unmesh i) f.pkt.dest = true := hhome
  simp only [arrive_lands hx hl hop, hhome', true_or, if_true]
  exact placeAt_reply (by decide)

/-- A remote write lands its lines and is acknowledged. -/
theorem answers_remoteWrite (hop : f.pkt.op = 5) (hsvc : f.pkt.svc = false) (hhome : homeRefuses s f.pkt.dest = false)
    (hw : homeOk (walkOf f.pkt.body) true = true) :
    answers (.remoteWrite i) s fun t => repliesTo f.pkt t 6 0 [] ∧
      t.core f.pkt.dest = (s.core f.pkt.dest).writeWalk (walkOf f.pkt.body) (chunks 64 f.pkt.payload) ∧
      ∀ d, d ≠ f.pkt.dest → t.core d = s.core d := by
  refine ⟨_, rfl, ?_⟩
  have hhome' : homeRefuses (s.unmesh i) f.pkt.dest = false := hhome
  simp only [arrive_lands hx hl hop, hhome', hw, hsvc, Bool.not_true, Bool.or_self, Bool.false_eq_true, if_false]
  exact placeAt_updCore_reply _ (by decide)

/-- A remote write with a walk that its home core cannot hold is refused with Status 1 and writes nothing. -/
theorem answers_remoteWrite_refused (hop : f.pkt.op = 5) (hsvc : f.pkt.svc = false) (hw : homeOk (walkOf f.pkt.body) true = false) :
    answers (.remoteWrite i) s fun t => repliesTo f.pkt t 6 1 [] ∧ t.cores = s.cores := by
  refine ⟨_, rfl, ?_⟩
  simp only [arrive_lands hx hl hop, hw, hsvc, Bool.not_false, Bool.or_true, Bool.false_eq_true, if_true, if_false]
  exact placeAt_reply (by decide)

/-- A merged read of an idle home core with an empty merge buffer opens the buffer with its line and is answered. -/
theorem answers_mergeReq (hop : f.pkt.op = 2) (hhome : homeRefuses s f.pkt.dest = false) (hw : homeOk (walkOf f.pkt.body) false = true)
    (hidle : (s.core f.pkt.dest).active = []) (hempty : (s.core f.pkt.dest).router.merge = []) {l : Int × Nat}
    (hline : nth (walkOf f.pkt.body).lines 0 (0, 0) = l) (hsound : lineFail (s.core f.pkt.dest) [l] = none) :
    answers (.mergeReq i) s fun t =>
      repliesTo f.pkt t 4 (bodyOf [mergeEntry f.pkt]) ((s.core f.pkt.dest).readLine l.1.toNat l.2) ∧
      (t.core f.pkt.dest).router.merge = [⟨l.1.toNat, l.2, s.now, false, (s.core f.pkt.dest).readLine l.1.toNat l.2, false⟩] ∧
      (t.core f.pkt.dest).mem = (s.core f.pkt.dest).mem := by
  refine ⟨_, rfl, ?_⟩
  have hhome' : homeRefuses (s.unmesh i) f.pkt.dest = false := hhome
  simp only [arrive_lands hx hl hop, hhome', hw, State.unmesh_core, hsound, hline, hempty, List.find?_nil, Bool.false_eq_true,
    Bool.not_true, or_self, if_false]
  generalize hv : closeReplies ((s.unmesh i).updCore f.pkt.dest fun k => k.readSoftLines [l]) f.pkt.dest (32 * l.1.toNat + l.2) = v
  have hcore : v.core f.pkt.dest = (s.core f.pkt.dest).readSoftLines [l] := hv ▸ State.core_setCore_same _ _ _
  have hnow : v.now = s.now := hv ▸ rfl
  rw [racingLines_of_idle (by rw [hcore]; simpa using hidle)]
  simp only [List.map_cons, List.map_nil, List.headD_cons, hcore, readSoftLines_readLine]
  refine ⟨repliesTo_placeAt (by decide) rfl rfl rfl, ?_, ?_⟩ <;> rw [placeAt_alone_core mergeReplyPacket_alone, State.core_setCore_same]
  · simp [hcore, hempty, hnow, keep16]
  · simp [hcore]

end

/-- A line of the merge buffer goes when its window of 64 cycles closes (R158). -/
theorem answers_mergeWindowClose {s : State} {c : Nat} {m : MergeLine} (hm : (s.core c).router.merge = [m])
    (hopen : 64 ≤ cyclesOf (s.now - m.opened)) :
    answers (.mergeWindowClose c m.row m.col) s fun t => (t.core c).router.merge = [] := by
  refine ⟨_, rfl, ?_⟩
  simp [hm, hopen]

/-- Settles O23: each clause is the equation of its packet's arrival (`arrive_lands`) with what the home core then does. -/
theorem homeRequests : Obligations.HomeRequests := by
  intro s i f hx hl
  refine ⟨answers_readReq hx hl, answers_readReq_refused hx hl, answers_remoteWrite hx hl, answers_remoteWrite_refused hx hl,
    fun hop hhome hw hidle hempty hsound => answers_mergeReq hx hl hop hhome hw hidle hempty rfl hsound,
    fun m => answers_mergeWindowClose⟩

end Sys2Proof.Proofs
end

section
/-!
SUPPORT. What a core with nothing queued makes of the end of a request (R156, R189).
-/
namespace Sys2Proof.Machine

/-- The sequencer of the core issues, and nothing waits: no instruction is held back, and no request stands in an output queue. -/
structure Core.Calm (k : Core) : Prop where
  run : k.run = .issuing
  held : k.held = none
  oqs : k.oqs = []

theorem Core.calm_iff {k : Core} : k.Calm ↔ k.run = .issuing ∧ k.held = none ∧ k.oqs = [] :=
  ⟨fun ⟨hrun, hheld, hoqs⟩ => ⟨hrun, hheld, hoqs⟩, fun ⟨hrun, hheld, hoqs⟩ => ⟨hrun, hheld, hoqs⟩⟩

/-! ## Writes of a line -/

@[simp] theorem Core.accSet_mem (k : Core) (t e : Nat) (v : W64) : (k.accSet t e v).mem = k.mem := by
  simp only [Core.accSet]
@[simp] theorem Core.accSet_iqs (k : Core) (t e : Nat) (v : W64) : (k.accSet t e v).iqs = k.iqs := by
  simp only [Core.accSet]

theorem Core.Calm.accSet {k : Core} (h : k.Calm) (t e : Nat) (v : W64) : (k.accSet t e v).Calm := by
  obtain ⟨hrun, hheld, hoqs⟩ := h
  constructor <;> simp only [Core.accSet] <;> assumption

theorem writeAcc_mem {n key : Nat} {b : Bytes} {k : Core} : (writeAcc n key b k).mem = k.mem := by
  induction n generalizing key b k with
  | zero => rfl
  | succ n ih => rw [writeAcc, ih, Core.accSet_mem]

theorem writeAcc_iqs {n key : Nat} {b : Bytes} {k : Core} : (writeAcc n key b k).iqs = k.iqs := by
  induction n generalizing key b k with
  | zero => rfl
  | succ n ih => rw [writeAcc, ih, Core.accSet_iqs]

theorem Core.Calm.writeAcc {n key : Nat} {b : Bytes} {k : Core} (h : k.Calm) : (writeAcc n key b k).Calm := by
  induction n generalizing key b k with
  | zero => exact h
  | succ n ih => exact ih (h.accSet _ _ _)

@[simp] theorem Core.statPut_mem (k : Core) (t : Nat) (v : W64) : (k.statPut t v).mem = k.mem := rfl
@[simp] theorem Core.statPut_iqs (k : Core) (t : Nat) (v : W64) : (k.statPut t v).iqs = k.iqs := rfl
theorem Core.Calm.statPut {k : Core} (h : k.Calm) (t : Nat) (v : W64) : (k.statPut t v).Calm := ⟨h.run, h.held, h.oqs⟩

@[simp] theorem Core.statWrite_mem (k : Core) (t : Nat) (v : W64) : (k.statWrite t v).mem = k.mem := Core.statPut_mem _ _ _
@[simp] theorem Core.statWrite_iqs (k : Core) (t : Nat) (v : W64) : (k.statWrite t v).iqs = k.iqs := Core.statPut_iqs _ _ _

theorem writeStat_mem {n i : Nat} {b : Bytes} {k : Core} : (writeStat n i b k).mem = k.mem := by
  induction n generalizing i b k with
  | zero => rfl
  | succ n ih => rw [writeStat, ih, apply_ite Core.mem, Core.statWrite_mem, ite_self]

theorem writeStat_iqs {n i : Nat} {b : Bytes} {k : Core} : (writeStat n i b k).iqs = k.iqs := by
  induction n generalizing i b k with
  | zero => rfl
  | succ n ih => rw [writeStat, ih, apply_ite Core.iqs, Core.statWrite_iqs, ite_self]

theorem Core.Calm.writeStat {n i : Nat} {b : Bytes} {k : Core} (h : k.Calm) : (writeStat n i b k).Calm := by
  induction n generalizing i b k with
  | zero => exact h
  | succ n ih =>
    rw [Machine.writeStat]
    refine ih ?_
    split
    · exact h.statPut _ _
    · exact h

/-- A line written to a calm core leaves it calm, its input queues as they were, and its scratchpad with the line at a scratchpad address
and as it was at any other. -/
theorem Core.Calm.writeLine {r c : Nat} {b : Bytes} {k : Core} (h : k.Calm) :
    (k.writeLine r c b).Calm ∧ (k.writeLine r c b).mem = (if r < 1280 then k.mem.write (2048 * r + 64 * c) (slice b 0 64) else k.mem) ∧
      (k.writeLine r c b).iqs = k.iqs := by
  unfold Core.writeLine
  split
  · exact ⟨⟨h.run, h.held, h.oqs⟩, rfl, rfl⟩
  · split
    · exact ⟨h.writeAcc, writeAcc_mem, writeAcc_iqs⟩
    · split
      · exact ⟨h.writeStat, writeStat_mem, writeStat_iqs⟩
      · exact ⟨h, rfl, rfl⟩

/-! ## Ends of requests -/

@[simp] theorem Core.await?_setIq (k : Core) (q r p : Nat) (l : List IqEntry) : (k.setIq q l).await? r p = k.await? r p := rfl

/-- A request that has been dropped is outstanding no more. -/
theorem Core.await?_dropAwait (k : Core) (q p : Nat) : (k.dropAwait q p).await? q p = none := by
  simp only [Core.await?, Core.dropAwait, List.find?_eq_none, List.mem_filter]
  rintro x ⟨-, hx⟩
  simpa [imp_iff_not_or] using hx

/-- A core with empty output queues sends nothing. -/
theorem sendHead_of_empty {s : State} {c : Nat} (h : (s.core c).oqs = []) (q : Nat) : sendHead s c q = none := by
  simp [sendHead, Core.oq, h, Tbl.get]

theorem pump_of_empty {s : State} {c : Nat} (h : (s.core c).oqs = []) : pump s c = s :=
  List.foldl_fixed' (fun q => by simp [pumpQueue, sendHead_of_empty h]) _

/-- Nothing goes on at a calm core when a request of it ends. -/
theorem settle_of_calm {s : State} {c : Nat} (h : (s.core c).Calm) : settle s c = s := by
  simp [settle, pump_of_empty h.oqs, resume, h.run, h.held]

/-- A write, or a read that lands in a walk, ends with Status 0 at a core with empty input queues: its request is dropped. -/
theorem complete_ok {s : State} {c : Nat} {a : Await} (hiq : (s.core c).iqs = []) (hsig : a.sig = none)
    (hkind : a.write = true ∨ a.toWalk = true) :
    complete s c a 0 = s.setCore c (((s.core c).dropAwait a.q a.req).setIq a.q []) := by
  have hready (k : Core) : readyFault (s.setCore c (k.setIq a.q [])) c a.q = s.setCore c (k.setIq a.q []) := by
    simp [readyFault, Core.iq, Core.setIq]
  have hdrop : ((s.core c).dropAwait a.q a.req).iq a.q = [] := by simp [Core.iq, Core.dropAwait, hiq, Tbl.get]
  have hnot : (!a.write && !a.toWalk) = false := by rcases hkind with h | h <;> simp [h]
  simp only [complete, hnot, hdrop, hsig, failIq, Bool.false_and, Bool.false_eq_true, if_false, hready]

/-- A request of the core has ended: it is outstanding no more, and the core stands calm with the scratchpad m. -/
structure Core.Ended (k : Core) (a : Await) (m : Memory) : Prop where
  calm : k.Calm
  dropped : k.await? a.q a.req = none
  mem : k.mem = m

/-- So a write, or a read that lands in a walk, ends with Status 0. -/
theorem complete_ended {s : State} {c : Nat} {a : Await} (h : (s.core c).Calm) (hiq : (s.core c).iqs = []) (hsig : a.sig = none)
    (hkind : a.write = true ∨ a.toWalk = true) : ((complete s c a 0).core c).Ended a (s.core c).mem := by
  rw [complete_ok hiq hsig hkind, State.core_setCore_same]
  exact ⟨⟨h.run, h.held, h.oqs⟩, Core.await?_dropAwait _ _ _, rfl⟩

/-- The one line of a read that lands in a walk ends it. -/
theorem landLines_ended {s : State} {c : Nat} {a : Await} {b : Bytes} (h : (s.core c).Calm) (hiq : (s.core c).iqs = [])
    (hsig : a.sig = none) (hwalk : a.toWalk = true) (hlines : a.lines = 1) (hleft : a.left = 1) :
    let l := nth (walkOf a.walk).lines 0 (0, 0)
    ((landLines s c a [b]).core c).Ended a ((s.core c).writeLine l.1.toNat l.2 b).mem := by
  intro l
  obtain ⟨hcalm, -, hiqs⟩ := h.writeLine (r := l.1.toNat) (c := l.2) (b := b)
  have hend := complete_ended (s := s.setCore c (((s.core c).writeLine l.1.toNat l.2 b).putAwait { a with left := 0 })) (c := c)
    (a := { a with left := 0 }) (by rw [State.core_setCore_same]; exact ⟨hcalm.run, hcalm.held, hcalm.oqs⟩)
    (by rw [State.core_setCore_same]; exact hiqs.trans hiq) hsig (.inr hwalk)
  rw [State.core_setCore_same] at hend
  have hland : landLines s c a [b] =
      complete (s.setCore c (((s.core c).writeLine l.1.toNat l.2 b).putAwait { a with left := 0 })) c { a with left := 0 } 0 := by
    simp [landLines, hwalk, hlines, hleft, l]
  rw [hland]
  exact ⟨hend.calm, hend.dropped, hend.mem⟩

/-- A request that has ended asks for no further line (R237). -/
theorem nextMerge_ended {s : State} {c : Nat} {a : Await} (h : (s.core c).await? a.q a.req = none) : nextMerge s c a = s := by
  simp [nextMerge, h]

end Sys2Proof.Machine
end

section
/-!
SUPPORT. Replies and acknowledgements at the requester (R156, R189, R237).
-/
namespace Sys2Proof.Proofs
open Sys2Proof.Machine Sys2Proof.Safety

theorem chunks_one_line {b : Bytes} (h : b.length = 64) : chunks 64 b = [b] := by
  have hne : b.isEmpty = false := by cases b <;> simp_all
  simp [chunks, h, chunksGo, hne, List.take_of_length_le, List.drop_of_length_le]

/-- Neither the counts of a reply's copies nor the mark of its line touch what the core's requests read (R237). -/
theorem countCopies_markReplied {s : State} {c : Nat} {p : Packet} {go : List Branch} (h : (s.core c).Calm) :
    let k := (countCopies (markReplied s c p) c go).core c
    k.Calm ∧ k.mem = (s.core c).mem ∧ k.iqs = (s.core c).iqs ∧ k.awaits = (s.core c).awaits := by
  obtain ⟨hrun, hheld, hoqs⟩ := h
  simp [countCopies, markReplied, Core.calm_iff, hrun, hheld, hoqs]

/-- A core that wakes from nothing has routers that wait for nothing. -/
theorem routersWait_of_awake {g : PRegion} (h : coreWaits g = false) : routersWait g = false := by
  unfold coreWaits at h
  unfold routersWait
  split <;> simp_all

section
variable {s : State} {i : Nat} {f : Flight} (hx : s.mesh[i]? = some f) (hl : landsAtOnce s f)
include hx hl

theorem exec_readReply {a : Await} (ha : (s.core f.pkt.dest).await? (tagQueue f.pkt.tag) (tagPos f.pkt.tag) = some a) (hop : f.pkt.op = 3) :
    exec (.readReply i) s = .next (if f.pkt.body = 0
      then settle (landLines (s.unmesh i) f.pkt.dest a (chunks 64 f.pkt.payload)) f.pkt.dest
      else settle (complete (s.unmesh i) f.pkt.dest a f.pkt.body.toNat) f.pkt.dest) := by
  show Host.Outcome.next (arrive s i 3 _) = _
  simp only [arrive_lands hx hl hop, State.unmesh_core, ha]

theorem exec_writeAck {a : Await} (ha : (s.core f.pkt.dest).await? (tagQueue f.pkt.tag) (tagPos f.pkt.tag) = some a) (hop : f.pkt.op = 6) :
    exec (.writeAck i) s = .next (settle (complete (s.unmesh i) f.pkt.dest a f.pkt.body.toNat) f.pkt.dest) := by
  show Host.Outcome.next (arrive s i 6 _) = _
  simp only [arrive_lands hx hl hop, State.unmesh_core, ha]

/-- A merged reply all of whose entries are its core's leaves no copy and is delivered to each of them (R237). -/
theorem exec_mergeReply (hop : f.pkt.op = 4) (hne : bodyEntries f.pkt.body ≠ [])
    (hhere : ∀ e ∈ bodyEntries f.pkt.body, unpackByteCore (e / 65536) = f.pkt.dest) :
    exec (.mergeReply i) s = .next ((bodyEntries f.pkt.body).foldl (fun v e => mergeDeliver v f.pkt.dest e f.pkt.payload)
      (countCopies (markReplied (s.unmesh i) f.pkt.dest f.pkt) f.pkt.dest [])) := by
  obtain ⟨hloc, hhole, hwaits, hdoze, hhead, hbad, hpoison⟩ := hl
  have hrouters := routersWait_of_awake hwaits
  rw [hloc] at hhole hwaits hrouters
  have hstay : (bodyEntries f.pkt.body).filter (fun e => decide (unpackByteCore (e / 65536) = f.pkt.dest)) = bodyEntries f.pkt.body :=
    List.filter_eq_self.2 fun e he => decide_eq_true (hhere e he)
  have haway : (bodyEntries f.pkt.body).filter (fun e => decide (unpackByteCore (e / 65536) ≠ f.pkt.dest)) = [] :=
    List.filter_eq_nil_iff.2 fun e he => by simp [hhere e he]
  have hwaits' : coreWaits ((s.unmesh i).preg (powerOf f.pkt.dest)) = false := hwaits
  have hsome : (bodyEntries f.pkt.body).isEmpty = false := by simpa using hne
  show execMergeReply i s = _
  simp only [execMergeReply, hx, hop, hloc, hhole, hrouters, hstay, haway, hwaits', hsome, hhead, receiveAt, hbad, hpoison, splitEntries,
    List.filter_nil, List.isEmpty_nil, List.foldl_nil]
  simp

section
variable {a : Await} (hcalm : (s.core f.pkt.dest).Calm) (hiq : (s.core f.pkt.dest).iqs = []) (hsig : a.sig = none)
include hcalm hiq hsig

/-- The last reply of a read that lands in a walk lands its line and ends the request. -/
theorem answers_readReply_last (hop : f.pkt.op = 3) (hok : f.pkt.body = 0)
    (ha : (s.core f.pkt.dest).await? (tagQueue f.pkt.tag) (tagPos f.pkt.tag) = some a) (hwalk : a.toWalk = true) (hlines : a.lines = 1)
    (hleft : a.left = 1) (hlen : f.pkt.payload.length = 64) :
    let l := nth (walkOf a.walk).lines 0 (0, 0)
    answers (.readReply i) s fun t =>
      (t.core f.pkt.dest).Ended a ((s.core f.pkt.dest).writeLine l.1.toNat l.2 f.pkt.payload).mem := by
  intro l
  have hend := landLines_ended (s := s.unmesh i) (b := f.pkt.payload) hcalm hiq hsig hwalk hlines hleft
  refine ⟨_, exec_readReply hx hl ha hop, ?_⟩
  rw [if_pos hok, chunks_one_line hlen, settle_of_calm hend.calm]
  exact hend

/-- An acknowledgement with Status 0 ends its write. -/
theorem answers_writeAck_ok (hop : f.pkt.op = 6) (hok : f.pkt.body = 0)
    (ha : (s.core f.pkt.dest).await? (tagQueue f.pkt.tag) (tagPos f.pkt.tag) = some a) (hwrite : a.write = true) :
    answers (.writeAck i) s fun t => (t.core f.pkt.dest).Ended a (s.core f.pkt.dest).mem := by
  have hend := complete_ended (s := s.unmesh i) hcalm hiq hsig (.inl hwrite)
  refine ⟨_, exec_writeAck hx hl ha hop, ?_⟩
  rw [hok, show (0 : BitVec 128).toNat = 0 from rfl, settle_of_calm hend.calm]
  exact hend

/-- A merged reply that delivers the last line of its read ends the request. -/
theorem answers_mergeReply_last (hop : f.pkt.op = 4) {e : Nat} (hentries : bodyEntries f.pkt.body = [e])
    (hhere : unpackByteCore (e / 65536) = f.pkt.dest) (ha : (s.core f.pkt.dest).await? (bits e 15 13) (bits e 12 8) = some a)
    (hmerge : a.merge = true) (hwalk : a.toWalk = true) (hlines : a.lines = 1) (hleft : a.left = 1) :
    let l := nth (walkOf a.walk).lines 0 (0, 0)
    answers (.mergeReply i) s fun t =>
      (t.core f.pkt.dest).Ended a ((s.core f.pkt.dest).writeLine l.1.toNat l.2 f.pkt.payload).mem := by
  intro l
  refine ⟨_, exec_mergeReply hx hl hop (by simp [hentries]) (by simpa [hentries] using hhere), ?_⟩
  obtain ⟨hcalm', hmem, hiqs, hawaits⟩ := countCopies_markReplied (s := s.unmesh i) (p := f.pkt) hcalm
  rw [hentries, List.foldl_cons, List.foldl_nil]
  generalize countCopies (markReplied (s.unmesh i) f.pkt.dest f.pkt) f.pkt.dest [] = v at hcalm' hmem hiqs hawaits
  have hend := landLines_ended (b := f.pkt.payload) hcalm' (hiqs.trans hiq) hsig hwalk hlines hleft
  have hav : (v.core f.pkt.dest).await? (bits e 15 13) (bits e 12 8) = some a := by rw [Core.await?, hawaits]; exact ha
  have hlanded : ((v.core f.pkt.dest).writeLine l.1.toNat l.2 f.pkt.payload).mem =
      ((s.core f.pkt.dest).writeLine l.1.toNat l.2 f.pkt.payload).mem := by
    rw [hcalm'.writeLine.2.1, hcalm.writeLine.2.1, hmem]
    rfl
  simp only [mergeDeliver, hav, hmerge, if_true, nextMerge_ended hend.dropped, settle_of_calm hend.calm]
  exact hlanded ▸ hend

end
end

/-- Settles O24: each clause is the equation of its packet's arrival with what the core then does, and a request that ends at a calm core
ends there for good (`settle_of_calm`). -/
theorem repliesComplete : Obligations.RepliesComplete := by
  intro s i f a hx hl
  refine ⟨fun ha => ⟨exec_readReply hx hl ha, exec_writeAck hx hl ha⟩, exec_mergeReply hx hl, fun hrun hheld hoqs hiq hsig => ?_⟩
  have hcalm : (s.core f.pkt.dest).Calm := ⟨hrun, hheld, hoqs⟩
  refine ⟨fun hop hok ha hwalk hlines hleft hlen => ?_, fun hop hok ha hwrite => ?_,
    fun hop e hentries hhere ha hmerge hwalk hlines hleft => ?_⟩
  · obtain ⟨t, ht, hend⟩ := answers_readReply_last hx hl hcalm hiq hsig hop hok ha hwalk hlines hleft hlen
    exact ⟨t, ht, ⟨hend.dropped, hend.calm.run⟩, hend.mem⟩
  · obtain ⟨t, ht, hend⟩ := answers_writeAck_ok hx hl hcalm hiq hsig hop hok ha hwrite
    exact ⟨t, ht, ⟨hend.dropped, hend.calm.run⟩, hend.mem⟩
  · obtain ⟨t, ht, hend⟩ := answers_mergeReply_last hx hl hcalm hiq hsig hop hentries hhere ha hmerge hwalk hlines hleft
    exact ⟨t, ht, ⟨hend.dropped, hend.calm.run⟩, hend.mem⟩

end Sys2Proof.Proofs
end

section
/-!
SUPPORT. A slot that a core can issue: how a command answers whose slot goes on, is held or fails a check, and what a core that goes on
issuing has done (R169, R205, R206).
-/
namespace Sys2Proof.Proofs
open Sys2Proof.Machine Sys2Proof.Safety

theorem answers_mono {c : Instr} {s : State} {P Q : State → Prop} (h : answers c s P) (hPQ : ∀ t, P t → Q t) : answers c s Q := by
  obtain ⟨t, ht, hP⟩ := h
  exact ⟨t, ht, hPQ t hP⟩

/-- What a check that fails at issue leaves of a core with nothing in progress: it has stopped with the registers from before the bundle
and nothing queued, and reports the fault at the slot. -/
structure StoppedAtIssue (k : Core) (e : Fail) (slot : Nat) (k' : Core) : Prop where
  run : k'.run = .stopped
  regs : k'.seq.regs = k.pre.regs
  queued : k'.seq.queued = []
  report : ∃ r, k'.report = some r ∧ r.cause = e.cause ∧ r.aux0 = e.aux0 ∧ r.slot = slot

theorem stepFault_stopped_at_issue {s : State} {c : Nat} (e : Fail) (slot : Nat) (h : (s.core c).run = .issuing)
    (ha : (s.core c).active = []) : StoppedAtIssue (s.core c) e slot ((stepFault s c e slot true).core c) := by
  obtain ⟨hrun, hregs, r, hreport, hcause, haux, hslot, -⟩ := stepFault_at_issue e slot h ha
  refine ⟨hrun, hregs, ?_, r, hreport, hcause, haux, hslot⟩
  rw [stepFault, stepFaultAt_core e _ slot true h]
  simp [Core.reported, Core.halt]

/-- A fault leaves no core issuing. -/
theorem stepFault_not_issuing {s : State} {c : Nat} (e : Fail) (slot : Nat) (atIssue : Bool) :
    ((stepFault s c e slot atIssue).core c).run ≠ .issuing := by
  by_cases h : (s.core c).run = .issuing
  · rw [stepFault_run e slot atIssue h]
    exact Run.noConfusion
  · simp [stepFault, stepFaultAt, h]

section
variable {c : Instr} {s : State} {core slot opcode : Nat} {last rsv : Bool} {f : Core → SlotRes} {P : State → Prop}
  (hr : ready s core) (he : exec c s = .next (issue s core slot opcode last rsv f))
include hr

include he in
theorem answers_go {k : Core} (hv : rsv = false) (hf : f (entered s core slot) = .go k)
    (hP : P (s.setCore core (k.endSlot last s.now))) : answers c s P := by
  obtain ⟨hissue, hprogram⟩ := hr
  subst hv
  exact ⟨_, he, by rw [issue_go hissue (Core.fetchFail_none hprogram) hf]; exact hP⟩

include he in
theorem answers_hold {k : Core} {w : Held} (hv : rsv = false) (hf : f (entered s core slot) = .hold k w)
    (hP : P (s.setCore core { k with held := some w, heldLast := last, waitFrom := s.now })) : answers c s P := by
  obtain ⟨hissue, hprogram⟩ := hr
  subst hv
  exact ⟨_, he, by rw [issue_hold hissue (Core.fetchFail_none hprogram) hf]; exact hP⟩

theorem stepFault_entered (ha : (s.core core).active = []) (e : Fail) : StoppedAtIssue (entered s core slot) e slot
    ((stepFault (s.setCore core ((s.core core).enter slot s.now)) core e slot true).core core) := by
  have h := stepFault_stopped_at_issue (s := s.setCore core ((s.core core).enter slot s.now)) (c := core) e slot
    (by simp [Core.canIssue_run hr.1]) (by simp [ha])
  rwa [State.core_setCore_same] at h

include he in
theorem answers_bad (hv : rsv = false) (ha : (s.core core).active = []) {e : Fail} (hf : f (entered s core slot) = .bad e) :
    answers c s fun t => StoppedAtIssue (entered s core slot) e slot (t.core core) := by
  subst hv
  exact ⟨_, he, by rw [issue_bad hr.1 (Core.fetchFail_none hr.2) hf]; exact stepFault_entered hr ha e⟩

include he in
theorem answers_reserved (hv : rsv = true) (ha : (s.core core).active = []) :
    answers c s fun t => StoppedAtIssue (entered s core slot) ⟨1, opcode, 0⟩ slot (t.core core) := by
  subst hv
  exact ⟨_, he, by rw [issue_reserved hr.1 (Core.fetchFail_none hr.2)]; exact stepFault_entered hr ha _⟩

/-- A slot whose core goes on issuing has gone on or is held. -/
theorem issue_issuing (hrun : ((issue s core slot opcode last rsv f).core core).run = .issuing) :
    (∃ k, f (entered s core slot) = .go k ∧ issue s core slot opcode last rsv f = s.setCore core (k.endSlot last s.now)) ∨
    ∃ k w, f (entered s core slot) = .hold k w ∧
      issue s core slot opcode last rsv f = s.setCore core { k with held := some w, heldLast := last, waitFrom := s.now } := by
  obtain ⟨hissue, hprogram⟩ := hr
  have hfetch := Core.fetchFail_none (slot := slot) (now := s.now) hprogram
  cases rsv with
  | true =>
    rw [issue_reserved hissue hfetch] at hrun
    exact absurd hrun (stepFault_not_issuing _ _ _)
  | false =>
    cases hf : f (entered s core slot) with
    | go k => exact .inl ⟨k, rfl, issue_go hissue hfetch hf⟩
    | hold k w => exact .inr ⟨k, w, rfl, issue_hold hissue hfetch hf⟩
    | bad e =>
      rw [issue_bad hissue hfetch hf] at hrun
      exact absurd hrun (stepFault_not_issuing _ _ _)
    | late k e =>
      have hlate : issue s core slot opcode last false f = stepFault (s.setCore core k) core e slot false := by
        have hf' : f ((s.core core).enter slot s.now) = .late k e := hf
        simp [issue, hissue, hfetch, hf']
      rw [hlate] at hrun
      exact absurd hrun (stepFault_not_issuing _ _ _)

end

end Sys2Proof.Proofs
end

section
/-!
SUPPORT. What the parts of a slot leave of its core: entering and ending a slot, waiting for a load, branching, holding issue, and writing
a register (R169, R173).
-/
namespace Sys2Proof.Machine
open Sys2Proof.Safety

theorem sameData_refl (k : Core) : sameData k k := ⟨rfl, rfl, rfl, rfl, rfl, rfl, rfl, rfl, rfl, rfl, rfl, rfl, rfl, rfl, rfl, rfl, rfl⟩

theorem sameData_trans {k k' k'' : Core} (h : sameData k k') (h' : sameData k' k'') : sameData k k'' := by
  simp_all [sameData]

theorem sameStep_trans {q q' q'' : Seq} (h : sameStep q q') (h' : sameStep q' q'') : sameStep q q'' := by
  simp_all [sameStep]

theorem sameQueues_trans {q q' q'' : Seq} (h : sameQueues q q') (h' : sameQueues q' q'') : sameQueues q q'' := by
  simp_all [sameQueues]

/-- A core that differs from another in no more than the bundle in issue and those to come, the hold of its issue, and what its sequencer
has fetched and knows of loads. -/
structure Core.Steady (k k' : Core) : Prop where
  data : sameData k k'
  step : sameStep k.seq k'.seq
  queues : sameQueues k.seq k'.seq
  regs : k'.seq.regs = k.seq.regs
  descs : k'.seq.descs = k.seq.descs
  asr : k'.seq.asr = k.seq.asr

theorem Core.Steady.trans {k k' k'' : Core} (h : k.Steady k') (h' : k'.Steady k'') : k.Steady k'' :=
  ⟨sameData_trans h.data h'.data, sameStep_trans h.step h'.step, sameQueues_trans h.queues h'.queues, h'.regs.trans h.regs,
    h'.descs.trans h.descs, h'.asr.trans h.asr⟩

theorem Core.steady_refl (k : Core) : k.Steady k := ⟨sameData_refl k, sameStep_refl _, sameQueues_refl _, rfl, rfl, rfl⟩

theorem Core.steady_enter (k : Core) (slot now : Nat) : k.Steady (k.enter slot now) := by
  constructor <;> simp [sameData, sameStep, sameQueues]

theorem Core.steady_endSlot (k : Core) (last : Bool) (now : Nat) : k.Steady (k.endSlot last now) := by
  constructor <;> simp [sameData, sameStep, sameQueues]

theorem Core.steady_hold (k : Core) (w : Option Held) (last : Bool) (now : Nat) :
    k.Steady { k with held := w, heldLast := last, waitFrom := now } :=
  ⟨sameData_refl k, sameStep_refl _, sameQueues_refl _, rfl, rfl, rfl⟩

/-- A change of the bundles to come, of the loops and of the loads known. -/
theorem Core.steady_flow (k : Core) (b : Option Bundle) (n : BitVec 12) (ls : List LoopCtr) (l : List (BitVec 5)) :
    k.Steady { k with bundle := b, seq := { k.seq with next := n, loops := ls, loaded := l } } :=
  ⟨sameData_refl k, sameStep_refl _, sameQueues_refl _, rfl, rfl, rfl⟩

theorem Core.steady_branchTo (k : Core) (t : BitVec 12) : k.Steady (k.branchTo t) := k.steady_flow _ t k.seq.loops k.seq.loaded

theorem Core.steady_count (k : Core) (b i n : Nat) : k.Steady (k.count b i n) := by
  constructor <;> simp [sameData, sameStep, sameQueues]

theorem Core.steady_ldWait (k : Core) (now : Nat) (rs : List (BitVec 5)) : k.Steady (k.ldWait now rs) := by
  rcases k.ldWait_cases now rs with h | ⟨n, l, l', h⟩
  · rw [h]
    exact k.steady_refl
  · rw [h]
    exact (k.steady_flow _ k.seq.next k.seq.loops l').trans (Core.steady_count _ _ _ _)

/-- A core that differs from another in no more than that, and in the scalar and descriptor registers and the mask named. -/
structure Core.Writes (R : BitVec 5 → Prop) (D : BitVec 4 → Prop) (mask : Prop) (k k' : Core) : Prop where
  data : sameData k k'
  step : sameStep k.seq k'.seq
  queues : sameQueues k.seq k'.seq
  reg : ∀ r, ¬ R r → k'.seq.reg r = k.seq.reg r
  desc : ∀ d, ¬ D d → k'.seq.desc d = k.seq.desc d
  asr : ¬ mask → k'.seq.asr = k.seq.asr

section
variable {R : BitVec 5 → Prop} {D : BitVec 4 → Prop} {mask : Prop} {k k' k'' : Core}

theorem Core.Steady.writes (h : k.Steady k') : k.Writes R D mask k' :=
  ⟨h.data, h.step, h.queues, fun r _ => Seq.reg_congr h.regs r, fun d _ => Seq.desc_congr h.descs d, fun _ => h.asr⟩

theorem Core.Writes.trans (h : k.Writes R D mask k') (h' : k'.Writes R D mask k'') : k.Writes R D mask k'' :=
  ⟨sameData_trans h.data h'.data, sameStep_trans h.step h'.step, sameQueues_trans h.queues h'.queues,
    fun r hr => (h'.reg r hr).trans (h.reg r hr), fun d hd => (h'.desc d hd).trans (h.desc d hd), fun hm => (h'.asr hm).trans (h.asr hm)⟩

theorem Core.writes_setReg (k : Core) {rd : BitVec 5} (v : W32) (hrd : R rd) : k.Writes R D mask { k with seq := k.seq.setReg rd v } :=
  ⟨sameData_refl k, by simp [sameStep], by simp [sameQueues],
    fun r hr => Seq.reg_setReg_ne _ _ fun e => hr (e ▸ hrd), fun d _ => Seq.desc_congr (by simp) d, fun _ => by simp⟩

theorem Core.writes_setDesc (k : Core) {d : BitVec 4} (v : Desc) (hd : D d) : k.Writes R D mask { k with seq := k.seq.setDesc d v } :=
  ⟨sameData_refl k, by simp [sameStep], by simp [sameQueues], fun r _ => Seq.reg_congr (by simp) r,
    fun e he => Seq.desc_setDesc_ne _ _ fun h => he (h ▸ hd), fun _ => by simp⟩

theorem Core.writes_asr (k : Core) (v : BitVec 8) (hm : mask) : k.Writes R D mask { k with seq := { k.seq with asr := v } } :=
  ⟨sameData_refl k, sameStep_refl _, sameQueues_refl _, fun _ _ => rfl, fun _ _ => rfl, fun h => absurd hm h⟩

end

end Sys2Proof.Machine
end

section
/-!
SUPPORT. The statements of the register instructions: what they write, and what they leave (R162, R169, R171).
-/
namespace Sys2Proof.Proofs
open Sys2Proof.Machine Sys2Proof.Safety

/-! ## What R171 says of each result, in words of 32 bits -/

theorem ofInt_sub_toInt (x y : W32) : BitVec.ofInt 32 (x.toInt - y.toInt) = x - y := by
  rw [Int.sub_eq_add_neg, BitVec.ofInt_add, BitVec.ofInt_neg, BitVec.ofInt_toInt, BitVec.ofInt_toInt, BitVec.sub_eq_add_neg]

theorem ofNat_shl (x : W32) (n : Nat) : BitVec.ofNat 32 (x.toNat * 2 ^ n) = x <<< n :=
  BitVec.eq_of_toNat_eq (by simp [Nat.shiftLeft_eq])

theorem ofNat_shr (x : W32) (n : Nat) : BitVec.ofNat 32 (x.toNat / 2 ^ n) = x >>> n := by
  refine BitVec.eq_of_toNat_eq ?_
  rw [BitVec.toNat_ofNat, BitVec.toNat_ushiftRight, Nat.shiftRight_eq_div_pow]
  exact Nat.mod_eq_of_lt ((Nat.div_le_self _ _).trans_lt x.isLt)

theorem ofInt_sra (x : W32) (n : Nat) : BitVec.ofInt 32 (x.toInt / 2 ^ n) = x.sshiftRight n := by
  rw [← BitVec.ofInt_toInt (x := x.sshiftRight n), BitVec.toInt_sshiftRight, Int.shiftRight_eq_div_pow]
  norm_cast

theorem ofInt_add_toInt (x : W32) (imm : BitVec 14) : BitVec.ofInt 32 (x.toInt + imm.toInt) = x + imm.signExtend 32 := by
  rw [BitVec.ofInt_add, BitVec.ofInt_toInt, BitVec.signExtend]

/-- The shift amount of an immediate is its low five bits, with or without its sign. -/
theorem signExtend_toNat_mod (imm : BitVec 14) : (imm.signExtend 32).toNat % 32 = imm.toNat % 32 := by
  rw [BitVec.toNat_signExtend, BitVec.toNat_setWidth]
  split <;> omega

/-! ## A slot that writes one register -/

section
variable {s : State} {p : Place} {rd rs1 rs2 : BitVec 5} {imm : BitVec 14} {c : Instr} {opcode : Nat} (hr : ready s p.core)

section
variable (hv : p.rsv = false)
include hr hv

/-- A slot that writes rd from the registers as they stood before the bundle, once the loads that it reads have arrived. -/
theorem answers_setReg {f : Core → SlotRes} {k : Core} {v : W32} (he : exec c s = .next (issue s p.core 0 opcode p.last p.rsv f))
    (hf : f (entered s p.core 0) = .go { k with seq := k.seq.setReg rd v }) :
    answers c s fun t => (t.core p.core).seq.reg rd = if rd = 0 then 0 else v :=
  answers_go hr he hv hf (by rw [State.core_setCore_same, Core.endSlot_seq_reg, Seq.reg_setReg])

theorem answers_aluR {f : W32 → W32 → W32} (he : exec c s = .next (aluR p opcode rd rs1 rs2 f s)) :
    answers c s fun t => (t.core p.core).seq.reg rd =
      if rd = 0 then 0 else f ((entered s p.core 0).pre.reg rs1) ((entered s p.core 0).pre.reg rs2) :=
  answers_setReg hr hv he (by rw [afterLoad, Core.ldWait_pre_reg, Core.ldWait_pre_reg])

theorem answers_aluI {f : W32 → W32 → W32} (he : exec c s = .next (aluI p opcode rd rs1 imm f s)) :
    answers c s fun t => (t.core p.core).seq.reg rd = if rd = 0 then 0 else f ((entered s p.core 0).pre.reg rs1) (imm.signExtend 32) :=
  answers_setReg hr hv he (by rw [afterLoad, Core.ldWait_pre_reg])

end

end

/-- Settles O2: each instruction writes one register (`answers_aluR`, `answers_aluI`), and its word is the number that R171 names. -/
theorem scalarResults : Obligations.ScalarResults := by
  unfold Obligations.ScalarResults
  intro s p rd rs1 rs2 imm imm19 hr hv x y i gives
  have aluR {c : Instr} {opcode : Nat} {f : W32 → W32 → W32} {v : W32} (he : exec c s = .next (aluR p opcode rd rs1 rs2 f s))
      (hf : f x y = v) : gives c v := hf ▸ answers_aluR hr hv he
  have aluI {c : Instr} {opcode : Nat} {f : W32 → W32 → W32} {v : W32} (he : exec c s = .next (aluI p opcode rd rs1 imm f s))
      (hf : f x i = v) : gives c v := hf ▸ answers_aluI hr hv he
  have hshift : i.toNat % 32 = imm.toNat % 32 := signExtend_toNat_mod imm
  refine ⟨aluR rfl ?add, aluR rfl (ofInt_sub_toInt x y).symm, aluR rfl rfl, aluR rfl rfl, aluR rfl rfl, aluR rfl (ofNat_shl x _).symm,
    aluR rfl (ofNat_shr x _).symm, aluR rfl (ofInt_sra x _).symm, aluR rfl ?mul, aluR rfl ?slt, aluR rfl ?sltu,
    aluI rfl (ofInt_add_toInt x imm).symm, aluI rfl rfl, aluI rfl rfl, aluI rfl rfl, aluI rfl ?shli, aluI rfl ?shri, aluI rfl ?srai, ?lui⟩
  case add => rw [BitVec.ofNat_add, BitVec.ofNat_toNat, BitVec.ofNat_toNat, BitVec.setWidth_eq, BitVec.setWidth_eq]
  case mul => rw [BitVec.ofNat_mul, BitVec.ofNat_toNat, BitVec.ofNat_toNat, BitVec.setWidth_eq, BitVec.setWidth_eq]
  case slt => rw [BitVec.slt_eq_decide]; simp only [decide_eq_true_eq]
  case sltu => rw [BitVec.ult_eq_decide]; simp only [decide_eq_true_eq]
  case shli => rw [hshift, ofNat_shl]
  case shri => rw [hshift, ofNat_shr]
  case srai => rw [hshift, ofInt_sra]
  case lui =>
    have hword : BitVec.ofNat 32 (imm19.toNat * 2 ^ 13) = imm19.zeroExtend 32 <<< 13 :=
      BitVec.eq_of_toNat_eq (by simp [Nat.shiftLeft_eq])
    rw [hword]
    exact answers_setReg hr hv rfl rfl

section
variable {s : State} {p : Place} {c : Instr} {opcode : Nat} {f : Core → SlotRes} {R : BitVec 5 → Prop} {D : BitVec 4 → Prop} {mask : Prop}
  (hr : ready s p.core) (he : exec c s = .next (issue s p.core 0 opcode p.last p.rsv f))
include hr he

/-- A slot that goes on changes its core alone, and there what it writes. -/
theorem go_leaves (hv : p.rsv = false) {k : Core} (hf : f (entered s p.core 0) = .go k) (hk : (entered s p.core 0).Writes R D mask k) :
    ∀ t, exec c s = .next t → ∃ k', t = s.setCore p.core k' ∧ (s.core p.core).Writes R D mask k' := by
  intro t ht
  obtain ⟨t', ht', rfl⟩ := answers_go (P := fun t => t = s.setCore p.core _) hr he hv hf rfl
  obtain rfl := Host.Outcome.next.inj (ht'.symm.trans ht)
  exact ⟨_, rfl, ((Core.steady_enter _ 0 s.now).writes.trans hk).trans (Core.steady_endSlot _ _ _).writes⟩

end

/-- A slot that writes rd, whatever it reads, changes rd alone of the registers. -/
theorem setReg_leaves {s : State} {p : Place} {rd : BitVec 5} {c : Instr} {opcode : Nat} {f : Core → SlotRes} {k : Core} {v : W32}
    (hr : ready s p.core) (hv : p.rsv = false) (he : exec c s = .next (issue s p.core 0 opcode p.last p.rsv f))
    (hf : f (entered s p.core 0) = .go { k with seq := k.seq.setReg rd v }) (hk : (entered s p.core 0).Steady k) :
    ∀ t, exec c s = .next t → ∃ k', t = s.setCore p.core k' ∧ (s.core p.core).Writes (· = rd) (fun _ => False) False k' :=
  go_leaves hr he hv hf (hk.writes.trans (k.writes_setReg v rfl))

/-- Settles O3: each register instruction by `setReg_leaves`. -/
theorem scalarFrame : Obligations.ScalarFrame := by
  unfold Obligations.ScalarFrame
  intro s p rd rs1 rs2 imm imm19 hr hv c hc
  have leaves : ∀ t, exec c s = .next t →
      ∃ k', t = s.setCore p.core k' ∧ (s.core p.core).Writes (· = rd) (fun _ => False) False k' := by
    revert c
    have aluR {c : Instr} {opcode : Nat} {f : W32 → W32 → W32} (he : exec c s = .next (aluR p opcode rd rs1 rs2 f s)) :=
      setReg_leaves hr hv he rfl (Core.steady_ldWait _ s.now [rs1, rs2])
    have aluI {c : Instr} {opcode : Nat} {f : W32 → W32 → W32} (he : exec c s = .next (aluI p opcode rd rs1 imm f s)) :=
      setReg_leaves hr hv he rfl (Core.steady_ldWait _ s.now [rs1])
    have lui := setReg_leaves (c := .lui p rd imm19) hr hv rfl rfl (Core.steady_refl _)
    simp only [List.forall_mem_cons]
    exact ⟨aluR rfl, aluR rfl, aluR rfl, aluR rfl, aluR rfl, aluR rfl, aluR rfl, aluR rfl, aluR rfl, aluR rfl, aluR rfl, aluI rfl, aluI rfl,
      aluI rfl, aluI rfl, aluI rfl, aluI rfl, aluI rfl, lui, List.forall_mem_nil _⟩
  intro t ht
  obtain ⟨k, rfl, hk⟩ := leaves t ht
  rw [State.core_setCore_same]
  exact ⟨⟨k, rfl⟩, hk.data, hk.step, hk.queues, hk.asr not_false, fun r hr => hk.reg r hr, fun d => hk.desc d not_false⟩

end Sys2Proof.Proofs
end

section
/-!
SUPPORT. How a scalar slot's bundle ends: with a branch, in order, or at the end of a loop's body (R167, R173, R174), and the base of a
descriptor that is moved (R176).
-/
namespace Sys2Proof.Machine

/-! ## The bundle in issue -/

@[simp] theorem Core.ldWait_seq_pc (k : Core) (now : Nat) (rs : List (BitVec 5)) : (k.ldWait now rs).seq.pc = k.seq.pc := by
  rcases k.ldWait_cases now rs with h | ⟨n, l, l', h⟩ <;> simp [h]
@[simp] theorem Core.ldWait_seq_next (k : Core) (now : Nat) (rs : List (BitVec 5)) : (k.ldWait now rs).seq.next = k.seq.next := by
  rcases k.ldWait_cases now rs with h | ⟨n, l, l', h⟩ <;> simp [h]
@[simp] theorem Core.ldWait_seq_loops (k : Core) (now : Nat) (rs : List (BitVec 5)) : (k.ldWait now rs).seq.loops = k.seq.loops := by
  rcases k.ldWait_cases now rs with h | ⟨n, l, l', h⟩ <;> simp [h]
@[simp] theorem Core.ldWait_prog (k : Core) (now : Nat) (rs : List (BitVec 5)) : (k.ldWait now rs).prog = k.prog := by
  rcases k.ldWait_cases now rs with h | ⟨n, l, l', h⟩ <;> simp [h]
@[simp] theorem Core.ldWait_seq_maxSets (k : Core) (now : Nat) (rs : List (BitVec 5)) : (k.ldWait now rs).seq.maxSets = k.seq.maxSets := by
  rcases k.ldWait_cases now rs with h | ⟨n, l, l', h⟩ <;> simp [h]

/-- A bundle is open in which no branch has been taken, so that the bundle after it comes next. -/
structure Core.InOrder (k : Core) : Prop where
  untaken : ∃ b, k.bundle = some b ∧ b.taken = false
  next : k.seq.next = k.seq.pc + 1

theorem Core.enter_inOrder {k : Core} {slot : Nat} (h : k.bundle = none ∨ slot = 0) (now : Nat) : (k.enter slot now).InOrder := by
  rcases k.enter_cases slot now with ⟨b, hb, hlt, -⟩ | ⟨-, he⟩ | ⟨b, -, -, he⟩
  · rcases h with hnone | rfl
    · rw [hnone] at hb
      cases hb
    · exact absurd hlt (Nat.not_lt_zero _)
  · rw [he]
    exact ⟨⟨_, rfl, rfl⟩, rfl⟩
  · rw [he]
    exact ⟨⟨_, rfl, rfl⟩, rfl⟩

theorem Core.InOrder.ldWait {k : Core} (h : k.InOrder) (now : Nat) (rs : List (BitVec 5)) : (k.ldWait now rs).InOrder := by
  obtain ⟨⟨b, hb, htaken⟩, hnext⟩ := h
  refine ⟨?_, by simp [hnext]⟩
  rcases k.ldWait_cases now rs with h | ⟨n, l, l', h⟩
  · exact ⟨b, by rw [h, hb], htaken⟩
  · exact ⟨{ b with pre := { b.pre with loaded := l } }, by simp [h, hb], htaken⟩

theorem Core.enter_seq_loops_of_none {k : Core} (h : k.bundle = none) (slot now : Nat) : (k.enter slot now).seq.loops = k.seq.loops := by
  simp [Core.enter, h]

/-- The bundle ends after the one before the next. -/
theorem Core.InOrder.next_sub_one {k : Core} (h : k.InOrder) : (k.seq.next - 1).toNat = k.seq.pc.toNat := by
  rw [h.next, BitVec.add_sub_cancel]

theorem Core.InOrder.close_next {k : Core} (h : k.InOrder) (now : Nat) (hl : ∀ l ∈ k.seq.loops, l.last ≠ k.seq.pc.toNat) :
    (k.endSlot true now).seq.pc = k.seq.pc + 1 := by
  obtain ⟨b, hb, htaken⟩ := h.untaken
  rw [← h.next]
  exact Core.closeBundle_next now hb htaken (by rwa [h.next_sub_one])

theorem Core.InOrder.close_branch {k : Core} (h : k.InOrder) (t : BitVec 12) (now : Nat) :
    ((k.branchTo t).endSlot true now).seq.pc = t := by
  obtain ⟨b, hb, -⟩ := h.untaken
  exact Core.closeBundle_taken (k := k.branchTo t) (b := { b with taken := true }) now (by simp [Core.branchTo, hb]) rfl

theorem Core.InOrder.setReg {k : Core} (h : k.InOrder) (r : BitVec 5) (v : W32) : ({ k with seq := k.seq.setReg r v } : Core).InOrder :=
  ⟨h.untaken, by simp [h.next]⟩

theorem target_eq_ofInt (k : Core) (off : BitVec 14) : target k off = BitVec.ofInt 12 (k.seq.pc.toNat + off.toInt) := by
  have hoff : BitVec.ofInt 12 off.toInt = off.truncate 12 := BitVec.signExtend_eq_setWidth_of_le off (by omega)
  rw [target, BitVec.ofInt_add, BitVec.ofInt_natCast, BitVec.ofNat_toNat, BitVec.setWidth_eq, hoff]

theorem target_ldWait (k : Core) (now : Nat) (rs : List (BitVec 5)) (off : BitVec 14) : target (k.ldWait now rs) off = target k off := by
  rw [target, Core.ldWait_seq_pc, target]

/-! ## Descriptors -/

theorem toNat_append_add {n m : Nat} (x : BitVec n) (y : BitVec m) : (x ++ y).toNat = 2 ^ m * x.toNat + y.toNat := by
  rw [BitVec.toNat_append, Nat.shiftLeft_eq, Nat.mul_comm, Nat.two_pow_add_eq_or_of_lt y.isLt]

/-- A field below a bit depends on the bits below it alone. -/
theorem bits_congr {v w n hi lo : Nat} (h : v % 2 ^ n = w % 2 ^ n) (hn : hi < n) (hlo : lo ≤ hi) : bits v hi lo = bits w hi lo := by
  have hlow (x : Nat) : bits x hi lo = x % 2 ^ n % 2 ^ (hi + 1) / 2 ^ lo := by
    rw [Nat.mod_mod_of_dvd _ (pow_dvd_pow 2 hn), bits, ← Nat.mod_mul_right_div_self, ← pow_add]
    congr 3
    omega
  rw [hlow, hlow, h]

/-- Descriptors that agree below BaseCol are of the same walk from another base. -/
theorem walkOf_of_low {d e : Desc} (h : d.toNat % 2 ^ 112 = e.toNat % 2 ^ 112) :
    walkOf d = { walkOf e with row := bits d.toNat 127 117, col := bits d.toNat 116 112 } := by
  have low {hi lo : Nat} (hn : hi < 112) (hlo : lo ≤ hi) : bits d.toNat hi lo = bits e.toNat hi lo := bits_congr h hn hlo
  simp only [walkOf, low (hi := 111) (lo := 101), low (hi := 100) (lo := 90), low (hi := 89) (lo := 78), low (hi := 77) (lo := 72),
    low (hi := 71) (lo := 60), low (hi := 59) (lo := 54), low (hi := 53) (lo := 51), Nat.reduceLT, Nat.reduceLeDiff]

/-- DADDR moves BaseRow modulo its 11 bits. -/
theorem walkOf_addRow (d : Desc) (v : W32) : walkOf (addRow d v) = { walkOf d with row := ((walkOf d).row + v.toNat) % 2048 } := by
  have hv : (addRow d v).toNat = 2 ^ 117 * ((d.toNat / 2 ^ 117 + v.toNat) % 2048) + d.toNat % 2 ^ 117 := by
    rw [addRow, toNat_append_add]
    simp [Nat.shiftRight_eq_div_pow]
  have hd := d.isLt
  rw [walkOf_of_low (d := addRow d v) (e := d) (by rw [hv]; omega)]
  simp only [walkOf, bits, hv, Walk.mk.injEq, and_true]
  omega

/-- DADDC moves BaseCol modulo 32. -/
theorem walkOf_addCol (d : Desc) (v : W32) : walkOf (addCol d v) = { walkOf d with col := ((walkOf d).col + v.toNat) % 32 } := by
  have hd := d.isLt
  have hv : (addCol d v).toNat =
      2 ^ 112 * (2 ^ 5 * (d.toNat / 2 ^ 117) + (d.toNat / 2 ^ 112 % 32 + v.toNat) % 32) + d.toNat % 2 ^ 112 := by
    rw [addCol, toNat_append_add, toNat_append_add]
    simp [Nat.shiftRight_eq_div_pow]
    omega
  rw [walkOf_of_low (d := addCol d v) (e := d) (by rw [hv]; omega)]
  simp only [walkOf, bits, hv, Walk.mk.injEq, and_true]
  omega

end Sys2Proof.Machine
end

section
/-!
SUPPORT. The statements of branches, loops, control registers and descriptor moves (R163, R168, R171, R173 to R176, R201).
-/
namespace Sys2Proof.Proofs
open Sys2Proof.Machine Sys2Proof.Safety

theorem entered_inOrder (s : State) (c : Nat) : (entered s c 0).InOrder := Core.enter_inOrder (.inr rfl) _

/-! ## Branches (R171, R174) -/

section
variable {s : State} {p : Place} {c : Instr} {opcode : Nat} {rd rs1 rs2 : BitVec 5} {off : BitVec 14} (hr : ready s p.core)
  (hv : p.rsv = false) (hlast : p.last = true)
include hr hv hlast

/-- A slot that takes a branch and closes its bundle. -/
theorem answers_branchTo {f : Core → SlotRes} {k : Core} {t : BitVec 12} (he : exec c s = .next (issue s p.core 0 opcode p.last p.rsv f))
    (hf : f (entered s p.core 0) = .go (k.branchTo t)) (hk : k.InOrder) : answers c s fun u => (u.core p.core).seq.pc = t :=
  answers_go hr he hv hf (by rw [State.core_setCore_same, hlast, hk.close_branch])

/-- A conditional branch is taken or falls through, as its condition has it of the registers before the bundle. -/
theorem answers_branch {f : W32 → W32 → Bool} (he : exec c s = .next (branch p opcode rs1 rs2 off f s)) :
    let k := entered s p.core 0
    answers c s fun t =>
      (f (k.pre.reg rs1) (k.pre.reg rs2) = true → (t.core p.core).seq.pc = target k off) ∧
      (f (k.pre.reg rs1) (k.pre.reg rs2) = false → (∀ l ∈ k.seq.loops, l.last ≠ k.seq.pc.toNat) →
        (t.core p.core).seq.pc = k.seq.pc + 1) := by
  intro k
  have hopen : (k.ldWait s.now [rs1, rs2]).InOrder := (entered_inOrder s p.core).ldWait _ _
  have hcond : f ((k.ldWait s.now [rs1, rs2]).pre.reg rs1) ((k.ldWait s.now [rs1, rs2]).pre.reg rs2) = f (k.pre.reg rs1) (k.pre.reg rs2) := by
    rw [Core.ldWait_pre_reg, Core.ldWait_pre_reg]
  refine answers_go hr he hv rfl ?_
  rw [State.core_setCore_same, hlast]
  refine ⟨fun htaken => ?_, fun hfalls hloops => ?_⟩
  · rw [if_pos (hcond.trans htaken), hopen.close_branch]
    exact target_ldWait _ _ _ _
  · rw [if_neg (by rw [hcond, hfalls]; exact Bool.false_ne_true), hopen.close_next _ (by simpa using hloops), Core.ldWait_seq_pc]

end

/-- Settles O4: a conditional branch by `answers_branch`, a jump by `answers_branchTo`. -/
theorem branches : Obligations.Branches := by
  unfold Obligations.Branches
  intro s p rd rs1 rs2 off hr hv hlast k x y pc dest goes
  have hdest : target k off = dest := target_eq_ofInt k off
  have branch {c : Instr} {opcode : Nat} {f : W32 → W32 → Bool} {taken : Prop} (he : exec c s = .next (branch p opcode rs1 rs2 off f s))
      (hf : f x y = true ↔ taken) : goes c taken dest :=
    answers_mono (answers_branch hr hv hlast he) fun t ⟨htaken, hfalls⟩ =>
      ⟨fun h => hdest ▸ htaken (hf.2 h), fun h => hfalls (Bool.eq_false_iff.2 (mt hf.1 h))⟩
  have jump {c : Instr} {a : BitVec 12} (h : answers c s fun t => (t.core p.core).seq.pc = a) : goes c True a :=
    answers_mono h fun t ht => ⟨fun _ => ht, fun h => absurd trivial h⟩
  have hopen := entered_inOrder s p.core
  refine ⟨branch rfl decide_eq_true_iff, branch rfl decide_eq_true_iff, branch rfl BitVec.slt_iff_toInt_lt, branch rfl ?bge,
    branch rfl BitVec.ult_iff_toNat_lt, branch rfl ?bgeu, jump ?jmp, ?jal, jump ?jr⟩
  case bge => simp [BitVec.slt_eq_decide]
  case bgeu => simp [BitVec.ult_eq_decide]
  case jmp => exact hdest ▸ answers_branchTo hr hv hlast rfl rfl hopen
  case jal =>
    have hlink : BitVec.ofNat 32 ((pc.toNat + 1) % 4096) = (pc + 1).zeroExtend 32 := BitVec.eq_of_toNat_eq (by simp)
    refine answers_go hr rfl hv rfl ?_
    rw [State.core_setCore_same, Core.endSlot_seq_reg, hlast, (hopen.setReg rd _).close_branch, hlink]
    exact ⟨hdest, Seq.reg_setReg _ _ _⟩
  case jr =>
    rw [BitVec.ofNat_toNat]
    exact answers_branchTo hr hv hlast rfl (by rw [afterLoad, Core.ldWait_pre_reg]) (hopen.ldWait _ _)

/-! ## Loops (R173) -/

/-- Settles O6: LOOP by its two counts, the end of a body by `Core.closeBundle_loop`. -/
theorem loops : Obligations.Loops := by
  unfold Obligations.Loops
  constructor
  case left =>
    intro s p rs1 off hr hv k hoff hfits hnest hlast
    have hlegal : ¬ (off.toInt < 1 ∨ (k.ldWait s.now [rs1]).prog.bundles ≤ (k.ldWait s.now [rs1]).seq.pc.toNat + off.toInt.toNat ∨
        2 ≤ (k.ldWait s.now [rs1]).seq.loops.length) := by
      simp only [Core.ldWait_prog, Core.ldWait_seq_pc, Core.ldWait_seq_loops]
      omega
    by_cases hcount : (k.pre.reg rs1).toNat = 0
    · refine answers_go hr rfl hv (by
        rw [afterLoad]; dsimp only; rw [if_neg hlegal, Core.ldWait_pre_reg, if_pos hcount]) ?_
      rw [State.core_setCore_same, hlast]
      exact ⟨fun _ => ⟨Core.ldWait_seq_loops _ _ _, by rw [← Core.ldWait_seq_pc k s.now [rs1]]; rfl⟩, fun h => absurd hcount h⟩
    · refine answers_go hr rfl hv (by
        rw [afterLoad]; dsimp only; rw [if_neg hlegal, Core.ldWait_pre_reg, if_neg hcount]) ?_
      rw [State.core_setCore_same, hlast]
      refine ⟨fun h => absurd h hcount, fun _ => ?_⟩
      rw [← Core.ldWait_seq_pc k s.now [rs1], ← Core.ldWait_seq_loops k s.now [rs1]]
      rfl
  case right =>
    intro s p slot l ls hr hv hlast hnone hloops hpc hleft hfirst
    have hopen : (entered s p.core slot.toNat).InOrder := Core.enter_inOrder (.inl hnone) _
    obtain ⟨b, hb, htaken⟩ := hopen.untaken
    obtain ⟨hback, hcounts⟩ := Core.closeBundle_loop s.now hb htaken ((Core.enter_seq_loops_of_none hnone _ _).trans hloops)
      (by rw [hopen.next_sub_one, entered, Core.enter_seq_pc_of_none hnone, hpc]) hleft
    refine answers_go hr rfl hv rfl ?_
    rw [State.core_setCore_same, hlast]
    exact ⟨by rw [Core.endSlot, if_pos rfl, hback, BitVec.toNat_ofNat, Nat.mod_eq_of_lt hfirst], hcounts⟩

/-! ## Checks at issue (R165, R171, R175, R205, R206) -/

theorem MemOp.fail_ld (r : BitVec 5) {a : W32} (h : a.toNat % 4 ≠ 0 ∨ 2621440 < a.toNat + 4) : (MemOp.ld r a).fail = some ⟨2, a.toNat, 0⟩ :=
  if_neg (by simp only [inBanks, decide_eq_true_eq]; omega)

theorem MemOp.fail_st (v : W32) {a : W32} (h : a.toNat % 4 ≠ 0 ∨ 2621440 < a.toNat + 4 ∨ (0x270000 ≤ a.toNat ∧ a.toNat < 0x280000)) :
    (MemOp.st a v).fail = some ⟨2, a.toNat, 0⟩ := by
  refine if_neg ?_
  simp only [inBanks, inProgram, Bool.not_eq_true', Bool.and_eq_false_iff, decide_eq_true_eq, decide_eq_false_iff_not]
  omega

theorem memSlot_bad {now : Nat} {m : MemOp} {k : Core} {e : Fail} (h : m.fail = some e) : memSlot now m k = .bad e := by
  rw [memSlot, h]

/-- Settles O7: each is a check that fails at issue (`answers_bad`, `answers_reserved`). -/
theorem issueChecks : Obligations.IssueChecks := by
  unfold Obligations.IssueChecks
  intro s p slot opcode hr hidle
  refine ⟨?undefined, fun rd rs1 rs2 imm => ⟨fun hv => ?reserved, fun hv => ?access⟩⟩
  case undefined =>
    have hstops : answers (.undefinedOpcode p slot opcode) s fun t =>
        StoppedAtIssue (entered s p.core slot.toNat) ⟨1, opcode.toNat, 0⟩ slot.toNat (t.core p.core) := by
      cases hv : p.rsv with
      | false => exact answers_bad hr rfl hv hidle rfl
      | true => exact answers_reserved hr rfl hv hidle
    exact answers_mono hstops fun t ⟨hrun, hregs, hqueued, r, hr, hcause, haux, hslot⟩ =>
      ⟨hrun, ⟨r, hr, hcause, haux, hslot⟩, hregs, hqueued⟩
  case reserved =>
    exact answers_mono (answers_reserved hr rfl hv hidle) fun t ⟨hrun, hregs, _, r, hr, hcause, haux, _⟩ =>
      ⟨hrun, ⟨r, hr, hcause, haux⟩, hregs⟩
  case access =>
    intro a stops
    have bad {c : Instr} {opcode : Nat} {f : Core → SlotRes} (he : exec c s = .next (issue s p.core 0 opcode p.last p.rsv f))
        (hf : f (entered s p.core 0) = .bad ⟨2, a, 0⟩) : stops c :=
      answers_mono (answers_bad hr he hv hidle hf) fun t ⟨hrun, _, _, r, hr, hcause, haux, _⟩ => ⟨hrun, r, hr, hcause, haux⟩
    refine ⟨fun ha => bad rfl ?ld, fun ha => bad rfl ?st⟩
    case ld =>
      rw [afterLoad, scalarAddr_ldWait]
      exact memSlot_bad (MemOp.fail_ld rd ha)
    case st =>
      rw [afterLoad, scalarAddr_ldWait]
      exact memSlot_bad (MemOp.fail_st _ ha)

/-! ## Control registers (R163, R201) -/

theorem csrValue_none {s : State} {core : Nat} {k : Core} {csr : Nat} (h : 7 < csr) : csrValue s core k csr = none := by
  obtain ⟨n, rfl⟩ : ∃ n, csr = n + 8 := ⟨csr - 8, by omega⟩
  rfl

theorem selectSets_go {k : Core} {mask : BitVec 8} (h : popcount mask ≤ k.seq.maxSets) :
    selectSets k mask = .go { k with seq := { k.seq with asr := mask } } := if_neg (by omega)

/-- Settles O8: a register that R163 lists is read by `answers_setReg`, a mask within MaxSets goes to ASR (`selectSets_go`), and any
other number fails a check. -/
theorem controlRegisters : Obligations.ControlRegisters := by
  unfold Obligations.ControlRegisters
  intro s p rd rs1 csr mask hr hv k reads
  have read {n : BitVec 14} {v : W32} (h : csrValue s p.core k n.toNat = some v) : reads n v :=
    answers_setReg (c := .csrr p rd n) hr hv rfl (k := k) (by simp only [show entered s p.core 0 = k from rfl, h])
  refine ⟨read rfl, read rfl, read rfl, read rfl, read rfl, read ?asr, read ?kind, read rfl, fun hcsr hidle => ?unlisted,
    fun hcsr hidle => ?readOnly, fun hmask => ?csrw, fun hmask => ?asel⟩
  case asr => exact congrArg some (BitVec.ofNat_toNat _ _).symm
  case kind => exact congrArg some (BitVec.ofNat_toNat _ _).symm
  case unlisted =>
    exact answers_mono (answers_bad hr rfl hv hidle (e := ⟨1, 0x50, 0⟩) (by simp only [csrValue_none hcsr])) fun t h => h.run
  case readOnly =>
    exact answers_mono (answers_bad hr rfl hv hidle (e := ⟨1, 0x51, 0⟩) (if_neg hcsr)) fun t h => h.run
  case csrw =>
    rw [BitVec.ofNat_toNat] at hmask ⊢
    refine answers_go hr rfl hv (by
      rw [afterLoad, if_pos rfl, Core.ldWait_pre_reg]; exact selectSets_go (by rwa [Core.ldWait_seq_maxSets])) ?_
    rw [State.core_setCore_same, Core.endSlot_seq_asr]
  case asel =>
    refine answers_go hr rfl hv (selectSets_go hmask) ?_
    rw [State.core_setCore_same, Core.endSlot_seq_asr]

/-! ## Descriptor moves (R168, R171, R176) -/

/-- Settles O9: a moved descriptor reads as `walkOf_addRow` and `walkOf_addCol` say, and a slot that does not close its bundle ends there. -/
theorem descriptorMoves : Obligations.DescriptorMoves := by
  unfold Obligations.DescriptorMoves
  intro s p d rs1 slot hr hv k w
  refine ⟨?daddr, ?daddc, fun hlast => ?nop⟩
  case daddr =>
    refine answers_go hr rfl hv rfl ?_
    rw [State.core_setCore_same, Core.endSlot_seq_desc, Seq.desc_setDesc_same, Core.ldWait_pre_desc, Core.ldWait_pre_reg]
    exact walkOf_addRow _ _
  case daddc =>
    refine answers_go hr rfl hv rfl ?_
    rw [State.core_setCore_same, Core.endSlot_seq_desc, Seq.desc_setDesc_same, Core.ldWait_pre_desc, Core.ldWait_pre_reg]
    exact walkOf_addCol _ _
  case nop =>
    refine answers_go hr rfl hv rfl ?_
    rw [State.core_setCore_same, hlast]
    rfl

end Sys2Proof.Proofs
end

section
/-!
SUPPORT. The statement of what branches, loops, control registers and descriptor moves leave unchanged (R169, R171, R173, R174).
-/
namespace Sys2Proof.Proofs
open Sys2Proof.Machine Sys2Proof.Safety

/-! ## A slot whose core goes on issuing -/

/-- A property of the core of a slot that goes on or is held. -/
def SlotLeaves (P : Core → Prop) : SlotRes → Prop
  | .go k => P k
  | .hold k _ => P k
  | .bad _ => True
  | .late _ _ => True

theorem SlotLeaves.ite {P : Core → Prop} {b : Prop} [Decidable b] {x y : SlotRes} (hx : b → SlotLeaves P x) (hy : ¬ b → SlotLeaves P y) :
    SlotLeaves P (if b then x else y) := by
  split
  · exact hx ‹_›
  · exact hy ‹_›

/-- A command whose core goes on issuing changes its core alone, and there what its slot does and the end or the hold of a slot. -/
theorem issuing_leaves {s : State} {core slot opcode : Nat} {last rsv : Bool} {f : Core → SlotRes} {P Q : Core → Prop}
    (hr : ready s core) (hf : SlotLeaves P (f (entered s core slot))) (hend : ∀ k, P k → Q (k.endSlot last s.now))
    (hhold : ∀ k w, P k → Q { k with held := some w, heldLast := last, waitFrom := s.now })
    (hrun : ((issue s core slot opcode last rsv f).core core).run = .issuing) :
    ∃ k, issue s core slot opcode last rsv f = s.setCore core k ∧ Q k := by
  rcases issue_issuing hr hrun with ⟨k, hgo, ht⟩ | ⟨k, w, hheld, ht⟩
  · rw [hgo] at hf
    exact ⟨_, ht, hend k hf⟩
  · rw [hheld] at hf
    exact ⟨_, ht, hhold k w hf⟩

section
variable {s : State} {core slot opcode : Nat} {last rsv : Bool} {f : Core → SlotRes} {R : BitVec 5 → Prop} {D : BitVec 4 → Prop}
  {mask : Prop} {c : Instr}

theorem issuing_writes (hr : ready s core) (he : exec c s = .next (issue s core slot opcode last rsv f))
    (hf : SlotLeaves ((entered s core slot).Writes R D mask) (f (entered s core slot))) :
    ∀ t, exec c s = .next t → (t.core core).run = .issuing → ∃ k, t = s.setCore core k ∧ (s.core core).Writes R D mask k := by
  intro t ht hrun
  obtain rfl := Host.Outcome.next.inj (he.symm.trans ht)
  have henter : (s.core core).Writes R D mask (entered s core slot) := (Core.steady_enter _ slot s.now).writes
  exact issuing_leaves hr hf (fun k hk => henter.trans (hk.trans (k.steady_endSlot _ _).writes))
    (fun k w hk => henter.trans (hk.trans (k.steady_hold _ _ _).writes)) hrun

end

/-! ## Each instruction -/

/-- A branch taken or not. -/
theorem steady_ite_branchTo {b : Prop} [Decidable b] (k : Core) (t : BitVec 12) : k.Steady (if b then k.branchTo t else k) := by
  split
  · exact k.steady_branchTo t
  · exact k.steady_refl

theorem selectSets_leaves {R : BitVec 5 → Prop} {D : BitVec 4 → Prop} {mask : Prop} {k k' : Core} (h : k.Steady k') (hm : mask)
    (m : BitVec 8) : SlotLeaves (k.Writes R D mask) (selectSets k' m) :=
  .ite (fun _ => trivial) fun _ => h.writes.trans (k'.writes_asr m hm)

theorem controlInstr_leaves {s : State} {p : Place} {rd rs1 rs2 : BitVec 5} {off : BitVec 14} {d : BitVec 4} {mask : BitVec 8}
    {slot : BitVec 2} (hr : ready s p.core) :
    ∀ c ∈ [Instr.beq p rs1 rs2 off, .bne p rs1 rs2 off, .blt p rs1 rs2 off, .bge p rs1 rs2 off, .bltu p rs1 rs2 off,
        .bgeu p rs1 rs2 off, .jmp p rs1 rs2 off, .jal p rd off, .jr p rs1, .loop p rs1 off, .csrr p rd off, .csrw p rs1 off,
        .cimAsel p mask, .daddr p d rs1, .daddc p d rs1, .slotNop p slot],
      ∀ t, exec c s = .next t → (t.core p.core).run = .issuing → ∃ k, t = s.setCore p.core k ∧
        (s.core p.core).Writes (fun r => r = rd ∧ (c = .jal p rd off ∨ c = .csrr p rd off))
          (fun e => e = d ∧ (c = .daddr p d rs1 ∨ c = .daddc p d rs1)) (c = .csrw p rs1 off ∨ c = .cimAsel p mask) k := by
  have wait (rs : List (BitVec 5)) := (entered s p.core 0).steady_ldWait s.now rs
  have branch {c : Instr} {opcode : Nat} {f : W32 → W32 → Bool} {R : BitVec 5 → Prop} {D : BitVec 4 → Prop} {mask : Prop}
      (he : exec c s = .next (branch p opcode rs1 rs2 off f s)) :=
    issuing_writes (R := R) (D := D) (mask := mask) hr he ((wait _).trans (steady_ite_branchTo _ _)).writes
  simp only [List.forall_mem_cons]
  refine ⟨branch rfl, branch rfl, branch rfl, branch rfl, branch rfl, branch rfl, issuing_writes hr rfl ?jmp, issuing_writes hr rfl ?jal,
    issuing_writes hr rfl ?jr, issuing_writes hr rfl ?loop, issuing_writes hr rfl ?csrr, issuing_writes hr rfl ?csrw,
    issuing_writes hr rfl ?asel, issuing_writes hr rfl ?daddr, issuing_writes hr rfl ?daddc,
    issuing_writes hr rfl (Core.steady_refl _).writes, List.forall_mem_nil _⟩
  case jmp => exact .ite (fun _ => trivial) fun _ => (Core.steady_branchTo _ _).writes
  case jal => exact (Core.writes_setReg _ _ ⟨rfl, .inl trivial⟩).trans (Core.steady_branchTo _ _).writes
  case jr => exact ((wait _).trans (Core.steady_branchTo _ _)).writes
  case loop =>
    refine .ite (fun _ => trivial) fun _ => .ite (fun _ => ?_) fun _ => ?_
    · exact ((wait _).trans (Core.steady_flow _ _ _ _ _)).writes
    · exact ((wait _).trans (Core.steady_flow _ _ _ _ _)).writes
  case csrr =>
    split
    · exact Core.writes_setReg _ _ ⟨rfl, .inr trivial⟩
    · trivial
  case csrw =>
    exact .ite (fun _ => selectSets_leaves (wait _) (.inl trivial) _) fun _ => trivial
  case asel => exact selectSets_leaves (Core.steady_refl _) (.inr trivial) _
  case daddr => exact (wait _).writes.trans (Core.writes_setDesc _ _ ⟨rfl, .inl trivial⟩)
  case daddc => exact (wait _).writes.trans (Core.writes_setDesc _ _ ⟨rfl, .inr trivial⟩)

/-- Settles O5: each instruction by `controlInstr_leaves`. -/
theorem controlFrame : Obligations.ControlFrame := by
  unfold Obligations.ControlFrame
  intro s p rd rs1 rs2 off d mask slot hr c hc t ht hrun
  obtain ⟨k, rfl, hk⟩ := controlInstr_leaves hr c hc t ht hrun
  rw [State.core_setCore_same]
  exact ⟨⟨k, rfl⟩, hk.data, hk.step, hk.queues, fun r hr => hk.reg r (by tauto), fun e he => hk.desc e (by tauto),
    fun hcsrw hasel => hk.asr (by tauto)⟩

end Sys2Proof.Proofs
end

section
/-!
SUPPORT. What a dispatch does to its core: it enters the queue of its engine, or waits for room there (R170, R178).
-/
namespace Sys2Proof.Machine
open Sys2Proof.Safety

@[simp] theorem Core.ldWait_seq_asr (k : Core) (now : Nat) (rs : List (BitVec 5)) : (k.ldWait now rs).seq.asr = k.seq.asr :=
  (k.steady_ldWait now rs).asr
@[simp] theorem Core.ldWait_seq_queued (k : Core) (now : Nat) (rs : List (BitVec 5)) : (k.ldWait now rs).seq.queued = k.seq.queued :=
  (k.steady_ldWait now rs).queues.1
@[simp] theorem Core.ldWait_seq_sigBuf (k : Core) (now : Nat) (rs : List (BitVec 5)) : (k.ldWait now rs).seq.sigBuf = k.seq.sigBuf :=
  (k.steady_ldWait now rs).queues.2.2
@[simp] theorem Core.ldWait_queuedOn (k : Core) (now : Nat) (rs : List (BitVec 5)) (eng : Nat) :
    (k.ldWait now rs).queuedOn eng = k.queuedOn eng := by
  simp only [Core.queuedOn, Core.ldWait_seq_queued]
@[simp] theorem Core.ldWait_seq_stepNum (k : Core) (now : Nat) (rs : List (BitVec 5)) : (k.ldWait now rs).seq.stepNum = k.seq.stepNum := by
  rcases k.ldWait_cases now rs with h | ⟨n, l, l', h⟩ <;> simp [h]
@[simp] theorem Core.ldWait_seq_stepReq (k : Core) (now : Nat) (rs : List (BitVec 5)) : (k.ldWait now rs).seq.stepReq = k.seq.stepReq := by
  rcases k.ldWait_cases now rs with h | ⟨n, l, l', h⟩ <;> simp [h]

theorem sameData_active {k k' : Core} (h : sameData k k') : k'.active = k.active := by
  obtain ⟨-, -, -, -, -, -, -, -, -, -, hactive, -⟩ := h
  exact hactive

/-- A core that differs from another in no more than its dispatch queues, the number of its next operation, and what a slot may change of
any core (`Core.Steady`). -/
structure Core.Dispatches (k k' : Core) : Prop where
  data : sameData k k'
  step : sameStep k.seq k'.seq
  regs : k'.seq.regs = k.seq.regs
  descs : k'.seq.descs = k.seq.descs
  asr : k'.seq.asr = k.seq.asr
  sigBuf : k'.seq.sigBuf = k.seq.sigBuf

theorem Core.Steady.dispatches {k k' : Core} (h : k.Steady k') : k.Dispatches k' :=
  ⟨h.data, h.step, h.regs, h.descs, h.asr, h.queues.2.2⟩

theorem Core.Dispatches.trans {k k' k'' : Core} (h : k.Dispatches k') (h' : k'.Dispatches k'') : k.Dispatches k'' :=
  ⟨sameData_trans h.data h'.data, sameStep_trans h.step h'.step, h'.regs.trans h.regs, h'.descs.trans h.descs, h'.asr.trans h.asr,
    h'.sigBuf.trans h.sigBuf⟩

theorem Core.dispatches_enqueue (k : Core) (q : QOp) : k.Dispatches (k.enqueue q) :=
  ⟨sameData_refl k, sameStep_refl _, rfl, rfl, rfl, rfl⟩

/-! ## A dispatch that waited for room (R170) -/

theorem Core.unhold_held (k : Core) (now : Nat) : (k.unhold now).held = none := by
  rw [Core.unhold, Core.endSlot_held]

theorem Core.unhold_queued (k : Core) (now : Nat) : (k.unhold now).seq.queued = k.seq.queued := by
  rw [Core.unhold, Core.endSlot_seq_queued]

/-- Once an operation has left the full queue, the one that waited enters. -/
theorem resume_queue {s : State} {c : Nat} {e : QOp} (hrun : (s.core c).run = .issuing) (hheld : (s.core c).held = some (.queue e))
    (hfree : (s.core c).queuedOn e.eng < 4) :
    ((resume s c).core c).held = none ∧ ∃ e', ((resume s c).core c).seq.queued = (s.core c).seq.queued ++ [e'] ∧ e'.op = e.op := by
  have hresume : resume s c = s.setCore c
      ((((s.core c).countHeld s.now).enqueue { e with gov := s.setting 0x5010 1 240, since := s.now }).unhold s.now) := by
    simp only [resume, hrun, hheld, ne_eq, not_true_eq_false, if_false]
    exact if_neg (by omega)
  rw [hresume, State.core_setCore_same]
  refine ⟨Core.unhold_held _ _, { e with num := ((s.core c).countHeld s.now).seq.opNum, gov := s.setting 0x5010 1 240, since := s.now }, ?_, rfl⟩
  rw [Core.unhold_queued]
  simp [Core.enqueue]

end Sys2Proof.Machine
end

section
/-!
SUPPORT. The statements of the dispatch slots (R169 to R172, R178, R191, R202).
-/
namespace Sys2Proof.Proofs
open Sys2Proof.Machine Sys2Proof.Safety

/-- The slot of a dispatch: 1 for A, 2 for B. -/
abbrev dslot (p : DPlace) : Nat := if p.slotB then 2 else 1

section
variable {s : State} {p : DPlace} {c : Instr} {opcode : Nat} {op : Core → DOp} {chk : Core → Option Fail} {regs : List (BitVec 5)}
  (hr : ready s p.core) (he : exec c s = .next (dispatch p opcode op chk s regs))
include hr he

/-- A dispatch that passes its checks enters the queue of its engine, when that has room. -/
theorem answers_dispatch_enters (hv : p.rsv = false) (hchk : chk ((entered s p.core (dslot p)).ldWait s.now regs) = none)
    (hop : op ((entered s p.core (dslot p)).ldWait s.now regs) = op (entered s p.core (dslot p)))
    (hfree : (entered s p.core (dslot p)).queuedOn (op (entered s p.core (dslot p))).engine < 4) : answers c s fun t =>
      let k := entered s p.core (dslot p)
      ∃ e, (t.core p.core).seq.queued = k.seq.queued ++ [e] ∧ e.op = op k ∧ e.eng = (op k).engine ∧ e.num = k.seq.opNum ∧
        e.step = k.seq.stepNum ∧ e.req = k.seq.stepReq := by
  refine answers_go hr he hv (k := ((entered s p.core (dslot p)).ldWait s.now regs).enqueue
    (qopOf s ((entered s p.core (dslot p)).ldWait s.now regs) (dslot p) (op (entered s p.core (dslot p))))) ?_ ?_
  · rw [afterLoad, hchk, hop]
    exact if_neg (by rw [Core.ldWait_queuedOn]; exact Nat.not_le.2 hfree)
  · rw [State.core_setCore_same, Core.endSlot_seq_queued]
    refine ⟨_, congrArg (· ++ _) (Core.ldWait_seq_queued _ _ _), rfl, rfl, ?_⟩
    exact ⟨Core.ldWait_seq_opNum _ _ _, Core.ldWait_seq_stepNum _ _ _, Core.ldWait_seq_stepReq _ _ _⟩

/-- A dispatch that passes its checks waits for room in its queue, and enters once there is some. -/
theorem answers_dispatch_waits (hv : p.rsv = false) (hchk : chk ((entered s p.core (dslot p)).ldWait s.now regs) = none)
    (hop : op ((entered s p.core (dslot p)).ldWait s.now regs) = op (entered s p.core (dslot p)))
    (hfull : 4 ≤ (entered s p.core (dslot p)).queuedOn (op (entered s p.core (dslot p))).engine) : answers c s fun t =>
      let k := entered s p.core (dslot p)
      (t.core p.core).canIssue = false ∧ (t.core p.core).seq.queued = k.seq.queued ∧
        ∃ e, (t.core p.core).held = some (.queue e) ∧ e.op = op k ∧
          ∀ u, (u.core p.core).run = .issuing → (u.core p.core).held = some (.queue e) → (u.core p.core).queuedOn (op k).engine < 4 →
            ((resume u p.core).core p.core).held = none ∧
            ∃ e', ((resume u p.core).core p.core).seq.queued = (u.core p.core).seq.queued ++ [e'] ∧ e'.op = e.op := by
  refine answers_hold hr he hv (k := (entered s p.core (dslot p)).ldWait s.now regs)
    (w := .queue (qopOf s ((entered s p.core (dslot p)).ldWait s.now regs) (dslot p) (op (entered s p.core (dslot p))))) ?_ ?_
  · rw [afterLoad, hchk, hop]
    exact if_pos (by rw [Core.ldWait_queuedOn]; exact hfull)
  · rw [State.core_setCore_same]
    exact ⟨by simp [Core.canIssue], Core.ldWait_seq_queued _ _ _, _, rfl, rfl, fun u hrun hheld hfree => resume_queue hrun hheld hfree⟩

theorem answers_dispatch_bad (hv : p.rsv = false) (hidle : (s.core p.core).active = []) {e : Fail}
    (hchk : chk ((entered s p.core (dslot p)).ldWait s.now regs) = some e) :
    answers c s fun t => StoppedAtIssue (entered s p.core (dslot p)) e (dslot p) (t.core p.core) :=
  answers_bad hr he hv hidle (by rw [afterLoad, hchk])

/-- A dispatch whose core goes on issuing has entered its queue or waits for room there. -/
theorem dispatch_leaves : ∀ t, exec c s = .next t → (t.core p.core).run = .issuing →
    ∃ k, t = s.setCore p.core k ∧ (s.core p.core).Dispatches k := by
  intro t ht hrun
  obtain rfl := Host.Outcome.next.inj (he.symm.trans ht)
  have hwait : (s.core p.core).Dispatches ((entered s p.core (dslot p)).ldWait s.now regs) :=
    ((Core.steady_enter _ _ s.now).trans (Core.steady_ldWait _ _ _)).dispatches
  refine issuing_leaves (P := (s.core p.core).Dispatches) hr ?_ (fun k hk => hk.trans (k.steady_endSlot _ _).dispatches)
    (fun k w hk => hk.trans (k.steady_hold _ _ _).dispatches) hrun
  rw [afterLoad]
  split
  · trivial
  · exact .ite (fun _ => hwait) fun _ => hwait.trans (Core.dispatches_enqueue _ _)

end

/-- A load of a descriptor register or a move of one leaves the operations that have issued. -/
theorem descInstr_leaves {s : State} {pl : Place} {x : BitVec 4} {rs : BitVec 5} {imm15 : BitVec 15} (hr : ready s pl.core) :
    ∀ c ∈ [Instr.dld pl x rs imm15, .daddr pl x rs, .daddc pl x rs], ∀ t, exec c s = .next t → (t.core pl.core).run = .issuing →
      (t.core pl.core).seq.queued = (s.core pl.core).seq.queued ∧ (t.core pl.core).active = (s.core pl.core).active := by
  have moves {c : Instr} (hc : c ∈ [Instr.daddr pl x rs, .daddc pl x rs]) (t : State) (ht : exec c s = .next t)
      (hrun : (t.core pl.core).run = .issuing) :
      (t.core pl.core).seq.queued = (s.core pl.core).seq.queued ∧ (t.core pl.core).active = (s.core pl.core).active := by
    obtain ⟨k, rfl, hk⟩ := controlInstr_leaves (rd := 0) (rs2 := 0) (off := 0) (mask := 0) (slot := 0) hr c
      (by simp only [List.mem_cons] at hc ⊢; tauto) t ht hrun
    rw [State.core_setCore_same]
    exact ⟨hk.queues.1, sameData_active hk.data⟩
  refine List.forall_mem_cons.2 ⟨fun t ht hrun => ?_, fun c hc => moves hc⟩
  obtain rfl := Host.Outcome.next.inj (show Host.Outcome.next (issue s pl.core 0 0x40 pl.last pl.rsv _) = _ from ht)
  obtain ⟨k, hk, hleaves⟩ := access_leaves (m := .dld x (descAddr (entered s pl.core 0) rs imm15)) hr (.inr (by rw [descAddr_ldWait])) hrun
  rw [hk, State.core_setCore_same]
  exact ⟨hleaves.queues.1, hleaves.active⟩

/-- Settles O12: an operation enters by `answers_dispatch_enters` or waits by `answers_dispatch_waits`, and no later load or move of a
descriptor changes it (`descInstr_leaves`). -/
theorem dispatchQueues : Obligations.DispatchQueues := by
  unfold Obligations.DispatchQueues
  intro s p x y z rs func size mode f g a q tag id hr hv k dx dy dz r enters
  have enter {c : Instr} {eng : Nat} {o : DOp} {opcode : Nat} {op : Core → DOp} {chk : Core → Option Fail} {regs : List (BitVec 5)}
      (he : exec c s = .next (dispatch p opcode op chk s regs)) (hchk : chk (k.ldWait s.now regs) = none := by rfl)
      (hop : op (k.ldWait s.now regs) = op k := by simp only [Core.ldWait_pre_desc, Core.ldWait_pre_reg]) (ho : op k = o := by rfl)
      (heng : o.engine = eng := by rfl) : enters c eng o :=
    heng ▸ ho ▸ fun hfree => answers_dispatch_enters hr he hv hchk hop hfree
  have hcode {opcode : Nat} {b : Bool} (hb : b = true) (k : Core) : codeCheck opcode b k = none := by rw [codeCheck, encFail, if_pos hb]
  have heval (hmode : mode ≠ 3) (hset : k.seq.asr.getLsbD (a.toNat / 4) = true) (opcode : Nat) :
      evalCheck opcode a mode (k.ldWait s.now []) = none := by
    rw [evalCheck, if_neg hmode, Core.ldWait_seq_asr, hset]
    rfl
  refine ⟨enter rfl, enter rfl, enter rfl, fun hf => enter rfl (hcode (by simpa using hf) _), fun hf => enter rfl (hcode (by simpa using hf) _),
    fun hf => enter rfl (hcode (by simpa using hf) _), fun hf => enter rfl (hcode (by simpa using hf) _), enter rfl, enter rfl, enter rfl,
    enter rfl, enter rfl, enter rfl, enter rfl, enter rfl,
    fun hmode hset => ⟨enter rfl (heval hmode hset _), enter rfl (heval hmode hset _)⟩, enter rfl, enter rfl, enter rfl,
    fun hsize => enter rfl (hcode (by simpa using hsize) _), fun hfull => ?waits, fun pl imm15 hpl => ?later⟩
  case waits =>
    exact answers_dispatch_waits (op := fun k => .tmCopy (k.pre.desc x) (k.pre.desc y)) hr rfl hv rfl
      (by simp only [Core.ldWait_pre_desc]) hfull
  case later =>
    rw [← hpl] at hr ⊢
    exact descInstr_leaves hr

/-- Settles O13: a dispatch whose check fails stops by `answers_dispatch_bad`; an instruction that sets ASR leaves queues and operations in
progress (`controlInstr_leaves`). -/
theorem dispatchChecks : Obligations.DispatchChecks := by
  unfold Obligations.DispatchChecks
  intro s p x y z rs func mode f g a q id hr hv hidle k stops
  have stop {c : Instr} {cause aux : Nat} {opcode : Nat} {op : Core → DOp} {chk : Core → Option Fail} {regs : List (BitVec 5)}
      (he : exec c s = .next (dispatch p opcode op chk s regs)) (hchk : chk (k.ldWait s.now regs) = some ⟨cause, aux, 0⟩) :
      stops c cause :=
    answers_mono (answers_dispatch_bad hr he hv hidle hchk) fun t ⟨hrun, hregs, _, r, hr, hcause, _, _⟩ => ⟨hrun, ⟨r, hr, hcause⟩, hregs⟩
  have hcode {opcode : Nat} {b : Bool} (hb : b = false) (k : Core) : codeCheck opcode b k = some ⟨1, opcode, 0⟩ := by
    rw [codeCheck, encFail, hb]
    rfl
  have hclear (hmode : mode ≠ 3) (hset : k.seq.asr.getLsbD (a.toNat / 4) = false) (opcode : Nat) :
      evalCheck opcode a mode (k.ldWait s.now []) = some ⟨9, k.seq.asr.toNat, 0⟩ := by
    rw [evalCheck, if_neg hmode, Core.ldWait_seq_asr, hset]
    rfl
  refine ⟨fun hmode hset => ⟨stop rfl (hclear hmode hset _), stop rfl (hclear hmode hset _)⟩, stop rfl (if_pos rfl), stop rfl (if_pos rfl),
    fun hf => stop rfl (hcode (by simpa using hf) _),
    fun hf => ⟨stop rfl (hcode (by simpa using hf) _), stop rfl (hcode (by simpa using hf) _), stop rfl (hcode (by simpa using hf) _)⟩,
    fun hf => stop rfl (hcode (by simpa using hf) _), fun pl mask u t hpl hru hexec hrun => ?asr⟩
  rw [← hpl] at hru hrun ⊢
  have leaves {c : Instr} (hc : c ∈ [Instr.cimAsel pl mask, .csrw pl rs 5]) (ht : exec c u = .next t) :
      (t.core pl.core).seq.queued = (u.core pl.core).seq.queued ∧ (t.core pl.core).active = (u.core pl.core).active := by
    obtain ⟨k, rfl, hk⟩ := controlInstr_leaves (rd := 0) (rs1 := rs) (rs2 := 0) (off := 5) (d := 0) (mask := mask) (slot := 0) hru c
      (by simp only [List.mem_cons] at hc ⊢; tauto) t ht hrun
    rw [State.core_setCore_same]
    exact ⟨hk.queues.1, sameData_active hk.data⟩
  exact hexec.elim (leaves (by simp)) (leaves (by simp))

/-- Settles O14: each dispatch by `dispatch_leaves`. -/
theorem dispatchFrame : Obligations.DispatchFrame := by
  unfold Obligations.DispatchFrame
  intro s p x y z rs func size mode f g a q tag id hr c hc
  have leaves : ∀ t, exec c s = .next t → (t.core p.core).run = .issuing → ∃ k, t = s.setCore p.core k ∧ (s.core p.core).Dispatches k := by
    revert c
    simp only [List.forall_mem_cons]
    exact ⟨dispatch_leaves hr rfl, dispatch_leaves hr rfl, dispatch_leaves hr rfl, dispatch_leaves hr rfl, dispatch_leaves hr rfl,
      dispatch_leaves hr rfl, dispatch_leaves hr rfl, dispatch_leaves hr rfl, dispatch_leaves hr rfl, dispatch_leaves hr rfl,
      dispatch_leaves hr rfl, dispatch_leaves hr rfl, dispatch_leaves hr rfl, dispatch_leaves hr rfl, dispatch_leaves hr rfl,
      dispatch_leaves hr rfl, dispatch_leaves hr rfl, dispatch_leaves hr rfl, dispatch_leaves hr rfl, dispatch_leaves hr rfl,
      dispatch_leaves hr rfl, List.forall_mem_nil _⟩
  intro t ht hrun
  obtain ⟨k, rfl, hk⟩ := leaves t ht hrun
  rw [State.core_setCore_same]
  exact ⟨⟨k, rfl⟩, hk.data, hk.step, hk.regs, hk.descs, hk.asr, hk.sigBuf⟩

end Sys2Proof.Proofs
end

section
/-!
SUPPORT. What the clocks, the Sillage stream, a fault and a new step of one core leave of the state: they touch that core, the power
regions, the observation unit, the pins and the values drawn, and nothing else.
-/
namespace Sys2Proof.Machine

/-- A state that differs from another in no more than one core, the power regions, the observation unit, what has left the block and the
values drawn. -/
structure AtCore (c : Nat) (s t : State) : Prop where
  rest : t = { s with cores := t.cores, power := t.power, observe := t.observe, free := t.free, out := t.out }
  core : ∀ d, d ≠ c → t.core d = s.core d

section
variable {c : Nat} {s t u : State}

theorem AtCore.refl (c : Nat) (s : State) : AtCore c s s := ⟨rfl, fun _ _ => rfl⟩

theorem AtCore.trans (h : AtCore c s t) (h' : AtCore c t u) : AtCore c s u where
  rest := by
    calc u = { t with cores := u.cores, power := u.power, observe := u.observe, free := u.free, out := u.out } := h'.rest
      _ = { s with cores := u.cores, power := u.power, observe := u.observe, free := u.free, out := u.out } := by rw [h.rest]
  core d hd := (h'.core d hd).trans (h.core d hd)

theorem AtCore.now (h : AtCore c s t) : t.now = s.now := by rw [h.rest]
theorem AtCore.syncs (h : AtCore c s t) : t.syncs = s.syncs := by rw [h.rest]
theorem AtCore.mesh (h : AtCore c s t) : t.mesh = s.mesh := by rw [h.rest]
theorem AtCore.regions (h : AtCore c s t) : t.regions = s.regions := by rw [h.rest]
theorem AtCore.host (h : AtCore c s t) : t.host = s.host := by rw [h.rest]
theorem AtCore.thermal (h : AtCore c s t) : t.thermal = s.thermal := by rw [h.rest]
theorem AtCore.sync (h : AtCore c s t) (i : Nat) : t.sync i = s.sync i := by rw [State.sync, h.syncs, State.sync]
theorem AtCore.ownerOf (h : AtCore c s t) (d : Nat) : Machine.ownerOf t d = Machine.ownerOf s d := by
  rw [Machine.ownerOf, h.regions, Machine.ownerOf]

theorem atCore_setCore (s : State) (c : Nat) (k : Core) : AtCore c s (s.setCore c k) :=
  ⟨rfl, fun _ hd => State.core_setCore_ne s k hd⟩

theorem atCore_setPreg (c : Nat) (s : State) (g : Nat) (x : PRegion) : AtCore c s (s.setPreg g x) := ⟨rfl, fun _ _ => rfl⟩
theorem atCore_emit (c : Nat) (s : State) (o : Out) : AtCore c s (s.emit o) := ⟨rfl, fun _ _ => rfl⟩
theorem atCore_draw (c : Nat) (s : State) (n : Nat) : AtCore c s (s.draw n).2 := ⟨rfl, fun _ _ => rfl⟩

theorem atCore_sil (c : Nat) (s : State) (type source : Nat) (payload : Bytes) : AtCore c s (s.sil type source payload) := by
  refine ⟨?_, fun d _ => State.core_sil s type source payload d⟩
  simp only [State.sil]
  split_ifs <;> rfl

theorem atCore_powerTo (c : Nat) (s : State) (g : Nat) (st : PState) (cause : Nat) : AtCore c s (s.powerTo g st cause) := by
  simp only [State.powerTo]
  split
  · exact .refl c s
  · exact (atCore_setPreg c s g _).trans (atCore_sil c _ _ _ _)

theorem atCore_napIfIdle (c : Nat) (s : State) (g : Nat) : AtCore c s (s.napIfIdle g) := by
  unfold State.napIfIdle
  split
  · exact atCore_powerTo c s _ _ _
  · exact .refl c s

/-! ## Clocks (R27, R492, R497, R522) -/

theorem atCore_dozeWake (c : Nat) (s : State) (g : Nat) : AtCore c s (dozeWake s g) :=
  (atCore_powerTo c s g _ _).trans ((atCore_setPreg c _ g _).trans ((atCore_setPreg c _ g _).trans (atCore_emit c _ _)))

theorem dozeWake_core (s : State) (g d : Nat) : (dozeWake s g).core d = s.core d := by
  simp [dozeWake, State.modePin, State.updPreg]

theorem atCore_startClock (s : State) (c : Nat) : AtCore c s (s.startClock c) := by
  unfold State.startClock
  split
  · exact atCore_setCore s c _
  · split
    · exact atCore_setCore s c _
    · exact (atCore_setCore s c _).trans (atCore_powerTo c _ _ _ _)
    · exact atCore_dozeWake c s _
    · exact .refl c s

/-- A clock that starts, stands still or is frozen. -/
theorem startClock_core (s : State) (c : Nat) :
    (s.startClock c).core c = (s.core c).freeze ∨ (s.startClock c).core c = (s.core c).clockRuns s.now ∨
      (s.startClock c).core c = s.core c := by
  unfold State.startClock
  split
  · exact .inl (State.core_setCore_same _ _ _)
  · split
    · exact .inr (.inl (State.core_setCore_same _ _ _))
    · exact .inr (.inl (by rw [State.core_powerTo]; exact State.core_setCore_same _ _ _))
    · exact .inr (.inr (dozeWake_core _ _ _))
    · exact .inr (.inr rfl)

/-! ## Faults (R206) -/

theorem atCore_haltAt (s : State) (c time eng : Nat) (f : Core → Core) : AtCore c s (s.haltAt c time eng f) := by
  have hset := (atCore_draw c s (s.core c).active.length).trans
    (atCore_setCore (s.draw (s.core c).active.length).2 c (f ((s.core c).halt s.free s.now time eng)))
  exact hset.trans (atCore_napIfIdle c _ (powerOf c))

theorem atCore_haltCore (s : State) (c : Nat) (f : Core → Core) : AtCore c s (s.haltCore c f) := atCore_haltAt s c _ _ f

theorem atCore_stepFaultAt (s : State) (c : Nat) (f : Fail) (pc slot : Nat) (atIssue : Bool) :
    AtCore c s (stepFaultAt s c f pc slot atIssue) := by
  unfold stepFaultAt
  extract_lets k k'
  split
  · exact .refl c s
  · exact (atCore_setCore s c k').trans (atCore_haltCore (s.setCore c k') c _)

theorem atCore_stepFault (s : State) (c : Nat) (f : Fail) (slot : Nat) (atIssue : Bool) : AtCore c s (stepFault s c f slot atIssue) :=
  atCore_stepFaultAt s c f _ slot atIssue

theorem atCore_stepFaultFrom (s : State) (c : Nat) (f : Fail) (issuer : Option (Nat × Nat)) : AtCore c s (stepFaultFrom s c f issuer) := by
  unfold stepFaultFrom
  split
  · exact atCore_stepFaultAt s c f _ _ _
  · exact atCore_stepFault s c f _ _

/-- Whatever issued what failed, the core stops and reports it. -/
theorem stepFaultFrom_core {s : State} {c : Nat} (f : Fail) (issuer : Option (Nat × Nat)) (h : (s.core c).run = .issuing) :
    ∃ pc slot, (stepFaultFrom s c f issuer).core c = (s.core c).reported f pc slot s.almanac ((s.core c).halt s.free s.now s.now 13) := by
  cases issuer with
  | none => exact ⟨_, _, stepFaultAt_core f _ 0 false h⟩
  | some x => exact ⟨_, _, stepFaultAt_core f x.1 x.2 false h⟩

/-! ## A new step (R199, R349, R638) -/

theorem atCore_silStep (s : State) (c pc : Nat) : AtCore c s (silStep s c pc) := by
  simp only [silStep]
  split
  · exact atCore_sil c s _ _ _
  · exact .refl c s

theorem silStep_core (s : State) (c pc d : Nat) : (silStep s c pc).core d = s.core d := by
  simp only [silStep]
  split
  · exact State.core_sil s _ _ _ d
  · rfl

theorem latchStep_cases (s : State) (c : Nat) : latchStep s c = s ∨ ∃ q n,
    latchStep s c = (s.draw n).2.setCore c { s.core c with seq := { (s.core c).seq with stepSeq := q } } := by
  simp only [latchStep]
  split
  · exact .inl rfl
  · split
    · exact .inl rfl
    · exact .inr ⟨_, 1, rfl⟩

theorem atCore_latchStep (s : State) (c : Nat) : AtCore c s (latchStep s c) := by
  rcases latchStep_cases s c with h | ⟨q, n, h⟩
  · rw [h]
    exact .refl c s
  · rw [h]
    exact (atCore_draw c s n).trans (atCore_setCore _ c _)

theorem latchStep_core (s : State) (c : Nat) :
    ∃ q, (latchStep s c).core c = { s.core c with seq := { (s.core c).seq with stepSeq := q } } := by
  rcases latchStep_cases s c with h | ⟨q, n, h⟩
  · exact ⟨(s.core c).seq.stepSeq, by rw [h]⟩
  · exact ⟨q, by rw [h, State.core_setCore_same]⟩

/-- The counts of watches are all that a new step or a TAG changes of a core outside its sequencer and its operations. -/
theorem countWatches_eq (s : State) (region : Nat) (k : Core) : ∃ w, countWatches s region k = { k with watchN := w } := by
  unfold countWatches
  refine List.foldlRecOn (motive := fun k' : Core => ∃ w, k' = { k with watchN := w }) s.observe.watches _ ⟨k.watchN, rfl⟩ ?_
  rintro k' ⟨w, rfl⟩ e -
  dsimp only
  split
  · exact ⟨_, rfl⟩
  · exact ⟨_, rfl⟩

theorem foldl_noteDump_eq (ws : List Nat) (k : Core) : ∃ w, ws.foldl Core.noteDump k = { k with watchN := w } := by
  refine List.foldlRecOn (motive := fun k' : Core => ∃ w, k' = { k with watchN := w }) ws _ ⟨k.watchN, rfl⟩ ?_
  rintro k' ⟨w, rfl⟩ e -
  exact ⟨_, rfl⟩

end

end Sys2Proof.Machine
end

section
/-!
SUPPORT. The statements of the sync slot (R184, R192 to R204).
-/
namespace Sys2Proof.Proofs
open Sys2Proof.Machine Sys2Proof.Safety

/-! ## Waits, signals and fences (R184, R194 to R196) -/

/-- The condition of R195, in the numbers of the statement. -/
theorem reached_iff (v t : W32) : reached v t = true ↔ (v.toNat + 2 ^ 32 - t.toNat) % 2 ^ 32 < 2 ^ 31 := by
  have ht := t.isLt
  rw [reached, decide_eq_true_iff, BitVec.toNat_sub]
  omega

theorem queueReady_of {k : Core} {outb : Bool} {q n : Nat}
    (h : if outb then (k.oq q).length + n ≤ 32 else n ≤ ((k.iq q).takeWhile (·.filled)).length) : queueReady k outb q n = true := by
  cases outb with
  | true =>
    refine decide_eq_true_iff.2 ?_
    simp only [if_true] at h
    simp only [Core.oqFree]
    omega
  | false => exact decide_eq_true_iff.2 h

/-- A core with nothing queued, in progress, in its output queues or outstanding passes every fence. -/
theorem fenceDone_of_idle {k : Core} (hqueued : k.seq.queued = []) (hactive : k.active = []) (hoqs : k.oqs = []) (hawaits : k.awaits = [])
    (mask : BitVec 8) : fenceDone k mask = true := by
  have hengine (eng : Nat) : k.engineDone eng = true := by simp [Core.engineDone, Core.depth, Core.queuedOn, hqueued, hactive]
  have hqueues : k.queuesDone = true := by simp [Core.queuesDone, hoqs, hawaits]
  simp [fenceDone, hengine, hqueues]

theorem fenceDone_of_busy {k : Core} {mask : BitVec 8} (hsel : mask.getLsbD 2 = true) (hbusy : 0 < k.depth 2) : fenceDone k mask = false := by
  have hengine : k.engineDone 2 = false := by simp only [Core.engineDone, decide_eq_false_iff_not]; omega
  simp [fenceDone, hengine, hsel]

@[simp] theorem ldWait_held (k : Core) (now : Nat) (rs : List (BitVec 5)) : (k.ldWait now rs).held = k.held := by
  rcases k.ldWait_cases now rs with h | ⟨n, l, l', h⟩ <;> simp [h]
@[simp] theorem ldWait_run (k : Core) (now : Nat) (rs : List (BitVec 5)) : (k.ldWait now rs).run = k.run := by
  rcases k.ldWait_cases now rs with h | ⟨n, l, l', h⟩ <;> simp [h]

theorem canIssue_held {k : Core} (h : k.canIssue = true) : k.held = none := by
  simp only [Core.canIssue, Bool.and_eq_true, Option.isNone_iff_eq_none] at h
  exact h.1.2

section
variable {s : State} {p : Place} {c : Instr} {opcode : Nat} {f : Core → SlotRes} {k : Core} (hr : ready s p.core) (hv : p.rsv = false)
  (he : exec c s = .next (issue s p.core 3 opcode p.last p.rsv f))
include hr hv he

/-- A sync slot that goes on leaves its core issuing, and holds nothing. -/
theorem answers_goes_on (hf : f (entered s p.core 3) = .go k) (hheld : k.held = (entered s p.core 3).held)
    (hrun : k.run = (entered s p.core 3).run) : answers c s fun t => (t.core p.core).held = none ∧ (t.core p.core).run = .issuing := by
  refine answers_go hr he hv hf ?_
  rw [State.core_setCore_same, Core.endSlot_held, Core.endSlot_run, hheld, hrun, entered, Core.enter_held, Core.enter_run]
  exact ⟨canIssue_held hr.1, Core.canIssue_run hr.1⟩

theorem answers_holds {w : Held} (hf : f (entered s p.core 3) = .hold k w) :
    answers c s fun t => (t.core p.core).held = some w ∧ (t.core p.core).canIssue = false :=
  answers_hold hr he hv hf (by rw [State.core_setCore_same]; exact ⟨rfl, by simp [Core.canIssue]⟩)

end

/-- Settles O15: each slot goes on (`answers_goes_on`) or holds issue (`answers_holds`) as its condition has it. -/
theorem syncSlot : Obligations.SyncSlot := by
  unfold Obligations.SyncSlot
  intro s p idx rs one outb q n mask hr hv k v goesOn holds
  refine ⟨fun hcheck howns => ⟨fun hv' => ?met, fun hv' => ?unmet⟩, fun hcheck hroom => ?signal, fun hcheck hfull => ?full,
    fun hn hready => ?qwait, fun hqueued hactive hoqs hawaits => ?fence, fun hsel hbusy => ?busy⟩
  case met =>
    refine answers_goes_on (k := k.ldWait s.now [rs]) hr hv rfl ?_ (ldWait_held _ _ _) (ldWait_run _ _ _)
    simp only [afterLoad, hcheck, howns, Core.ldWait_pre_reg]
    exact if_pos ((reached_iff _ _).2 hv')
  case unmet =>
    refine answers_holds (k := k.ldWait s.now [rs]) hr hv rfl ?_
    simp only [afterLoad, hcheck, howns, Core.ldWait_pre_reg]
    exact if_neg fun h => absurd ((reached_iff _ _).1 h) (Nat.not_lt.2 hv')
  case signal =>
    have hgo : ¬ 8 ≤ (k.ldWait s.now [rs]).seq.sigBuf.length := by rw [Core.ldWait_seq_sigBuf]; omega
    refine answers_go hr rfl hv (by simp only [afterLoad, hcheck]; exact if_neg hgo) ?_
    rw [State.core_setCore_same, Core.endSlot_seq_sigBuf]
    simp only [Core.ldWait_seq_sigBuf, Core.ldWait_pre_reg, Core.ldWait_seq_opNum, Core.ldWait_seq_pc]
    rfl
  case full =>
    refine answers_holds (k := k.ldWait s.now [rs]) hr hv rfl ?_
    simp only [afterLoad, hcheck, Core.ldWait_pre_reg]
    exact if_pos (by rwa [Core.ldWait_seq_sigBuf])
  case qwait =>
    refine answers_goes_on (k := k) hr hv rfl ?_ rfl rfl
    rw [if_neg (by omega), if_pos (queueReady_of hready)]
  case fence => exact answers_goes_on hr hv rfl (if_pos (fenceDone_of_idle hqueued hactive hoqs hawaits mask)) rfl rfl
  case busy => exact answers_holds (k := k) hr hv rfl (if_neg (by rw [fenceDone_of_busy hsel hbusy]; exact Bool.false_ne_true))

end Sys2Proof.Proofs
end

section
/-!
SUPPORT. The statements of STEP and TAG and of what the sync slot leaves unchanged (R169, R196, R199, R201, R204).
-/
namespace Sys2Proof.Proofs
open Sys2Proof.Machine Sys2Proof.Safety

/-! ## STEP (R199, R201) -/

/-- What follows a STEP: its Sillage record and the delivered step it stands for, when it has begun a step. -/
def beganStep (s : State) (c : Nat) (t : State) : State :=
  if (t.core c).seq.stepNum = (s.core c).seq.stepNum then t else latchStep (silStep t c ((s.core c).enter 3 s.now).seq.pc.toNat) c

/-- The slot of a STEP. -/
def stepSlot (s : State) (p : Place) (rs : BitVec 5) (kind : W16) : Core → SlotRes := afterLoad s [rs] fun k =>
  match k.prog.kinds.find? fun d => d.kind = kind.toNat with
  | none => .bad ⟨9, Config.stepMask kind.toNat, 0⟩
  | some d =>
    let n := (ownerOf s p.core).getD 0
    if (s.region n).setCap < d.maxSets then .bad ⟨9, Config.stepMask kind.toNat, 0⟩
    else .go (countWatches s n (beginStep k s.now kind (k.pre.reg rs) d))

theorem exec_step (p : Place) (rs : BitVec 5) (kind : W16) (s : State) :
    exec (.step p rs kind) s = .next (beganStep s p.core (issue s p.core 3 0x05 p.last p.rsv (stepSlot s p rs kind))) := rfl

theorem atCore_beganStep (s : State) (c : Nat) (t : State) : AtCore c t (beganStep s c t) := by
  unfold beganStep
  split
  · exact .refl c t
  · exact (atCore_silStep t c _).trans (atCore_latchStep _ c)

theorem beganStep_core (s : State) (c : Nat) (t : State) :
    ∃ q, (beganStep s c t).core c = { t.core c with seq := { (t.core c).seq with stepSeq := q } } := by
  unfold beganStep
  split
  · exact ⟨(t.core c).seq.stepSeq, rfl⟩
  · obtain ⟨q, hq⟩ := latchStep_core (silStep t c ((s.core c).enter 3 s.now).seq.pc.toNat) c
    exact ⟨q, by rw [hq, silStep_core]⟩

section
variable {s : State} {p : Place} {rs : BitVec 5} {kind : W16} {d : StepDecl}

/-- The slot of a STEP of a kind that the program declares and the region's cap allows goes on. -/
theorem stepSlot_go (hd : ((entered s p.core 3).prog.kinds.find? fun d => d.kind = kind.toNat) = some d)
    (hcap : d.maxSets ≤ (s.region ((ownerOf s p.core).getD 0)).setCap) : ∃ w, stepSlot s p rs kind (entered s p.core 3) =
      .go { beginStep ((entered s p.core 3).ldWait s.now [rs]) s.now kind ((entered s p.core 3).pre.reg rs) d with watchN := w } := by
  obtain ⟨w, hw⟩ := countWatches_eq s ((ownerOf s p.core).getD 0)
    (beginStep ((entered s p.core 3).ldWait s.now [rs]) s.now kind ((entered s p.core 3).pre.reg rs) d)
  refine ⟨w, ?_⟩
  simp only [stepSlot, afterLoad, Core.ldWait_prog, hd, Core.ldWait_pre_reg, hw]
  exact if_neg (Nat.not_lt.2 hcap)

theorem stepSlot_bad (hd : ((entered s p.core 3).prog.kinds.find? fun d => d.kind = kind.toNat) = none) :
    stepSlot s p rs kind (entered s p.core 3) = .bad ⟨9, Config.stepMask kind.toNat, 0⟩ := by
  simp only [stepSlot, afterLoad, Core.ldWait_prog, hd]

/-- A STEP begins a step of its kind with the limits that its program declares. -/
theorem answers_step (hr : ready s p.core) (hv : p.rsv = false)
    (hd : ((entered s p.core 3).prog.kinds.find? fun d => d.kind = kind.toNat) = some d)
    (hcap : d.maxSets ≤ (s.region ((ownerOf s p.core).getD 0)).setCap) : answers (.step p rs kind) s fun t =>
      let q := (t.core p.core).seq
      q.stepKind = kind ∧ q.stepReq = (entered s p.core 3).pre.reg rs ∧ q.asr = 0 ∧ q.stepAcc = 0 ∧ q.stepFrom = s.now ∧
        q.maxSets = d.maxSets ∧ q.budget = d.budget ∧ q.phaseLim = d.phases ∧ q.phases = 0 := by
  obtain ⟨w, hgo⟩ := stepSlot_go (rs := rs) hd hcap
  refine ⟨_, exec_step p rs kind s, ?_⟩
  rw [hv, issue_go hr.1 (Core.fetchFail_none hr.2) hgo]
  obtain ⟨q, hq⟩ := beganStep_core s p.core (s.setCore p.core
    (({ beginStep ((entered s p.core 3).ldWait s.now [rs]) s.now kind ((entered s p.core 3).pre.reg rs) d with watchN := w } : Core).endSlot
      p.last s.now))
  rw [hq, State.core_setCore_same]
  simp [beginStep]

/-- A STEP of a kind that the program does not declare faults. -/
theorem answers_step_undeclared (hr : ready s p.core) (hv : p.rsv = false)
    (hd : ((entered s p.core 3).prog.kinds.find? fun d => d.kind = kind.toNat) = none) (hidle : (s.core p.core).active = []) :
    answers (.step p rs kind) s fun t => (t.core p.core).run = .stopped ∧ ∃ r, (t.core p.core).report = some r ∧ r.cause = 9 := by
  refine ⟨_, exec_step p rs kind s, ?_⟩
  rw [hv, issue_bad hr.1 (Core.fetchFail_none hr.2) (stepSlot_bad hd)]
  obtain ⟨hrun, -, -, r, hreport, hcause, -⟩ := stepFault_entered hr (slot := 3) hidle ⟨9, Config.stepMask kind.toNat, 0⟩
  obtain ⟨q, hq⟩ := beganStep_core s p.core
    (stepFault (s.setCore p.core ((s.core p.core).enter 3 s.now)) p.core ⟨9, Config.stepMask kind.toNat, 0⟩ 3 true)
  rw [hq]
  exact ⟨hrun, r, hreport, hcause⟩

end

/-! ## TAG (R204) -/

/-- TAG names the operation that a dispatch slot of its bundle has queued. -/
theorem answers_tag {s : State} {p : Place} {slotB : Bool} {id : BitVec 20} {b : Bundle} {o : QOp} (hr : ready s p.core)
    (hv : p.rsv = false) (hb : (entered s p.core 3).bundle = some b) (hnum : (if slotB then b.opB else b.opA) = some o.num)
    (ho : o ∈ (entered s p.core 3).seq.queued) (hdest : o.op.dest.isSome = true) : answers (.tag p slotB id) s fun t =>
      (t.core p.core).run = .issuing ∧ ∃ o' ∈ (t.core p.core).seq.queued, o'.num = o.num ∧ o'.op = o.op ∧ o'.tag = some id.toNat := by
  obtain ⟨w, hw⟩ := foldl_noteDump_eq (dumpsFor s (entered s p.core 3) id.toNat) (entered s p.core 3)
  refine answers_go hr rfl hv (f := fun k => _) (if_pos ?hit) ?_
  case hit =>
    simp only [hb, hnum, Bool.or_eq_true, List.any_eq_true]
    exact .inl ⟨o, ho, by simp [hdest]⟩
  rw [State.core_setCore_same, hw]
  simp only [Core.endSlot_run, Core.endSlot_seq_queued, hb, hnum]
  refine ⟨by simp [entered, Core.canIssue_run hr.1], _, List.mem_map_of_mem ho, ?_⟩
  simp [hdest]

/-- Settles O16: `answers_step`, `answers_step_undeclared` and `answers_tag`. -/
theorem stepAndTag : Obligations.StepAndTag := by
  unfold Obligations.StepAndTag
  intro s p rs kind slotB id hr hv k
  exact ⟨fun d hd hcap => answers_step hr hv hd hcap, fun hd hidle => answers_step_undeclared hr hv hd hidle,
    fun b o hb hnum ho hdest => answers_tag hr hv hb hnum ho hdest⟩

/-! ## What the sync slot leaves unchanged (R169, R196, R199) -/

/-- A core with the memories, accumulators and registers of another, and with its mask unless it has begun a step. -/
structure Core.SyncKeeps (step : Prop) (k k' : Core) : Prop where
  mem : k'.mem = k.mem
  acc : k'.acc = k.acc
  regs : k'.seq.regs = k.seq.regs
  descs : k'.seq.descs = k.seq.descs
  asr : ¬ step → k'.seq.asr = k.seq.asr

section
variable {step : Prop}

theorem Core.SyncKeeps.trans {k k' k'' : Core} (h : SyncKeeps step k k') (h' : SyncKeeps step k' k'') : SyncKeeps step k k'' :=
  ⟨h'.mem.trans h.mem, h'.acc.trans h.acc, h'.regs.trans h.regs, h'.descs.trans h.descs, fun hstep => (h'.asr hstep).trans (h.asr hstep)⟩

theorem syncKeeps_of_steady {k k' : Core} (h : k.Steady k') : Core.SyncKeeps step k k' := by
  obtain ⟨hmem, hacc, -⟩ := h.data
  exact ⟨hmem, hacc, h.regs, h.descs, fun _ => h.asr⟩

/-- A sync slot whose core goes on issuing changes its core alone, and there what its slot does. -/
theorem sync_issuing_leaves {s : State} {core opcode : Nat} {last rsv : Bool} {f : Core → SlotRes} (hr : ready s core)
    (hf : SlotLeaves (Core.SyncKeeps step (entered s core 3)) (f (entered s core 3)))
    (hrun : ((issue s core 3 opcode last rsv f).core core).run = .issuing) :
    AtCore core s (issue s core 3 opcode last rsv f) ∧
      Core.SyncKeeps step (s.core core) ((issue s core 3 opcode last rsv f).core core) := by
  have henter : Core.SyncKeeps step (s.core core) (entered s core 3) := syncKeeps_of_steady (Core.steady_enter _ _ _)
  obtain ⟨k, ht, hk⟩ := issuing_leaves (Q := Core.SyncKeeps step (s.core core)) hr hf
    (fun k hk => henter.trans (hk.trans (syncKeeps_of_steady (k.steady_endSlot _ _))))
    (fun k w hk => henter.trans (hk.trans (syncKeeps_of_steady (k.steady_hold _ _ _)))) hrun
  rw [ht, State.core_setCore_same]
  exact ⟨atCore_setCore s core k, hk⟩

theorem sync_leaves {s : State} {core opcode : Nat} {last rsv : Bool} {f : Core → SlotRes} {c : Instr} (hr : ready s core)
    (he : exec c s = .next (issue s core 3 opcode last rsv f))
    (hf : SlotLeaves (Core.SyncKeeps step (entered s core 3)) (f (entered s core 3))) (t : State) (ht : exec c s = .next t)
    (hrun : (t.core core).run = .issuing) : AtCore core s t ∧ Core.SyncKeeps step (s.core core) (t.core core) := by
  obtain rfl := Host.Outcome.next.inj (he.symm.trans ht)
  exact sync_issuing_leaves hr hf hrun

theorem stepSlot_leaves (s : State) (p : Place) (rs : BitVec 5) (kind : W16) (hstep : step) :
    SlotLeaves (Core.SyncKeeps step (entered s p.core 3)) (stepSlot s p rs kind (entered s p.core 3)) := by
  obtain ⟨hmem, hacc, hregs, hdescs, -⟩ : Core.SyncKeeps step (entered s p.core 3) ((entered s p.core 3).ldWait s.now [rs]) :=
    syncKeeps_of_steady (Core.steady_ldWait _ _ _)
  simp only [stepSlot, afterLoad]
  split
  · trivial
  · refine .ite (fun _ => trivial) fun _ => ?_
    obtain ⟨w, hw⟩ := countWatches_eq s ((ownerOf s p.core).getD 0) (beginStep ((entered s p.core 3).ldWait s.now [rs]) s.now kind
      (((entered s p.core 3).ldWait s.now [rs]).pre.reg rs) _)
    rw [hw]
    exact ⟨hmem, hacc, hregs, hdescs, fun h => absurd hstep h⟩

theorem step_leaves {s : State} {p : Place} {rs : BitVec 5} {kind : W16} (hr : ready s p.core) (hstep : step) (t : State)
    (ht : exec (.step p rs kind) s = .next t) (hrun : (t.core p.core).run = .issuing) :
    AtCore p.core s t ∧ Core.SyncKeeps step (s.core p.core) (t.core p.core) := by
  obtain rfl := Host.Outcome.next.inj ((exec_step p rs kind s).symm.trans ht)
  obtain ⟨q, hq⟩ := beganStep_core s p.core (issue s p.core 3 0x05 p.last p.rsv (stepSlot s p rs kind))
  rw [hq] at hrun ⊢
  obtain ⟨hat, hmem, hacc, hregs, hdescs, -⟩ := sync_issuing_leaves hr (stepSlot_leaves s p rs kind hstep) hrun
  exact ⟨hat.trans (atCore_beganStep s p.core _), hmem, hacc, hregs, hdescs, fun h => absurd hstep h⟩

theorem tag_leaves {s : State} {p : Place} {slotB : Bool} {id : BitVec 20} (hr : ready s p.core) (t : State)
    (ht : exec (.tag p slotB id) s = .next t) (hrun : (t.core p.core).run = .issuing) :
    AtCore p.core s t ∧ Core.SyncKeeps step (s.core p.core) (t.core p.core) := by
  refine sync_leaves hr rfl ?_ t ht hrun
  refine .ite (fun _ => ?_) fun _ => trivial
  obtain ⟨w, hw⟩ := foldl_noteDump_eq (dumpsFor s (entered s p.core 3) id.toNat) (entered s p.core 3)
  rw [hw]
  exact ⟨rfl, rfl, rfl, rfl, fun _ => rfl⟩

end

theorem syncInstr_leaves {s : State} {p : Place} {idx : BitVec 15} {rs : BitVec 5} {one outb : Bool} {q : BitVec 3} {n : BitVec 6}
    {mask : BitVec 8} {kind : W16} {id : BitVec 20} (hr : ready s p.core) :
    ∀ c ∈ [Instr.syncWait p idx rs, .syncSignal p idx rs one, .qwait p outb q n, .fence p mask, .step p rs kind, .tag p one id],
      ∀ t, exec c s = .next t → (t.core p.core).run = .issuing →
        AtCore p.core s t ∧ Core.SyncKeeps (c = .step p rs kind) (s.core p.core) (t.core p.core) := by
  have wait {step : Prop} : Core.SyncKeeps step (entered s p.core 3) ((entered s p.core 3).ldWait s.now [rs]) :=
    syncKeeps_of_steady (Core.steady_ldWait _ _ _)
  have same {step : Prop} : Core.SyncKeeps step (entered s p.core 3) (entered s p.core 3) := syncKeeps_of_steady (Core.steady_refl _)
  simp only [List.forall_mem_cons]
  refine ⟨sync_leaves hr rfl ?syncWait, sync_leaves hr rfl ?syncSignal, sync_leaves hr rfl ?qwait, sync_leaves hr rfl ?fence,
    step_leaves hr trivial, tag_leaves hr, List.forall_mem_nil _⟩
  case syncWait =>
    simp only [afterLoad]
    split
    · trivial
    · exact .ite (fun _ => trivial) fun _ => .ite (fun _ => wait) fun _ => wait
  case syncSignal =>
    simp only [afterLoad]
    split
    · trivial
    · exact .ite (fun _ => wait) fun _ => wait.trans ⟨rfl, rfl, rfl, rfl, fun _ => rfl⟩
  case qwait => exact .ite (fun _ => trivial) fun _ => .ite (fun _ => same) fun _ => same
  case fence => exact .ite (fun _ => same) fun _ => same

/-- Settles O17: each instruction by `syncInstr_leaves`. -/
theorem syncFrame : Obligations.SyncFrame := by
  unfold Obligations.SyncFrame
  intro s p idx rs one outb q n mask kind id hr c hc t ht hrun
  obtain ⟨hat, hk⟩ := syncInstr_leaves hr c hc t ht hrun
  exact ⟨hat.syncs, hat.regions, hat.host, hat.core, hk.mem, hk.acc, hk.regs, hk.descs, hk.asr⟩

end Sys2Proof.Proofs
end

section
/-!
SUPPORT. What the effects of an operation leave of its core: its sequencer, its hold, the operations in progress, and, but for the
operations that send, its output queues (R179 to R191).
-/
namespace Sys2Proof.Machine

/-- A core k' that work of the engines of a core k has made: its sequencer, its run state, its hold and what is in progress stand, and so
do its output queues where nothing is sent. -/
structure Core.Worked (sends : Prop) (k k' : Core) : Prop where
  seq : k'.seq = k.seq
  run : k'.run = k.run
  held : k'.held = k.held
  active : k'.active = k.active
  oqs : ¬ sends → k'.oqs = k.oqs

/-- Every effect of a list is work of the engines. -/
def EffWorks (sends : Prop) (l : Effects) : Prop := ∀ f ∈ l, ∀ k k', Core.Worked sends k k' → Core.Worked sends k (f k')

section
variable {sends : Prop} {k k' : Core}

theorem Core.Worked.refl (k : Core) : k.Worked sends k := ⟨rfl, rfl, rfl, rfl, fun _ => rfl⟩

theorem Core.Worked.frame {mem acc accStat badWords softWords router ctrs ovf ae posts iqs holds} (h : k.Worked sends k') :
    k.Worked sends { k' with
      mem := mem, acc := acc, accStat := accStat, badWords := badWords, softWords := softWords, router := router, ctrs := ctrs, ovf := ovf,
      ae := ae, posts := posts, iqs := iqs, holds := holds } :=
  ⟨h.seq, h.run, h.held, h.active, h.oqs⟩

theorem Core.Worked.foldl {α : Type} {l : List α} {f : Core → α → Core} (h : k.Worked sends k')
    (hf : ∀ k', ∀ x ∈ l, k.Worked sends k' → k.Worked sends (f k' x)) : k.Worked sends (l.foldl f k') :=
  List.foldlRecOn l f h fun k' hk x hx => hf k' x hx hk

theorem EffWorks.nil : EffWorks sends [] := fun _ hf => absurd hf List.not_mem_nil

theorem EffWorks.cons {f : Core → Core} {l : Effects} (hf : ∀ k k' : Core, k.Worked sends k' → k.Worked sends (f k')) (h : EffWorks sends l) :
    EffWorks sends (f :: l) :=
  List.forall_mem_cons.2 ⟨hf, h⟩

theorem EffWorks.append {l m : Effects} (h : EffWorks sends l) (hm : EffWorks sends m) : EffWorks sends (l ++ m) :=
  List.forall_mem_append.2 ⟨h, hm⟩

theorem EffWorks.map {α : Type} {l : List α} {f : α → Core → Core} (hf : ∀ (x : α) (k k' : Core), k.Worked sends k' → k.Worked sends (f x k')) :
    EffWorks sends (l.map f) :=
  List.forall_mem_map.2 fun x _ => hf x

theorem EffWorks.flatMap {α : Type} {l : List α} {f : α → Effects} (hf : ∀ x, EffWorks sends (f x)) : EffWorks sends (l.flatMap f) := by
  intro g hg
  obtain ⟨x, -, hx⟩ := List.mem_flatMap.1 hg
  exact hf x g hx

theorem EffWorks.take {l : Effects} {n : Nat} (h : EffWorks sends l) : EffWorks sends (l.take n) := fun f hf => h f (List.mem_of_mem_take hf)

theorem Core.Worked.effects {l : Effects} (hk : k.Worked sends k') (h : EffWorks sends l) : k.Worked sends (l.run k') :=
  hk.foldl fun k' f hf hk => h f hf k k' hk

/-! ## Flags, counters and lines -/

theorem Core.Worked.count {b i n : Nat} (h : k.Worked sends k') : k.Worked sends (k'.count b i n) := by
  unfold Core.count
  split
  · exact h
  · exact h.frame

theorem Core.Worked.countHeld {now : Nat} (h : k.Worked sends k') : k.Worked sends (k'.countHeld now) := by
  unfold Core.countHeld
  split
  · exact h.count
  · exact h

theorem Core.Worked.accSet {t e : Nat} {v : W64} (h : k.Worked sends k') : k.Worked sends (k'.accSet t e v) := h.frame
theorem Core.Worked.statPut {t : Nat} {v : W64} (h : k.Worked sends k') : k.Worked sends (k'.statPut t v) := h.frame
theorem Core.Worked.sat {t : Nat} (h : k.Worked sends k') : k.Worked sends (k'.sat t) := h.statPut
theorem Core.Worked.accClear {t : Nat} (h : k.Worked sends k') : k.Worked sends (k'.accClear t) := .statPut h.frame

theorem Core.Worked.accAdd {t e : Nat} {v : Int} (h : k.Worked sends k') : k.Worked sends (k'.accAdd t e v) := by
  simp only [Core.accAdd]
  split
  · exact h.accSet.sat
  · exact h.accSet

theorem Core.Worked.writeAcc {n key : Nat} {b : Bytes} (h : k.Worked sends k') : k.Worked sends (writeAcc n key b k') := by
  induction n generalizing key b k' with
  | zero => exact h
  | succ n ih => exact ih h.accSet

theorem Core.Worked.writeStat {n i : Nat} {b : Bytes} (h : k.Worked sends k') : k.Worked sends (writeStat n i b k') := by
  induction n generalizing i b k' with
  | zero => exact h
  | succ n ih =>
    rw [Machine.writeStat]
    refine ih ?_
    split
    · exact h.statPut
    · exact h

theorem Core.Worked.putBytes {a : Nat} {b : Bytes} (h : k.Worked sends k') : k.Worked sends (k'.putBytes a b) := h.frame

theorem Core.Worked.writeLine {r c : Nat} {b : Bytes} (h : k.Worked sends k') : k.Worked sends (k'.writeLine r c b) := by
  simp only [Core.writeLine]
  split
  · exact h.putBytes
  · split
    · exact h.writeAcc
    · split
      · exact h.writeStat
      · exact h

theorem Core.Worked.writeLines {ls : List (Int × Nat)} {bs : List Bytes} (h : k.Worked sends k') : k.Worked sends (writeLines ls bs k') := by
  induction ls generalizing bs k' with
  | nil => exact h
  | cons l ls ih => cases bs with
    | nil => exact h
    | cons b bs => exact ih h.writeLine

theorem Core.Worked.readSoftLines {ls : List (Int × Nat)} (h : k.Worked sends k') : k.Worked sends (k'.readSoftLines ls) := by
  unfold Core.readSoftLines
  split
  · exact h
  · exact h.count

/-! ## The engines -/

theorem EffWorks.counted {b : Nat} {e : Effects} (h : EffWorks sends e) : EffWorks sends (counted b e) :=
  h.append (.cons (fun _ _ hk => hk.count) .nil)

theorem EffWorks.veWrite {w : Walk} {vs : List (Nat × Bool)} : EffWorks sends (veWrite w vs) := .map fun _ _ _ h => h.writeLine.count

theorem EffWorks.satLines {w : Walk} {vs : List (Nat × Bool)} : EffWorks sends (satLines w vs) := by
  intro f hf k k' hk
  obtain ⟨x, hx, rfl⟩ := List.mem_map.1 hf
  have hmem : x.1.1 ∈ Machine.veWrite w vs := (List.of_mem_zip (List.fst_mem_of_mem_zipIdx hx)).1
  exact (EffWorks.veWrite _ hmem k k' hk).foldl fun _ _ _ hk => hk.sat

theorem EffWorks.veArithEff {dd da db : Desc} {f : Nat} {s : W32} : EffWorks sends (veArithEff k dd da db f s) := by
  simp only [Machine.veArithEff]
  split
  · exact .cons (fun _ _ hk => hk.count) .satLines
  · exact .cons (fun _ _ hk => hk.count) .veWrite

theorem EffWorks.veNormEff {dd da db : Desc} {f : Nat} {eps : W32} : EffWorks sends (veNormEff k dd da db f eps) :=
  .cons (fun _ _ hk => hk.count.count) .veWrite

theorem EffWorks.veActEff {dd da db : Desc} {f : Nat} : EffWorks sends (veActEff k dd da db f) :=
  .cons (fun _ _ hk => hk.count.count) .veWrite

theorem EffWorks.veFuncEff {dd da : Desc} {f : Nat} : EffWorks sends (veFuncEff k dd da f) := .cons (fun _ _ hk => hk.count.count) .veWrite
theorem EffWorks.veCvtEff {dd da : Desc} : EffWorks sends (veCvtEff k dd da) := .cons (fun _ _ hk => hk.count.count) .veWrite

theorem EffWorks.accOutEff {t : Nat} {dd : Desc} {mult : W32} {st : Bool} {ds : Desc} : EffWorks sends (accOutEff k t dd mult st ds) := by
  refine .cons (fun _ _ hk => hk.count.count) (.append .veWrite ?_)
  split
  · exact .veWrite
  · exact .nil

theorem EffWorks.accAddEff {t : Nat} {ds : Desc} : EffWorks sends (accAddEff k t ds) :=
  .cons (fun _ _ hk => hk.count) (.map fun _ _ _ hk => hk.accAdd)

theorem EffWorks.tmCopyEff {dd ds : Desc} : EffWorks sends (tmCopyEff k dd ds) :=
  .append (.map fun _ _ _ hk => hk.writeLine) (.cons (fun _ _ hk => hk.count.count.count) .nil)

theorem EffWorks.tmFillEff {dd : Desc} {pat : W64} {size : Nat} : EffWorks sends (tmFillEff dd pat size) :=
  .append (.map fun _ _ _ h => h.writeLine) (.cons (fun _ _ h => h.count) .nil)

theorem EffWorks.shaEff {ds : Desc} {a : W32} {fin : Bool} : EffWorks sends (shaEff k ds a fin) := by
  simp only [Machine.shaEff]
  split
  · exact .cons (fun _ _ hk => hk.writeLine.count.count) .nil
  · exact .cons (fun _ _ hk => hk.writeLine.count) .nil

theorem EffWorks.cimEff {t : Nat} {clear : Bool} {plan : EvalPlan} : EffWorks sends (cimEff t clear plan) := by
  refine .append ?_ (.flatMap fun _ => .map fun _ _ _ h => h.accAdd)
  split
  · exact .cons (fun _ _ h => h.accClear) .nil
  · exact .nil

theorem EffWorks.aeQkEff {step : Nat} {dd da db : Desc} {t : W32} : EffWorks sends (aeQkEff k step dd da db t) := by
  simp only [Machine.aeQkEff]
  split
  · exact .cons (fun _ _ hk => hk.count.count) (.cons (fun _ _ hk => hk.frame) .nil)
  · refine .append .veWrite (.cons (fun k k' h => ?_) .nil)
    split
    · refine .count ?_
      split
      · exact .count (.count h.frame)
      · exact .count (.count (.count h.frame))
    · split
      · exact .count (.count h.frame)
      · exact .count (.count (.count h.frame))

theorem EffWorks.aeSmEff {dd da : Desc} {st : W32} : EffWorks sends (aeSmEff k dd da st) := by
  simp only [Machine.aeSmEff]
  split
  · exact .nil
  · refine .append (.append .veWrite ?_) (.cons (fun _ _ hk => hk.count) .nil)
    split
    · exact .cons (fun _ _ hk => hk.count) .nil
    · exact .append (.map fun _ _ _ hk => hk.putBytes) (.cons (fun _ _ hk => hk.frame) .nil)

theorem EffWorks.aePvEff {dd da db : Desc} : EffWorks sends (aePvEff k dd da db) := by
  simp only [Machine.aePvEff]
  split
  · exact .nil
  · exact .map fun _ _ _ hk => hk.writeLines

theorem EffWorks.spEff {dd ds : Desc} {a : W32} : EffWorks sends (spEff k dd ds a) := by
  refine .append (.map fun _ _ _ hk => hk.writeLine) (.cons (fun k k' h => .count (.count (.count ?_))) .nil)
  split
  · exact .count (.count h.frame)
  · exact .count (.count (.count (.count h.frame)))

/-- The effects of an operation; Q.PUSH, RMREAD and NRED send. -/
theorem EffWorks.opEffects {a : ActOp} (hpush : ∀ oq ad, a.q.op = .qPush oq ad → sends)
    (hread : ∀ oq w v m n, a.q.op = .rmread oq w v m n → sends) (hred : ∀ oq w v m n, a.q.op = .nred oq w v m n → sends) :
    EffWorks sends (opEffects k a) := by
  have sent {k k' : Core} {q : Nat} {l : List OqEntry} (hs : sends) (h : k.Worked sends k') : k.Worked sends (k'.setOq q l) :=
    ⟨h.seq, h.run, h.held, h.active, fun hn => absurd hs hn⟩
  simp only [Machine.opEffects]
  split
  case h_1 => exact .counted .tmCopyEff
  case h_2 => exact .counted .tmFillEff
  case h_3 => exact .shaEff
  case h_4 => exact .counted .veArithEff
  case h_5 => exact .counted .veNormEff
  case h_6 => exact .counted .veActEff
  case h_7 => exact .counted .veFuncEff
  case h_8 => exact .counted .veCvtEff
  case h_9 => exact .cons (fun _ _ hk => hk.accClear.count) .nil
  case h_10 => exact .counted .accOutEff
  case h_11 => exact .counted .accAddEff
  case h_12 => exact .aeQkEff
  case h_13 => exact .aeSmEff
  case h_14 => exact .aePvEff
  case h_15 => exact .spEff
  case h_16 =>
    split
    · exact .cimEff
    · exact .nil
  case h_17 hop => exact .cons (fun _ _ hk => (sent (hpush _ _ hop) hk).frame) (.cons (fun _ _ hk => hk.count) .nil)
  case h_18 => exact .cons (fun _ _ hk => .count hk.frame) (.map fun _ _ _ hk => hk.writeLine)
  case h_19 hop => exact .cons (fun _ _ hk => (sent (hread _ _ _ _ _ hop) hk).count) .nil
  case h_20 hop => exact .cons (fun _ _ hk => (sent (hred _ _ _ _ _ hop) hk).count) .nil

/-- Operations that stop keep a first part of their effects. -/
theorem Core.Worked.stopActive {base time eng : Nat} (h : k.Worked True k') : k.Worked True (stopActive base time eng k') := by
  simp only [Machine.stopActive]
  refine h.foldl fun k1 x _ hk => ?_
  split
  · exact hk
  · exact hk.effects (.take (.opEffects (fun _ _ _ => trivial) (fun _ _ _ _ _ _ => trivial) fun _ _ _ _ _ _ => trivial))

end

/-! ## A core that stops (R206) -/

/-- A core that has stopped for a fault: it issues nothing, nothing is queued, held, in progress or outstanding, and it reports the fault with
the request of its step. -/
structure Core.Faulted (k : Core) (e : Fail) (k' : Core) : Prop where
  run : k'.run = .stopped
  queued : k'.seq.queued = []
  sigBuf : k'.seq.sigBuf = []
  active : k'.active = []
  oqs : k'.oqs = []
  held : k'.held = none
  step : k'.seq.stepReq = k.seq.stepReq
  report : ∃ r, k'.report = some r ∧ r.cause = e.cause ∧ r.aux0 = e.aux0 ∧ r.req = k.seq.stepReq

theorem Core.halt_stepReq (k : Core) (base now time eng : Nat) : (k.halt base now time eng).seq.stepReq = k.seq.stepReq := by
  have h : k.Worked True (stopActive base time eng (k.countHeld now)) := (Core.Worked.refl k).countHeld.stopActive
  simp only [Core.halt, h.seq]

theorem Core.faulted (k : Core) (e : Fail) (pc slot : Nat) (w : W64) (base now time eng : Nat) :
    k.Faulted e (k.reported e pc slot w (k.halt base now time eng)) where
  run := by simp [Core.reported, Core.halt]
  queued := by simp [Core.reported, Core.halt]
  sigBuf := by simp [Core.reported, Core.halt]
  active := by simp [Core.reported, Core.halt]
  oqs := by simp [Core.reported, Core.halt]
  held := by simp [Core.reported, Core.halt]
  step := by simp [Core.reported, Core.halt_stepReq]
  report := ⟨_, rfl, rfl, rfl, rfl⟩

theorem stepFault_faulted {s : State} {c : Nat} (e : Fail) (slot : Nat) (h : (s.core c).run = .issuing) :
    (s.core c).Faulted e ((stepFault s c e slot false).core c) := by
  rw [stepFault, stepFaultAt_core e _ slot false h]
  exact Core.faulted _ _ _ _ _ _ _ _ _

theorem stepFaultFrom_faulted {s : State} {c : Nat} (e : Fail) (issuer : Option (Nat × Nat)) (h : (s.core c).run = .issuing) :
    (s.core c).Faulted e ((stepFaultFrom s c e issuer).core c) := by
  obtain ⟨pc, slot, hk⟩ := stepFaultFrom_core e issuer h
  rw [hk]
  exact Core.faulted _ _ _ _ _ _ _ _ _

theorem State.haltAt_core (s : State) (c time eng : Nat) (f : Core → Core) :
    (s.haltAt c time eng f).core c = f ((s.core c).halt s.free s.now time eng) := by
  simp [State.haltAt, State.draw]

end Sys2Proof.Machine
end

section
/-!
SUPPORT. The statement of the limits of a step (R200, R203, R205, R206).
-/
namespace Sys2Proof.Proofs
open Sys2Proof.Machine Sys2Proof.Safety

theorem waitMet_syncWait {s : State} {k : Core} {i : Nat} {v : W32} (h : k.held = some (.syncWait i v)) :
    waitMet s k = true ↔ ((s.sync i).value.toNat + 2 ^ 32 - v.toNat) % 2 ^ 32 < 2 ^ 31 := by
  rw [waitMet, h]
  exact reached_iff _ _

theorem waitMet_syncWait_false {s : State} {k : Core} {i : Nat} {v : W32} (h : k.held = some (.syncWait i v))
    (hv : 2 ^ 31 ≤ ((s.sync i).value.toNat + 2 ^ 32 - v.toNat) % 2 ^ 32) : waitMet s k = false :=
  Bool.eq_false_iff.2 fun hmet => absurd ((waitMet_syncWait h).1 hmet) (Nat.not_lt.2 hv)

theorem waiting_of_syncWait {k : Core} {i : Nat} {v : W32} (h : k.held = some (.syncWait i v)) : k.waiting = true := by
  rw [Core.waiting, h]

/-- Settles O19: each limit stops its core, which is then `Core.Faulted`. -/
theorem stepLimits : Obligations.StepLimits := by
  unfold Obligations.StepLimits
  intro s c hrun faults
  have fault {i : Instr} {t : State} {e : Fail} (he : exec i s = .next t) (h : (s.core c).Faulted e (t.core c)) : faults i e.cause := by
    obtain ⟨r, hreport, hcause, -, hreq⟩ := h.report
    exact ⟨t, he, h.run, h.queued, h.sigBuf, h.active, h.held, r, hreport, hcause, hreq.trans h.step.symm⟩
  refine ⟨fun hbudget hlt => ?declared, fun hbudget hlt => ?default, fun i v hheld hv hlt => ?wait, fun a at_ hover hnow => ?phases⟩
  case declared =>
    have he : exec (.budgetOverrun c) s = .next (stepFault s c ⟨11, (s.core c).seq.budget, 0⟩ 0 false) := by
      show execBudgetOverrun c s = _
      simp only [execBudgetOverrun, if_neg hbudget]
      exact if_pos ⟨hrun, hlt⟩
    exact fault he (stepFault_faulted _ _ hrun)
  case default =>
    have he : exec (.budgetOverrun c) s = .next (stepFault s c ⟨11, s.setting 0x2110 1 1400000, 0⟩ 0 false) := by
      show execBudgetOverrun c s = _
      simp only [execBudgetOverrun, if_pos hbudget]
      exact if_pos ⟨hrun, hlt⟩
    exact fault he (stepFault_faulted _ _ hrun)
  case wait =>
    have he : exec (.waitLimit c) s = .next (stepFault s c ⟨16, waitAux (s.core c), 0⟩ 3 false) :=
      if_pos ⟨hrun, waiting_of_syncWait hheld, by rw [waitMet_syncWait_false hheld hv]; rfl, hlt⟩
    exact fault he (stepFault_faulted _ _ hrun)
  case phases =>
    have he : exec (.activityOverrun c) s = .next (s.haltAt c at_ a.q.eng
        ((s.core c).reported ⟨10, ((s.core c).seq.phaseOf a.q.step).2, 0⟩ a.q.bundle a.q.slot s.almanac)) := by
      show execActivityOverrun c s = _
      simp only [execActivityOverrun, hover]
      exact if_neg (by simp only [hrun, ne_eq, not_true_eq_false, false_or]; omega)
    refine fault (e := ⟨10, ((s.core c).seq.phaseOf a.q.step).2, 0⟩) he ?_
    rw [State.haltAt_core]
    exact Core.faulted _ _ _ _ _ _ _ _ _

end Sys2Proof.Proofs
end

section
/-!
SUPPORT. The start of an operation and what it leaves of its core (R170, R179, R180).
-/
namespace Sys2Proof.Machine

section
variable {sends : Prop} {k k' : Core}

theorem Core.Worked.trans {k'' : Core} (h : k.Worked sends k') (h' : k'.Worked sends k'') : k.Worked sends k'' :=
  ⟨h'.seq.trans h.seq, h'.run.trans h.run, h'.held.trans h.held, h'.active.trans h.active, fun hn => (h'.oqs hn).trans (h.oqs hn)⟩

theorem Core.Worked.setSet {i : Nat} {x : ASet} (h : k.Worked sends k') : k.Worked sends (k'.setSet i x) :=
  ⟨h.seq, h.run, h.held, h.active, h.oqs⟩
theorem Core.Worked.setArr {i : Nat} {x : Arr} (h : k.Worked sends k') : k.Worked sends (k'.setArr i x) :=
  ⟨h.seq, h.run, h.held, h.active, h.oqs⟩

theorem Core.Worked.countEval {set : Nat} {turn : Bool} {o : EvalOut} (h : k.Worked sends k') : k.Worked sends (countEval k' set turn o) :=
  h.count.count.count.count.count.count.count.count.count.count.count.count.count

theorem Core.Worked.sampleEval {set array rateLog now : Nat} {v : EvalIn} {o : EvalOut} (h : k.Worked sends k') :
    k.Worked sends (sampleEval k' set array rateLog now v o) := by
  simp only [Machine.sampleEval]
  split
  · exact h
  · split
    · exact h.setSet
    · split
      · exact h.setSet.count
      · exact h.setSet.setSet

end

theorem posted_postEvent (s : State) (code status result0 result1 : Nat) : Posted s (s.postEvent code status result0 result1) :=
  (Posted.foldl (fun s r => posted_postTo s _ r) _ s).trans (posted_sil _ _ _ _)

theorem postEvent_core (s : State) (code status result0 result1 c : Nat) : (s.postEvent code status result0 result1).core c = s.core c := by
  rw [State.core, (posted_postEvent s code status result0 result1).cores, State.core]

theorem noteFallback_worked (s : State) (c a : Nat) : (s.core c).Worked True ((noteFallback s c a).core c) := by
  have h : ((noteFallback s c a).core c) = (s.core c).setArr a { (s.core c).arr a with
      overflow := min (((s.core c).arr a).overflow + 1) (2 ^ 16 - 1)
      fallbacks := (((s.core c).arr a).fallbacks.filter fun t => s.now < t + 1000000000 * s.setting 0x5030 2 60) ++ [s.now] } := by
    simp only [noteFallback, State.precisionEvent, postEvent_core]
    split <;> exact State.core_setCore_same _ _ _
  rw [h]
  exact (Core.Worked.refl _).setArr

/-- A core whose operation q has started: it is in progress on its engine and queued no more. -/
def Core.started (k : Core) (eng : Nat) (a : ActOp) : Core :=
  { k with active := Tbl.set k.active eng a, seq := { k.seq with queued := k.seq.queued.filter fun x => x.num ≠ a.q.num } }

theorem startEval_worked (s : State) (c : Nat) (q : QOp) (tr : Bool) (a : Nat) (d : Desc) (nar : Bool) (m : Nat) :
    ∃ plan, ((s.core c).started q.eng ⟨q, some plan⟩).Worked True ((startEval s c q tr a d nar m).core c) := by
  unfold startEval
  split
  next base s1 e =>
    have hcore : s1.core c = s.core c := (congrArg (fun x : Nat × State => x.2.core c) e).symm
    extract_lets +onlyGivenNames _ _ _ _ _ _ plan _ k2 _ _ _ k5 s2
    refine ⟨plan, ?_⟩
    have hk2 : ((s.core c).started q.eng ⟨q, some plan⟩).Worked True k2 := by
      rw [← hcore]
      exact .refl _
    have hk5 : ((s.core c).started q.eng ⟨q, some plan⟩).Worked True k5 := by
      unfold k5
      split
      · exact hk2.countEval.sampleEval
      · exact hk2.countEval.sampleEval.setSet
    have hs2 : s2.core c = k5 := State.core_setCore_same _ _ _
    split
    · exact hs2 ▸ hk5
    · exact (hs2 ▸ hk5).trans (noteFallback_worked s2 c a)

/-- The operation that an engine can start next is one of that engine. -/
theorem ready?_eng {k : Core} {eng : Nat} {q : QOp} (h : k.ready? eng = some q) : q.eng = eng := by
  unfold Core.ready? at h
  split at h
  · cases h
  · split at h
    · cases h
    next q' hfind =>
      have heng : q'.eng = eng := by
        have hq := List.find?_some hfind
        simp only [Bool.and_eq_true, decide_eq_true_eq] at hq
        exact hq.1
      extract_lets issued at h
      split at h
      · cases h
      · split at h
        · extract_lets at h
          split at h
          · cases h
          · exact Option.some.inj h ▸ heng
        · exact Option.some.inj h ▸ heng

theorem resume_of_not_held {s : State} {c : Nat} (h : (s.core c).held = none) : resume s c = s := by
  simp [resume, h]

end Sys2Proof.Machine
end

section
/-!
SUPPORT. What sends, waits that requests bear and ends of holds leave of the placement of regions: everything (R183, R357).
-/
namespace Sys2Proof.Machine

theorem ownerOf_congr {s t : State} (h : t.regions = s.regions) (c : Nat) : ownerOf t c = ownerOf s c := by rw [ownerOf, h, ownerOf]

theorem placeAt_regions (s : State) (loc : Nat) (p : Packet) (col : Bool) : (placeAt s loc p col).regions = s.regions := by
  unfold placeAt
  split
  · split
    · rfl
    · rfl
  · rfl

theorem discardFault_regions (s : State) (loc : Nat) (p : Packet) : (discardFault s loc p).regions = s.regions := by
  simp only [discardFault]
  split
  · rfl
  · exact (atCore_stepFaultFrom _ _ _ _).regions

theorem inject_regions (s : State) (c : Nat) (p : Packet) : (inject s c p).regions = s.regions := by
  simp only [inject]
  split
  · exact placeAt_regions _ _ _ _
  · exact discardFault_regions _ _ _

theorem injectAll_regions (c : Nat) (ps : List Packet) (s : State) : (injectAll c ps s).regions = s.regions := by
  induction ps generalizing s with
  | nil => rfl
  | cons p ps ih => exact (ih _).trans (inject_regions s c p)

theorem sendHead_regions {s s' : State} {c q : Nat} (h : sendHead s c q = some s') : s'.regions = s.regions := by
  unfold sendHead at h
  extract_lets k at h
  split at h
  · cases h
  · split at h
    · exact Option.some.inj h ▸ inject_regions _ _ _
    · extract_lets at h
      split at h
      · cases h
      · split at h
        · exact Option.some.inj h ▸ (atCore_stepFaultFrom _ _ _ _).regions
        · split at h
          · exact Option.some.inj h ▸ inject_regions _ _ _
          · exact Option.some.inj h ▸ injectAll_regions _ _ _

theorem pumpQueue_regions (n : Nat) (s : State) (c q : Nat) : (pumpQueue n s c q).regions = s.regions := by
  induction n generalizing s with
  | zero => rfl
  | succ n ih =>
    rw [pumpQueue]
    split
    next s' hs' => exact (ih s').trans (sendHead_regions hs')
    · rfl

theorem pump_regions (s : State) (c : Nat) : (pump s c).regions = s.regions :=
  List.foldlRecOn (motive := fun t : State => t.regions = s.regions) _ _ rfl fun t ht q _ => (pumpQueue_regions 33 t c q).trans ht

theorem atCore_resume (s : State) (c : Nat) : AtCore c s (resume s c) := by
  unfold resume
  extract_lets k
  split
  · exact .refl c s
  · split
    · exact .refl c s
    · split
      · exact .refl c s
      · split
        · exact atCore_stepFault s c _ _ _
        · exact atCore_setCore s c _
    · split
      · exact .refl c s
      · exact atCore_setCore s c _
    · split
      · exact .refl c s
      · exact atCore_setCore s c _
    · split
      · exact atCore_setCore s c _
      · exact .refl c s
    · exact .refl c s
    · exact .refl c s

theorem settle_regions (s : State) (c : Nat) : (settle s c).regions = s.regions :=
  (atCore_resume (pump s c) c).regions.trans (pump_regions s c)

theorem namedCtxs_regions (s : State) (n : Nat) (req : W32) (seq : Option Nat) : (namedCtxs s n req seq).2.regions = s.regions := by
  unfold namedCtxs
  extract_lets live
  split
  · rfl
  · split
    · split
      · rfl
      · split
        split
        · rename_i h _ _ _
          exact (congrArg (fun x : Nat × State => x.2.regions) h).symm
        · rename_i h _ _
          exact (congrArg (fun x : Nat × State => x.2.regions) h).symm
    · rfl

theorem updCtx_regions (s : State) (c : Nat) (f : Ctx → Ctx) : (s.updCtx c f).regions = s.regions := by
  unfold State.updCtx
  split
  · rfl
  · rfl

theorem bearWait_regions (s : State) (c : Nat) (req : W32) (seq : Option Nat) (ns : Nat) (f : Ctx → Nat → Ctx) :
    (bearWait s c req seq ns f).regions = s.regions := by
  unfold bearWait
  split
  · rfl
  next n _ =>
    split
    · rfl
    · exact List.foldlRecOn (motive := fun t : State => t.regions = s.regions) _ _ (namedCtxs_regions s n req seq)
        fun t ht x _ => (updCtx_regions t x _).trans ht

theorem bearTuning_regions (s : State) (c : Nat) (a : ActOp) : (bearTuning s c a).regions = s.regions := by
  unfold bearTuning
  split
  · rfl
  · split
    · rfl
    · refine List.foldlRecOn (motive := fun t : State => t.regions = s.regions) _ _ rfl fun t ht x _ => ?_
      split
      · exact ht
      · exact (bearWait_regions _ _ _ _ _ _).trans ht

theorem tagDumps_regions (s : State) (c : Nat) (q : QOp) : (tagDumps s c q).regions = s.regions := by
  unfold tagDumps
  split
  · rfl
  · extract_lets
    split
    · rfl
    · rfl

end Sys2Proof.Machine
end

section
/-!
SUPPORT. The statement of what goes on inside a core: starts, effects, waits, signals and the stop of the clock (R170, R179, R180, R194
to R198).
-/
namespace Sys2Proof.Machine

/-! ## Operations start -/

/-- An operation that passes its checks starts. -/
theorem exec_operationStart {s : State} {c eng : Nat} {q : QOp} (hready : (s.core c).ready? eng = some q)
    (hyields : yieldsToSlice s c (s.core c) q = false) (hawaits : awaitsCompaction s c q = false)
    (hcheck : startCheck s c (s.core c) q = none) : ∃ t plan, execOperationStart c eng s = .next (resume t c) ∧
      ((s.core c).started eng ⟨q, plan⟩).Worked True (t.core c) := by
  have hgo : ¬ (yieldsToSlice s c (s.core c) q = true ∨ awaitsCompaction s c q = true) := by simp [hyields, hawaits]
  simp only [execOperationStart, hready, if_neg hgo, hcheck]
  split
  · obtain ⟨plan, hplan⟩ := startEval_worked s c q _ _ _ _ _
    rw [ready?_eng hready] at hplan
    exact ⟨_, _, rfl, hplan⟩
  · refine ⟨_, none, rfl, ?_⟩
    rw [State.core_setCore_same]
    exact .refl _

/-! ## Operations take effect -/

theorem exec_operationTakesEffect {s : State} {c eng : Nat} {a : ActOp} (ha : Tbl.find (s.core c).active eng = some a)
    (hrun : (s.core c).run = .issuing) (hclock : (s.core c).clockOn = true) (hlimit : (s.core c).pastLimit a = false) :
    let k := s.core c
    let k := (Effects.run (opEffects k a) (k.readSoftLines (opReads k a))).opDone eng a s.now
    let t := settle (tagDumps (bearTuning (s.setCore c k) c a) c a.q) c
    execOperationTakesEffect c eng s =
      .next (match ownerOf s c with | some n => if 5 ≤ eng then advance t n else t | none => t) := by
  have hgo : ¬ ((s.core c).run ≠ .issuing ∨ (!(s.core c).clockOn) = true ∨ (s.core c).pastLimit a = true) := by
    simp [hrun, hclock, hlimit]
  have howner : ownerOf (settle (tagDumps (bearTuning (s.setCore c
      ((Effects.run (opEffects (s.core c) a) ((s.core c).readSoftLines (opReads (s.core c) a))).opDone eng a s.now)) c a) c a.q) c) c =
      ownerOf s c :=
    ownerOf_congr ((settle_regions _ _).trans ((tagDumps_regions _ _ _).trans (bearTuning_regions _ _ _))) c
  unfold execOperationTakesEffect
  simp only [ha]
  rw [if_neg hgo, howner] <;> rfl

/-- An operation that is no evaluation runs no phase. -/
theorem pastLimit_of_no_plan {k : Core} {a : ActOp} (h : a.plan = none) : k.pastLimit a = false := by
  simp [Core.pastLimit, ActOp.phases, h]

/-- The core on which an operation of an engine other than a converter set has taken effect. -/
theorem opDone_of_lt {k : Core} {eng : Nat} (h : eng < 5) (a : ActOp) (now : Nat) : k.opDone eng a now =
    { k with active := Tbl.del k.active eng, idleFrom := now, seq := k.seq.addPhases a.q.step a.phases } :=
  if_pos h

theorem tagDumps_of_none (s : State) (c : Nat) {q : QOp} (h : q.dumps = []) : (tagDumps s c q).core c = s.core c := by
  unfold tagDumps
  split
  · rfl
  · simp [h]

theorem bearTuning_of_no_plan (s : State) (c : Nat) {a : ActOp} (h : a.plan = none) : bearTuning s c a = s := by
  rw [bearTuning, h]

theorem setCore_tagDumps_core (s : State) (c : Nat) (k : Core) {a : ActOp} (hplan : a.plan = none) (hdumps : a.q.dumps = []) :
    (tagDumps (bearTuning (s.setCore c k) c a) c a.q).core c = k := by
  rw [bearTuning_of_no_plan _ _ hplan, tagDumps_of_none _ _ hdumps, State.core_setCore_same]

/-- Where nothing is held or sent, an operation that takes effect is in progress no more, and its core's memory is what its effects make
of it. -/
theorem takesEffect_core {s : State} {c eng : Nat} {a : ActOp} (heng : eng < 5) (hplan : a.plan = none) (hdumps : a.q.dumps = [])
    (hwf : Tbl.wf (s.core c).active) (hcalm : (s.core c).Calm) (hpush : ∀ oq ad, a.q.op ≠ .qPush oq ad)
    (hread : ∀ oq w v m n, a.q.op ≠ .rmread oq w v m n) (hred : ∀ oq w v m n, a.q.op ≠ .nred oq w v m n) :
    let k := Effects.run (opEffects (s.core c) a) ((s.core c).readSoftLines (opReads (s.core c) a))
    let t := settle (tagDumps (bearTuning (s.setCore c (k.opDone eng a s.now)) c a) c a.q) c
    Tbl.find (t.core c).active eng = none ∧ (t.core c).mem = k.mem := by
  intro k t
  have hk : (s.core c).Worked False k := (Core.Worked.refl (s.core c)).readSoftLines.effects
    (.opEffects (fun oq ad h => hpush oq ad h) (fun oq w v m n h => hread oq w v m n h) fun oq w v m n h => hred oq w v m n h)
  have hcore := setCore_tagDumps_core s c (k.opDone eng a s.now) hplan hdumps
  have ht : t.core c = k.opDone eng a s.now := by
    have hsettle : t = _ := settle_of_calm (by
      rw [hcore, opDone_of_lt heng]
      exact ⟨hk.run.trans hcalm.run, hk.held.trans hcalm.held, (hk.oqs not_false).trans hcalm.oqs⟩)
    rw [hsettle, hcore]
  rw [ht, opDone_of_lt heng, hk.active]
  exact ⟨Tbl.find_del_same hwf eng, rfl⟩

/-! ## Clocks -/

theorem startClock_clockOn {s : State} {c : Nat} (hthermal : s.thermal.state ≠ 1)
    (hregion : (s.preg (powerOf c)).state = .run ∨ (s.preg (powerOf c)).state = .nap) : ((s.startClock c).core c).clockOn = true := by
  rw [State.startClock, if_neg hthermal]
  rcases hregion with h | h
  · rw [h, State.updCore, State.core_setCore_same]
    rfl
  · simp only [h, State.core_powerTo, State.updCore, State.core_setCore_same]
    rfl

theorem startClock_held (s : State) (c : Nat) : ((s.startClock c).core c).held = (s.core c).held := by
  rcases startClock_core s c with h | h | h
  · rw [h, Core.freeze]
    split <;> rfl
  · rw [h]
    rfl
  · rw [h]

theorem startClock_seq (s : State) (c : Nat) : ((s.startClock c).core c).seq = (s.core c).seq := by
  rcases startClock_core s c with h | h | h
  · rw [h, Core.freeze]
    split <;> rfl
  · rw [h]
    rfl
  · rw [h]

theorem stopClock_core (s : State) (c : Nat) :
    (s.stopClock c).core c = { s.core c with clockOn := false, stoppedAt := some s.now } := by
  rw [State.stopClock, State.core_napIfIdle, State.updCore, State.core_setCore_same]

/-! ## Waits -/

/-- A core whose wait is satisfied holds nothing, and the step is not charged for the wait (R200). -/
structure Core.WaitOver (k : Core) (now : Nat) (k' : Core) : Prop where
  held : k'.held = none
  stepFrom : k'.seq.stepFrom = k.seq.stepFrom + (now - k.waitFrom)

theorem exec_waitSatisfied {s : State} {c : Nat} (hrun : (s.core c).run = .issuing) (hmet : waitMet s (s.core c) = true) :
    ∃ k, execWaitSatisfied c s = .next ((s.setCore c k).startClock c) ∧ (s.core c).WaitOver s.now k := by
  refine ⟨_, if_pos ⟨hrun, hmet⟩, Core.unhold_held _ _, ?_⟩
  have hwait : ((s.core c).countHeld s.now).waitFrom = (s.core c).waitFrom := by
    unfold Core.countHeld
    split
    · exact Core.count_waitFrom _ _ _ _
    · rfl
  rw [Core.unhold, Core.endSlot_seq_stepFrom]
  simp [hwait]

/-! ## Signals -/

/-- A signal of a region without SYNC records raises its object alone. -/
theorem applySignal_quiet {s : State} {c : Nat} {region : Option Nat} (h : s.silOn 1 region = false) (idx : Nat) (amt : W32) :
    applySignal s c region idx amt = s.setSync idx { s.sync idx with value := (s.sync idx).value + amt } := by
  have hquiet (x : SyncObj) : (s.setSync idx x).silOn 1 region = false := h
  simp only [applySignal, hquiet, Bool.false_eq_true, if_false]

/-- A core's signal of an object of its own field and region raises the object. -/
theorem sendSignal_quiet {s : State} {c : Nat} {g : Sig} (hfield : g.idx / 512 = fieldOf c) (howns : ownsSync s c g.idx = true)
    (hsil : s.silOn 1 (ownerOf s c) = false) :
    sendSignal s c g = s.setSync g.idx { s.sync g.idx with value := (s.sync g.idx).value + g.amount } := by
  rw [sendSignal, if_pos hfield, signalAt, if_pos howns, applySignal_quiet hsil]

/-- The oldest signal of a calm core leaves its buffer once every earlier operation has taken effect. -/
theorem exec_signalRelease {s : State} {c : Nat} {g : Sig} {rest : List Sig} (hcalm : (s.core c).Calm)
    (hsig : (s.core c).seq.sigBuf = g :: rest) (hsettled : (s.core c).settled g.num = true) (hfield : g.idx / 512 = fieldOf c)
    (howns : ownsSync s c g.idx = true) (hsil : s.silOn 1 (ownerOf s c) = false) : execSignalRelease c s =
      .next ((s.setCore c { s.core c with seq := { (s.core c).seq with sigBuf := rest } }).setSync g.idx
        { s.sync g.idx with value := (s.sync g.idx).value + g.amount }) := by
  generalize hk : ({ s.core c with seq := { (s.core c).seq with sigBuf := rest } } : Core) = k
  have hcalm' : k.Calm := hk ▸ ⟨hcalm.run, hcalm.held, hcalm.oqs⟩
  simp only [execSignalRelease, hsig, hk]
  rw [if_pos ⟨hcalm.run, hsettled⟩, sendSignal_quiet (s := s.setCore c k) hfield howns hsil,
    settle_of_calm (by rwa [State.core_setSync, State.core_setCore_same])]
  rfl

end Sys2Proof.Machine
end

section
/-!
SUPPORT. The statement of the progress of a core.
-/
namespace Sys2Proof.Proofs
open Sys2Proof.Machine Sys2Proof.Safety

/-- Settles O18: starts by `exec_operationStart`, effects by `exec_operationTakesEffect` and `takesEffect_core`. -/
theorem coreProgress : Obligations.CoreProgress := by
  unfold Obligations.CoreProgress
  intro s c eng
  refine ⟨fun q hready hyields hawaits hcheck hheld => ?start, fun a ha hrun hclock hlimit => exec_operationTakesEffect ha hrun hclock hlimit,
    fun a heng ha hplan hrun hclock hwf hheld hoqs hdumps hpush hread hred => ?effect, fun i v hrun hheld hv => ?wait,
    fun g rest hrun hsig hsettled hheld hoqs hfield howns hsil => ?signal, fun i v hrun hclock hheld hv hqueued hactive hcycles => ?stop⟩
  case start =>
    obtain ⟨t, plan, ht, hk⟩ := exec_operationStart hready hyields hawaits hcheck
    refine ⟨_, ht, ⟨q, plan⟩, ?_, rfl⟩
    rw [resume_of_not_held (hk.held.trans hheld), hk.active]
    exact Tbl.find_set_same _ _ _
  case effect =>
    have he := exec_operationTakesEffect ha hrun hclock (pastLimit_of_no_plan hplan)
    refine ⟨_, he, ?_⟩
    have hcore := takesEffect_core heng hplan hdumps hwf ⟨hrun, hheld, hoqs⟩ hpush hread hred
    split
    · rwa [if_neg (by omega)]
    · exact hcore
  case wait =>
    obtain ⟨k, hexec, hk⟩ := exec_waitSatisfied hrun ((waitMet_syncWait hheld).2 hv)
    refine ⟨_, hexec, ?_, fun hthermal hregion => ?_, ?_⟩
    · rw [startClock_held, State.core_setCore_same, hk.held]
    · exact startClock_clockOn hthermal hregion
    · rw [startClock_seq, State.core_setCore_same, hk.stepFrom]
  case signal =>
    have he := exec_signalRelease ⟨hrun, hheld, hoqs⟩ hsig hsettled hfield howns hsil
    refine ⟨_, he, ?_, ?_, fun i hi => ?_⟩
    · rw [State.core_setSync, State.core_setCore_same]
    · rw [State.sync_setSync_same]
    · rw [State.sync_setSync_ne _ _ hi]
      rfl
  case stop =>
    have he : exec (.clockStop c) s = .next (s.stopClock c) :=
      if_pos ⟨hrun, hclock, waiting_of_syncWait hheld, by rw [waitMet_syncWait_false hheld hv]; rfl, by rw [hqueued]; rfl, by rw [hactive]; rfl,
        hcycles⟩
    exact ⟨_, he, congrArg Core.clockOn (stopClock_core s c)⟩

end Sys2Proof.Proofs
end

section
/-!
SUPPORT. The completion of a request with a non-zero Status (R190).
-/
namespace Sys2Proof.Machine

/-- A failed completion fills the first entry that its request has reserved. -/
theorem failIq_append {es l : List IqEntry} {e : IqEntry} (req status aux : Nat) (b : Bytes) (he : e.req = req) (hfree : e.filled = false)
    (hes : ∀ d ∈ es, d.req ≠ req) :
    failIq req status aux b (es ++ e :: l) = es ++ { e with filled := true, data := b, status := status, aux0 := aux } :: l := by
  induction es with
  | nil =>
    rw [List.nil_append, failIq, if_pos ⟨he, by rw [hfree]; rfl⟩]
    rfl
  | cons d es ih =>
    obtain ⟨hd, hes⟩ := List.forall_mem_cons.1 hes
    rw [List.cons_append, failIq, if_neg fun h => hd h.1, ih hes]
    rfl

/-- A core's completion with a non-zero Status: the request is outstanding no more and its entry is filled; then a fault that is ready. -/
theorem complete_failed {s : State} {c : Nat} {a : Await} {status : Nat} {es l : List IqEntry} {e : IqEntry} (hstatus : status ≠ 0)
    (hiq : (s.core c).iq a.q = es ++ e :: l) (he : e.req = a.req) (hfree : e.filled = false) (hes : ∀ d ∈ es, d.req ≠ a.req) :
    ∃ e', e'.filled = true ∧ e'.status = status ∧ complete s c a status =
      readyFault (s.setCore c (((s.core c).dropAwait a.q a.req).setIq a.q (es ++ e' :: l))) c a.q := by
  refine ⟨{ e with filled := true, data := complEntry s.almanac a.tag a.lines status a.cls, status := status, aux0 := failAux a status },
    rfl, rfl, ?_⟩
  have hdrop : ((s.core c).dropAwait a.q a.req).iq a.q = es ++ e :: l := hiq
  have hfails : (!a.write && !a.toWalk && decide (status = 0)) = false := by simp [hstatus]
  unfold complete
  simp only [hfails, hdrop, if_neg hstatus, failIq_append _ _ _ _ he hfree hes]
  cases a.sig with
  | none => rfl
  | some i =>
    have hsig : ¬ (status = 0 ∧ a.cls ≠ 2) := fun h => hstatus h.1
    simp only [if_neg hsig]
    rfl

/-- An entry with a fault that is ready stops its core. -/
theorem readyFault_ready {s : State} {c q : Nat} {es l : List IqEntry} {e : IqEntry} (hiq : (s.core c).iq q = es ++ e :: l)
    (hes : ∀ d ∈ es, d.filled = true ∧ d.status = 0) (hfilled : e.filled = true) (hstatus : e.status ≠ 0) :
    readyFault s c q = stepFaultFrom s c ⟨if e.status = 1 then 14 else 12, e.aux0, 0⟩ (some e.issuer) := by
  have htake : (es ++ e :: l).takeWhile (·.filled) = es ++ e :: l.takeWhile (·.filled) := by
    rw [List.takeWhile_append_of_pos fun d hd => (hes d hd).1, List.takeWhile_cons_of_pos hfilled]
  have hfind : (es ++ e :: l.takeWhile (·.filled)).find? (·.status ≠ 0) = some e := by
    rw [List.find?_append, List.find?_eq_none.2 fun d hd => by simp [(hes d hd).2], List.find?_cons_of_pos (by simpa using hstatus)]
    rfl
  simp only [readyFault, hiq, htake, hfind]

/-- No entry behind one that is not filled is ready. -/
theorem readyFault_not_ready {s : State} {c q : Nat} {es l : List IqEntry} (hiq : (s.core c).iq q = es ++ l)
    (hfree : ∃ d ∈ es, d.filled = false) (hes : ∀ d ∈ es, d.status = 0) : readyFault s c q = s := by
  obtain ⟨d, hd, hdf⟩ := hfree
  have htake : (es ++ l).takeWhile (·.filled) = es.takeWhile (·.filled) := by
    rw [List.takeWhile_append, if_neg]
    intro hlen
    have hmem : d ∈ es.takeWhile (·.filled) := by rwa [(List.takeWhile_sublist _).eq_of_length hlen]
    exact absurd (List.mem_takeWhile_imp hmem) (by rw [hdf]; exact Bool.false_ne_true)
  have hfind : (es.takeWhile (·.filled)).find? (·.status ≠ 0) = none :=
    List.find?_eq_none.2 fun d hd => by simp [hes d ((List.takeWhile_sublist _).mem hd)]
  simp only [readyFault, hiq, htake, hfind]

/-- Nothing goes on at a core that has stopped with nothing to send. -/
theorem settle_of_stopped {s : State} {c : Nat} (hrun : (s.core c).run = .stopped) (hoqs : (s.core c).oqs = []) : settle s c = s := by
  rw [settle, pump_of_empty hoqs, resume, if_pos]
  rw [hrun]
  exact Run.noConfusion

end Sys2Proof.Machine
end

section
/-!
SUPPORT. The statement of refused requests (R190).
-/
namespace Sys2Proof.Proofs
open Sys2Proof.Machine Sys2Proof.Safety

/-- A completion with a non-zero Status, of a read or of a write, ends its request alike. -/
theorem exec_refused {s : State} {i : Nat} {f : Flight} {a : Await} (hx : s.mesh[i]? = some f) (hl : landsAtOnce s f)
    (hop : f.pkt.op = 3 ∨ f.pkt.op = 6) (hbody : f.pkt.body.toNat ≠ 0)
    (ha : (s.core f.pkt.dest).await? (tagQueue f.pkt.tag) (tagPos f.pkt.tag) = some a) :
    exec (if f.pkt.op = 3 then .readReply i else .writeAck i) s =
      .next (settle (complete (s.unmesh i) f.pkt.dest a f.pkt.body.toNat) f.pkt.dest) := by
  rcases hop with hop | hop
  · rw [if_pos hop, exec_readReply hx hl ha hop, if_neg]
    rintro h
    exact hbody (by rw [h]; rfl)
  · rw [if_neg (by rw [hop]; decide), exec_writeAck hx hl ha hop]

/-- Settles O25: the entry is filled (`complete_failed`), and the step faults where it is ready. -/
theorem refusedRequests : Obligations.RefusedRequests := by
  unfold Obligations.RefusedRequests
  intro s i f a es l e hx hl p c hrun hop hbody ha hiq hreq hfree hes cmd
  obtain ⟨e', hfilled, hstatus, hcomplete⟩ := complete_failed (s := s.unmesh i) (c := c) (a := a) (status := p.body.toNat) hbody hiq hreq
    hfree fun d hd => (hes d hd).1
  have he := exec_refused hx hl hop hbody ha
  rw [hcomplete] at he
  generalize hu : (s.unmesh i).setCore c ((((s.unmesh i).core c).dropAwait a.q a.req).setIq a.q (es ++ e' :: l)) = u at he
  have hcore : u.core c = (((s.core c).dropAwait a.q a.req).setIq a.q (es ++ e' :: l)) := hu ▸ State.core_setCore_same _ _ _
  have hiq' : (u.core c).iq a.q = es ++ e' :: l := by
    rw [hcore]
    exact Tbl.get_set_same _ _ _ _
  have hrun' : (u.core c).run = .issuing := by rwa [hcore]
  refine ⟨fun hready => ?ready, fun hwaits hheld hoqs => ?waits⟩
  case ready =>
    rw [readyFault_ready hiq' (fun d hd => ⟨hready d hd, (hes d hd).2⟩) hfilled (by rwa [hstatus]), hstatus] at he
    have hfault := stepFaultFrom_faulted (s := u) ⟨if p.body.toNat = 1 then 14 else 12, e'.aux0, 0⟩ (some e'.issuer) hrun'
    rw [settle_of_stopped hfault.run hfault.oqs] at he
    obtain ⟨r, hreport, hcause, -⟩ := hfault.report
    exact ⟨_, he, hfault.run, r, hreport, hcause⟩
  case waits =>
    rw [readyFault_not_ready hiq' hwaits fun d hd => (hes d hd).2,
      settle_of_calm (by rw [hcore]; exact ⟨hrun, hheld, hoqs⟩)] at he
    exact ⟨_, he, hrun', e', hiq', hfilled, hstatus⟩

end Sys2Proof.Proofs
end

section
/-!
SUPPORT. The statement of signals and step tokens that arrive (R193, R194, R348, R665).
-/
namespace Sys2Proof.Machine

/-- A state in which a signal has raised one sync object, and no core has changed. -/
structure Raised (idx : Nat) (amt : W32) (s t : State) : Prop where
  value : (t.sync idx).value = (s.sync idx).value + amt
  owner : (t.sync idx).owner = (s.sync idx).owner
  others : ∀ j, j ≠ idx → t.sync j = s.sync j
  cores : t.cores = s.cores

theorem raised_applySignal (s : State) (c : Nat) (region : Option Nat) (idx : Nat) (amt : W32) :
    Raised idx amt s (applySignal s c region idx amt) := by
  have hset : Raised idx amt s (s.setSync idx { s.sync idx with value := (s.sync idx).value + amt }) :=
    ⟨by rw [State.sync_setSync_same], by rw [State.sync_setSync_same], fun j hj => State.sync_setSync_ne s _ hj, rfl⟩
  simp only [applySignal]
  split
  · have hsil (u : State) (type source : Nat) (b : Bytes) (i : Nat) : (u.sil type source b).sync i = u.sync i :=
      (atCore_sil 0 u type source b).sync i
    exact ⟨by rw [hsil, hset.value], by rw [hsil, hset.owner], fun j hj => by rw [hsil, hset.others j hj],
      (posted_sil _ _ _ _).cores.trans hset.cores⟩
  · exact hset

theorem startClock_mem (s : State) (c : Nat) : ((s.startClock c).core c).mem = (s.core c).mem := by
  rcases startClock_core s c with h | h | h
  · rw [h, Core.freeze]
    split <;> rfl
  · rw [h]
    rfl
  · rw [h]

end Sys2Proof.Machine
end

section
/-!
SUPPORT. The statement of signals that arrive.
-/
namespace Sys2Proof.Proofs
open Sys2Proof.Machine Sys2Proof.Safety

section
variable {s : State} {i : Nat} {f : Flight} (hx : s.mesh[i]? = some f) (hl : landsAtOnce s f)
include hx hl

theorem exec_signal (hop : f.pkt.op = 8) (hfirst : earlierSignal s i f.pkt = false) : exec (.signal i) s =
    .next (signalAt (s.unmesh i) f.pkt.src (bits f.pkt.body.toNat 14 0) (BitVec.ofNat 32 (bits f.pkt.body.toNat 63 32)) f.pkt.issuer) := by
  show execSignal i s = _
  simp only [execSignal, hx, hfirst, Bool.false_eq_true, if_false, arrive_lands hx hl hop]

/-- A token of a step writes its line, starts the clock of a core that issues, and raises the entry object. -/
theorem exec_stepToken {v : ServSec} (hop : f.pkt.op = 9) (hfirst : ∀ g ∈ s.mesh.take i, g.pkt.svc = false)
    (hfence : (s.core f.pkt.dest).fence = none) (hlength : f.pkt.length = 2) (hserves : servingOf s f.pkt.dest = some v) :
    let u := (s.unmesh i).updCore f.pkt.dest fun k => k.writeLine v.tokenRow 0 (slice f.pkt.payload 0 64)
    ∃ w, (w = u ∨ w = u.startClock f.pkt.dest) ∧
      exec (.stepToken i) s = .next (applySignal w f.pkt.dest (ownerOf s f.pkt.dest) (bits f.pkt.body.toNat 14 0) 1) := by
  intro u
  have hnone : ((s.mesh.take i).any fun g => g.pkt.svc && g.pkt.op = 5 && ownerOf s g.pkt.dest = ownerOf s f.pkt.dest) = false :=
    List.any_eq_false.2 fun g hg => by simp [hfirst g hg]
  have hgo : ¬ (((s.unmesh i).core f.pkt.dest).fence.isSome = true ∨ (f.pkt.length ≠ 0 ∧ f.pkt.length ≠ 2)) := by
    simp [hfence, hlength]
  have hserves' : servingOf (s.unmesh i) f.pkt.dest = some v := hserves
  have he : exec (.stepToken i) s = .next (applySignal (if (u.core f.pkt.dest).run = .issuing then u.startClock f.pkt.dest else u)
      f.pkt.dest (ownerOf s f.pkt.dest) (bits f.pkt.body.toNat 14 0) 1) := by
    show execStepToken i s = _
    simp only [execStepToken, hx, hnone, Bool.false_eq_true, if_false, arrive_lands hx hl hop, if_neg hgo, hserves', if_pos hlength]
    rfl
  refine ⟨_, ?_, he⟩
  split
  · exact .inr rfl
  · exact .inl rfl

end

/-- Settles O27: a signal raises its object (`raised_applySignal`) or faults its source, and a token raises the entry object. -/
theorem signalsArrive : Obligations.SignalsArrive := by
  unfold Obligations.SignalsArrive
  intro s i f hx hl p idx
  refine ⟨fun hop hfirst howns => ?owned, fun hop hfirst howns hrun => ?other, fun v hop hfirst hfence hlength hserves => ?token⟩
  case owned =>
    have he := exec_signal hx hl hop hfirst
    have howns' : ownsSync (s.unmesh i) f.pkt.src (bits f.pkt.body.toNat 14 0) = true := howns
    rw [signalAt, if_pos howns'] at he
    have h := raised_applySignal (s.unmesh i) p.src (ownerOf (s.unmesh i) p.src) idx (BitVec.ofNat 32 (bits p.body.toNat 63 32))
    exact ⟨_, he, h.value, h.owner, h.others, h.cores⟩
  case other =>
    have he := exec_signal hx hl hop hfirst
    have hnot : ¬ ownsSync (s.unmesh i) f.pkt.src (bits f.pkt.body.toNat 14 0) = true := ne_true_of_eq_false howns
    rw [signalAt, if_neg hnot] at he
    have hfault := stepFaultFrom_faulted (s := s.unmesh i) ⟨7, idx, 0⟩ p.issuer hrun
    obtain ⟨r, hreport, hcause, haux, -⟩ := hfault.report
    exact ⟨_, he, (atCore_stepFaultFrom (s.unmesh i) p.src _ _).syncs, r, hreport, hcause, haux⟩
  case token =>
    obtain ⟨w, hw, he⟩ := exec_stepToken hx hl hop hfirst hfence hlength hserves
    have h := raised_applySignal w p.dest (ownerOf s p.dest) idx 1
    generalize hu : (s.unmesh i).updCore f.pkt.dest (fun k => k.writeLine v.tokenRow 0 (slice f.pkt.payload 0 64)) = u at hw
    have hmem : (u.core p.dest).mem = ((s.core p.dest).writeLine v.tokenRow 0 (slice p.payload 0 64)).mem := by
      rw [← hu]
      exact congrArg Core.mem (State.core_setCore_same _ _ _)
    have hsync : u.sync idx = s.sync idx := hu ▸ rfl
    have hcore : ((applySignal w p.dest (ownerOf s p.dest) idx 1).core p.dest) = w.core p.dest := by
      rw [State.core, h.cores, State.core]
    refine ⟨_, he, ?_, ?_⟩
    · rcases hw with rfl | rfl
      · rw [hcore, hmem]
      · rw [hcore, startClock_mem, hmem]
    · rcases hw with rfl | rfl
      · rw [h.value, hsync]
      · rw [h.value, (atCore_startClock _ _).sync, hsync]

end Sys2Proof.Proofs
end

section
/-!
SUPPORT. What the frames of a group, the start of a flush and of a dump leave of the state (R576, R604, R635).
-/
namespace Sys2Proof.Machine

/-! ## CONTROL frames -/

/-- A state after frames have gone out: only the link and the messages differ. -/
structure Sent (s t : State) : Prop where
  rest : t = { s with fabric := t.fabric, out := t.out }

section
variable {s t u : State}

theorem Sent.refl (s : State) : Sent s s := ⟨rfl⟩

theorem Sent.trans (h : Sent s t) (h' : Sent t u) : Sent s u where
  rest := by
    calc u = { t with fabric := u.fabric, out := u.out } := h'.rest
      _ = { s with fabric := u.fabric, out := u.out } := by rw [h.rest]

theorem Sent.foldl {α : Type} {f : State → α → State} (hf : ∀ s x, Sent s (f s x)) (l : List α) (s : State) : Sent s (l.foldl f s) :=
  List.foldlRecOn (motive := Sent s) l f (.refl s) fun t ht x _ => ht.trans (hf t x)

theorem Sent.regions (h : Sent s t) : t.regions = s.regions := by rw [h.rest]
theorem Sent.region (h : Sent s t) (n : Nat) : t.region n = s.region n := by rw [State.region, h.regions, State.region]
theorem Sent.cores (h : Sent s t) : t.cores = s.cores := by rw [h.rest]
theorem Sent.faults (h : Sent s t) : t.faults = s.faults := by rw [h.rest]

end

theorem sent_drainChan (s : State) (p peer : Nat) : Sent s (s.drainChan p peer) :=
  Sent.trans (t := s.setPort p _) ⟨rfl⟩ (Sent.foldl (fun _ _ => ⟨rfl⟩) _ _)

theorem sent_putFrame (s : State) (p peer : Nat) (f : FFrame) : Sent s (s.putFrame p peer f) :=
  Sent.trans (t := s.setPort p _) ⟨rfl⟩ (sent_drainChan _ p peer)

theorem sent_sendControl (s : State) (b : BoundImage) (st kind status version : Nat) (extra : Bytes) :
    Sent s (sendControl s b st kind status version extra) := by
  unfold sendControl
  extract_lets peer
  split
  · exact sent_putFrame _ _ _ _
  · exact .refl s

theorem sent_sendAllStages (s : State) (b : BoundImage) (kind status version : Nat) : Sent s (sendAllStages s b kind status version) :=
  Sent.foldl (fun s st => sent_sendControl s b st kind status version []) _ s

theorem sent_tellFault (s : State) (n : Nat) (b : Bytes) : Sent s (tellFault s n b) := by
  unfold tellFault
  split
  · exact sent_sendControl _ _ _ _ _ _ _
  · exact .refl s

/-! ## Reports and records -/

/-- A state with the records of the fault service and the reports of the cores of another. -/
structure SameReports (s t : State) : Prop where
  faults : t.faults = s.faults
  report : ∀ c, (t.core c).report = (s.core c).report

section
variable {s t u : State}

theorem SameReports.refl (s : State) : SameReports s s := ⟨rfl, fun _ => rfl⟩

theorem SameReports.trans (h : SameReports s t) (h' : SameReports t u) : SameReports s u :=
  ⟨h'.faults.trans h.faults, fun c => (h'.report c).trans (h.report c)⟩

theorem sameReports_of_cores (hcores : t.cores = s.cores) (hfaults : t.faults = s.faults) : SameReports s t :=
  ⟨hfaults, fun c => by rw [State.core, hcores, State.core]⟩

theorem Sent.sameReports (h : Sent s t) : SameReports s t := sameReports_of_cores h.cores h.faults

theorem Posted.sameReports (h : Posted s t) : SameReports s t := sameReports_of_cores h.cores (by rw [h.rest])

end

theorem sameReports_startFlush (s : State) (n code : Nat) : SameReports s (startFlush s n code) := by
  unfold startFlush
  extract_lets r
  split
  · exact .refl s
  · split
    · exact .refl s
    · extract_lets lead b s1
      have hset : SameReports s s1 := sameReports_of_cores rfl rfl
      split
      · exact hset.trans (sent_sendAllStages _ _ _ _ _).sameReports
      · exact hset

theorem sameReports_flushFor (s : State) (n code : Nat) (b : Bytes) : SameReports s (flushFor s n code b) := by
  unfold flushFor
  split
  · exact (sent_tellFault s n b).sameReports
  · exact sameReports_startFlush s n code

theorem sameReports_freezeRegion (s : State) (n : Nat) : SameReports s (freezeRegion s n) := by
  refine List.foldlRecOn (motive := SameReports s) _ _ (.refl s) fun t ht c _ => ht.trans ?_
  split
  · refine ⟨by rw [(atCore_napIfIdle c _ _).rest]; rfl, fun d => ?_⟩
    rw [State.core_napIfIdle]
    by_cases hd : d = c
    · rw [hd, State.updCore, State.core_setCore_same, Core.freeze]
      split <;> rfl
    · rw [State.updCore, State.core_setCore_ne _ _ hd]
  · exact .refl t

theorem sameReports_beginVigil (s : State) (n trigger : Nat) (core handle : Option Nat) :
    SameReports s (beginVigil s n trigger core handle) :=
  ((sameReports_startFlush s n 0).trans (sameReports_freezeRegion _ n)).trans
    (SameReports.trans (t := { (freezeRegion (startFlush s n 0) n).updRegion n
        (fun r => { r with flush := r.flush.map fun f => { f with phase := 3 } }) with observe := _ })
      (sameReports_of_cores rfl rfl) (posted_sil _ _ _ _).sameReports)

/-- A record goes to the log and out. -/
theorem recordErr_posted (s : State) (r : ErrRec) :
    Posted { s with faults := { s.faults with log := (r :: s.faults.log).take 64, records := (s.faults.records + 1) % 2 ^ 32 } }
      (s.recordErr r) :=
  (Posted.foldl (fun s g => posted_postTo s _ g) _ _).trans (posted_sil _ _ _ _)

theorem recordErr_faults (s : State) (r : ErrRec) : (s.recordErr r).faults =
    { s.faults with log := r :: s.faults.log.take 63, records := (s.faults.records + 1) % 2 ^ 32 } := by
  rw [(recordErr_posted s r).rest]
  rfl

theorem recordErr_regions (s : State) (r : ErrRec) : (s.recordErr r).regions = s.regions := (recordErr_posted s r).regions
theorem recordErr_cores (s : State) (r : ErrRec) : (s.recordErr r).cores = s.cores := (recordErr_posted s r).cores

/-! ## The fault service (R576, R586, R635) -/

/-- What the fault service does about a fault once it is recorded: the dump of an armed region, or the flush. -/
def faultAnswer (s : State) (core : Nat) (owner : Option Nat) (r : FaultRep) (b : Bytes) : State :=
  match owner with
  | none => s
  | some n =>
    let g := s.region n
    match vigilTrigger r.cause with
    | some t => if g.vigil.isSome ∧ g.flush.isNone ∧ (vcoreAt s n core).isSome then
        (let s := beginVigil s n t (some core) none
         if laterStage s n then tellFault s n b else s)
      else flushFor s n (0x0100 + r.cause) b
    | none => flushFor s n (0x0100 + r.cause) b

theorem sameReports_faultAnswer (s : State) (core : Nat) (owner : Option Nat) (r : FaultRep) (b : Bytes) :
    SameReports s (faultAnswer s core owner r b) := by
  unfold faultAnswer
  split
  · exact .refl s
  · extract_lets g
    split
    · split
      · extract_lets s1
        have hvigil : SameReports s s1 := sameReports_beginVigil s _ _ _ _
        split
        · exact hvigil.trans (sent_tellFault _ _ _).sameReports
        · exact hvigil
      · exact sameReports_flushFor _ _ _ _
    · exact sameReports_flushFor _ _ _ _

/-- A region without a Vigil buffer is flushed. -/
theorem faultAnswer_of_no_vigil {s : State} {n : Nat} (h : (s.region n).vigil = none) (core : Nat) (r : FaultRep) (b : Bytes) :
    faultAnswer s core (some n) r b = flushFor s n (0x0100 + r.cause) b := by
  simp only [faultAnswer, h, Option.isSome_none, Bool.false_eq_true, false_and, if_false]
  split <;> rfl

/-- The flush of a bound image of a first stage begins. -/
theorem flushFor_begins {s : State} {n : Nat} {b : BoundImage} (himg : (s.region n).img = some b) (hbound : b.bound = true)
    (hstage : b.img.stage = 0) (hflush : (s.region n).flush = none) (code : Nat) (bytes : Bytes) :
    ∃ x, ((flushFor s n code bytes).region n).flush = some x ∧ x.phase = 0 := by
  have hfirst : laterStage s n = false := by simp [laterStage, himg, hstage]
  have hgo : ¬ ((s.region n).flush.isSome = true ∨ (!b.bound) = true) := by simp [hflush, hbound]
  rw [flushFor, hfirst, if_neg Bool.false_ne_true, startFlush]
  simp only [himg, if_neg hgo]
  split
  · rw [(sent_sendAllStages _ _ _ _ _).region, State.region_setRegion_same]
    exact ⟨_, rfl, rfl⟩
  · rw [State.region_setRegion_same]
    exact ⟨_, rfl, rfl⟩

/-- The record of a report that names no request. -/
def reportRecord (s : State) (c : Nat) (r : FaultRep) : ErrRec where
  code := 0x0100 + r.cause
  core := some c
  power := some (powerOf c)
  region := ownerOf s c
  ctx := r.req
  kind := r.kind
  bundle := r.bundle
  slot := r.slot
  time := BitVec.ofNat 64 r.time
  aux0 := BitVec.ofNat 32 r.aux0
  aux1 := 0

/-- The fault service takes a report that names no request. -/
theorem exec_fault {s : State} {c : Nat} {r : FaultRep} (fails : Bool) (src : Option Bytes) (hreport : (s.core c).report = some r)
    (hcause : r.cause ≠ 15) (hreq : r.req = 0xFFFFFFFF) : execFault c fails src s =
      .next (faultAnswer ((s.updCore c fun k => { k with report := none }).recordErr (reportRecord s c r)) c (ownerOf s c) r
        (reportRecord s c r).bytes) := by
  have howner (f : Core → Core) : ownerOf (s.updCore c f) c = ownerOf s c := rfl
  have hnone (u : State) (n : Nat) : namedCtxs u n r.req r.stepSeq = ([], u) := by
    rw [namedCtxs]
    exact if_pos hreq
  simp only [execFault, hreport, if_neg hcause, howner, reportRecord]
  cases ownerOf s c with
  | none => rfl
  | some n =>
    simp only [hnone]
    rfl

end Sys2Proof.Machine
end

section
/-!
SUPPORT. The statement of faults recorded (R206, R576, R586, R588).
-/
namespace Sys2Proof.Proofs
open Sys2Proof.Machine Sys2Proof.Safety

/-- Settles O29: the record is written (`recordErr_faults`), and what follows leaves records and reports (`sameReports_faultAnswer`). -/
theorem faultRecorded : Obligations.FaultRecorded := by
  unfold Obligations.FaultRecorded
  intro s c fails src r hreport hcause hreq
  have he := exec_fault fails src hreport hcause hreq
  generalize hu : (s.updCore c fun k => { k with report := none }).recordErr (reportRecord s c r) = u at he
  have hcores : u.cores = (s.updCore c fun k => { k with report := none }).cores := hu ▸ recordErr_cores _ _
  have hregions : u.regions = s.regions := hu ▸ recordErr_regions _ _
  have hfaults : u.faults = _ := hu ▸ recordErr_faults _ _
  obtain ⟨hkeeps, hreports⟩ := sameReports_faultAnswer u c (ownerOf s c) r (reportRecord s c r).bytes
  refine ⟨_, he, ?_, ?_, ?_, fun n b howner himg hbound hstage hflush hvigil => ?_⟩
  · rw [hreports, State.core, hcores, ← State.core, State.updCore, State.core_setCore_same]
  · rw [hkeeps, hfaults]
    rfl
  · rw [hkeeps, hfaults]
    exact ⟨reportRecord s c r, _, rfl, rfl, rfl, rfl⟩
  · have hregion : u.region n = s.region n := by rw [State.region, hregions, State.region]
    rw [howner, faultAnswer_of_no_vigil (by rw [hregion, hvigil])]
    exact flushFor_begins (by rw [hregion, himg]) hbound hstage (by rw [hregion, hflush]) _ _

end Sys2Proof.Proofs
end

section
/-!
SUPPORT. The flush of an image: the orders to its cores, what it clears, and its release (R576, R579).
-/
namespace Sys2Proof.Machine

/-! ## Orders to cores (R576 steps 2 and 5, R577) -/

/-- An order of the fault service, entered at its core's own router. -/
def orderFlight (now code action d : Nat) : Flight :=
  { loc := d, pkt := { faultPacket d code action with region := 127, src := d, svc := true }, colMove := false, since := now }

theorem injectSvc_order (s : State) (d code action : Nat) :
    injectSvc s d (faultPacket d code action) = { s with mesh := s.mesh ++ [orderFlight s.now code action d] } := by
  rw [injectSvc, placeAt_alone]
  · rfl
  · show (0xA : Nat) ≠ 7
    decide

theorem foldl_order (s : State) (cs : List Nat) (code action : Nat) : cs.foldl (fun v d => injectSvc v d (faultPacket d code action)) s =
    { s with mesh := s.mesh ++ cs.map (orderFlight s.now code action) } := by
  induction cs generalizing s with
  | nil => rw [List.foldl_nil, List.map_nil, List.append_nil]
  | cons d cs ih => rw [List.foldl_cons, ih, injectSvc_order, List.map_cons, List.append_assoc, List.singleton_append]

theorem faultAction_stop (d code : Nat) : faultAction (faultPacket d code 1) = 1 := by
  simp only [faultAction, faultPacket, blankPacket, bits, BitVec.toNat_ofNat]
  omega

/-! ## A core that restarts -/

theorem startClock_core_of_warm {s : State} {c : Nat} (h : s.thermal.state ≠ 1) :
    (s.startClock c).core c = (s.core c).clockRuns s.now ∨ (s.startClock c).core c = s.core c := by
  rw [State.startClock, if_neg h]
  split
  · exact .inl (State.core_setCore_same _ _ _)
  · rw [State.core_powerTo]
    exact .inl (State.core_setCore_same _ _ _)
  · exact .inr (dozeWake_core _ _ _)
  · exact .inr rfl

/-- A core that starts at a bundle, and what its clock makes of it. -/
structure Core.StartsAt (k : Core) (pc : Nat) (k' : Core) : Prop where
  run : k'.run = .issuing
  pc : k'.seq.pc = BitVec.ofNat 12 pc
  mem : k'.mem = k.mem
  restartBy : k'.restartBy = none

theorem Core.startsAt_startAt (k : Core) (pc now entered : Nat) : k.StartsAt pc { k.startAt pc now entered with restartBy := none } := by
  constructor <;> simp [Core.startAt]

theorem tryRelease_cores (s : State) (n : Nat) : (tryRelease s n).cores = s.cores := by
  unfold tryRelease
  extract_lets r
  split
  · extract_lets
    split
    · rfl
    · split
      · exact (sent_sendControl _ _ _ _ _ _ _).cores
      · rfl
  · rfl

/-! ## What a flush clears (R576 step 4) -/

/-- A state after commands of the host have ended: only the host interface, the observation unit and the messages differ. -/
structure HostSide (s t : State) : Prop where
  rest : t = { s with host := t.host, observe := t.observe, out := t.out }

section
variable {s t u : State}

theorem HostSide.refl (s : State) : HostSide s s := ⟨rfl⟩

theorem HostSide.trans (h : HostSide s t) (h' : HostSide t u) : HostSide s u where
  rest := by
    calc u = { t with host := u.host, observe := u.observe, out := u.out } := h'.rest
      _ = { s with host := u.host, observe := u.observe, out := u.out } := by rw [h.rest]

theorem Posted.hostSide (h : Posted s t) : HostSide s t := ⟨h.rest⟩

theorem HostSide.foldl {α : Type} {f : State → α → State} (hf : ∀ s x, HostSide s (f s x)) (l : List α) (s : State) :
    HostSide s (l.foldl f s) :=
  List.foldlRecOn (motive := HostSide s) l f (.refl s) fun t ht x _ => ht.trans (hf t x)

end

theorem hostSide_finish (s : State) (h status detail r0 r1 : Nat) : HostSide s (s.finish h status detail r0 r1) := by
  cases ho : s.cmd? h with
  | none =>
    rw [finish_of_none ho]
    exact .refl s
  | some o => exact HostSide.trans (t := s.setHdl h { s.hdl h with out := none }) ⟨rfl⟩ (posted_finish ho status detail r0 r1).hostSide

theorem hostSide_tagEnded (s : State) (tag : Nat) : HostSide s (tagEnded s tag) := by
  refine HostSide.foldl (fun t e => ?_) _ s
  split
  · exact .refl t
  · have hkeep (f : HOut → HOut) : HostSide t (t.keep e.1 f) := ⟨rfl⟩
    extract_lets l s1
    split
    · exact (hkeep _).trans (hostSide_finish _ _ _ _ _ _)
    · exact hkeep _

theorem hostSide_hubDone (s : State) (key : Nat) : HostSide s (hubDone s key) :=
  HostSide.trans (t := { s with host := { s.host with writes := Tbl.del s.host.writes key } }) ⟨rfl⟩ (hostSide_tagEnded _ key)

/-- A state whose image n has been cleared: its region but for the steps delivered and those to deliver again, the fences of the cores, and
the sync objects with those of the image at 0. -/
structure Cleared (n : Nat) (s t : State) : Prop where
  region : ∃ steps again delivered, t.region n = { s.region n with steps := steps, again := again, delivered := delivered }
  fence : ∀ d, (t.core d).fence = (s.core d).fence
  syncs : ∀ i, (s.sync i).owner = some n → (t.sync i).value = 0 ∧ (t.sync i).owner = some n

theorem Cleared.congr {n : Nat} {s t u : State} (h : Cleared n s t) (hregions : u.regions = t.regions) (hcores : u.cores = t.cores)
    (hsyncs : u.syncs = t.syncs) : Cleared n s u := by
  refine ⟨?_, fun d => ?_, fun i => ?_⟩
  · rw [State.region, hregions]
    exact h.region
  · rw [State.core, hcores]
    exact h.fence d
  · rw [show u.sync i = t.sync i by rw [State.sync, hsyncs, State.sync]]
    exact h.syncs i

theorem Cleared.hostSide {n : Nat} {s t u : State} (h : Cleared n s t) (h' : HostSide t u) : Cleared n s u :=
  h.congr (by rw [h'.rest]) (by rw [h'.rest]) (by rw [h'.rest])

theorem Cleared.recordErr {n : Nat} {s t : State} (h : Cleared n s t) (r : ErrRec) : Cleared n s (t.recordErr r) :=
  h.congr (recordErr_regions t r) (recordErr_cores t r) (by rw [(recordErr_posted t r).rest])

theorem requeueSteps_rest (s : State) (n : Nat) : ∃ again serving,
    requeueSteps s n = { s.setRegion n { s.region n with steps := [], again := again } with serving := serving } := by
  unfold requeueSteps
  extract_lets r live back s1 ended s2
  have hs2 : s2 = { s1 with serving := s2.serving } :=
    List.foldlRecOn (motive := fun t : State => t = { s1 with serving := t.serving }) ended _ rfl fun t ht c _ => by
      split
      · exact ht
      · show t.delCtx c = { s1 with serving := (t.delCtx c).serving }
        rw [ht]
        rfl
  exact ⟨back ++ r.again, _, by rw [hs2]⟩

/-- The sync objects of the image at 0. -/
theorem sync_cleared {s t : State} {n i : Nat} (ht : t.syncs = Tbl.map (fun _ o => if o.owner = some n then { o with value := 0 } else o) s.syncs)
    (hi : (s.sync i).owner = some n) : (t.sync i).value = 0 ∧ (t.sync i).owner = some n := by
  rw [State.sync, Tbl.get] at hi ⊢
  rw [ht, Tbl.find_map]
  cases hfind : Tbl.find s.syncs i with
  | none =>
    rw [hfind] at hi
    cases hi
  | some o =>
    rw [hfind, Option.getD_some] at hi
    simp only [Option.map_some, Option.getD_some, if_pos hi]
    exact ⟨trivial, hi⟩

theorem cleared_clearImage (s : State) (n : Nat) : Cleared n s (clearImage s n) := by
  unfold clearImage
  extract_lets s1 cs s2 stale _ _ s3 s4
  have h1 : Cleared n s s1 := ⟨⟨_, _, _, rfl⟩, fun _ => rfl, fun i hi => sync_cleared rfl hi⟩
  have h2 : Cleared n s s2 := by
    refine List.foldlRecOn (motive := Cleared n s) cs _ h1 fun t ht c _ => ⟨ht.region, fun d => ?_, ht.syncs⟩
    rw [← ht.fence]
    by_cases hd : d = c
    · rw [hd, State.updCore, State.core_setCore_same]
    · rw [State.updCore, State.core_setCore_ne _ _ hd]
  have h3 : Cleared n s s3 := ⟨h2.region, h2.fence, h2.syncs⟩
  have h4 : Cleared n s s4 := h3.hostSide (HostSide.foldl (fun t (e : Nat × _) => hostSide_hubDone t e.1) _ s3)
  obtain ⟨steps, again, delivered, hregion⟩ := h4.region
  refine ⟨⟨steps, again, 0, ?_⟩, h4.fence, h4.syncs⟩
  rw [State.updRegion, State.region_setRegion_same, hregion]

/-- The state of an image whose flush has drained: cleared, and recorded (R588 code 0x0401). -/
def drained (s : State) (n : Nat) : State :=
  let u := clearImage (requeueSteps s n) n
  u.recordErr (plainRec u 0x0401 (some n) (u.region n).again.length 0)

theorem cleared_requeueSteps {s t : State} {n : Nat} (h : Cleared n (requeueSteps s n) t) : Cleared n s t := by
  obtain ⟨again, serving, hrequeue⟩ := requeueSteps_rest s n
  obtain ⟨⟨steps', again', delivered', hregion⟩, hfence, hsyncs⟩ := h
  rw [hrequeue] at hregion hfence hsyncs
  refine ⟨⟨steps', again', delivered', hregion.trans ?_⟩, hfence, hsyncs⟩
  rw [show ({ s.setRegion n { s.region n with steps := [], again := again } with serving := serving } : State).region n =
    { s.region n with steps := [], again := again } from State.region_setRegion_same _ _ _]

theorem cleared_drained (s : State) (n : Nat) : Cleared n s (drained s n) := by
  unfold drained
  extract_lets u
  have hu : Cleared n s u := cleared_requeueSteps (cleared_clearImage (requeueSteps s n) n)
  exact hu.recordErr _

section
variable {s : State} {n : Nat} {x : Flush} {b : BoundImage}

/-- The flush and the image of the region stand. -/
theorem drained_region (s : State) (n : Nat) : ((drained s n).region n).flush = (s.region n).flush ∧
    ((drained s n).region n).img = (s.region n).img ∧ ((drained s n).region n).relocs = (s.region n).relocs := by
  obtain ⟨steps, again, delivered, h⟩ := (cleared_drained s n).region
  rw [h]
  exact ⟨rfl, rfl, rfl⟩

theorem liveCores_congr {t : State} (himg : (t.region n).img = (s.region n).img) (hfence : ∀ d, (t.core d).fence = (s.core d).fence) :
    liveCores t n = liveCores s n := by
  simp only [liveCores, Region.imgCores, himg, hfence]

/-- The flush of an image all of whose cores have stopped, with nothing of theirs in the mesh, and whose group has stopped (R576 step 4,
R579). -/
theorem exec_flushDrained (hflush : (s.region n).flush = some x) (hphase : x.phase = 1) (himg : (s.region n).img = some b)
    (hstopped : ∀ d ∈ liveCores s n, ((s.core d).run = .stopped ∨ (s.core d).run = .halted) ∧ faultFlight s d 1 = none)
    (hclear : ∀ f ∈ s.mesh, f.pkt.svc = true ∨ f.pkt.region ≠ n)
    (hgroup : b.grouped = true → b.img.stage = 0 → ∀ i ∈ b.others, b.flushed.contains i = true) : execFlushDrained n s =
      .next (if laterStage (drained s n) n then
        sendControl ((drained s n).updRegion n fun r => { r with flush := some { x with phase := 4 } }) b 0 11 1 b.version []
      else tryRelease (orderRestart (if b.grouped && b.img.stage = 0 then
        sendAllStages ((drained s n).updRegion n fun r => { r with img := r.img.map fun b => { b with flushed := [] } }) b 10 2 b.version
      else drained s n) n) n) := by
  have hall : ((liveCores s n).all fun c =>
      ((s.core c).run = .stopped || (s.core c).run = .halted) && (faultFlight s c 1).isNone) = true :=
    List.all_eq_true.2 fun d hd => by simp [(hstopped d hd).1, (hstopped d hd).2]
  have hmesh : (s.mesh.all fun f => f.pkt.svc || f.pkt.region ≠ n) = true :=
    List.all_eq_true.2 fun f hf => by simpa using hclear f hf
  have hgo : ¬ (x.phase ≠ 1 ∨ (!((liveCores s n).all fun c =>
      ((s.core c).run = .stopped || (s.core c).run = .halted) && (faultFlight s c 1).isNone)) = true ∨
      (!(s.mesh.all fun f => f.pkt.svc || f.pkt.region ≠ n)) = true ∨
      ((b.grouped && b.img.stage = 0) = true ∧ (!b.others.all fun i => b.flushed.contains i) = true)) := by
    rw [hall, hmesh]
    simp only [hphase, ne_eq, not_true_eq_false, Bool.not_true, Bool.false_eq_true, false_or, Bool.and_eq_true, decide_eq_true_eq,
      Bool.not_eq_true', not_and, and_imp]
    intro hg hs
    simpa using hgroup hg hs
  unfold execFlushDrained
  simp only [hflush, himg]
  rw [if_neg hgo]
  exact (apply_ite Host.Outcome.next _ _ _).symm

/-- The orders to restart move the flush to its second phase. -/
theorem orderRestart_region (hflush : (s.region n).flush = some x) :
    (orderRestart s n).region n = { s.region n with flush := some { x with phase := 2 } } := by
  simp only [orderRestart, hflush]
  have hregions (t : State) (d : Nat) (f : Core → Core) : ((injectSvc t d (faultPacket d x.code 2)).updCore d f).regions = t.regions := by
    rw [injectSvc_order]
    rfl
  generalize hu : (liveCores s n).foldl _ s = u
  have hfold : u.regions = s.regions := by
    rw [← hu]
    refine List.foldlRecOn (motive := fun t : State => t.regions = s.regions) _ _ rfl fun t ht d _ => ?_
    split
    · exact ht
    · exact (hregions t d _).trans ht
  rw [State.updRegion, State.region_setRegion_same, State.region, hfold, ← State.region]

theorem orderRestart_of_none (hflush : (s.region n).flush = some x) (hlive : liveCores s n = []) :
    orderRestart s n = s.updRegion n fun r => { r with flush := some { x with phase := 2 } } := by
  simp only [orderRestart, hflush, hlive, List.foldl_nil]

/-- A first stage waits for the other stages of its group (R579). -/
theorem tryRelease_waits (hflush : (s.region n).flush = some x) (himg : (s.region n).img = some b) (hgroup : b.grouped = true)
    (hstage : b.img.stage = 0) (hothers : ∃ i ∈ b.others, b.flushed.contains i = false) : tryRelease s n = s := by
  obtain ⟨i, hi, hnot⟩ := hothers
  have hall : (b.others.all fun i => b.flushed.contains i) = false := List.all_eq_false.2 ⟨i, hi, by rw [hnot]; exact Bool.false_ne_true⟩
  simp only [tryRelease, hflush, himg]
  exact if_pos (.inr (.inr (.inr ⟨by simp [hgroup, hstage], by rw [hall]; rfl⟩)))

/-- An image of no group that no live core and no repair holds back is released. -/
theorem tryRelease_releases (hflush : (s.region n).flush = some x) (hphase : x.phase = 2) (himg : (s.region n).img = some b)
    (hgroup : b.grouped = false) (hlive : liveCores s n = []) (hrelocs : (s.region n).relocs = []) :
    tryRelease s n = s.setRegion n { s.region n with flush := none } := by
  have hlater (r : Region) (hr : r.img = some b) : laterStage (s.setRegion n r) n = false := by
    simp [laterStage, hr, hgroup]
  simp only [tryRelease, hflush, himg]
  rw [if_neg (by simp [hphase, hgroup, hlive, hrelocs]), hlater _ rfl, if_neg Bool.false_ne_true]

end

end Sys2Proof.Machine
end

section
/-!
SUPPORT. The statement of the flush of an image (R208, R576, R579).
-/
namespace Sys2Proof.Proofs
open Sys2Proof.Machine Sys2Proof.Safety

section
variable {s : State} {n c : Nat} {x : Flush} {b : BoundImage}

/-- Every live core of the image is ordered to stop. -/
theorem exec_imageFlush (hflush : (s.region n).flush = some x) (hphase : x.phase = 0) : exec (.imageFlush n) s =
    .next (((liveCores s n).foldl (fun v d => injectSvc v d (faultPacket d x.code 1)) s).updRegion n
      fun r => { r with flush := some { x with phase := 1 } }) := by
  show execImageFlush n s = _
  simp only [execImageFlush, hflush]
  exact if_neg (not_not.2 hphase)

theorem answers_imageFlush (hflush : (s.region n).flush = some x) (hphase : x.phase = 0) : answers (.imageFlush n) s fun t =>
    (∃ y, (t.region n).flush = some y ∧ y.phase = 1) ∧
      ∀ d ∈ liveCores s n, ∃ f ∈ t.mesh, f.loc = d ∧ f.pkt.op = 0xA ∧ f.pkt.dest = d ∧ faultAction f.pkt = 1 := by
  refine ⟨_, exec_imageFlush hflush hphase, ⟨_, by rw [State.updRegion, State.region_setRegion_same], rfl⟩, fun d hd => ?_⟩
  rw [foldl_order]
  exact ⟨orderFlight s.now x.code 1 d, List.mem_append_right _ (List.mem_map_of_mem hd), rfl, rfl, rfl, faultAction_stop d x.code⟩

/-- A core that takes the order to stop has nothing queued, in progress or outstanding. -/
theorem answers_faultActionStop {i : Nat} (hflight : faultFlight s c 1 = some i) (hrun : (s.core c).run = .issuing) :
    answers (.faultActionStop c) s fun t => (t.core c).run = .stopped ∧ (t.core c).seq.queued = [] ∧ (t.core c).active = [] ∧
      (t.core c).oqs = [] ∧ (t.core c).awaits = [] := by
  have he : exec (.faultActionStop c) s = .next ((s.unmesh i).haltCore c id) := by
    show execFaultActionStop c s = _
    simp only [execFaultActionStop, hflight, State.unmesh_core]
    exact if_pos (.inl hrun)
  refine ⟨_, he, ?_⟩
  simp only [State.haltCore, State.haltAt_core]
  exact ⟨rfl, rfl, rfl, rfl, rfl⟩

/-- A core that takes the order to restart issues at its restart bundle. -/
theorem answers_faultActionRestart {i : Nat} (hflight : faultFlight s c 2 = some i) (hfence : (s.core c).fence = none)
    (hrun : (s.core c).run = .stopped) (hthermal : s.thermal.state ≠ 1) : answers (.faultActionRestart c) s fun t =>
      (t.core c).run = .issuing ∧ (t.core c).seq.pc = BitVec.ofNat 12 (s.core c).prog.restart ∧ (t.core c).mem = (s.core c).mem ∧
        (t.core c).restartBy = none := by
  generalize hk : ({ (s.core c).startAt (s.core c).prog.restart s.now (s.core c).seq.entered with restartBy := none } : Core) = k
  have hstarts : (s.core c).StartsAt (s.core c).prog.restart k := hk ▸ Core.startsAt_startAt _ _ _ _
  obtain ⟨t, ht, hcores⟩ : ∃ t, exec (.faultActionRestart c) s = .next t ∧ t.cores = (((s.unmesh i).setCore c k).startClock c).cores := by
    have hgo : ¬ ((s.core c).fence.isSome = true ∨ (s.core c).run = .halted) := by simp [hfence, hrun]
    show ∃ t, execFaultActionRestart c s = _ ∧ _
    simp only [execFaultActionRestart, hflight, State.unmesh_core, State.unmesh_now, if_neg hgo, hk]
    refine ⟨_, rfl, ?_⟩
    split
    · exact tryRelease_cores _ _
    · rfl
  have hcore : t.core c = k.clockRuns s.now ∨ t.core c = k := by
    rw [State.core, hcores, ← State.core]
    have h := startClock_core_of_warm (s := (s.unmesh i).setCore c k) (c := c) hthermal
    rwa [State.core_setCore_same] at h
  refine ⟨t, ht, ?_⟩
  rcases hcore with h | h
  · rw [h]
    exact ⟨hstarts.run, hstarts.pc, hstarts.mem, hstarts.restartBy⟩
  · rw [h]
    exact ⟨hstarts.run, hstarts.pc, hstarts.mem, hstarts.restartBy⟩

theorem laterStage_drained (himg : (s.region n).img = some b) : laterStage (drained s n) n = (b.grouped && b.img.stage ≠ 0) := by
  obtain ⟨-, hdimg, -⟩ := drained_region s n
  simp only [laterStage, hdimg, himg]

section
variable (hflush : (s.region n).flush = some x) (hphase : x.phase = 1) (himg : (s.region n).img = some b)
  (hstopped : ∀ d ∈ liveCores s n, ((s.core d).run = .stopped ∨ (s.core d).run = .halted) ∧ faultFlight s d 1 = none)
  (hclear : ∀ f ∈ s.mesh, f.pkt.svc = true ∨ f.pkt.region ≠ n)
include hflush hphase himg hstopped hclear

/-- An image of no group is ordered to restart. -/
theorem exec_flushDrained_alone (hgroup : b.grouped = false) :
    exec (.flushDrained n) s = .next (tryRelease (orderRestart (drained s n) n) n) := by
  have he := exec_flushDrained hflush hphase himg hstopped hclear fun hg => by
    rw [hgroup] at hg
    cases hg
  rw [laterStage_drained himg, hgroup, Bool.false_and, Bool.false_and, if_neg Bool.false_ne_true, if_neg Bool.false_ne_true] at he
  exact he

/-- A later stage of a group waits for its first stage. -/
theorem answers_flushDrained_later (hgroup : b.grouped = true) (hstage : b.img.stage ≠ 0) :
    answers (.flushDrained n) s fun t => (t.region n).flush = some { x with phase := 4 } := by
  have he := exec_flushDrained hflush hphase himg hstopped hclear fun _ hs => absurd hs hstage
  rw [laterStage_drained himg, hgroup, if_pos (by simp [hstage])] at he
  generalize hw : (drained s n).updRegion n (fun r => { r with flush := some { x with phase := 4 } }) = w at he
  have hregion : (w.region n).flush = some { x with phase := 4 } := by rw [← hw, State.updRegion, State.region_setRegion_same]
  exact ⟨_, he, (congrArg Region.flush ((sent_sendControl w b 0 11 1 b.version []).region n)).trans hregion⟩

/-- The first stage of a group orders the restart, and waits for the reports of the others. -/
theorem answers_flushDrained_lead (hgroup : b.grouped = true) (hstage : b.img.stage = 0)
    (hothers : ∀ i ∈ b.others, b.flushed.contains i = true) : answers (.flushDrained n) s fun t =>
      (t.region n).img = some { b with flushed := [] } ∧ ∃ y, (t.region n).flush = some y ∧ y.phase = 2 := by
  have he := exec_flushDrained hflush hphase himg hstopped hclear fun _ _ => hothers
  obtain ⟨hdflush, hdimg, -⟩ := drained_region s n
  rw [laterStage_drained himg, hgroup, if_neg (by simp [hstage]), if_pos (by simp [hstage])] at he
  generalize hw : sendAllStages ((drained s n).updRegion n fun r => { r with img := r.img.map fun b => { b with flushed := [] } }) b 10 2
    b.version = w at he
  have hwregion : w.region n = { (drained s n).region n with img := some { b with flushed := [] } } := by
    rw [← hw, (sent_sendAllStages _ _ _ _ _).region, State.updRegion, State.region_setRegion_same, hdimg,
      himg]
    rfl
  have hwflush : (w.region n).flush = some x := by rw [hwregion, ← hflush, ← hdflush]
  have hregion := orderRestart_region hwflush
  rw [hwregion] at hregion
  have hothers' : ∃ i ∈ ({ b with flushed := [] } : BoundImage).others, ({ b with flushed := [] } : BoundImage).flushed.contains i = false := by
    refine ⟨1, ?_, rfl⟩
    have hmany : 1 < b.img.stages := by simpa [BoundImage.grouped] using hgroup
    simp [BoundImage.others, hstage, hmany]
  rw [tryRelease_waits (b := { b with flushed := [] }) (by rw [hregion]) (by rw [hregion]) hgroup hstage hothers'] at he
  exact ⟨_, he, by rw [hregion], _, by rw [hregion], rfl⟩

end

/-- An image without a live core is released at once, its sync objects at 0. -/
theorem answers_flushDrained_empty (hflush : (s.region n).flush = some x) (hphase : x.phase = 1) (himg : (s.region n).img = some b)
    (hstages : b.img.stages ≤ 1) (hlive : liveCores s n = []) (hmesh : s.mesh = []) (hrelocs : (s.region n).relocs = []) :
    answers (.flushDrained n) s fun t => (t.region n).flush = none ∧
      ∀ i, (s.sync i).owner = some n → (t.sync i).value = 0 ∧ (t.sync i).owner = some n := by
  have hgroup : b.grouped = false := by simpa [BoundImage.grouped] using hstages
  have he := exec_flushDrained_alone hflush hphase himg (by simp [hlive]) (by simp [hmesh]) hgroup
  obtain ⟨hdflush, hdimg, hdrelocs⟩ := drained_region s n
  have hcleared := cleared_drained s n
  generalize drained s n = v at he hdflush hdimg hdrelocs hcleared
  have hvlive : liveCores v n = [] := (liveCores_congr hdimg hcleared.fence).trans hlive
  rw [orderRestart_of_none (hdflush.trans hflush) hvlive] at he
  generalize hu : v.updRegion n (fun r => { r with flush := some { x with phase := 2 } }) = u at he
  have hregion : u.region n = { v.region n with flush := some { x with phase := 2 } } := by
    rw [← hu, State.updRegion, State.region_setRegion_same]
  have huimg : (u.region n).img = (v.region n).img := by rw [hregion]
  have hurelocs : (u.region n).relocs = (v.region n).relocs := by rw [hregion]
  have hulive : liveCores u n = [] := (liveCores_congr huimg fun d => by rw [← hu, State.updRegion, State.core_setRegion]).trans hvlive
  rw [tryRelease_releases (by rw [hregion]) rfl (huimg.trans (hdimg.trans himg)) hgroup hulive
    (hurelocs.trans (hdrelocs.trans hrelocs))] at he
  refine ⟨_, he, by rw [State.region_setRegion_same], fun i hi => ?_⟩
  rw [← hu]
  exact hcleared.syncs i hi

end

/-- Settles O30: the orders, what a core makes of them, and the three ends of a flush that has drained. -/
theorem flushRuns : Obligations.FlushRuns := by
  unfold Obligations.FlushRuns
  intro s n c
  exact ⟨fun x hflush hphase => ⟨exec_imageFlush hflush hphase, answers_imageFlush hflush hphase⟩,
    fun i hflight hrun => answers_faultActionStop hflight hrun,
    fun i hflight hfence hrun hthermal => answers_faultActionRestart hflight hfence hrun hthermal,
    fun x b hflush hphase himg hstopped hclear => ⟨exec_flushDrained_alone hflush hphase himg hstopped hclear,
      answers_flushDrained_later hflush hphase himg hstopped hclear, answers_flushDrained_lead hflush hphase himg hstopped hclear⟩,
    fun x b hflush hphase himg hstages _ hlive hmesh hrelocs _ =>
      answers_flushDrained_empty hflush hphase himg hstages hlive hmesh hrelocs⟩

end Sys2Proof.Proofs
end

section
/-!
SUPPORT. The statement of the order of dimensions (R225).
-/
namespace Sys2Proof.Proofs
open Sys2Proof.Machine Sys2Proof.Safety

/-! ## Neighbours (R11, R17) -/

theorem east_of_lt {c d : Nat} (h : coreCol c < coreCol d) : east c = some (c + 1) :=
  if_pos (by simp only [coreCol] at h ⊢; omega)
theorem west_of_lt {c d : Nat} (h : coreCol d < coreCol c) : west c = some (c - 1) :=
  if_neg (Nat.ne_of_gt (Nat.zero_lt_of_lt h))
theorem south_of_lt {c d : Nat} (hd : d < 19200) (h : coreRow c < coreRow d) : south c = some (c + 128) :=
  if_pos (by simp only [coreRow] at h ⊢; omega)
theorem north_of_lt {c d : Nat} (h : coreRow d < coreRow c) : north c = some (c - 128) :=
  if_neg (Nat.ne_of_gt (Nat.zero_lt_of_lt h))

section
variable {s : State} {p : Packet} {loc n : Nat} (hdetour : p.detour = 0) (hfree : permitted s p n = true ∧ isHole s n = false)
include hdetour hfree

/-- A packet with no detour that is not in its destination's column goes to the next router of its row, if that is free. -/
theorem nextHop_along_row (hcol : coreCol loc ≠ coreCol p.dest)
    (hnext : (if coreCol loc < coreCol p.dest then east loc else west loc) = some n) : nextHop s p loc = .go n 0 false false := by
  obtain ⟨hpermitted, hhole⟩ := hfree
  simp [nextHop, hdetour, hcol, hnext, hpermitted, hhole]

/-- In its destination's column it goes to the next router of the column, if that is free. -/
theorem nextHop_along_col (hcol : coreCol loc = coreCol p.dest)
    (hnext : (if coreRow loc < coreRow p.dest then south loc else north loc) = some n) : nextHop s p loc = .go n 0 true false := by
  obtain ⟨hpermitted, hhole⟩ := hfree
  simp [nextHop, hdetour, hcol, hnext, hpermitted, hhole]

end

/-- Settles O22: each direction is the next router of the row (`nextHop_along_row`) or of the column (`nextHop_along_col`). -/
theorem dimensionOrder : Obligations.DimensionOrder := by
  unfold Obligations.DimensionOrder
  intro s p loc hdetour _ hdest free
  refine ⟨fun hlt hfree => ?east, fun hlt hfree => ?west, fun hcol hlt hfree => ?south, fun hcol hlt hfree => ?north⟩
  case east => exact nextHop_along_row hdetour hfree hlt.ne (by rw [if_pos hlt, east_of_lt hlt])
  case west => exact nextHop_along_row hdetour hfree hlt.ne' (by rw [if_neg hlt.not_gt, west_of_lt hlt])
  case south => exact nextHop_along_col hdetour hfree hcol (by rw [if_pos hlt, south_of_lt hdest hlt])
  case north => exact nextHop_along_col hdetour hfree hcol (by rw [if_neg hlt.not_gt, north_of_lt hlt])

end Sys2Proof.Proofs
end

section
/-!
SUPPORT. What a hop leaves of the flights and of the time (R219, R225 to R231, R240).
-/
namespace Sys2Proof.Machine
open Sys2Proof.Safety

/-! ## Waits that a step bears (R240, R357) -/

/-- A wait is kept with requests: the flights and the time stay. -/
theorem updCtx_flights (s : State) (c : Nat) (f : Ctx → Ctx) : (s.updCtx c f).mesh = s.mesh ∧ (s.updCtx c f).now = s.now := by
  unfold State.updCtx
  split <;> exact ⟨rfl, rfl⟩

theorem namedCtxs_flights (s : State) (n : Nat) (req : W32) (seq : Option Nat) :
    (namedCtxs s n req seq).2.mesh = s.mesh ∧ (namedCtxs s n req seq).2.now = s.now := by
  unfold namedCtxs
  extract_lets live
  split
  · exact ⟨rfl, rfl⟩
  · split
    · split
      · exact ⟨rfl, rfl⟩
      · unfold State.draw
        dsimp only
        split <;> exact ⟨rfl, rfl⟩
    · exact ⟨rfl, rfl⟩

theorem bearWait_flights (s : State) (c : Nat) (req : W32) (seq : Option Nat) (ns : Nat) (f : Ctx → Nat → Ctx) :
    (bearWait s c req seq ns f).mesh = s.mesh ∧ (bearWait s c req seq ns f).now = s.now := by
  unfold bearWait
  split
  · exact ⟨rfl, rfl⟩
  next n _ =>
    split
    · exact ⟨rfl, rfl⟩
    · refine List.foldlRecOn (motive := fun t : State => t.mesh = s.mesh ∧ t.now = s.now) _ _ (namedCtxs_flights s n req seq)
        fun t ⟨hmesh, hnow⟩ x _ => ?_
      obtain ⟨hmesh', hnow'⟩ := updCtx_flights t x fun x => f x ns
      exact ⟨hmesh'.trans hmesh, hnow'.trans hnow⟩

theorem dozeOver_flights (s : State) (f : Flight) : (dozeOver s f).mesh = s.mesh ∧ (dozeOver s f).now = s.now := by
  unfold dozeOver
  split <;> exact ⟨rfl, rfl⟩

/-- The flight's wait for a region to wake is over. -/
theorem wakeBorne_flights (s : State) (f : Flight) (who : Nat × W32 × Option Nat) (ns : Nat) :
    (bearWake (dozeOver s f) who ns).mesh = s.mesh ∧ (bearWake (dozeOver s f) who ns).now = s.now := by
  obtain ⟨hmesh, hnow⟩ := dozeOver_flights s f
  obtain ⟨hmesh', hnow'⟩ := bearWait_flights (dozeOver s f) who.1 who.2.1 who.2.2 ns fun y w => { y with wakeNs := y.wakeNs + w }
  exact ⟨hmesh'.trans hmesh, hnow'.trans hnow⟩

/-! ## Discards -/

theorem discardFault_mesh (s : State) (loc : Nat) (p : Packet) : (discardFault s loc p).mesh = s.mesh := by
  unfold discardFault
  extract_lets s1
  split
  · rfl
  · exact (atCore_stepFaultFrom s1 p.src _ _).mesh

/-- A counter of a core that is not fenced counts modulo 2^48 (R615). -/
theorem Core.count_ctrs {k : Core} (hfence : k.fence = none) (b i : Nat) :
    Tbl.get (k.count b i 1).ctrs 0 (8 * b + i) = (Tbl.get k.ctrs 0 (8 * b + i) + 1) % 2 ^ 48 := by
  rw [Core.count, if_neg (by simp [hfence])]
  exact Tbl.get_set_same _ _ _ _

/-! ## The branches of a hop -/

section
variable {s : State} {i : Nat} {f : Flight} (hf : s.mesh[i]? = some f)
include hf

/-- A packet of a reserved kind is discarded and counted. -/
theorem exec_packetHop_reserved (hop : f.pkt.op = 0 ∨ 0xC < f.pkt.op) : exec (.packetHop i) s = .next (dropPacket (s.unmesh i) f.loc) := by
  show execPacketHop i s = _
  simp only [execPacketHop, hf]
  exact if_pos (by rw [← or_assoc]; exact .inl hop)

variable (hlow : f.pkt.op ≠ 0) (hhigh : f.pkt.op ≤ 0xC) (hmerge : f.pkt.op ≠ 4) (hregion : f.pkt.region < 64) (haway : f.loc ≠ f.pkt.dest)
include hlow hhigh hmerge hregion haway

/-- A packet at a router that is a hole is discarded. -/
theorem exec_packetHop_hole (hhole : isHole s f.loc = true) :
    exec (.packetHop i) s = .next (discardFault (s.unmesh i) f.loc f.pkt) := by
  have hop : ¬ (f.pkt.op = 0 ∨ 0xC < f.pkt.op ∨ (64 ≤ f.pkt.region ∧ f.pkt.region ≠ 127)) := by omega
  show execPacketHop i s = _
  simp only [execPacketHop, hf]
  rw [if_neg hop, if_neg (by simp [hmerge, haway]), if_pos hhole]

/-- An undamaged packet whose next router is there and awake stands at that router, where it stood among the flights. -/
theorem exec_packetHop_go {c d : Nat} {col side : Bool} (hred : f.pkt.op ≠ 7) (hhead : f.pkt.badHead = false) (hbad : f.pkt.badFrom = none)
    (hloc : isHole s f.loc = false) (hdest : isHole s f.pkt.dest = false) (hpermitted : permitted s f.pkt f.loc = true)
    (hforbidden : onForbidden s f.pkt = false) (hgo : nextHop s f.pkt f.loc = .go c d col side)
    (hawake : routersWait (s.preg (powerOf f.loc)) = false) (hnext : routersWait (s.preg (powerOf c)) = false) :
    ∃ u : State, u.mesh = s.mesh ∧ u.now = s.now ∧ exec (.packetHop i) s = .next
      { u with mesh := u.mesh.set i { loc := c, pkt := { f.pkt with detour := d, soft := 0 }, colMove := col, since := u.now } } := by
  have hop : ¬ (f.pkt.op = 0 ∨ 0xC < f.pkt.op ∨ (64 ≤ f.pkt.region ∧ f.pkt.region ≠ 127)) := by omega
  obtain ⟨hmesh, hnow⟩ := wakeBorne_flights s f (f.pkt.bearer s) (f.dozed s.now)
  show ∃ u : State, u.mesh = s.mesh ∧ u.now = s.now ∧ execPacketHop i s = _
  simp only [execPacketHop, hf]
  rw [if_neg hop, if_neg (by simp [hmerge, haway]), if_neg (by simp [hloc]), if_neg (by simp [hawake]),
    if_neg (by simp [hpermitted, hforbidden]), if_neg (by simp [hdest])]
  simp only [hgo, hnext, hhead, receiveAt, hbad, Bool.false_eq_true, if_false, moveOn, if_neg hred]
  refine ⟨_, ?_, ?_, rfl⟩
  · split <;> exact hmesh
  · split <;> exact hnow

end

end Sys2Proof.Machine
end

section
/-!
SUPPORT. The statement of packets that hop (R221, R225 to R231).
-/
namespace Sys2Proof.Proofs
open Sys2Proof.Machine Sys2Proof.Safety

/-- Settles O21: the three branches of a hop, in which the flights change by the packet's own move or discard. -/
theorem packetHops : Obligations.PacketHops := by
  unfold Obligations.PacketHops
  intro s i f hf
  refine ⟨fun c d col side hlow hhigh hmerge hred hregion hhead hbad hloc hdest haway hpermitted hforbidden hgo hawake hnext => ?moves,
    fun hop => ⟨_, exec_packetHop_reserved hf hop, rfl, fun hfence => ?counted⟩, fun hlow hhigh hmerge hregion haway hhole => ?hole⟩
  case moves =>
    obtain ⟨u, hmesh, hnow, he⟩ := exec_packetHop_go hf hlow hhigh hmerge hregion haway hred hhead hbad hloc hdest hpermitted hforbidden hgo
      hawake hnext
    rw [hmesh, hnow] at he
    exact ⟨_, he, rfl⟩
  case counted =>
    rw [dropPacket, State.core_updCore_same]
    exact Core.count_ctrs hfence 16 6
  case hole => exact ⟨_, exec_packetHop_hole hf hlow hhigh hmerge hregion haway hhole, discardFault_mesh _ _ _⟩

end Sys2Proof.Proofs
end

section
/-!
SUPPORT. Sums of reduction lines, and what a contribution does where it lands (R233 to R235).
-/
namespace Sys2Proof.Machine
open Sys2Proof.Safety

/-! ## Sums of words (R233) -/

theorem chunksGo_nil {α : Type} (f n : Nat) : chunksGo f n ([] : List α) = [] := by
  cases f <;> rfl

/-- A list no longer than a run is one run. -/
theorem chunks_whole {α : Type} {n : Nat} {l : List α} (hn : 0 < n) (h : l.length = n) : chunks n l = [l] := by
  obtain ⟨m, rfl⟩ : ∃ m, n = m + 1 := ⟨n - 1, by omega⟩
  have hne : l.isEmpty = false := List.isEmpty_eq_false_iff.2 fun he => by simp [he] at h
  rw [chunks, h, Nat.max_eq_left (by omega), chunksGo, hne, if_neg Bool.false_ne_true, List.take_of_length_le h.le,
    List.drop_eq_nil_of_le h.le, chunksGo_nil]

theorem leNat_word (v : W64) : leNat (leBytes 8 v.toNat) = v.toNat :=
  (leNat_leBytes 8 _).trans (Nat.mod_eq_of_lt v.isLt)

/-- The signed reading of a word is its two's complement. -/
theorem signedOf_toNat (v : W64) : signedOf 64 v.toNat = v.toInt := by
  rw [BitVec.toInt_eq_msb_cond, BitVec.msb_eq_getLsbD_last, ← BitVec.testBit_toNat]
  rfl

theorem wrapAdd_words (v w : W64) : wrapAdd v.toNat w.toNat =
    ((v + w).toNat, decide (v.toInt + w.toInt < -2 ^ 63 ∨ 2 ^ 63 ≤ v.toInt + w.toInt)) := by
  simp only [wrapAdd, signedOf_toNat, BitVec.toNat_add, Bool.decide_or]

/-- INT64 addition of one word. -/
theorem addLines_word (v w : W64) : addLines 0 (leBytes 8 v.toNat) (leBytes 8 w.toNat) =
    (leBytes 8 (v + w).toNat, if v.toInt + w.toInt < -2 ^ 63 ∨ 2 ^ 63 ≤ v.toInt + w.toInt then 1 else 0) := by
  rw [addLines, if_pos rfl, chunks_whole (by decide) (length_leBytes 8 _), chunks_whole (by decide) (length_leBytes 8 _)]
  simp only [List.zipWith_cons_cons, List.zipWith_nil_left, leNat_word, wrapAdd_words, List.flatMap_cons, List.flatMap_nil,
    List.append_nil, List.filter_cons, List.filter_nil, decide_eq_true_eq]
  split <;> rfl

/-! ## A line that lands (R235) -/

theorem lineFail_nil (k : Core) : lineFail k [] = none := by
  simp [lineFail, Core.badLines]

@[simp] theorem Core.count_zero (k : Core) (b i : Nat) : k.count b i 0 = k := if_pos (.inr rfl)

theorem Core.readSoftLines_nil (k : Core) : k.readSoftLines [] = k := by
  unfold Core.readSoftLines
  split
  · rfl
  · exact k.count_zero 15 7

/-- A line is written as its first 64 bytes. -/
theorem Core.writeLine_slice (k : Core) (r c : Nat) (b : Bytes) : k.writeLine r c (slice b 0 64) = k.writeLine r c b := by
  simp only [Core.writeLine, slice_all (length_slice b 0 64)]

section
variable {s : State} {c n : Nat} {p : Packet} {e : Nat} {mask : W32} (he : (Tbl.get (s.core c).router.red 0 p.id).toNat = e)
  (hrecv : Tbl.get (s.core c).router.recv (0, 0) p.id = (n, mask)) (hexpected : bits e 25 10 ≠ 0) (harith : bits e 42 41 = p.a)
  (hline : p.line ≤ bits e 47 43)
include he hrecv hexpected harith hline

/-- The first contribution to a line, with others to come, is written and counted. -/
theorem landReduce_first (hfirst : mask.getLsbD p.line = false) (hmore : n + p.count < bits e 25 10 * (bits e 47 43 + 1)) :
    let k := (s.core c).writeLine (bits e 63 53) ((bits e 52 48 + p.line) % 32) p.payload
    landReduce s c p = s.setCore c { k with router := { k.router with
      recv := Tbl.set k.router.recv p.id (n + p.count, mask ||| BitVec.ofNat 32 (2 ^ p.line)) } } := by
  have hlands : ¬ (bits e 25 10 = 0 ∨ bits e 42 41 ≠ p.a ∨ bits e 47 43 < p.line) := by
    simp [hexpected, harith, hline]
  intro k
  simp only [landReduce, he, hrecv, if_neg hlands, hfirst, Bool.false_eq_true, if_false, lineFail_nil, Core.readSoftLines_nil,
    Core.writeLine_slice, Core.count_zero, if_neg (Nat.not_le.2 hmore)]
  rfl

/-- The last contribution to an entry signals its sync object. -/
theorem landReduce_last (hlast : bits e 25 10 * (bits e 47 43 + 1) ≤ n + p.count) (hsound : mask.getLsbD p.line = true →
      lineFail (s.core c) [(((bits e 63 53 : Nat) : Int), (bits e 52 48 + p.line) % 32)] = none) :
    ∃ k owner, landReduce s c p = applySignal (s.setCore c k) c owner (bits e 40 26) 1 := by
  have hlands : ¬ (bits e 25 10 = 0 ∨ bits e 42 41 ≠ p.a ∨ bits e 47 43 < p.line) := by
    simp [hexpected, harith, hline]
  have hread : lineFail (s.core c) (if mask.getLsbD p.line then [(((bits e 63 53 : Nat) : Int), (bits e 52 48 + p.line) % 32)] else []) =
      none := by
    split
    next hadds => exact hsound hadds
    · exact lineFail_nil _
  simp only [landReduce, he, hrecv, if_neg hlands, hread, if_pos hlast]
  exact ⟨_, _, rfl⟩

end

end Sys2Proof.Machine
end

section
/-!
SUPPORT. The statement of reductions that land (R233 to R235).
-/
namespace Sys2Proof.Proofs
open Sys2Proof.Machine Sys2Proof.Safety

theorem exec_reduce {s : State} {i : Nat} {f : Flight} (hx : s.mesh[i]? = some f) (hl : landsAtOnce s f) (hop : f.pkt.op = 7)
    (hfence : (s.core f.pkt.dest).fence = none) (hdraining : draining s f.pkt.region = false) :
    exec (.reduce i) s = .next (landReduce (s.unmesh i) f.pkt.dest f.pkt) := by
  have hgo : ¬ (((s.unmesh i).core f.pkt.dest).fence.isSome = true ∨ draining (s.unmesh i) f.pkt.region = true) := by
    rw [State.unmesh_core, hfence, show draining (s.unmesh i) f.pkt.region = draining s f.pkt.region from rfl, hdraining]
    decide
  show execReduce i s = _
  simp only [execReduce, arrive_lands hx hl hop]
  rw [if_neg hgo]

/-- Settles O26: a contribution that lands is the first of its line (`landReduce_first`) or the last of its entry (`landReduce_last`). -/
theorem reductionsLand : Obligations.ReductionsLand := by
  unfold Obligations.ReductionsLand
  refine ⟨addLines_word, ?_⟩
  intro s i f hx hl hop p c e n mask row col hfence hdraining hexpected harith hline
  refine ⟨fun hfirst hmore => ?first, fun hsound hlast => ?last⟩
  case first =>
    refine ⟨_, (exec_reduce hx hl hop hfence hdraining).trans (congrArg Host.Outcome.next
      (landReduce_first (s := s.unmesh i) rfl rfl hexpected harith hline hfirst hmore)), ?_, ?_, rfl⟩
    · rw [State.core_setCore_same]
      rfl
    · rw [State.core_setCore_same]
      exact Tbl.get_set_same _ _ _ _
  case last =>
    obtain ⟨k, owner, hland⟩ := landReduce_last (s := s.unmesh i) rfl rfl hexpected harith hline hlast hsound
    have hraised := raised_applySignal ((s.unmesh i).setCore c k) c owner (bits e 40 26) 1
    exact ⟨_, (exec_reduce hx hl hop hfence hdraining).trans (congrArg Host.Outcome.next hland), hraised.value, hraised.others⟩

end Sys2Proof.Proofs
end

section
/-!
SUPPORT. What a write to host memory leaves of the state (R285, R415): the sites' modules and the messages sent alone change.
-/
namespace Sys2Proof.Machine

/-- A state after messages to host sites: only what the sites' modules hold and what has left the block differ. -/
structure SitesOnly (s t : State) : Prop where
  rest : t = { s with host := { s.host with sites := t.host.sites }, out := t.out }

section
variable {s t u : State}

theorem SitesOnly.refl (s : State) : SitesOnly s s := ⟨rfl⟩

theorem SitesOnly.trans (h : SitesOnly s t) (h' : SitesOnly t u) : SitesOnly s u where
  rest := by
    calc u = { t with host := { t.host with sites := u.host.sites }, out := u.out } := h'.rest
      _ = { s with host := { s.host with sites := u.host.sites }, out := u.out } := by rw [h.rest]

theorem SitesOnly.cores (h : SitesOnly s t) : t.cores = s.cores := by rw [h.rest]
theorem SitesOnly.core (h : SitesOnly s t) (c : Nat) : t.core c = s.core c := by rw [State.core, h.cores, State.core]
theorem SitesOnly.regions (h : SitesOnly s t) : t.regions = s.regions := by rw [h.rest]
theorem SitesOnly.observe (h : SitesOnly s t) : t.observe = s.observe := by rw [h.rest]
theorem SitesOnly.writes (h : SitesOnly s t) : t.host.writes = s.host.writes := by rw [h.rest]

end

theorem sitesOnly_setSite (s : State) (i : Nat) (x : Site) : SitesOnly s (s.setSite i x) := by
  unfold State.setSite
  split <;> exact ⟨rfl⟩

theorem sitesOnly_drainMod (s : State) (i m : Nat) : SitesOnly s (s.drainMod i m) :=
  (sitesOnly_setSite s i _).trans ⟨rfl⟩

theorem sitesOnly_hostSend (s : State) (i : Nat) (m : HMsg) : SitesOnly s (s.hostSend i m) := by
  simp only [State.hostSend]
  split
  · exact .refl s
  · exact (sitesOnly_setSite s i _).trans (sitesOnly_drainMod _ i _)

theorem sitesOnly_writeGo (n : Nat) (s : State) (i addr : Nat) (d : Bytes) : SitesOnly s (writeGo n s i addr d) := by
  induction n generalizing s addr d with
  | zero => exact .refl s
  | succ n ih =>
    rw [writeGo]
    split
    · exact .refl s
    · exact (sitesOnly_hostSend s i _).trans (ih _ _ _)

theorem sitesOnly_hostWrite (s : State) (i addr : Nat) (d : Bytes) : SitesOnly s (s.hostWrite i addr d) := by
  unfold State.hostWrite
  split
  · exact .refl s
  · exact sitesOnly_writeGo _ s i addr _

theorem sitesOnly_winWriteGo (n : Nat) (s : State) (w : Window) (off : Nat) (d : Bytes) : SitesOnly s (winWriteGo n s w off d) := by
  induction n generalizing s off d with
  | zero => exact .refl s
  | succ n ih =>
    rw [winWriteGo]
    split
    · exact .refl s
    · extract_lets k s1
      have hpage : SitesOnly s s1 := by
        unfold s1
        split
        · exact sitesOnly_hostWrite _ _ _ _
        · exact .refl s
      exact hpage.trans (ih _ _ _)

/-- Bytes written to a window slot (R285). -/
theorem sitesOnly_winWrite (s : State) (w : Window) (off : Nat) (d : Bytes) : SitesOnly s (winWrite s w off d) :=
  sitesOnly_winWriteGo _ s w off d

end Sys2Proof.Machine
end

section
/-!
SUPPORT. Class 1 writes at their hub: the record that stands for one, and what a packet with others to come does (R284, R439, R441).
-/
namespace Sys2Proof.Machine

/-! ## Requests outstanding -/

/-- A request that has been put back is found as it was put. -/
theorem Core.await?_putAwait {k : Core} {q req : Nat} {a b : Await} (ha : k.await? q req = some a) (hq : b.q = a.q) (hreq : b.req = a.req) :
    (k.putAwait b).await? q req = some b := by
  have hkey : a.q = q ∧ a.req = req := by simpa using List.find?_some ha
  have hsame : (fun x : Await => decide (x.q = q) && decide (x.req = req)) ∘
      (fun x => if x.q = b.q && x.req = b.req then b else x) = fun x => decide (x.q = q) && decide (x.req = req) := by
    funext x
    by_cases hx : x.q = q ∧ x.req = req <;> simp [hx, hq, hreq, hkey]
  simp only [Core.await?] at ha ⊢
  rw [Core.putAwait, List.find?_map, hsame, ha]
  simp [hq, hreq]

/-- A completion with Status 0 ends its request at a calm core with empty input queues, whatever it was. -/
theorem complete_ends {s : State} {c : Nat} {a : Await} (h : (s.core c).Calm) (hiq : (s.core c).iqs = []) (hsig : a.sig = none) :
    ((complete s c a 0).core c).Ended a (s.core c).mem := by
  by_cases hkind : a.write = true ∨ a.toWalk = true
  · exact complete_ended h hiq hsig hkind
  · have hread : (!a.write && !a.toWalk) = true := by simpa using hkind
    have hempty : (s.setCore c ((s.core c).dropAwait a.q a.req)).core c = (s.core c).dropAwait a.q a.req := State.core_setCore_same _ _ _
    have hend : complete s c a 0 = s.setCore c ((s.core c).dropAwait a.q a.req) := by
      simp [complete, hread, hsig, readyFault, Core.iq, Core.dropAwait, hiq, Tbl.get]
    rw [hend, hempty]
    exact ⟨⟨h.run, h.held, h.oqs⟩, Core.await?_dropAwait _ _ _, rfl⟩

/-! ## Lines sent to the host -/

section
variable {s : State} {c q req lines status : Nat}

theorem class1Written_of_none (ha : (s.core c).await? q req = none) : class1Written s c q req lines status = s := by
  simp only [class1Written, ha]

/-- A write with lines still to go stays outstanding. -/
theorem class1Written_of_more {a : Await} (ha : (s.core c).await? q req = some a) (hmore : lines < a.left) :
    ((class1Written s c q req lines status).core c).await? q req =
      some { a with left := a.left - lines, status := if a.status = 0 then status else a.status } := by
  simp only [class1Written, ha, if_neg (Nat.not_le.2 hmore), State.core_updCore_same]
  exact Core.await?_putAwait ha rfl rfl

theorem ifaceIn_host (s : State) (c q pos cls status : Nat) (data : List Bytes) : (ifaceIn s c q pos cls status data).host = s.host := by
  unfold ifaceIn
  extract_lets r hub
  rw [placeAt_alone]
  exact show (0xC : Nat) ≠ 7 by decide

theorem class1Written_host : (class1Written s c q req lines status).host = s.host := by
  unfold class1Written
  split
  · rfl
  · extract_lets st s1
    split
    · exact ifaceIn_host _ _ _ _ _ _ _
    · rfl

end

/-! ## The record of a write (R284) -/

/-- The key of a packet's request at its hub. -/
def Packet.hubKey (p : Packet) : Nat := Machine.hubKey p.src (tagQueue p.tag) (tagPos p.tag)

/-- The host address of a class 1 packet. -/
def Packet.hostAddr (p : Packet) : Nat := bits p.body.toNat 127 64

/-- The record that stands for a class 1 write: the one that is kept, or the one that this first packet fixes. -/
def hubRecord (s : State) (p : Packet) : HubWrite :=
  match Tbl.find s.host.writes p.hubKey with
  | some h => h
  | none =>
    let r := Tbl.find (s.region p.region).windows (p.hostAddr / 2 ^ 60)
    { slot := p.hostAddr / 2 ^ 60, win := r, refused := recordStatus s r (p.hostAddr % 2 ^ 60) 2 p.reqLines = 2, left := p.reqLines }

/-- The status of a packet's lines under a record. -/
def HubWrite.status (s : State) (p : Packet) (h : HubWrite) : Nat :=
  if h.refused then 2 else recordStatus s h.win (p.hostAddr % 2 ^ 60) 2 (p.length / 2)

/-- A packet's lines go to the host by a record. -/
def HubWrite.written (s : State) (p : Packet) (h : HubWrite) : State :=
  match h.win with
  | some w => if h.status s p = 0 then winWrite s w (p.hostAddr % 2 ^ 60) p.payload else s
  | none => s

theorem HubWrite.sitesOnly_written (s : State) (p : Packet) (h : HubWrite) : SitesOnly s (h.written s p) := by
  unfold HubWrite.written
  split
  · split
    · exact sitesOnly_winWrite _ _ _ _
    · exact .refl s
  · exact .refl s

/-- A packet with others of its write to come: its lines are sent, and the record waits for fewer. -/
theorem class1Part_more {s : State} {p : Packet} {h : HubWrite} (hrecord : hubRecord s p = h) (hmore : p.length / 2 < h.left) :
    let v := class1Written (h.written s p) p.src (tagQueue p.tag) (tagPos p.tag) (p.length / 2) (h.status s p)
    class1Part s p =
      { v with host := { v.host with writes := Tbl.set s.host.writes p.hubKey { h with left := h.left - p.length / 2 } } } := by
  subst hrecord
  intro v
  have hwrites : v.host.writes = s.host.writes := by
    unfold v
    rw [class1Written_host, ((hubRecord s p).sitesOnly_written s p).writes]
  have hpart : class1Part s p = if (hubRecord s p).left ≤ p.length / 2 then hubDone v p.hubKey else
      { v with host := { v.host with
        writes := Tbl.set v.host.writes p.hubKey { hubRecord s p with left := (hubRecord s p).left - p.length / 2 } } } := rfl
  rw [hpart, if_neg (Nat.not_le.2 hmore), hwrites]

end Sys2Proof.Machine
end

section
/-!
SUPPORT. The statement of interface packets (R246, R284, R439, R441, R603).
-/
namespace Sys2Proof.Proofs
open Sys2Proof.Machine Sys2Proof.Safety

/-- Packets of class 2 wait for none of class 1. -/
theorem earlierPart_of_class2 {s : State} {p : Packet} (h : p.cls = 2) : earlierPart s p = false := by
  simp [earlierPart, h]

section
variable {s : State} {i : Nat} {f : Flight} (hx : s.mesh[i]? = some f)
include hx

/-- A packet waits for an earlier one of its write. -/
theorem exec_ifaceOut_waits (hearlier : earlierPart s f.pkt = true) : exec (.ifaceOut i) s = .next s := by
  show execIfaceOut i s = _
  simp only [execIfaceOut, hx, if_pos hearlier]

variable (hl : landsAtOnce s f)
include hl

/-- A packet that waits for none passes the hub with its region's grant at the exit of its source. -/
theorem exec_ifaceOut (hop : f.pkt.op = 0xB) (hregion : f.pkt.region < 64) (hearlier : earlierPart s f.pkt = false) :
    exec (.ifaceOut i) s = .next (
      if (if f.pkt.cls = 2 then (s.region f.pkt.region).grant.getLsbD 1 else (s.region f.pkt.region).grant.getLsbD 0) = true ∧
          exitRouter (s.region f.pkt.region).exit f.pkt.src = some f.loc then
        if f.pkt.cls = 2 then class2Out (s.unmesh i) f.pkt else class1Out (s.unmesh i) f.pkt
      else discardFault (s.unmesh i) f.loc f.pkt) := by
  have hunmesh : (s.unmesh i).region f.pkt.region = s.region f.pkt.region := rfl
  show execIfaceOut i s = _
  simp only [execIfaceOut, hx, hearlier, Bool.false_eq_true, if_false, arrive_lands hx hl hop, hunmesh, hl.1]
  congr 1
  rw [← ite_not]
  refine if_congr ?_ rfl rfl
  simp only [Nat.not_le.2 hregion, false_or, Bool.not_eq_true', not_or, Bool.not_eq_false, not_not]

theorem exec_ifaceOut_class1 (hop : f.pkt.op = 0xB) (hregion : f.pkt.region < 64) (hclass : f.pkt.cls ≠ 2)
    (hearlier : earlierPart s f.pkt = false) (hgrant : (s.region f.pkt.region).grant.getLsbD 0 = true)
    (hexit : exitRouter (s.region f.pkt.region).exit f.pkt.src = some f.loc) :
    exec (.ifaceOut i) s = .next (class1Out (s.unmesh i) f.pkt) := by
  rw [exec_ifaceOut hx hl hop hregion hearlier, if_neg hclass, if_pos ⟨hgrant, hexit⟩, if_neg hclass]

theorem exec_ifaceOut_class2 (hop : f.pkt.op = 0xB) (hregion : f.pkt.region < 64) (hclass : f.pkt.cls = 2)
    (hgrant : (s.region f.pkt.region).grant.getLsbD 1 = true)
    (hexit : exitRouter (s.region f.pkt.region).exit f.pkt.src = some f.loc) :
    exec (.ifaceOut i) s = .next (class2Out (s.unmesh i) f.pkt) := by
  rw [exec_ifaceOut hx hl hop hregion (earlierPart_of_class2 hclass), if_pos hclass, if_pos ⟨hgrant, hexit⟩, if_pos hclass]

theorem exec_ifaceOut_ungranted (hop : f.pkt.op = 0xB) (hregion : f.pkt.region < 64) (hclass : f.pkt.cls ≠ 2)
    (hearlier : earlierPart s f.pkt = false) (hgrant : (s.region f.pkt.region).grant.getLsbD 0 = false) :
    exec (.ifaceOut i) s = .next (discardFault (s.unmesh i) f.loc f.pkt) := by
  rw [exec_ifaceOut hx hl hop hregion hearlier, if_neg hclass, if_neg fun ⟨h, _⟩ => Bool.false_ne_true (hgrant.symm.trans h)]

/-- The source of a packet that its region may not send stops with cause 8. -/
theorem answers_ifaceOut_ungranted (hop : f.pkt.op = 0xB) (hregion : f.pkt.region < 64) (hclass : f.pkt.cls = 1)
    (hearlier : earlierPart s f.pkt = false) (hgrant : (s.region f.pkt.region).grant.getLsbD 0 = false)
    (hrun : (s.core f.pkt.src).run = .issuing) (hsrc : f.pkt.src ≠ f.loc) :
    answers (.ifaceOut i) s fun t => (t.core f.pkt.src).run = .stopped ∧ ∃ r, (t.core f.pkt.src).report = some r ∧ r.cause = 8 := by
  have hcore : ((s.unmesh i).updCore f.loc fun k => k.count 16 6 1).core f.pkt.src = s.core f.pkt.src := State.core_updCore_ne _ _ hsrc
  have hfault := stepFaultFrom_faulted (s := (s.unmesh i).updCore f.loc fun k => k.count 16 6 1) ⟨8, coreByteId f.pkt.dest, 0⟩ f.pkt.issuer
    (by rw [hcore, hrun])
  obtain ⟨r, hreport, hcause, -⟩ := hfault.report
  refine ⟨_, exec_ifaceOut_ungranted hx hl hop hregion (by omega) hearlier hgrant, ?_⟩
  rw [discardFault, if_neg (by omega)]
  exact ⟨hfault.run, r, hreport, hcause⟩

/-- A completion ends its request, and read data lands. -/
theorem exec_ifaceIn_core (hop : f.pkt.op = 0xC) (hown : f.pkt.length = 0 ∨ f.pkt.cls ≠ 2) {a : Await}
    (ha : (s.core f.pkt.dest).await? (tagQueue f.pkt.tag) (tagPos f.pkt.tag) = some a) : exec (.ifaceIn i) s = .next (
      if f.pkt.length = 0 then settle (complete (s.unmesh i) f.pkt.dest a f.pkt.body.toNat) f.pkt.dest
      else settle (landLines (s.unmesh i) f.pkt.dest a (chunks 64 f.pkt.payload)) f.pkt.dest) := by
  have hnow : ¬ (f.pkt.cls = 2 ∧ f.pkt.length ≠ 0 ∧ earlierData s f.pkt = true) := by tauto
  have hcore : ¬ (f.pkt.length ≠ 0 ∧ f.pkt.cls = 2) := by tauto
  show execIfaceIn i s = _
  simp only [execIfaceIn, hx, if_neg hnow, arrive_lands hx hl hop, if_neg hcore, State.unmesh_core, ha]

/-- A peer's data lands once the earlier frames of its channel have. -/
theorem exec_ifaceIn_data (hop : f.pkt.op = 0xC) (hlength : f.pkt.length ≠ 0) (hclass : f.pkt.cls = 2) (hfirst : earlierData s f.pkt = false) :
    exec (.ifaceIn i) s = .next (landData (s.unmesh i) f.pkt.dest f.pkt) := by
  have hnow : ¬ (f.pkt.cls = 2 ∧ f.pkt.length ≠ 0 ∧ earlierData s f.pkt = true) := by simp [hfirst]
  show execIfaceIn i s = _
  simp only [execIfaceIn, hx, if_neg hnow, arrive_lands hx hl hop]
  exact congrArg Host.Outcome.next (if_pos ⟨hlength, hclass⟩)

/-- A completion with Status 0 ends its request for good at a calm core. -/
theorem answers_ifaceIn_ok (hop : f.pkt.op = 0xC) (hlength : f.pkt.length = 0) (hok : f.pkt.body = 0) {a : Await}
    (ha : (s.core f.pkt.dest).await? (tagQueue f.pkt.tag) (tagPos f.pkt.tag) = some a) (hcalm : (s.core f.pkt.dest).Calm)
    (hiq : (s.core f.pkt.dest).iqs = []) (hsig : a.sig = none) :
    answers (.ifaceIn i) s fun t => (t.core f.pkt.dest).Ended a (s.core f.pkt.dest).mem := by
  have hend := complete_ends (s := s.unmesh i) hcalm hiq hsig
  refine ⟨_, exec_ifaceIn_core hx hl hop (.inl hlength) ha, ?_⟩
  rw [if_pos hlength, hok, show (0 : BitVec 128).toNat = 0 from rfl, settle_of_calm hend.calm]
  exact hend

end

/-- The first packet of a class 1 write that its slot's record lets pass, with others to come. -/
theorem hubRecord_first {s : State} {p : Packet} {w : Window} (hnone : Tbl.find s.host.writes p.hubKey = none)
    (hwin : Tbl.find (s.region p.region).windows (p.hostAddr / 2 ^ 60) = some w)
    (hstatus : class1Status s p.region p.hostAddr 2 p.reqLines = 0) :
    hubRecord s p = { slot := p.hostAddr / 2 ^ 60, win := some w, refused := false, left := p.reqLines } := by
  rw [class1Status, hwin] at hstatus
  simp only [hubRecord, hnone, hwin, hstatus]
  rfl

/-- A write that its hub keeps a record of goes by that record (R439). -/
theorem hubRecord_kept {s : State} {p : Packet} {h : HubWrite} (hkept : Tbl.find s.host.writes p.hubKey = some h) : hubRecord s p = h := by
  simp only [hubRecord, hkept]

theorem class1Out_write {s : State} {p : Packet} (h : bits p.body.toNat 63 56 = 2) : class1Out s p = class1Part s p := by
  rw [class1Out, if_pos (by rw [h]; decide)]

section
variable {s : State} {p : Packet} {h : HubWrite} (hrecord : hubRecord s p = h) (hmore : p.length / 2 < h.left)
include hrecord hmore

theorem class1Part_writes :
    Tbl.find (class1Part s p).host.writes p.hubKey = some { h with left := h.left - p.length / 2 } := by
  rw [class1Part_more hrecord hmore]
  exact Tbl.find_set_same _ _ _

/-- Its request waits for fewer lines. -/
theorem class1Part_await {a : Await} (ha : (s.core p.src).await? (tagQueue p.tag) (tagPos p.tag) = some a) (hleft : p.length / 2 < a.left) :
    ∃ b, ((class1Part s p).core p.src).await? (tagQueue p.tag) (tagPos p.tag) = some b ∧ b.left = a.left - p.length / 2 := by
  have hcore := (h.sitesOnly_written s p).core p.src
  have ha' : ((h.written s p).core p.src).await? (tagQueue p.tag) (tagPos p.tag) = some a := by rw [hcore, ha]
  rw [class1Part_more hrecord hmore]
  exact ⟨_, class1Written_of_more ha' hleft, rfl⟩

/-- With nothing outstanding at its core, its lines go to the host and nothing else happens. -/
theorem class1Part_sent {w : Window} (hwin : h.win = some w) (hpasses : h.status s p = 0)
    (ha : (s.core p.src).await? (tagQueue p.tag) (tagPos p.tag) = none) :
    let u := winWrite s w (p.hostAddr % 2 ^ 60) p.payload
    class1Part s p = { u with host := (class1Part s p).host } ∧ (class1Part s p).host.sites = u.host.sites := by
  have hwritten : h.written s p = winWrite s w (p.hostAddr % 2 ^ 60) p.payload := by
    simp only [HubWrite.written, hwin, if_pos hpasses]
  have ha' : ((h.written s p).core p.src).await? (tagQueue p.tag) (tagPos p.tag) = none := by
    rw [(h.sitesOnly_written s p).core, ha]
  rw [class1Part_more hrecord hmore, class1Written_of_none ha', hwritten]
  exact ⟨rfl, rfl⟩

end

/-- Settles O28: each clause is the equation of its packet's arrival, and a write's packet with others to come is `class1Part_more`. -/
theorem interfacePackets : Obligations.InterfacePackets := by
  unfold Obligations.InterfacePackets
  intro s i f hx hl p
  refine ⟨fun hop hregion hexit => ⟨fun _ => exec_ifaceOut_waits hx,
      fun hclass hearlier hgrant => exec_ifaceOut_class1 hx hl hop hregion hclass hearlier hgrant hexit,
      fun hclass hgrant => exec_ifaceOut_class2 hx hl hop hregion hclass hgrant hexit⟩,
    fun hop => ⟨fun a ha => ⟨fun hlength => ?completes, fun hlength hclass => ?lines⟩, exec_ifaceIn_data hx hl hop⟩,
    answers_ifaceOut_ungranted hx hl,
    fun hop hregion hclass hearlier hgrant hexit hwrite hlength _ => ?write,
    fun a hop hlength _ hok ha hrun hheld hoqs hiq hsig => ?ends⟩
  case completes => rw [exec_ifaceIn_core hx hl hop (.inl hlength) ha, if_pos hlength]
  case lines => rw [exec_ifaceIn_core hx hl hop (.inr hclass) ha, if_neg hlength]
  case ends =>
    obtain ⟨t, ht, hend⟩ := answers_ifaceIn_ok hx hl hop hlength hok ha ⟨hrun, hheld, hoqs⟩ hiq hsig
    exact ⟨t, ht, hend.dropped, hend.calm.run⟩
  case write =>
    have he := exec_ifaceOut_class1 hx hl hop hregion (by rw [hclass]; decide) hearlier hgrant hexit
    rw [class1Out_write hwrite] at he
    have hone : p.length / 2 = 1 := by omega
    intro key addr
    refine ⟨fun w a hnone hwin hstatus hmore ha hleft _ => ?first, fun h hkept hmore => ?kept⟩
    case first =>
      have hrecord := hubRecord_first (s := s.unmesh i) hnone hwin hstatus
      have hawait := class1Part_await hrecord (hone ▸ hmore) ha (hone ▸ hleft)
      have hwrites := class1Part_writes hrecord (hone ▸ hmore)
      rw [hone] at hawait hwrites
      exact ⟨_, he, hawait, hwrites⟩
    case kept =>
      have hrecord : hubRecord (s.unmesh i) p = h := hubRecord_kept hkept
      have hwrites := class1Part_writes hrecord (hone ▸ hmore)
      rw [hone] at hwrites
      refine ⟨_, he, hwrites, fun w hwin hok hpasses ha => class1Part_sent hrecord (hone ▸ hmore) hwin ?_ ha⟩
      rw [HubWrite.status, hok, if_neg Bool.false_ne_true, hone]
      exact hpasses

end Sys2Proof.Proofs
end

section
/-!
SUPPORT. What records, completions and stops leave of the observation unit (R362, R427, R638): the Sillage stream alone takes something in.
-/
namespace Sys2Proof.Machine

/-- A state in whose observation unit only the Sillage stream differs. -/
structure StreamOnly (s t : State) : Prop where
  observe : t.observe = { s.observe with
    sillage := t.observe.sillage, silSeq := t.observe.silSeq, silLost := t.observe.silLost, silDrop := t.observe.silDrop }

section
variable {s t u : State}

theorem streamOnly_of_observe (h : t.observe = s.observe) : StreamOnly s t := ⟨by rw [h]⟩

theorem StreamOnly.refl (s : State) : StreamOnly s s := ⟨rfl⟩

theorem StreamOnly.trans (h : StreamOnly s t) (h' : StreamOnly t u) : StreamOnly s u where
  observe := by rw [h'.observe, h.observe]

theorem StreamOnly.foldl {α : Type} {f : State → α → State} (hf : ∀ s x, StreamOnly s (f s x)) (l : List α) (s : State) :
    StreamOnly s (l.foldl f s) :=
  List.foldlRecOn (motive := StreamOnly s) l f (.refl s) fun t ht x _ => ht.trans (hf t x)

theorem StreamOnly.dumps (h : StreamOnly s t) : t.observe.dumps = s.observe.dumps := by rw [h.observe]
theorem StreamOnly.watches (h : StreamOnly s t) : t.observe.watches = s.observe.watches := by rw [h.observe]
theorem StreamOnly.dumpReqs (h : StreamOnly s t) : t.observe.dumpReqs = s.observe.dumpReqs := by rw [h.observe]
theorem StreamOnly.vigilQ (h : StreamOnly s t) : t.observe.vigilQ = s.observe.vigilQ := by rw [h.observe]
theorem StreamOnly.vigils (h : StreamOnly s t) : t.observe.vigils = s.observe.vigils := by rw [h.observe]

end

theorem streamOnly_sil (s : State) (type source : Nat) (payload : Bytes) : StreamOnly s (s.sil type source payload) := by
  constructor
  simp only [State.sil]
  split_ifs <;> rfl

/-! ## Records (R363, R432) -/

theorem putRecord_observe (s : State) (r : Nat) (b : Bytes) : (s.putRecord r b).observe = s.observe := by
  unfold State.putRecord
  split
  · rfl
  · exact (sitesOnly_hostWrite s _ _ _).observe

theorem ringIrq_observe (s : State) (r : Nat) : (s.ringIrq r).observe = s.observe := by
  unfold State.ringIrq
  split
  · rfl
  · split
    · rfl
    · split
      · exact (sitesOnly_hostSend s _ _).observe
      · rfl

theorem putRecords_observe (s : State) (r : Nat) (bs : List Bytes) : (s.putRecords r bs).observe = s.observe := by
  unfold State.putRecords
  split
  · rfl
  · rw [ringIrq_observe]
    exact List.foldlRecOn (motive := fun t : State => t.observe = s.observe) _ _ rfl fun t ht b _ => (putRecord_observe t r b).trans ht

theorem setRing_observe (s : State) (r : Nat) (x : Ring) : (s.setRing r x).observe = s.observe := rfl

theorem postTo_observe (s : State) (b : Bytes) (r : Nat) : (s.postTo b r).observe = s.observe := by
  unfold State.postTo
  dsimp only
  split
  · rfl
  · split
    · split
      · exact putRecords_observe s r _
      · exact setRing_observe s r _
    · split
      · exact setRing_observe s r _
      · exact (putRecords_observe _ r _).trans (setRing_observe s r _)

theorem streamOnly_finish (s : State) (h status detail r0 r1 : Nat) : StreamOnly s (s.finish h status detail r0 r1) := by
  cases ho : (s.hdl h).out with
  | none => rw [finish_of_none (show s.cmd? h = none from ho)]; exact .refl s
  | some o =>
    have hfreed (x : Hdl) : StreamOnly s (s.setHdl h x) := ⟨rfl⟩
    simp only [State.finish, ho]
    split
    · split
      · exact (hfreed _).trans ((StreamOnly.foldl (fun t r => streamOnly_of_observe (postTo_observe t _ r)) _ _).trans
          (streamOnly_sil _ _ _ _))
      · refine streamOnly_of_observe ((putRecords_observe _ _ _).trans ?_)
        split
        · exact setRing_observe _ _ _
        · rfl
    · exact hfreed _

/-! ## Stops (R206, R491) -/

theorem streamOnly_powerTo (s : State) (g : Nat) (st : PState) (cause : Nat) : StreamOnly s (s.powerTo g st cause) := by
  unfold State.powerTo
  extract_lets p s1
  split
  · exact .refl s
  · exact StreamOnly.trans (t := s1) ⟨rfl⟩ (streamOnly_sil s1 _ _ _)

theorem streamOnly_haltCore (s : State) (c : Nat) (f : Core → Core) : StreamOnly s (s.haltCore c f) := by
  unfold State.haltCore State.haltAt State.draw State.napIfIdle
  dsimp only
  split
  · exact StreamOnly.trans (t := { s with cores := _, free := _ }) ⟨rfl⟩ (streamOnly_powerTo _ _ _ _)
  · exact ⟨rfl⟩

/-! ## Rings (R363, R432) -/

theorem ring?_putRecord {s : State} {r : Nat} {x : Ring} (h : s.ring? r = some x) (b : Bytes) :
    (s.putRecord r b).ring? r = some { x with written := (x.written + 1) % 2 ^ 32 } := by
  rw [State.putRecord, h]
  exact Tbl.find_set_same _ _ _

/-- Each record of a group advances the ring by one. -/
theorem ring?_foldl_putRecord {s : State} {r : Nat} {x : Ring} (h : s.ring? r = some x) (b : Bytes) (bs : List Bytes) :
    ∃ y, ((b :: bs).foldl (fun s b => s.putRecord r b) s).ring? r = some y ∧ y.written = (x.written + (bs.length + 1)) % 2 ^ 32 := by
  induction bs generalizing s x b with
  | nil => exact ⟨_, ring?_putRecord h b, rfl⟩
  | cons b' bs ih =>
    obtain ⟨y, hy, hwritten⟩ := ih (ring?_putRecord h b) b'
    refine ⟨y, hy, hwritten.trans ?_⟩
    simp only [List.length_cons]
    omega

/-- An interrupt leaves the ring's index. -/
theorem ring?_ringIrq {s : State} {r : Nat} {x : Ring} (h : s.ring? r = some x) :
    ∃ y, (s.ringIrq r).ring? r = some y ∧ y.written = x.written := by
  simp only [State.ringIrq, h]
  split
  · exact ⟨x, h, rfl⟩
  · split
    · exact ⟨_, Tbl.find_set_same _ _ _, rfl⟩
    · exact ⟨_, Tbl.find_set_same _ _ _, rfl⟩

theorem ring?_putRecords {s : State} {r : Nat} {x : Ring} (h : s.ring? r = some x) (b : Bytes) (bs : List Bytes) :
    ∃ y, (s.putRecords r (b :: bs)).ring? r = some y ∧ y.written = (x.written + (bs.length + 1)) % 2 ^ 32 := by
  obtain ⟨y, hy, hwritten⟩ := ring?_foldl_putRecord h b bs
  obtain ⟨z, hz, hsame⟩ := ring?_ringIrq hy
  exact ⟨z, hz, hsame.trans hwritten⟩

end Sys2Proof.Machine
end

section
/-!
SUPPORT. What kept values, counted writes and a wake of power regions leave of the state (R450, R458, R462, R495 to R499).
-/
namespace Sys2Proof.Machine

/-! ## The dictionary's values -/

/-- A state in which only the dictionary's values, their change counts and what waits to be saved differ. -/
structure ValuesOnly (s t : State) : Prop where
  rest : t = { s with od := { s.od with vals := t.od.vals, changes := t.od.changes, pending := t.od.pending } }

section
variable {s t u : State}

theorem ValuesOnly.refl (s : State) : ValuesOnly s s := ⟨rfl⟩

theorem ValuesOnly.trans (h : ValuesOnly s t) (h' : ValuesOnly t u) : ValuesOnly s u where
  rest := by
    calc u = { t with od := { t.od with vals := u.od.vals, changes := u.od.changes, pending := u.od.pending } } := h'.rest
      _ = { s with od := { s.od with vals := u.od.vals, changes := u.od.changes, pending := u.od.pending } } := by rw [h.rest]

theorem ValuesOnly.foldl {α : Type} {f : State → α → State} (hf : ∀ s x, ValuesOnly s (f s x)) (l : List α) (s : State) :
    ValuesOnly s (l.foldl f s) :=
  List.foldlRecOn (motive := ValuesOnly s) l f (.refl s) fun t ht x _ => ht.trans (hf t x)

theorem ValuesOnly.regions (h : ValuesOnly s t) : t.regions = s.regions := by rw [h.rest]
theorem ValuesOnly.region (h : ValuesOnly s t) (n : Nat) : t.region n = s.region n := by rw [State.region, h.regions, State.region]
theorem ValuesOnly.syncs (h : ValuesOnly s t) : t.syncs = s.syncs := by rw [h.rest]
theorem ValuesOnly.observe (h : ValuesOnly s t) : t.observe = s.observe := by rw [h.rest]
theorem ValuesOnly.shadow? (h : ValuesOnly s t) (w : Writer) (g : Nat) : t.shadow? w g = s.shadow? w g := by
  rw [State.shadow?, h.rest, State.shadow?]

end

theorem valuesOnly_odBump (s : State) (index sub : Nat) : ValuesOnly s (odBump s index sub) := ⟨rfl⟩

theorem valuesOnly_odPending (s : State) (index sub : Nat) : ValuesOnly s (odPending s index sub) := by
  unfold odPending
  extract_lets b
  split
  · exact .refl s
  · exact ⟨rfl⟩

theorem valuesOnly_odStore (s : State) (index sub : Nat) (r : OdRow) (v : Bytes) : ValuesOnly s (odStore s index sub r v) := by
  have hstored (l : Tbl Bytes) : ValuesOnly s (odBump { s with od := { s.od with vals := l } } index sub) := ⟨rfl⟩
  unfold odStore
  dsimp only
  split
  · exact (hstored _).trans (valuesOnly_odPending _ _ _)
  · exact hstored _

theorem valuesOnly_keepRegion (s : State) (n : Nat) : ValuesOnly s (keepRegion s n) := by
  have hvals (t : State) (l : Tbl Bytes) : ValuesOnly t { t with od := { t.od with vals := l } } := ⟨rfl⟩
  have hput (t : State) (sub v : Nat) : ValuesOnly t
      (match odRow (0x2200 + n) sub with
        | some row => odStore t (0x2200 + n) sub row (leBytes (row.ty.size.getD 0) v)
        | none => t) := by
    split
    · exact valuesOnly_odStore _ _ _ _ _
    · exact .refl t
  exact (((((hput s 1 _).trans (hput _ 2 _)).trans (hput _ 3 _)).trans (hput _ 4 _)).trans (hput _ 5 _)).trans
    ((hvals _ _).trans (valuesOnly_odPending _ _ _))

/-- A shadow that is dropped is there no more (R458). -/
theorem shadow?_dropShadow (s : State) (w : Writer) (g : Nat) : (dropShadow s w g).shadow? w g = none := by
  simp only [State.shadow?, dropShadow, List.find?_eq_none, List.mem_filter]
  rintro x ⟨-, hx⟩
  simpa [imp_iff_not_or] using hx

/-! ## Commits (R450, R458) -/

theorem commitCounted_applied (s : State) (index : Nat) : commitCounted (s, 0) index = (odBump s index 0x0F, 0) := rfl

theorem commitCounted_refused (s : State) {code : Nat} (h : code ≠ 0) (index : Nat) : commitCounted (s, code) index = (s, code) := if_neg h

theorem setResult_region_same (s : State) (n code : Nat) : (setResult s n code).region n = { s.region n with result := code } :=
  State.region_setRegion_same _ _ _
theorem setResult_region_ne (s : State) {n m : Nat} (h : m ≠ n) (code : Nat) : (setResult s n code).region m = s.region m :=
  State.region_setRegion_ne _ _ h

/-! ## Wakes of power regions (R495 to R499) -/

theorem atCore_modePin (c : Nat) (s : State) (g : Nat) (high : Bool) : AtCore c s (s.modePin g high) :=
  (atCore_setPreg c s g _).trans (atCore_emit c _ _)

theorem atCore_rampUp (c : Nat) (s : State) (g : Nat) (w : Wake) : AtCore c s (rampUp s g w) := by
  unfold rampUp
  extract_lets s1
  have hcount : AtCore c s s1 := by
    unfold s1
    split
    · exact ⟨rfl, fun _ _ => rfl⟩
    · exact .refl c s
  exact hcount.trans ((atCore_setPreg c s1 g _).trans (atCore_modePin c _ g _))

theorem atCore_darkWake (c : Nat) (s : State) (g : Nat) : AtCore c s (darkWake s g) := by
  unfold darkWake
  extract_lets w s1
  have hstart : AtCore c s s1 := (atCore_powerTo c s g _ _).trans (atCore_setPreg c _ g _)
  split
  · exact hstart.trans (atCore_rampUp c s1 g w)
  · exact hstart

theorem atCore_wakeRegion (c : Nat) (s : State) (g : Nat) (retry : Bool) : AtCore c s (wakeRegion s g retry) := by
  unfold wakeRegion
  split
  · exact atCore_dozeWake c s g
  · exact atCore_darkWake c s g
  · split
    · exact atCore_darkWake c s g
    · exact .refl c s
  · exact .refl c s

theorem atCore_wakeFor (c : Nat) (s : State) (r : Region) : AtCore c s (wakeFor s r) :=
  List.foldlRecOn (motive := AtCore c s) _ _ (.refl c s) fun t ht g _ => ht.trans (atCore_wakeRegion c t g false)

theorem AtCore.od {c : Nat} {s t : State} (h : AtCore c s t) : t.od = s.od := by rw [h.rest]

theorem wakeFor_regions (s : State) (r : Region) : (wakeFor s r).regions = s.regions := (atCore_wakeFor 0 s r).regions
theorem wakeFor_region (s : State) (r : Region) (n : Nat) : (wakeFor s r).region n = s.region n := by
  rw [State.region, wakeFor_regions, State.region]
theorem wakeFor_od (s : State) (r : Region) : (wakeFor s r).od = s.od := (atCore_wakeFor 0 s r).od
theorem wakeFor_shadow? (s : State) (r : Region) (w : Writer) (g : Nat) : (wakeFor s r).shadow? w g = s.shadow? w g := by
  rw [State.shadow?, wakeFor_od, State.shadow?]

end Sys2Proof.Machine
end

section
/-!
SUPPORT. The commit and the release of a tenant region, clause by clause (R250 to R252, R452, R496).
-/
namespace Sys2Proof.Proofs
open Sys2Proof.Machine Sys2Proof.Safety

theorem finish_regions (s : State) (h status detail r0 r1 : Nat) : (s.finish h status detail r0 r1).regions = s.regions := by
  rw [(hostSide_finish s h status detail r0 r1).rest]
theorem finish_region (s : State) (h status detail r0 r1 n : Nat) : (s.finish h status detail r0 r1).region n = s.region n := by
  rw [State.region, finish_regions, State.region]
theorem finish_syncs (s : State) (h status detail r0 r1 : Nat) : (s.finish h status detail r0 r1).syncs = s.syncs := by
  rw [(hostSide_finish s h status detail r0 r1).rest]

/-! ## Commits (R251, R452, R496) -/

section
variable {s t : State} {w : Writer} {n : Nat}

/-- The region that a commit of candidate values makes of another (R251, R253). -/
def committedRegion (old r : Region) : Region :=
  { r with
    state := if old.state = 2 ∧ old.nw = r.nw ∧ old.se = r.se then 2 else 1
    forbidden := if movesRegion old r then [] else old.forbidden }

theorem committedRegion_state (old r : Region) : (committedRegion old r).state ≠ 0 := by
  unfold committedRegion
  dsimp only
  split <;> decide

/-- A region of a candidate in force: kept, with the commit's result 0 and the writer's shadow gone. -/
def inForce (s : State) (w : Writer) (n : Nat) (r : Region) : State :=
  dropShadow (odBump (keepRegion (setResult (s.setRegion n r) n 0) n) (0x2200 + n) 0x0D) w (0x2200 + n)

theorem inForce_region (s : State) (w : Writer) (n : Nat) (r : Region) (m : Nat) :
    (inForce s w n r).region m = (setResult (s.setRegion n r) n 0).region m :=
  (valuesOnly_keepRegion (setResult (s.setRegion n r) n 0) n).region m

theorem inForce_region_same (s : State) (w : Writer) (n : Nat) (r : Region) : (inForce s w n r).region n = { r with result := 0 } := by
  rw [inForce_region, setResult_region_same, State.region_setRegion_same]

theorem inForce_region_ne (s : State) (w : Writer) {n m : Nat} (r : Region) (hm : m ≠ n) : (inForce s w n r).region m = s.region m := by
  rw [inForce_region, setResult_region_ne _ hm, State.region_setRegion_ne _ _ hm]

theorem odBump_region (s : State) (index sub m : Nat) : (odBump s index sub).region m = s.region m := rfl
theorem odBump_shadow? (s : State) (index sub : Nat) (w : Writer) (g : Nat) : (odBump s index sub).shadow? w g = s.shadow? w g := rfl

section
variable (hshadow : (s.shadow? w (0x2200 + n)).isSome = true)
include hshadow

/-- With a shadow the regions are woken, and the commit is held, refused with the number of the first check that fails, or applied. -/
theorem regionCommitOp_held (hwaits : commitWaits (wakeFor s (candRegion s w n)) (candRegion s w n) = true) :
    regionCommitOp s w n = (wakeFor s (candRegion s w n), commitHeld) := by
  obtain ⟨x, hx⟩ := Option.isSome_iff_exists.1 hshadow
  simp only [regionCommitOp, hx]
  exact if_pos hwaits

variable (hready : commitWaits (wakeFor s (candRegion s w n)) (candRegion s w n) = false)
include hready

theorem regionCommitOp_refused (hcheck : commitCheck (wakeFor s (candRegion s w n)) n (candRegion s w n) ≠ 0) : regionCommitOp s w n =
    (setResult (wakeFor s (candRegion s w n)) n (commitCheck (wakeFor s (candRegion s w n)) n (candRegion s w n)), 7) := by
  obtain ⟨x, hx⟩ := Option.isSome_iff_exists.1 hshadow
  simp only [regionCommitOp, hx, hready, Bool.false_eq_true, if_false]
  exact if_pos hcheck

theorem regionCommitOp_applied (hcheck : commitCheck (wakeFor s (candRegion s w n)) n (candRegion s w n) = 0) :
    let u := wakeFor s (candRegion s w n)
    regionCommitOp s w n = (inForce u w n (committedRegion (u.region n) (candRegion s w n)), 0) := by
  obtain ⟨x, hx⟩ := Option.isSome_iff_exists.1 hshadow
  simp only [regionCommitOp, hx, hready, Bool.false_eq_true, if_false]
  exact if_neg (not_not.2 hcheck)

end

variable (hn : n < 64) (hopen : entryShut s 0x2200 = false)
include hn hopen

theorem exec_regionCommit {e : OdEff} (he : commitCounted (regionCommitOp s w n) (0x2200 + n) = e) :
    exec (.regionCommit w n) s = .next (if e.2 = commitHeld then holdCommit e.1 w n .row else e.1) := by
  have hgo : ¬ (64 ≤ n ∨ entryShut s 0x2200 = true) := by simp [hopen, hn]
  subst he
  show execRegionCommit w n s = _
  exact if_neg hgo

theorem exec_regionCommit_applied (he : regionCommitOp s w n = (t, 0)) :
    exec (.regionCommit w n) s = .next (odBump t (0x2200 + n) 0x0F) :=
  exec_regionCommit hn hopen ((congrArg (commitCounted · _) he).trans (commitCounted_applied t _))

theorem exec_regionCommit_refused (he : regionCommitOp s w n = (t, 7)) : exec (.regionCommit w n) s = .next t :=
  exec_regionCommit hn hopen ((congrArg (commitCounted · _) he).trans (commitCounted_refused t (show 7 ≠ 0 by decide) _))

/-- A commit without a shadow changes nothing but its entry's count. -/
theorem answers_regionCommit_empty (hshadow : s.shadow? w (0x2200 + n) = none) :
    answers (.regionCommit w n) s fun t => t.regions = s.regions ∧ t.power = s.power :=
  ⟨_, exec_regionCommit_applied hn hopen (by simp only [regionCommitOp, hshadow]), rfl, rfl⟩

variable (hshadow : (s.shadow? w (0x2200 + n)).isSome = true)
include hshadow

theorem exec_regionCommit_waits (hwaits : commitWaits (wakeFor s (candRegion s w n)) (candRegion s w n) = true) :
    exec (.regionCommit w n) s = .next (holdCommit (wakeFor s (candRegion s w n)) w n .row) :=
  exec_regionCommit hn hopen ((congrArg (commitCounted · _) (regionCommitOp_held hshadow hwaits)).trans
    (commitCounted_refused _ (show commitHeld ≠ 0 by decide) _))

variable (hready : commitWaits (wakeFor s (candRegion s w n)) (candRegion s w n) = false)
include hready

/-- The values of the candidate stand in the region, and no other region changes. -/
theorem answers_regionCommit_applies (hcheck : commitCheck (wakeFor s (candRegion s w n)) n (candRegion s w n) = 0) :
    answers (.regionCommit w n) s fun t =>
      t.region n = { committedRegion (s.region n) (candRegion s w n) with result := 0 } ∧
        t.shadow? w (0x2200 + n) = none ∧ ∀ m, m ≠ n → t.region m = s.region m := by
  refine ⟨_, exec_regionCommit_applied hn hopen (regionCommitOp_applied hshadow hready hcheck), ?_, ?_, fun m hm => ?_⟩
  · rw [odBump_region, inForce_region_same, wakeFor_region]
  · rw [odBump_shadow?, inForce, shadow?_dropShadow]
  · rw [odBump_region, inForce_region_ne _ _ _ hm, wakeFor_region]

/-- A candidate whose corners fail is kept, and the region keeps the number of the check. -/
theorem answers_regionCommit_corners (hcorners : cornersOk (candRegion s w n) = false) : answers (.regionCommit w n) s fun t =>
      t.region n = { s.region n with result := 1 } ∧ t.shadow? w (0x2200 + n) = s.shadow? w (0x2200 + n) := by
  have hcheck : commitCheck (wakeFor s (candRegion s w n)) n (candRegion s w n) = 1 := by
    rw [commitCheck, hcorners]
    rfl
  have hop := regionCommitOp_refused hshadow hready (by rw [hcheck]; decide)
  rw [hcheck] at hop
  refine ⟨_, exec_regionCommit_refused hn hopen hop, ?_, wakeFor_shadow? _ _ _ _⟩
  rw [setResult_region_same, wakeFor_region]

end

/-! ## Release (R252) -/

theorem disarmVigil_syncs (s : State) (n : Nat) : (disarmVigil s n).syncs = s.syncs := by
  unfold disarmVigil
  split
  · exact finish_syncs _ _ _ _ _ _
  · rfl

/-- A region that is disarmed has no Vigil buffer. -/
theorem disarmVigil_vigil (s : State) (n : Nat) : ((disarmVigil s n).region n).vigil = none := by
  unfold disarmVigil
  split
  · rw [finish_region, State.updRegion, State.region_setRegion_same]
  next hnone => exact hnone

section
variable {s : State} {w : Writer} {n : Nat} (hn : n < 64) (hopen : entryShut s 0x2200 = false)
include hn hopen

theorem exec_regionRelease :
    exec (.regionRelease w n) s = .next (commitCounted (regionReleaseOp s n) (0x2200 + n)).1 := by
  show execRegionRelease w n s = _
  rw [execRegionRelease, if_pos hn, applied, if_neg (by simp [hopen])]

/-- A region that is not bound is unconfigured, and its sync objects lose their owner. -/
theorem answers_regionRelease (hfree : regionBound s n = false) : answers (.regionRelease w n) s fun t =>
    ((t.region n).state = 0 ∧ (t.region n).windows = [] ∧ (t.region n).pool = []) ∧
      t.syncs = Tbl.map (fun _ o => if o.owner = some n then { o with owner := none } else o) s.syncs := by
  obtain ⟨u, hop, hregion, hsyncs⟩ : ∃ u : State,
      regionReleaseOp s n = (odBump (keepRegion (setResult u n 0) n) (0x2200 + n) 0x0D, 0) ∧
      u.region n = { (disarmVigil s n).region n with state := 0, forbidden := [], windows := [], pool := [], cursor := 0 } ∧
      u.syncs = Tbl.map (fun _ o => if o.owner = some n then { o with owner := none } else o) (disarmVigil s n).syncs :=
    ⟨_, if_neg (by simp [hfree]), State.region_setRegion_same _ _ _, rfl⟩
  have hkept := valuesOnly_keepRegion (setResult u n 0) n
  have he : exec (.regionRelease w n) s =
      .next (odBump (odBump (keepRegion (setResult u n 0) n) (0x2200 + n) 0x0D) (0x2200 + n) 0x0F) := by
    rw [exec_regionRelease hn hopen, hop, commitCounted_applied]
  refine ⟨_, he, ?_, (hkept.syncs.trans hsyncs).trans (by rw [disarmVigil_syncs])⟩
  rw [odBump_region, odBump_region, hkept.region, setResult_region_same, hregion]
  exact ⟨rfl, rfl, rfl⟩

/-- A region that is bound keeps what it holds but for the commit's result. -/
theorem answers_regionRelease_bound (hbound : regionBound s n = true) : answers (.regionRelease w n) s fun t =>
    t.region n = { s.region n with result := 5 } ∧ t.syncs = s.syncs := by
  refine ⟨_, exec_regionRelease hn hopen, ?_⟩
  rw [regionReleaseOp, if_pos hbound, commitCounted_refused _ (by decide)]
  exact ⟨setResult_region_same _ _ _, rfl⟩

end

/-- The objects of a region without their owner, and every other object as it was. -/
theorem sync_disowned {s t : State} {n : Nat}
    (ht : t.syncs = Tbl.map (fun _ o => if o.owner = some n then { o with owner := none } else o) s.syncs) (i : Nat) :
    t.sync i = if (s.sync i).owner = some n then { s.sync i with owner := none } else s.sync i := by
  rw [State.sync, ht, Tbl.get, Tbl.find_map, State.sync, Tbl.get]
  cases Tbl.find s.syncs i with
  | none => rfl
  | some o => rfl

end Sys2Proof.Proofs
end

section
/-!
SUPPORT. Counter dumps and tensor watches, clause by clause (R618 to R631).
-/
namespace Sys2Proof.Proofs
open Sys2Proof.Machine Sys2Proof.Safety

/-! ## Dumps (R622 to R624) -/

/-- A ring for dumps takes period 0 and the periods of R622. -/
theorem dump_accepted {r : Ring} {us : Nat} (hkind : r.kind = 3) (hperiod : us = 0 ∨ 10 ≤ us ∧ us ≤ 10000000) :
    ¬ ((!decide (r.kind = 3)) = true ∨ (us ≠ 0 ∧ (us < 10 ∨ 10000000 < us))) := by
  simp only [hkind, decide_true, Bool.not_true, Bool.false_eq_true, false_or]
  omega

section
variable {s : State} {h : Nat} {o : HOut} {r : Ring} (ho : s.cmd? h = some o) (hw : o.running = false) (hop : o.opcode = 0x53)
  (hring : s.ring? (fieldAt o.cmd 16 4) = some r)
include ho hw hop hring

/-- A period below the range is refused. -/
theorem answers_counterDump_refused (hlo : 1 ≤ fieldAt o.cmd 20 4) (hhi : fieldAt o.cmd 20 4 < 10) :
    answers (.counterDump h) s fun t => t.cmd? h = none ∧ t.observe.dumps = s.observe.dumps := by
  have hbad : (!decide (r.kind = 3)) = true ∨
      (fieldAt o.cmd 20 4 ≠ 0 ∧ (fieldAt o.cmd 20 4 < 10 ∨ 10000000 < fieldAt o.cmd 20 4)) := by omega
  refine ⟨_, congrArg Host.Outcome.next (onCmd_of_waiting ho hw hop _), ?_⟩
  simp only [hring]
  rw [if_pos hbad]
  exact ⟨cmd?_finish_same _ _ _ _ _ _, (streamOnly_finish _ _ _ _ _ _).dumps⟩

variable (hkind : r.kind = 3)
include hkind

/-- A dump of a period in its range begins on a ring for dumps. -/
theorem answers_counterDump_begins (hlo : 10 ≤ fieldAt o.cmd 20 4) (hhi : fieldAt o.cmd 20 4 ≤ 10000000)
    (hroom : s.observe.dumps.length < 4) : answers (.counterDump h) s fun t => t.cmd? h = none ∧
      ∃ d, Tbl.find t.observe.dumps (fieldAt o.cmd 16 4) = some d ∧ d.period = fieldAt o.cmd 20 4 ∧ d.number = 0 ∧
        d.last = s.almanac.toNat ∧ d.nw = s.setting 0x8010 1 0 ∧ d.se = s.setting 0x8010 2 0x7F0095 := by
  have hfull : ¬ ((Tbl.find s.observe.dumps (fieldAt o.cmd 16 4)).isNone = true ∧ 4 ≤ s.observe.dumps.length) := by omega
  refine ⟨_, congrArg Host.Outcome.next (onCmd_of_waiting ho hw hop _), ?_⟩
  simp only [hring]
  rw [if_neg (dump_accepted hkind (.inr ⟨hlo, hhi⟩)), if_neg (by omega), if_neg hfull]
  refine ⟨cmd?_finish_same _ _ _ _ _ _, ?_⟩
  rw [(streamOnly_finish _ _ _ _ _ _).dumps]
  exact ⟨_, Tbl.find_set_same _ _ _, rfl, rfl, rfl, rfl, rfl⟩

/-- Period 0 stops the dump. -/
theorem answers_counterDump_stops (hzero : fieldAt o.cmd 20 4 = 0) (hwf : Tbl.wf s.observe.dumps) :
    answers (.counterDump h) s fun t => t.cmd? h = none ∧ Tbl.find t.observe.dumps (fieldAt o.cmd 16 4) = none := by
  refine ⟨_, congrArg Host.Outcome.next (onCmd_of_waiting ho hw hop _), ?_⟩
  simp only [hring]
  rw [if_neg (dump_accepted hkind (.inl hzero)), if_pos hzero]
  refine ⟨cmd?_finish_same _ _ _ _ _ _, ?_⟩
  rw [(streamOnly_finish _ _ _ _ _ _).dumps]
  exact Tbl.find_del_same hwf _

end

section
variable {s : State} {ring : Nat} {d : Dump} {r : Ring} (hdump : Tbl.find s.observe.dumps ring = some d) (hring : s.ring? ring = some r)
  (hperiod : d.period ≠ 0) (hdue : d.last < s.almanac.toNat / (1000 * d.period) * (1000 * d.period))
include hdump hring hperiod hdue

/-- At a boundary with room the snapshot is written whole. -/
theorem answers_snapshot_written (hroom : (snapshotRecords s d).length + 1 ≤ r.free) : answers (.snapshot ring) s fun t =>
    Tbl.find t.observe.dumps ring = some { d with
      number := d.number + 1, missed := 0, start := s.now, last := s.almanac.toNat / (1000 * d.period) * (1000 * d.period) } ∧
    ∃ q, t.ring? ring = some q ∧ q.written = (r.written + ((snapshotRecords s d).length + 1)) % 2 ^ 32 := by
  have hgo : ¬ (d.period = 0 ∨ s.almanac.toNat / (1000 * d.period) * (1000 * d.period) ≤ d.last) := by omega
  obtain ⟨t, he, hnow, q, hq, hwritten⟩ : ∃ t : State, exec (.snapshot ring) s = .next { t with observe := { t.observe with
      dumps := Tbl.set t.observe.dumps ring { d with
        number := d.number + 1, missed := 0, start := t.now, last := s.almanac.toNat / (1000 * d.period) * (1000 * d.period) } } } ∧
      t.now = s.now ∧ ∃ q, t.ring? ring = some q ∧ q.written = (r.written + ((snapshotRecords s d).length + 1)) % 2 ^ 32 := by
    show ∃ t : State, execSnapshot ring s = _ ∧ _
    simp only [execSnapshot, hdump, hring]
    rw [if_neg hgo, if_neg (Nat.not_lt.2 hroom)]
    exact ⟨_, rfl, by rw [(posted_putRecords _ _ _).rest], ring?_putRecords hring _ _⟩
  refine ⟨_, he, ?_, q, hq, hwritten⟩
  rw [← hnow]
  exact Tbl.find_set_same _ _ _

/-- Without room it is missed, and nothing is written. -/
theorem answers_snapshot_missed (hfull : r.free < (snapshotRecords s d).length + 1) : answers (.snapshot ring) s fun t =>
    Tbl.find t.observe.dumps ring = some { d with
      missed := d.missed + (s.almanac.toNat / (1000 * d.period) * (1000 * d.period) - d.last - 1) / (1000 * d.period) + 1
      last := s.almanac.toNat / (1000 * d.period) * (1000 * d.period) } ∧ t.host = s.host := by
  have hgo : ¬ (d.period = 0 ∨ s.almanac.toNat / (1000 * d.period) * (1000 * d.period) ≤ d.last) := by omega
  show ∃ t, execSnapshot ring s = _ ∧ _
  simp only [execSnapshot, hdump, hring]
  rw [if_neg hgo, if_pos hfull]
  exact ⟨_, rfl, Tbl.find_set_same _ _ _, rfl⟩

end

/-! ## Watches (R626 to R631) -/

section
variable {s : State} {w : Writer} {n : Nat} (hn : n < 64) (hopen : entryShut s 0x9100 = false)
include hn hopen

theorem exec_watchArm : exec (.watchArm w n) s = .next (commitCounted (watchArmOp s w n) (0x9100 + n)).1 := by
  show execWatchArm w n s = _
  rw [execWatchArm, if_pos hn, applied, if_neg (by simp [hopen])]

theorem answers_watchArm_empty (hshadow : s.shadow? w (0x9100 + n) = none) :
    answers (.watchArm w n) s fun t => t.observe = s.observe ∧ t.cores = s.cores := by
  have hop : watchArmOp s w n = (s, 0) := by simp only [watchArmOp, hshadow]
  refine ⟨_, exec_watchArm hn hopen, ?_⟩
  rw [hop, commitCounted_applied]
  exact ⟨rfl, rfl⟩

theorem answers_watchDisarm : answers (.watchDisarm w n) s fun t =>
    Tbl.find t.observe.watches n = some { Tbl.get s.observe.watches Watch.reset n with state := 0 } ∧ t.cores = s.cores := by
  refine ⟨(commitCounted (watchDisarmOp s n) (0x9100 + n)).1, ?_, Tbl.find_set_same _ _ _, rfl⟩
  show execWatchDisarm w n s = _
  rw [execWatchDisarm, if_pos hn, applied, if_neg (by simp [hopen])]

section
variable (hshadow : (s.shadow? w (0x9100 + n)).isSome = true) (hregion : candidate s w (0x9100 + n) 1 < 64)
  (htensor : candidate s w (0x9100 + n) 2 < 2 ^ 20) (hslot : candidate s w (0x9100 + n) 7 < 16)
  (hoffset : candidate s w (0x9100 + n) 8 % 64 = 0) (hsize : candidate s w (0x9100 + n) 9 % 64 = 0)
  (himg : ∃ b, (s.region (candidate s w (0x9100 + n) 1)).img = some b ∧ b.bound = true)
  (hwin : ∃ g, Tbl.find (s.region (candidate s w (0x9100 + n) 1)).windows (candidate s w (0x9100 + n) 7) = some g ∧ g.write = true)
include hshadow hregion htensor hslot hoffset hsize himg hwin

/-- A candidate on a bound region's open slot arms the watch; with custody on no watch is armed. -/
theorem answers_watchArm :
    (custodyOn s = false → answers (.watchArm w n) s fun t => t.shadow? w (0x9100 + n) = none ∧
      ∃ y, Tbl.find t.observe.watches n = some y ∧ y.state = 1 ∧ y.region = candidate s w (0x9100 + n) 1 ∧
        y.tensor = candidate s w (0x9100 + n) 2 ∧ y.slot = candidate s w (0x9100 + n) 7 ∧ y.used = 0) ∧
    (custodyOn s = true → answers (.watchArm w n) s fun t =>
      Tbl.find t.observe.watches n = some { Tbl.get s.observe.watches Watch.reset n with result := 3 }) := by
  obtain ⟨x, hx⟩ := Option.isSome_iff_exists.1 hshadow
  obtain ⟨b, hb, hbound⟩ := himg
  obtain ⟨g, hg, hwrite⟩ := hwin
  have hfits : ¬ (64 ≤ candidate s w (0x9100 + n) 1 ∨ 2 ^ 20 ≤ candidate s w (0x9100 + n) 2 ∨ 16 ≤ candidate s w (0x9100 + n) 7 ∨
      candidate s w (0x9100 + n) 8 % 64 ≠ 0 ∨ candidate s w (0x9100 + n) 9 % 64 ≠ 0) := by omega
  refine ⟨fun hcustody => ?arms, fun hcustody => ⟨_, exec_watchArm hn hopen, ?refused⟩⟩
  case arms =>
    obtain ⟨u, y, hop, hfind, hfields⟩ : ∃ (u : State) (y : Watch), watchArmOp s w n =
        (dropShadow ((List.range 9).foldl (fun s j => odBump s (0x9100 + n) (j + 1)) u) w (0x9100 + n), 0) ∧
        Tbl.find u.observe.watches n = some y ∧ y.state = 1 ∧ y.region = candidate s w (0x9100 + n) 1 ∧
        y.tensor = candidate s w (0x9100 + n) 2 ∧ y.slot = candidate s w (0x9100 + n) 7 ∧ y.used = 0 := by
      simp only [watchArmOp, hx, hb, hbound, hg, hwrite, hcustody, if_neg hfits, Bool.not_true, Bool.false_eq_true, or_self, if_false,
        ne_eq, not_true_eq_false]
      exact ⟨_, _, rfl, Tbl.find_set_same _ _ _, rfl, rfl, rfl, rfl, rfl⟩
    have hcounted := ValuesOnly.foldl (fun s (j : Nat) => valuesOnly_odBump s (0x9100 + n) (j + 1)) (List.range 9) u
    refine ⟨_, exec_watchArm hn hopen, ?_⟩
    rw [hop, commitCounted_applied]
    refine ⟨shadow?_dropShadow _ _ _, y, ?_, hfields⟩
    rw [← hfind, ← hcounted.observe]
    rfl
  case refused =>
    simp only [watchArmOp, hx, hb, hbound, hg, hwrite, hcustody, if_neg hfits, Bool.not_true, Bool.false_eq_true, or_self, if_false,
      if_true]
    exact Tbl.find_set_same _ _ _

end

end

/-- A dump that fits its watch's buffer is written there. -/
theorem answers_watchDump {s : State} {c op : Nat} {q : DumpReq}
    (hq : s.observe.dumpReqs.find? (fun q => q.core = c && q.op = op) = some q) {y : Watch} {size : Nat} {lines : List Bytes}
    (hy : Tbl.get s.observe.watches Watch.reset q.watch = y) (hlines : (s.core c).readWalk (walkOf q.walk) = lines)
    (hsize : 64 * (1 + lines.length) = size) (hroom : y.used + size ≤ y.size)
    (hstatus : class1Status s y.region (y.slot * 2 ^ 60 + (y.offset + y.used)) 2 (1 + lines.length) = 0)
    (hwin : (Tbl.find (s.region y.region).windows y.slot).isSome = true) : answers (.watchDump c op) s fun t =>
      t.observe.dumpReqs = s.observe.dumpReqs.erase q ∧
      Tbl.find t.observe.watches q.watch = some { y with written := (y.written + 1) % 2 ^ 32, used := y.used + size } := by
  obtain ⟨g, hg⟩ := Option.isSome_iff_exists.1 hwin
  have hfits : (decide (y.used + size ≤ y.size) &&
      decide (class1Status s y.region (y.slot * 2 ^ 60 + (y.offset + y.used)) 2 (1 + lines.length) = 0)) = true := by
    rw [decide_eq_true hroom, decide_eq_true hstatus]
    rfl
  obtain ⟨u, bytes, v, source, he, hreqs, hv, hwatches⟩ : ∃ (u : State) (bytes : Bytes) (v : State) (source : Nat),
      exec (.watchDump c op) s = .next (v.notice 4 source q.watch size) ∧ u.observe.dumpReqs = s.observe.dumpReqs.erase q ∧
      v.observe.dumpReqs = (winWrite u g (y.offset + y.used) bytes).observe.dumpReqs ∧
      Tbl.find v.observe.watches q.watch = some { y with written := (y.written + 1) % 2 ^ 32, used := y.used + size } := by
    show ∃ (u : State) (bytes : Bytes) (v : State) (source : Nat), execWatchDump c op s = _ ∧ _
    unfold execWatchDump
    simp only [hq, hy, hlines, hsize, hfits]
    generalize hu : (if (s.observe.dumpReqs.erase q).any fun x => x.core = c && x.op = op then _ else _ : State) = u
    have hrest : u.regions = s.regions ∧ u.observe.dumpReqs = s.observe.dumpReqs.erase q := by
      rw [← hu]
      split <;> exact ⟨rfl, rfl⟩
    obtain ⟨hregions, hreqs⟩ := hrest
    have hg' : Tbl.find (u.region y.region).windows y.slot = some g := by rw [State.region, hregions]; exact hg
    simp only [hg']
    exact ⟨u, _, _, _, rfl, hreqs, rfl, Tbl.find_set_same _ _ _⟩
  refine ⟨_, he, ?_, ?_⟩
  · rw [State.notice, (streamOnly_sil _ _ _ _).dumpReqs, hv, (sitesOnly_winWrite _ _ _ _).observe, hreqs]
  · rw [State.notice, (streamOnly_sil _ _ _ _).watches, hwatches]

end Sys2Proof.Proofs
end

section
/-!
SUPPORT. Vigil and hangs, clause by clause (R632 to R636), and the statement of regions, dumps, watches and Vigil.
-/
namespace Sys2Proof.Proofs
open Sys2Proof.Machine Sys2Proof.Safety

/-! ## Arming and disarming (R634) -/

/-- A handle that is free stays free when another command ends. -/
theorem cmd?_finish_none {s : State} {i : Nat} (hi : s.cmd? i = none) (h status detail r0 r1 : Nat) :
    (s.finish h status detail r0 r1).cmd? i = none := by
  by_cases he : i = h
  · rw [he, cmd?_finish_same]
  · rw [cmd?_finish_ne _ he, hi]

/-- The handle of the arm that ends is free. -/
theorem disarmVigil_cmd? {s : State} {n : Nat} {v : VigArm} (hv : (s.region n).vigil = some v) :
    (disarmVigil s n).cmd? v.handle = none := by
  simp only [disarmVigil, hv, cmd?_finish_same]

section
variable {s : State} {h n : Nat} {o : HOut} (ho : s.cmd? h = some o) (hw : o.running = false) (hop : o.opcode = 0x52)
  (hregion : fieldAt o.cmd 16 1 = n) (hn : n < 64)
include ho hw hop hregion hn

/-- A region with an image is armed for a slot that has room for the head of a dump. -/
theorem answers_vigilArm (haction : fieldAt o.cmd 17 1 = 1) (hslot : fieldAt o.cmd 18 1 < 16) (hoffset : fieldAt o.cmd 24 8 % 64 = 0)
    {b : BoundImage} (himg : (s.region n).img = some b) (hbound : b.bound = true) (hfree : (s.region n).vigil = none) {g : Window}
    (hwin : Tbl.find (s.region n).windows (fieldAt o.cmd 18 1) = some g) (hwrite : g.write = true)
    (hfits : fieldAt o.cmd 24 8 + fieldAt o.cmd 32 8 ≤ g.size) (hhead : 4096 + (syncSection s n).length ≤ fieldAt o.cmd 32 8) :
    answers (.vigilArm h) s fun t => (∃ q, t.cmd? h = some q ∧ q.running = true) ∧
      ∃ v, (t.region n).vigil = some v ∧ v.handle = h ∧ v.slot = fieldAt o.cmd 18 1 ∧ v.offset = fieldAt o.cmd 24 8 ∧
        v.size = fieldAt o.cmd 32 8 := by
  refine ⟨_, congrArg Host.Outcome.next (onCmd_of_waiting ho hw hop _), ?_⟩
  simp only [haction, armVigil, hregion, himg, hbound, hfree, hwin, hwrite, hfits, decide_true, Bool.and_self, Bool.not_true,
    Option.isSome_none, Bool.false_eq_true, false_or]
  rw [if_neg (by omega)]
  refine ⟨?_, ?_⟩
  · rw [cmd?_keep_same]
    exact ⟨_, congrArg (Option.map _) ho, rfl⟩
  · exact ⟨_, congrArg Region.vigil (State.region_setRegion_same _ _ _), rfl, rfl, rfl, rfl⟩

/-- A disarm ends the arm, its handle and the command. -/
theorem answers_vigilDisarm (haction : fieldAt o.cmd 17 1 = 2) : answers (.vigilDisarm h) s fun t =>
    t.cmd? h = none ∧ (t.region n).vigil = none ∧ ∀ v, (s.region n).vigil = some v → t.cmd? v.handle = none := by
  refine ⟨_, congrArg Host.Outcome.next (onCmd_of_waiting ho hw hop _), ?_⟩
  simp only [haction, hregion]
  rw [if_neg (Nat.not_le.2 hn)]
  split
  next hnone =>
    refine ⟨cmd?_finish_same _ _ _ _ _ _, ?_, fun v hv => ?_⟩
    · rw [finish_region, ← Option.isNone_iff_eq_none, hnone]
    · rw [hv] at hnone
      cases hnone
  · exact ⟨cmd?_finish_same _ _ _ _ _ _, by rw [finish_region, disarmVigil_vigil],
      fun v hv => cmd?_finish_none (disarmVigil_cmd? hv) _ _ _ _ _⟩

end

/-! ## Dumps (R635, R636) -/

section
variable {s : State} {n : Nat} {t : VigTrig} {v : VigArm} {g : Window} (hwin : Tbl.find (s.region n).windows v.slot = some g)
  (hwrite : g.write = true)
include hwin hwrite

/-- A dump for a slot that is open is written there, counted and told, and then its arming handle completes. -/
theorem writeVigil_open : ∃ (u : State) (d : Bytes) (r1 : Nat),
    u.regions = (s.updRegion n fun r => { r with vigil := none }).regions ∧ u.observe = s.observe ∧ writeVigil s n t v =
      (State.notice (odPending { u with observe := { u.observe with vigils := (u.observe.vigils + 1) % 2 ^ 32 } } 0x9200 2)
        6 (silCentral 6 (some n)) n d.length).finish v.handle 0 0 d.length r1 := by
  obtain ⟨s1, d, r1, hs1, he⟩ : ∃ (s1 : State) (d : Bytes) (r1 : Nat),
      s1 = (s.draw (1 + 32 * 19200)).2.updRegion n (fun r => { r with vigil := none }) ∧ writeVigil s n t v =
        (State.notice (odPending { winWrite s1 g v.offset d with observe := { (winWrite s1 g v.offset d).observe with
          vigils := ((winWrite s1 g v.offset d).observe.vigils + 1) % 2 ^ 32 } } 0x9200 2)
          6 (silCentral 6 (some n)) n d.length).finish v.handle 0 0 d.length r1 := by
    simp only [writeVigil, hwin, hwrite, Bool.not_true, Bool.false_eq_true, if_false]
    exact ⟨_, _, _, rfl, rfl⟩
  have hsent := sitesOnly_winWrite s1 g v.offset d
  exact ⟨_, d, r1, hsent.regions.trans (by rw [hs1]; rfl), hsent.observe.trans (by rw [hs1]; rfl), he⟩

/-- What a dump that is written changes of the state that the flush reads: the region's arm is gone, the dump is counted, and the arming
handle is free. -/
theorem writeVigil_written :
    (writeVigil s n t v).regions = (s.updRegion n fun r => { r with vigil := none }).regions ∧
    (writeVigil s n t v).observe.vigilQ = s.observe.vigilQ ∧
    (writeVigil s n t v).observe.vigils = (s.observe.vigils + 1) % 2 ^ 32 ∧ (writeVigil s n t v).cmd? v.handle = none := by
  obtain ⟨u, d, r1, hregions, hobserve, he⟩ := writeVigil_open (t := t) hwin hwrite
  rw [he, finish_regions, (streamOnly_finish _ _ _ _ _ _).vigilQ, (streamOnly_finish _ _ _ _ _ _).vigils, State.notice,
    (posted_sil _ _ _ _).regions, (streamOnly_sil _ _ _ _).vigilQ, (streamOnly_sil _ _ _ _).vigils,
    (valuesOnly_odPending _ _ _).regions, (valuesOnly_odPending _ _ _).observe, hregions, hobserve]
  exact ⟨rfl, rfl, rfl, cmd?_finish_same _ _ _ _ _ _⟩

end

/-- The cores of a region that stop leave its dump's count, its region and the handles. -/
theorem haltAll_rest (s : State) (cs : List Nat) :
    let t := cs.foldl (fun s c => if (s.core c).run = .frozen ∨ (s.core c).run = .issuing then s.haltCore c id else s) s
    StreamOnly s t ∧ t.regions = s.regions ∧ t.host = s.host := by
  refine List.foldlRecOn (motive := fun t : State => StreamOnly s t ∧ t.regions = s.regions ∧ t.host = s.host) cs _ ⟨.refl s, rfl, rfl⟩
    fun t ⟨hstream, hregions, hhost⟩ c _ => ?_
  split
  · have hhalt := atCore_haltCore t c id
    exact ⟨hstream.trans (streamOnly_haltCore t c id), hhalt.regions.trans hregions, hhalt.host.trans hhost⟩
  · exact ⟨hstream, hregions, hhost⟩

/-- The first dump waiting is written, and the flush of its region goes on. -/
theorem answers_vigilDump {s : State} {n : Nat} {x : VigTrig} {rest : List VigTrig} {f : Flush} {v : VigArm} {g : Window}
    (hq : s.observe.vigilQ = x :: rest) (hx : x.region = n) (hflush : (s.region n).flush = some f) (hphase : f.phase = 3)
    (hv : (s.region n).vigil = some v) (hwin : Tbl.find (s.region n).windows v.slot = some g) (hwrite : g.write = true) :
    answers (.vigilDump n) s fun t => t.observe.vigilQ = rest ∧ t.observe.vigils = (s.observe.vigils + 1) % 2 ^ 32 ∧
      (t.region n).vigil = none ∧ (t.region n).flush = some { f with phase := 1 } ∧ t.cmd? v.handle = none := by
  obtain ⟨hregions, hvigilQ, hvigils, hfree⟩ :=
    writeVigil_written (s := { s with observe := { s.observe with vigilQ := rest } }) (n := n) (t := x) (v := v) hwin hwrite
  generalize hu : writeVigil { s with observe := { s.observe with vigilQ := rest } } n x v = u at hregions hvigilQ hvigils hfree
  generalize hy : (match x.handle with | some h => u.finish h 6 0xFFFE 0 0 | none => u) = y
  have hended : StreamOnly u y ∧ y.regions = u.regions ∧ y.cmd? v.handle = none := by
    rw [← hy]
    split
    · exact ⟨streamOnly_finish _ _ _ _ _ _, finish_regions _ _ _ _ _ _, cmd?_finish_none hfree _ _ _ _ _⟩
    · exact ⟨.refl u, rfl, hfree⟩
  obtain ⟨hystream, hyregions, hyfree⟩ := hended
  obtain ⟨hzstream, hzregions, hzhost⟩ := haltAll_rest y (rectCores (y.region n).nw (y.region n).se)
  generalize hz : (rectCores (y.region n).nw (y.region n).se).foldl _ y = z at hzstream hzregions hzhost
  have he : exec (.vigilDump n) s = .next (z.updRegion n fun r => { r with flush := some { f with phase := 1 } }) := by
    have hflush' : (({ s with observe := { s.observe with vigilQ := rest } } : State).region n).flush = some f := hflush
    have hv' : (({ s with observe := { s.observe with vigilQ := rest } } : State).region n).vigil = some v := hv
    show execVigilDump n s = _
    simp only [execVigilDump, hq, hflush', hv', hx, hphase, ne_eq, not_true_eq_false, if_false, hu]
    subst hz hy
    rfl
  have hregion : z.region n = { s.region n with vigil := none } := by
    rw [State.region, hzregions, hyregions, hregions]
    exact State.region_setRegion_same _ _ _
  refine ⟨_, he, ?_, ?_, ?_, ?_, ?_⟩
  · exact (hzstream.vigilQ.trans hystream.vigilQ).trans hvigilQ
  · exact (hzstream.vigils.trans hystream.vigils).trans hvigils
  · rw [State.updRegion, State.region_setRegion_same, hregion]
  · rw [State.updRegion, State.region_setRegion_same]
  · show z.cmd? v.handle = none
    rw [State.cmd?, State.hdl, hzhost]
    exact hyfree

/-! ## Hangs (R632, R633) -/

/-- A calibration without progress ends with its handle. -/
theorem answers_handleProgressTimeout {s : State} {h : Nat} {o : HOut} (ho : s.cmd? h = some o) (hrun : o.running = true)
    (hop : o.opcode = 0x51) (hwarm : s.thermal.state ≠ 1) (hpassed : s.passed o.since (1000000000 * s.setting 0x9000 1 600) = true) :
    answers (.handleProgressTimeout h) s fun t => t.cmd? h = none := by
  have hmarks : marksProgress s o = true := by
    rw [marksProgress, hrun, hop]
    rfl
  have hnone : handleRegion s h o = none := by
    rw [handleRegion, hop]
    rfl
  have he : exec (.handleProgressTimeout h) s = .next (abandon s h o true) := by
    show execHandleProgressTimeout h s = _
    simp only [execHandleProgressTimeout, ho, hmarks, hpassed, hnone, Option.bind_none]
    exact if_neg (by simp [hwarm])
  refine ⟨_, he, ?_⟩
  unfold abandon
  simp only [hop]
  exact cmd?_finish_same _ _ _ _ _ _

/-! ## The statement -/

section
variable {s : State} {w : Writer} {n : Nat}

/-- The three ends of a commit with a shadow. -/
theorem regionCommit_ends (hn : n < 64) (hopen : entryShut s 0x2200 = false) (hshadow : (s.shadow? w (0x2200 + n)).isSome = true) :
    let r := candRegion s w n
    let u := wakeFor s r
    (commitWaits u r = true → exec (.regionCommit w n) s = .next (holdCommit u w n .row) ∧ answers (.regionCommit w n) s fun t =>
      t.od.commits = s.od.commits ++ [⟨w, n, .row⟩] ∧ t.regions = s.regions ∧ t.shadow? w (0x2200 + n) = s.shadow? w (0x2200 + n)) ∧
    (commitWaits u r = false → commitCheck u n r = 0 → answers (.regionCommit w n) s fun t =>
      let q := t.region n
      q.nw = r.nw ∧ q.se = r.se ∧ q.exit = r.exit ∧ q.setCap = r.setCap ∧ q.grant = r.grant ∧ q.state ≠ 0 ∧ q.result = 0 ∧
        t.shadow? w (0x2200 + n) = none ∧ ∀ m, m ≠ n → t.region m = s.region m) ∧
    (commitWaits u r = false → cornersOk r = false → answers (.regionCommit w n) s fun t => (t.region n).result = 1 ∧
      t.region n = { s.region n with result := 1 } ∧ t.shadow? w (0x2200 + n) = s.shadow? w (0x2200 + n)) := by
  intro r u
  refine ⟨fun hwaits => ?held, fun hready hcheck => ?applied, fun hready hcorners => ?refused⟩
  case held =>
    have he := exec_regionCommit_waits hn hopen hshadow hwaits
    refine ⟨he, _, he, ?_, wakeFor_regions s r, wakeFor_shadow? s r w _⟩
    rw [holdCommit, wakeFor_od]
  case applied =>
    obtain ⟨t, he, hregion, hgone, hothers⟩ := answers_regionCommit_applies hn hopen hshadow hready hcheck
    refine ⟨t, he, ?_⟩
    dsimp only
    rw [hregion]
    exact ⟨rfl, rfl, rfl, rfl, rfl, committedRegion_state _ _, rfl, hgone, hothers⟩
  case refused =>
    obtain ⟨t, he, hregion, hkept⟩ := answers_regionCommit_corners hn hopen hshadow hready hcorners
    exact ⟨t, he, by rw [hregion], hregion, hkept⟩

/-- A release by the objects of its region and the others. -/
theorem regionRelease_syncs (hn : n < 64) (hopen : entryShut s 0x2200 = false) (hfree : regionBound s n = false) :
    answers (.regionRelease w n) s fun t => (t.region n).state = 0 ∧ (t.region n).windows = [] ∧
      (t.region n).pool = [] ∧ (∀ i, (s.sync i).owner = some n → (t.sync i).owner = none) ∧
      ∀ i, (s.sync i).owner ≠ some n → t.sync i = s.sync i := by
  obtain ⟨t, he, ⟨hstate, hwindows, hpool⟩, hsyncs⟩ := answers_regionRelease (w := w) hn hopen hfree
  refine ⟨t, he, hstate, hwindows, hpool, fun i hi => ?_, fun i hi => ?_⟩
  · rw [sync_disowned hsyncs, if_pos hi]
  · rw [sync_disowned hsyncs, if_neg hi]

end

/-- Settles O52: each clause is the lemma of its command above. -/
theorem regionsAndWatches : Obligations.RegionsAndWatches := by
  unfold Obligations.RegionsAndWatches
  intro s w n hn
  refine ⟨answers_regionCommit_empty hn, regionCommit_ends hn, regionRelease_syncs hn, answers_regionRelease_bound hn,
    fun h o ho hw => ⟨fun r hop hring hkind => ⟨answers_counterDump_begins ho hw hop hring hkind,
        answers_counterDump_stops ho hw hop hring hkind, answers_counterDump_refused ho hw hop hring⟩,
      fun b g hop hregion haction hslot hoffset himg hbound hfree hwin hwrite hfits hhead =>
        answers_vigilArm ho hw hop hregion hn haction hslot hoffset himg hbound hfree hwin hwrite hfits hhead,
      fun hop hregion haction => answers_vigilDisarm ho hw hop hregion hn haction⟩,
    fun ring d r hdump hring hperiod hdue => ⟨answers_snapshot_written hdump hring hperiod hdue,
      answers_snapshot_missed hdump hring hperiod hdue⟩,
    answers_watchArm_empty hn,
    fun hopen hshadow hregion htensor hslot hoffset hsize himg hwin =>
      answers_watchArm hn hopen hshadow hregion htensor hslot hoffset hsize himg hwin,
    answers_watchDisarm hn, fun c op q hq hroom hstatus hwin => answers_watchDump hq rfl rfl rfl hroom hstatus hwin,
    fun x rest f v g => answers_vigilDump, fun h o => answers_handleProgressTimeout⟩

end Sys2Proof.Proofs
end

section
/-!
SUPPORT. What a read of host memory, a record that is saved and a command that ends leave of the state (R415, R426, R437, R464).
-/
namespace Sys2Proof.Machine

/-! ## Reads of host memory -/

theorem posted_askGo (k : Nat) (s : State) (i addr len : Nat) : Posted s (askGo k s i addr len) := by
  induction k generalizing s addr len with
  | zero => exact .refl s
  | succ k ih =>
    rw [askGo]
    split
    · exact .refl s
    · dsimp only
      exact Posted.trans (t := { s with host := { s.host with readTag := (s.host.readTag + 1) % 2 ^ 32 } }) ⟨rfl, rfl⟩
        ((posted_hostSend _ i _).trans (ih _ _ _))

theorem posted_hostAsk (s : State) (i addr len : Nat) : Posted s (s.hostAsk i addr len) := posted_askGo _ s i addr len

theorem posted_winAskGo (k : Nat) (s : State) (w : Window) (off len : Nat) : Posted s (winAskGo k s w off len) := by
  induction k generalizing s off len with
  | zero => exact .refl s
  | succ k ih =>
    rw [winAskGo]
    split
    · exact .refl s
    · refine Posted.trans ?_ (ih _ _ _)
      split
      · exact posted_hostAsk s _ _ _
      · exact .refl s

theorem posted_winAsk (s : State) (n slot off len : Nat) : Posted s (winAsk s n slot off len) := by
  unfold winAsk
  split
  · split
    · exact posted_winAskGo _ s _ _ _
    · exact .refl s
  · exact .refl s

theorem posted_operand (s : State) (o : HOut) (addr len : Nat) (data : Option Bytes) : Posted s (s.operand o addr len data).1 := by
  unfold State.operand
  extract_lets i
  split
  · exact .refl s
  · exact posted_hostAsk s i addr len

theorem posted_askImage (s : State) (o : HOut) (stages control manifest : Option Bytes) : Posted s (askImage s o stages control manifest).1 :=
  (posted_operand s o _ _ stages).trans ((posted_winAsk _ _ _ _ _).trans (posted_winAsk _ _ _ _ _))

/-- An operand is what the host gives, when its site is there and its address is one that a read can have. -/
theorem operand_of_open {s : State} {o : HOut} {addr : Nat} (hlost : (s.site (cmdSite s o)).lost = false) (haddr : addr % 4 = 0)
    (len : Nat) (data : Option Bytes) : (s.operand o addr len data).2 = data := by
  simp [State.operand, hlost, haddr]

section
variable {s t : State} (h : Posted s t)
include h

theorem Posted.region (n : Nat) : t.region n = s.region n := by rw [State.region, h.regions, State.region]
theorem Posted.core (c : Nat) : t.core c = s.core c := by rw [State.core, h.cores, State.core]

theorem Posted.setting (index sub dflt : Nat) : t.setting index sub dflt = s.setting index sub dflt := by
  rw [h.rest]
  rfl

theorem Posted.namedImage (n slot count : Nat) (stages control manifest : Option Bytes) :
    Machine.namedImage t n slot count stages control manifest = Machine.namedImage s n slot count stages control manifest := by
  rw [h.rest]
  rfl

theorem Posted.sweepAll (r : Region) (m : Image) (ban vs : List Nat) (l : Spots) (k : Nat) :
    Machine.sweepAll t r m ban vs l k = Machine.sweepAll s r m ban vs l k := by
  induction vs generalizing l k with
  | nil => rfl
  | cons v vs ih =>
    have hsweep : sweep t r m l ban v = sweep s r m l ban v := by
      rw [h.rest]
      rfl
    simp only [Machine.sweepAll, hsweep, ih]

theorem Posted.placeImage (n : Nat) (m : Image) : Machine.placeImage t n m = Machine.placeImage s n m := by
  simp only [Machine.placeImage, devicePlace, h.sweepAll]
  rw [h.rest]
  rfl

theorem Posted.goodShard (n : Nat) (o : LoadOp) (x : ShardEnt) (data : Option Bytes) :
    Machine.goodShard t n o x data = Machine.goodShard s n o x data := by
  rw [h.rest]
  rfl

theorem Posted.holderOf (n c : Nat) : Machine.holderOf t n c = Machine.holderOf s n c := by
  rw [h.rest]
  rfl

end

/-! ## Commands -/

theorem HostSide.regions {s t : State} (h : HostSide s t) : t.regions = s.regions := by rw [h.rest]
theorem HostSide.region {s t : State} (h : HostSide s t) (n : Nat) : t.region n = s.region n := by
  rw [State.region, h.regions, State.region]
theorem HostSide.cores {s t : State} (h : HostSide s t) : t.cores = s.cores := by rw [h.rest]

theorem hostSide_keep (s : State) (h : Nat) (f : HOut → HOut) : HostSide s (s.keep h f) := ⟨rfl⟩

theorem hostSide_finishOp (s : State) (h : Option Nat) (status detail r1 : Nat) : HostSide s (finishOp s h status detail r1) := by
  cases h with
  | none => exact .refl s
  | some h => exact hostSide_finish s h status detail 0 r1

theorem hostSide_opProgress (s : State) (n : Nat) : HostSide s (opProgress s n) := by
  unfold opProgress
  split
  · split
    · exact hostSide_keep s _ _
    · exact .refl s
  · exact .refl s

/-- The handles of other commands that end leave a free handle free. -/
theorem cmd?_finishAll_none {s : State} {i : Nat} (hi : s.cmd? i = none) (hs : List Nat) (status detail r0 r1 : Nat) :
    (hs.foldl (fun s h => s.finish h status detail r0 r1) s).cmd? i = none :=
  List.foldlRecOn (motive := fun t : State => t.cmd? i = none) hs _ hi fun _ ht h _ => Proofs.cmd?_finish_none ht h status detail r0 r1

/-! ## Regions -/

theorem State.region_updRegion_same (s : State) (n : Nat) (f : Region → Region) : (s.updRegion n f).region n = f (s.region n) :=
  State.region_setRegion_same s n _

theorem setOp_region (s : State) (n : Nat) (o : LoadOp) : (setOp s n o).region n = { s.region n with op := some o } :=
  State.region_updRegion_same s n _

@[simp] theorem setOp_cores (s : State) (n : Nat) (o : LoadOp) : (setOp s n o).cores = s.cores := rfl

/-! ## The record of an image (R464) -/

theorem writeBlock_regions (s : State) (b lay : Nat) (d : StoreData) (aOk bOk : Bool) :
    (writeBlock s b lay d aOk bOk).regions = s.regions := by
  unfold writeBlock
  dsimp only
  split
  · split
    · rfl
    · exact (valuesOnly_odPending _ _ _).regions
  · rfl

theorem keepRecord_region (s : State) (n m : Nat) : (keepRecord s n).region m = s.region m := by
  have hregions : (keepRecord s n).regions = s.regions := writeBlock_regions _ _ _ _ _ _
  rw [State.region, hregions, State.region]

end Sys2Proof.Machine
end

section
/-!
SUPPORT. What a running operation does when it begins to program arrays, and when it goes on without ending (R265, R385, R389, R390).
-/
namespace Sys2Proof.Machine

/-! ## Arrays and cores in place -/

/-- A virtual core that has lost its place in a state had lost it in each state with the same fences and with no more arrays in service. -/
theorem mem_misplaced_of {s t : State} {b : BoundImage} {v : Nat} (hfactory : t.factory = s.factory)
    (hfence : ∀ c, (t.core c).fence = (s.core c).fence) (harr : ∀ c a, (s.core c).arrIn a = true → (t.core c).arrIn a = true)
    (hv : v ∈ misplaced t b) : v ∈ misplaced s b := by
  simp only [misplaced, List.mem_filter, usable, hfactory, hfence] at hv ⊢
  refine ⟨hv.1, ?_⟩
  revert hv
  rintro ⟨-, hv⟩
  split at hv
  · next e p he hp =>
    simp only [Bool.or_eq_true, List.any_eq_true, Bool.and_eq_true] at hv ⊢
    refine hv.imp_right ?_
    rintro ⟨a, ha, hmask, hout⟩
    refine ⟨a, ha, hmask, ?_⟩
    cases hin : (s.core p.core).arrIn (p.array a) with
    | false => rfl
    | true => rw [harr _ _ hin] at hout; exact hout
  · cases hv

/-! ## Programming begins (R389) -/

/-- A state in which an operation of region n has begun to program some arrays: those arrays, the sets and the list of the arrays under way
differ. -/
structure Begun (n : Nat) (s t : State) : Prop where
  rest : t = { s with cores := t.cores, regions := t.regions }
  op : ∀ o, (s.region n).op = some o → ∃ busy touched,
    t.region n = { s.region n with op := some { o with busy := busy, touched := touched } }
  fence : ∀ c, (t.core c).fence = (s.core c).fence
  arr : ∀ c a, (t.core c).arr a = (s.core c).arr a ∨ (t.core c).arr a = { (s.core c).arr a with state := 5 }

section
variable {n : Nat} {s t u : State}

theorem Begun.refl (n : Nat) (s : State) : Begun n s s :=
  ⟨rfl, fun o ho => ⟨o.busy, o.touched, by rw [← ho]⟩, fun _ => rfl, fun _ _ => .inl rfl⟩

theorem Begun.trans (h : Begun n s t) (h' : Begun n t u) : Begun n s u where
  rest := by
    calc u = { t with cores := u.cores, regions := u.regions } := h'.rest
      _ = { s with cores := u.cores, regions := u.regions } := by rw [h.rest]
  op o ho := by
    obtain ⟨busy, touched, ht⟩ := h.op o ho
    obtain ⟨busy', touched', hu⟩ := h'.op _ (by rw [ht])
    exact ⟨busy', touched', by rw [hu, ht]⟩
  fence c := (h'.fence c).trans (h.fence c)
  arr c a := by
    rcases h.arr c a with ht | ht <;> rcases h'.arr c a with hu | hu <;> simp [ht, hu]

theorem Begun.cmd? (h : Begun n s t) (i : Nat) : t.cmd? i = s.cmd? i := by
  rw [h.rest]
  rfl

theorem Begun.arrIn (h : Begun n s t) (c a : Nat) (hin : (s.core c).arrIn a = true) : (t.core c).arrIn a = true := by
  rcases h.arr c a with ht | ht
  · rwa [Core.arrIn, ht]
  · rw [Core.arrIn, ht]
    rfl

theorem Begun.misplaced (h : Begun n s t) {b : BoundImage} {v : Nat} (hv : v ∈ misplaced t b) : v ∈ misplaced s b :=
  mem_misplaced_of (by rw [h.rest]) h.fence h.arrIn hv

theorem Begun.fullWrites (h : Begun n s t) (c a : Nat) : ((t.core c).arr a).fullWrites = ((s.core c).arr a).fullWrites := by
  rcases h.arr c a with ht | ht <;> rw [ht]

end

theorem begun_beginProgram (s : State) (n : Nat) (p : Nat × Nat) : Begun n s (beginProgram s n p) := by
  unfold beginProgram
  split
  · exact .refl n s
  next o ho =>
    extract_lets k x taken k'
    split
    · exact .refl n s
    · have hregion (k : Core) (o : LoadOp) : (setOp (s.setCore p.1 k) n o).region n = { s.region n with op := some o } :=
        setOp_region _ n o
      have hcore (k : Core) (o : LoadOp) (c : Nat) : (setOp (s.setCore p.1 k) n o).core c = (s.setCore p.1 k).core c := rfl
      refine ⟨rfl, fun o' ho' => ?_, fun c => ?_, fun c a => ?_⟩
      · obtain rfl : o = o' := Option.some.inj (ho.symm.trans ho')
        exact ⟨_, _, hregion _ _⟩
      · rw [hcore]
        by_cases hc : c = p.1
        · subst hc
          rw [State.core_setCore_same]
          rfl
        · rw [State.core_setCore_ne _ _ hc]
      · rw [hcore]
        by_cases hc : c = p.1
        · subst hc
          rw [State.core_setCore_same]
          by_cases ha : a = p.2
          · subst ha
            exact .inr (Core.arr_setArr_same _ _ _)
          · exact .inl (Tbl.get_set_ne _ _ _ ha)
        · exact .inl (by rw [State.core_setCore_ne _ _ hc])

theorem begun_startPrograms (s : State) (n : Nat) : Begun n s (startPrograms s n) := by
  unfold startPrograms
  split
  · exact .refl n s
  · split
    · exact .refl n s
    · exact List.foldlRecOn (motive := Begun n s) _ _ (.refl n s) fun t ht p _ => ht.trans (begun_beginProgram t n p)

/-! ## An operation goes on -/

/-- An operation that only programs, and does so again in each state that this leads to, has begun some arrays when it waits. -/
theorem begun_advance {P : State → Prop} {s : State} {n : Nat} (hstep : ∀ t, P t → advanceOne t n = startPrograms t n)
    (hkeep : ∀ t u, Begun n t u → P t → P u) (hs : P s) : Begun n s (advance s n) := by
  have hone (t : State) (ht : P t) : Begun n t (advanceOne t n) := by
    rw [hstep t ht]
    exact begun_startPrograms t n
  have h1 := hone s hs
  have hs1 := hkeep _ _ h1 hs
  have h2 := hone _ hs1
  have h3 := hone _ (hkeep _ _ h2 hs1)
  exact h1.trans (h2.trans h3)

section
variable {s : State} {n : Nat} {o : LoadOp} {b : BoundImage}

/-- Outside a rollback and a relocation an operation reads the shards of its new image. -/
theorem opSource_new {r : Region} (hrollback : o.phase ≠ .rollback) (hrelocate : o.phase ≠ .relocate) : (opSource r o).1 = o.img := by
  unfold opSource
  split
  · rfl
  · split
    · next hphase => exact absurd hphase hrollback
    · next hphase => exact absurd hphase hrelocate
    · rfl

theorem wantedShards_load {r : Region} (hphase : o.phase = .loadProgram) : wantedShards r o = o.img.shards.map (·.shard) := by
  rw [wantedShards, hphase, ← opSource_new (r := r) (o := o) (by simp [hphase]) (by simp [hphase])]

theorem wantedShards_verify {r : Region} (hphase : o.phase = .verify) : wantedShards r o = o.img.shards.map (·.shard) := by
  rw [wantedShards, hphase, ← opSource_new (r := r) (o := o) (by simp [hphase]) (by simp [hphase])]

theorem allVerified_load {r : Region} (hphase : o.phase = .loadProgram) :
    allVerified r o = (o.img.shards.map (·.shard)).all fun h => (o.shard h).verified := by
  rw [allVerified, wantedShards_load hphase]

theorem allVerified_relocate {r : Region} (hphase : o.phase = .relocate) :
    allVerified r o = (o.shards.map (·.1)).all fun h => (o.shard h).verified := by
  rw [allVerified, wantedShards, hphase]

/-- A load with a shard to verify and every virtual core in its place programs what it can. -/
theorem begun_advance_load (himg : (s.region n).img = some b) (hop : (s.region n).op = some o) (hphase : o.phase = .loadProgram)
    (hplaced : misplaced s b = []) (hleft : allVerified (s.region n) o = false) : Begun n s (advance s n) := by
  refine begun_advance (P := fun t => ∃ o, (t.region n).img = some b ∧ (t.region n).op = some o ∧ o.phase = .loadProgram ∧
    misplaced t b = [] ∧ allVerified (t.region n) o = false) ?_ ?_ ⟨o, himg, hop, hphase, hplaced, hleft⟩
  · rintro t ⟨o, himg, hop, hphase, hplaced, hleft⟩
    simp [advanceOne, himg, hop, hphase, hplaced, hleft]
  · rintro t u hu ⟨o, himg, hop, hphase, hplaced, hleft⟩
    obtain ⟨busy, touched, hregion⟩ := hu.op o hop
    refine ⟨{ o with busy := busy, touched := touched }, by rw [hregion, himg], by rw [hregion], hphase, ?_, ?_⟩
    · exact List.eq_nil_iff_forall_not_mem.2 fun v hv => List.not_mem_nil (hplaced ▸ hu.misplaced hv)
    · exact (allVerified_load (o := { o with busy := busy, touched := touched }) hphase).trans ((allVerified_load hphase).symm.trans hleft)

/-- A rewrite that has not failed programs what it can. -/
theorem begun_advance_rewrite (himg : (s.region n).img = some b) (hop : (s.region n).op = some o) (hphase : o.phase = .rewrite)
    (hfailed : o.failed = none) : Begun n s (advance s n) := by
  refine begun_advance (P := fun t => ∃ o, (t.region n).img = some b ∧ (t.region n).op = some o ∧ o.phase = .rewrite ∧ o.failed = none)
    ?_ ?_ ⟨o, himg, hop, hphase, hfailed⟩
  · rintro t ⟨o, himg, hop, hphase, hfailed⟩
    simp [advanceOne, himg, hop, hphase, hfailed]
  · rintro t u hu ⟨o, himg, hop, hphase, hfailed⟩
    obtain ⟨busy, touched, hregion⟩ := hu.op o hop
    exact ⟨{ o with busy := busy, touched := touched }, by rw [hregion, himg], by rw [hregion], hphase, hfailed⟩

/-- A relocation with a shard to verify and every moved virtual core's new place whole programs what it can. -/
theorem begun_advance_relocate (himg : (s.region n).img = some b) (hop : (s.region n).op = some o) (hphase : o.phase = .relocate)
    (hplaced : ∀ v ∈ o.moved, v ∉ misplaced s { b with placed := o.spots }) (hleft : allVerified (s.region n) o = false) :
    Begun n s (advance s n) := by
  refine begun_advance (P := fun t => ∃ o, (t.region n).img = some b ∧ (t.region n).op = some o ∧ o.phase = .relocate ∧
    (∀ v ∈ o.moved, v ∉ misplaced t { b with placed := o.spots }) ∧ allVerified (t.region n) o = false) ?_ ?_
    ⟨o, himg, hop, hphase, hplaced, hleft⟩
  · rintro t ⟨o, himg, hop, hphase, hplaced, hleft⟩
    have hstays : ((misplaced t { b with placed := o.spots }).any fun v => o.moved.contains v) = false := by
      simpa using fun v hv hm => hplaced v hm hv
    simp only [advanceOne, himg, hop, hphase, hstays, hleft, Bool.false_eq_true, if_false]
  · rintro t u hu ⟨o, himg, hop, hphase, hplaced, hleft⟩
    obtain ⟨busy, touched, hregion⟩ := hu.op o hop
    refine ⟨{ o with busy := busy, touched := touched }, by rw [hregion, himg], by rw [hregion], hphase,
      fun v hv hm => hplaced v hv (hu.misplaced hm), ?_⟩
    exact (allVerified_relocate (o := { o with busy := busy, touched := touched }) hphase).trans ((allVerified_relocate hphase).symm.trans hleft)

/-- A verification that has not failed waits while a shard has not arrived. -/
theorem advance_verify (himg : (s.region n).img = some b) (hop : (s.region n).op = some o) (hphase : o.phase = .verify)
    (hfailed : o.failed = none) {h : Nat} (hwanted : h ∈ wantedShards (s.region n) o) (hleft : (o.shard h).arrived = false) :
    advance s n = s := by
  have hopen : ((wantedShards (s.region n) o).all fun h => (o.shard h).arrived) = false :=
    List.all_eq_false.2 ⟨h, hwanted, by simp [hleft]⟩
  have hone : advanceOne s n = s := by simp [advanceOne, himg, hop, hphase, failedSwap, hfailed, hopen]
  rw [advance, hone, hone, hone]

end

end Sys2Proof.Machine
end

section
/-!
SUPPORT. LOAD, clause by clause (R262, R263, R264, R386).
-/
namespace Sys2Proof.Proofs
open Sys2Proof.Machine Sys2Proof.Safety

/-- The image of a load that begins: placed, and not yet bound. -/
def loadImage (m : Image) (control : Bytes) (slot : Nat) (tab : List Nat) (l : List Placed) (y : List Nat) : BoundImage :=
  { img := m, ctl := control, slot := slot, stageTab := tab, placed := l, syncIdx := y, bound := false, active := false,
    version := 0, epoch := 0, reported := [], flushed := [], stopped := false }

/-- The operation of a load that begins: no shard has been read. -/
def loadOp (m : Image) (control : Bytes) (slot : Nat) (tab : List Nat) (h since : Nat) : LoadOp :=
  { handle := some h, swap := false, phase := .loadProgram, img := m, slot := slot, stageTab := tab, control := control, shards := [],
    busy := [], touched := [], layers := 0, since := since, reports := [], failed := none, policy := 0, drain := 0,
    closed := false, moved := [], spots := [], carried := [] }

/-- The state in which a load has its places: the sync objects are the region's and the second sweeps are counted (R271, R276). -/
def loadPlaced (s : State) (n relaxed : Nat) (y : List Nat) : State := (bindSyncs s n y).countSpread relaxed

/-- The state in which the arrival of a load's shards begins (R263). -/
def loadBegun (s : State) (n h : Nat) (b : BoundImage) (o : LoadOp) : State :=
  (s.updRegion n fun r => { r with
    img := some b, op := some o, pool := [], cursor := 0, delivered := 0, steps := [], again := [], genRun := 0, bucket := 0 }).keep h
    fun o => { o with running := true, since := s.now }

theorem bindSyncs_rest (s : State) (n : Nat) (idx : List Nat) : bindSyncs s n idx = { s with syncs := (bindSyncs s n idx).syncs } :=
  List.foldlRecOn (motive := fun t : State => t = { s with syncs := t.syncs }) idx _ rfl fun t ht i _ => by
    show t.setSync i _ = { s with syncs := (t.setSync i _).syncs }
    rw [ht]
    rfl

/-- A state in which the rest of a state is as it was but for sync objects and the counts of upkeep. -/
theorem loadPlaced_rest (s : State) (n relaxed : Nat) (y : List Nat) :
    loadPlaced s n relaxed y = { s with syncs := (loadPlaced s n relaxed y).syncs, upkeep := (loadPlaced s n relaxed y).upkeep } := by
  rw [loadPlaced, bindSyncs_rest]
  rfl

theorem loadBegun_region (s : State) (n h : Nat) (b : BoundImage) (o : LoadOp) :
    ((loadBegun s n h b o).region n).img = some b ∧ ((loadBegun s n h b o).region n).op = some o := by
  rw [loadBegun, (hostSide_keep _ _ _).region, State.region_updRegion_same]
  exact ⟨rfl, rfl⟩

theorem loadBegun_cmd? (s : State) (n h : Nat) (b : BoundImage) (o : LoadOp) :
    (loadBegun s n h b o).cmd? h = (s.cmd? h).map fun o => { o with running := true, since := s.now } := cmd?_keep_same _ h _

/-- The arrival of a load's shards begins and goes on: the image and the operation stand, and the handle stays open (R263). -/
theorem loadBegun_waits {v : State} {n h slot since : Nat} {q : HOut} {m : Image} {c : Bytes} {tab y : List Nat} {l : List Placed}
    (hq : v.cmd? h = some q) (hshards : m.shards ≠ []) (hplaced : misplaced v (loadImage m c slot tab l y) = []) :
    let t := advance (loadBegun v n h (loadImage m c slot tab l y) (loadOp m c slot tab h since)) n
    (t.region n).img = some (loadImage m c slot tab l y) ∧
      (∃ x, (t.region n).op = some x ∧ x.phase = .loadProgram ∧ x.handle = some h ∧ x.img = m) ∧ ∃ q, t.cmd? h = some q ∧ q.running = true := by
  intro t
  obtain ⟨himg, hop⟩ := loadBegun_region v n h (loadImage m c slot tab l y) (loadOp m c slot tab h since)
  have hleft (r : Region) : allVerified r (loadOp m c slot tab h since) = false := by
    rw [allVerified_load rfl]
    obtain ⟨x, hx⟩ := List.exists_mem_of_ne_nil _ hshards
    exact List.all_eq_false.2 ⟨x.shard, List.mem_map_of_mem hx, Bool.false_ne_true⟩
  have hbegun : Begun n (loadBegun v n h (loadImage m c slot tab l y) (loadOp m c slot tab h since)) t :=
    begun_advance_load himg hop rfl hplaced (hleft _)
  obtain ⟨busy, touched, hregion⟩ := hbegun.op _ hop
  refine ⟨by rw [hregion, himg], ⟨_, by rw [hregion], rfl, rfl, rfl⟩, ?_⟩
  rw [hbegun.cmd?, loadBegun_cmd?, hq]
  exact ⟨_, rfl, rfl⟩

section
variable {s : State} {h : Nat} {o : HOut} {stages control manifest : Option Bytes}

/-- The stage table is there when a LOAD or SWAP asks for one, and what it holds does not matter to one that asks for none. -/
theorem askImage_stages
    (hstages : fieldAt o.cmd 18 1 = 0 ∨ (stages.isSome ∧ (s.site (cmdSite s o)).lost = false ∧ fieldAt o.cmd 24 8 % 4 = 0)) :
    ¬ (fieldAt o.cmd 18 1 ≠ 0 ∧ (askImage s o stages control manifest).2.isNone = true) ∧ ∀ t n slot,
      namedImage t n slot (fieldAt o.cmd 18 1) (askImage s o stages control manifest).2 control manifest =
        namedImage t n slot (fieldAt o.cmd 18 1) stages control manifest := by
  rcases hstages with hcount | ⟨hsome, hlost, haddr⟩
  · refine ⟨fun hne => hne.1 hcount, fun t n slot => ?_⟩
    rw [hcount]
    rfl
  · have hask : (askImage s o stages control manifest).2 = stages := operand_of_open hlost haddr _ stages
    rw [hask]
    exact ⟨fun hne => Option.not_isSome_iff_eq_none.2 (Option.isNone_iff_eq_none.1 hne.2) hsome, fun _ _ _ => rfl⟩

section
variable (ho : s.cmd? h = some o) (hw : o.running = false) (hop : o.opcode = 0x30) (hn : fieldAt o.cmd 16 1 < 64)
  (hstate : (s.region (fieldAt o.cmd 16 1)).state = 1) (hgrant : (s.region (fieldAt o.cmd 16 1)).grant.getLsbD 0 = true)
  (hstages : fieldAt o.cmd 18 1 = 0 ∨ (stages.isSome ∧ (s.site (cmdSite s o)).lost = false ∧ fieldAt o.cmd 24 8 % 4 = 0))
include ho hw hop hn hstate hgrant hstages

/-- A LOAD that passes every check begins (R263). -/
theorem exec_load_begins {m : Image} {tab : List Nat} {c : Bytes} {l : List Placed} {y : List Nat} {relaxed : Nat}
    (hfree : (s.region (fieldAt o.cmd 16 1)).img = none)
    (hnamed : namedImage s (fieldAt o.cmd 16 1) (fieldAt o.cmd 17 1) (fieldAt o.cmd 18 1) stages control manifest = .ok (m, tab, c))
    (hplace : placeImage s (fieldAt o.cmd 16 1) m = (.ok (l, y), relaxed)) :
    ∃ u, Posted s u ∧ exec (.load h stages control manifest) s =
      .next (advance (loadBegun (loadPlaced u (fieldAt o.cmd 16 1) relaxed y) (fieldAt o.cmd 16 1) h
        (loadImage m c (fieldAt o.cmd 17 1) tab l y)
        (loadOp m c (fieldAt o.cmd 17 1) tab h (loadPlaced u (fieldAt o.cmd 16 1) relaxed y).now)) (fieldAt o.cmd 16 1)) := by
  have hu : Posted s (askImage s o stages control manifest).1 := posted_askImage s o stages control manifest
  obtain ⟨htable, hsame⟩ := askImage_stages (control := control) (manifest := manifest) hstages
  have hnamed' := (hu.namedImage _ _ _ _ _ _).trans ((hsame s _ _).trans hnamed)
  have hplace' := (hu.placeImage _ _).trans hplace
  have hopen : ¬ (64 ≤ fieldAt o.cmd 16 1 ∨ (s.region (fieldAt o.cmd 16 1)).state ≠ 1 ∨
      (!(s.region (fieldAt o.cmd 16 1)).grant.getLsbD 0) = true) := by
    simp [hn, hstate, hgrant]
  refine ⟨_, hu, ?_⟩
  show execLoad h stages control manifest s = _
  rw [execLoad, onCmd_of_waiting ho hw hop]
  simp only [hu.region, if_neg htable, if_neg hopen, hfree, Option.isSome_none, Bool.false_eq_true, if_false, hnamed', hplace']
  rfl

/-- A load that begins holds its region with the image unbound and waits for its shards (R263). -/
theorem answers_load_begins {m : Image} {tab : List Nat} {c : Bytes} {l : List Placed} {y : List Nat} {relaxed : Nat}
    (hfree : (s.region (fieldAt o.cmd 16 1)).img = none)
    (hnamed : namedImage s (fieldAt o.cmd 16 1) (fieldAt o.cmd 17 1) (fieldAt o.cmd 18 1) stages control manifest = .ok (m, tab, c))
    (hplace : placeImage s (fieldAt o.cmd 16 1) m = (.ok (l, y), relaxed)) (hshards : m.shards ≠ [])
    (hplaced : ∀ b : BoundImage, b.img = m → b.placed = l → misplaced s b = []) :
    answers (.load h stages control manifest) s fun t =>
      (∃ b, (t.region (fieldAt o.cmd 16 1)).img = some b ∧ b.img = m ∧ b.placed = l ∧ b.bound = false ∧ b.slot = fieldAt o.cmd 17 1 ∧
        b.stageTab = tab) ∧
      (∃ x, (t.region (fieldAt o.cmd 16 1)).op = some x ∧ x.phase = .loadProgram ∧ x.handle = some h ∧ x.img = m) ∧
        ∃ q, t.cmd? h = some q ∧ q.running = true := by
  obtain ⟨u, hu, hexec⟩ := exec_load_begins ho hw hop hn hstate hgrant hstages hfree hnamed hplace
  have hrest := loadPlaced_rest u (fieldAt o.cmd 16 1) relaxed y
  generalize loadPlaced u (fieldAt o.cmd 16 1) relaxed y = v at hexec hrest
  have hcore (d : Nat) : v.core d = s.core d := by rw [hrest]; exact hu.core d
  have hv : misplaced v (loadImage m c (fieldAt o.cmd 17 1) tab l y) = [] :=
    List.eq_nil_iff_forall_not_mem.2 fun x hx => List.not_mem_nil (hplaced (loadImage m c (fieldAt o.cmd 17 1) tab l y) rfl rfl ▸
      mem_misplaced_of (by rw [hrest]; exact hu.factory) (fun d => by rw [hcore]) (fun d a hin => by rw [hcore]; exact hin) hx)
  obtain ⟨himg, hop, hopen⟩ := loadBegun_waits (n := fieldAt o.cmd 16 1) (since := v.now)
    (show v.cmd? h = some o by rw [hrest]; exact (hu.cmd? h).trans ho) hshards hv
  exact ⟨_, hexec, ⟨_, himg, rfl, rfl, rfl, rfl, rfl⟩, hop, hopen⟩

/-- A LOAD into a region that holds an image is refused (R386). -/
theorem answers_load_occupied (himg : (s.region (fieldAt o.cmd 16 1)).img.isSome) :
    answers (.load h stages control manifest) s fun t => t.cmd? h = none ∧ t.regions = s.regions ∧ t.cores = s.cores := by
  have hu : Posted s (askImage s o stages control manifest).1 := posted_askImage s o stages control manifest
  obtain ⟨htable, -⟩ := askImage_stages (control := control) (manifest := manifest) hstages
  have hopen : ¬ (64 ≤ fieldAt o.cmd 16 1 ∨ (s.region (fieldAt o.cmd 16 1)).state ≠ 1 ∨
      (!(s.region (fieldAt o.cmd 16 1)).grant.getLsbD 0) = true) := by
    simp [hn, hstate, hgrant]
  refine ⟨(askImage s o stages control manifest).1.finish h 5 3 0 0, ?_, cmd?_finish_same _ _ _ _ _ _,
    (finish_regions _ _ _ _ _ _).trans hu.regions, (finish_cores _ _ _ _ _ _).trans hu.cores⟩
  show execLoad h stages control manifest s = _
  rw [execLoad, onCmd_of_waiting ho hw hop]
  simp only [hu.region, if_neg htable, if_neg hopen, himg, if_true]

end

end

/-- Settles O44: a load that begins, and one that finds its region taken. -/
theorem loadBegins : Obligations.LoadBegins := by
  unfold Obligations.LoadBegins
  intro s h o stages control manifest ho hw hop n slot count hn hstate hgrant hstages
  exact ⟨fun m tab c l y relaxed hfree hnamed hplace hshards hplaced =>
      answers_load_begins ho hw hop hn hstate hgrant hstages hfree hnamed hplace hshards hplaced,
    answers_load_occupied ho hw hop hn hstate hgrant hstages⟩

end Sys2Proof.Proofs
end

section
/-!
SUPPORT. What programming one array, and reading one back, leave of the state (R120, R383, R384).
-/
namespace Sys2Proof.Machine

/-- Room made for a tile leaves its own array as it is. -/
theorem Core.makeRoom_arr (k : Core) (a new : Nat) : (k.makeRoom a new).arr a = k.arr a := by
  unfold Core.makeRoom
  extract_lets t mine base stale k'
  split
  · rfl
  · show k'.arr a = k.arr a
    refine List.foldlRecOn (motive := fun k' : Core => k'.arr a = k.arr a) stale _ rfl fun k' hk' i hi => ?_
    have hne : a ≠ i := by
      rintro rfl
      simp [stale] at hi
    exact (Tbl.get_set_ne _ _ _ hne).trans hk'

/-- Short of its last full write, an array without counted columns has none worn by count. -/
theorem wornByCount_none {x : Arr} (hevents : x.colEvents = []) (hwrites : x.fullWrites < 1000000) (n : Nat) : wornByCount x n = [] := by
  have hmax : x.maxEvents < 10 ^ 6 := by
    rw [Arr.maxEvents, hevents]
    exact hwrites
  rw [wornByCount, if_pos hmax]

/-- An array with no column in the correction unit and none awaiting a spare has no half pair. -/
theorem Arr.halfPairs_none {x : Arr} (hsubst : x.subst = []) (hworn : x.worn = []) : x.halfPairs = [] := by
  rw [Arr.halfPairs, hsubst, hworn]
  exact ite_self _

/-- What the programming of an array has done before its worn columns are met: its core alone has changed, and the array has one full write
more; the columns are those that failed, those worn by count, and the halves of pairs. -/
theorem programArray_steps (s : State) (c a : Nat) (b : Bytes) (tile : Nat × Nat × Nat) (failed : List Nat) : ∃ u lv,
    programArray s c a b tile failed = ((failed.filter fun j => j < 512) ++ wornByCount ((u.core c).arr a) 1 ++
      ((u.core c).arr a).halfPairs).foldl (fun s j => wornColumn s c a j lv) u ∧ u.regions = s.regions ∧
    ((u.core c).arr a).fullWrites = ((s.core c).arr a).fullWrites + 1 ∧
    ((u.core c).arr a).colEvents = ((s.core c).arr a).colEvents ∧
    (((s.core c).arr a).subst = [] → ((u.core c).arr a).subst = []) ∧ (((s.core c).arr a).worn = [] → ((u.core c).arr a).worn = []) := by
  have hroom := Core.makeRoom_arr (s.core c) a (recOutliers b).length
  refine ⟨_, _, rfl, rfl, ?_⟩
  rw [State.core_updCore_same]
  dsimp only [Core.arr_setSet]
  rw [Core.arr_setArr_same]
  have hwrites := congrArg (fun x : Arr => x.fullWrites + 1) hroom
  have hsubst := congrArg (fun x : Arr => (x.ofRecord b tile).subst) hroom
  have hevents := congrArg Arr.colEvents hroom
  have hworn := congrArg Arr.worn hroom
  refine ⟨hwrites, hevents, fun hnone => hsubst.trans ?_, fun hnone => List.map_eq_nil_iff.2 (hworn.trans hnone)⟩
  rw [Arr.ofRecord, hnone, List.map_nil]

/-- An array without worn columns, short of its last full write, is programmed: its core alone changes, and it has one full write more. -/
theorem programArray_sound {s : State} {c a : Nat} (hsubst : ((s.core c).arr a).subst = []) (hworn : ((s.core c).arr a).worn = [])
    (hevents : ((s.core c).arr a).colEvents = []) (hwrites : ((s.core c).arr a).fullWrites + 1 < 1000000) (b : Bytes)
    (tile : Nat × Nat × Nat) :
    (programArray s c a b tile []).regions = s.regions ∧
      (((programArray s c a b tile []).core c).arr a).fullWrites = ((s.core c).arr a).fullWrites + 1 := by
  obtain ⟨u, lv, hsteps, hregions, hcount, hcols, hsub, hwear⟩ := programArray_steps s c a b tile []
  rw [hsteps, wornByCount_none (hcols.trans hevents) (hcount ▸ hwrites), Arr.halfPairs_none (hsub hsubst) (hwear hworn)]
  exact ⟨hregions, hcount⟩

end Sys2Proof.Machine
end

section
/-!
SUPPORT. The shards of an image that is loaded, verified or rewritten, clause by clause (R263, R264, R380 to R384, R390).
-/
namespace Sys2Proof.Proofs
open Sys2Proof.Machine Sys2Proof.Safety

section
variable {s : State} {n shard : Nat} {o : LoadOp} {b : BoundImage} {h : ShardEnt} {data : Option Bytes}

/-! ## Arrivals (R380, R381) -/

/-- A reading of a shard in flight is taken, unless the source of an unbound image's rollback is closed. -/
theorem exec_shardArrival (hop : (s.region n).op = some o) (himg : (s.region n).img = some b)
    (hopen : ¬ (b.bound = false ∧ o.phase = .rollback ∧ ∀ w, Tbl.find (s.region n).windows b.slot = some w → w.read = false))
    (hflight : (inFlightShards (s.region n) o).contains shard = true)
    (hfind : (opSource (s.region n) o).1.shards.find? (fun x => x.shard = shard) = some h) :
    exec (.shardArrival n shard data) s = .next (shardRead s n o h data) := by
  show execShardArrival n shard data s = _
  unfold execShardArrival
  simp only [hop, himg]
  rw [if_pos]
  · simp only [hfind]
  · refine ⟨?_, hflight⟩
    rw [Bool.not_eq_true', Bool.eq_false_iff]
    intro hshut
    simp only [Bool.and_eq_true, Bool.not_eq_true', decide_eq_true_eq] at hshut
    obtain ⟨⟨hunbound, hphase⟩, hclosed⟩ := hshut
    exact hopen ⟨hunbound, hphase, fun w hw => by simpa [hw] using hclosed⟩

/-- A reading in the first phases of an operation is taken. -/
theorem exec_shardArrival_of_phase (hop : (s.region n).op = some o) (himg : (s.region n).img = some b) (hphase : o.phase ≠ .rollback)
    (hflight : (inFlightShards (s.region n) o).contains shard = true)
    (hfind : (opSource (s.region n) o).1.shards.find? (fun x => x.shard = shard) = some h) :
    exec (.shardArrival n shard data) s = .next (shardRead s n o h data) :=
  exec_shardArrival hop himg (fun hshut => hphase hshut.2.1) hflight hfind

theorem shard_of_find {l : List ShardEnt} (hfind : l.find? (fun x => x.shard = shard) = some h) : h.shard = shard := by
  simpa using List.find?_some hfind

theorem arrived_of_inFlight {r : Region} (hflight : (inFlightShards r o).contains shard = true) : (o.shard shard).arrived = false := by
  rw [List.contains_iff_mem] at hflight
  have hmem := List.mem_filter.1 (List.mem_of_mem_take hflight)
  simpa using hmem.2

theorem shard_setShard_same (o : LoadOp) (i : Nat) (x : ShardSt) : (o.setShard i x).shard i = x := Tbl.get_set_same _ _ _ _
theorem shard_setShard_ne (o : LoadOp) {i j : Nat} (x : ShardSt) (hj : j ≠ i) : (o.setShard i x).shard j = o.shard j :=
  Tbl.get_set_ne _ _ _ hj

/-- A shard that is taken has arrived. -/
theorem takeShard_arrives (s : State) (n : Nat) (o : LoadOp) (h : ShardEnt) (p : Bytes) :
    ∃ x, takeShard s n o h p = setOp s n (o.setShard h.shard x) ∧ x.arrived = true := ⟨_, rfl, rfl⟩

/-- A good reading of a shard whose outliers find a place, outside a rewrite, is taken. -/
theorem shardRead_good {p : Bytes} (hphase : o.phase ≠ .loadProgram) (hrewrite : o.phase ≠ .rewrite)
    (hgood : goodShard s n o h data = some p)
    (hok : shardOk (opSource (s.region n) o).1 h.shard p (othersOn (opSource (s.region n) o).1 o h.shard) = true) :
    ∃ u, Posted s u ∧ shardRead s n o h data = advance (opProgress (takeShard u n o h p) n) n := by
  have hu : Posted s (winAsk s n (opSource (s.region n) o).2.1 h.source (shardSpan s h)) := posted_winAsk _ _ _ _ _
  refine ⟨_, hu, ?_⟩
  unfold shardRead
  simp only [hphase, false_and, if_false, hu.goodShard, hgood, hrewrite, hok, Bool.not_true, Bool.false_eq_true]

/-- A bad reading counts as a failure, or is the last one. -/
theorem shardRead_bad (hwindow : (Tbl.find (s.region n).windows (opSource (s.region n) o).2.1).isSome)
    (hbad : goodShard s n o h data = none) :
    ∃ u, Posted s u ∧ shardRead s n o h data = if 3 ≤ (o.shard h.shard).failures then opFail u n 2 10 h.shard
      else setOp u n (o.setShard h.shard { o.shard h.shard with failures := (o.shard h.shard).failures + 1 }) := by
  have hu : Posted s (winAsk s n (opSource (s.region n) o).2.1 h.source (shardSpan s h)) := posted_winAsk _ _ _ _ _
  have hopen : ¬ (o.phase = .loadProgram ∧ (Tbl.find (s.region n).windows (opSource (s.region n) o).2.1).isNone = true) := by
    rintro ⟨-, hnone⟩
    rw [Option.isNone_iff_eq_none] at hnone
    simp [hnone] at hwindow
  refine ⟨_, hu, ?_⟩
  unfold shardRead
  simp only [if_neg hopen, hu.goodShard, hbad]

/-- A load that fails leaves its region unbound, and its handle free (R264). -/
theorem failLoad_ends (s : State) (n : Nat) (o : LoadOp) (st det r1 : Nat) :
    ((failLoad s n o st det r1).region n).img = none ∧ ((failLoad s n o st det r1).region n).op = none ∧
      ∀ x, o.handle = some x → (failLoad s n o st det r1).cmd? x = none := by
  unfold failLoad
  extract_lets s1 s2 hs s3
  have hregion : (hs.foldl (fun s h => s.finish h 4 0 0 0) s3).region n = { s2.region n with img := none, op := none, relocs := [] } := by
    rw [(HostSide.foldl (fun t h => hostSide_finish t h 4 0 0 0) hs s3).region, (hostSide_finishOp _ _ _ _ _).region,
      State.region_updRegion_same]
  refine ⟨by rw [hregion], by rw [hregion], fun x hx => cmd?_finishAll_none ?_ hs 4 0 0 0⟩
  show (finishOp _ o.handle st det r1).cmd? x = none
  rw [hx]
  exact cmd?_finish_same _ _ _ _ _ _

/-- A good reading while an image is verified arrives, and the verification waits for the other shards (R380). -/
theorem answers_shardArrival_verify {p : Bytes} (hop : (s.region n).op = some o) (himg : (s.region n).img = some b)
    (hphase : o.phase = .verify) (hfailed : o.failed = none) (hflight : (inFlightShards (s.region n) o).contains shard = true)
    (hfind : (opSource (s.region n) o).1.shards.find? (fun x => x.shard = shard) = some h) (hgood : goodShard s n o h data = some p)
    (hok : shardOk (opSource (s.region n) o).1 h.shard p (othersOn (opSource (s.region n) o).1 o h.shard) = true)
    (hleft : ∃ g ∈ (opSource (s.region n) o).1.shards, g.shard ≠ shard ∧ (o.shard g.shard).arrived = false) :
    answers (.shardArrival n shard data) s fun t =>
      ∃ x, (t.region n).op = some x ∧ x.phase = .verify ∧ (x.shard shard).arrived = true := by
  obtain ⟨u, hu, hread⟩ := shardRead_good (by simp [hphase]) (by simp [hphase]) hgood hok
  obtain ⟨x, htake, harrived⟩ := takeShard_arrives u n o h p
  obtain ⟨g, hg, hne, hwaits⟩ := hleft
  have hshard := shard_of_find hfind
  have hregion : (opProgress (takeShard u n o h p) n).region n = { s.region n with op := some (o.setShard h.shard x) } := by
    rw [(hostSide_opProgress _ n).region, htake, setOp_region, hu.region]
  have hwaiting : advance (opProgress (takeShard u n o h p) n) n = opProgress (takeShard u n o h p) n := by
    refine advance_verify (o := o.setShard h.shard x) (h := g.shard) (by rw [hregion, himg]) (by rw [hregion]) hphase hfailed ?_ ?_
    · rw [wantedShards_verify (o := o.setShard h.shard x) hphase]
      rw [opSource_new (by simp [hphase]) (by simp [hphase])] at hg
      exact List.mem_map_of_mem hg
    · rwa [shard_setShard_ne _ _ (hshard ▸ hne)]
  refine ⟨_, exec_shardArrival_of_phase hop himg (by simp [hphase]) hflight hfind, ?_⟩
  rw [hread, hwaiting]
  exact ⟨o.setShard h.shard x, by rw [hregion], hphase, by rw [← hshard, shard_setShard_same, harrived]⟩

/-- A bad reading of a load counts as a failure, and the fourth leaves the region unbound (R264, R381). -/
theorem answers_shardArrival_bad (hop : (s.region n).op = some o) (himg : (s.region n).img = some b) (hphase : o.phase = .loadProgram)
    (hflight : (inFlightShards (s.region n) o).contains shard = true)
    (hfind : (opSource (s.region n) o).1.shards.find? (fun x => x.shard = shard) = some h)
    (hwindow : (Tbl.find (s.region n).windows (opSource (s.region n) o).2.1).isSome) (hbad : goodShard s n o h data = none) :
    ((o.shard shard).failures < 3 → answers (.shardArrival n shard data) s fun t =>
      ∃ x, (t.region n).op = some x ∧ (x.shard shard).failures = (o.shard shard).failures + 1 ∧ (x.shard shard).arrived = false) ∧
    (3 ≤ (o.shard shard).failures → answers (.shardArrival n shard data) s fun t => (t.region n).img = none ∧ (t.region n).op = none ∧
      ∀ x, o.handle = some x → t.cmd? x = none) := by
  obtain ⟨u, hu, hread⟩ := shardRead_bad hwindow hbad
  have hexec := exec_shardArrival_of_phase (data := data) hop himg (by simp [hphase]) hflight hfind
  obtain rfl := shard_of_find hfind
  rw [hread] at hexec
  refine ⟨fun hfew => ?again, fun hmany => ?ends⟩
  case again =>
    rw [if_neg (by omega)] at hexec
    refine ⟨_, hexec, _, by rw [setOp_region], ?_⟩
    rw [shard_setShard_same]
    exact ⟨rfl, arrived_of_inFlight hflight⟩
  case ends =>
    have hfails : opFail u n 2 10 h.shard = failLoad u n o 2 10 h.shard := by
      simp only [opFail, hu.region, hop, hphase]
    rw [if_pos hmany, hfails] at hexec
    exact ⟨_, hexec, failLoad_ends u n o 2 10 h.shard⟩

/-! ## Arrays programmed (R383, R389) -/

/-- An operation that has one array less under way, the tile in it done. -/
def arrayDone (o : LoadOp) (core array shard i : Nat) : LoadOp :=
  { o with busy := o.busy.filter (· ≠ 32 * core + array) }.setShard shard { o.shard shard with done := (o.shard shard).done ++ [i] }

/-- The region whose operation has an array under way. -/
def programmingRegion (s : State) (key : Nat) : Option (Nat × Region) :=
  s.regions.find? fun e => match e.2.op with | some x => x.busy.contains key | none => false

/-- The shard, the number and the tile that an operation programs into an array. -/
def arrayTile (r : Region) (o : LoadOp) (core array : Nat) : Option (Nat × Nat × TileEnt × (Nat × Nat)) :=
  (wantedShards r o).findSome? fun h =>
    ((shardTiles (opSource r o).1 (opSource r o).2.2 h).find? fun x => x.2.2 = (core, array)).map fun x => (h, x)

section
variable {core array i : Nat} {t : TileEnt} {p : Nat × Nat} (hop : (s.region n).op = some o) (hhold : s.thermal.state = 0)
  (haux : s.power.auxLost = none) (husable : usable s core = true)
  (hbusy : programmingRegion s (32 * core + array) = some (n, s.region n))
  (hhit : arrayTile (s.region n) o core array = some (shard, i, t, p))
include hop hhold haux husable hbusy hhit

/-- An array under way holds its record, its tile is done, and its operation goes on. -/
theorem exec_arrayProgrammed {failed : List Nat} : exec (.arrayProgrammed core array failed) s =
    .next (advance (programArray (opProgress (setOp s n (arrayDone o core array shard i)) n) core array
      (Tbl.get (o.shard shard).records [] i) (t.layer, t.shard, t.offset) failed) n) := by
  have hruns : ¬ (s.thermal.state ≠ 0 ∨ s.power.auxLost.isSome = true) := by simp [hhold, haux]
  rw [arrayTile] at hhit
  show execArrayProgrammed core array failed s = _
  unfold execArrayProgrammed
  extract_lets key
  split
  · next hnone => cases hbusy.symm.trans hnone
  · next m r hfound =>
    obtain ⟨rfl, rfl⟩ : n = m ∧ s.region n = r := Prod.mk.inj (Option.some.inj (hbusy.symm.trans hfound))
    simp only [hop, if_neg hruns, husable, Bool.not_true, Bool.false_eq_true, if_false, hhit]
    rfl

/-- A sound array that a rewrite programs has one full write more, and its tile is done (R120, R383). -/
theorem answers_arrayProgrammed (himg : (s.region n).img = some b) (hphase : o.phase = .rewrite) (hfailed : o.failed = none)
    (hsubst : ((s.core core).arr array).subst = []) (hworn : ((s.core core).arr array).worn = [])
    (hevents : ((s.core core).arr array).colEvents = []) (hwrites : ((s.core core).arr array).fullWrites + 1 < 1000000) :
    answers (.arrayProgrammed core array []) s fun u =>
      ((u.core core).arr array).fullWrites = ((s.core core).arr array).fullWrites + 1 ∧
      ∃ x, (u.region n).op = some x ∧ (x.shard shard).done.contains i = true := by
  refine ⟨_, exec_arrayProgrammed hop hhold haux husable hbusy hhit, ?_⟩
  generalize hv : opProgress (setOp s n (arrayDone o core array shard i)) n = v
  have hside : HostSide (setOp s n (arrayDone o core array shard i)) v := hv ▸ hostSide_opProgress _ n
  have hcore : v.core core = s.core core := by rw [State.core, hside.cores, setOp_cores, State.core]
  obtain ⟨hregions, hcount⟩ := programArray_sound (s := v) (c := core) (a := array) (by rw [hcore, hsubst]) (by rw [hcore, hworn])
    (by rw [hcore, hevents]) (by rw [hcore]; exact hwrites) (Tbl.get (o.shard shard).records [] i) (t.layer, t.shard, t.offset)
  generalize programArray v core array _ _ [] = w at hregions hcount ⊢
  have hregion : w.region n = { s.region n with op := some (arrayDone o core array shard i) } := by
    rw [State.region, hregions, ← State.region, hside.region, setOp_region]
  have hbegun : Begun n w (advance w n) :=
    begun_advance_rewrite (o := arrayDone o core array shard i) (by rw [hregion, himg]) (by rw [hregion]) hphase hfailed
  obtain ⟨busy, touched, hend⟩ := hbegun.op (arrayDone o core array shard i) (by rw [hregion])
  have hdone : ((arrayDone o core array shard i).shard shard).done.contains i = true := by
    rw [arrayDone, shard_setShard_same]
    simp
  refine ⟨by rw [hbegun.fullWrites, hcount, hcore], _, by rw [hend], ?_⟩
  exact hdone

end

/-! ## Shards read back (R383, R384) -/

/-- A rewrite reads back every tile of a shard. -/
theorem readTiles_of_rewrite (hphase : o.phase = .rewrite) (ts : List (Nat × TileEnt × (Nat × Nat))) :
    ts.filter (fun x => o.phase ≠ .relocate || o.moved.contains x.2.1.vcore) = ts :=
  List.filter_eq_self.2 fun _ _ => by simp [hphase]

/-- A read-back waits for the converter sets of its shard's arrays (R43, R44, log 198). -/
theorem exec_shardReadback_busy (hop : (s.region n).op = some o) (hphase : o.phase = .rewrite)
    (hbusy : setsFree s (shardTiles (opSource (s.region n) o).1 (opSource (s.region n) o).2.2 shard) = false) :
    exec (.shardReadback n shard) s = .next s := by
  show execShardReadback n shard s = _
  unfold execShardReadback
  simp only [hop, readTiles_of_rewrite hphase, hbusy, Bool.not_false, or_true, if_true]

/-- A fold whose steps keep the regions keeps them. -/
theorem regions_foldl {α : Type} {f : State → α → State} (hf : ∀ t x, (f t x).regions = t.regions) (l : List α) (s : State) :
    (l.foldl f s).regions = s.regions :=
  List.foldlRecOn (motive := fun t : State => t.regions = s.regions) l f rfl fun t ht x _ => (hf t x).trans ht

/-- The size that a shard has in its image's list. -/
def shardSize (m : Image) (shard : Nat) : Nat := match m.shards.find? (fun h => h.shard = shard) with | some h => h.size | none => 0

section
variable {whole : Bytes} {recs : List ((Nat × Nat) × Bytes)} {ts : List (Nat × TileEnt × (Nat × Nat))} (hop : (s.region n).op = some o)
  (himg : (s.region n).img = some b) (hphase : o.phase = .rewrite)
  (hwanted : (wantedShards (s.region n) o).contains shard = true)
  (hts : shardTiles (opSource (s.region n) o).1 (opSource (s.region n) o).2.2 shard = ts)
  (hwritten : shardWritten s o (o.shard shard) ts = true) (hfree : setsFree s ts = true)
  (hrebuilt : rebuildShard (s.draw (2 ^ 21 * ts.length)).2 (s.draw (2 ^ 21 * ts.length)).1 (shardSize (opSource (s.region n) o).1 shard)
    (o.shard shard) ts = (whole, recs))

include hphase hwanted hwritten hfree in
/-- Nothing holds up the read-back of a rewrite's shard that is written, with the sets of its arrays free. -/
theorem readback_runs : ¬ (o.phase = .verify ∨ (!(wantedShards (s.region n) o).contains shard) = true ∨
    (!shardWritten s o (o.shard shard) ts) = true ∨ (!setsFree s ts) = true) := by
  simp [hphase, List.contains_iff_mem.1 hwanted, hwritten, hfree]

include hop hphase hwanted hts hwritten hfree hrebuilt

/-- A rewrite's shard whose digest agrees is verified. -/
theorem exec_shardReadback_good
    (hdigest : ((opSource (s.region n) o).1.manifest.any fun e => e.shard = shard && e.digest = sha256 whole) = true) :
    ∃ u layers, u.regions = s.regions ∧ exec (.shardReadback n shard) s = .next (advance (keepRecord (opProgress (setOp u n
      { o.setShard shard { o.shard shard with verified := true } with layers := layers }) n) n) n) := by
  have hgood := (congrArg (fun x : Bytes × _ =>
    (opSource (s.region n) o).1.manifest.any fun e => e.shard = shard && e.digest = sha256 x.1) hrebuilt).trans hdigest
  show ∃ u layers, _ ∧ execShardReadback n shard s = _
  unfold execShardReadback
  simp only [hop, readTiles_of_rewrite hphase, hts, if_neg (readback_runs hphase hwanted hwritten hfree)]
  refine ⟨_, _, ?regions, if_pos ((if_neg (by simp [hphase])).trans hgood)⟩
  case regions =>
    refine (regions_foldl (fun t x => ?_) _ _).trans (regions_foldl (fun t x => ?_) _ _)
    · split <;> rfl
    · split <;> rfl

/-- A rewrite's shard whose digest disagrees, with a failure left, is read again from the start. -/
theorem exec_shardReadback_again
    (hdigest : ((opSource (s.region n) o).1.manifest.any fun e => e.shard = shard && e.digest = sha256 whole) = false)
    (hfew : (o.shard shard).failures < 3) :
    ∃ u, exec (.shardReadback n shard) s =
      .next (setOp u n (o.setShard shard { ShardSt.reset with failures := (o.shard shard).failures + 1 })) := by
  have hbad := (congrArg (fun x : Bytes × _ =>
    (opSource (s.region n) o).1.manifest.any fun e => e.shard = shard && e.digest = sha256 x.1) hrebuilt).trans hdigest
  show ∃ u, execShardReadback n shard s = _
  unfold execShardReadback
  simp only [hop, readTiles_of_rewrite hphase, hts, if_neg (readback_runs hphase hwanted hwritten hfree)]
  exact ⟨_, (if_neg (Bool.eq_false_iff.1 ((if_neg (by simp [hphase])).trans hbad))).trans (if_neg (Nat.not_le.2 hfew))⟩

include himg

/-- What is verified stays verified while the rewrite goes on (R383). -/
theorem answers_shardReadback_good (hfailed : o.failed = none)
    (hdigest : ((opSource (s.region n) o).1.manifest.any fun e => e.shard = shard && e.digest = sha256 whole) = true) :
    answers (.shardReadback n shard) s fun u => ∃ x, (u.region n).op = some x ∧ (x.shard shard).verified = true := by
  obtain ⟨u, layers, hregions, hexec⟩ := exec_shardReadback_good hop hphase hwanted hts hwritten hfree hrebuilt hdigest
  refine ⟨_, hexec, ?_⟩
  generalize hx : { o.setShard shard { o.shard shard with verified := true } with layers := layers } = x
  have hregion : (keepRecord (opProgress (setOp u n x) n) n).region n = { s.region n with op := some x } := by
    rw [keepRecord_region, (hostSide_opProgress _ n).region, setOp_region, State.region, hregions, State.region]
  obtain ⟨busy, touched, hend⟩ := (begun_advance_rewrite (o := x) (by rw [hregion, himg]) (by rw [hregion]) (hx ▸ hphase)
    (hx ▸ hfailed)).op x (by rw [hregion])
  have hverified : (x.shard shard).verified = true := by
    rw [← hx]
    exact congrArg ShardSt.verified (shard_setShard_same o shard _)
  refine ⟨_, by rw [hend], ?_⟩
  exact hverified

end

end

/-- Settles O45: arrivals, arrays programmed, and shards read back once their sets are free (log 198), each by the lemma of its clause. -/
theorem shardsProgram : Obligations.ShardsProgram := by
  unfold Obligations.ShardsProgram
  intro s n shard o b hop himg src
  refine ⟨fun h data hopen _ hflight hfind => exec_shardArrival hop himg hopen hflight hfind,
    fun h data p hphase hfailed hflight hfind hgood hok hleft =>
      answers_shardArrival_verify hop himg hphase hfailed hflight hfind hgood hok hleft,
    fun h data hphase hflight hfind hwindow hbad => answers_shardArrival_bad hop himg hphase hflight hfind hwindow hbad,
    fun core array failed h i t p hhold haux husable hbusy hhit => exec_arrayProgrammed hop hhold haux husable hbusy hhit,
    fun core array i t p hphase hfailed hhold haux husable hsubst hworn hbusy hhit hevents hwrites =>
      answers_arrayProgrammed hop hhold haux husable hbusy hhit himg hphase hfailed hsubst hworn hevents hwrites,
    fun whole recs hphase hfailed hwanted hwritten hfree hrebuilt => ⟨?good, ?again⟩,
    fun hphase hbusy => exec_shardReadback_busy hop hphase hbusy⟩
  case good => exact answers_shardReadback_good hop himg hphase hwanted rfl hwritten hfree hrebuilt hfailed
  case again =>
    intro hdigest hfew
    obtain ⟨u, hexec⟩ := exec_shardReadback_again hop hphase hwanted rfl hwritten hfree hrebuilt hdigest hfew
    exact ⟨_, hexec, _, by rw [setOp_region], shard_setShard_same _ _ _⟩

end Sys2Proof.Proofs
end

section
/-!
SUPPORT. UNLOAD and REBIND, clause by clause (R262, R277, R312, R388).
-/
namespace Sys2Proof.Machine

/-- A state in which a check of arrays may have held some: the regions and the fences are as they were. -/
structure Checked (s t : State) : Prop where
  regions : t.regions = s.regions
  fence : ∀ c, (t.core c).fence = (s.core c).fence

section
variable {s t u : State}

theorem Checked.refl (s : State) : Checked s s := ⟨rfl, fun _ => rfl⟩

theorem Checked.trans (h : Checked s t) (h' : Checked t u) : Checked s u :=
  ⟨h'.regions.trans h.regions, fun c => (h'.fence c).trans (h.fence c)⟩

theorem checked_updCore (s : State) (c : Nat) {f : Core → Core} (hf : ∀ k, (f k).fence = k.fence) : Checked s (s.updCore c f) := by
  refine ⟨rfl, fun d => ?_⟩
  by_cases hd : d = c
  · rw [hd, State.core_updCore_same, hf]
  · rw [State.core_updCore_ne _ _ hd]

theorem checked_readRecord (s : State) (c a base : Nat) : Checked s (s.readRecord c a base).2 := by
  have hcount (x : Nat) : Checked s (s.updCore c fun k => k.count 1 6 x) := checked_updCore s c fun k => k.count_fence 1 6 x
  exact hcount _

theorem checked_checkArrays (s : State) (b : BoundImage) : Checked s (checkArrays s b) := by
  refine List.foldlRecOn (motive := Checked s) _ _ (.refl s) fun t ht x _ => ht.trans ?_
  split
  · exact .refl t
  · split
    · exact .refl t
    · dsimp only
      split
      · exact .refl t
      · have hdraw : Checked t (t.draw (2 ^ 21)).2 := ⟨rfl, fun _ => rfl⟩
        split
        · exact hdraw.trans (checked_readRecord _ _ _ _)
        · exact (hdraw.trans (checked_readRecord _ _ _ _)).trans (checked_updCore _ _ fun _ => rfl)

end

/-- An image that begins to serve is the one that was bound. -/
theorem tryActivate_img {s : State} {n : Nat} {b : BoundImage} (himg : (s.region n).img = some b) :
    ∃ x, ((tryActivate s n).region n).img = some x ∧ x.bound = b.bound ∧ x.img = b.img ∧ x.placed = b.placed := by
  unfold tryActivate
  simp only [himg]
  split
  · rw [(sent_sendAllStages _ _ _ _ _).region, State.region_setRegion_same]
    exact ⟨_, rfl, rfl, rfl, rfl⟩
  · exact ⟨b, himg, rfl, rfl, rfl⟩

theorem reportBound_img {s : State} {n : Nat} {b : BoundImage} (himg : (s.region n).img = some b) :
    ∃ x, ((reportBound s n).region n).img = some x ∧ x.bound = b.bound ∧ x.img = b.img ∧ x.placed = b.placed := by
  unfold reportBound
  simp only [himg]
  split
  · exact ⟨b, himg, rfl, rfl, rfl⟩
  · split
    · exact ⟨b, by rw [(sent_sendControl _ _ _ _ _ _ _).region, himg], rfl, rfl, rfl⟩
    · exact tryActivate_img himg

end Sys2Proof.Machine

namespace Sys2Proof.Proofs
open Sys2Proof.Machine Sys2Proof.Safety

section
variable {s : State} {n : Nat} {b : BoundImage}

/-- The state in which a region has lost its image and all that served it (R262, R312, R565). -/
def emptied (s : State) (n : Nat) : State := s.updRegion n fun r => { r with
  img := none, op := none, relocs := [], flush := none, split := false, pool := [], cursor := 0, steps := [], again := [],
  delivered := 0, genRun := 0, bucket := 0, keyAct := none }

/-- A FAULTED region whose routes hold returns to service (R584). -/
def returned (s : State) (n : Nat) : State :=
  if (s.region n).state = 2 ∧ routesOk s n then s.updRegion n fun r => { r with state := 1 } else s

/-- A region returns to service with all that it holds. -/
theorem returned_region (s : State) (n : Nat) : ∃ state, (returned s n).region n = { s.region n with state := state } := by
  unfold returned
  split
  · exact ⟨1, State.region_updRegion_same _ _ _⟩
  · exact ⟨_, rfl⟩

theorem exec_unload {h : Nat} {o : HOut} (hn : n < 64) (himg : (s.region n).img = some b) (ho : s.cmd? h = some o)
    (hw : o.running = false) (hop : o.opcode = 0x31) (hregion : fieldAt o.cmd 16 1 = n) :
    ∃ u, exec (.unload h) s = .next ((keepRecord (returned (emptied u n) n) n).finish h 0 0 0 0) := by
  subst hregion
  show ∃ u, execUnload h s = _
  rw [execUnload, onCmd_of_waiting ho hw hop]
  simp only [if_pos hn, himg]
  exact ⟨_, rfl⟩

/-- UNLOAD leaves its region empty, during an operation too (R262, R312, R565, log 75). -/
theorem answers_unload {h : Nat} {o : HOut} (hn : n < 64) (himg : (s.region n).img = some b) (ho : s.cmd? h = some o)
    (hw : o.running = false) (hop : o.opcode = 0x31) (hregion : fieldAt o.cmd 16 1 = n) :
    answers (.unload h) s fun t => t.cmd? h = none ∧ (t.region n).img = none ∧ (t.region n).op = none ∧ (t.region n).pool = [] ∧
      (t.region n).steps = [] ∧ (t.region n).keyAct = none := by
  obtain ⟨u, hexec⟩ := exec_unload hn himg ho hw hop hregion
  obtain ⟨state, hstate⟩ := returned_region (emptied u n) n
  refine ⟨_, hexec, cmd?_finish_same _ _ _ _ _ _, ?_⟩
  rw [finish_region, keepRecord_region, hstate, emptied, State.region_updRegion_same]
  exact ⟨rfl, rfl, rfl, rfl, rfl⟩

/-- The state in which an image is bound again, its arrays checked after a cold start (R277, R385). -/
def rebound (u : State) (n : Nat) (b : BoundImage) : State :=
  let v := u.updRegion n fun r => { r with img := some b }
  if b.version = 0 then checkArrays v b else v

theorem rebound_region (u : State) (n : Nat) (b : BoundImage) : ((rebound u n b).region n).img = some b := by
  unfold rebound
  extract_lets v
  have hv : (v.region n).img = some b := by rw [State.region_updRegion_same]
  split
  · rw [State.region, (checked_checkArrays v b).regions]
    exact hv
  · exact hv

theorem rebound_fence (u : State) (n : Nat) (b : BoundImage) (c : Nat) : ((rebound u n b).core c).fence = (u.core c).fence := by
  unfold rebound
  extract_lets v
  split
  · exact (checked_checkArrays v b).fence c
  · rfl

/-- REBIND of a recorded image whose control part comes whole and whose cores are all alive binds it again (R277, R388). -/
theorem answers_rebind {c : Bytes} {u : State} {w : Window} (himg : (s.region n).img = some b) (hunbound : b.bound = false)
    (hidle : (s.region n).op = none) (hboot : s.boot.phase = .complete) (hwindow : Tbl.find (s.region n).windows b.slot = some w)
    (hread : w.read = true) (hsize : b.img.ctlBytes ≤ w.size) (hdigest : sha256 c = b.img.ctlDigest)
    (hbind : bindImage (winAsk s n b.slot 0 b.img.ctlBytes) n b c true = some u)
    (halive : ∀ p ∈ b.placed, ((startCores u b).core p.core).fence = none) :
    answers (.rebind n (some c)) s fun t =>
      ∃ x, (t.region n).img = some x ∧ x.bound = true ∧ x.img = b.img ∧ x.placed = b.placed := by
  have hopen : sourceOpen (s.region n) b = true := by simp [sourceOpen, hwindow, hread, hsize]
  have hruns : ¬ (b.bound = true ∨ (s.region n).op.isSome = true ∨ s.boot.phase ≠ .complete ∨ (!sourceOpen (s.region n) b) = true ∨
      sha256 c ≠ b.img.ctlDigest) := by
    simp [hunbound, hidle, hboot, hopen, hdigest]
  have hexec : exec (.rebind n (some c)) s = .next (reportBound (rebound (startCores u b) n { b with bound := true, ctl := c }) n) := by
    show execRebind n (some c) s = _
    unfold execRebind
    simp only [himg, if_neg hruns, hbind]
    split
    · rfl
    · next v d rest hdead =>
      refine absurd (hdead.symm.trans (List.filterMap_eq_nil_iff.2 fun v _ => ?_)) (List.cons_ne_nil _ _)
      split
      · next p hp =>
        have halive := (rebound_fence (startCores u b) n { b with bound := true, ctl := c } p.core).trans
          (halive p (List.mem_of_getElem? hp))
        exact if_neg (Option.not_isSome_iff_eq_none.2 halive)
      · rfl
  obtain ⟨x, hx, hbound, himage, hplaced⟩ := reportBound_img (rebound_region (startCores u b) n { b with bound := true, ctl := c })
  exact ⟨_, hexec, x, hx, hbound, himage, hplaced⟩

end

/-- Settles O46: a region emptied, during an operation too (log 75), and an image bound again. -/
theorem imagesLeaveAndReturn : Obligations.ImagesLeaveAndReturn := by
  unfold Obligations.ImagesLeaveAndReturn
  intro s n b hn himg
  exact ⟨fun h o ho hw hop hregion => answers_unload hn himg ho hw hop hregion,
    fun c u w hunbound hidle hboot hwindow hread hsize hdigest hbind halive =>
      answers_rebind himg hunbound hidle hboot hwindow hread hsize hdigest hbind halive⟩

end Sys2Proof.Proofs
end

section
/-!
SUPPORT. RELOCATE, RELOCATION and WINDOW, clause by clause (R278 to R282, R434 to R440).
-/
namespace Sys2Proof.Machine

theorem State.updRegion_congr {s : State} {n : Nat} {f g : Region → Region} (hfg : f (s.region n) = g (s.region n)) :
    s.updRegion n f = s.updRegion n g := by rw [State.updRegion, hfg, State.updRegion]

theorem Tbl.set_ne_nil {α : Type} (t : Tbl α) (i : Nat) (x : α) : Tbl.set t i x ≠ [] := by
  cases t with
  | nil => simp [Tbl.set]
  | cons e t =>
    rw [Tbl.set]
    split_ifs <;> simp

end Sys2Proof.Machine

namespace Sys2Proof.Proofs
open Sys2Proof.Machine Sys2Proof.Safety

/-! ## RELOCATE (R278, R434 to R437) -/

/-- An entry of a RELOCATE's list names a core within a rectangle (R434). -/
def entryInside (r : Region) (e : Nat) : Prop :=
  e / 65536 ≤ 127 ∧ e % 65536 ≤ 149 ∧ inRect r.nw r.se (coreKey (e / 65536) (e % 65536)) = true

/-- An entry that a RELOCATE of region n refuses. -/
def entryRefused (n : Nat) (r : Region) (e : Nat) : Bool :=
  !(e / 65536 ≤ 127 && e % 65536 ≤ 149 && n < 64 && r.state ≠ 0 && inRect r.nw r.se (coreKey (e / 65536) (e % 65536)))

theorem entryRefused_of_outside {n : Nat} {r : Region} {e : Nat} (he : ¬ entryInside r e) : entryRefused n r e = true := by
  rw [entryInside] at he
  simp only [entryRefused, Bool.not_eq_true', Bool.eq_false_iff, ne_eq, Bool.and_eq_true, decide_eq_true_eq]
  rintro ⟨⟨⟨⟨hcol, hrow⟩, -⟩, -⟩, hrect⟩
  exact he ⟨hcol, hrow, hrect⟩

theorem entryRefused_of_inside {n : Nat} {r : Region} {e : Nat} (hn : n < 64) (hstate : r.state ≠ 0) (he : entryInside r e) :
    entryRefused n r e = false := by
  obtain ⟨hcol, hrow, hrect⟩ := he
  simp [entryRefused, hcol, hrow, hrect, hn, hstate]

section
variable {s : State} {n h : Nat} {o : HOut} {list : Bytes}

/-- The state in which a RELOCATE has its list. -/
def listRead (s : State) (o : HOut) (list : Bytes) : State :=
  (s.operand o (fieldAt o.cmd 24 8) (4 * fieldAt o.cmd 20 4) (some list)).1

/-- The entries of a RELOCATE's list. -/
def listEntries (o : HOut) (list : Bytes) : List Nat := entries 4 (slice list 0 (4 * fieldAt o.cmd 20 4))

/-- The cores that a RELOCATE's list names, each once, in order. -/
def listCores (o : HOut) (list : Bytes) : List Nat :=
  sortBy id ((listEntries o list).map fun e => coreKey (e / 65536) (e % 65536)).eraseDups

theorem posted_listRead (s : State) (o : HOut) (list : Bytes) : Posted s (listRead s o list) := posted_operand s o _ _ _

section
variable (ho : s.cmd? h = some o) (hw : o.running = false) (hop : o.opcode = 0x33) (hregion : fieldAt o.cmd 16 1 = n)
  (hcount : fieldAt o.cmd 20 4 ≠ 0) (hlimit : fieldAt o.cmd 20 4 ≤ 19200) (hlost : (s.site (cmdSite s o)).lost = false)
  (haddr : fieldAt o.cmd 24 8 % 4 = 0)
include ho hw hop hregion hcount hlimit hlost haddr

/-- The first entry that is refused is what a RELOCATE answers. -/
theorem exec_relocate_refused {i : Nat} (hfirst : firstIdx (entryRefused n (s.region n)) (listEntries o list) = some i) :
    exec (.relocate h (some list)) s = .next ((listRead s o list).finish h 5 1 0 i) := by
  subst hregion
  have hask : s.operand o (fieldAt o.cmd 24 8) (4 * fieldAt o.cmd 20 4) (some list) = (listRead s o list, some list) :=
    Prod.ext rfl (operand_of_open hlost haddr _ _)
  show execRelocate h (some list) s = _
  rw [execRelocate, onCmd_of_waiting ho hw hop]
  simp only [if_neg hcount, if_neg (Nat.not_lt.2 hlimit), hask, Option.isNone_some, Bool.false_eq_true, if_false]
  split
  · next j hj =>
    obtain rfl : i = j := Option.some.inj (hfirst.symm.trans hj)
    rfl
  · next hnone => cases hfirst.symm.trans hnone

/-- A RELOCATE whose entries are all in its region, and which has virtual cores to move, queues them as one trigger (R278). -/
theorem answers_relocate_queues (hn : n < 64) (hinside : ∀ e ∈ listEntries o list, entryInside (s.region n) e)
    (hstate : (s.region n).state = 1) (hdevice : s.setting 0x2010 1 1 = 1)
    (hheld : (listCores o list).filterMap (fun c => holderOf s n c) ≠ []) :
    answers (.relocate h (some list)) s fun t =>
      (t.region n).relocs = ((s.region n).queueReloc ((listCores o list).filterMap (fun c => holderOf s n c), listCores o list, some h)
        (listCores o list)).relocs ∧ ∃ q, t.cmd? h = some q ∧ q.running = true := by
  have hu := posted_listRead s o list
  have hask : s.operand o (fieldAt o.cmd 24 8) (4 * fieldAt o.cmd 20 4) (some list) = (listRead s o list, some list) :=
    Prod.ext rfl (operand_of_open hlost haddr _ _)
  have hfirst : firstIdx (entryRefused n (s.region n)) (listEntries o list) = none :=
    List.findIdx?_eq_none_iff.2 fun e he => entryRefused_of_inside hn (by simp [hstate]) (hinside e he)
  refine ⟨((listRead s o list).setRegion n ((s.region n).queueReloc ((listCores o list).filterMap (fun c => holderOf s n c),
    listCores o list, some h) (listCores o list))).keep h fun x => { x with running := true, since := (listRead s o list).now }, ?_, ?_, ?_⟩
  · subst hregion
    show execRelocate h (some list) s = _
    rw [execRelocate, onCmd_of_waiting ho hw hop]
    simp only [if_neg hcount, if_neg (Nat.not_lt.2 hlimit), hask, Option.isNone_some, Bool.false_eq_true, if_false]
    split
    · next j hj => cases hfirst.symm.trans hj
    · simp only [hu.setting, hu.holderOf, hdevice, hstate, Nat.one_ne_zero, Nat.reduceEqDiff, if_false]
      rw [if_neg]
      · rfl
      · exact mt List.isEmpty_iff.1 hheld
  · exact congrArg Region.relocs (State.region_setRegion_same _ n _)
  · exact ⟨_, (cmd?_keep_same _ h _).trans (congrArg _ ((hu.cmd? h).trans ho)), rfl⟩

/-- A RELOCATE with an entry outside its region is refused whole. -/
theorem answers_relocate_outside (hout : ∃ e ∈ listEntries o list, ¬ entryInside (s.region n) e) :
    answers (.relocate h (some list)) s fun t => t.cmd? h = none ∧ t.regions = s.regions := by
  obtain ⟨e, he, hrefused⟩ := hout
  obtain ⟨i, hi⟩ : ∃ i, firstIdx (entryRefused n (s.region n)) (listEntries o list) = some i := by
    refine Option.isSome_iff_exists.1 ?_
    rw [firstIdx, List.findIdx?_isSome]
    exact List.any_eq_true.2 ⟨e, he, entryRefused_of_outside hrefused⟩
  exact ⟨_, exec_relocate_refused ho hw hop hregion hcount hlimit hlost haddr hi, cmd?_finish_same _ _ _ _ _ _,
    (finish_regions _ _ _ _ _ _).trans (posted_listRead s o list).regions⟩

end

/-- The first entry outside the region is the first that is refused. -/
theorem firstIdx_outside {r : Region} {es : List Nat} {i e : Nat} (hn : n < 64) (hstate : r.state ≠ 0) (he : es[i]? = some e)
    (hout : ¬ entryInside r e) (hbefore : ∀ j < i, ∀ e, es[j]? = some e → entryInside r e) :
    firstIdx (entryRefused n r) es = some i := by
  obtain ⟨hi, rfl⟩ := List.getElem?_eq_some_iff.1 he
  refine List.findIdx?_eq_some_iff_getElem.2 ⟨hi, entryRefused_of_outside hout, fun j hj => ?_⟩
  rw [entryRefused_of_inside hn hstate (hbefore j hj _ (List.getElem?_eq_getElem _))]
  exact Bool.false_ne_true

end

/-! ## RELOCATION (R279, R281) -/

/-- The work of a relocation with a tile to move has a shard to verify. -/
theorem allVerified_relocOp {s : State} {b : BoundImage} {h : Option Nat} {vs : List Nat} {l : List Placed} {control : Bytes}
    {recs : List (Nat × TileEnt × Bytes)} (hrecs : recs ≠ []) (r : Region) : allVerified r (relocOp s b h vs l control recs) = false := by
  rw [allVerified_relocate rfl]
  have hopen : ∀ i, ((relocOp s b h vs l control recs).shard i).verified = false := by
    refine List.foldlRecOn (motive := fun t : Tbl ShardSt => ∀ i, (Tbl.get t ShardSt.reset i).verified = false) recs _ (fun _ => rfl) ?_
    exact fun t ht x _ i => Tbl.get_set_cases (P := fun x : ShardSt => x.verified = false) (ht i) (ht x.2.1.shard)
  have hsome : (relocOp s b h vs l control recs).shards ≠ [] := by
    rcases List.eq_nil_or_concat recs with hnil | ⟨rest, x, rfl⟩
    · exact absurd hnil hrecs
    · rw [relocOp, List.concat_eq_append, List.foldl_append]
      exact Tbl.set_ne_nil _ _ _
  obtain ⟨e, he⟩ := List.exists_mem_of_ne_nil _ hsome
  exact List.all_eq_false.2 ⟨e.1, List.mem_map_of_mem he, by simp [hopen]⟩

/-- The state in which a relocation has asked for the control part and the shards of the tiles that it moves. -/
def relocAsked (s : State) (n : Nat) (b : BoundImage) (vs : List Nat) (relaxed : Nat) : State :=
  (b.img.shards.filter fun x => ((b.img.tiles.filter fun t => vs.contains t.vcore && !t.host).map (·.shard)).contains x.shard).foldl
    (fun v x => winAsk v n b.slot x.source (shardSpan v x)) (winAsk (s.countSpread relaxed) n b.slot 0 b.img.ctlBytes)

theorem posted_relocAsked (s : State) (n : Nat) (b : BoundImage) (vs : List Nat) (relaxed : Nat) :
    Posted (s.countSpread relaxed) (relocAsked s n b vs relaxed) :=
  (posted_winAsk _ n b.slot 0 b.img.ctlBytes).trans (Posted.foldl (fun _ _ => posted_winAsk _ _ _ _ _) _ _)

/-- What a relocation that begins holds once it waits: its virtual cores, their new places and its handle. -/
theorem relocation_waits {s v : State} {n relaxed : Nat} {b : BoundImage} {h : Option Nat} {vs : List Nat} {l : List Placed} {ctl : Bytes}
    {recs : List (Nat × TileEnt × Bytes)} (himg : (s.region n).img = some b)
    (hv : Posted (s.countSpread relaxed) v) (hrecs : recs ≠ [])
    (hplaced : ∀ x ∈ vs, x ∉ misplaced s { b with placed := l }) :
    ∃ x, ((advance (setOp v n (relocOp v b h vs l ctl recs)) n).region n).op = some x ∧ x.phase = .relocate ∧ x.moved = vs ∧
      x.spots = l ∧ x.handle = h := by
  have hregion : (setOp v n (relocOp v b h vs l ctl recs)).region n = { s.region n with op := some (relocOp v b h vs l ctl recs) } := by
    rw [setOp_region, hv.region]
    rfl
  have hcore (c : Nat) : (setOp v n (relocOp v b h vs l ctl recs)).core c = s.core c := hv.core c
  have hstay : ∀ x ∈ vs, x ∉ misplaced (setOp v n (relocOp v b h vs l ctl recs)) { b with placed := l } := fun x hx hm =>
    hplaced x hx (mem_misplaced_of hv.factory (fun c => congrArg Core.fence (hcore c)) (fun c a hin => (hcore c).symm ▸ hin) hm)
  obtain ⟨busy, touched, hend⟩ := (begun_advance_relocate (o := relocOp v b h vs l ctl recs) (by rw [hregion, himg]) (by rw [hregion]) rfl
    hstay (allVerified_relocOp hrecs _)).op _ (by rw [hregion])
  exact ⟨_, by rw [hend], rfl, rfl, rfl, rfl⟩

section
variable {s : State} {n : Nat} {b : BoundImage} {all olds : List Nat} {h : Option Nat} {rest : List (List Nat × List Nat × Option Nat)}
  {c : Option Bytes} {tiles : List (Option Bytes)}
  (hrelocs : (s.region n).relocs = (all, olds, h) :: rest) (himg : (s.region n).img = some b) (hstate : (s.region n).state = 1)
  (hop : (s.region n).op = none) (hbound : b.bound = true) (hflush : (s.region n).flush = none) (hsteps : (s.region n).steps = [])
include hrelocs himg hstate hop hbound hflush hsteps

/-- A relocation that one before it has done is over (log 175). -/
theorem exec_relocation_done (hnone : stillToMove s b all olds = []) : exec (.relocation n c tiles) s =
    .next (tryRelease (finishOp (s.updRegion n fun r => { r with relocs := rest }) h 0 0 0) n) := by
  have hdrop : s.updRegion n (fun r => { r with relocs := r.relocs.drop 1 }) = s.updRegion n fun r => { r with relocs := rest } :=
    State.updRegion_congr (by rw [hrelocs]; rfl)
  show execRelocation n c tiles s = _
  unfold execRelocation
  simp only [hrelocs, himg, hflush, hsteps]
  rw [if_neg (by simp [hstate, hop, hbound])]
  simp only [hnone, List.isEmpty_nil, if_true, hdrop]

/-- A relocation that finds no places fails. -/
theorem exec_relocation_noPlace {relaxed : Nat} (hsome : stillToMove s b all olds ≠ [])
    (hplace : relocPlaces s n b (stillToMove s b all olds) olds h.isSome = (none, relaxed)) :
    exec (.relocation n c tiles) s = .next (relocFail (s.countSpread relaxed) n) := by
  show execRelocation n c tiles s = _
  unfold execRelocation
  simp only [hrelocs, himg, hflush, hsteps]
  rw [if_neg (by simp [hstate, hop, hbound]), if_neg (by simp [hsome])]
  simp only [hplace]

/-- A relocation that has its places, its control part and its records begins to program. -/
theorem exec_relocation_begins {l : List Placed} {relaxed : Nat} {recs : List (Nat × TileEnt × Bytes)} {ctl : Bytes}
    (hsome : stillToMove s b all olds ≠ [])
    (hplace : relocPlaces s n b (stillToMove s b all olds) olds h.isSome = (some l, relaxed))
    (hopen : sourceOpen (s.region n) b = true) (hdigest : sha256 ctl = b.img.ctlDigest)
    (hrecs : relocRecords (relocAsked s n b (stillToMove s b all olds) relaxed) b (stillToMove s b all olds) tiles = .ok recs) :
    exec (.relocation n (some ctl) tiles) s = .next (advance (setOp (relocAsked s n b (stillToMove s b all olds) relaxed) n
      (relocOp (relocAsked s n b (stillToMove s b all olds) relaxed) b h (stillToMove s b all olds) l ctl recs)) n) := by
  rw [relocAsked] at hrecs ⊢
  show execRelocation n (some ctl) tiles s = _
  unfold execRelocation
  simp only [hrelocs, himg, hflush, hsteps]
  rw [if_neg (by simp [hstate, hop, hbound]), if_neg (by simp [hsome])]
  simp only [hplace, hopen, hdigest, decide_true, Bool.and_self, if_true, hrecs, Option.getD_some]

end

/-! ## WINDOW (R438, R439) -/

section
variable {s : State} {n h : Nat} {o : HOut}

/-- The state in which a WINDOW's slot is granted, replaced or withdrawn. -/
def windowed (s : State) (o : HOut) : State := s.updRegion (fieldAt o.cmd 16 1) fun r => { r with
  windows := if fieldAt o.cmd 32 8 = 0 then Tbl.del r.windows (fieldAt o.cmd 17 1) else Tbl.set r.windows (fieldAt o.cmd 17 1)
    { base := fieldAt o.cmd 24 8, size := fieldAt o.cmd 32 8, sites := fieldAt o.cmd 19 1, write := bitAt (fieldAt o.cmd 18 1) 1,
      read := bitAt (fieldAt o.cmd 18 1) 0 } }

/-- A WINDOW's record can stand: pages, an access, and sites that are up (R438). -/
def windowFits (s : State) (o : HOut) : Prop :=
  fieldAt o.cmd 24 8 % 4096 = 0 ∧ fieldAt o.cmd 32 8 % 4096 = 0 ∧ fieldAt o.cmd 32 8 ≤ 2 ^ 40 - 4096 ∧ 1 ≤ fieldAt o.cmd 18 1 ∧
  fieldAt o.cmd 18 1 ≤ 3 ∧ 1 ≤ fieldAt o.cmd 19 1 ∧ fieldAt o.cmd 19 1 < 16 ∧
  ∀ i < 4, bitAt (fieldAt o.cmd 19 1) i = true → (s.site i).up = true

section
variable (ho : s.cmd? h = some o) (hw : o.running = false) (hop : o.opcode = 0x34) (hn : fieldAt o.cmd 16 1 < 64)
  (hslot : fieldAt o.cmd 17 1 < 16) (hfits : fieldAt o.cmd 32 8 = 0 ∨ windowFits s o)
include ho hw hop hn hslot hfits

/-- A WINDOW's slot changes at once, and its COMPLETE waits for the class 1 requests under the old record (R438, R439). -/
theorem exec_window : exec (.window h) s = .next
    (if slotReads s (fieldAt o.cmd 16 1) (fieldAt o.cmd 17 1) = [] then (windowed s o).finish h 0 0 0 0
      else (windowed s o).keep h fun x => { x with running := true, tags := slotReads s (fieldAt o.cmd 16 1) (fieldAt o.cmd 17 1) }) := by
  show execWindow h s = _
  rw [execWindow, onCmd_of_waiting ho hw hop]
  dsimp only
  rw [if_neg]
  · simp only [List.isEmpty_iff]
    rfl
  · rintro (hbig | hbig | ⟨hsize, hbad⟩)
    · omega
    · omega
    · obtain ⟨hbase, hpages, htop, hlow, hhigh, hsome, hfew, hup⟩ := hfits.resolve_left hsize
      have hsites : ((List.range 4).all fun i => !bitAt (fieldAt o.cmd 19 1) i || (s.site i).up) = true :=
        List.all_eq_true.2 fun i hi => by simpa [imp_iff_not_or] using hup i (List.mem_range.1 hi)
      simp only [hbase, hpages, htop, hlow, hhigh, hfew, ne_eq, Nat.ne_of_gt hsome, hsites, not_false_eq_true, decide_true, Bool.and_self,
        Bool.not_true, Bool.false_eq_true] at hbad

/-- A WINDOW with class 1 requests under its old record waits for them (R439). -/
theorem answers_window_waits (hreads : slotReads s (fieldAt o.cmd 16 1) (fieldAt o.cmd 17 1) ≠ []) : answers (.window h) s fun t =>
    ∃ x, t.cmd? h = some x ∧ x.running = true ∧ x.tags = slotReads s (fieldAt o.cmd 16 1) (fieldAt o.cmd 17 1) := by
  refine ⟨_, exec_window ho hw hop hn hslot hfits, ?_⟩
  rw [if_neg hreads]
  exact ⟨_, (cmd?_keep_same _ h _).trans (congrArg _ (show (windowed s o).cmd? h = some o from ho)), rfl, rfl⟩

/-- A WINDOW that nothing holds up is complete at once. -/
theorem answers_window_completes (hfree : slotReads s (fieldAt o.cmd 16 1) (fieldAt o.cmd 17 1) = []) : answers (.window h) s fun t =>
    t.cmd? h = none ∧ t.region (fieldAt o.cmd 16 1) = (windowed s o).region (fieldAt o.cmd 16 1) := by
  refine ⟨_, exec_window ho hw hop hn hslot hfits, ?_⟩
  rw [if_pos hfree]
  exact ⟨cmd?_finish_same _ _ _ _ _ _, finish_region _ _ _ _ _ _ _⟩

end

theorem windowed_set (hsize : fieldAt o.cmd 32 8 ≠ 0) : Tbl.find ((windowed s o).region (fieldAt o.cmd 16 1)).windows (fieldAt o.cmd 17 1) =
    some { base := fieldAt o.cmd 24 8, size := fieldAt o.cmd 32 8, sites := fieldAt o.cmd 19 1, write := bitAt (fieldAt o.cmd 18 1) 1,
           read := bitAt (fieldAt o.cmd 18 1) 0 } := by
  rw [windowed, State.region_updRegion_same, if_neg hsize]
  exact Tbl.find_set_same _ _ _

theorem windowed_withdrawn (hsize : fieldAt o.cmd 32 8 = 0) (hwf : Tbl.wf (s.region (fieldAt o.cmd 16 1)).windows) :
    Tbl.find ((windowed s o).region (fieldAt o.cmd 16 1)).windows (fieldAt o.cmd 17 1) = none := by
  rw [windowed, State.region_updRegion_same, if_pos hsize]
  exact Tbl.find_del_same hwf _

end

/-- Settles O48: RELOCATE's list, the first trigger of the queue, which completes when nothing is left to move (log 175), and the window
slots, each by the lemma of its clause. -/
theorem coresMove : Obligations.CoresMove := by
  unfold Obligations.CoresMove
  intro s n hn
  refine ⟨?relocate, ?relocation, ?window⟩
  case relocate =>
    intro h o list ho hw hop hregion count es cs inside hcount hlimit hlost haddr
    exact ⟨answers_relocate_queues ho hw hop hregion hcount hlimit hlost haddr hn,
      fun i e hstate he hout hbefore => exec_relocate_refused ho hw hop hregion hcount hlimit hlost haddr
        (firstIdx_outside hn hstate he hout hbefore),
      answers_relocate_outside ho hw hop hregion hcount hlimit hlost haddr⟩
  case relocation =>
    intro olds all h rest b c tiles hrelocs himg hstate hop hbound hflush hsteps vs
    refine ⟨exec_relocation_done hrelocs himg hstate hop hbound hflush hsteps,
      fun relaxed => exec_relocation_noPlace hrelocs himg hstate hop hbound hflush hsteps, ?begins⟩
    intro l relaxed recs ctl hsome hplace hopen hc hdigest moved v hrecs
    subst hc
    have hexec := exec_relocation_begins hrelocs himg hstate hop hbound hflush hsteps hsome hplace hopen hdigest hrecs
    exact ⟨hexec, fun hrec hplaced => ⟨_, hexec, relocation_waits himg (posted_relocAsked s n b vs relaxed) hrec hplaced⟩⟩
  case window =>
    intro h o ho hw hop hregion hslot f
    subst hregion
    refine ⟨fun hreads hsize => answers_window_waits ho hw hop hn hslot (.inl hsize) hreads,
      fun hfree hsize hbase hpages htop hlow hhigh hsome hfew hup => ?granted, fun hfree hsize hwf => ?withdrawn⟩
    case granted =>
      obtain ⟨t, hexec, hcmd, hwindow⟩ := answers_window_completes ho hw hop hn hslot
        (.inr ⟨hbase, hpages, htop, hlow, hhigh, hsome, hfew, hup⟩) hfree
      exact ⟨t, hexec, hcmd, by rw [hwindow]; exact windowed_set hsize⟩
    case withdrawn =>
      obtain ⟨t, hexec, hcmd, hwindow⟩ := answers_window_completes ho hw hop hn hslot (.inl hsize) hfree
      exact ⟨t, hexec, hcmd, by rw [hwindow]; exact windowed_withdrawn hsize hwf⟩

end Sys2Proof.Proofs
end

section
/-!
SUPPORT. What blocks of a pool and contexts read as after a change of them, and the slots that cores compact (R295 to R312, R341).
-/
namespace Sys2Proof.Machine

/-! ## Blocks of a pool -/

theorem Region.blk_setBlk_same (r : Region) (b : Nat) {x : Blk} (hx : x ≠ Blk.reset) : (r.setBlk b x).blk b = x := by
  rw [Region.blk, Region.setBlk, if_neg hx, Tbl.get_set_same]

theorem Region.blk_setBlk_ne (r : Region) {b i : Nat} (x : Blk) (hi : i ≠ b) : (r.setBlk b x).blk i = r.blk i := by
  unfold Region.blk Region.setBlk
  dsimp only
  split
  · rw [Tbl.get, Tbl.find_del_ne _ hi, Tbl.get]
  · exact Tbl.get_set_ne _ _ _ hi

theorem State.region_updRegion_ne (s : State) {n m : Nat} (f : Region → Region) (hm : m ≠ n) :
    (s.updRegion n f).region m = s.region m :=
  State.region_setRegion_ne s _ hm

/-! ## Contexts -/

theorem State.ctx?_setCtx_same (s : State) (c : Nat) (x : Ctx) : (s.setCtx c x).ctx? c = some x := Tbl.find_set_same _ _ _

theorem State.updCtx_of_some {s : State} {c : Nat} {x : Ctx} (hx : s.ctx? c = some x) (f : Ctx → Ctx) :
    s.updCtx c f = s.setCtx c (f x) := by
  rw [State.updCtx, hx]

theorem State.updCtx_of_none {s : State} {c : Nat} (hx : s.ctx? c = none) (f : Ctx → Ctx) : s.updCtx c f = s := by
  rw [State.updCtx, hx]

theorem updCtx_cores (s : State) (c : Nat) (f : Ctx → Ctx) : (s.updCtx c f).cores = s.cores := by
  unfold State.updCtx
  split <;> rfl

theorem updCtx_region (s : State) (c : Nat) (f : Ctx → Ctx) (n : Nat) : (s.updCtx c f).region n = s.region n := by
  rw [State.region, updCtx_regions, State.region]

/-! ## The index of prefixes (R305, R306) -/

/-- The entry that makes room names a PUBLISHED block. -/
theorem idleEntry_published {s : State} {e : PfxEnt} (he : idleEntry s = some e) :
    ((s.region e.region).blk e.block).state = .published := by
  have hmem : ∀ e, idleEntry s = some e → e ∈ s.serving.index.filter fun e =>
      ((s.region e.region).blk e.block).state = .published && ((s.region e.region).blk e.block).count = 0 := by
    refine List.foldlRecOn (motive := fun b : Option PfxEnt => ∀ e, b = some e → e ∈ _) _ _ (fun e he => by cases he) ?_
    intro b hb x hx e he
    split at he
    · cases he; exact hx
    · split at he
      · cases he; exact hx
      · exact hb e he
  have hidle := (List.mem_filter.1 (hmem e he)).2
  simp only [Bool.and_eq_true, decide_eq_true_eq] at hidle
  exact hidle.1

/-- Room for an entry comes from a PUBLISHED block: every other block stays as it was. -/
theorem indexRoom_blk {s t : State} (ht : indexRoom s = some t) {n b : Nat} (hb : ((s.region n).blk b).state ≠ .published) :
    (t.region n).blk b = (s.region n).blk b ∧ t.cores = s.cores := by
  unfold indexRoom at ht
  split at ht
  · cases ht; exact ⟨rfl, rfl⟩
  · obtain ⟨e, he, rfl⟩ := Option.map_eq_some_iff.1 ht
    have hpublished := idleEntry_published he
    refine ⟨?_, rfl⟩
    by_cases hn : n = e.region
    · subst hn
      have hne : b ≠ e.block := fun h => hb (h ▸ hpublished)
      rw [State.region_updRegion_same]
      exact Region.blk_setBlk_ne _ _ hne
    · rw [State.region_updRegion_ne _ _ hn]
      rfl

/-- A closed block is published as it is, or stays CLOSED (R301). -/
theorem publish_blk {s : State} {n b : Nat} {y : Blk} (hy : (s.region n).blk b = y) (hclosed : y.state = .closed) (x : Ctx) (h : Bytes) :
    (((publish s n x b h).region n).blk b = y ∨ ((publish s n x b h).region n).blk b = { y with state := .published }) ∧
      (publish s n x b h).cores = s.cores := by
  unfold publish
  extract_lets ses kept
  split
  · exact ⟨.inl hy, rfl⟩
  · split
    · exact ⟨.inl hy, rfl⟩
    next t ht =>
      obtain ⟨hblk, hcores⟩ := indexRoom_blk ht (n := n) (b := b) (by rw [hy, hclosed]; decide)
      refine ⟨.inr ?_, hcores⟩
      rw [State.region_updRegion_same, Region.blk_setBlk_same _ _ (by rintro h; cases congrArg Blk.state h)]
      rw [← hy, ← hblk]
      rfl

/-! ## Slots that are compacted (R296) -/

theorem Core.putBytes_packed (k : Core) (a : Nat) (b : Bytes) : (k.putBytes a b).packed = k.packed := rfl

/-- A slot that is compacted joins those of its core that are. -/
theorem Core.compact_packed (k : Core) (slot : Nat) : (k.compact slot).packed = k.packed ++ [slot] := by
  unfold Core.compact
  extract_lets u half
  split
  split
  rw [Core.count_packed]
  dsimp only
  rw [Core.putBytes_packed, Core.putBytes_packed, Core.putBytes_packed]

theorem startClock_packed (s : State) (c : Nat) : ((s.startClock c).core c).packed = (s.core c).packed := by
  rcases startClock_core s c with h | h | h
  · rw [h, Core.freeze]
    split <;> rfl
  · rw [h]
    rfl
  · rw [h]

/-- A core whose clock runs, or can start, compacts a slot; no other core changes. -/
theorem compactNow_core {s : State} {c : Nat} (hclock : (s.core c).clockOn = true ∨
    (s.thermal.state ≠ 1 ∧ ((s.preg (powerOf c)).state = .run ∨ (s.preg (powerOf c)).state = .nap))) (slot : Nat) :
    ((compactNow s c slot).core c).packed = (s.core c).packed ++ [slot] ∧ ∀ d, d ≠ c → (compactNow s c slot).core d = s.core d := by
  obtain ⟨t, ht, hon, hpacked, hat⟩ : ∃ t, t = (if (s.core c).clockOn then s else s.startClock c) ∧ (t.core c).clockOn = true ∧
      (t.core c).packed = (s.core c).packed ∧ AtCore c s t := by
    refine ⟨_, rfl, ?_⟩
    split
    next hwas => exact ⟨hwas, rfl, .refl c s⟩
    next hwas =>
      obtain ⟨hthermal, hregion⟩ := hclock.resolve_left hwas
      exact ⟨startClock_clockOn hthermal hregion, startClock_packed s c, atCore_startClock s c⟩
  have hcompact : ((t.updCore c fun k => k.compact slot).core c).packed = (s.core c).packed ++ [slot] := by
    rw [State.updCore, State.core_setCore_same, Core.compact_packed, hpacked]
  have hrest : AtCore c s (t.updCore c fun k => k.compact slot) := hat.trans (atCore_setCore t c _)
  unfold compactNow
  extract_lets was t' u
  have ht' : t' = t := ht.symm
  subst ht'
  rw [if_neg (by simp [hon])]
  split
  · exact ⟨hcompact, hrest.core⟩
  · refine ⟨by rw [stopClock_core]; exact hcompact, fun d hd => ?_⟩
    rw [State.stopClock, (atCore_napIfIdle c _ _).core d hd, State.updCore, (atCore_setCore _ c _).core d hd]
    exact hrest.core d hd

end Sys2Proof.Machine
end

section
/-!
SUPPORT. Blocks that close, are compacted and leave the index, and the windows of the gate, clause by clause (R296, R301, R312, R519).
-/
namespace Sys2Proof.Proofs
open Sys2Proof.Machine Sys2Proof.Safety

/-! ## Closing (R301) -/

/-- The chain hash under which block k of a context closes (R301). -/
def blockHash (x : Ctx) (k : Nat) : Bytes := ((chain (x.pinned.getD 0) (k + 1) x.toks).getLast?).getD []

/-- The state in which block k of a context has closed and is not published yet. -/
def blockKept (s : State) (c k : Nat) (x : Ctx) (cb : CtxBlk) : State :=
  (s.updRegion x.d.region fun r =>
    r.setBlk cb.blk { (s.region x.d.region).blk cb.blk with state := .closed, hash := blockHash x k }).updCtx c fun x =>
      { x with blocks := x.blocks.set k { cb with openB := false } }

theorem blockKept_blk (s : State) (c k : Nat) (x : Ctx) (cb : CtxBlk) : ((blockKept s c k x cb).region x.d.region).blk cb.blk =
    { (s.region x.d.region).blk cb.blk with state := .closed, hash := blockHash x k } := by
  rw [blockKept, updCtx_region, State.region_updRegion_same, Region.blk_setBlk_same _ _ (by rintro h; cases congrArg Blk.state h)]

/-- A block written to its end closes under its chain hash, with the count that it had. -/
theorem answers_blockClose {s : State} {c k : Nat} {x : Ctx} {cb : CtxBlk} (hx : s.ctx? c = some x) (hcb : x.blocks[k]? = some cb)
    (hframe : cb.frame = none) (hopen : ((s.region x.d.region).blk cb.blk).state = .openB)
    (hwritten : blockWritten s x.d.region c k x = true) :
    answers (.blockClose c k) s fun t => let y := (t.region x.d.region).blk cb.blk
      (y.state = .closed ∨ y.state = .published) ∧ y.count = ((s.region x.d.region).blk cb.blk).count ∧
      y.hash = blockHash x k ∧ t.cores = s.cores := by
  refine ⟨publish (blockKept s c k x cb) x.d.region x cb.blk (blockHash x k), ?_, ?_⟩
  · show execBlockClose c k s = _
    simp only [execBlockClose, hx, hcb]
    exact if_neg (by simp [hframe, hopen, hwritten])
  · obtain ⟨hblk, hcores⟩ := publish_blk (blockKept_blk s c k x cb) rfl x (blockHash x k)
    have hcores : (publish (blockKept s c k x cb) x.d.region x cb.blk (blockHash x k)).cores = s.cores := hcores.trans (updCtx_cores _ _ _)
    rcases hblk with hy | hy
    · exact hy ▸ ⟨.inl rfl, rfl, rfl, hcores⟩
    · exact hy ▸ ⟨.inr rfl, rfl, rfl, hcores⟩

/-! ## Compaction (R296) -/

/-- A core of the pair compacts a closed block. -/
theorem answers_int4Compaction {s : State} {core slot v m : Nat} {im : BoundImage} {e : CoreEnt} (howner : ownerOf s core = some m)
    (himg : (s.region m).img = some im) (hv : vcoreAt s m core = some v) (he : im.img.cores[v]? = some e) (hpair : e.pair?.isSome)
    (hint4 : int4On s m = true) (heven : slot % 2 = 0) (hslot : slot < 256)
    (hclosed : ((s.region m).blk (slot * im.img.pairSize + im.img.pairIndex v)).state = .closed)
    (hnew : (s.core core).packed.contains slot = false) (husable : usable s core = true)
    (hclock : (s.core core).clockOn = true ∨
      (s.thermal.state ≠ 1 ∧ ((s.preg (powerOf core)).state = .run ∨ (s.preg (powerOf core)).state = .nap))) :
    answers (.int4Compaction core slot) s fun t =>
      (t.core core).packed = (s.core core).packed ++ [slot] ∧ ∀ d, d ≠ core → t.core d = s.core d := by
  refine ⟨compactNow s core slot, ?_, compactNow_core hclock slot⟩
  show execInt4Compaction core slot s = _
  simp only [execInt4Compaction, howner, himg, hv, he]
  exact if_pos ⟨hpair, hint4, heven, hslot, .inl hclosed, by rw [hnew]; rfl, husable⟩

/-! ## The index of a region (R312) -/

/-- A flush leaves no entry of its region. -/
theorem answers_flushPrefix {s : State} {m : Nat} (hopen : entryShut s 0x6200 = false) (hm : m < 64) (w : Writer) :
    answers (.flushPrefix w m) s fun t => (∀ e ∈ t.serving.index, e.region ≠ m) ∧ t.serving.ctxs = s.serving.ctxs := by
  refine ⟨odBump (dropIndex s m) 0x6200 5, ?_, fun e he => ?_, rfl⟩
  · show execFlushPrefix w m s = _
    rw [execFlushPrefix, flushPrefixOp, if_pos hm, applied, if_neg (by simp [hopen])]
  · exact of_decide_eq_true (List.mem_filter.1 he).2

/-! ## The gate (R519) -/

/-- A window of 100 µs begins for each region, whose slots are then open in the part that its level gives. -/
theorem answers_gateWindow (s : State) : answers .gateWindow s fun t => ∀ m r, Tbl.find s.regions m = some r →
    (t.region m).gateFrom = s.almanac.toNat / 100000 * 100000 ∧ (gateOpen t m = true ↔ s.thermal.state = 0 ∧
      (gateLevel s r = 0 ∨ s.almanac.toNat % 100000 < (16 - gateLevel s r) * 6250)) := by
  refine ⟨_, rfl, fun m r hr => ?_⟩
  generalize ht : ({ s with regions := _ } : State) = t
  have hregion : t.region m = { r with gateFrom := s.almanac.toNat / 100000 * 100000 } := by
    rw [← ht, State.region, Tbl.get, Tbl.find_map, hr]
    rfl
  have hlevel : gateLevel t (t.region m) = gateLevel s r := by
    rw [hregion, ← ht]
    rfl
  refine ⟨by rw [hregion], ?_⟩
  have hopen : gateOpen t m = true ↔ t.thermal.state = 0 ∧
      (gateLevel s r = 0 ∨ t.almanac.toNat < s.almanac.toNat / 100000 * 100000 + (16 - gateLevel s r) * 6250) := by
    simp only [gateOpen, hlevel, Bool.and_eq_true, Bool.or_eq_true, decide_eq_true_eq]
    rw [hregion]
  rw [hopen, ← ht]
  have hdiv := Nat.div_add_mod' s.almanac.toNat 100000
  exact and_congr_right fun _ => or_congr_right (by dsimp only; omega)

end Sys2Proof.Proofs
end

section
/-!
SUPPORT. What the end of a request leaves of the state (R341, R367 to R369), and what a frame that returns does (R298, R311).
-/
namespace Sys2Proof.Machine

/-! ## The end of a request -/

/-- A state after requests have ended: only the host interface, the regions, the serving controller, the observation unit and the messages
differ, and every handle is as it was. -/
structure RequestSide (s t : State) : Prop where
  rest : t = { s with host := t.host, regions := t.regions, serving := t.serving, observe := t.observe, out := t.out }
  handles : t.host.handles = s.host.handles

section
variable {s t u : State}

theorem RequestSide.refl (s : State) : RequestSide s s := ⟨rfl, rfl⟩

theorem RequestSide.trans (h : RequestSide s t) (h' : RequestSide t u) : RequestSide s u where
  rest := by
    calc u = { t with host := u.host, regions := u.regions, serving := u.serving, observe := u.observe, out := u.out } := h'.rest
      _ = { s with host := u.host, regions := u.regions, serving := u.serving, observe := u.observe, out := u.out } := by rw [h.rest]
  handles := h'.handles.trans h.handles

theorem RequestSide.foldl {α : Type} {f : State → α → State} (hf : ∀ s x, RequestSide s (f s x)) (l : List α) (s : State) :
    RequestSide s (l.foldl f s) :=
  List.foldlRecOn (motive := RequestSide s) l f (.refl s) fun t ht x _ => ht.trans (hf t x)

theorem Posted.requestSide (h : Posted s t) : RequestSide s t := ⟨by rw [h.rest], h.handles⟩

theorem RequestSide.boot (h : RequestSide s t) : t.boot = s.boot := by rw [h.rest]
theorem RequestSide.cmd? (h : RequestSide s t) (i : Nat) : t.cmd? i = s.cmd? i := by simp only [State.cmd?, State.hdl, h.handles]

end

theorem requestSide_updRegion (s : State) (n : Nat) (f : Region → Region) : RequestSide s (s.updRegion n f) := ⟨rfl, rfl⟩

theorem posted_orderRecord (s : State) (r : Nat) (b : Bytes) (kept : Nat) : Posted s (s.orderRecord r b kept) := by
  unfold State.orderRecord
  split
  · exact .refl s
  · split
    · exact posted_putRecord s r b
    · exact posted_setRing s r _

/-- The release of blocks and of steps to be delivered again changes regions alone. -/
theorem releaseBlocks_rest (s : State) (n : Nat) (bs : List CtxBlk) :
    releaseBlocks s n bs = { s with regions := (releaseBlocks s n bs).regions } := by
  refine List.foldlRecOn (motive := fun t : State => t = { s with regions := t.regions }) _ _ rfl fun t ht cb _ => ?_
  split
  · exact ht
  · rw [ht]
    rfl

/-- A live request ends in a state that differs by records, statistics, its blocks and its watches, in which its context is either freed or
kept ENDED for the steps in flight. -/
theorem endReq_ends {s : State} {c : Nat} {x : Ctx} (hx : s.ctx? c = some x) (hlive : x.state ≠ .ended) (htune : x.tune = none)
    (status detail : Nat) : ∃ v, RequestSide s v ∧ v.serving = s.serving ∧
      endReq s c status detail = if inFlight v x.d.region c then v.setCtx c { x with state := .ended, blocks := [] } else v.delCtx c := by
  unfold endReq
  rw [hx]
  dsimp -zeta only
  rw [if_neg (by simp [hlive, htune])]
  extract_lets +onlyGivenNames _ term counted _ _ told recorded released dropped _ ended
  have htold : Posted s told := by
    unfold told
    split
    · exact .refl s
    · split
      · exact (posted_hostWrite s _ _ _).trans (posted_hostWrite counted _ _ _)
      · exact posted_hostWrite s _ _ _
  have hrecorded : Posted s recorded := by
    unfold recorded
    split
    · split
      · exact htold
      · exact htold.trans ((posted_orderRecord told _ _ _).trans (posted_ringIrq _ _))
    · exact htold
  have hreleased : RequestSide recorded released ∧ released.serving = recorded.serving := by
    unfold released
    rw [releaseBlocks_rest]
    exact ⟨⟨rfl, rfl⟩, rfl⟩
  have hended : RequestSide released ended := ⟨rfl, rfl⟩
  exact ⟨ended, hrecorded.requestSide.trans (hreleased.1.trans hended), hreleased.2.trans (by rw [hrecorded.rest]), rfl⟩

theorem requestSide_endReq (s : State) (c status detail : Nat) : RequestSide s (endReq s c status detail) := by
  cases hx : s.ctx? c with
  | none =>
    rw [endReq, hx]
    exact .refl s
  | some x =>
    by_cases hlive : x.state ≠ .ended ∧ x.tune = none
    · obtain ⟨v, hv, -, he⟩ := endReq_ends hx hlive.1 hlive.2 status detail
      rw [he]
      split
      · exact hv.trans ⟨rfl, rfl⟩
      · exact hv.trans ⟨rfl, rfl⟩
    · have hover : x.state = .ended ∨ x.tune.isSome := by
        rw [Option.isSome_iff_ne_none]
        exact (not_and_or.1 hlive).imp_left not_not.1
      simp only [endReq, hx]
      rw [if_pos hover]
      exact .refl s

/-- A live request that is ended is there no more, or only as ENDED. -/
theorem endReq_state {s : State} {c : Nat} {x : Ctx} (hx : s.ctx? c = some x) (hlive : x.state ≠ .ended) (htune : x.tune = none)
    (hwf : Tbl.wf s.serving.ctxs) (status detail : Nat) {y : Ctx} (hy : (endReq s c status detail).ctx? c = some y) : y.state = .ended := by
  obtain ⟨v, -, hserving, he⟩ := endReq_ends hx hlive htune status detail
  rw [he] at hy
  split at hy
  · rw [State.ctx?_setCtx_same] at hy
    cases hy
    rfl
  · have hgone : (v.delCtx c).ctx? c = none := Tbl.find_del_same (by rw [hserving]; exact hwf) c
    rw [hgone] at hy
    cases hy

/-! ## Frames -/

/-- A state in which only cores differ. -/
structure CoresOnly (s t : State) : Prop where
  rest : t = { s with cores := t.cores }

theorem CoresOnly.refl (s : State) : CoresOnly s s := ⟨rfl⟩
theorem CoresOnly.trans {s t u : State} (h : CoresOnly s t) (h' : CoresOnly t u) : CoresOnly s u where
  rest := by
    calc u = { t with cores := u.cores } := h'.rest
      _ = { s with cores := u.cores } := by rw [h.rest]

/-- A slot that is allocated anew is unpacked in its cores alone. -/
theorem coresOnly_unpack (s : State) (im : BoundImage) (nc b : Nat) : CoresOnly s (unpack s im nc b) := by
  refine List.foldlRecOn (motive := CoresOnly s) _ _ (.refl s) fun t ht v _ => ht.trans ?_
  split
  · split
    · exact .refl t
    · exact ⟨rfl⟩
  · exact .refl t

/-- A frame goes into its cores alone. -/
theorem coresOnly_putFrameBytes (s : State) (n : Nat) (im : BoundImage) (b : Nat) (opn : Bool) (frame : Bytes) :
    CoresOnly s (putFrameBytes s n im b opn frame) := by
  refine List.foldlRecOn (motive := fun acc : State × Bytes => CoresOnly s acc.1) _ _ (.refl s) fun acc hacc v _ => hacc.trans ?_
  split
  · exact ⟨rfl⟩
  · exact .refl _

theorem CoresOnly.region {s t : State} (h : CoresOnly s t) (n : Nat) : t.region n = s.region n := by
  rw [h.rest]
  rfl

theorem CoresOnly.ctx? {s t : State} (h : CoresOnly s t) (c : Nat) : t.ctx? c = s.ctx? c := by
  rw [h.rest]
  rfl

/-- The search for a free block begins at its own pair index (R298). -/
theorem freeFrom_of_freeAt {s : State} {n nc p b : Nat} (hp : p < nc) (hb : freeAt s n nc p = some b) : freeFrom s n nc p = some b := by
  obtain ⟨m, rfl⟩ := Nat.exists_eq_succ_of_ne_zero (Nat.ne_zero_of_lt hp)
  rw [freeFrom, List.range_succ_eq_map, List.findSome?_cons, Nat.add_zero, Nat.mod_eq_of_lt hp, hb]

/-- The first block of a context returns to the block that is free at the cursor's pair index. -/
theorem returnBlk_first {s : State} {n c b : Nat} {x : Ctx} {im : BoundImage} {cb : CtxBlk} (hx : s.ctx? c = some x)
    (himg : (s.region n).img = some im) (hcb : x.blocks[0]? = some cb) (hpairs : im.img.pairSize ≠ 0)
    (hfree : freeAt s n im.img.pairSize ((s.region n).cursor % im.img.pairSize) = some b) (plain : Bytes) :
    ∃ t, returnBlk s n c 0 plain = some t ∧ ((t.region n).blk b).count = 1 ∧
      t.ctx? c = some { x with blocks := x.blocks.set 0 { cb with blk := b, frame := none, digest := [], evict := 0 } } := by
  have hfound : findBlock s n im.img.pairSize ((s.region n).cursor % im.img.pairSize) = some (s, b) := by
    rw [findBlock, freeFrom_of_freeAt (Nat.mod_lt _ (Nat.pos_of_ne_zero hpairs)) hfree]
  simp only [returnBlk, hx, himg, hcb, if_neg hpairs, if_true, hfound, Option.map_some]
  refine ⟨_, rfl, ?_⟩
  generalize hu : s.updRegion n _ = u
  have hregion : ((u.region n).blk b).count = 1 := by
    rw [← hu, State.region_updRegion_same, Region.blk_setBlk_same _ _ (by rintro h; cases congrArg Blk.count h)]
  have hctx : u.ctx? c = some x := by rw [← hu]; exact hx
  have hput := (coresOnly_unpack u im im.img.pairSize b).trans (coresOnly_putFrameBytes _ n im b cb.openB plain)
  refine ⟨by rw [updCtx_region, hput.region, hregion], ?_⟩
  rw [State.updCtx_of_some ((hput.ctx? c).trans hctx), State.ctx?_setCtx_same]

/-! ## Frames that are asked for -/

section
variable {s t : State} (h : Posted s t)
include h

theorem Posted.ctx? (c : Nat) : t.ctx? c = s.ctx? c := by
  rw [h.rest]
  rfl

theorem Posted.frameSize (n : Nat) : Machine.frameSize t n = Machine.frameSize s n := by
  rw [h.rest]
  rfl

theorem Posted.framePlain (n : Nat) (x : Ctx) (cb : CtxBlk) (data : Option Bytes) :
    Machine.framePlain t n x cb data = Machine.framePlain s n x cb data := by
  rw [h.rest]
  rfl

theorem Posted.freeAt (n nc p : Nat) : Machine.freeAt t n nc p = Machine.freeAt s n nc p := by
  rw [h.rest]
  rfl

/-- While frames are asked for their size stays the same. -/
theorem foldl_winAsk_frameSize (n slot : Nat) (l : List (CtxBlk × Nat)) :
    l.foldl (fun v e => winAsk v n slot (e.1.frame.getD 0 * Machine.frameSize v n) (Machine.frameSize v n)) t =
      l.foldl (fun v e => winAsk v n slot (e.1.frame.getD 0 * Machine.frameSize s n) (Machine.frameSize s n)) t := by
  induction l generalizing t with
  | nil => rfl
  | cons e l ih =>
    rw [List.foldl_cons, List.foldl_cons, h.frameSize]
    exact ih (h.trans (posted_winAsk _ _ _ _ _))

end

end Sys2Proof.Machine
end

section
/-!
SUPPORT. The return of evicted frames, clause by clause (R310, R311, R566), and the statement of blocks that move.
-/
namespace Sys2Proof.Proofs
open Sys2Proof.Machine Sys2Proof.Safety

/-- The evicted blocks of a context, with their places. -/
def goneBlocks (x : Ctx) : List (CtxBlk × Nat) := x.blocks.zipIdx.filter fun e => e.1.frame.isSome

/-- The state in which the evicted frames of a context have been asked for. -/
def framesAsked (s : State) (x : Ctx) : State :=
  (goneBlocks x).foldl (fun v e => winAsk v x.d.region (s.setting (0x6280 + x.d.region) 2 255)
    (e.1.frame.getD 0 * frameSize s x.d.region) (frameSize s x.d.region)) s

/-- What the frames give in a state: the place of each evicted block and its plaintext. -/
def framesGot (s : State) (x : Ctx) (frames : List (Option Bytes)) : List (Nat × Option Bytes) :=
  (goneBlocks x).zipIdx.map fun e => (e.1.2, framePlain s x.d.region x e.1.1 (nth frames e.2 none))

/-- The state in which every block of a context stands again, or the one before where a block cannot be allocated. -/
def framesBack (s : State) (c : Nat) (x : Ctx) (got : List (Nat × Option Bytes)) : State :=
  ((returnGo x.d.region c (got.map fun e => (e.1, e.2.getD [])) s).map fun t => t.updCtx c fun y =>
    { y with readyFrom := if y.blocks.any fun b => b.frame.isSome then y.readyFrom else s.now }).getD s

theorem posted_framesAsked (s : State) (x : Ctx) : Posted s (framesAsked s x) :=
  Posted.foldl (fun v _ => posted_winAsk v _ _ _ _) _ s

section
variable {s : State} {c : Nat} {x : Ctx} (hx : s.ctx? c = some x) (hlive : x.state = .generate ∨ x.state = .prefill)
include hx hlive

/-- A live context with evicted blocks asks for its frames; it ends where one does not check, and has its blocks back otherwise. -/
theorem exec_frameReturn (hgone : goneBlocks x ≠ []) (frames : List (Option Bytes)) : exec (.frameReturn c frames) s =
    .next (if (framesGot (framesAsked s x) x frames).any fun e => e.2.isNone then endReq (framesAsked s x) c 5 0
      else framesBack (framesAsked s x) c x (framesGot (framesAsked s x) x frames)) := by
  have hasked : (goneBlocks x).foldl (fun v e => winAsk v x.d.region (s.setting (0x6280 + x.d.region) 2 255)
      (e.1.frame.getD 0 * frameSize v x.d.region) (frameSize v x.d.region)) s = framesAsked s x := foldl_winAsk_frameSize (.refl s) _ _ _
  have hruns : ¬ ((goneBlocks x).isEmpty = true ∨ (x.state ≠ .generate ∧ x.state ≠ .prefill)) := by
    rw [List.isEmpty_iff, not_or, not_and_or, not_not, not_not]
    exact ⟨hgone, hlive⟩
  show execFrameReturn c frames s = _
  rw [execFrameReturn, hx]
  dsimp -zeta only
  extract_lets n gone slot asked got
  refine (if_neg hruns).trans ?_
  have hasked : asked = framesAsked s x := hasked
  clear_value asked
  subst hasked
  rw [apply_ite Host.Outcome.next]
  rfl

/-- A frame that does not check ends the request as EVICTED. -/
theorem exec_frameReturn_lost (hgone : goneBlocks x ≠ []) {frames : List (Option Bytes)}
    (hlost : ∃ e ∈ framesGot (framesAsked s x) x frames, e.2 = none) :
    exec (.frameReturn c frames) s = .next (endReq (framesAsked s x) c 5 0) := by
  obtain ⟨e, he, hnone⟩ := hlost
  rw [exec_frameReturn hx hlive hgone, if_pos (List.any_eq_true.2 ⟨e, he, by rw [hnone]; rfl⟩)]

/-- Frames that all check are put back, each into a block that is allocated anew. -/
theorem exec_frameReturn_checked (hgone : goneBlocks x ≠ []) {frames : List (Option Bytes)}
    (hgot : ∀ e ∈ framesGot (framesAsked s x) x frames, e.2.isSome) :
    exec (.frameReturn c frames) s = .next (framesBack (framesAsked s x) c x (framesGot (framesAsked s x) x frames)) := by
  rw [exec_frameReturn hx hlive hgone, if_neg]
  rw [List.any_eq_true]
  rintro ⟨e, he, hnone⟩
  have hsome := hgot e he
  rw [Option.isNone_iff_eq_none] at hnone
  rw [hnone] at hsome
  cases hsome

end

/-- While a block cannot be allocated nothing returns. -/
theorem framesBack_of_full {s : State} {c : Nat} {x : Ctx} {got : List (Nat × Option Bytes)}
    (hfull : returnGo x.d.region c (got.map fun e => (e.1, e.2.getD [])) s = none) : framesBack s c x got = s := by
  rw [framesBack, hfull]
  rfl

/-- A context whose blocks are all back is ready from now on (R353). -/
theorem framesBack_of_back {s v : State} {c : Nat} {x : Ctx} {got : List (Nat × Option Bytes)}
    (hback : returnGo x.d.region c (got.map fun e => (e.1, e.2.getD [])) s = some v)
    (hall : ∀ y, v.ctx? c = some y → ∀ e ∈ y.blocks, e.frame = none) :
    framesBack s c x got = v.updCtx c fun y => { y with readyFrom := s.now } := by
  rw [framesBack, hback, Option.map_some, Option.getD_some]
  cases hy : v.ctx? c with
  | none => rw [State.updCtx_of_none hy, State.updCtx_of_none hy]
  | some y =>
    have hnone : ¬ (y.blocks.any fun b => b.frame.isSome) = true := by
      rw [List.any_eq_true]
      rintro ⟨e, he, hsome⟩
      rw [hall y hy e he] at hsome
      cases hsome
    rw [State.updCtx_of_some hy, State.updCtx_of_some hy, if_neg hnone]

/-! ## A context with one block -/

section
variable {s : State} {c : Nat} {x : Ctx} {cb : CtxBlk} (hblocks : x.blocks = [cb])
include hblocks

theorem goneBlocks_one (hframe : cb.frame.isSome) : goneBlocks x = [(cb, 0)] := by
  rw [goneBlocks, hblocks]
  exact List.filter_cons_of_pos hframe

theorem framesGot_one (hframe : cb.frame.isSome) (data : Option Bytes) :
    framesGot (framesAsked s x) x [data] = [(0, framePlain s x.d.region x cb data)] := by
  rw [framesGot, goneBlocks_one hblocks hframe, ← (posted_framesAsked s x).framePlain]
  rfl

variable (hx : s.ctx? c = some x) (hlive : x.state = .generate ∨ x.state = .prefill)
include hx hlive

/-- The frame of a context's only block, which checks, comes back into the block that is free. -/
theorem answers_frameReturn_one {im : BoundImage} {f b : Nat} {d p : Bytes} (hframe : cb.frame = some f)
    (himg : (s.region x.d.region).img = some im) (hplain : framePlain s x.d.region x cb (some d) = some p) (hpairs : im.img.pairSize ≠ 0)
    (hfree : freeAt s x.d.region im.img.pairSize ((s.region x.d.region).cursor % im.img.pairSize) = some b) :
    answers (.frameReturn c [some d]) s fun t => ((t.region x.d.region).blk b).count = 1 ∧
      ∃ y, t.ctx? c = some y ∧ y.blocks = [{ cb with blk := b, frame := none, digest := [], evict := 0 }] := by
  have hsome : cb.frame.isSome := by rw [hframe]; rfl
  have hasked := posted_framesAsked s x
  have hgot : framesGot (framesAsked s x) x [some d] = [(0, some p)] := by rw [framesGot_one hblocks hsome, hplain]
  obtain ⟨v, hback, hcount, hctx⟩ := returnBlk_first (s := framesAsked s x) (n := x.d.region) (c := c) (b := b) (x := x)
    (im := im) (cb := cb) (by rw [hasked.ctx?, hx]) (by rw [hasked.region, himg]) (by rw [hblocks]; rfl) hpairs
    (by rw [hasked.freeAt, hasked.region, hfree]) p
  have hgo : returnGo x.d.region c ([(0, some p)].map fun e : Nat × Option Bytes => (e.1, e.2.getD [])) (framesAsked s x) = some v := by
    simp only [List.map_cons, List.map_nil, Option.getD_some, returnGo, hback, Option.bind_some]
  have hall : ∀ y, v.ctx? c = some y → ∀ e ∈ y.blocks, e.frame = none := by
    intro y hy e he
    rw [hctx] at hy
    cases hy
    rw [hblocks] at he
    cases List.mem_singleton.1 he
    rfl
  refine ⟨_, exec_frameReturn_checked hx hlive (by rw [goneBlocks_one hblocks hsome]; exact List.cons_ne_nil _ _) ?_, ?_⟩
  · rw [hgot]
    intro e he
    cases List.mem_singleton.1 he
    rfl
  · rw [hgot, framesBack_of_back hgo hall]
    refine ⟨by rw [updCtx_region, hcount], ?_⟩
    rw [State.updCtx_of_some hctx, State.ctx?_setCtx_same, hblocks]
    exact ⟨_, rfl, rfl⟩

/-- The frame of a context's only block, which is not there, ends the request. -/
theorem answers_frameReturn_missing (hframe : cb.frame.isSome) (htune : x.tune = none) (hwf : Tbl.wf s.serving.ctxs) :
    answers (.frameReturn c [none]) s fun t => ∀ y, t.ctx? c = some y → y.state = .ended := by
  have hasked := posted_framesAsked s x
  refine ⟨_, exec_frameReturn_lost hx hlive (by rw [goneBlocks_one hblocks hframe]; exact List.cons_ne_nil _ _) ?_, fun y hy => ?_⟩
  · rw [framesGot_one hblocks hframe]
    exact ⟨_, List.mem_singleton.2 rfl, rfl⟩
  · refine endReq_state (s := framesAsked s x) (by rw [hasked.ctx?, hx]) ?_ htune (by rw [hasked.rest]; exact hwf) 5 0 hy
    rcases hlive with h | h <;> rw [h] <;> decide

end

/-- Settles O43: a block that closes (`publish_blk`), a slot compacted (`compactNow_core`), frames that return or are lost
(`exec_frameReturn`), and the flush and the gate by their equations. -/
theorem blocksMove : Obligations.BlocksMove := by
  unfold Obligations.BlocksMove
  intro s c x hx n
  refine ⟨fun k cb hcb hframe hopen hwritten => answers_blockClose hx hcb hframe hopen hwritten, ?compaction, ?frames,
    fun im cb f d p b hblocks hframe hlive himg hplain hpairs hfree =>
      answers_frameReturn_one hblocks hx hlive hframe himg hplain hpairs hfree,
    fun cb hblocks hframe hlive htune hwf => answers_frameReturn_missing hblocks hx hlive hframe htune hwf,
    fun w m hopen hm => answers_flushPrefix hopen hm w, answers_gateWindow s⟩
  case compaction =>
    intro core slot im v e m howner himg hv he hpair hint4 heven hslot hclosed hnew husable hclock
    exact answers_int4Compaction howner himg hv he hpair hint4 heven hslot hclosed hnew husable hclock
  case frames =>
    intro frames hlive gone u got hgone
    have hasked : (framesAsked s x).now = s.now := by rw [(posted_framesAsked s x).rest]
    refine ⟨fun hgot hfull => ?_, fun v hgot hback hall => ?_, exec_frameReturn_lost hx hlive hgone⟩
    · exact (exec_frameReturn_checked hx hlive hgone hgot).trans (congrArg Host.Outcome.next (framesBack_of_full hfull))
    · rw [← hasked]
      exact (exec_frameReturn_checked hx hlive hgone hgot).trans (congrArg Host.Outcome.next (framesBack_of_back hback hall))

end Sys2Proof.Proofs
end

section
/-!
SUPPORT. What the end of requests, of Vigil arms and of commands, the saves and an ordered start leave of the boot unit and of the handles
that are free (R426, R464, R525, R533, R563).
-/
namespace Sys2Proof.Machine

/-- A state with the same boot unit, in which every handle that was free is free. -/
structure BootKept (s t : State) : Prop where
  boot : t.boot = s.boot
  free : ∀ i, s.cmd? i = none → t.cmd? i = none

section
variable {s t u : State}

theorem BootKept.refl (s : State) : BootKept s s := ⟨rfl, fun _ hi => hi⟩

theorem BootKept.trans (h : BootKept s t) (h' : BootKept t u) : BootKept s u :=
  ⟨h'.boot.trans h.boot, fun i hi => h'.free i (h.free i hi)⟩

theorem BootKept.foldl {α : Type} {f : State → α → State} (hf : ∀ s x, BootKept s (f s x)) (l : List α) (s : State) :
    BootKept s (l.foldl f s) :=
  List.foldlRecOn (motive := BootKept s) l f (.refl s) fun t ht x _ => ht.trans (hf t x)

/-- An update of units other than the boot unit and the host interface. -/
theorem bootKept_of (hboot : t.boot = s.boot) (hhost : t.host = s.host) : BootKept s t :=
  ⟨hboot, fun i hi => by rw [← hi, State.cmd?, State.hdl, hhost, State.cmd?, State.hdl]⟩

theorem RequestSide.bootKept (h : RequestSide s t) : BootKept s t := ⟨h.boot, fun i hi => (h.cmd? i).trans hi⟩

theorem Posted.bootKept (h : Posted s t) : BootKept s t := h.requestSide.bootKept

end

theorem HostSide.boot {s t : State} (h : HostSide s t) : t.boot = s.boot := by rw [h.rest]
theorem HostSide.serving {s t : State} (h : HostSide s t) : t.serving = s.serving := by rw [h.rest]

@[simp] theorem finish_boot (s : State) (h status detail r0 r1 : Nat) : (s.finish h status detail r0 r1).boot = s.boot :=
  (hostSide_finish s h status detail r0 r1).boot

theorem bootKept_finish (s : State) (h status detail r0 r1 : Nat) : BootKept s (s.finish h status detail r0 r1) :=
  ⟨finish_boot _ _ _ _ _ _, fun _ hi => Proofs.cmd?_finish_none hi _ _ _ _ _⟩

/-! ## Requests and sessions -/

theorem requestSide_endReqs (s : State) (cs : List Nat) (status detail : Nat) : RequestSide s (endReqs s cs status detail) :=
  RequestSide.foldl (fun t c => requestSide_endReq t c status detail) cs s

theorem requestSide_dropSessionIndex (s : State) (id : Nat) : RequestSide s (dropSessionIndex s id) :=
  RequestSide.trans (t := { s with serving := { s.serving with index := s.serving.index.filter fun e => e.session ≠ id } }) ⟨rfl, rfl⟩
    (RequestSide.foldl (fun t _ => requestSide_updRegion t _ _) _ _)

/-- A session that ends is open no more. -/
theorem endSession_session? {s : State} (hwf : Tbl.wf s.boot.sessions) (id : Nat) : (endSession s id).session? id = none := by
  cases hopen : s.session? id with
  | none => rwa [endSession, hopen]
  | some x =>
    have hended (cs : List Nat) : (dropSessionIndex (endReqs s cs 1 0) id).boot = s.boot :=
      ((requestSide_endReqs s cs 1 0).trans (requestSide_dropSessionIndex _ id)).boot
    have hsessions : (endSession s id).boot.sessions = Tbl.del s.boot.sessions id := by
      rw [endSession, hopen]
      exact congrArg (fun b : Boot => Tbl.del b.sessions id) (hended _)
    rw [State.session?, hsessions]
    exact Tbl.find_del_same hwf id

/-! ## Saves (R464) -/

theorem writeBlock_keeps (s : State) (b lay : Nat) (d : StoreData) (aOk bOk : Bool) :
    (writeBlock s b lay d aOk bOk).boot = s.boot ∧ (writeBlock s b lay d aOk bOk).host = s.host := by
  have hpending (t : State) (index sub : Nat) : (odPending t index sub).boot = t.boot ∧ (odPending t index sub).host = t.host := by
    rw [(valuesOnly_odPending t index sub).rest]
    exact ⟨rfl, rfl⟩
  unfold writeBlock
  dsimp only
  split
  · split
    · exact ⟨rfl, rfl⟩
    · exact hpending _ _ _
  · exact ⟨rfl, rfl⟩

theorem bootKept_writeBlock (s : State) (b lay : Nat) (d : StoreData) (aOk bOk : Bool) : BootKept s (writeBlock s b lay d aOk bOk) :=
  bootKept_of (writeBlock_keeps _ _ _ _ _ _).1 (writeBlock_keeps _ _ _ _ _ _).2

theorem bootKept_draw (s : State) (n : Nat) : BootKept s (s.draw n).2 := bootKept_of rfl rfl

theorem bootKept_saveNow (s : State) (b : Nat) : BootKept s (saveNow s b) :=
  BootKept.trans (t := { (s.draw 2).2 with od := { s.od with pending := Tbl.del s.od.pending b } }) (bootKept_of rfl rfl)
    (bootKept_writeBlock _ _ _ _ _ _)

theorem bootKept_saveAll (s : State) : BootKept s (saveAll s) := by
  unfold saveAll
  extract_lets t
  have ht : BootKept s t := BootKept.foldl bootKept_saveNow _ s
  split
  · exact ht.trans (bootKept_saveNow t _)
  · exact ht

theorem bootKept_saveBoot (s : State) : BootKept s (saveBoot s) := (bootKept_draw s 2).trans (bootKept_writeBlock _ _ _ _ _ _)

/-! ## The end of service (R525) -/

theorem bootKept_disarmVigil (s : State) (n : Nat) : BootKept s (disarmVigil s n) := by
  unfold disarmVigil
  split
  · exact (requestSide_updRegion s n _).bootKept.trans (bootKept_finish _ _ _ _ _ _)
  · exact .refl s

theorem bootKept_endEverything (s : State) (code : Nat) : BootKept s (endEverything s code).1 := by
  have hsteps (r : Tbl Region) : RequestSide s { s with regions := r } := ⟨rfl, rfl⟩
  have hfreed (t : State) (v : Serving) (r : Tbl Region) : RequestSide t { t with serving := v, regions := r } := ⟨rfl, rfl⟩
  exact ((hsteps _).trans ((requestSide_endReqs _ _ 3 code).trans (hfreed _ _ _))).bootKept

theorem bootKept_recordErr (s : State) (r : ErrRec) : BootKept s (s.recordErr r) :=
  have h := (recordErr_posted s r).bootKept
  ⟨h.boot, h.free⟩

theorem bootKept_endHandles (s : State) (status detail : Nat) : BootKept s (endHandles s status detail) := by
  have hended (hs : List Nat) : BootKept s (hs.foldl (fun t h => t.finish h status detail 0 0) s) :=
    BootKept.foldl (fun t h => bootKept_finish t h _ _ _ _) hs s
  have hjobs (t : State) (v : Serving) : BootKept t { t with serving := v } := bootKept_of rfl rfl
  exact (hended _).trans (hjobs _ _)

theorem bootKept_endService (s : State) (code aux0 : Nat) : BootKept s (endService s code aux0) := by
  have hdisarmed : BootKept s (disarmAll s) := BootKept.foldl bootKept_disarmVigil _ s
  have hdropped (t : State) : BootKept t (dropOps t) := bootKept_of rfl rfl
  exact hdisarmed.trans ((bootKept_endEverything _ code).trans
    ((bootKept_recordErr _ _).trans ((bootKept_endHandles _ 5 0xFFFF).trans (hdropped _))))

theorem trigger_boot (s : State) (kind n : Nat) : (trigger s kind n).boot = { s.boot with phase := .trigger kind, trigAt := s.now } := rfl

theorem trigger_cmd? (s : State) (kind n i : Nat) : (trigger s kind n).cmd? i = s.cmd? i := rfl

theorem orderedStart_saved (s : State) (kind : Nat) : ∃ t n, BootKept s t ∧ orderedStart s kind = trigger t kind n :=
  ⟨_, _, (bootKept_endService s 0x0502 kind).trans (bootKept_saveAll _), rfl⟩

/-- An ordered start is triggered; the rest of the boot unit stays, and no handle is taken. -/
theorem orderedStart_keeps (s : State) (kind : Nat) :
    (∃ t0, (orderedStart s kind).boot = { s.boot with phase := .trigger kind, trigAt := t0 }) ∧
      ∀ i, s.cmd? i = none → (orderedStart s kind).cmd? i = none := by
  obtain ⟨t, n, hsaved, he⟩ := orderedStart_saved s kind
  rw [he, trigger_boot, hsaved.boot]
  exact ⟨⟨_, rfl⟩, hsaved.free⟩

end Sys2Proof.Machine
end

section
/-!
SUPPORT. What commands of attestation, custody, firmware and tuning rest on: operands, signing, session numbers, banks, jobs and the
custody switch (R330, R546, R555 to R560).
-/
namespace Sys2Proof.Machine

/-! ## Operands of commands (R415, R437) -/

/-- The operand of a command is what the host gives, when its site is there and its address is one that a read can have. -/
theorem operand_given {s : State} {o : HOut} (hlost : (s.site (cmdSite s o)).lost = false) (haddr : fieldAt o.cmd 24 8 % 4 = 0)
    (len : Nat) (data : Option Bytes) : ∃ u, Posted s u ∧ s.operand o (fieldAt o.cmd 24 8) len data = (u, data) :=
  ⟨_, posted_operand s o _ len data, Prod.ext rfl (operand_of_open hlost haddr len data)⟩

/-- An operand is what the host gives, or none. -/
theorem operand_cases (s : State) (o : HOut) (addr len : Nat) (data : Option Bytes) : ∃ u, Posted s u ∧
    (s.operand o addr len data = (u, none) ∨ s.operand o addr len data = (u, data)) := by
  refine ⟨_, posted_operand s o addr len data, ?_⟩
  unfold State.operand
  extract_lets i
  split
  · exact .inl rfl
  · exact .inr rfl

section
variable {s t : State} (h : Posted s t)
include h

theorem Posted.boot : t.boot = s.boot := by rw [h.rest]
theorem Posted.serving : t.serving = s.serving := by rw [h.rest]

theorem Posted.session? (i : Nat) : t.session? i = s.session? i := by rw [State.session?, h.boot, State.session?]

theorem Posted.unwrapKey (b : Bytes) : Machine.unwrapKey t b = Machine.unwrapKey s b := by
  rw [h.rest]
  rfl

theorem Posted.tuneOk (p : TuneParams) : Machine.tuneOk t p = Machine.tuneOk s p := by
  rw [h.rest]
  rfl

theorem Posted.attestLength : Machine.attestLength t = Machine.attestLength s := by
  rw [h.rest]
  rfl

theorem Posted.attestRefusal (o : HOut) : Machine.attestRefusal t o = Machine.attestRefusal s o := by
  rw [h.rest]
  rfl

end

/-! ## Signing (R556) -/

/-- While one report is being signed no other begins. -/
theorem startSigning_of_signing {s : State} (hsigning : s.boot.signing.isSome) : startSigning s = s := by
  rw [startSigning, signGo, if_pos (.inl hsigning)]

/-- Nothing is signed where no report is asked for. -/
theorem startSigning_of_nil {s : State} (hnone : s.boot.attests = []) : startSigning s = s := by
  rw [startSigning, signGo, hnone]
  exact ite_self s

/-! ## Session numbers (R559) -/

/-- Of the 258 numbers from r on, one is neither zero nor that of a session, where fewer than 256 sessions are open. -/
theorem exists_free_session {s : State} (hroom : s.boot.sessions.length < 256) (r : Nat) :
    ∃ j < 258, (r + j) % 2 ^ 32 ≠ 0 ∧ s.session? ((r + j) % 2 ^ 32) = none := by
  by_contra hnone
  push Not at hnone
  have htaken : ((Finset.range 258).image fun j => (r + j) % 2 ^ 32) ⊆ insert 0 (s.boot.sessions.map (·.1)).toFinset := by
    intro v hv
    obtain ⟨j, hj, rfl⟩ := Finset.mem_image.1 hv
    rw [Finset.mem_insert, List.mem_toFinset]
    by_cases hzero : (r + j) % 2 ^ 32 = 0
    · exact .inl hzero
    · obtain ⟨x, hx⟩ := Option.ne_none_iff_exists'.1 (hnone j (Finset.mem_range.1 hj) hzero)
      exact .inr (List.mem_map.2 ⟨_, Tbl.find_mem hx, rfl⟩)
  have hinj : Set.InjOn (fun j => (r + j) % 2 ^ 32) (Finset.range 258) := by
    intro i hi j hj hij
    rw [Finset.mem_coe, Finset.mem_range] at hi hj
    dsimp only at hij
    omega
  have hcount := Finset.card_le_card htaken
  rw [Finset.card_image_of_injOn hinj, Finset.card_range] at hcount
  have hmost := (Finset.card_insert_le 0 (s.boot.sessions.map (·.1)).toFinset).trans
    (Nat.succ_le_succ (List.toFinset_card_le (s.boot.sessions.map (·.1))))
  rw [List.length_map] at hmost
  omega

/-- A fresh session number is not zero and not that of a session. -/
theorem freshSession_free {s : State} (hroom : s.boot.sessions.length < 256) (r : Nat) :
    freshSession s r ≠ 0 ∧ s.session? (freshSession s r) = none := by
  obtain ⟨j, hj, hzero, hfree⟩ := exists_free_session hroom r
  unfold freshSession
  cases hfind : (List.range 258).find? (fun j => let v := (r + j) % 2 ^ 32; v ≠ 0 && (s.session? v).isNone) with
  | none =>
    refine absurd ?_ (List.find?_eq_none.1 hfind j (List.mem_range.2 hj))
    simp only [Bool.and_eq_true, decide_eq_true_eq, Option.isNone_iff_eq_none]
    exact ⟨hzero, hfree⟩
  | some i =>
    have hi := List.find?_some hfind
    simp only [Bool.and_eq_true, decide_eq_true_eq, Option.isNone_iff_eq_none] at hi
    exact hi

/-- An open block of the USER role opens a session under a fresh number, with the keys that its capsule gives (R559, R560). -/
theorem openSession_user {s : State} {b : Bytes} (hlength : b.length = 1592) (hrole : fieldAt b 0 4 = 1)
    (hroom : s.boot.sessions.length < 256) (source : Option Nat) : ∃ t i x rsp, openSession s b source = (t, 0, i, rsp) ∧
      i ≠ 0 ∧ s.session? i = none ∧ t.session? i = some x ∧ x.admin = false ∧
      x.mac = hkdf (slice b 8 16) (Config.kemDecaps (kemSeed s) (slice b 24 1568)) (ascii "mac") 32 := by
  obtain ⟨hzero, hfree⟩ := freshSession_free (s := (s.draw 1).2) hroom (leNat ((Config.random s.free 4).take 4))
  unfold openSession
  simp only [hrole, hlength, State.draw]
  rw [if_neg (by simp), if_neg (Nat.not_le.2 hroom)]
  exact ⟨_, _, _, _, rfl, hzero, hfree, Tbl.find_set_same _ _ _, rfl, rfl⟩

/-! ## Firmware banks (R546) -/

/-- An image that verifies goes into the bank that is not active. -/
theorem writeBank_signed {s : State} {b : Bytes} (hactive : s.boot.activeBank ≤ 1) (hsigned : fwSigned b = true)
    (hsecure : s.boot.minSec ≤ fwSecurity b) : ∃ t, writeBank s b = (t, 0) ∧ t.bank (1 - s.boot.activeBank) = b ∧
      t.bank s.boot.activeBank = s.bank s.boot.activeBank ∧ t.boot.written = true := by
  rw [writeBank, if_neg (by simp [hsigned]), if_neg (Nat.not_lt.2 hsecure)]
  refine ⟨_, rfl, ?_⟩
  obtain hbank | hbank : s.boot.activeBank = 0 ∨ s.boot.activeBank = 1 := by omega
  all_goals simp [hbank, State.bank]

theorem writeBank_unsigned {s : State} {b : Bytes} (hunsigned : fwSigned b = false) : writeBank s b = (s, 1) := if_pos (by simp [hunsigned])

/-! ## Tuning (R330, R331) -/

/-- A start of waiting jobs changes the serving controller alone, and keeps each job with its handle, its region and its parameters. -/
structure JobsKept (s t : State) : Prop where
  rest : t = { s with serving := t.serving }
  job : ∀ j ∈ s.serving.jobs, ∃ k ∈ t.serving.jobs, k.handle = j.handle ∧ k.region = j.region ∧ k.params = j.params

theorem JobsKept.refl (s : State) : JobsKept s s := ⟨rfl, fun j hj => ⟨j, hj, rfl, rfl, rfl⟩⟩

theorem JobsKept.trans {s t u : State} (h : JobsKept s t) (h' : JobsKept t u) : JobsKept s u where
  rest := by
    calc u = { t with serving := u.serving } := h'.rest
      _ = { s with serving := u.serving } := by rw [h.rest]
  job j hj := by
    obtain ⟨k, hk, hhandle, hregion, hparams⟩ := h.job j hj
    obtain ⟨l, hl, hhandle', hregion', hparams'⟩ := h'.job k hk
    exact ⟨l, hl, hhandle'.trans hhandle, hregion'.trans hregion, hparams'.trans hparams⟩

theorem jobsKept_startJobs (s : State) (n : Nat) : JobsKept s (startJobs s n) := by
  refine List.foldlRecOn (motive := JobsKept s) _ _ (.refl s) fun t ht j _ => ht.trans ?_
  split
  · split
    · exact .refl t
    · refine ⟨rfl, fun k hk => ⟨_, List.mem_map.2 ⟨k, hk, rfl⟩, ?_⟩⟩
      split <;> exact ⟨rfl, rfl, rfl⟩
  · exact .refl t

/-- The job that a TUNE enters. -/
def tuneJob (h : Nat) (o : HOut) (b : Bytes) : Tune :=
  { handle := h, region := (tuneParams b).region, params := b, session := o.session, running := false, ctx := 65536,
    stepsLeft := (tuneParams b).steps, tokens := 0, version := 0 }

/-- The state in which the job of a TUNE waits. -/
def jobEntered (s : State) (h : Nat) (o : HOut) (b : Bytes) : State :=
  { s.keep h fun x => { x with running := true, since := s.now } with
    serving := { s.serving with jobs := s.serving.jobs ++ [tuneJob h o b] } }

/-- A TUNE whose job is entered goes on, whether the job starts at once or waits. -/
theorem startJobs_entered {s : State} {h : Nat} {o : HOut} (ho : s.cmd? h = some o) (b : Bytes) (n : Nat) :
    (∃ q, (startJobs (jobEntered s h o b) n).cmd? h = some q ∧ q.running = true) ∧
      ∃ j ∈ (startJobs (jobEntered s h o b) n).serving.jobs, j.handle = h ∧ j.region = (tuneParams b).region ∧ j.params = b := by
  have hkept := jobsKept_startJobs (jobEntered s h o b) n
  have hjob : tuneJob h o b ∈ (jobEntered s h o b).serving.jobs := List.mem_append_right _ (List.mem_singleton.2 rfl)
  refine ⟨⟨{ o with running := true, since := s.now }, ?_, rfl⟩, hkept.job _ hjob⟩
  rw [hkept.rest]
  exact (cmd?_keep_same s h _).trans (congrArg _ ho)

/-! ## The custody switch (R558) -/

theorem odPending_vals (s : State) (index sub : Nat) : (odPending s index sub).od.vals = s.od.vals := by
  unfold odPending
  extract_lets b
  split <;> rfl

theorem odStore_vals (s : State) (index sub : Nat) (r : OdRow) (v : Bytes) : (odStore s index sub r v).od.vals =
    if v = (match r.ty.size with | some n => leBytes n r.dflt | none => []) then Tbl.del s.od.vals (odKey index sub)
      else Tbl.set s.od.vals (odKey index sub) v := by
  unfold odStore
  extract_lets k dflt kept bumped
  split
  · exact odPending_vals _ _ _
  · rfl

/-- The row of the custody switch. -/
theorem odRow_custody : odRow 0x2020 1 = some ⟨0x2020, 1, 0x01, .bool, .rw, 0, true, 0, 1, none⟩ := by decide +kernel

/-- Custody is as it has been stored. -/
theorem custodyOn_storeValue {s : State} (hwf : Tbl.wf s.od.vals) {v : Nat} (hv : v ≤ 1) :
    custodyOn (storeValue s 0x2020 1 (leBytes 1 v)) = true ↔ v = 1 := by
  rw [storeValue, odRow_custody, custodyOn, decide_eq_true_eq, State.setting, odStore_vals]
  obtain rfl | rfl : v = 0 ∨ v = 1 := by omega
  · rw [if_pos (by decide), Tbl.find_del_same hwf]
  · rw [if_neg (by decide), Tbl.find_set_same]
    decide

end Sys2Proof.Machine
end

section
/-!
SUPPORT. Attestation, custody, sessions, keys, firmware and tuning, clause by clause (R330, R546, R555 to R560, R563, R564).
-/
namespace Sys2Proof.Proofs
open Sys2Proof.Machine Sys2Proof.Safety

/-- The state in which the bank that is not active waits to be run. -/
def bankPending (s : State) : State := { s with boot := { s.boot with pendBank := some (1 - s.boot.activeBank) } }

section
variable {s : State} {h : Nat} {o : HOut} (ho : s.cmd? h = some o) (hw : o.running = false)
include ho hw

/-! ## Sessions and firmware without an operand (R546, R563) -/

theorem answers_sessionClose {x : Session} (hop : o.opcode = 0x57) (hopen : s.session? o.session = some x) (hwf : Tbl.wf s.boot.sessions) :
    answers (.sessionClose h) s fun t => t.cmd? h = none ∧ t.session? o.session = none := by
  refine ⟨(endSession s o.session).finish h 0 0 0 0, ?_, cmd?_finish_same _ _ _ _ _ _, ?_⟩
  · refine congrArg Host.Outcome.next ((onCmd_of_waiting ho hw hop _).trans (if_neg ?_))
    rw [hopen]
    exact Bool.false_ne_true
  · rw [State.session?, finish_boot]
    exact endSession_session? hwf o.session

/-- A written bank is started warm. -/
theorem answers_fwActivate (hop : o.opcode = 0x55) (hwritten : s.boot.written = true) : answers (.fwActivate h) s fun t =>
    t.cmd? h = none ∧ t.boot.phase = .trigger 2 ∧ t.boot.pendBank = some (1 - s.boot.activeBank) := by
  have hsaved := bootKept_saveBoot (bankPending (s.finish h 0 0 0 0))
  obtain ⟨⟨t0, hboot⟩, hfree⟩ := orderedStart_keeps (saveBoot (bankPending (s.finish h 0 0 0 0))) 2
  refine ⟨orderedStart (saveBoot (bankPending (s.finish h 0 0 0 0))) 2, ?_, ?_, ?_, ?_⟩
  · exact congrArg Host.Outcome.next ((onCmd_of_waiting ho hw hop _).trans (if_neg (by simp [hwritten])))
  · exact hfree h (hsaved.free h (cmd?_finish_same s h 0 0 0 0))
  · rw [hboot]
  · rw [hboot, hsaved.boot, bankPending, finish_boot]

theorem answers_fwActivate_unwritten (hop : o.opcode = 0x55) (hwritten : s.boot.written = false) :
    answers (.fwActivate h) s fun t => t.cmd? h = none ∧ t.boot = s.boot :=
  ⟨s.finish h 5 0 0 0, congrArg Host.Outcome.next ((onCmd_of_waiting ho hw hop _).trans (if_pos (by rw [hwritten]; rfl))),
    cmd?_finish_same _ _ _ _ _ _, finish_boot _ _ _ _ _ _⟩

/-! ## Commands with an operand (R415, R437) -/

section
variable (hlost : (s.site (cmdSite s o)).lost = false) (haddr : fieldAt o.cmd 24 8 % 4 = 0)
include hlost haddr

/-- An ATTEST that nothing refuses waits behind the one that is being signed. -/
theorem answers_attest_waits {b : Bytes} (hop : o.opcode = 0x50) (hrefusal : attestRefusal s o = none) (hsigning : s.boot.signing.isSome) :
    answers (.attest h (some b)) s fun t => (∃ q, t.cmd? h = some q ∧ q.running = true) ∧
      t.boot.attests = s.boot.attests ++ [(h, b)] ∧ t.boot.signing = s.boot.signing ∧ t.boot.leaf = s.boot.leaf := by
  obtain ⟨u, hasked, hgiven⟩ := operand_given hlost haddr 32 (some b)
  refine ⟨_, congrArg Host.Outcome.next (onCmd_of_waiting ho hw hop _), ?_⟩
  simp only [hgiven, hasked.attestRefusal, hrefusal]
  rw [startSigning_of_signing (by show u.boot.signing.isSome; rw [hasked.boot]; exact hsigning)]
  refine ⟨⟨_, (cmd?_keep_same u h _).trans (congrArg _ ((hasked.cmd? h).trans ho)), rfl⟩, ?_⟩
  rw [← hasked.boot]
  exact ⟨rfl, rfl, rfl⟩

/-- An ATTEST whose buffer is too short is refused. -/
theorem answers_attest_short {b : Bytes} (hop : o.opcode = 0x50) (hsound : s.boot.leafSound = true) (hleaf : s.boot.leaf < 2 ^ 30)
    (hshort : fieldAt o.cmd 40 4 < attestLength s) :
    answers (.attest h (some b)) s fun t => t.cmd? h = none ∧ t.boot = s.boot := by
  obtain ⟨u, hasked, hgiven⟩ := operand_given hlost haddr 32 (some b)
  have hrefusal : attestRefusal s o = some (5, 1) := by
    rw [attestRefusal, if_neg (by simp [hsound]), if_neg (Nat.not_le.2 hleaf), if_pos hshort]
  refine ⟨_, congrArg Host.Outcome.next (onCmd_of_waiting ho hw hop _), ?_⟩
  simp only [hgiven, hasked.attestRefusal, hrefusal]
  exact ⟨cmd?_finish_same _ _ _ _ _ _, (finish_boot _ _ _ _ _ _).trans hasked.boot⟩

/-- A block of the USER role opens a session. -/
theorem answers_sessionOpen {b : Bytes} (hop : o.opcode = 0x56) (hlength : b.length = 1592) (hlen : fieldAt o.cmd 32 4 = 1592)
    (hrole : fieldAt b 0 4 = 1) (hroom : s.boot.sessions.length < 256) : answers (.sessionOpen h (some b)) s fun t => t.cmd? h = none ∧
      ∃ i x, i ≠ 0 ∧ s.session? i = none ∧ t.session? i = some x ∧ x.admin = false ∧
        x.mac = hkdf (slice b 8 16) (Config.kemDecaps (kemSeed s) (slice b 24 1568)) (ascii "mac") 32 := by
  obtain ⟨u, hasked, hgiven⟩ := operand_given hlost haddr 1592 (some b)
  obtain ⟨v, i, x, rsp, hopened, hzero, hfree, hsession, huser, hmac⟩ :=
    openSession_user (s := u) hlength hrole (by rw [hasked.boot]; exact hroom) none
  refine ⟨_, congrArg Host.Outcome.next (onCmd_of_waiting ho hw hop _), ?_⟩
  simp only [hlen, hgiven, hlength, hopened]
  rw [if_neg (by omega), if_neg (by omega), if_neg (by omega)]
  refine ⟨cmd?_finish_same _ _ _ _ _ _, i, x, hzero, (hasked.session? i).symm.trans hfree, ?_, huser, ?_⟩
  · rw [State.session?, finish_boot, (posted_hostWrite _ _ _ _).boot]
    exact hsession
  · rw [hmac, hasked.rest]
    rfl

section
variable {b : Bytes} (hop : o.opcode = 0x58) (hregion : fieldAt o.cmd 16 1 < 64) (hlength : b.length = 1644)
include hop hregion hlength

/-- A key that unwraps is held for the next load of its region. -/
theorem answers_keyload {k : Bytes} (hkey : unwrapKey s b = some k) : answers (.keyload h (some b)) s fun t => t.cmd? h = none ∧
    (t.region (fieldAt o.cmd 16 1)).keyPend = some (fieldAt b 1568 8, fieldAt b 1576 1, k) ∧
      (t.region (fieldAt o.cmd 16 1)).keyAct = (s.region (fieldAt o.cmd 16 1)).keyAct := by
  obtain ⟨u, hasked, hgiven⟩ := operand_given hlost haddr 1644 (some b)
  refine ⟨_, congrArg Host.Outcome.next (onCmd_of_waiting ho hw hop _), ?_⟩
  simp only [hgiven, hasked.unwrapKey, hkey]
  rw [if_neg (Nat.not_le.2 hregion), if_neg (not_not.2 hlength), finish_region, State.region_updRegion_same]
  exact ⟨cmd?_finish_same _ _ _ _ _ _, rfl, by rw [← hasked.region]⟩

/-- A key that does not unwrap is refused. -/
theorem answers_keyload_refused (hkey : unwrapKey s b = none) :
    answers (.keyload h (some b)) s fun t => t.cmd? h = none ∧ t.regions = s.regions := by
  obtain ⟨u, hasked, hgiven⟩ := operand_given hlost haddr 1644 (some b)
  refine ⟨_, congrArg Host.Outcome.next (onCmd_of_waiting ho hw hop _), ?_⟩
  simp only [hgiven, hasked.unwrapKey, hkey]
  rw [if_neg (Nat.not_le.2 hregion), if_neg (not_not.2 hlength)]
  exact ⟨cmd?_finish_same _ _ _ _ _ _, (finish_regions _ _ _ _ _ _).trans hasked.regions⟩

end

section
variable {b : Bytes} (hop : o.opcode = 0x54) (hlength : fieldAt o.cmd 32 4 = b.length) (hsome : b ≠ []) (hmost : b.length ≤ 4194304)
include hop hlength hsome hmost

/-- A FW_WRITE of a whole image writes it or says why not. -/
theorem exec_fwWrite : ∃ u, Posted s u ∧
    exec (.fwWrite h (some b)) s = .next ((writeBank u b).1.finish h (if (writeBank u b).2 = 0 then 0 else 5) (writeBank u b).2 0 0) := by
  have hpos := List.length_pos_iff.2 hsome
  obtain ⟨u, hasked, hgiven⟩ := operand_given hlost haddr b.length (some b)
  refine ⟨u, hasked, congrArg Host.Outcome.next ((onCmd_of_waiting ho hw hop _).trans ?_)⟩
  simp only [hlength, hgiven]
  rw [if_neg (by omega), if_neg (by omega)]

theorem answers_fwWrite (hactive : s.boot.activeBank ≤ 1) (hsigned : fwSigned b = true) (hsecure : s.boot.minSec ≤ fwSecurity b) :
    answers (.fwWrite h (some b)) s fun t => t.cmd? h = none ∧ t.bank (1 - s.boot.activeBank) = b ∧
      t.bank s.boot.activeBank = s.bank s.boot.activeBank ∧ t.boot.written = true := by
  obtain ⟨u, hasked, he⟩ := exec_fwWrite ho hw hlost haddr hop hlength hsome hmost
  obtain ⟨t, hbank, hnew, hold, hwritten⟩ := writeBank_signed (s := u) (b := b)
    (by rw [hasked.boot]; exact hactive) hsigned (by rw [hasked.boot]; exact hsecure)
  have hfinish (i : Nat) : (t.finish h 0 0 0 0).bank i = t.bank i := by rw [State.bank, finish_boot, State.bank]
  have hsame (i : Nat) : u.bank i = s.bank i := by rw [State.bank, hasked.boot, State.bank]
  rw [hasked.boot] at hnew hold
  rw [hbank] at he
  exact ⟨_, he, cmd?_finish_same _ _ _ _ _ _, (hfinish _).trans hnew, (hfinish _).trans (hold.trans (hsame _)),
    by rw [finish_boot, hwritten]⟩

theorem answers_fwWrite_refused (hunsigned : fwSigned b = false) :
    answers (.fwWrite h (some b)) s fun t => t.cmd? h = none ∧ t.boot = s.boot := by
  obtain ⟨u, hasked, he⟩ := exec_fwWrite ho hw hlost haddr hop hlength hsome hmost
  rw [writeBank_unsigned hunsigned] at he
  exact ⟨_, he, cmd?_finish_same _ _ _ _ _ _, (finish_boot _ _ _ _ _ _).trans hasked.boot⟩

end

/-- A TUNE that its region can run enters its job. -/
theorem answers_tune {b : Bytes} (hop : o.opcode = 0x40) (hok : tuneOk s (tuneParams b) = true) :
    answers (.tune h (some b)) s fun t => (∃ q, t.cmd? h = some q ∧ q.running = true) ∧
      ∃ j ∈ t.serving.jobs, j.handle = h ∧ j.region = (tuneParams b).region ∧ j.params = b := by
  obtain ⟨u, hasked, hgiven⟩ := operand_given hlost haddr 80 (some b)
  refine ⟨startJobs (jobEntered u h o b) (tuneParams b).region, ?_, startJobs_entered ((hasked.cmd? h).trans ho) b _⟩
  refine congrArg Host.Outcome.next ((onCmd_of_waiting ho hw hop _).trans ?_)
  simp only [hgiven, hasked.tuneOk, hok]
  rfl

end

/-- A TUNE that its region cannot run is refused. -/
theorem answers_tune_refused {b : Bytes} (hop : o.opcode = 0x40) (hbad : tuneOk s (tuneParams b) = false) :
    answers (.tune h (some b)) s fun t => t.cmd? h = none ∧ t.serving = s.serving := by
  obtain ⟨u, hasked, hgiven⟩ := operand_cases s o (fieldAt o.cmd 24 8) 80 (some b)
  refine ⟨u.finish h 5 0 0 0, ?_, cmd?_finish_same _ _ _ _ _ _, (hostSide_finish _ _ _ _ _ _).serving.trans hasked.serving⟩
  refine congrArg Host.Outcome.next ((onCmd_of_waiting ho hw hop _).trans ?_)
  rcases hgiven with hgiven | hgiven
  · simp only [hgiven]
  · simp only [hgiven, hasked.tuneOk, hbad]
    rfl

end

/-! ## The end of a signing, and the build of a lower tree (R556, R557) -/

section
variable {s : State}

/-- The state in which a report has gone to the host and its handle has completed. -/
def reported (s : State) (h : Nat) (body : Bytes) : State :=
  let q := bodyLeaf body
  let report := body ++ slice (Config.hssSign (keyPart s 0 32) (keyPart s 32 16) q body) 0 5396
  match s.cmd? h with
  | some o => (s.hostWrite (cmdSite s o) (fieldAt o.cmd 32 8) report).finish h 0 0 q report.length
  | none => s

/-- The state in which nothing is being signed, and a tree that is used up waits to be built. -/
def signingOver (v : State) (q : Nat) : State :=
  let tree := v.boot.treeOk && (q + 1) % 2 ^ 20 ≠ 0
  { v with boot := { v.boot with
    signing := none, treeOk := tree || 2 ^ 30 ≤ v.boot.leaf, attState := if 2 ^ 30 ≤ v.boot.leaf then 3 else if tree then 0 else 1 } }

theorem exec_attestSigned {h : Nat} {body : Bytes} (hsigning : s.boot.signing = some (h, body)) :
    exec .attestSigned s = .next (startSigning (signingOver (reported s h body) (bodyLeaf body))) := by
  show execAttestSigned s = _
  rw [execAttestSigned, hsigning]
  rfl

theorem reported_boot (s : State) (h : Nat) (body : Bytes) : (reported s h body).boot = s.boot := by
  unfold reported
  extract_lets q report
  split
  · rw [finish_boot, (posted_hostWrite _ _ _ _).boot]
  · rfl

theorem reported_cmd? (s : State) (h : Nat) (body : Bytes) : (reported s h body).cmd? h = none := by
  unfold reported
  extract_lets q report
  split
  · exact cmd?_finish_same _ _ _ _ _ _
  next hnone => exact hnone

/-- The last report that is asked for ends its handle, and nothing more is signed. -/
theorem answers_attestSigned {h : Nat} {body : Bytes} (hsigning : s.boot.signing = some (h, body)) (hlast : s.boot.attests = []) :
    answers .attestSigned s fun t => t.boot.signing = none ∧ t.cmd? h = none := by
  have hnone : (signingOver (reported s h body) (bodyLeaf body)).boot.attests = [] := by
    show (reported s h body).boot.attests = []
    rw [reported_boot, hlast]
  refine ⟨_, exec_attestSigned hsigning, ?_⟩
  rw [startSigning_of_nil hnone]
  exact ⟨rfl, reported_cmd? s h body⟩

/-- The state in which a lower tree has been built. -/
def treeBuilt (s : State) : State := { s with boot := { s.boot with
  treeOk := true, attState := if !s.boot.leafSound then 2 else if 2 ^ 30 ≤ s.boot.leaf then 3 else 0 } }

theorem exec_lowerTreeBuilt (hphase : s.boot.phase = .complete) (htree : s.boot.treeOk = false) :
    exec .lowerTreeBuilt s = .next (startSigning (treeBuilt s)) := if_neg (by simp [hphase, htree])

theorem answers_lowerTreeBuilt (hphase : s.boot.phase = .complete) (htree : s.boot.treeOk = false) (hsound : s.boot.leafSound = true)
    (hleaf : s.boot.leaf < 2 ^ 30) (hnone : s.boot.attests = []) :
    answers .lowerTreeBuilt s fun t => t.boot.treeOk = true ∧ t.boot.attState = 0 ∧ t.boot.leaf = s.boot.leaf := by
  refine ⟨_, exec_lowerTreeBuilt hphase htree, ?_⟩
  rw [startSigning_of_nil (show (treeBuilt s).boot.attests = [] from hnone)]
  refine ⟨rfl, ?_, rfl⟩
  show (if !s.boot.leafSound then 2 else if 2 ^ 30 ≤ s.boot.leaf then 3 else 0) = 0
  rw [if_neg (by simp [hsound]), if_neg (Nat.not_le.2 hleaf)]

/-! ## The custody switch (R558) and idle sessions (R563) -/

/-- The switch follows a write of a writer that may turn it, with nothing bound, admitted or tuned, and an administrator's key held. -/
theorem answers_custodyEnable {w : Writer} {v : Nat} (hopen : entryShut s 0x2020 = false) (hv : v ≤ 1) (hbound : boundRegions s = [])
    (hctxs : s.serving.ctxs = []) (hjobs : s.serving.jobs = []) (hkey : noAdminKey s = false) (hwf : Tbl.wf s.od.vals)
    (hturn : mayTurn s w = true) : answers (.custodyEnable w v) s fun t => (custodyOn t = true ↔ v = 1) := by
  refine ⟨storeValue s 0x2020 1 (leBytes 1 v), ?_, custodyOn_storeValue hwf hv⟩
  have hop : custodyOp s v = (storeValue s 0x2020 1 (leBytes 1 v), 0) := by
    rw [custodyOp, if_neg (Nat.not_lt.2 hv), if_neg (by simp [hbound, hctxs, hjobs, hkey])]
  show execCustodyEnable w v s = _
  rw [execCustodyEnable, if_pos hturn, hop, applied, if_neg (by simp [hopen])]

/-- Without an administrator's key the switch stays off. -/
theorem answers_custodyEnable_keyless {w : Writer} (hoff : custodyOn s = false) (hkey : noAdminKey s = true) :
    answers (.custodyEnable w 1) s fun t => t = s := by
  have hop : custodyOp s 1 = (s, 5) := by
    rw [custodyOp, if_neg (lt_irrefl 1), if_pos (.inr (.inr (.inr ⟨rfl, by simp [hoff], hkey⟩)))]
  refine ⟨s, ?_, rfl⟩
  show execCustodyEnable w 1 s = _
  rw [execCustodyEnable, if_pos (by simp [mayTurn, hoff]), hop, applied, ite_self]

/-- With custody on, a writer without an ADMIN session leaves the switch. -/
theorem answers_custodyEnable_barred {w : Writer} {v : Nat} (hon : custodyOn s = true)
    (hwriter : w.kind = 1 ∨ w.kind = 2 ∧ ∀ x, s.session? w.id = some x → x.admin = false) :
    answers (.custodyEnable w v) s fun t => t = s := by
  refine ⟨s, if_neg ?_, rfl⟩
  rcases hwriter with hkind | ⟨hkind, hplain⟩
  · simp [mayTurn, hon, hkind]
  · cases hsession : s.session? w.id with
    | none => simp [mayTurn, hon, hkind, hsession]
    | some x => simp [mayTurn, hon, hkind, hsession, hplain x hsession]

theorem answers_sessionIdle {i : Nat} {x : Session} (hopen : s.session? i = some x)
    (hidle : s.passed x.used (1000000000 * s.setting 0x2020 3 3600) = true) (hwf : Tbl.wf s.boot.sessions) :
    answers (.sessionIdle i) s fun t => t.session? i = none := by
  refine ⟨endSession s i, ?_, endSession_session? hwf i⟩
  show execSessionIdle i s = _
  rw [execSessionIdle, hopen]
  exact if_pos hidle

end

/-- Settles O50: each clause is the lemma of its command above. -/
theorem keysAndFirmware : Obligations.KeysAndFirmware := by
  unfold Obligations.KeysAndFirmware
  intro s
  refine ⟨fun h o ho hw => ⟨fun b hlost haddr => answers_attest_waits ho hw hlost haddr,
      fun b hlost haddr => answers_attest_short ho hw hlost haddr, fun b hlost haddr => answers_sessionOpen ho hw hlost haddr,
      fun x => answers_sessionClose ho hw, ?keyload, ?fwWrite, answers_fwActivate ho hw, answers_fwActivate_unwritten ho hw,
      fun b hlost haddr => answers_tune ho hw hlost haddr, fun b => answers_tune_refused ho hw⟩,
    fun h body => answers_attestSigned, fun h body => exec_attestSigned, exec_lowerTreeBuilt, answers_lowerTreeBuilt,
    fun w v => answers_custodyEnable, fun w => answers_custodyEnable_keyless, fun w v => answers_custodyEnable_barred,
    fun i x => answers_sessionIdle⟩
  case keyload =>
    intro b hlost haddr hop hregion hlength
    exact ⟨fun k => answers_keyload ho hw hlost haddr hop hregion hlength,
      answers_keyload_refused ho hw hlost haddr hop hregion hlength⟩
  case fwWrite =>
    intro b hlost haddr hop hlength hsome hmost hactive
    exact ⟨answers_fwWrite ho hw hlost haddr hop hlength hsome hmost hactive,
      answers_fwWrite_refused ho hw hlost haddr hop hlength hsome hmost⟩

end Sys2Proof.Proofs
end
